-- ==== Sys2Proof/Word.lean ====
section
/-! DEFINITION. The words of the FJP-3M8: bytes, registers, engine words and code words, with their plainest parts. -/

namespace Sys2Proof

/-- A byte. -/
abbrev Byte := BitVec 8

/-- A register (R9): 32 bits. -/
abbrev W32 := BitVec 32

/-- An engine word of a TE: tag in bits 63 to 60, payload below (R92). -/
abbrev TWord := BitVec 64

/-- A code word as it is stored and moved: 128 data bits above 16 check bits (R500). -/
abbrev Code := BitVec 144

/-- A signed reading of a register field of `w` bits held in a number. -/
def signedOf (w n : Nat) : Int := if n < 2 ^ (w - 1) then (n : Int) else (n : Int) - (2 ^ w : Nat)

/-- `n + k`, held at `top`: how the counters of the register tables saturate. -/
def satAdd (top n k : Nat) : Nat := if n + k ≤ top then n + k else top

/-- The bytes of a number, least significant first. -/
def bytesLE : Nat → Nat → List Byte
  | 0, _ => []
  | k + 1, n => BitVec.ofNat 8 n :: bytesLE k (n / 256)

/-- The number that bytes spell, least significant first. -/
def numLE : List Byte → Nat
  | [] => 0
  | b :: r => b.toNat + 256 * numLE r

/-- Take `k` elements from position `i`, filling with `d` beyond the end. -/
def slice {α : Type} (d : α) (l : List α) (i : Nat) : Nat → List α
  | 0 => []
  | k + 1 => l.getD i d :: slice d l (i + 1) k

end Sys2Proof
end

