-- ==== Sys2Proof/Args.lean ====
section
/-! DEFINITION. Structured operands of commands: what reaches the block from the air, the wires and the host in one piece. -/

namespace Sys2Proof

/-- What a baseband measures and decodes of one user of a PPDU (R265, R288): the vector's fields from FORMAT to CHAINS but RSSI, TS,
TSF and FLAGS, which the block itself supplies; the tones of the user's RU and the guard interval (0 0.4, 1 0.8, 2 1.6, 3 3.2 µs),
which no field of the vector shows; each receiving chain's earliest-path estimate at its ball (R292), in eightieths of a ns of TB0. -/
structure RxVec where
  format : BitVec 8
  phy : BitVec 8
  rate : BitVec 8
  punct : BitVec 16
  ru : BitVec 16
  snr : BitVec 8
  cfo : BitVec 16
  len : BitVec 32
  chains : BitVec 8
  tones : Nat
  gi : BitVec 2
  ests : List (Nat × Nat)
  deriving DecidableEq, Repr

/-- What a PPDU's signal fields say of what follows (R277, R282, R288): its remaining length in ns, the bits of its first codeword, its users
as far as the fields show them. -/
structure SigFields where
  dur : Nat
  first : Nat
  users : List RxVec
  deriving DecidableEq, Repr

/-- A user of a PPDU that the MAC forms, or asks for in a trigger (R265, R267, R268): its station, none for a group; its RU and the
RU's tones; streams, MCS, LDPC in place of BCC, STBC, DCM. -/
structure TxUser where
  sta : Option Nat
  ru : Nat
  tones : Nat
  streams : Nat
  mcs : Nat
  ldpc : Bool
  stbc : Bool
  dcm : Bool
  deriving DecidableEq, Repr

/-- What a PPDU of the MAC is (R268, R269): frames, a trigger that asks users for an uplink PPDU, an NDP announcement to stations, an
NDP, or the trigger for beamforming feedback. -/
inductive Content where
  | frames
  | trigger (ask : List TxUser)
  | ndpa (stas : List Nat)
  | ndp
  | bfTrigger
  deriving DecidableEq, Repr

/-- A transmit that the MAC forms (R265, R305, R308): chain set; the subchannels found busy in the PIFS before it; whether it is
beamformed and towards which stations; requested quarter-dBm; the staged subframes it carries, those that do not fit; whether it
solicits a response; the ns that the PPDU lasts, its padding with it (R314), and those that the whole exchange lasts, responses with it
(R308, R312); format, width, guard interval and users; its coded bits; what it is. -/
structure TxPlan where
  chains : BitVec 16
  busy : BitVec 16
  steer : List Nat
  power : BitVec 16
  subs : List Nat
  back : List Nat
  solicits : Bool
  ppdu : Nat
  whole : Nat
  format : Nat
  bw : Nat
  gi : BitVec 2
  users : List TxUser
  bits : Nat
  content : Content
  deriving DecidableEq, Repr

/-- A received MPDU (R321, R336): station, TID (16 for management), sequence and packet number, key ID, whether its MIC holds,
the MSDU or MMPDU bytes; the reported backlog of its TID where it carries one; the station's new power state where its
power-management bits change it; the compressed beamforming feedback it carries, with the NDP it answers: 0 for chains 0 to 7, 1 for
chains 8 to 15 (R269). -/
structure AirMpdu where
  sta : Nat
  tid : Nat
  seq : Nat
  pn : Nat
  keyId : Option Nat
  mic : Bool
  bytes : List Byte
  backlog : Option Nat
  power : Option Nat
  feedback : Option (Nat × List Byte)
  deriving DecidableEq, Repr

end Sys2Proof
end

