-- ==== Sys2Proof/Syntax.lean ====
section
/-! DEFINITION. The commands of the FJP-3M8: one constructor per row of the opcode table. The operands of a command are
what reaches the block from outside with it: addresses, values, fields, bytes, and observations of the analog or
physical world that the spec gives no formula for (log 12). -/

namespace Sys2Proof

/-- The engine that issues an instruction (R92, R138): a TE or the lantern core. -/
inductive Eng where
  | te (n : Fin 16)
  | lc
  deriving DecidableEq, Repr

/-- A command. -/
inductive Instr where
  /-- REGISTER_WRITE: Software writes a register that has no row of its own; RWL and RWS fields are checked and protected. (R12) -/
  | registerWrite (addr : Nat) (v : BitVec 32) (linear : Bool)
  /-- BRIDGE_ACCESS: A read or write through the MSH bridge; while the lantern is Off it returns 0 or is discarded and sets BRIDGE_ERR. (R19) -/
  | bridgeAccess (write : Bool) (off : Nat) (v : BitVec 32)
  /-- RIDGE_HEADER_ROUTE: A switch node decodes a packet header word under the common code and routes the packet by dimension order. (R28) -/
  | ridgeHeaderRoute (node : Nat) (header : BitVec 144)
  /-- PACKET_ARRIVE: A packet arrives at its destination port and its SEQ is checked against the previous one of its source and class. (R30) -/
  | packetArrive (blk : Nat) (header : BitVec 144)
  /-- BEAT_START: TB0 crosses the next beat boundary; the plinth starts beat n and sends the beat-start event over the beat tree. (R34) -/
  | beatStart (codes : List (BitVec 8)) (late : List Nat) (table : List Byte) (host : List (List Byte × List Byte))
  /-- TICK_EVENT: TB0 crosses a tick boundary and the plinth sends a tick event. (R558) -/
  | tickEvent
  /-- MAIN_POWER_FAIL: A main rail leaves its window or main power-good falls; the main domain resets and the lantern takes over the mailbox. (R734) -/
  | mainPowerFail
  /-- MAIN_POWER_GOOD: PORST_N and main power-good have held together for 1 ms and the main domain leaves reset. (R732) -/
  | mainPowerGood (linear : Bool)
  /-- PLINTH_WRITE: A write to ARM_PLINTH sets RUN or PERIOD, ignored and reported when a period change is written while an armature is active. (R47) -/
  | plinthWrite (v : BitVec 32)
  /-- LOAD_GO: ARM_LDCTL.GO starts the loader on the named source and destination. (R63) -/
  | loadGo (v : BitVec 32)
  /-- LOAD_DONE: The loader finishes its stages and marks the destination VALID, or INVALID with stage, code and index at the first failure. (R63) -/
  | loadDone (host : List Byte)
  /-- KEY_REVOKE: Two writes of slot k to ARM_KEYREVOKE within one beat blow slot k's revoke fuse unless it is the last valid slot. (R61) -/
  | keyRevoke (k : BitVec 1)
  /-- MARGIN_MINCLR: ARM_MMCTL.MINCLR resets every monitor minimum and ARM_MMSTAT to 255. (R91) -/
  | marginMinclr (v : BitVec 32)
  /-- BEAT_COUNTER_READ: A read of ARM_BEAT_LO returns the current beat and latches ARM_BEAT_HI. (R90) -/
  | beatCounterRead
  /-- SWAP_ARM: ARM_SWAPCTL.ARM arms a swap at ARM_SWAPF, refused if the frame is less than two frames ahead or no journal runs. (R73) -/
  | swapArm
  /-- SWAP_CANCEL: ARM_SWAPCTL.CANCEL disarms an armed swap with status CANCELLED. (R91) -/
  | swapCancel
  /-- FALLBACK_RELOAD: The device starts loading the fallback armature into a shadow bank that holds nothing valid. (R76) -/
  | fallbackReload
  /-- FALLBACK_LOAD_DONE: The fallback load into the shadow bank completes and the bank is marked FALLBACK. (R76) -/
  | fallbackLoadDone
  /-- FALLBACK_START: CONSEC reaches LIMIT with AUTO_FB, or critical margin calls for it; the device swaps to the fallback or enters Hold. (R82) -/
  | fallbackStart
  /-- PROFILE_GO: ARM_PROFCTL.GO starts a profile change against the regulator, or is refused. (R87) -/
  | profileGo (v : BitVec 32)
  /-- VR_ENABLE: Setting ARM_VRCTL.ENABLE starts driving the regulator, reading VOUT_MODE in PMBus mode. (R86) -/
  | vrEnable (v : BitVec 32) (linear : Bool)
  /-- PMBUS_POLL: Every 100 µs the device polls STATUS_WORD and READ_VOUT of the regulator. (R86) -/
  | pmbusPoll (status : BitVec 16) (mv : Nat)
  /-- VR_GOOD: The regulator reports good, by VR_PGOOD or by a poll result within 1 % of target. (R86) -/
  | vrGood
  /-- VR_SETTLE_END: SETTLE_US after regulator good expires and the voltage is confirmed. (R87) -/
  | vrSettleEnd
  /-- VR_TIMEOUT: ARM_VRCTL.TIMEOUT expires without confirmation; the change is abandoned with VR_TIMEOUT or completes DONE_LATE. (R87) -/
  | vrTimeout (good : Bool)
  /-- ADD: TE or LC instruction ADD. (R152) -/
  | add (e : Eng) (rd ra rb : BitVec 5) (undef : Option (BitVec 32))
  /-- SUB: Instruction SUB. (R152) -/
  | sub (e : Eng) (rd ra rb : BitVec 5)
  /-- AND: Instruction AND. (R152) -/
  | and (e : Eng) (rd ra rb : BitVec 5)
  /-- OR: Instruction OR. (R152) -/
  | or (e : Eng) (rd ra rb : BitVec 5)
  /-- XOR: Instruction XOR. (R152) -/
  | xor (e : Eng) (rd ra rb : BitVec 5)
  /-- ANDN: Instruction ANDN. (R152) -/
  | andn (e : Eng) (rd ra rb : BitVec 5)
  /-- SHL: Instruction SHL. (R153) -/
  | shl (e : Eng) (rd ra rb : BitVec 5)
  /-- SHR: Instruction SHR. (R153) -/
  | shr (e : Eng) (rd ra rb : BitVec 5)
  /-- SAR: Instruction SAR. (R153) -/
  | sar (e : Eng) (rd ra rb : BitVec 5)
  /-- NEG: Instruction NEG. (R152) -/
  | neg (e : Eng) (rd ra : BitVec 5)
  /-- NOT: Instruction NOT. (R152) -/
  | not (e : Eng) (rd ra : BitVec 5)
  /-- MUL: Instruction MUL. (R152) -/
  | mul (e : Eng) (rd ra rb : BitVec 5)
  /-- MULH: Instruction MULH. (R152) -/
  | mulh (e : Eng) (rd ra rb : BitVec 5)
  /-- CMP: Instruction CMP. (R154) -/
  | cmp (e : Eng) (ra rb : BitVec 5)
  /-- CEQ: Instruction CEQ. (R155) -/
  | ceq (e : Eng) (ra rb : BitVec 5)
  /-- MOV: Instruction MOV. (R152) -/
  | mov (e : Eng) (rd ra : BitVec 5)
  /-- TAGOF: Instruction TAGOF. (R155) -/
  | tagof (e : Eng) (rd ra : BitVec 5)
  /-- DIV: Instruction DIV, writing quotient, remainder, V and DZ 12 slots later. (R160) -/
  | div (e : Eng) (rd rr ra rb : BitVec 5)
  /-- ADDI: Instruction ADDI. (R156) -/
  | addi (e : Eng) (rd ra : BitVec 5) (imm : BitVec 16)
  /-- ANDI: Instruction ANDI. (R156) -/
  | andi (e : Eng) (rd ra : BitVec 5) (imm : BitVec 16)
  /-- ORI: Instruction ORI. (R156) -/
  | ori (e : Eng) (rd ra : BitVec 5) (imm : BitVec 16)
  /-- XORI: Instruction XORI. (R156) -/
  | xori (e : Eng) (rd ra : BitVec 5) (imm : BitVec 16)
  /-- SHLI: Instruction SHLI. (R156) -/
  | shli (e : Eng) (rd ra : BitVec 5) (imm : BitVec 16)
  /-- SHRI: Instruction SHRI. (R156) -/
  | shri (e : Eng) (rd ra : BitVec 5) (imm : BitVec 16)
  /-- SARI: Instruction SARI. (R156) -/
  | sari (e : Eng) (rd ra : BitVec 5) (imm : BitVec 16)
  /-- CMPI: Instruction CMPI. (R156) -/
  | cmpi (e : Eng) (ra : BitVec 5) (imm : BitVec 16)
  /-- MOVI: Instruction MOVI. (R156) -/
  | movi (e : Eng) (rd : BitVec 5) (imm : BitVec 21)
  /-- MOVK: Instruction MOVK. (R157) -/
  | movk (e : Eng) (rd : BitVec 5) (hw : BitVec 2) (imm : BitVec 16)
  /-- RETAG: Instruction RETAG. (R158) -/
  | retag (e : Eng) (rd ra : BitVec 5) (tag : BitVec 4)
  /-- LD: Instruction LD, a local load. (R161) -/
  | ld (e : Eng) (rd ra : BitVec 5) (imm : BitVec 16)
  /-- ST: Instruction ST, a local store, logged in the undo log. (R161) -/
  | st (e : Eng) (rd ra : BitVec 5) (imm : BitVec 16)
  /-- EXT: Instruction EXT. (R159) -/
  | ext (e : Eng) (rd ra : BitVec 5) (pos len1 : BitVec 6)
  /-- INS: Instruction INS. (R159) -/
  | ins (e : Eng) (rd ra : BitVec 5) (pos len1 : BitVec 6)
  /-- FETCH: Instruction FETCH issues a far read that completes later on its flag. (R162) -/
  | fetch (e : Eng) (rl rf : BitVec 5) (len1 : BitVec 6) (flag : BitVec 5) (mode : Bool)
  /-- PUT: Instruction PUT sends local words to a far target over 1 + length slots. (R162) -/
  | put (e : Eng) (rl rf : BitVec 5) (len1 : BitVec 6) (flag : BitVec 5) (mode : Bool)
  /-- WAIT: Instruction WAIT on a flag mask with an optional deadline, entering the power mode of MODE.PM; on LC waits for an interrupt. (R163) -/
  | wait (e : Eng) (cond ra rb : BitVec 5)
  /-- ESTAT: Instruction ESTAT reads a flag's status. (R164) -/
  | estat (e : Eng) (rd f : BitVec 5)
  /-- CLRE: Instruction CLRE clears flags and their status. (R164) -/
  | clre (e : Eng) (ra : BitVec 5)
  /-- SIG: Instruction SIG sends an EVENT packet, holding issue until the ridge pole accepts it. (R164) -/
  | sig (e : Eng) (ra f : BitVec 5)
  /-- RDS: Instruction RDS reads a special register. (R166) -/
  | rds (e : Eng) (rd i : BitVec 5)
  /-- WRS: Instruction WRS writes a special register. (R166) -/
  | wrs (e : Eng) (i ra : BitVec 5)
  /-- RDX: Instruction RDX reads a register of the interrupted task. (R166) -/
  | rdx (e : Eng) (rd r : BitVec 5)
  /-- WRX: Instruction WRX writes a register of the interrupted task. (R166) -/
  | wrx (e : Eng) (r ra : BitVec 5)
  /-- BCOND: Conditional branch instruction with two delay slots. (R168) -/
  | bcond (e : Eng) (cond : BitVec 4) (off : BitVec 22)
  /-- CALL: Instruction CALL. (R169) -/
  | call (e : Eng) (rd : BitVec 5) (off : BitVec 21)
  /-- JR: Instruction JR. (R169) -/
  | jr (e : Eng) (rd ra : BitVec 5)
  /-- BTAG: Instruction BTAG, branch when the tag matches. (R170) -/
  | btag (e : Eng) (ra : BitVec 5) (tag : BitVec 4) (off : BitVec 16)
  /-- BNTAG: Instruction BNTAG, branch when the tag differs. (R170) -/
  | bntag (e : Eng) (ra : BitVec 5) (tag : BitVec 4) (off : BitVec 16)
  /-- NOP: Instruction NOP. (R172) -/
  | nop (e : Eng)
  /-- END: Instruction END ends the task after its delay slots and commits it. (R173) -/
  | endTask (e : Eng)
  /-- FRET_RETRY: The fault task ends and the interrupted task issues FPC again. (R132) -/
  | fretRetry (e : Eng)
  /-- FRET_SKIP: The fault task ends and the interrupted task skips the faulting instruction. (R132) -/
  | fretSkip (e : Eng)
  /-- FRET_ABANDON: The fault task ends and the interrupted task is abandoned and replayed. (R132) -/
  | fretAbandon (e : Eng)
  /-- BRK: Instruction BRK, a no-operation or BREAK fault. (R129) -/
  | brk (e : Eng)
  /-- RETI: LC instruction RETI restores PC and FL after its delay slots. (R141) -/
  | reti (e : Eng)
  /-- REP: REP prefix repeating a string or MOV instruction nc times. (R125) -/
  | rep (e : Eng) (iters : Nat)
  /-- MOVS: String instruction MOVS. (R175) -/
  | movs (e : Eng)
  /-- FILLS: String instruction FILLS. (R175) -/
  | fills (e : Eng) (ra : BitVec 5)
  /-- SCANS: String instruction SCANS. (R175) -/
  | scans (e : Eng) (ra : BitVec 5)
  /-- CMPS: String instruction CMPS. (R175) -/
  | cmps (e : Eng)
  /-- RESULT_LAND: A pending register or flag result lands after its distance, later issue standing on a tie; a pending DZ trap is taken. (R95) -/
  | resultLand (e : Eng)
  /-- FAULT_TASK_START: After pending results land, fault state is frozen, a fault record is written and the slot-63 fault task starts or ABANDON is taken. (R130) -/
  | faultTaskStart (te : Fin 16)
  /-- FETCH_COMPLETE: A far FETCH completes, landing all its words and setting its flag and status. (R116) -/
  | fetchComplete (te : Fin 16) (id : Nat) (host : Option (List Byte))
  /-- PUT_COMPLETE: A far PUT completes at its target, setting its flag with status; unit results land first. (R119) -/
  | putComplete (te : Fin 16) (id : Nat) (hostOk : Bool)
  /-- WAIT_DEADLINE: TB0 reaches a WAIT's deadline and the WAIT ends with FL.TO = 1. (R120) -/
  | waitDeadline (te : Fin 16)
  /-- LC_INTERRUPT: An enabled interrupt source fires and LC enters its vector, waking from Doze or Bivouac. (R141) -/
  | lcInterrupt (n : Nat)
  /-- TASK_DISPATCH: An idle engine takes the ready task with the lowest PRIO, clearing its wait flags. (R182) -/
  | taskDispatch (te : Fin 16)
  /-- TASK_SKIP: A released task still not ready at the end of its DEADLINE tick is skipped and counted. (R184) -/
  | taskSkip (te : Fin 16) (slot : BitVec 6)
  /-- EVENT_PACKET: An EVENT packet reaches a TE's event queue in DSP, or holds its sender while the queue is full. (R187) -/
  | eventPacket (te : Fin 16) (slot : BitVec 6) (flag : BitVec 5)
  /-- HOST_SIG: A write to DSP_HOSTSIG enters an event into the target TE's event queue. (R187) -/
  | hostSig (v : BitVec 32)
  /-- QITEM_RECEIVE: A queue channel receives a QITEM's words in order, holding the producer when full. (R194) -/
  | qitemReceive (src : Nat) (ch : Fin 256) (arg : BitVec 16) (words : List (BitVec 144))
  /-- QCH_FETCH_DATA: A FETCH of kind DATA takes words of the channel's first visible item. (R198) -/
  | qchFetchData (te : Fin 16) (id : Nat)
  /-- QCH_FETCH_HEADED: A FETCH of kind HEADED writes a header word and takes words of the current item. (R199) -/
  | qchFetchHeaded (te : Fin 16) (id : Nat)
  /-- QCH_PUT_DATA: A PUT of kind DATA sends one item to a channel. (R200) -/
  | qchPutData (te : Fin 16) (id : Nat) (taken : Bool)
  /-- FLUSH: FLUSH discards whole items, voids the item being written and completes outstanding FETCHes FLUSHED. (R206) -/
  | flush (by_ : Nat ⊕ (Fin 16 × Nat))
  /-- DROP_REM: DROP_REM discards the remainder of the consumer's current packet. (R205) -/
  | dropRem (by_ : Nat ⊕ (Fin 16 × Nat))
  /-- CHANNEL_ENABLE: Setting FQ_CHn_CFG.ENABLE, refused for an overlapping or invalid store range. (R210) -/
  | channelEnable (ch : Fin 256) (v : BitVec 32)
  /-- RADIO_MODE_SET: Software writes RFx_CTL.MODE, applied at the next beat start. (R223) -/
  | radioModeSet (x : Fin 3) (v : BitVec 32)
  /-- RADIO_TRANSITION_DONE: A radio state transition ends and any held command starts its own transition. (R224) -/
  | radioTransitionDone (x : Fin 3)
  /-- SYNTH_LOCK: The synthesiser reports lock and a held transmit starts. (R229) -/
  | synthLock (x : Fin 3)
  /-- TX_SYNTH_DEADLINE: Start plus tolerance passes without lock and the transmit is cancelled LATE_SYNTH. (R230) -/
  | txSynthDeadline (x : Fin 3)
  /-- SYNTH_LOCK_LOSS: A locked synthesiser loses lock; transmission stops, relock begins and LOCK_LOST is raised. (R232) -/
  | synthLockLoss (x : Fin 3)
  /-- PPDU_TX_END: The last sample of a transmitted PPDU is sent and the radio returns to its rest state. (R225) -/
  | ppduTxEnd (x : Fin 3) (pd canc : List (Nat × Nat))
  /-- OVPWR_CLEAR: Writing 1 to an RFx_OVPWR bit re-enables the chain's transmit. (R258) -/
  | ovpwrClear (x : Fin 3) (v : BitVec 32)
  /-- CAL_SLOT_START: A CAL slot reaches START and starts its calibration if the radio is free, else waits. (R238) -/
  | calSlotStart (x : Fin 3) (i : Nat)
  /-- CAL_SKIP: START + LATEST passes with the radio busy and the calibration is skipped and counted. (R238) -/
  | calSkip (x : Fin 3)
  /-- CAL_DONE: A calibration completes and applies its coefficients. (R234) -/
  | calDone (x : Fin 3)
  /-- CHANNEL_STAGE: A write to RFx_CHAN stages a channel, ignored and reported when invalid. (R240) -/
  | channelStage (x : Fin 3) (v : BitVec 32)
  /-- ID_RESCAN: IDM_BUSk_CTL.RESCAN starts a re-read of the radio's identity bus. (R247) -/
  | idRescan (k : Fin 3) (v : BitVec 32)
  /-- HP_EDGE: An edge on IDxHP_N starts the 1 ms acceptance timer. (R246) -/
  | hpEdge (k : Fin 3) (level : Bool)
  /-- HP_ACCEPT: IDxHP_N has held its new level for 1 ms; the toggle is accepted and a re-read starts or restarts. (R246) -/
  | hpAccept (k : Fin 3)
  /-- ID_RECORD_READ: An identity memory read completes and the record is validated. (R250) -/
  | idRecordRead (k : Fin 3) (ack : Bool) (bytes : List Byte)
  /-- ID_BUS_STUCK: A bus held low for 1 ms is freed and counts as a bus error. (R245) -/
  | idBusStuck (k : Fin 3)
  /-- PPDU_DETECT: A baseband detects a PPDU on the primary 20 MHz and starts gain control. (R273) -/
  | ppduDetect (x : Fin 3) (power : Int)
  /-- GAIN_SETTLED: Gain control settles and the frame power is latched. (R273) -/
  | gainSettled (x : Fin 3) (power : Int)
  /-- BUSY_REPORT: Every 1 µs the baseband reports busy subchannels to the sequencer. (R274) -/
  | busyReport (x : Fin 3) (energy : List (BitVec 8)) (nav : Bool)
  /-- SIGNAL_FIELDS: The signal fields are received and checked; a failure ends the reception SIG_FAIL. (R282) -/
  | signalFields (x : Fin 3) (ok tb own foreign : Bool) (sig : SigFields)
  /-- CODEWORD_DONE: An LDPC or Viterbi codeword finishes decoding. (R276) -/
  | codewordDone (x : Fin 3) (bits next : Nat) (failed : Bool) (users : List RxVec) (rssi : List (Nat × BitVec 8))
  /-- RX_RESTART: A power step with fresh L-STF periodicity restarts reception on the stronger PPDU. (R279) -/
  | rxRestart (x : Fin 3) (power : Int) (users : List RxVec) (rssi : List (Nat × BitVec 8))
  /-- PPDU_RX_END: A reception ends and its receive vector and PSDU are delivered with a status. (R289) -/
  | ppduRxEnd (x : Fin 3) (supported soliciting : Bool) (users : List RxVec) (rssi : List (Nat × BitVec 8))
  /-- RX_TRUNCATE: Power has stayed 20 dB below frame power for 4 µs and the reception ends TRUNCATED. (R289) -/
  | rxTruncate (x : Fin 3) (users : List RxVec) (rssi : List (Nat × BitVec 8))
  /-- SLOT_OPEN: A slot's START fine step is reached and the sequencer tests the medium. (R304) -/
  | slotOpen (x : Fin 3) (i : Nat)
  /-- SLOT_START: The medium condition holds and the slot starts its content. (R304) -/
  | slotStart (x : Fin 3) (p : TxPlan)
  /-- SLOT_MISS: START + LATEST passes without the medium condition and the slot is missed. (R306) -/
  | slotMiss (x : Fin 3) (p : TxPlan)
  /-- RESPONSE_SEND: SIFS after a soliciting PPDU the sequencer sends the immediate response. (R302) -/
  | responseSend (x : Fin 3) (p : TxPlan)
  /-- RESPONSE_TIMEOUT: No PPDU is detected by the response timeout and the attempt fails. (R303) -/
  | responseTimeout (x : Fin 3)
  /-- BACKOFF_COUNT: In a CONT slot an EDCA backoff counter counts down a slot time. (R312) -/
  | backoffCount (x : Fin 3) (ac cw : Nat) (p : Option TxPlan)
  /-- MPDU_RECEIVE: A received MPDU is reordered, checked for replay and MIC, and delivered. (R336) -/
  | mpduReceive (x : Fin 3) (u : AirMpdu)
  /-- BLOCKACK_RECEIVE: An acknowledgement releases MPDUs, advances the rewind mark and releases home copies. (R323) -/
  | blockackReceive (x : Fin 3) (sta tid : Nat) (seqs : List Nat)
  /-- REORDER_TIMEOUT: A held MPDU has waited REORDER_TO and the window moves past the holes. (R321) -/
  | reorderTimeout (sta tid : Nat)
  /-- STAGE: A PUT to unit 0x30 + radio, operation STAGE, hands an MPDU to WMAC and assigns its numbers. (R331) -/
  | stage (te : Fin 16) (id : Nat) (x : Fin 3)
  /-- RESTAGE_DONE: A lost subframe refetched from DRAM is encrypted and staged anew. (R326) -/
  | restageDone (x : Fin 3) (id : Nat)
  /-- ENQ: A PUT to unit 0x40 operation ENQ enqueues a downlink frame. (R341) -/
  | enq (te : Fin 16) (id : Nat)
  /-- ALLOC: A PUT to unit 0x41 operation ALLOC takes home-copy buffers. (R345) -/
  | alloc (te : Fin 16) (id : Nat)
  /-- HOME_FREE: A PUT to unit 0x41 operation FREE returns home-copy buffers. (R345) -/
  | homeFree (te : Fin 16) (id : Nat)
  /-- TPL_SEAL: ASCH_TPLCTL.SEAL tags the shadow template bank with the shadow ARM_ID. (R348) -/
  | tplSeal
  /-- TPL_CLEAR: ASCH_TPLCTL.CLEAR zeroes the shadow template bank and its tag. (R372) -/
  | tplClear
  /-- MESH_TRANSITION_DONE: A mesh radio state transition completes. (R375) -/
  | meshTransitionDone
  /-- MESH_SYNTH_LOCK: The mesh synthesiser reports lock and a held transmit starts. (R377) -/
  | meshSynthLock
  /-- MESH_TX_SYNTH_DEADLINE: Start + 16 µs passes without lock and the mesh transmit is cancelled LATE_SYNTH. (R377) -/
  | meshTxSynthDeadline
  /-- MESH_LOCK_LOSS: The mesh synthesiser loses lock and transmission stops. (R378) -/
  | meshLockLoss
  /-- MESH_PREAMBLE_DETECT: A correlator detects a mesh preamble and becomes owner or searcher. (R391) -/
  | meshPreambleDetect (power : Int) (snr cfo : Nat)
  /-- MESH_FALSE_LOCK: The owner's correlation fails twice or no sync comes in time; the reception is abandoned. (R392) -/
  | meshFalseLock
  /-- MESH_SYNC_ACCEPT: The sync word is accepted and the RSSI latched. (R393) -/
  | meshSyncAccept (power : Int) (errs : Nat)
  /-- MESH_HEADER: The mesh header block is decoded and checked. (R384) -/
  | meshHeader (b0 b1 b2 : Byte)
  /-- MESH_RX_END: A mesh reception ends and its vector is delivered to the link controller. (R398) -/
  | meshRxEnd (snr cfo : Nat) (payload : List Byte)
  /-- MESH_RX_TRUNCATE: Power fell 20 dB below frame power long enough and the reception ends TRUNCATED. (R398) -/
  | meshRxTruncate (snr cfo : Nat)
  /-- MESH_TX_END: A mesh transmission ends and its completion returns with the transmit stamp. (R399) -/
  | meshTxEnd
  /-- MESH_CAL_GO: MSH_MRCAL.GO starts a mesh calibration, refused during a PPDU. (R402) -/
  | meshCalGo (v : BitVec 32)
  /-- MESH_CAL_DONE: A mesh calibration completes and applies its coefficients. (R402) -/
  | meshCalDone (db : Nat)
  /-- MESH_CAL_STALE: The die temperature has moved by DT since the last IRR; CAL_STALE is set and LC interrupted. (R402) -/
  | meshCalStale (dt : Nat)
  /-- DUTY_BUCKET_END: A duty bucket period ends and the buckets are saved to lantern non-volatile memory. (R409) -/
  | dutyBucketEnd
  /-- WAKE_MATCH: The wake receiver matches the wake word and interrupts LC. (R412) -/
  | wakeMatch
  /-- WAKE_ENABLE: A write setting MSH_WAKECTL.EN, refused for word 0x0000 or 0xFFFF. (R412) -/
  | wakeEnable (v : BitVec 32)
  /-- SUPERFRAME_START: TB4 crosses a superframe boundary and the BSN advances. (R421) -/
  | superframeStart
  /-- MESH_SLOT_START: A mesh slot begins and the lantern acts as its kind lays down. (R423) -/
  | meshSlotStart (j : Nat)
  /-- MESH_DATA_RECEIVE: A DATA frame is judged, accepted and delivered or logged. (R430) -/
  | meshDataReceive
  /-- MESH_ACK_RECEIVE: An ACK frame is accepted, completing a resync or acknowledged transfer. (R437) -/
  | meshAckReceive
  /-- MESH_FLOOD_RECEIVE: A FLOOD frame is checked against the seen cache and delivered or relayed. (R442) -/
  | meshFloodReceive
  /-- MESH_PARENT_RECEIVE: A PARENT frame is accepted and PARENT_CHANGE raised. (R441) -/
  | meshParentReceive
  /-- LK_WINDOW_CLOSE: A receive window of the link controller closes. (R396) -/
  | lkWindowClose
  /-- RESYNC_BURST: The lantern starts a wake burst to resynchronise a neighbour. (R437) -/
  | resyncBurst (node : Nat)
  /-- RESYNC_SEND: 20 ms after the burst ends the lantern sends a RESYNC with ACKREQ. (R437) -/
  | resyncSend (node : Nat)
  /-- MESH_ACK_SEND: 500 µs after an accepted frame with ACKREQ the lantern sends an ACK. (R438) -/
  | meshAckSend
  /-- FLOOD_RELAY: A scheduled flood relay's delay expires and it goes out in the next FLOOD slot. (R442) -/
  | floodRelay (orig seq : Nat)
  /-- SEEN_AGE: A seen-cache entry is removed 60 s after it entered. (R443) -/
  | seenAge (orig seq : Nat)
  /-- MBOX_OPEN: Mailbox command OPEN opens the mailbox and delivers logged items first. (R448) -/
  | mboxOpen
  /-- MBOX_ACK: Mailbox command ACK releases the outstanding item of a channel. (R447) -/
  | mboxAck
  /-- TPL_DATA: Mailbox command TPL_DATA writes template bytes into STAGED. (R446) -/
  | tplData
  /-- TPL_APPLY: Mailbox command TPL_APPLY checks the staged template and schedules it. (R425) -/
  | tplApply
  /-- NODE_ADD: Mailbox command NODE add enters a node with its MARK. (R446) -/
  | nodeAdd
  /-- NODE_DELETE: Mailbox command NODE delete removes a node. (R446) -/
  | nodeDelete
  /-- MESH_KEY: Mailbox command KEY installs a network key and resets counters and windows. (R429) -/
  | meshKey
  /-- NBR_DEL: Mailbox command NBR_DEL frees a neighbour entry. (R439) -/
  | nbrDel
  /-- MESH_DOWN: A DOWN item queues a downlink frame by the route or is answered NO_ROUTE or FULL. (R441) -/
  | meshDown
  /-- MESH_FLOOD_ITEM: A FLOOD item makes the lantern originate a flood. (R442) -/
  | meshFloodItem
  /-- MBOX_BAD_ITEM: An item of unknown KIND or on channel 251 is refused BAD_KIND. (R446) -/
  | mboxBadItem (ch : Nat)
  /-- LOG_POINTER_SAVE: Every 60 s the delivery pointer is saved to a rotating slot. (R450) -/
  | logPointerSave
  /-- LK_RX_WINDOW: LK_CMD op 1 queues a receive window. (R453) -/
  | lkRxWindow (profile : BitVec 2) (buf len : Byte)
  /-- LK_TX: LK_CMD op 2 queues a transmit. (R453) -/
  | lkTx (profile : BitVec 2) (buf len : Byte)
  /-- LK_WAKE_BURST: LK_CMD op 3 queues a wake burst. (R453) -/
  | lkWakeBurst (len : Byte)
  /-- LK_CAL: LK_CMD op 4 queues a calibration. (R453) -/
  | lkCal (kind : BitVec 2)
  /-- LK_COMMAND_START: The link controller runs the head command at its LK_AT instant, or completes it LATE_SYNTH if passed. (R453) -/
  | lkCommandStart
  /-- LK_NOW_READ: Reading byte 0 of LK_NOW latches bytes 1–3. (R453) -/
  | lkNowRead
  /-- MB_END: MB_CTL.END sends the item written or takes the next one on the selected channel. (R453) -/
  | mbEnd
  /-- LG_COMMIT: LG_CTL.COMMIT commits a log record. (R453) -/
  | lgCommit
  /-- CCM_ENCRYPT: CC_CTL.GO with encrypt runs CCM* on an SRAM buffer. (R453) -/
  | ccmEncrypt (mic8 : Bool) (buf len : Byte)
  /-- CCM_DECRYPT: CC_CTL.GO with decrypt runs CCM* and checks the MIC. (R453) -/
  | ccmDecrypt (mic8 : Bool) (buf len : Byte)
  /-- CCM_DONE: The cipher unit finishes and clears busy. (R453) -/
  | ccmDone
  /-- ETH_RX_FRAME: A port finishes receiving a frame and delivers it as a descriptor or data items. (R456) -/
  | ethRxFrame (p : Fin 5) (bytes : List Byte) (fcsOk : Bool) (age : Nat)
  /-- SEND: A PUT to unit 0x50 + port operation SEND queues a frame for transmission. (R458) -/
  | send (te : Fin 16) (id : Nat) (p : Fin 5)
  /-- ETH_TX_END: A frame's last byte leaves; its handle returns and the port chooses the next eligible frame. (R460) -/
  | ethTxEnd (p : Fin 5) (age : Nat)
  /-- TXTS_READ: A read of UPL_Pp_TXTS2 removes the oldest transmit stamp. (R473) -/
  | txtsRead (p : Fin 5)
  /-- PAUSE_RECEIVE: A pause or PFC frame pauses queues for its time. (R462) -/
  | pauseReceive (p : Fin 5) (pfc : Bool) (en : BitVec 8) (quanta : List (BitVec 16))
  /-- PAUSE_EXPIRE: A pause time runs out and the queues resume. (R462) -/
  | pauseExpire (p : Fin 5) (q : Fin 8)
  /-- PAUSE_WATCHDOG: Pause has held beyond PAUSE_MAX; it ends and PAUSE_STORM is raised. (R464) -/
  | pauseWatchdog (p : Fin 5) (q : Fin 8)
  /-- PAUSE_IGNORE_END: PAUSE_IGNORE expires and the port honours pause again. (R464) -/
  | pauseIgnoreEnd (p : Fin 5) (q : Fin 8)
  /-- PAUSE_RESEND: Half the sent pause time passes above XON and the pause frame is sent again. (R466) -/
  | pauseResend (p : Fin 5)
  /-- GCL_CHANGE: UPL_Pp_GCTL.CHANGE requests a new gate list. (R468) -/
  | gclChange (p : Fin 5) (v : BitVec 32)
  /-- GCL_START: TB0 reaches S and the new gate list operates; GCL_START raised. (R468) -/
  | gclStart (p : Fin 5)
  /-- GATE_INTERVAL_END: A gate list entry's interval ends and the next gate state applies. (R467) -/
  | gateIntervalEnd (p : Fin 5)
  /-- LPI_ENTER: Queues empty for IDLE_US and the port enters transmit low-power idle. (R470) -/
  | lpiEnter (p : Fin 5)
  /-- LPI_WAKE_DONE: The port's wake time from low-power idle ends and a waiting frame may go. (R470) -/
  | lpiWakeDone (p : Fin 5)
  /-- LPI_RX_SIGNAL: The link partner signals low-power idle or wake on the receive path. (R701) -/
  | lpiRxSignal (p : Fin 5) (idle : Bool)
  /-- ETH_LINK_CHANGE: A port's link goes up or down. (R493) -/
  | ethLinkChange (p : Fin 5) (speed : Nat) (up : Bool)
  /-- PULL: A PUT to unit 0x60 operation PULL delivers parsed frames from an intake queue. (R482) -/
  | pull (te : Fin 16) (id : Nat)
  /-- SENDV: A PUT to unit 0x60 operation SENDV edits and queues frames. (R484) -/
  | sendv (te : Fin 16) (id : Nat)
  /-- REF: A PUT to unit 0x60 operation REF adds references to a frame. (R478) -/
  | ref (te : Fin 16) (id : Nat)
  /-- BUF_FREE: A PUT to unit 0x60 operation FREE consumes a handle, freeing cells at zero. (R477) -/
  | bufFree (te : Fin 16) (id : Nat)
  /-- HASH_FIND: A PUT to unit 0x61 operation FIND looks keys up in a hash table. (R488) -/
  | hashFind (te : Fin 16) (id : Nat)
  /-- HASH_INSERT: A PUT to unit 0x61 operation INSERT adds keys to a hash table. (R488) -/
  | hashInsert (te : Fin 16) (id : Nat)
  /-- HASH_DELETE: A PUT to unit 0x61 operation DELETE removes keys from a hash table. (R488) -/
  | hashDelete (te : Fin 16) (id : Nat)
  /-- LPM_LOOKUP: A PUT to unit 0x62 operation LOOKUP walks a prefix table. (R490) -/
  | lpmLookup (te : Fin 16) (id : Nat)
  /-- POL_JUDGE: A PUT to unit 0x63 operation JUDGE judges frames against wired policers. (R496) -/
  | polJudge (te : Fin 16) (id : Nat)
  /-- INTAKE_PARSE: RTE takes a descriptor or air MSDU into an intake queue and parses it. (R481) -/
  | intakeParse (q : Fin 16)
  /-- SPILL_COPY_DONE: A spilled frame's copy is written and its other cells are freed. (R494) -/
  | spillCopyDone (h : Nat)
  /-- UNSPILL_DONE: A spilled frame returns to packet SRAM. (R495) -/
  | unspillDone (h : Nat)
  /-- DRAM_REQUEST: A request reaches a DRAM bank queue, holding the sender when full. (R512) -/
  | dramRequest (addr : Nat) (write : Bool) (words : List (BitVec 144)) (len : Nat)
  /-- POISON_NOTE_RECEIVE: FLT receives a POISON_NOTE and writes a class-2 fault record and POISON event. (R685) -/
  | poisonNoteReceive
  /-- MEMWIN_OPEN: An armature MEMWIN window opens for refresh, scrub, calibration or retraining. (R516) -/
  | memwinOpen (i : Nat)
  /-- REFRESH_INTERVAL: A refresh interval elapses and a bank's debt rises. (R515) -/
  | refreshInterval (c : Fin 4) (b : Fin 16)
  /-- REFRESH_DONE: A per-bank refresh completes and the debt falls by 1. (R520) -/
  | refreshDone (c : Fin 4) (b : Fin 16)
  /-- MR4_READ: Every 16 ms MR4 is read and debts recomputed on a changed multiplier. (R517) -/
  | mr4Read (c : Fin 4) (rr : BitVec 5) (osc : Nat) (drift : Nat)
  /-- MEM_TRAIN: MEM_CTL.TRAIN starts DRAM training with no armature active. (R522) -/
  | memTrain (v : BitVec 32)
  /-- TRAIN_DONE: Training ends with TRAINED or TRAIN_FAIL. (R522) -/
  | trainDone (fail : BitVec 4)
  /-- SCRUB_READ: The scrubber reads a word and writes back a corrected one. (R524) -/
  | scrubRead (space : Fin 4) (n i : Nat) (met : Bool)
  /-- NVM_SCRUB: Once every 24 h non-volatile memory is scrubbed. (R530) -/
  | nvmScrub
  /-- SETTINGS_LOCK: Two writes of the key to NVM_LOCKKEY within one beat lock the settings or refuse. (R531) -/
  | settingsLock
  /-- REGREC_WRITE: A write to NVM_REGRECj reaches non-volatile memory before the next beat start. (R532) -/
  | regrecWrite (j : Fin 32) (v : BitVec 32)
  /-- VBAK_GOOD_RISE: VBAK_GOOD rises while the main domain runs. (R535) -/
  | vbakGoodRise
  /-- VBAK_GOOD_FALL: VBAK falls below 1.80 V and the mesh radio refuses transmits. (R735) -/
  | vbakGoodFall
  /-- CHK_GO: CHK_Cc_CTL.GO starts a CRC scan. (R536) -/
  | chkGo (c : Fin 8) (v : BitVec 32)
  /-- CHK_ABORT: CHK_Cc_CTL.ABORT ends a scan at the next word. (R539) -/
  | chkAbort (c : Fin 8) (n : Nat) (host : List Byte)
  /-- CHK_DONE: A scan ends and CHK_DONE is raised. (R541) -/
  | chkDone (c : Fin 8) (host : List Byte)
  /-- TB_LOAD: TIM_TBk_CTL.LOAD loads a time base at its next step, or is refused. (R552) -/
  | tbLoad (k : Fin 5) (v : BitVec 32)
  /-- TB_STEP: A write to TIM_TBk_STEP steps the base, or is refused. (R552) -/
  | tbStep (k : Fin 5) (v : BitVec 32)
  /-- TB_SLEW: A write to TIM_TBk_SLEWCNT starts a slew. (R552) -/
  | tbSlew (k : Fin 5) (v : BitVec 32)
  /-- SLEW_END: SLEWCNT counts down to 0 and the slew ends. (R552) -/
  | slewEnd (k : Fin 5)
  /-- TB_INC_SET: A write of TIM_TBk_INC_FRAC applies the increment pair at the next step. (R552) -/
  | tbIncSet (k : Fin 5) (v : BitVec 32)
  /-- CAPTURE_GO: TIM_CAPCTL.GO latches all six bases at once. (R564) -/
  | captureGo (v : BitVec 32)
  /-- TSCAP_EDGE: A rising edge on TSCAP with PIN_EN latches all six bases. (R564) -/
  | tscapEdge
  /-- PPS_START: TB0 NS crosses 0 and PPS_OUT goes high. (R565) -/
  | ppsStart
  /-- PPS_END: WIDTH_MS elapses and PPS_OUT goes low. (R565) -/
  | ppsEnd
  /-- TIME_REQ_RECEIVE: A guy port receives TIME_REQ and stamps t2. (R628) -/
  | timeReqReceive (p : Fin 2)
  /-- TIME_RSP_SEND: 800 ns after t2 the peer sends TIME_RSP. (R628) -/
  | timeRspSend (p : Fin 2)
  /-- TIME_RSP_RECEIVE: TIME_RSP arrives; offset and delay are computed. (R566) -/
  | timeRspReceive (p : Fin 2) (t2 t3 : Nat) (late : Bool)
  /-- GUY_TIME_LOSS: Four frames pass without a completed exchange; LOST set. (R568) -/
  | guyTimeLoss (p : Fin 2)
  /-- GUY_FOLLOW_WRITE: A write of TIM_GUYp_CTL.FOLLOW, refused on both ports or under HOST_SERVO. (R567) -/
  | guyFollowWrite (p : Fin 2) (v : BitVec 32)
  /-- HOST_SERVO_WRITE: A write of TIM_CTL.HOST_SERVO, refused while FOLLOW is set. (R567) -/
  | hostServoWrite (v : BitVec 32)
  /-- FLR: A function-level reset stops the rings and resets HIF registers. (R576) -/
  | flr
  /-- D3HOT_ENTER: The function enters D3hot; HIF reads and writes nothing to the host. (R576) -/
  | d3hotEnter
  /-- D0_RETURN: The function returns to D0 and rings resume at the next beat start. (R576) -/
  | d0Return
  /-- PCIE_L1_ENTER: The idle PCIe link enters L1 under ASPM. (R702) -/
  | pcieL1Enter
  /-- DOORBELL_READ_DONE: The doorbell read completes and ring entries become available to take. (R584) -/
  | doorbellReadDone (page table : List Byte)
  /-- DOORBELL_READ_ERROR: The read ends in error or timeout; last good values are kept. (R585) -/
  | doorbellReadError (status : Fin 8) (timeout : Bool)
  /-- NOP_CMD: Command NOP. (R596) -/
  | nopCmd (ring : Fin 64) (entry : List Byte) (buf : Option (List Byte)) (data : List Byte)
  /-- STA_SET: Command STA_SET creates or replaces a station. (R597) -/
  | staSet (ring : Fin 64) (entry : List Byte) (buf : Option (List Byte)) (data : List Byte)
  /-- STA_DEL: Command STA_DEL deletes a station and its queued frames. (R596) -/
  | staDel (ring : Fin 64) (entry : List Byte) (buf : Option (List Byte)) (data : List Byte)
  /-- BA_SET_ADD: Command BA_SET adds a block-acknowledgement agreement. (R596) -/
  | baSetAdd (ring : Fin 64) (entry : List Byte) (buf : Option (List Byte)) (data : List Byte)
  /-- BA_SET_DELETE: Command BA_SET deletes a block-acknowledgement agreement. (R596) -/
  | baSetDelete (ring : Fin 64) (entry : List Byte) (buf : Option (List Byte)) (data : List Byte)
  /-- KEY_INSTALL: Command KEY_INSTALL installs a key and writes its KEY handle. (R598) -/
  | keyInstall (ring : Fin 64) (entry : List Byte) (buf : Option (List Byte)) (data : List Byte)
  /-- KEY_DELETE: Command KEY_DELETE deletes a key entry. (R596) -/
  | keyDelete (ring : Fin 64) (entry : List Byte) (buf : Option (List Byte)) (data : List Byte)
  /-- QUEUE_SET: Command QUEUE_SET sets queue attributes. (R596) -/
  | queueSet (ring : Fin 64) (entry : List Byte) (buf : Option (List Byte)) (data : List Byte)
  /-- SHAPER_SET: Command SHAPER_SET changes a shaper. (R596) -/
  | shaperSet (ring : Fin 64) (entry : List Byte) (buf : Option (List Byte)) (data : List Byte)
  /-- POLICER_SET: Command POLICER_SET changes an air policer. (R596) -/
  | policerSet (ring : Fin 64) (entry : List Byte) (buf : Option (List Byte)) (data : List Byte)
  /-- TWT_BIND: Command TWT_BIND binds a TWT agreement to a slot and writes its parameters. (R599) -/
  | twtBind (ring : Fin 64) (entry : List Byte) (buf : Option (List Byte)) (data : List Byte)
  /-- TWT_UNBIND: Command TWT_UNBIND removes a binding. (R596) -/
  | twtUnbind (ring : Fin 64) (entry : List Byte) (buf : Option (List Byte)) (data : List Byte)
  /-- BCN_TEMPLATE: Command BCN_TEMPLATE sets a BSS's beacon template. (R596) -/
  | bcnTemplate (ring : Fin 64) (entry : List Byte) (buf : Option (List Byte)) (data : List Byte)
  /-- TBL_HASH_FIND: Command TBL_HASH with operation FIND. (R596) -/
  | tblHashFind (ring : Fin 64) (entry : List Byte) (buf : Option (List Byte)) (data : List Byte)
  /-- TBL_HASH_INSERT: Command TBL_HASH with operation INSERT. (R596) -/
  | tblHashInsert (ring : Fin 64) (entry : List Byte) (buf : Option (List Byte)) (data : List Byte)
  /-- TBL_HASH_DELETE: Command TBL_HASH with operation DELETE. (R596) -/
  | tblHashDelete (ring : Fin 64) (entry : List Byte) (buf : Option (List Byte)) (data : List Byte)
  /-- TBL_WRITE: Command TBL_WRITE writes table bytes. (R596) -/
  | tblWrite (ring : Fin 64) (entry : List Byte) (buf : Option (List Byte)) (data : List Byte)
  /-- WPOL_SET: Command WPOL_SET changes a wired policer. (R596) -/
  | wpolSet (ring : Fin 64) (entry : List Byte) (buf : Option (List Byte)) (data : List Byte)
  /-- TX_IMM: Command TX_IMM requests an immediate transmit. (R599) -/
  | txImm (ring : Fin 64) (entry : List Byte) (buf : Option (List Byte)) (data : List Byte)
  /-- MESH_CMD: Command MESH_CMD passes an item to a mailbox channel. (R596) -/
  | meshCmd (ring : Fin 64) (entry : List Byte) (buf : Option (List Byte)) (data : List Byte)
  /-- CFG_STAGE: Command CFG_STAGE puts every block into staging at a generation. (R651) -/
  | cfgStage (ring : Fin 64) (entry : List Byte) (buf : Option (List Byte)) (data : List Byte)
  /-- CFG_COMMIT: Command CFG_COMMIT schedules the staged generation for a beat. (R652) -/
  | cfgCommit (ring : Fin 64) (entry : List Byte) (buf : Option (List Byte)) (data : List Byte)
  /-- BAD_OPCODE: A command with an unknown opcode completes BAD_OPCODE. (R596) -/
  | badOpcode (ring : Fin 64) (entry : List Byte) (buf : Option (List Byte)) (data : List Byte)
  /-- INDIRECT_READ_DONE: The read of a command's indirect operand buffer completes. (R594) -/
  | indirectReadDone (ring : Fin 64) (buf : Option (List Byte))
  /-- HOST_FRAME_TAKE: HIF copies a host frame into packet SRAM and sends an item to RTE. (R602) -/
  | hostFrameTake (ring : Fin 192) (entries : List (List Byte)) (data : List Byte)
  /-- POST: A PUT to unit 0x70 operation POST queues a frame for a to-host ring. (R605) -/
  | post (te : Fin 16) (id : Nat)
  /-- POSTD: A PUT to unit 0x70 operation POSTD queues inline data for a to-host ring. (R605) -/
  | postd (te : Fin 16) (id : Nat)
  /-- RING_FRAME_WRITE: HIF writes a held frame into posted buffers of its ring. (R606) -/
  | ringFrameWrite (ring : Fin 192) (bufs : List (Nat × Nat))
  /-- RINGWAIT_EXPIRY: The hold ends at the BEATS-th doorbell read and a frame lacking buffers is dropped. (R606) -/
  | ringwaitExpiry (ring : Fin 192) (bufs : List (Nat × Nat))
  /-- MSIX_UNMASK: Software unmasks a vector and a pending message goes out. (R591) -/
  | msixUnmask (v : Fin 64)
  /-- DIAG_READ: A host read through the diagnostic window. (R608) -/
  | diagRead (off : BitVec 28)
  /-- DIAG_WRITE: A host write through the diagnostic window, discarded where forbidden. (R608) -/
  | diagWrite (off : BitVec 28) (v : BitVec 32)
  /-- CAMP_BAD_FRAME: A camp frame with a bad CRC is dropped and counted. (R614) -/
  | campBadFrame (frame : List Byte)
  /-- CAMP_COLLISION: A transmitter sees a collision, sends jam and backs off. (R612) -/
  | campCollision (seq : Fin 256)
  /-- CAMP_BACKOFF_END: The back-off ends and the frame is tried again, or dropped after 16 attempts. (R612) -/
  | campBackoffEnd (seq : Fin 256)
  /-- GEN_SEND: At its staggered instant an addressed unit sends GEN. (R616) -/
  | genSend
  /-- PEG_RECEIVE: A PEG frame is received and answered with PEG_NAK or marks the address. (R619) -/
  | pegReceive (frame : List Byte)
  /-- PEG_NAK_RECEIVE: A PEG_NAK marks the candidate taken. (R618) -/
  | pegNakReceive (frame : List Byte)
  /-- GEN_RECEIVE: A GEN frame is compared with the unit's generation and seal. (R654) -/
  | genReceive (frame : List Byte)
  /-- CAMP_COMMIT_RECEIVE: A COMMIT frame makes the unit commit at the named beat or report mismatch. (R653) -/
  | campCommitReceive (frame : List Byte)
  /-- PAIR_QUERY_RECEIVE: A PAIR_QUERY is answered with PAIR_ALIVE. (R641) -/
  | pairQueryReceive (frame : List Byte)
  /-- PAIR_ALIVE_RECEIVE: A PAIR_ALIVE before +2 ms abandons a takeover. (R641) -/
  | pairAliveReceive (frame : List Byte)
  /-- ROLE_RECEIVE: A ROLE frame drives negotiation or resolves two active units. (R630) -/
  | roleReceive (frame : List Byte)
  /-- FENCE_TEST_RECEIVE: A standby receives FENCE_TEST naming its pulse instant. (R633) -/
  | fenceTestReceive (frame : List Byte)
  /-- FENCE_SEEN_RECEIVE: The standby receives FENCE_SEEN and becomes eligible for FENCE or not. (R633) -/
  | fenceSeenReceive (frame : List Byte)
  /-- ENUM_IN_RISE: ENUM_IN rises and an unaddressed unit starts pegging. (R618) -/
  | enumInRise
  /-- PEG_WAIT_END: The 1 ms wait after PEG ends and the unit holds its address. (R618) -/
  | pegWaitEnd
  /-- ENUM_TIMEOUT: ENUM_IN is still low after ENUM_TO and the unit pegs anyway. (R622) -/
  | enumTimeout
  /-- GUY_ACK_RECEIVE: An ACK frame advances the acknowledged sequence. (R626) -/
  | guyAckReceive (p : Fin 2) (words : List (BitVec 144))
  /-- GUY_NACK_RECEIVE: A NACK makes the sender resend from the named SEQ. (R626) -/
  | guyNackReceive (p : Fin 2) (words : List (BitVec 144))
  /-- TOKEN_RECEIVE: A standby receives the active's TOKEN. (R638) -/
  | tokenReceive (p : Fin 2) (words : List (BitVec 144))
  /-- STOKEN_RECEIVE: The active receives the standby's STOKEN. (R638) -/
  | stokenReceive (p : Fin 2) (words : List (BitVec 144))
  /-- GUY_COMMIT_RECEIVE: A COMMIT guy frame carries commit records to the standby. (R674) -/
  | guyCommitReceive (p : Fin 2) (words : List (BitVec 144))
  /-- MIRROR_RECEIVE: A MIRROR frame carries journal words and state to the standby. (R635) -/
  | mirrorReceive (p : Fin 2) (words : List (BitVec 144))
  /-- CFG_RECEIVE: A CFG frame carries configuration, armature or snapshot to the standby. (R648) -/
  | cfgReceive (p : Fin 2) (words : List (BitVec 144))
  /-- PAYLOAD_RECEIVE: A PAYLOAD frame carries mirrored downlink home copies. (R635) -/
  | payloadReceive (p : Fin 2) (words : List (BitVec 144))
  /-- HELLO_RECEIVE: A HELLO frame names the peer's camp address. (R627) -/
  | helloReceive (p : Fin 2) (words : List (BitVec 144))
  /-- GUY_RETRY_TIMEOUT: 4 µs without ACKSEQ progress and unacknowledged frames are sent again. (R626) -/
  | guyRetryTimeout (p : Fin 2)
  /-- GUY_LINK_DOWN: A guy port loses block lock or a frame fails 16 times; GUY_LINK raised. (R627) -/
  | guyLinkDown (p : Fin 2)
  /-- GUY_LINK_UP: A guy port's link comes up and HELLO is sent. (R627) -/
  | guyLinkUp (p : Fin 2)
  /-- ROLE_SEND: Every 10 ms a negotiating unit sends ROLE and HELLO. (R630) -/
  | roleSend
  /-- PAIR_WAIT_EXPIRE: WAIT_MS passes without a ROLE; the unit becomes ALONE or raises PAIR_WAIT. (R630) -/
  | pairWaitExpire
  /-- PAIR_FENCE_RISE: PAIR_FENCE rises; the pad ring forces transmit enables off and an active unit becomes FENCED. (R632) -/
  | pairFenceRise
  /-- PAIR_FENCE_FALL: PAIR_FENCE falls and the pad ring releases the transmit enables. (R740) -/
  | pairFenceFall
  /-- FENCE_WINDOW_END: A test window ends; a still-high PAIR_FENCE is acted on. (R632) -/
  | fenceWindowEnd
  /-- FTEST: CHN_PAIRCTL.FTEST makes the active send FENCE_TEST. (R633) -/
  | ftest (v : BitVec 32)
  /-- FENCE_PULSE: At the named instant the standby drives FENCE_DRV high. (R633) -/
  | fencePulse
  /-- FENCE_PULSE_END: 2 µs later the standby lowers FENCE_DRV. (R633) -/
  | fencePulseEnd
  /-- FENCE_SEEN_TIMEOUT: No FENCE_SEEN within 10 ms leaves the standby ineligible. (R633) -/
  | fenceSeenTimeout
  /-- TAKEOVER_QUERY: The missing count reaches TOKMISS; an eligible standby sends PAIR_QUERY, else PAIR_LOST. (R641) -/
  | takeoverQuery
  /-- PAIR_QUERY_REPEAT: 0.5 ms and 1.0 ms later the query is repeated. (R641) -/
  | pairQueryRepeat (k : Fin 3)
  /-- TAKEOVER_FENCE: At +2 ms the standby fences, becomes TAKING and raises VCORE. (R641) -/
  | takeoverFence
  /-- TAKEOVER_VR_RETRY: Every 10 ms without confirmation the raise is repeated. (R643) -/
  | takeoverVrRetry
  /-- SWITCH: CHN_PAIRCTL.SWITCH starts a planned changeover. (R649) -/
  | switch (v : BitVec 32)
  /-- UNFENCE: CHN_PAIRCTL.UNFENCE lowers FENCE_DRV. (R647) -/
  | unfence (v : BitVec 32)
  /-- PNJUMP_WRITE: A write of CHN_PNJUMP, refused below BLOCK × 1024. (R645) -/
  | pnjumpWrite (v : BitVec 32)
  /-- SEAL_DONE: Check channel 7 finishes the configuration seal. (R652) -/
  | sealDone
  /-- BLOCK_ILLEGAL_STATE: A block's own checks find an illegal state and it restarts. (R669) -/
  | blockIllegalState (blk : Fin 24)
  /-- BLOCK_STUCK: A block has held pending work for STUCK_BEATS without a step. (R669) -/
  | blockStuck (blk : Fin 24) (beats : Nat)
  /-- FATAL: An illegal state in a core block stops the unit in Hold. (R660) -/
  | fatal (blk : Fin 24)
  /-- CHECKPOINT_CAPTURE: TB0 seconds reach a multiple of PERIOD_S and a capture starts. (R680) -/
  | checkpointCapture
  /-- CHECKPOINT_DONE: The checkpoint write finishes with its seal. (R680) -/
  | checkpointDone
  /-- CHECKPOINT_RESTORE: FLT_CKCTL.RESTORE loads the newest valid checkpoint. (R683) -/
  | checkpointRestore (v : BitVec 32)
  /-- PWR_RETAIN: PWRCTL.GO with REQ RETAIN requests Retain for units. (R693) -/
  | pwrRetain (blk : Fin 24) (v : BitVec 32)
  /-- PWR_OFF: PWRCTL.GO with REQ OFF requests Off for units. (R693) -/
  | pwrOff (blk : Fin 24) (v : BitVec 32)
  /-- PWR_ACTIVE: PWRCTL.GO with REQ ACTIVE wakes units. (R696) -/
  | pwrActive (blk : Fin 24) (v : BitVec 32)
  /-- PWR_CANCEL: PWRCTL.CANCEL withdraws a pending entry. (R691) -/
  | pwrCancel (blk : Fin 24) (v : BitVec 32)
  /-- UNIT_IDLE: A unit with a pending entry reaches Idle and begins gating. (R695) -/
  | unitIdle (blk : Fin 24) (u : Fin 16)
  /-- PWR_ENTRY_DONE: Entry into Retain or Off completes. (R699) -/
  | pwrEntryDone (blk : Fin 24) (u : Fin 16)
  /-- PWR_WAKE: A link request or WAKEEN source wakes a gated unit. (R696) -/
  | pwrWake (blk : Fin 24) (u : Fin 16) (src : Option (Fin 8))
  /-- PWR_WAKE_DONE: The unit is Active again and the held transfer completes. (R699) -/
  | pwrWakeDone (blk : Fin 24) (u : Fin 16)
  /-- BIVOUAC_TIMER_WAKE: The 32.768 kHz timer wakes the lantern 2 ms before LK_AT. (R704) -/
  | bivouacTimerWake
  /-- PORST_RELEASE: PORST_N is released and start-up steps begin. (R707) -/
  | porstRelease (straps : BitVec 5) (linear : Bool)
  /-- PERST_RELEASE: PERST_N is released and link training begins. (R709) -/
  | perstRelease (speed width : BitVec 4)
  /-- PCIE_READY_CAP: 980 ms after release step 9 begins regardless of negotiation. (R718) -/
  | pcieReadyCap
  /-- AUTO_TIME_SEARCH: With AUTO the device searches a pair port or TB4 for site time. (R719) -/
  | autoTimeSearch
  /-- AUTO_PAIR_TIMEOUT: After 4 ms without a pair exchange the device goes on to TB4. (R719) -/
  | autoPairTimeout
  /-- AUTO_CANCEL: SYS_BOOTCTL.AUTO_CANCEL ends AUTO at once. (R721) -/
  | autoCancel (v : BitVec 32)
  /-- LANTERN_START: The lantern's power-on detector releases and the lantern starts. (R724) -/
  | lanternStart
  /-- LANTERN_RESET: VBAK falls below 1.62 V and the lantern resets. (R735) -/
  | lanternReset
  /-- TEMP_SAMPLE: Every 100 µs all twelve die sensors are sampled. (R741) -/
  | tempSample (sensors : List (BitVec 16)) (radios : List (BitVec 8))
  /-- PORST_ASSERT: PORST_N is asserted during any start-up step or in operation and the main domain is reset, start-up beginning again at step 1. (R723) -/
  | porstAssert
  /-- TB_NS_READ: A read of TIM_TBk_NS returns the nanoseconds and latches S_LO, S_HI and FRAC of that base. (R570) -/
  | tbNsRead (k : Fin 6)
  /-- RX_DECLARED_END: The declared end of a PPDU whose reception was cut OVERLOAD is reached, and the radio leaves Rx for its rest state and may receive again. (R277) -/
  | rxDeclaredEnd (x : Fin 3)
  /-- SAMPLE_ROW_DONE: ASCH finishes writing a sample row, header last, and updates ASCH_SMPLAST to its frame number. (R369) -/
  | sampleRowDone
  deriving DecidableEq, Repr

end Sys2Proof
end

