-- ==== Sys2Proof/Decode.lean ====
section
/-! DEFINITION. The commands of this block reach it as register accesses, frames and events, not as words: no row of the
opcode table gives bits (log 1). -/

namespace Sys2Proof

/-- The command that a word spells by the table's bits: none, since no row gives bits. -/
def decodeTableWord (_nbits _w : Nat) : Option Instr := none

end Sys2Proof
end

