-- ==== Sys2Proof/Machine/Hash.lean ====
section
/-! DEFINITION. SHA-384 and ECDSA over curve P-384, the functions that the signature block of an image names (R60, R61): FIPS 180-4 and
FIPS 186-5. -/

namespace Sys2Proof.Machine

/-! ### SHA-384 -/

/-- Rotation right of a 64-bit word. -/
def rotr64 (n x : Nat) : Nat := x >>> n ||| (x <<< (64 - n)) % 2 ^ 64

/-- The round constants of SHA-384. -/
def shaK : List Nat :=
  [0x428a2f98d728ae22, 0x7137449123ef65cd, 0xb5c0fbcfec4d3b2f, 0xe9b5dba58189dbbc] ++
  [0x3956c25bf348b538, 0x59f111f1b605d019, 0x923f82a4af194f9b, 0xab1c5ed5da6d8118] ++
  [0xd807aa98a3030242, 0x12835b0145706fbe, 0x243185be4ee4b28c, 0x550c7dc3d5ffb4e2] ++
  [0x72be5d74f27b896f, 0x80deb1fe3b1696b1, 0x9bdc06a725c71235, 0xc19bf174cf692694] ++
  [0xe49b69c19ef14ad2, 0xefbe4786384f25e3, 0x0fc19dc68b8cd5b5, 0x240ca1cc77ac9c65] ++
  [0x2de92c6f592b0275, 0x4a7484aa6ea6e483, 0x5cb0a9dcbd41fbd4, 0x76f988da831153b5] ++
  [0x983e5152ee66dfab, 0xa831c66d2db43210, 0xb00327c898fb213f, 0xbf597fc7beef0ee4] ++
  [0xc6e00bf33da88fc2, 0xd5a79147930aa725, 0x06ca6351e003826f, 0x142929670a0e6e70] ++
  [0x27b70a8546d22ffc, 0x2e1b21385c26c926, 0x4d2c6dfc5ac42aed, 0x53380d139d95b3df] ++
  [0x650a73548baf63de, 0x766a0abb3c77b2a8, 0x81c2c92e47edaee6, 0x92722c851482353b] ++
  [0xa2bfe8a14cf10364, 0xa81a664bbc423001, 0xc24b8b70d0f89791, 0xc76c51a30654be30] ++
  [0xd192e819d6ef5218, 0xd69906245565a910, 0xf40e35855771202a, 0x106aa07032bbd1b8] ++
  [0x19a4c116b8d2d0c8, 0x1e376c085141ab53, 0x2748774cdf8eeb99, 0x34b0bcb5e19b48a8] ++
  [0x391c0cb3c5c95a63, 0x4ed8aa4ae3418acb, 0x5b9cca4f7763e373, 0x682e6ff3d6b2b8a3] ++
  [0x748f82ee5defb2fc, 0x78a5636f43172f60, 0x84c87814a1f0ab72, 0x8cc702081a6439ec] ++
  [0x90befffa23631e28, 0xa4506cebde82bde9, 0xbef9a3f7b2c67915, 0xc67178f2e372532b] ++
  [0xca273eceea26619c, 0xd186b8c721c0c207, 0xeada7dd6cde0eb1e, 0xf57d4f7fee6ed178] ++
  [0x06f067aa72176fba, 0x0a637dc5a2c898a6, 0x113f9804bef90dae, 0x1b710b35131c471b] ++
  [0x28db77f523047d84, 0x32caab7b40c72493, 0x3c9ebe0a15c9bebc, 0x431d67c49c100d4c] ++
  [0x4cc5d4becb3e42b6, 0x597f299cfc657e2a, 0x5fcb6fab3ad6faec, 0x6c44198c4a475817]

/-- The initial hash words of SHA-384. -/
def shaInit : List Nat :=
  [0xcbbb9d5dc1059ed8, 0x629a292a367cd507, 0x9159015a3070dd17, 0x152fecd8f70e5939,
   0x67332667ffc00b31, 0x8eb44a8768581511, 0xdb0c2e0d64f98fa7, 0x47b5481dbefa4fa4]

/-- The words of a message schedule from its last sixteen. -/
def shaSchedule : Nat → List Nat → List Nat
  | 0, _ => []
  | k + 1, w =>
    let g (i : Nat) : Nat := w.getD i 0
    let s0 := rotr64 1 (g 1) ^^^ rotr64 8 (g 1) ^^^ g 1 >>> 7
    let s1 := rotr64 19 (g 14) ^^^ rotr64 61 (g 14) ^^^ g 14 >>> 6
    g 0 :: shaSchedule k (w.drop 1 ++ [(g 0 + s0 + g 9 + s1) % 2 ^ 64])

/-- One round on the working words `a` to `h`. -/
def shaRound (v : List Nat) (kw : Nat × Nat) : List Nat :=
  let g (i : Nat) : Nat := v.getD i 0
  let e := g 4
  let a := g 0
  let t1 := g 7 + (rotr64 14 e ^^^ rotr64 18 e ^^^ rotr64 41 e) + ((e &&& g 5) ^^^ ((2 ^ 64 - 1 - e) &&& g 6)) + kw.1 + kw.2
  let t2 := (rotr64 28 a ^^^ rotr64 34 a ^^^ rotr64 39 a) + ((a &&& g 1) ^^^ (a &&& g 2) ^^^ (g 1 &&& g 2))
  [(t1 + t2) % 2 ^ 64, a, g 1, g 2, (g 3 + t1) % 2 ^ 64, e, g 5, g 6]

/-- The number that bytes spell, most significant first. -/
def numBE (l : List Byte) : Nat := numLE l.reverse

/-- One block of 128 bytes. -/
def shaBlock (h : List Nat) (b : List Byte) : List Nat :=
  let w := (List.range 16).map fun i => numBE (slice 0 b (8 * i) 8)
  let v := (shaK.zip (shaSchedule 80 w)).foldl shaRound h
  (h.zip v).map fun e => (e.1 + e.2) % 2 ^ 64

/-- `n` blocks of a message. -/
def shaBlocks : Nat → List Nat → List Byte → List Nat
  | 0, h, _ => h
  | n + 1, h, l => shaBlocks n (shaBlock h (l.take 128)) (l.drop 128)

/-- SHA-384 of bytes. -/
def sha384 (l : List Byte) : List Byte :=
  let n := (l.length + 17 + 127) / 128
  let p := l ++ [0x80] ++ List.replicate (128 * n - l.length - 17) 0 ++ (bytesLE 16 (8 * l.length)).reverse
  ((shaBlocks n shaInit p).take 6).flatMap fun w => (bytesLE 8 w).reverse

/-! ### Curve P-384 -/

/-- The prime of the field, the order of the base point, and the curve's b. -/
def ecP : Nat := 2 ^ 384 - 2 ^ 128 - 2 ^ 96 + 2 ^ 32 - 1
def ecN : Nat := 0xffffffffffffffffffffffffffffffffffffffffffffffffc7634d81f4372ddf581a0db248b0a77aecec196accc52973
def ecB : Nat := 0xb3312fa7e23ee7e4988e056be3f82d19181d9c6efe8141120314088f5013875ac656398d8a2ed19d2a85c8edd3ec2aef

/-- A point of the curve; none is the point at infinity. -/
abbrev EcPoint := Option (Nat × Nat)

/-- The base point. -/
def ecG : EcPoint :=
  some (0xaa87ca22be8b05378eb1c71ef320ad746e1d3b628ba79b9859f741e082542a385502f25dbf55296c3a545e3872760ab7,
        0x3617de4a96262c6f5d9e98bf9292dc29f8f41dbd289a147ce9da3113b5f0b8c00a60b1ce1d7e819d7a431d7c90ea0e5f)

/-- A power modulo `m`, over `k` bits of the exponent. -/
def powMod (m : Nat) : Nat → Nat → Nat → Nat
  | 0, _, _ => 1
  | k + 1, b, e =>
    let r := powMod m k (b * b % m) (e / 2)
    if e % 2 = 1 then r * b % m else r

/-- The inverse modulo a prime of 384 bits. -/
def invMod (m a : Nat) : Nat := powMod m 384 (a % m) (m - 2)

/-- A difference in the field. -/
def ecSub (a b : Nat) : Nat := (a + ecP - b % ecP) % ecP

/-- The sum of two points. -/
def ecAdd : EcPoint → EcPoint → EcPoint
  | none, q => q
  | p, none => p
  | some (x1, y1), some (x2, y2) =>
    if x1 = x2 ∧ (y1 + y2) % ecP = 0 then none
    else
      let l := if x1 = x2 then (3 * x1 * x1 + ecP - 3) * invMod ecP (2 * y1) % ecP else ecSub y2 y1 * invMod ecP (ecSub x2 x1) % ecP
      let x := ecSub (ecSub (l * l) x1) x2
      some (x, ecSub (l * ecSub x1 x) y1)

/-- A multiple of a point, over `k` bits of the factor. -/
def ecMul : Nat → EcPoint → Nat → EcPoint
  | 0, _, _ => none
  | k + 1, p, e =>
    let r := ecMul k (ecAdd p p) (e / 2)
    if e % 2 = 1 then ecAdd r p else r

/-- Whether a signature (r, s) of a digest holds under an uncompressed public key. -/
def ecdsaP384 (pub digest r s : List Byte) : Bool :=
  let x := numBE (slice 0 pub 1 48)
  let y := numBE (slice 0 pub 49 48)
  let rn := numBE r
  let sn := numBE s
  let w := invMod ecN sn
  pub.getD 0 0 == 4 && decide (x < ecP ∧ y < ecP ∧ y * y % ecP = (x * x * x + (ecP - 3) * x + ecB) % ecP) &&
    decide (1 ≤ rn ∧ rn < ecN ∧ 1 ≤ sn ∧ sn < ecN) &&
    match ecAdd (ecMul 384 ecG (numBE digest * w % ecN)) (ecMul 384 (some (x, y)) (rn * w % ecN)) with
    | some q => q.1 % ecN == rn
    | none => false

end Sys2Proof.Machine
end

