-- ==== Sys2Proof/Machine/Cipher.lean ====
section
/-! DEFINITION. AES with 128 and 256-bit keys, AES-GCM with a 12-byte nonce and CCM* with a 13-byte nonce: the ciphers that R428, R635 and
R681 name, as FIPS 197, SP 800-38D and RFC 3610 define them. -/

namespace Sys2Proof.Machine

/-! ### AES -/

/-- Multiplication by x in the field of AES. -/
def xtime (a : Nat) : Nat := if a < 128 then 2 * a else 2 * a % 256 ^^^ 0x1B

/-- A product in the field, over `k` bits of the second factor. -/
def gmul : Nat → Nat → Nat → Nat
  | 0, _, _ => 0
  | k + 1, a, b => (if b % 2 = 1 then a else 0) ^^^ gmul k (xtime a) (b / 2)

/-- A power in the field, over `k` bits of the exponent. -/
def gpow : Nat → Nat → Nat → Nat
  | 0, _, _ => 1
  | k + 1, a, e => if e % 2 = 1 then gmul 8 a (gpow k (gmul 8 a a) (e / 2)) else gpow k (gmul 8 a a) (e / 2)

/-- SubBytes of one byte: the inverse, then the affine map. -/
def aesSub (a : Nat) : Nat :=
  let i := gpow 8 a 254
  let rot (n : Nat) : Nat := (i <<< n ||| i >>> (8 - n)) % 256
  i ^^^ rot 1 ^^^ rot 2 ^^^ rot 3 ^^^ rot 4 ^^^ 0x63

/-- Exclusive or of two byte strings. -/
def xorL (a b : List Nat) : List Nat := a.zipWith (· ^^^ ·) b

/-- Words of the key schedule: `k` more after word `i`, from the last `nk`. -/
def aesGrow (nk : Nat) : Nat → Nat → Nat → List (List Nat) → List (List Nat)
  | 0, _, _, _ => []
  | k + 1, i, rc, w =>
    let t := w.getLast?.getD []
    let u := if i % nk = 0 then xorL ((t.drop 1 ++ t.take 1).map aesSub) [rc, 0, 0, 0]
      else if nk = 8 ∧ i % 8 = 4 then t.map aesSub else t
    let n := xorL (w.headD []) u
    n :: aesGrow nk k (i + 1) (if i % nk = 0 then xtime rc else rc) (w.drop 1 ++ [n])

/-- The round keys of a key of `nk` words: 11 or 15 blocks of 16 bytes. -/
def aesKeys (nk : Nat) (key : List Byte) : List (List Nat) :=
  let w0 := (List.range nk).map fun i => (slice 0 key (4 * i) 4).map fun b => b.toNat
  let w := w0 ++ aesGrow nk (4 * (nk + 7) - nk) nk 1 w0
  (List.range (nk + 7)).map fun i => (slice [] w (4 * i) 4).flatten

/-- SubBytes and ShiftRows. -/
def aesShift (s : List Nat) : List Nat := (List.range 16).map fun i => aesSub (s.getD ((i + 4 * (i % 4)) % 16) 0)

/-- MixColumns. -/
def aesMix (s : List Nat) : List Nat :=
  (List.range 16).map fun i =>
    let g (j : Nat) : Nat := s.getD (i / 4 * 4 + (i + j) % 4) 0
    xtime (g 0) ^^^ xtime (g 1) ^^^ g 1 ^^^ g 2 ^^^ g 3

/-- The rounds after the first key. -/
def aesRounds : List (List Nat) → List Nat → List Nat
  | [], s => s
  | [k], s => xorL (aesShift s) k
  | k :: r, s => aesRounds r (xorL (aesMix (aesShift s)) k)

/-- One block under round keys. -/
def aesBlock (ks : List (List Nat)) (b : List Nat) : List Nat := aesRounds (ks.drop 1) (xorL b (ks.headD []))

/-! ### Byte strings -/

/-- Bytes as numbers, and numbers as bytes. -/
def natsOf (l : List Byte) : List Nat := l.map fun b => b.toNat
def byteList (l : List Nat) : List Byte := l.map fun n => BitVec.ofNat 8 n

/-- `k` bytes of a number, most significant first, as numbers. -/
def natsBE (k n : Nat) : List Nat := natsOf (bytesLE k n).reverse

/-- Bytes filled with zeros to a multiple of 16, in blocks. -/
def blocks16 (l : List Nat) : List (List Nat) := (List.range ((l.length + 15) / 16)).map fun i => slice 0 l (16 * i) 16

/-- Counter mode: blocks from a counter block `f i`, `i` from 1. -/
def ctrMode (ks : List (List Nat)) (f : Nat → List Nat) (l : List Nat) : List Nat :=
  let bs := blocks16 l
  ((List.range bs.length).flatMap fun i => xorL (bs.getD i []) (aesBlock ks (f (i + 1)))).take l.length

/-! ### GCM -/

/-- The number of a block, first byte most significant. -/
def blockNum (l : List Nat) : Nat := l.foldl (fun a b => 256 * a + b) 0

/-- A product of GHASH, over `k` bits of the first factor from its most significant. -/
def ghashMul : Nat → Nat → Nat → Nat
  | 0, _, _ => 0
  | k + 1, x, v => (if x / 2 ^ k % 2 = 1 then v else 0) ^^^ ghashMul k x (if v % 2 = 1 then v / 2 ^^^ 0xE1 <<< 120 else v / 2)

/-- GHASH of blocks. -/
def ghash (h : Nat) (bs : List (List Nat)) : Nat := bs.foldl (fun y b => ghashMul 128 (y ^^^ blockNum b) h) 0

/-- The counter block `i` of a 12-byte nonce. -/
def gcmCtr (nonce : List Byte) (i : Nat) : List Nat := slice 0 (natsOf nonce) 0 12 ++ natsBE 4 (i % 2 ^ 32)

/-- The tag over a cipher text without associated data. -/
def gcmTag (ks : List (List Nat)) (nonce : List Byte) (c : List Nat) : List Nat :=
  let h := blockNum (aesBlock ks (List.replicate 16 0))
  xorL (natsBE 16 (ghash h (blocks16 c ++ [natsBE 8 0 ++ natsBE 8 (8 * c.length)]))) (aesBlock ks (gcmCtr nonce 1))

/-- AES-256-GCM: cipher text and 16-byte tag. -/
def gcmSeal (key nonce plain : List Byte) : List Byte :=
  let ks := aesKeys 8 key
  let c := ctrMode ks (fun i => gcmCtr nonce (i + 1)) (natsOf plain)
  byteList (c ++ gcmTag ks nonce c)

/-- The plain bytes of a cipher text with its tag; none where the tag fails. -/
def gcmOpen (key nonce l : List Byte) : Option (List Byte) :=
  let ks := aesKeys 8 key
  let c := natsOf (l.take (l.length - 16))
  if 16 ≤ l.length ∧ natsOf (l.drop (l.length - 16)) = gcmTag ks nonce c then
    some (byteList (ctrMode ks (fun i => gcmCtr nonce (i + 1)) c))
  else none

/-! ### CCM* -/

/-- The counter block `i` of a 13-byte nonce, L = 2. -/
def ccmCtr (nonce : List Byte) (i : Nat) : List Nat := [1] ++ slice 0 (natsOf nonce) 0 13 ++ natsBE 2 (i % 65536)

/-- The MIC of `n` bytes over associated and plain bytes. -/
def ccmMic (n : Nat) (ks : List (List Nat)) (nonce : List Byte) (aad plain : List Nat) : List Nat :=
  let b0 := [(if aad = [] then 0 else 64) + 8 * ((n - 2) / 2) + 1] ++ slice 0 (natsOf nonce) 0 13 ++ natsBE 2 plain.length
  let a := if aad = [] then [] else blocks16 (natsBE 2 aad.length ++ aad)
  let t := (b0 :: a ++ blocks16 plain).foldl (fun y b => aesBlock ks (xorL y b)) (List.replicate 16 0)
  (xorL t (aesBlock ks (ccmCtr nonce 0))).take n

/-- CCM* under AES-128 with a MIC of `n` bytes: cipher text and MIC. -/
def ccmSeal (n : Nat) (key nonce aad plain : List Byte) : List Byte :=
  let ks := aesKeys 4 key
  byteList (ctrMode ks (ccmCtr nonce) (natsOf plain) ++ ccmMic n ks nonce (natsOf aad) (natsOf plain))

/-- The plain bytes of a cipher text with its MIC of `n` bytes; none where the MIC fails. -/
def ccmOpen (n : Nat) (key nonce aad l : List Byte) : Option (List Byte) :=
  let ks := aesKeys 4 key
  let p := ctrMode ks (ccmCtr nonce) (natsOf (l.take (l.length - n)))
  if n ≤ l.length ∧ natsOf (l.drop (l.length - n)) = ccmMic n ks nonce (natsOf aad) p then some (byteList p) else none

end Sys2Proof.Machine
end

