-- ==== Sys2Proof/Config.lean ====
section
/-! DEFINITION. What one implementation fixes, and the free values: values that the spec leaves open. An opaque constant
here has no body, so nothing can be proved of it: a statement that holds holds for every value of it. -/

namespace Sys2Proof.Config

/-- A 64-bit value the spec does not state, fresh at each use (the use counter is in the state) (log 5). -/
opaque free64 : Nat → BitVec 64

/-- A number below a bound that the spec leaves to chance: back-off draws, relay delays (log 6). -/
opaque draw : Nat → Nat

/-- The place on the ridge pole, node × 3 + port, of an end of R212 or of a TE's event port: the spec draws none (log 14). -/
opaque rpPlace : Nat → Nat

/-- The port code of R212 of the block at a place on the ridge pole (log 14). -/
opaque rpPort : Nat → Nat

/-- The check field of a packet handle: a keyed function of the device's secret over the rest of the payload (R476,
log 7). -/
opaque handleCheck : BitVec 48 → BitVec 12

/-- The payload of a KEY handle for a key entry: sealed, opaque (R104, R330, log 8). -/
opaque keyHandle : Nat → Nat → BitVec 60

/-- The 32 bytes of the fused device key (R681, log 9). -/
opaque deviceKey : List Byte

/-- AES-256-GCM of mirrored key records under the mirror key (R635, log 9, log 33). -/
opaque mirrorSeal : List Byte → List Byte → List Byte

/-- Its inverse, none when the tag fails (log 9, log 33). -/
opaque mirrorOpen : List Byte → List Byte → Option (List Byte)

/-- The Wi-Fi cipher units: suite, key, packet number, plain bytes, to the protected MPDU body (R330, log 9). -/
opaque wifiSeal : Nat → List Byte → Nat → List Byte → List Byte

/-- The rate multiplier the DRAM's MR4 refresh-rate field asks for: 0 once, 1 twice, 2 above twice (R515, log 10). -/
opaque mr4Mult : BitVec 5 → Nat

/-- The on-chip time-stamp delays of radio `x` at the width in force (BBx_TSDELAY, R291, log 11). -/
opaque tsDelay : Nat → Nat → BitVec 32

/-- Whether port `p` delivers its frames in the form DATA: R456 names UPL_Pp_RXCH.RXMODE, and the register tables give it
no bits (log 16). -/
opaque rxData : Nat → Bool

/-- The length of the boundary-scan instruction register, and which of SAMPLE/PRELOAD (0), EXTEST (1), IDCODE (2) or BYPASS (3) a
pattern in it names (R751, log 76). -/
opaque tapIrLen : Nat
opaque tapCode : List Bool → BitVec 2

/-- What a TUNNEL entry's 64 bytes give (R485): VXLAN or GRE, IPv6 outside, outer source and destination, VNI or key, outer
TTL, outer next hop. The spec gives the entry no layout (log 17). -/
opaque tunnelEntry : List Byte → Bool × Bool × BitVec 128 × BitVec 128 × BitVec 32 × BitVec 8 × BitVec 16

/-- The to-host ring, from 0 for ring 128, of the frames that SENDV sends to the host for a reason (R483, R484): the spec
names no ring (log 20). -/
opaque hostRing : Nat → BitVec 5

end Sys2Proof.Config
end

