-- ==== Sys2Proof/Machine/RegMap.lean ====
section
/-! DEFINITION. The register map: the address of every register the spec lists, the place of every field in it,
and one row per register with its reset value and its access masks (R9 to R13, and the register tables of R10, R42,
R90, R144, R213, R215, R261, R263, R294, R337, R371, R417, R451, R498, R543, R545, R547, R570, R609, R657, R687, R725,
R746 and their field tables). Addresses are BAR0 addresses: block index times 0x1_0000 plus the offset (R9, R15). -/

namespace Sys2Proof.Machine

/-- A field of a register: its highest and its lowest bit. -/
structure Fld where
  hi : Nat
  lo : Nat
  deriving DecidableEq, Repr

/-- One row of a register table. `dims` are the (stride, count) pairs of an indexed register; the masks say which bits
bear which access code of R11, the rest being RO. -/
structure RegRow where
  off : Nat
  dims : List (Nat × Nat)
  reset : Nat
  rw : Nat
  rwl : Nat := 0
  rws : Nat := 0
  w1c : Nat := 0
  w1s : Nat := 0
  wo : Nat := 0
  deriving DecidableEq, Repr

/-- The base of time base `k`'s registers: TB4's stand in the lantern's block (R570). -/
def tbBase (k : Nat) : Nat := if k = 4 then 0xD0200 else 0x120000 + 0x40 * k

/-- Block SYS in BAR0 (R15). -/
def blkSYS : Nat := 0
/-- Block ARM in BAR0 (R15). -/
def blkARM : Nat := 1
/-- Block ENG in BAR0 (R15). -/
def blkENG : Nat := 2
/-- Block DSP in BAR0 (R15). -/
def blkDSP : Nat := 3
/-- Block FQ in BAR0 (R15). -/
def blkFQ : Nat := 4
/-- Block RFL in BAR0 (R15). -/
def blkRFL : Nat := 5
/-- Block RFM in BAR0 (R15). -/
def blkRFM : Nat := 6
/-- Block RFH in BAR0 (R15). -/
def blkRFH : Nat := 7
/-- Block BBL in BAR0 (R15). -/
def blkBBL : Nat := 8
/-- Block BBM in BAR0 (R15). -/
def blkBBM : Nat := 9
/-- Block BBH in BAR0 (R15). -/
def blkBBH : Nat := 10
/-- Block WMAC in BAR0 (R15). -/
def blkWMAC : Nat := 11
/-- Block ASCH in BAR0 (R15). -/
def blkASCH : Nat := 12
/-- Block MSH in BAR0 (R15). -/
def blkMSH : Nat := 13
/-- Block UPL in BAR0 (R15). -/
def blkUPL : Nat := 14
/-- Block RTE in BAR0 (R15). -/
def blkRTE : Nat := 15
/-- Block MEM in BAR0 (R15). -/
def blkMEM : Nat := 16
/-- Block CHK in BAR0 (R15). -/
def blkCHK : Nat := 17
/-- Block TIM in BAR0 (R15). -/
def blkTIM : Nat := 18
/-- Block HIF in BAR0 (R15). -/
def blkHIF : Nat := 19
/-- Block CHN in BAR0 (R15). -/
def blkCHN : Nat := 20
/-- Block FLT in BAR0 (R15). -/
def blkFLT : Nat := 21
/-- Block NVM in BAR0 (R15). -/
def blkNVM : Nat := 22
/-- Block IDM in BAR0 (R15). -/
def blkIDM : Nat := 23

/-- PWRCTL, in the common tail of block `b` (R691). -/
def PWRCTL (b : Nat) : Nat := 0x10000 * b + 0xFF00
def fPWRCTL_GO : Fld := ⟨31, 31⟩
def fPWRCTL_CANCEL : Fld := ⟨30, 30⟩
def fPWRCTL_REQ : Fld := ⟨29, 28⟩
def fPWRCTL_WAKEEN : Fld := ⟨23, 16⟩
def fPWRCTL_UNITS : Fld := ⟨15, 0⟩
/-- PWRSTAT, in the common tail of block `b` (R692). -/
def PWRSTAT (b : Nat) : Nat := 0x10000 * b + 0xFF04
def fPWRSTAT_STATE : Fld := ⟨31, 30⟩
def fPWRSTAT_PENDING : Fld := ⟨29, 29⟩
def fPWRSTAT_LAST : Fld := ⟨28, 26⟩
def fPWRSTAT_WAKES : Fld := ⟨23, 16⟩
def fPWRSTAT_GATED : Fld := ⟨15, 0⟩
/-- BLKFAULT, in the common tail of block `b` (R763). -/
def BLKFAULT (b : Nat) : Nat := 0x10000 * b + 0xFF08
def fBLKFAULT_COUNT : Fld := ⟨31, 24⟩
def fBLKFAULT_KIND : Fld := ⟨23, 20⟩
def fBLKFAULT_INFO : Fld := ⟨15, 0⟩
/-- BLKGEN, in the common tail of block `b` (R763). -/
def BLKGEN (b : Nat) : Nat := 0x10000 * b + 0xFF0C
def fBLKGEN_GEN : Fld := ⟨31, 0⟩
/-- SYS_ID (R42). -/
def SYS_ID : Nat := 0x0
/-- SYS_STRAPS (R42). -/
def SYS_STRAPS : Nat := 0x4
def fSYS_STRAPS_UART_LOG : Fld := ⟨4, 4⟩
def fSYS_STRAPS_PCIE_EN : Fld := ⟨3, 3⟩
def fSYS_STRAPS_AUTO_EN : Fld := ⟨2, 2⟩
def fSYS_STRAPS_BOOT_SEL : Fld := ⟨1, 0⟩
/-- SYS_GSTAT (R42). -/
def SYS_GSTAT : Nat := 0x8
/-- SYS_DOMSTAT (R42). -/
def SYS_DOMSTAT : Nat := 0xC
def fSYS_DOMSTAT_MAIN_LOSS_CNT : Fld := ⟨15, 8⟩
def fSYS_DOMSTAT_BRIDGE_ERR : Fld := ⟨7, 7⟩
def fSYS_DOMSTAT_LANT_STATE : Fld := ⟨6, 4⟩
def fSYS_DOMSTAT_MAIN_LOSS_SEEN : Fld := ⟨3, 3⟩
def fSYS_DOMSTAT_LOG_PENDING : Fld := ⟨2, 2⟩
def fSYS_DOMSTAT_MBOX_UP : Fld := ⟨1, 1⟩
def fSYS_DOMSTAT_VBAK_GOOD : Fld := ⟨0, 0⟩
/-- SYS_RPSTAT (R42). -/
def SYS_RPSTAT : Nat := 0x10
def fSYS_RPSTAT_LAST_SNODE : Fld := ⟨20, 16⟩
def fSYS_RPSTAT_DIVERTED : Fld := ⟨15, 0⟩
/-- SYS_RPCLASS (R42). -/
def SYS_RPCLASS : Nat := 0x14
def fSYS_RPCLASS_P0 : Fld := ⟨7, 6⟩
def fSYS_RPCLASS_P1 : Fld := ⟨5, 4⟩
def fSYS_RPCLASS_P2 : Fld := ⟨3, 2⟩
def fSYS_RPCLASS_P3 : Fld := ⟨1, 0⟩
/-- ARM_STAT (R90). -/
def ARM_STAT : Nat := 0x10000
def fARM_STAT_HOLD : Fld := ⟨23, 23⟩
def fARM_STAT_FALLBACK : Fld := ⟨22, 22⟩
def fARM_STAT_CHG_BUSY : Fld := ⟨21, 21⟩
def fARM_STAT_ACT_VALID : Fld := ⟨20, 20⟩
def fARM_STAT_SHADOW_STATE : Fld := ⟨19, 17⟩
def fARM_STAT_ACTIVE_BANK : Fld := ⟨16, 16⟩
def fARM_STAT_ACT_PROFILE : Fld := ⟨15, 14⟩
def fARM_STAT_SHD_PROFILE : Fld := ⟨13, 12⟩
def fARM_STAT_PERIOD : Fld := ⟨11, 10⟩
/-- ARM_LDCTL (R90). -/
def ARM_LDCTL : Nat := 0x10004
def fARM_LDCTL_GO : Fld := ⟨31, 31⟩
def fARM_LDCTL_KEEP_OLD : Fld := ⟨30, 30⟩
def fARM_LDCTL_SRC : Fld := ⟨9, 8⟩
def fARM_LDCTL_NVM_SLOT : Fld := ⟨6, 4⟩
def fARM_LDCTL_DEST : Fld := ⟨1, 0⟩
/-- ARM_LDADDR_LO (R90). -/
def ARM_LDADDR_LO : Nat := 0x10008
/-- ARM_LDADDR_HI (R90). -/
def ARM_LDADDR_HI : Nat := 0x1000C
/-- ARM_LDLEN (R90). -/
def ARM_LDLEN : Nat := 0x10010
/-- ARM_LDSTAT (R90). -/
def ARM_LDSTAT : Nat := 0x10014
def fARM_LDSTAT_STAGE : Fld := ⟨31, 29⟩
def fARM_LDSTAT_CODE : Fld := ⟨28, 22⟩
def fARM_LDSTAT_INDEX : Fld := ⟨21, 0⟩
/-- ARM_SWAPF_LO (R90). -/
def ARM_SWAPF_LO : Nat := 0x10018
/-- ARM_SWAPF_HI (R90). -/
def ARM_SWAPF_HI : Nat := 0x1001C
/-- ARM_SWAPCTL (R90). -/
def ARM_SWAPCTL : Nat := 0x10020
def fARM_SWAPCTL_ARM : Fld := ⟨31, 31⟩
def fARM_SWAPCTL_CANCEL : Fld := ⟨30, 30⟩
def fARM_SWAPCTL_STATUS : Fld := ⟨27, 24⟩
def fARM_SWAPCTL_DEFERS : Fld := ⟨15, 8⟩
/-- ARM_PROFCTL (R90). -/
def ARM_PROFCTL : Nat := 0x10024
def fARM_PROFCTL_GO : Fld := ⟨31, 31⟩
def fARM_PROFCTL_STATUS : Fld := ⟨27, 24⟩
def fARM_PROFCTL_TARGET : Fld := ⟨1, 0⟩
/-- ARM_VRCTL (R90). -/
def ARM_VRCTL : Nat := 0x10028
def fARM_VRCTL_ENABLE : Fld := ⟨31, 31⟩
def fARM_VRCTL_MODE : Fld := ⟨30, 30⟩
def fARM_VRCTL_PEC : Fld := ⟨29, 29⟩
def fARM_VRCTL_PMB_ADDR : Fld := ⟨22, 16⟩
def fARM_VRCTL_SETTLE_US : Fld := ⟨15, 8⟩
def fARM_VRCTL_TIMEOUT : Fld := ⟨7, 0⟩
/-- ARM_VRSTAT (R90). -/
def ARM_VRSTAT : Nat := 0x1002C
def fARM_VRSTAT_VID_OUT : Fld := ⟨23, 16⟩
def fARM_VRSTAT_PGOOD : Fld := ⟨15, 15⟩
def fARM_VRSTAT_LATE : Fld := ⟨14, 14⟩
def fARM_VRSTAT_VOUT_MV : Fld := ⟨13, 0⟩
/-- ARM_OVRCTL (R90). -/
def ARM_OVRCTL : Nat := 0x10030
def fARM_OVRCTL_CONSEC : Fld := ⟨11, 8⟩
def fARM_OVRCTL_AUTO_FB : Fld := ⟨4, 4⟩
def fARM_OVRCTL_LIMIT : Fld := ⟨3, 0⟩
/-- ARM_OVRSTAT (R90). -/
def ARM_OVRSTAT : Nat := 0x10034
def fARM_OVRSTAT_TOTAL : Fld := ⟨31, 16⟩
def fARM_OVRSTAT_LAST_SRC : Fld := ⟨12, 8⟩
def fARM_OVRSTAT_LAST_TSLOT : Fld := ⟨5, 0⟩
/-- ARM_OVRBEAT_LO (R90). -/
def ARM_OVRBEAT_LO : Nat := 0x10038
/-- ARM_OVRBEAT_HI (R90). -/
def ARM_OVRBEAT_HI : Nat := 0x1003C
/-- ARM_MMCTL (R90). -/
def ARM_MMCTL : Nat := 0x10040
def fARM_MMCTL_WARN : Fld := ⟨23, 16⟩
def fARM_MMCTL_CRIT : Fld := ⟨15, 8⟩
def fARM_MMCTL_MINCLR : Fld := ⟨1, 1⟩
def fARM_MMCTL_CRIT_ACT : Fld := ⟨0, 0⟩
/-- ARM_MMSTAT (R90). -/
def ARM_MMSTAT : Nat := 0x10044
def fARM_MMSTAT_MIN_MON : Fld := ⟨12, 8⟩
def fARM_MMSTAT_MIN_CODE : Fld := ⟨7, 0⟩
/-- ARM_PLINTH (R90). -/
def ARM_PLINTH : Nat := 0x10048
def fARM_PLINTH_RUN : Fld := ⟨31, 31⟩
def fARM_PLINTH_PERIOD : Fld := ⟨1, 0⟩
/-- ARM_CORNERREV (R90). -/
def ARM_CORNERREV : Nat := 0x1004C
/-- ARM_BEAT_LO (R90). -/
def ARM_BEAT_LO : Nat := 0x10050
/-- ARM_BEAT_HI (R90). -/
def ARM_BEAT_HI : Nat := 0x10054
/-- ARM_KEYSTAT (R90). -/
def ARM_KEYSTAT : Nat := 0x10058
def fARM_KEYSTAT_REV1 : Fld := ⟨3, 3⟩
def fARM_KEYSTAT_PROG1 : Fld := ⟨2, 2⟩
def fARM_KEYSTAT_REV0 : Fld := ⟨1, 1⟩
def fARM_KEYSTAT_PROG0 : Fld := ⟨0, 0⟩
/-- ARM_KEYREVOKE (R90). -/
def ARM_KEYREVOKE : Nat := 0x1005C
/-- ARM_ACTID_LO (R90). -/
def ARM_ACTID_LO : Nat := 0x10060
/-- ARM_ACTID_HI (R90). -/
def ARM_ACTID_HI : Nat := 0x10064
/-- ARM_SHDID_LO (R90). -/
def ARM_SHDID_LO : Nat := 0x10068
/-- ARM_SHDID_HI (R90). -/
def ARM_SHDID_HI : Nat := 0x1006C
/-- ARM_MMn (R90). -/
def ARM_MMn (n : Nat) : Nat := 0x10100 + 0x4 * n
def fARM_MMn_MIN : Fld := ⟨15, 8⟩
def fARM_MMn_NOW : Fld := ⟨7, 0⟩
/-- ENG_TEn_CTL (R144). -/
def ENG_TEn_CTL (n : Nat) : Nat := 0x20000 + 0x40 * n
def fENG_TEn_CTL_DZ_TRAP : Fld := ⟨8, 8⟩
def fENG_TEn_CTL_GAP_PM : Fld := ⟨5, 4⟩
def fENG_TEn_CTL_BRK_EN : Fld := ⟨0, 0⟩
/-- ENG_TEn_STAT (R144). -/
def ENG_TEn_STAT (n : Nat) : Nat := 0x20004 + 0x40 * n
def fENG_TEn_STAT_STATE : Fld := ⟨31, 30⟩
def fENG_TEn_STAT_PM : Fld := ⟨29, 28⟩
def fENG_TEn_STAT_TSLOT : Fld := ⟨21, 16⟩
def fENG_TEn_STAT_PC : Fld := ⟨12, 0⟩
/-- ENG_TEn_FAULT (R144). -/
def ENG_TEn_FAULT (n : Nat) : Nat := 0x20008 + 0x40 * n
def fENG_TEn_FAULT_CODE : Fld := ⟨31, 24⟩
def fENG_TEn_FAULT_TSLOT : Fld := ⟨21, 16⟩
def fENG_TEn_FAULT_FPC : Fld := ⟨12, 0⟩
/-- ENG_TEn_FINSN (R144). -/
def ENG_TEn_FINSN (n : Nat) : Nat := 0x2000C + 0x40 * n
def fENG_TEn_FINSN_INSN : Fld := ⟨31, 0⟩
/-- ENG_TEn_FCNT (R144). -/
def ENG_TEn_FCNT (n : Nat) : Nat := 0x20010 + 0x40 * n
def fENG_TEn_FCNT_FAULTS : Fld := ⟨31, 16⟩
def fENG_TEn_FCNT_UNCORR : Fld := ⟨15, 8⟩
def fENG_TEn_FCNT_CORR : Fld := ⟨7, 0⟩
/-- ENG_TAGBASE_LO (R144). -/
def ENG_TAGBASE_LO : Nat := 0x20800
def fENG_TAGBASE_LO_BASE_LO : Fld := ⟨31, 24⟩
/-- ENG_TAGBASE_HI (R144). -/
def ENG_TAGBASE_HI : Nat := 0x20804
def fENG_TAGBASE_HI_BASE_HI : Fld := ⟨31, 0⟩
/-- ENG_TAGLEN (R144). -/
def ENG_TAGLEN : Nat := 0x20808
def fENG_TAGLEN_LEN : Fld := ⟨11, 0⟩
/-- ENG_LC_CTL (R144). -/
def ENG_LC_CTL : Nat := 0x21000
def fENG_LC_CTL_BRK_EN : Fld := ⟨0, 0⟩
/-- ENG_LC_STAT (R144). -/
def ENG_LC_STAT : Nat := 0x21004
def fENG_LC_STAT_STATE : Fld := ⟨31, 30⟩
def fENG_LC_STAT_PM : Fld := ⟨29, 28⟩
def fENG_LC_STAT_BIV_REFUSED : Fld := ⟨23, 16⟩
def fENG_LC_STAT_PC : Fld := ⟨15, 0⟩
/-- ENG_LC_FAULT (R144). -/
def ENG_LC_FAULT : Nat := 0x21008
def fENG_LC_FAULT_CODE : Fld := ⟨31, 24⟩
def fENG_LC_FAULT_RESTARTS : Fld := ⟨23, 16⟩
def fENG_LC_FAULT_FPC : Fld := ⟨15, 0⟩
/-- DSP_TEn_STAT (R213). -/
def DSP_TEn_STAT (n : Nat) : Nat := 0x30000 + 0x20 * n
def fDSP_TEn_STAT_BIDX : Fld := ⟨31, 24⟩
def fDSP_TEn_STAT_DLEN : Fld := ⟨23, 17⟩
def fDSP_TEn_STAT_RUNNING : Fld := ⟨16, 16⟩
def fDSP_TEn_STAT_TSLOT : Fld := ⟨13, 8⟩
/-- DSP_TEn_RDY0 (R213). -/
def DSP_TEn_RDY0 (n : Nat) : Nat := 0x30004 + 0x20 * n
/-- DSP_TEn_RDY1 (R213). -/
def DSP_TEn_RDY1 (n : Nat) : Nat := 0x30008 + 0x20 * n
/-- DSP_TEn_EVQ (R213). -/
def DSP_TEn_EVQ (n : Nat) : Nat := 0x3000C + 0x20 * n
def fDSP_TEn_EVQ_HELD : Fld := ⟨31, 16⟩
def fDSP_TEn_EVQ_HIWATER : Fld := ⟨9, 5⟩
def fDSP_TEn_EVQ_FILL : Fld := ⟨4, 0⟩
/-- DSP_TEn_SKIP (R213). -/
def DSP_TEn_SKIP (n : Nat) : Nat := 0x30010 + 0x20 * n
def fDSP_TEn_SKIP_SKIPPED : Fld := ⟨31, 16⟩
def fDSP_TEn_SKIP_LAST_TSLOT : Fld := ⟨5, 0⟩
/-- DSP_TEn_FSEL (R213). -/
def DSP_TEn_FSEL (n : Nat) : Nat := 0x30014 + 0x20 * n
def fDSP_TEn_FSEL_TSLOT : Fld := ⟨5, 0⟩
/-- DSP_TEn_FLAGS (R213). -/
def DSP_TEn_FLAGS (n : Nat) : Nat := 0x30018 + 0x20 * n
def fDSP_TEn_FLAGS_FLAGS : Fld := ⟨31, 0⟩
/-- DSP_TEn_WMASK (R213). -/
def DSP_TEn_WMASK (n : Nat) : Nat := 0x3001C + 0x20 * n
def fDSP_TEn_WMASK_WMASK : Fld := ⟨31, 0⟩
/-- DSP_HOSTSIG (R213). -/
def DSP_HOSTSIG : Nat := 0x30400
def fDSP_HOSTSIG_FLAG : Fld := ⟨14, 10⟩
def fDSP_HOSTSIG_ENGINE : Fld := ⟨9, 6⟩
def fDSP_HOSTSIG_TSLOT : Fld := ⟨5, 0⟩
/-- FQ_CHn_CFG (R215). -/
def FQ_CHn_CFG (n : Nat) : Nat := 0x40000 + 0x20 * n
def fFQ_CHn_CFG_ENABLE : Fld := ⟨31, 31⟩
def fFQ_CHn_CFG_PROD : Fld := ⟨23, 16⟩
def fFQ_CHn_CFG_CONS : Fld := ⟨15, 8⟩
def fFQ_CHn_CFG_CT_ITEMS : Fld := ⟨6, 0⟩
/-- FQ_CHn_STORE (R215). -/
def FQ_CHn_STORE (n : Nat) : Nat := 0x40004 + 0x20 * n
def fFQ_CHn_STORE_DEPTH : Fld := ⟨25, 16⟩
def fFQ_CHn_STORE_BASE : Fld := ⟨9, 0⟩
/-- FQ_CHn_AVEV (R215). -/
def FQ_CHn_AVEV (n : Nat) : Nat := 0x40008 + 0x20 * n
def fFQ_CHn_AVEV_EN : Fld := ⟨31, 31⟩
def fFQ_CHn_AVEV_FLAG : Fld := ⟨14, 10⟩
def fFQ_CHn_AVEV_ENGINE : Fld := ⟨9, 6⟩
def fFQ_CHn_AVEV_TSLOT : Fld := ⟨5, 0⟩
/-- FQ_CHn_ROOMEV (R215). -/
def FQ_CHn_ROOMEV (n : Nat) : Nat := 0x4000C + 0x20 * n
def fFQ_CHn_ROOMEV_EN : Fld := ⟨31, 31⟩
def fFQ_CHn_ROOMEV_ROOM : Fld := ⟨25, 16⟩
def fFQ_CHn_ROOMEV_FLAG : Fld := ⟨14, 10⟩
def fFQ_CHn_ROOMEV_ENGINE : Fld := ⟨9, 6⟩
def fFQ_CHn_ROOMEV_TSLOT : Fld := ⟨5, 0⟩
/-- FQ_CHn_STAT (R215). -/
def FQ_CHn_STAT (n : Nat) : Nat := 0x40010 + 0x20 * n
def fFQ_CHn_STAT_WORDS : Fld := ⟨31, 16⟩
def fFQ_CHn_STAT_ITEMS : Fld := ⟨15, 8⟩
def fFQ_CHn_STAT_DROPPING : Fld := ⟨2, 2⟩
def fFQ_CHn_STAT_VOIDING : Fld := ⟨1, 1⟩
def fFQ_CHn_STAT_FULL : Fld := ⟨0, 0⟩
/-- FQ_CHn_CNT (R215). -/
def FQ_CHn_CNT (n : Nat) : Nat := 0x40014 + 0x20 * n
def fFQ_CHn_CNT_POISONED : Fld := ⟨31, 16⟩
def fFQ_CHn_CNT_FLUSHES : Fld := ⟨15, 8⟩
def fFQ_CHn_CNT_DROPS : Fld := ⟨7, 0⟩
/-- FQ_CHn_CMD (R215). -/
def FQ_CHn_CMD (n : Nat) : Nat := 0x40018 + 0x20 * n
def fFQ_CHn_CMD_DROP_REM : Fld := ⟨1, 1⟩
def fFQ_CHn_CMD_FLUSH : Fld := ⟨0, 0⟩
/-- FQ_STORE (R215). -/
def FQ_STORE : Nat := 0x42000
def fFQ_STORE_UNITS : Fld := ⟨9, 0⟩
/-- RFx_CTL (R261). -/
def RFx_CTL (x : Nat) : Nat := 0x50000 + 0x10000 * x
def fRFx_CTL_STALE_DT : Fld := ⟨23, 16⟩
def fRFx_CTL_RET : Fld := ⟨2, 2⟩
def fRFx_CTL_MODE : Fld := ⟨1, 0⟩
/-- RFx_STAT (R261). -/
def RFx_STAT (x : Nat) : Nat := 0x50004 + 0x10000 * x
def fRFx_STAT_CHAN_PENDING : Fld := ⟨11, 11⟩
def fRFx_STAT_ID_READING : Fld := ⟨10, 10⟩
def fRFx_STAT_LOCK : Fld := ⟨9, 9⟩
def fRFx_STAT_CAL_KIND : Fld := ⟨7, 4⟩
def fRFx_STAT_STATE : Fld := ⟨2, 0⟩
/-- RFx_CHAN (R261). -/
def RFx_CHAN (x : Nat) : Nat := 0x50008 + 0x10000 * x
def fRFx_CHAN_ALT : Fld := ⟨11, 11⟩
def fRFx_CHAN_BW : Fld := ⟨10, 8⟩
def fRFx_CHAN_PRIMARY : Fld := ⟨7, 0⟩
/-- RFx_CHANF_LO (R261). -/
def RFx_CHANF_LO (x : Nat) : Nat := 0x5000C + 0x10000 * x
/-- RFx_CHANF_HI (R261). -/
def RFx_CHANF_HI (x : Nat) : Nat := 0x50010 + 0x10000 * x
/-- RFx_CHAINEN (R261). -/
def RFx_CHAINEN (x : Nat) : Nat := 0x50014 + 0x10000 * x
def fRFx_CHAINEN_EN : Fld := ⟨15, 0⟩
/-- RFx_TXVALID (R261). -/
def RFx_TXVALID (x : Nat) : Nat := 0x50018 + 0x10000 * x
def fRFx_TXVALID_VALID : Fld := ⟨15, 0⟩
/-- RFx_OVPWR (R261). -/
def RFx_OVPWR (x : Nat) : Nat := 0x5001C + 0x10000 * x
def fRFx_OVPWR_DIS : Fld := ⟨15, 0⟩
/-- RFx_CALk (R261). -/
def RFx_CALk (x k : Nat) : Nat := 0x50020 + 0x10000 * x + 0x4 * k
def fRFx_CALk_AGE : Fld := ⟨31, 16⟩
def fRFx_CALk_DT : Fld := ⟨15, 8⟩
def fRFx_CALk_SKIPS : Fld := ⟨7, 0⟩
/-- RFx_TXCNT (R261). -/
def RFx_TXCNT (x : Nat) : Nat := 0x50040 + 0x10000 * x
def fRFx_TXCNT_REFUSED : Fld := ⟨31, 16⟩
def fRFx_TXCNT_CLAMPED : Fld := ⟨15, 0⟩
/-- RFx_TXLAST (R261). -/
def RFx_TXLAST (x : Nat) : Nat := 0x50044 + 0x10000 * x
def fRFx_TXLAST_STATUS : Fld := ⟨31, 24⟩
def fRFx_TXLAST_CHAINS : Fld := ⟨15, 0⟩
/-- RFx_PDSEL (R261). -/
def RFx_PDSEL (x : Nat) : Nat := 0x50048 + 0x10000 * x
def fRFx_PDSEL_CHAIN : Fld := ⟨3, 0⟩
/-- RFx_PDMEAS (R261). -/
def RFx_PDMEAS (x : Nat) : Nat := 0x5004C + 0x10000 * x
def fRFx_PDMEAS_CORR : Fld := ⟨31, 16⟩
def fRFx_PDMEAS_MEAS : Fld := ⟨15, 0⟩
/-- IDM_BUSk_CTL (R263). -/
def IDM_BUSk_CTL (k : Nat) : Nat := 0x170000 + 0x20 * k
def fIDM_BUSk_CTL_RESCAN : Fld := ⟨31, 31⟩
def fIDM_BUSk_CTL_FAST : Fld := ⟨0, 0⟩
/-- IDM_BUSk_STAT (R263). -/
def IDM_BUSk_STAT (k : Nat) : Nat := 0x170004 + 0x20 * k
def fIDM_BUSk_STAT_HP : Fld := ⟨17, 17⟩
def fIDM_BUSk_STAT_READING : Fld := ⟨16, 16⟩
def fIDM_BUSk_STAT_VALID : Fld := ⟨15, 8⟩
def fIDM_BUSk_STAT_PRESENT : Fld := ⟨7, 0⟩
/-- IDM_BUSk_ERR (R263). -/
def IDM_BUSk_ERR (k : Nat) : Nat := 0x170008 + 0x20 * k
def fIDM_BUSk_ERR_CODEa (i : Nat) : Fld := ⟨4 * i + 3, 4 * i + 0⟩
/-- IDM_BUSk_CNT (R263). -/
def IDM_BUSk_CNT (k : Nat) : Nat := 0x17000C + 0x20 * k
def fIDM_BUSk_CNT_READS : Fld := ⟨31, 16⟩
def fIDM_BUSk_CNT_FAILS : Fld := ⟨15, 8⟩
def fIDM_BUSk_CNT_HPTOGGLES : Fld := ⟨7, 0⟩
/-- IDM_RECk_a (R263). -/
def IDM_RECk_a (k a j : Nat) : Nat := 0x171000 + 0x800 * k + 0x100 * a + 0x4 * j
/-- BBx_CTL (R294). -/
def BBx_CTL (x : Nat) : Nat := 0x80000 + 0x10000 * x
def fBBx_CTL_RESTART_DELTA : Fld := ⟨23, 16⟩
def fBBx_CTL_RESTART_TB : Fld := ⟨5, 5⟩
def fBBx_CTL_RESTART_EN : Fld := ⟨4, 4⟩
def fBBx_CTL_CANC_EN : Fld := ⟨1, 1⟩
def fBBx_CTL_STR_EN : Fld := ⟨0, 0⟩
/-- BBx_DETCTL (R294). -/
def BBx_DETCTL (x : Nat) : Nat := 0x80004 + 0x10000 * x
def fBBx_DETCTL_ED_THR : Fld := ⟨15, 8⟩
def fBBx_DETCTL_PD_THR : Fld := ⟨7, 0⟩
/-- BBx_PUNCT (R294). -/
def BBx_PUNCT (x : Nat) : Nat := 0x80008 + 0x10000 * x
def fBBx_PUNCT_STATIC : Fld := ⟨15, 0⟩
/-- BBx_STAT (R294). -/
def BBx_STAT (x : Nat) : Nat := 0x8000C + 0x10000 * x
def fBBx_STAT_BUSY : Fld := ⟨31, 16⟩
def fBBx_STAT_RXSTATE : Fld := ⟨2, 0⟩
/-- BBx_RXCNT0 (R294). -/
def BBx_RXCNT0 (x : Nat) : Nat := 0x80010 + 0x10000 * x
def fBBx_RXCNT0_OK : Fld := ⟨31, 16⟩
def fBBx_RXCNT0_SIG_FAIL : Fld := ⟨15, 0⟩
/-- BBx_RXCNT1 (R294). -/
def BBx_RXCNT1 (x : Nat) : Nat := 0x80014 + 0x10000 * x
def fBBx_RXCNT1_SUPERSEDED : Fld := ⟨31, 16⟩
def fBBx_RXCNT1_TRUNCATED : Fld := ⟨15, 0⟩
/-- BBx_RXCNT2 (R294). -/
def BBx_RXCNT2 (x : Nat) : Nat := 0x80018 + 0x10000 * x
def fBBx_RXCNT2_OVERLOAD : Fld := ⟨31, 24⟩
def fBBx_RXCNT2_UNSUPPORTED : Fld := ⟨23, 16⟩
def fBBx_RXCNT2_CUT_BY_TX : Fld := ⟨15, 8⟩
def fBBx_RXCNT2_LATE : Fld := ⟨7, 0⟩
/-- BBx_CWFAIL (R294). -/
def BBx_CWFAIL (x : Nat) : Nat := 0x8001C + 0x10000 * x
def fBBx_CWFAIL_CWFAIL : Fld := ⟨31, 0⟩
/-- BBx_STRSTAT (R294). -/
def BBx_STRSTAT (x : Nat) : Nat := 0x80020 + 0x10000 * x
def fBBx_STRSTAT_STR_OK : Fld := ⟨31, 31⟩
def fBBx_STRSTAT_CONV : Fld := ⟨30, 30⟩
def fBBx_STRSTAT_CANC_DB : Fld := ⟨23, 16⟩
def fBBx_STRSTAT_SEP_MHZ : Fld := ⟨15, 0⟩
/-- BBx_STRCTL (R294). -/
def BBx_STRCTL (x : Nat) : Nat := 0x80024 + 0x10000 * x
def fBBx_STRCTL_MIN_DB : Fld := ⟨15, 8⟩
def fBBx_STRCTL_COUNT : Fld := ⟨3, 0⟩
/-- BBx_SNDCTL (R294). -/
def BBx_SNDCTL (x : Nat) : Nat := 0x80028 + 0x10000 * x
def fBBx_SNDCTL_MAXAGE : Fld := ⟨31, 16⟩
def fBBx_SNDCTL_FILL : Fld := ⟨9, 0⟩
/-- BBx_TSDELAY (R294). -/
def BBx_TSDELAY (x : Nat) : Nat := 0x8002C + 0x10000 * x
def fBBx_TSDELAY_TX : Fld := ⟨31, 16⟩
def fBBx_TSDELAY_RX : Fld := ⟨15, 0⟩
/-- BBx_LASTRXj (R294). -/
def BBx_LASTRXj (x j : Nat) : Nat := 0x80030 + 0x10000 * x + 0x4 * j
def fBBx_LASTRXj_VEC : Fld := ⟨31, 0⟩
/-- BBx_RSSIc (R294). -/
def BBx_RSSIc (x c : Nat) : Nat := 0x80080 + 0x10000 * x + 0x4 * c
def fBBx_RSSIc_RSSI : Fld := ⟨7, 0⟩
/-- WMAC_CTL (R337). -/
def WMAC_CTL : Nat := 0xB0000
def fWMAC_CTL_RUN : Fld := ⟨31, 31⟩
def fWMAC_CTL_RETRY_LIMIT : Fld := ⟨15, 12⟩
def fWMAC_CTL_OBSS_CUT : Fld := ⟨0, 0⟩
/-- WMAC_STAT (R337). -/
def WMAC_STAT : Nat := 0xB0004
def fWMAC_STAT_NSTR : Fld := ⟨8, 8⟩
def fWMAC_STAT_SERVING : Fld := ⟨2, 0⟩
/-- WMAC_SEQx_CFG (R337). -/
def WMAC_SEQx_CFG (x : Nat) : Nat := 0xB0010 + 0x10 * x
def fWMAC_SEQx_CFG_SIFS_US : Fld := ⟨23, 16⟩
def fWMAC_SEQx_CFG_SLOT_US : Fld := ⟨15, 8⟩
def fWMAC_SEQx_CFG_LONG_SLOT : Fld := ⟨0, 0⟩
/-- WMAC_SEQx_SLOTCNT (R337). -/
def WMAC_SEQx_SLOTCNT (x : Nat) : Nat := 0xB0014 + 0x10 * x
def fWMAC_SEQx_SLOTCNT_STARTED : Fld := ⟨31, 16⟩
def fWMAC_SEQx_SLOTCNT_SLIPPED : Fld := ⟨15, 0⟩
/-- WMAC_SEQx_SLOTLAST (R337). -/
def WMAC_SEQx_SLOTLAST (x : Nat) : Nat := 0xB0018 + 0x10 * x
def fWMAC_SEQx_SLOTLAST_STATUS : Fld := ⟨31, 24⟩
def fWMAC_SEQx_SLOTLAST_KIND : Fld := ⟨23, 20⟩
def fWMAC_SEQx_SLOTLAST_BEAT : Fld := ⟨15, 8⟩
def fWMAC_SEQx_SLOTLAST_START : Fld := ⟨7, 0⟩
/-- WMAC_STGx_STAT (R337). -/
def WMAC_STGx_STAT (x : Nat) : Nat := 0xB001C + 0x10 * x
def fWMAC_STGx_STAT_REWIND_LOST : Fld := ⟨31, 16⟩
def fWMAC_STGx_STAT_PENDING : Fld := ⟨11, 0⟩
/-- WMAC_MLOCTL (R337). -/
def WMAC_MLOCTL : Nat := 0xB0040
def fWMAC_MLOCTL_CROSS_LINK : Fld := ⟨31, 31⟩
/-- WMAC_BACTL (R337). -/
def WMAC_BACTL : Nat := 0xB0044
def fWMAC_BACTL_REORDER_TO : Fld := ⟨15, 0⟩
/-- WMAC_PNCTL (R337). -/
def WMAC_PNCTL : Nat := 0xB0048
def fWMAC_PNCTL_BLOCK : Fld := ⟨23, 16⟩
/-- WMAC_SECCNT (R337). -/
def WMAC_SECCNT : Nat := 0xB004C
def fWMAC_SECCNT_REPLAY : Fld := ⟨31, 24⟩
def fWMAC_SECCNT_MICFAIL : Fld := ⟨23, 16⟩
def fWMAC_SECCNT_KEY_STALE : Fld := ⟨15, 8⟩
def fWMAC_SECCNT_PN_WAIT : Fld := ⟨7, 0⟩
/-- WMAC_RXCNT (R337). -/
def WMAC_RXCNT : Nat := 0xB0050
def fWMAC_RXCNT_REORDER_TO : Fld := ⟨31, 16⟩
def fWMAC_RXCNT_LATE_DELIV : Fld := ⟨15, 8⟩
def fWMAC_RXCNT_LATE_RESP : Fld := ⟨7, 0⟩
/-- WMAC_TWTCNT (R337). -/
def WMAC_TWTCNT : Nat := 0xB0054
def fWMAC_TWTCNT_UNBOUND : Fld := ⟨31, 16⟩
def fWMAC_TWTCNT_ACTIVE : Fld := ⟨12, 0⟩
/-- WMAC_KEYSTAT (R337). -/
def WMAC_KEYSTAT : Nat := 0xB0058
def fWMAC_KEYSTAT_PAIR_USED : Fld := ⟨28, 16⟩
def fWMAC_KEYSTAT_GROUP_USED : Fld := ⟨9, 0⟩
/-- WMAC_BSSi_CFG (R337). -/
def WMAC_BSSi_CFG (i : Nat) : Nat := 0xB0100 + 0x10 * i
def fWMAC_BSSi_CFG_EN : Fld := ⟨31, 31⟩
def fWMAC_BSSi_CFG_TX_BSSID : Fld := ⟨30, 30⟩
def fWMAC_BSSi_CFG_DTIM_PERIOD : Fld := ⟨7, 0⟩
/-- WMAC_BSSi_ADDR_LO (R337). -/
def WMAC_BSSi_ADDR_LO (i : Nat) : Nat := 0xB0104 + 0x10 * i
def fWMAC_BSSi_ADDR_LO_ADDR : Fld := ⟨31, 0⟩
/-- WMAC_BSSi_ADDR_HI (R337). -/
def WMAC_BSSi_ADDR_HI (i : Nat) : Nat := 0xB0108 + 0x10 * i
def fWMAC_BSSi_ADDR_HI_ADDR : Fld := ⟨15, 0⟩
/-- WMAC_BSSi_MLD (R337). -/
def WMAC_BSSi_MLD (i : Nat) : Nat := 0xB010C + 0x10 * i
def fWMAC_BSSi_MLD_MEMBER : Fld := ⟨31, 31⟩
def fWMAC_BSSi_MLD_LINK_ID : Fld := ⟨11, 8⟩
def fWMAC_BSSi_MLD_MLD : Fld := ⟨3, 0⟩
/-- WMAC_MLDm_ADDR_LO (R337). -/
def WMAC_MLDm_ADDR_LO (m : Nat) : Nat := 0xB0400 + 0x8 * m
def fWMAC_MLDm_ADDR_LO_ADDR : Fld := ⟨31, 0⟩
/-- WMAC_MLDm_ADDR_HI (R337). -/
def WMAC_MLDm_ADDR_HI (m : Nat) : Nat := 0xB0404 + 0x8 * m
def fWMAC_MLDm_ADDR_HI_ADDR : Fld := ⟨15, 0⟩
/-- ASCH_CTL (R371). -/
def ASCH_CTL : Nat := 0xC0000
def fASCH_CTL_RUN : Fld := ⟨31, 31⟩
def fASCH_CTL_BND_EN : Fld := ⟨1, 1⟩
def fASCH_CTL_SMP_EN : Fld := ⟨0, 0⟩
/-- ASCH_STAT (R371). -/
def ASCH_STAT : Nat := 0xC0004
def fASCH_STAT_BUILTIN : Fld := ⟨31, 31⟩
def fASCH_STAT_BACKLOGGED : Fld := ⟨14, 0⟩
/-- ASCH_TPLSEL (R371). -/
def ASCH_TPLSEL : Nat := 0xC0008
def fASCH_TPLSEL_BANK : Fld := ⟨8, 8⟩
def fASCH_TPLSEL_TPL : Fld := ⟨5, 0⟩
/-- ASCH_TPLCTL (R371). -/
def ASCH_TPLCTL : Nat := 0xC000C
def fASCH_TPLCTL_SEAL : Fld := ⟨31, 31⟩
def fASCH_TPLCTL_CLEAR : Fld := ⟨30, 30⟩
def fASCH_TPLCTL_ACT_STATE : Fld := ⟨3, 2⟩
def fASCH_TPLCTL_SHD_STATE : Fld := ⟨1, 0⟩
/-- ASCH_TPLCAP (R371). -/
def ASCH_TPLCAP : Nat := 0xC0010
def fASCH_TPLCAP_CAP : Fld := ⟨15, 0⟩
/-- ASCH_TPLCLSc (R371). -/
def ASCH_TPLCLSc (c : Nat) : Nat := 0xC0020 + 0x4 * c
def fASCH_TPLCLSc_FILL : Fld := ⟨31, 31⟩
def fASCH_TPLCLSc_ORDER : Fld := ⟨26, 24⟩
def fASCH_TPLCLSc_SHARE : Fld := ⟨15, 0⟩
/-- ASCH_OVHD0 (R371). -/
def ASCH_OVHD0 : Nat := 0xC0040
def fASCH_OVHD0_OVHDc (i : Nat) : Fld := ⟨8 * i + 7, 8 * i + 0⟩
/-- ASCH_OVHD1 (R371). -/
def ASCH_OVHD1 : Nat := 0xC0044
def fASCH_OVHD1_OVHDc (i : Nat) : Fld := ⟨8 * i + 7, 8 * i + 0⟩
/-- ASCH_ENQCNT (R371). -/
def ASCH_ENQCNT : Nat := 0xC0050
def fASCH_ENQCNT_TAILDROP : Fld := ⟨31, 16⟩
def fASCH_ENQCNT_RETURNED : Fld := ⟨15, 0⟩
/-- ASCH_POLCNT (R371). -/
def ASCH_POLCNT : Nat := 0xC0054
def fASCH_POLCNT_DROPPED : Fld := ⟨31, 16⟩
def fASCH_POLCNT_MARKED : Fld := ⟨15, 0⟩
/-- ASCH_VIOLCNT (R371). -/
def ASCH_VIOLCNT : Nat := 0xC0058
def fASCH_VIOLCNT_IN_ALLOW : Fld := ⟨31, 24⟩
def fASCH_VIOLCNT_OVER_ALLOW : Fld := ⟨23, 16⟩
def fASCH_VIOLCNT_DROPPED : Fld := ⟨15, 8⟩
def fASCH_VIOLCNT_SWAP : Fld := ⟨7, 0⟩
/-- ASCH_VLAST0 (R371). -/
def ASCH_VLAST0 : Nat := 0xC0060
def fASCH_VLAST0_FLOW : Fld := ⟨31, 16⟩
def fASCH_VLAST0_STATION : Fld := ⟨15, 5⟩
def fASCH_VLAST0_TID : Fld := ⟨4, 2⟩
def fASCH_VLAST0_DIR : Fld := ⟨1, 1⟩
def fASCH_VLAST0_PENDING : Fld := ⟨0, 0⟩
/-- ASCH_VLAST1 (R371). -/
def ASCH_VLAST1 : Nat := 0xC0064
def fASCH_VLAST1_CAUSE : Fld := ⟨31, 28⟩
def fASCH_VLAST1_LOST : Fld := ⟨27, 20⟩
def fASCH_VLAST1_DELAY_US : Fld := ⟨19, 0⟩
/-- ASCH_SMPBASE_LO (R371). -/
def ASCH_SMPBASE_LO : Nat := 0xC0070
def fASCH_SMPBASE_LO_BASE : Fld := ⟨31, 4⟩
/-- ASCH_SMPBASE_HI (R371). -/
def ASCH_SMPBASE_HI : Nat := 0xC0074
def fASCH_SMPBASE_HI_BASE : Fld := ⟨31, 0⟩
/-- ASCH_SMPCTL (R371). -/
def ASCH_SMPCTL : Nat := 0xC0078
def fASCH_SMPCTL_DEPTH_LOG2 : Fld := ⟨3, 0⟩
/-- ASCH_SMPRANGE (R371). -/
def ASCH_SMPRANGE : Nat := 0xC007C
def fASCH_SMPRANGE_LAST : Fld := ⟨30, 16⟩
def fASCH_SMPRANGE_FIRST : Fld := ⟨14, 0⟩
/-- ASCH_SMPLAST_LO (R371). -/
def ASCH_SMPLAST_LO : Nat := 0xC0080
def fASCH_SMPLAST_LO_FRAME : Fld := ⟨31, 0⟩
/-- ASCH_SMPLAST_HI (R371). -/
def ASCH_SMPLAST_HI : Nat := 0xC0084
def fASCH_SMPLAST_HI_FRAME : Fld := ⟨13, 0⟩
/-- ASCH_SMPSTAT (R371). -/
def ASCH_SMPSTAT : Nat := 0xC0088
def fASCH_SMPSTAT_LATE : Fld := ⟨31, 16⟩
/-- ASCH_PICKCH (R371). -/
def ASCH_PICKCH : Nat := 0xC008C
def fASCH_PICKCH_CH_H : Fld := ⟨23, 16⟩
def fASCH_PICKCH_CH_M : Fld := ⟨15, 8⟩
def fASCH_PICKCH_CH_L : Fld := ⟨7, 0⟩
/-- ASCH_HPk_BASE_LO (R371). -/
def ASCH_HPk_BASE_LO (k : Nat) : Nat := 0xC0090 + 0x10 * k
def fASCH_HPk_BASE_LO_BASE : Fld := ⟨31, 12⟩
/-- ASCH_HPk_BASE_HI (R371). -/
def ASCH_HPk_BASE_HI (k : Nat) : Nat := 0xC0094 + 0x10 * k
def fASCH_HPk_BASE_HI_BASE : Fld := ⟨31, 0⟩
/-- ASCH_HPk_COUNT (R371). -/
def ASCH_HPk_COUNT (k : Nat) : Nat := 0xC0098 + 0x10 * k
def fASCH_HPk_COUNT_COUNT : Fld := ⟨20, 0⟩
/-- ASCH_HPk_STAT (R371). -/
def ASCH_HPk_STAT (k : Nat) : Nat := 0xC009C + 0x10 * k
def fASCH_HPk_STAT_EMPTY : Fld := ⟨31, 24⟩
def fASCH_HPk_STAT_FREE : Fld := ⟨20, 0⟩
/-- MSH_MCTL (R417). -/
def MSH_MCTL : Nat := 0xD0000
def fMSH_MCTL_RET : Fld := ⟨2, 2⟩
def fMSH_MCTL_MODE : Fld := ⟨1, 0⟩
/-- MSH_MSTAT (R417). -/
def MSH_MSTAT : Nat := 0xD0004
def fMSH_MSTAT_CAL_STALE : Fld := ⟨11, 11⟩
def fMSH_MSTAT_LOCK : Fld := ⟨9, 9⟩
def fMSH_MSTAT_CAL_KIND : Fld := ⟨7, 4⟩
def fMSH_MSTAT_STATE : Fld := ⟨2, 0⟩
/-- MSH_MPHYk (R417). -/
def MSH_MPHYk (k : Nat) : Nat := 0xD0008 + 0x4 * k
def fMSH_MPHYk_NARROW : Fld := ⟨31, 31⟩
def fMSH_MPHYk_SF : Fld := ⟨26, 24⟩
def fMSH_MPHYk_BW : Fld := ⟨21, 20⟩
def fMSH_MPHYk_RATE : Fld := ⟨17, 16⟩
def fMSH_MPHYk_PRE_LEN : Fld := ⟨14, 8⟩
def fMSH_MPHYk_SYNC_ERR : Fld := ⟨2, 0⟩
/-- MSH_MSYNC (R417). -/
def MSH_MSYNC : Nat := 0xD0018
def fMSH_MSYNC_SYNC : Fld := ⟨31, 0⟩
/-- MSH_MCHAN (R417). -/
def MSH_MCHAN : Nat := 0xD001C
def fMSH_MCHAN_N : Fld := ⟨11, 0⟩
/-- MSH_MTXPWR (R417). -/
def MSH_MTXPWR : Nat := 0xD0020
def fMSH_MTXPWR_PWR : Fld := ⟨7, 0⟩
/-- MSH_MTXCFG (R417). -/
def MSH_MTXCFG : Nat := 0xD0024
def fMSH_MTXCFG_EXT_PA : Fld := ⟨31, 31⟩
def fMSH_MTXCFG_FK1_MASK : Fld := ⟨30, 30⟩
def fMSH_MTXCFG_EXT_PA_GAIN : Fld := ⟨23, 16⟩
def fMSH_MTXCFG_ANT_GAIN : Fld := ⟨15, 8⟩
/-- MSH_MFIR0 (R417). -/
def MSH_MFIR0 : Nat := 0xD0028
def fMSH_MFIR0_C_ODD : Fld := ⟨27, 16⟩
def fMSH_MFIR0_C_EVEN : Fld := ⟨11, 0⟩
/-- MSH_MFIR1 (R417). -/
def MSH_MFIR1 : Nat := 0xD002C
def fMSH_MFIR1_C_ODD : Fld := ⟨27, 16⟩
def fMSH_MFIR1_C_EVEN : Fld := ⟨11, 0⟩
/-- MSH_MFIR2 (R417). -/
def MSH_MFIR2 : Nat := 0xD0030
def fMSH_MFIR2_C_ODD : Fld := ⟨27, 16⟩
def fMSH_MFIR2_C_EVEN : Fld := ⟨11, 0⟩
/-- MSH_MFIR3 (R417). -/
def MSH_MFIR3 : Nat := 0xD0034
def fMSH_MFIR3_C_ODD : Fld := ⟨27, 16⟩
def fMSH_MFIR3_C_EVEN : Fld := ⟨11, 0⟩
/-- MSH_MRXCTL (R417). -/
def MSH_MRXCTL : Nat := 0xD0038
def fMSH_MRXCTL_RESTART_DELTA : Fld := ⟨23, 16⟩
def fMSH_MRXCTL_RESTART_EN : Fld := ⟨4, 4⟩
/-- MSH_MRXCNT0 (R417). -/
def MSH_MRXCNT0 : Nat := 0xD003C
def fMSH_MRXCNT0_OK : Fld := ⟨31, 16⟩
def fMSH_MRXCNT0_HDR_FAIL : Fld := ⟨15, 0⟩
/-- MSH_MRXCNT1 (R417). -/
def MSH_MRXCNT1 : Nat := 0xD0040
def fMSH_MRXCNT1_SUPERSEDED : Fld := ⟨31, 24⟩
def fMSH_MRXCNT1_TRUNCATED : Fld := ⟨23, 16⟩
def fMSH_MRXCNT1_FALSE_LOCK : Fld := ⟨15, 0⟩
/-- MSH_MTXCNT (R417). -/
def MSH_MTXCNT : Nat := 0xD0044
def fMSH_MTXCNT_REFUSED : Fld := ⟨31, 16⟩
def fMSH_MTXCNT_CLAMPED : Fld := ⟨15, 0⟩
/-- MSH_MTXLAST (R417). -/
def MSH_MTXLAST : Nat := 0xD0048
def fMSH_MTXLAST_STATUS : Fld := ⟨31, 24⟩
def fMSH_MTXLAST_CHAN : Fld := ⟨11, 0⟩
/-- MSH_MRXLAST (R417). -/
def MSH_MRXLAST : Nat := 0xD004C
def fMSH_MRXLAST_RSSI : Fld := ⟨31, 16⟩
def fMSH_MRXLAST_SNR : Fld := ⟨15, 8⟩
def fMSH_MRXLAST_STATUS : Fld := ⟨7, 0⟩
/-- MSH_MRCAL (R417). -/
def MSH_MRCAL : Nat := 0xD0050
def fMSH_MRCAL_GO : Fld := ⟨31, 31⟩
def fMSH_MRCAL_KIND : Fld := ⟨26, 24⟩
def fMSH_MRCAL_DT : Fld := ⟨23, 16⟩
def fMSH_MRCAL_IRR_DB : Fld := ⟨15, 8⟩
def fMSH_MRCAL_DT_NOW : Fld := ⟨7, 0⟩
/-- MSH_MTSDLY (R417). -/
def MSH_MTSDLY : Nat := 0xD0054
def fMSH_MTSDLY_TX : Fld := ⟨31, 16⟩
def fMSH_MTSDLY_RX : Fld := ⟨15, 0⟩
/-- MSH_DUTYe (R417). -/
def MSH_DUTYe (e : Nat) : Nat := 0xD0060 + 0x4 * e
def fMSH_DUTYe_USED_MS : Fld := ⟨31, 0⟩
/-- MSH_WAKECTL (R417). -/
def MSH_WAKECTL : Nat := 0xD0070
def fMSH_WAKECTL_EN : Fld := ⟨31, 31⟩
def fMSH_WAKECTL_CHAN : Fld := ⟨27, 16⟩
def fMSH_WAKECTL_WK_ERR : Fld := ⟨1, 0⟩
/-- MSH_WAKEWORD (R417). -/
def MSH_WAKEWORD : Nat := 0xD0074
def fMSH_WAKEWORD_WORD : Fld := ⟨15, 0⟩
/-- MSH_WAKECNT (R417). -/
def MSH_WAKECNT : Nat := 0xD0078
def fMSH_WAKECNT_MATCHES : Fld := ⟨31, 16⟩
def fMSH_WAKECNT_BURSTS : Fld := ⟨15, 0⟩
/-- MSH_LCTL (R451). -/
def MSH_LCTL : Nat := 0xD0100
def fMSH_LCTL_RUN : Fld := ⟨31, 31⟩
def fMSH_LCTL_FLOOD_RELAY : Fld := ⟨30, 30⟩
def fMSH_LCTL_RESYNC_MAX : Fld := ⟨11, 8⟩
/-- MSH_LSTAT (R451). -/
def MSH_LSTAT : Nat := 0xD0104
def fMSH_LSTAT_BSN : Fld := ⟨31, 24⟩
def fMSH_LSTAT_TPL : Fld := ⟨23, 22⟩
def fMSH_LSTAT_NBRS : Fld := ⟨7, 0⟩
/-- MSH_SFN (R451). -/
def MSH_SFN : Nat := 0xD0108
def fMSH_SFN_SFN : Fld := ⟨31, 0⟩
/-- MSH_GUARD (R451). -/
def MSH_GUARD : Nat := 0xD010C
def fMSH_GUARD_GMIN_US : Fld := ⟨31, 16⟩
def fMSH_GUARD_JITTER_US : Fld := ⟨15, 8⟩
/-- MSH_DRIFT (R451). -/
def MSH_DRIFT : Nat := 0xD0110
def fMSH_DRIFT_DMAX : Fld := ⟨31, 16⟩
def fMSH_DRIFT_RMIN : Fld := ⟨15, 0⟩
/-- MSH_FLOOD (R451). -/
def MSH_FLOOD : Nat := 0xD0114
def fMSH_FLOOD_RELAY_WIN_MS : Fld := ⟨15, 8⟩
/-- MSH_NETID (R451). -/
def MSH_NETID : Nat := 0xD0118
def fMSH_NETID_NETID : Fld := ⟨31, 0⟩
/-- MSH_FCNTOWN (R451). -/
def MSH_FCNTOWN : Nat := 0xD011C
def fMSH_FCNTOWN_FCNT : Fld := ⟨31, 0⟩
/-- MSH_NBRSEL (R451). -/
def MSH_NBRSEL : Nat := 0xD0120
def fMSH_NBRSEL_ENTRY : Fld := ⟨6, 0⟩
/-- MSH_NBR0 (R451). -/
def MSH_NBR0 : Nat := 0xD0124
def fMSH_NBR0_ADDR : Fld := ⟨31, 16⟩
def fMSH_NBR0_STATE : Fld := ⟨15, 12⟩
def fMSH_NBR0_MISSES : Fld := ⟨11, 8⟩
def fMSH_NBR0_RESYNCS : Fld := ⟨7, 0⟩
/-- MSH_NBR1 (R451). -/
def MSH_NBR1 : Nat := 0xD0128
def fMSH_NBR1_DRIFT : Fld := ⟨31, 16⟩
def fMSH_NBR1_RESID : Fld := ⟨15, 0⟩
/-- MSH_NBR2 (R451). -/
def MSH_NBR2 : Nat := 0xD012C
def fMSH_NBR2_HI : Fld := ⟨31, 0⟩
/-- MSH_LINKCNT (R451). -/
def MSH_LINKCNT : Nat := 0xD0130
def fMSH_LINKCNT_MISSES : Fld := ⟨31, 16⟩
def fMSH_LINKCNT_RESYNCS : Fld := ⟨15, 8⟩
def fMSH_LINKCNT_LOST : Fld := ⟨7, 0⟩
/-- MSH_SECCNT (R451). -/
def MSH_SECCNT : Nat := 0xD0134
def fMSH_SECCNT_CRC_FAIL : Fld := ⟨31, 24⟩
def fMSH_SECCNT_MIC_FAIL : Fld := ⟨23, 16⟩
def fMSH_SECCNT_REPLAY : Fld := ⟨15, 8⟩
def fMSH_SECCNT_UNKNOWN : Fld := ⟨7, 0⟩
/-- MSH_FLDCNT (R451). -/
def MSH_FLDCNT : Nat := 0xD0138
def fMSH_FLDCNT_RELAYED : Fld := ⟨31, 16⟩
def fMSH_FLDCNT_SUPPRESSED : Fld := ⟨15, 8⟩
def fMSH_FLDCNT_NOSLOT : Fld := ⟨7, 0⟩
/-- MSH_LOGSTAT (R451). -/
def MSH_LOGSTAT : Nat := 0xD013C
def fMSH_LOGSTAT_UNDELIV : Fld := ⟨31, 16⟩
def fMSH_LOGSTAT_FILL_KIB : Fld := ⟨15, 8⟩
def fMSH_LOGSTAT_LOST : Fld := ⟨7, 0⟩
/-- UPL_Pp_CFG (R472). -/
def UPL_Pp_CFG (p : Nat) : Nat := 0xE0000 + 0x100 * p
def fUPL_Pp_CFG_MAXLEN : Fld := ⟨29, 16⟩
def fUPL_Pp_CFG_AN : Fld := ⟨5, 5⟩
def fUPL_Pp_CFG_FEC : Fld := ⟨4, 4⟩
def fUPL_Pp_CFG_MODE : Fld := ⟨2, 0⟩
/-- UPL_Pp_STAT (R472). -/
def UPL_Pp_STAT (p : Nat) : Nat := 0xE0004 + 0x100 * p
def fUPL_Pp_STAT_LINK : Fld := ⟨31, 31⟩
def fUPL_Pp_STAT_LPI_TX : Fld := ⟨30, 30⟩
def fUPL_Pp_STAT_LPI_RX : Fld := ⟨29, 29⟩
def fUPL_Pp_STAT_TSFILL : Fld := ⟨28, 24⟩
def fUPL_Pp_STAT_IGNORING : Fld := ⟨23, 16⟩
def fUPL_Pp_STAT_PAUSED : Fld := ⟨15, 8⟩
def fUPL_Pp_STAT_SPEED : Fld := ⟨1, 0⟩
/-- UPL_Pp_RXCH (R472). -/
def UPL_Pp_RXCH (p : Nat) : Nat := 0xE0008 + 0x100 * p
def fUPL_Pp_RXCH_ITEMW : Fld := ⟨14, 8⟩
def fUPL_Pp_RXCH_CH : Fld := ⟨7, 0⟩
/-- UPL_Pp_FC (R472). -/
def UPL_Pp_FC (p : Nat) : Nat := 0xE000C + 0x100 * p
def fUPL_Pp_FC_XOFF : Fld := ⟨23, 16⟩
def fUPL_Pp_FC_XON : Fld := ⟨15, 8⟩
def fUPL_Pp_FC_RX_HONOUR : Fld := ⟨2, 2⟩
def fUPL_Pp_FC_TX_MODE : Fld := ⟨1, 0⟩
/-- UPL_Pp_PQUANTA (R472). -/
def UPL_Pp_PQUANTA (p : Nat) : Nat := 0xE0010 + 0x100 * p
def fUPL_Pp_PQUANTA_QUANTA : Fld := ⟨15, 0⟩
/-- UPL_Pp_PWDOG (R472). -/
def UPL_Pp_PWDOG (p : Nat) : Nat := 0xE0014 + 0x100 * p
def fUPL_Pp_PWDOG_PAUSE_MAX : Fld := ⟨31, 16⟩
def fUPL_Pp_PWDOG_PAUSE_IGNORE : Fld := ⟨15, 0⟩
/-- UPL_Pp_GCTL (R472). -/
def UPL_Pp_GCTL (p : Nat) : Nat := 0xE0018 + 0x100 * p
def fUPL_Pp_GCTL_CHANGE : Fld := ⟨31, 31⟩
def fUPL_Pp_GCTL_EN : Fld := ⟨30, 30⟩
def fUPL_Pp_GCTL_GUARD : Fld := ⟨29, 29⟩
def fUPL_Pp_GCTL_STATUS : Fld := ⟨27, 24⟩
def fUPL_Pp_GCTL_LEN : Fld := ⟨8, 0⟩
/-- UPL_Pp_GCYCLE (R472). -/
def UPL_Pp_GCYCLE (p : Nat) : Nat := 0xE001C + 0x100 * p
def fUPL_Pp_GCYCLE_CYCLE : Fld := ⟨29, 0⟩
/-- UPL_Pp_GBASE_NS (R472). -/
def UPL_Pp_GBASE_NS (p : Nat) : Nat := 0xE0020 + 0x100 * p
def fUPL_Pp_GBASE_NS_NS : Fld := ⟨31, 0⟩
/-- UPL_Pp_GBASE_SLO (R472). -/
def UPL_Pp_GBASE_SLO (p : Nat) : Nat := 0xE0024 + 0x100 * p
def fUPL_Pp_GBASE_SLO_S : Fld := ⟨31, 0⟩
/-- UPL_Pp_GBASE_SHI (R472). -/
def UPL_Pp_GBASE_SHI (p : Nat) : Nat := 0xE0028 + 0x100 * p
def fUPL_Pp_GBASE_SHI_S : Fld := ⟨31, 0⟩
/-- UPL_Pp_GSTART_NS (R472). -/
def UPL_Pp_GSTART_NS (p : Nat) : Nat := 0xE002C + 0x100 * p
def fUPL_Pp_GSTART_NS_NS : Fld := ⟨31, 0⟩
/-- UPL_Pp_GSTART_SLO (R472). -/
def UPL_Pp_GSTART_SLO (p : Nat) : Nat := 0xE0030 + 0x100 * p
def fUPL_Pp_GSTART_SLO_S : Fld := ⟨31, 0⟩
/-- UPL_Pp_GSTART_SHI (R472). -/
def UPL_Pp_GSTART_SHI (p : Nat) : Nat := 0xE0034 + 0x100 * p
def fUPL_Pp_GSTART_SHI_S : Fld := ⟨31, 0⟩
/-- UPL_Pp_LPICTL (R472). -/
def UPL_Pp_LPICTL (p : Nat) : Nat := 0xE0038 + 0x100 * p
def fUPL_Pp_LPICTL_EN : Fld := ⟨31, 31⟩
def fUPL_Pp_LPICTL_IDLE_US : Fld := ⟨15, 0⟩
/-- UPL_Pp_TSDLY (R472). -/
def UPL_Pp_TSDLY (p : Nat) : Nat := 0xE003C + 0x100 * p
def fUPL_Pp_TSDLY_TX : Fld := ⟨31, 16⟩
def fUPL_Pp_TSDLY_RX : Fld := ⟨15, 0⟩
/-- UPL_Pp_TXTS0 (R472). -/
def UPL_Pp_TXTS0 (p : Nat) : Nat := 0xE0040 + 0x100 * p
def fUPL_Pp_TXTS0_NS : Fld := ⟨31, 0⟩
/-- UPL_Pp_TXTS1 (R472). -/
def UPL_Pp_TXTS1 (p : Nat) : Nat := 0xE0044 + 0x100 * p
def fUPL_Pp_TXTS1_S : Fld := ⟨31, 0⟩
/-- UPL_Pp_TXTS2 (R472). -/
def UPL_Pp_TXTS2 (p : Nat) : Nat := 0xE0048 + 0x100 * p
def fUPL_Pp_TXTS2_VALID : Fld := ⟨31, 31⟩
def fUPL_Pp_TXTS2_TSTAG : Fld := ⟨23, 16⟩
def fUPL_Pp_TXTS2_SHI : Fld := ⟨15, 0⟩
/-- UPL_Pp_CNT0 (R472). -/
def UPL_Pp_CNT0 (p : Nat) : Nat := 0xE004C + 0x100 * p
def fUPL_Pp_CNT0_RX_FCS : Fld := ⟨31, 16⟩
def fUPL_Pp_CNT0_RX_LONG : Fld := ⟨15, 0⟩
/-- UPL_Pp_CNT1 (R472). -/
def UPL_Pp_CNT1 (p : Nat) : Nat := 0xE0050 + 0x100 * p
def fUPL_Pp_CNT1_QFULL : Fld := ⟨31, 16⟩
def fUPL_Pp_CNT1_RX_FLUSHED : Fld := ⟨15, 8⟩
def fUPL_Pp_CNT1_PAUSE_STORM : Fld := ⟨7, 0⟩
/-- UPL_Pp_SHPq_RATE (R472). -/
def UPL_Pp_SHPq_RATE (p q : Nat) : Nat := 0xE0080 + 0x100 * p + 0x8 * q
def fUPL_Pp_SHPq_RATE_EN : Fld := ⟨31, 31⟩
def fUPL_Pp_SHPq_RATE_IDLE : Fld := ⟨23, 0⟩
/-- UPL_Pp_SHPq_BND (R472). -/
def UPL_Pp_SHPq_BND (p q : Nat) : Nat := 0xE0084 + 0x100 * p + 0x8 * q
def fUPL_Pp_SHPq_BND_HI : Fld := ⟨31, 16⟩
def fUPL_Pp_SHPq_BND_LO : Fld := ⟨15, 0⟩
/-- UPL_Pp_GCLe_IV (R472). -/
def UPL_Pp_GCLe_IV (p e : Nat) : Nat := 0xE4000 + 0x800 * p + 0x8 * e
def fUPL_Pp_GCLe_IV_IV : Fld := ⟨29, 0⟩
/-- UPL_Pp_GCLe_GS (R472). -/
def UPL_Pp_GCLe_GS (p e : Nat) : Nat := 0xE4004 + 0x800 * p + 0x8 * e
def fUPL_Pp_GCLe_GS_GATES : Fld := ⟨7, 0⟩
/-- RTE_CTL (R498). -/
def RTE_CTL : Nat := 0xF0000
def fRTE_CTL_RUN : Fld := ⟨31, 31⟩
/-- RTE_STAT (R498). -/
def RTE_STAT : Nat := 0xF0004
def fRTE_STAT_SPILLED : Fld := ⟨31, 17⟩
def fRTE_STAT_FREE : Fld := ⟨16, 0⟩
/-- RTE_BUFCFG (R498). -/
def RTE_BUFCFG : Nat := 0xF0008
def fRTE_BUFCFG_UNSPILL : Fld := ⟨15, 8⟩
def fRTE_BUFCFG_HEADROOM : Fld := ⟨3, 0⟩
/-- RTE_SPILL (R498). -/
def RTE_SPILL : Nat := 0xF000C
def fRTE_SPILL_ON : Fld := ⟨31, 16⟩
def fRTE_SPILL_OFF : Fld := ⟨15, 0⟩
/-- RTE_SPBASE_LO (R498). -/
def RTE_SPBASE_LO : Nat := 0xF0010
def fRTE_SPBASE_LO_BASE : Fld := ⟨31, 14⟩
/-- RTE_SPBASE_HI (R498). -/
def RTE_SPBASE_HI : Nat := 0xF0014
def fRTE_SPBASE_HI_BASE : Fld := ⟨31, 0⟩
/-- RTE_SPLEN (R498). -/
def RTE_SPLEN : Nat := 0xF0018
def fRTE_SPLEN_LEN : Fld := ⟨11, 0⟩
/-- RTE_CNT0 (R498). -/
def RTE_CNT0 : Nat := 0xF001C
def fRTE_CNT0_NOCELL : Fld := ⟨31, 16⟩
def fRTE_CNT0_SPILLS : Fld := ⟨15, 0⟩
/-- RTE_CNT1 (R498). -/
def RTE_CNT1 : Nat := 0xF0020
def fRTE_CNT1_STALE : Fld := ⟨31, 24⟩
def fRTE_CNT1_REFUSED : Fld := ⟨23, 16⟩
def fRTE_CNT1_TOO_BIG : Fld := ⟨15, 8⟩
def fRTE_CNT1_NO_MEMBER : Fld := ⟨7, 0⟩
/-- RTE_AGECTL (R498). -/
def RTE_AGECTL : Nat := 0xF0024
def fRTE_AGECTL_EN : Fld := ⟨31, 31⟩
def fRTE_AGECTL_RATE : Fld := ⟨15, 0⟩
/-- RTE_INq (R498). -/
def RTE_INq (q : Nat) : Nat := 0xF0040 + 0x4 * q
def fRTE_INq_EN : Fld := ⟨31, 31⟩
def fRTE_INq_AIR : Fld := ⟨30, 30⟩
def fRTE_INq_CH : Fld := ⟨7, 0⟩
/-- RTE_TBLt_BASE_LO (R498). -/
def RTE_TBLt_BASE_LO (t : Nat) : Nat := 0xF0100 + 0x10 * t
def fRTE_TBLt_BASE_LO_BASE : Fld := ⟨31, 0⟩
/-- RTE_TBLt_BASE_HI (R498). -/
def RTE_TBLt_BASE_HI (t : Nat) : Nat := 0xF0104 + 0x10 * t
def fRTE_TBLt_BASE_HI_BASE : Fld := ⟨31, 0⟩
/-- RTE_TBLt_CFG (R498). -/
def RTE_TBLt_CFG (t : Nat) : Nat := 0xF0108 + 0x10 * t
def fRTE_TBLt_CFG_KIND : Fld := ⟨31, 28⟩
def fRTE_TBLt_CFG_KEYW : Fld := ⟨27, 24⟩
def fRTE_TBLt_CFG_ESZ : Fld := ⟨23, 23⟩
def fRTE_TBLt_CFG_NLOG2 : Fld := ⟨22, 18⟩
def fRTE_TBLt_CFG_CLVL : Fld := ⟨17, 15⟩
def fRTE_TBLt_CFG_DLVL : Fld := ⟨14, 12⟩
/-- RTE_TBLt_PLACE (R498). -/
def RTE_TBLt_PLACE (t : Nat) : Nat := 0xF010C + 0x10 * t
def fRTE_TBLt_PLACE_AGE_S : Fld := ⟨31, 16⟩
def fRTE_TBLt_PLACE_CSIZE : Fld := ⟨12, 6⟩
def fRTE_TBLt_PLACE_CBASE : Fld := ⟨5, 0⟩
/-- RTE_SMACk_LO (R498). -/
def RTE_SMACk_LO (k : Nat) : Nat := 0xF0200 + 0x8 * k
def fRTE_SMACk_LO_ADDR : Fld := ⟨31, 0⟩
/-- RTE_SMACk_HI (R498). -/
def RTE_SMACk_HI (k : Nat) : Nat := 0xF0204 + 0x8 * k
def fRTE_SMACk_HI_ADDR : Fld := ⟨15, 0⟩
/-- RTE_LAGg_CFG (R498). -/
def RTE_LAGg_CFG (g : Nat) : Nat := 0xF0300 + 0x4 * g
def fRTE_LAGg_CFG_EN : Fld := ⟨31, 31⟩
def fRTE_LAGg_CFG_UP : Fld := ⟨11, 8⟩
def fRTE_LAGg_CFG_MEMBERS : Fld := ⟨3, 0⟩
/-- RTE_LAGg_MAPj (R498). -/
def RTE_LAGg_MAPj (g j : Nat) : Nat := 0xF0400 + 0x40 * g + 0x4 * j
def fRTE_LAGg_MAPj_PORTi (i : Nat) : Fld := ⟨2 * i + 1, 2 * i + 0⟩
/-- MEM_CTL (R543). -/
def MEM_CTL : Nat := 0x100000
def fMEM_CTL_TRAIN : Fld := ⟨31, 31⟩
def fMEM_CTL_ORDER : Fld := ⟨9, 8⟩
def fMEM_CTL_MAP : Fld := ⟨1, 0⟩
/-- MEM_CFG (R543). -/
def MEM_CFG : Nat := 0x100004
def fMEM_CFG_TYPE : Fld := ⟨31, 31⟩
def fMEM_CFG_RATE : Fld := ⟨27, 26⟩
def fMEM_CFG_SIZE_GIB : Fld := ⟨4, 0⟩
/-- MEM_STAT (R543). -/
def MEM_STAT : Nat := 0x100008
def fMEM_STAT_TRAINED : Fld := ⟨31, 31⟩
def fMEM_STAT_TRAIN_FAIL : Fld := ⟨30, 30⟩
def fMEM_STAT_RATE_NOW : Fld := ⟨29, 28⟩
def fMEM_STAT_FAILCH : Fld := ⟨27, 24⟩
/-- MEM_TEMP (R543). -/
def MEM_TEMP : Nat := 0x10000C
def fMEM_TEMP_MULTc (i : Nat) : Fld := ⟨8 * i + 7, 8 * i + 6⟩
def fMEM_TEMP_RRc (i : Nat) : Fld := ⟨8 * i + 4, 8 * i + 0⟩
/-- MEM_REFCTL (R543). -/
def MEM_REFCTL : Nat := 0x100010
def fMEM_REFCTL_TREFI_NS : Fld := ⟨31, 16⟩
def fMEM_REFCTL_TRFCPB_NS : Fld := ⟨15, 8⟩
def fMEM_REFCTL_TPBR_NS : Fld := ⟨7, 0⟩
/-- MEM_REFSTAT (R543). -/
def MEM_REFSTAT : Nat := 0x100014
def fMEM_REFSTAT_FORCED : Fld := ⟨31, 16⟩
def fMEM_REFSTAT_MAXDEBT : Fld := ⟨15, 8⟩
def fMEM_REFSTAT_OVERTEMP : Fld := ⟨7, 0⟩
/-- MEM_ECCCNT (R543). -/
def MEM_ECCCNT : Nat := 0x100018
def fMEM_ECCCNT_CORR : Fld := ⟨31, 16⟩
def fMEM_ECCCNT_UNCORR : Fld := ⟨15, 0⟩
/-- MEM_ECCLAST_LO (R543). -/
def MEM_ECCLAST_LO : Nat := 0x10001C
def fMEM_ECCLAST_LO_ADDR : Fld := ⟨31, 0⟩
/-- MEM_ECCLAST_HI (R543). -/
def MEM_ECCLAST_HI : Nat := 0x100020
def fMEM_ECCLAST_HI_S1 : Fld := ⟨31, 24⟩
def fMEM_ECCLAST_HI_S0 : Fld := ⟨23, 16⟩
def fMEM_ECCLAST_HI_ADDR : Fld := ⟨1, 0⟩
/-- MEM_SCRUB (R543). -/
def MEM_SCRUB : Nat := 0x100024
def fMEM_SCRUB_EN : Fld := ⟨31, 31⟩
def fMEM_SCRUB_SRAM_MIN : Fld := ⟨23, 16⟩
def fMEM_SCRUB_DRAM_H : Fld := ⟨15, 0⟩
/-- MEM_SCRSTAT (R543). -/
def MEM_SCRSTAT : Nat := 0x100028
def fMEM_SCRSTAT_PASSES : Fld := ⟨31, 16⟩
def fMEM_SCRSTAT_LATE : Fld := ⟨15, 8⟩
def fMEM_SCRSTAT_SRAM_LATE : Fld := ⟨7, 0⟩
/-- MEM_RTCTL (R543). -/
def MEM_RTCTL : Nat := 0x10002C
def fMEM_RTCTL_RETRAINS : Fld := ⟨31, 16⟩
def fMEM_RTCTL_THRESH_PS : Fld := ⟨7, 0⟩
/-- MEM_QSTAT (R543). -/
def MEM_QSTAT : Nat := 0x100030
def fMEM_QSTAT_HIWATERc (i : Nat) : Fld := ⟨8 * i + 4, 8 * i + 0⟩
/-- MEM_CAP (R543). -/
def MEM_CAP : Nat := 0x100034
def fMEM_CAP_USABLE_MIB : Fld := ⟨15, 0⟩
/-- CHK_Cc_CTL (R545). -/
def CHK_Cc_CTL (c : Nat) : Nat := 0x110000 + 0x40 * c
def fCHK_Cc_CTL_GO : Fld := ⟨31, 31⟩
def fCHK_Cc_CTL_ABORT : Fld := ⟨30, 30⟩
def fCHK_Cc_CTL_POLY : Fld := ⟨29, 27⟩
def fCHK_Cc_CTL_SPACE : Fld := ⟨25, 24⟩
def fCHK_Cc_CTL_CHAIN : Fld := ⟨23, 23⟩
def fCHK_Cc_CTL_EV_EN : Fld := ⟨22, 22⟩
def fCHK_Cc_CTL_FLAG : Fld := ⟨21, 17⟩
def fCHK_Cc_CTL_ENGINE : Fld := ⟨16, 13⟩
def fCHK_Cc_CTL_TSLOT : Fld := ⟨12, 7⟩
/-- CHK_Cc_ADDR_LO (R545). -/
def CHK_Cc_ADDR_LO (c : Nat) : Nat := 0x110004 + 0x40 * c
/-- CHK_Cc_ADDR_HI (R545). -/
def CHK_Cc_ADDR_HI (c : Nat) : Nat := 0x110008 + 0x40 * c
/-- CHK_Cc_LEN (R545). -/
def CHK_Cc_LEN (c : Nat) : Nat := 0x11000C + 0x40 * c
def fCHK_Cc_LEN_LEN : Fld := ⟨31, 0⟩
/-- CHK_Cc_SEED_LO (R545). -/
def CHK_Cc_SEED_LO (c : Nat) : Nat := 0x110010 + 0x40 * c
/-- CHK_Cc_SEED_HI (R545). -/
def CHK_Cc_SEED_HI (c : Nat) : Nat := 0x110014 + 0x40 * c
/-- CHK_Cc_RES_LO (R545). -/
def CHK_Cc_RES_LO (c : Nat) : Nat := 0x110018 + 0x40 * c
/-- CHK_Cc_RES_HI (R545). -/
def CHK_Cc_RES_HI (c : Nat) : Nat := 0x11001C + 0x40 * c
/-- CHK_Cc_STAT (R545). -/
def CHK_Cc_STAT (c : Nat) : Nat := 0x110020 + 0x40 * c
def fCHK_Cc_STAT_STATUS : Fld := ⟨31, 28⟩
/-- CHK_Cc_DONE (R545). -/
def CHK_Cc_DONE (c : Nat) : Nat := 0x110024 + 0x40 * c
def fCHK_Cc_DONE_BYTES : Fld := ⟨31, 0⟩
/-- NVM_STAT (R547). -/
def NVM_STAT : Nat := 0x160000
def fNVM_STAT_LOCKED : Fld := ⟨31, 31⟩
def fNVM_STAT_SETTINGS_OK : Fld := ⟨30, 30⟩
def fNVM_STAT_REG_OK : Fld := ⟨29, 29⟩
def fNVM_STAT_CKPT_NEWEST : Fld := ⟨9, 8⟩
def fNVM_STAT_SLOTS : Fld := ⟨5, 0⟩
/-- NVM_LOCKKEY (R547). -/
def NVM_LOCKKEY : Nat := 0x160004
def fNVM_LOCKKEY_KEY : Fld := ⟨31, 0⟩
/-- NVM_POOL (R547). -/
def NVM_POOL : Nat := 0x160008
def fNVM_POOL_FREE : Fld := ⟨31, 16⟩
def fNVM_POOL_USED : Fld := ⟨15, 0⟩
/-- NVM_ECCCNT (R547). -/
def NVM_ECCCNT : Nat := 0x16000C
def fNVM_ECCCNT_CORR : Fld := ⟨31, 16⟩
def fNVM_ECCCNT_UNCORR : Fld := ⟨15, 0⟩
/-- NVM_REGRECj (R547). -/
def NVM_REGRECj (j : Nat) : Nat := 0x160100 + 0x4 * j
def fNVM_REGRECj_BYTES : Fld := ⟨31, 0⟩
/-- TIM_TBk_NS (R570). -/
def TIM_TBk_NS (k : Nat) : Nat := tbBase k + 0x0
/-- TIM_TBk_S_LO (R570). -/
def TIM_TBk_S_LO (k : Nat) : Nat := tbBase k + 0x4
/-- TIM_TBk_S_HI (R570). -/
def TIM_TBk_S_HI (k : Nat) : Nat := tbBase k + 0x8
/-- TIM_TBk_FRAC (R570). -/
def TIM_TBk_FRAC (k : Nat) : Nat := tbBase k + 0xC
/-- TIM_TBk_INC_NS (R570). -/
def TIM_TBk_INC_NS (k : Nat) : Nat := tbBase k + 0x10
/-- TIM_TBk_INC_FRAC (R570). -/
def TIM_TBk_INC_FRAC (k : Nat) : Nat := tbBase k + 0x14
/-- TIM_TBk_SET_NS (R570). -/
def TIM_TBk_SET_NS (k : Nat) : Nat := tbBase k + 0x18
/-- TIM_TBk_SET_S_LO (R570). -/
def TIM_TBk_SET_S_LO (k : Nat) : Nat := tbBase k + 0x1C
/-- TIM_TBk_SET_S_HI (R570). -/
def TIM_TBk_SET_S_HI (k : Nat) : Nat := tbBase k + 0x20
/-- TIM_TBk_STEP (R570). -/
def TIM_TBk_STEP (k : Nat) : Nat := tbBase k + 0x24
/-- TIM_TBk_SLEW (R570). -/
def TIM_TBk_SLEW (k : Nat) : Nat := tbBase k + 0x28
/-- TIM_TBk_SLEWCNT (R570). -/
def TIM_TBk_SLEWCNT (k : Nat) : Nat := tbBase k + 0x2C
/-- TIM_TBk_CTL (R570). -/
def TIM_TBk_CTL (k : Nat) : Nat := tbBase k + 0x30
def fTIM_TBk_CTL_LOAD : Fld := ⟨31, 31⟩
def fTIM_TBk_CTL_LINK : Fld := ⟨30, 30⟩
/-- TIM_CTL (R570). -/
def TIM_CTL : Nat := 0x120200
def fTIM_CTL_HOST_SERVO : Fld := ⟨31, 31⟩
def fTIM_CTL_MAXSTEP_NS : Fld := ⟨11, 0⟩
/-- TIM_CAPCTL (R570). -/
def TIM_CAPCTL : Nat := 0x120204
def fTIM_CAPCTL_GO : Fld := ⟨31, 31⟩
def fTIM_CAPCTL_PIN_EN : Fld := ⟨30, 30⟩
def fTIM_CAPCTL_VALID : Fld := ⟨5, 0⟩
/-- TIM_PPSCTL (R570). -/
def TIM_PPSCTL : Nat := 0x120208
def fTIM_PPSCTL_EN : Fld := ⟨31, 31⟩
def fTIM_PPSCTL_WIDTH_MS : Fld := ⟨9, 0⟩
/-- TIM_CAPk_NS (R570). -/
def TIM_CAPk_NS (k : Nat) : Nat := 0x120210 + 0x10 * k
/-- TIM_CAPk_S_LO (R570). -/
def TIM_CAPk_S_LO (k : Nat) : Nat := 0x120214 + 0x10 * k
/-- TIM_CAPk_S_HI (R570). -/
def TIM_CAPk_S_HI (k : Nat) : Nat := 0x120218 + 0x10 * k
/-- TIM_CAPk_FRAC (R570). -/
def TIM_CAPk_FRAC (k : Nat) : Nat := 0x12021C + 0x10 * k
/-- TIM_GUYp_CTL (R570). -/
def TIM_GUYp_CTL (p : Nat) : Nat := 0x120300 + 0x20 * p
def fTIM_GUYp_CTL_EN : Fld := ⟨31, 31⟩
def fTIM_GUYp_CTL_FOLLOW : Fld := ⟨30, 30⟩
/-- TIM_GUYp_OFFSET (R570). -/
def TIM_GUYp_OFFSET (p : Nat) : Nat := 0x120304 + 0x20 * p
/-- TIM_GUYp_DELAY (R570). -/
def TIM_GUYp_DELAY (p : Nat) : Nat := 0x120308 + 0x20 * p
/-- TIM_GUYp_ASYM (R570). -/
def TIM_GUYp_ASYM (p : Nat) : Nat := 0x12030C + 0x20 * p
/-- TIM_GUYp_STAT (R570). -/
def TIM_GUYp_STAT (p : Nat) : Nat := 0x120310 + 0x20 * p
def fTIM_GUYp_STAT_LOCKED : Fld := ⟨31, 31⟩
def fTIM_GUYp_STAT_LOST : Fld := ⟨30, 30⟩
def fTIM_GUYp_STAT_FAR : Fld := ⟨29, 29⟩
def fTIM_GUYp_STAT_LATE : Fld := ⟨28, 28⟩
def fTIM_GUYp_STAT_EXCH : Fld := ⟨15, 0⟩
/-- HIF_CTL (R609). -/
def HIF_CTL : Nat := 0x130000
def fHIF_CTL_ENABLE : Fld := ⟨31, 31⟩
/-- HIF_STAT (R609). -/
def HIF_STAT : Nat := 0x130004
def fHIF_STAT_POLLING : Fld := ⟨31, 31⟩
def fHIF_STAT_SPEED : Fld := ⟨27, 24⟩
def fHIF_STAT_WIDTH : Fld := ⟨23, 20⟩
def fHIF_STAT_D3 : Fld := ⟨16, 16⟩
/-- HIF_RTAB_LO (R609). -/
def HIF_RTAB_LO : Nat := 0x130008
def fHIF_RTAB_LO_BASE : Fld := ⟨31, 12⟩
/-- HIF_RTAB_HI (R609). -/
def HIF_RTAB_HI : Nat := 0x13000C
def fHIF_RTAB_HI_BASE : Fld := ⟨31, 0⟩
/-- HIF_DBPG_LO (R609). -/
def HIF_DBPG_LO : Nat := 0x130010
def fHIF_DBPG_LO_BASE : Fld := ⟨31, 12⟩
/-- HIF_DBPG_HI (R609). -/
def HIF_DBPG_HI : Nat := 0x130014
def fHIF_DBPG_HI_BASE : Fld := ⟨31, 0⟩
/-- HIF_PROG_LO (R609). -/
def HIF_PROG_LO : Nat := 0x130018
def fHIF_PROG_LO_BASE : Fld := ⟨31, 12⟩
/-- HIF_PROG_HI (R609). -/
def HIF_PROG_HI : Nat := 0x13001C
def fHIF_PROG_HI_BASE : Fld := ⟨31, 0⟩
/-- HIF_RINGWAIT (R609). -/
def HIF_RINGWAIT : Nat := 0x130020
def fHIF_RINGWAIT_BEATS : Fld := ⟨3, 0⟩
/-- HIF_CMDQUOTA (R609). -/
def HIF_CMDQUOTA : Nat := 0x130024
def fHIF_CMDQUOTA_TOTAL : Fld := ⟨8, 0⟩
/-- HIF_DBSTAT (R609). -/
def HIF_DBSTAT : Nat := 0x130028
def fHIF_DBSTAT_READ_ERR : Fld := ⟨31, 16⟩
def fHIF_DBSTAT_LATE : Fld := ⟨15, 8⟩
def fHIF_DBSTAT_GENMISS : Fld := ⟨7, 0⟩
/-- HIF_CNT0 (R609). -/
def HIF_CNT0 : Nat := 0x13002C
def fHIF_CNT0_RX_NOBUF : Fld := ⟨31, 16⟩
def fHIF_CNT0_TX_BAD : Fld := ⟨15, 8⟩
def fHIF_CNT0_EV_LOST : Fld := ⟨7, 0⟩
/-- HIF_DIAG (R609). -/
def HIF_DIAG : Nat := 0x130030
def fHIF_DIAG_EN : Fld := ⟨31, 31⟩
def fHIF_DIAG_SPACE : Fld := ⟨9, 8⟩
def fHIF_DIAG_BASE : Fld := ⟨7, 0⟩
/-- HIF_DIAGCNT (R609). -/
def HIF_DIAGCNT : Nat := 0x130034
def fHIF_DIAGCNT_DISCARDED : Fld := ⟨31, 16⟩
def fHIF_DIAGCNT_POISONED : Fld := ⟨15, 0⟩
/-- HIF_SUBSYS (R609). -/
def HIF_SUBSYS : Nat := 0x130038
def fHIF_SUBSYS_SSID : Fld := ⟨31, 16⟩
def fHIF_SUBSYS_SSVID : Fld := ⟨15, 0⟩
/-- HIF_EVROUTEj (R609). -/
def HIF_EVROUTEj (j : Nat) : Nat := 0x130040 + 0x4 * j
def fHIF_EVROUTEj_RINGk (i : Nat) : Fld := ⟨8 * i + 7, 8 * i + 0⟩
/-- HIF_RINGSEL (R609). -/
def HIF_RINGSEL : Nat := 0x130060
def fHIF_RINGSEL_RING : Fld := ⟨7, 0⟩
/-- HIF_RINGSTAT (R609). -/
def HIF_RINGSTAT : Nat := 0x130064
def fHIF_RINGSTAT_STATE : Fld := ⟨31, 30⟩
def fHIF_RINGSTAT_GEN : Fld := ⟨15, 0⟩
/-- HIF_RINGIDX (R609). -/
def HIF_RINGIDX : Nat := 0x130068
def fHIF_RINGIDX_INDEX : Fld := ⟨31, 0⟩
/-- CHN_CTL (R657). -/
def CHN_CTL : Nat := 0x140000
def fCHN_CTL_SITE_COMMIT : Fld := ⟨31, 31⟩
/-- CHN_STAT (R657). -/
def CHN_STAT : Nat := 0x140004
def fCHN_STAT_ROLE : Fld := ⟨31, 29⟩
def fCHN_STAT_PAIR_FENCE : Fld := ⟨28, 28⟩
def fCHN_STAT_FENCE_DRV : Fld := ⟨27, 27⟩
def fCHN_STAT_PEG_FAIL : Fld := ⟨5, 5⟩
def fCHN_STAT_ADDR : Fld := ⟨4, 0⟩
/-- CHN_UID_LO (R657). -/
def CHN_UID_LO : Nat := 0x140008
def fCHN_UID_LO_UID : Fld := ⟨31, 0⟩
/-- CHN_UID_HI (R657). -/
def CHN_UID_HI : Nat := 0x14000C
def fCHN_UID_HI_UID : Fld := ⟨31, 0⟩
/-- CHN_PEGCTL (R657). -/
def CHN_PEGCTL : Nat := 0x140010
def fCHN_PEGCTL_ENUM_TO : Fld := ⟨15, 8⟩
def fCHN_PEGCTL_WANT : Fld := ⟨4, 0⟩
/-- CHN_CAMPCNT (R657). -/
def CHN_CAMPCNT : Nat := 0x140014
def fCHN_CAMPCNT_COLLISIONS : Fld := ⟨31, 16⟩
def fCHN_CAMPCNT_DROPPED : Fld := ⟨15, 8⟩
def fCHN_CAMPCNT_CRC_ERR : Fld := ⟨7, 0⟩
/-- CHN_PAIRCFG (R657). -/
def CHN_PAIRCFG : Nat := 0x140020
def fCHN_PAIRCFG_WAIT_MS : Fld := ⟨31, 16⟩
def fCHN_PAIRCFG_EN : Fld := ⟨15, 15⟩
def fCHN_PAIRCFG_FENCE_PORTS : Fld := ⟨10, 10⟩
def fCHN_PAIRCFG_ALONE_OK : Fld := ⟨9, 9⟩
def fCHN_PAIRCFG_PREFER : Fld := ⟨8, 8⟩
def fCHN_PAIRCFG_PARTNER : Fld := ⟨4, 0⟩
/-- CHN_PAIRCTL (R657). -/
def CHN_PAIRCTL : Nat := 0x140024
def fCHN_PAIRCTL_FTEST : Fld := ⟨31, 31⟩
def fCHN_PAIRCTL_SWITCH : Fld := ⟨30, 30⟩
def fCHN_PAIRCTL_UNFENCE : Fld := ⟨29, 29⟩
/-- CHN_PAIRSTAT (R657). -/
def CHN_PAIRSTAT : Nat := 0x140028
def fCHN_PAIRSTAT_INELIG : Fld := ⟨31, 24⟩
def fCHN_PAIRSTAT_ELIGIBLE : Fld := ⟨23, 23⟩
def fCHN_PAIRSTAT_FTEST_OK : Fld := ⟨22, 22⟩
def fCHN_PAIRSTAT_PARTNER_SEEN : Fld := ⟨21, 21⟩
def fCHN_PAIRSTAT_MISSING : Fld := ⟨3, 0⟩
/-- CHN_TOKCTL (R657). -/
def CHN_TOKCTL : Nat := 0x14002C
def fCHN_TOKCTL_TOKMISS : Fld := ⟨3, 0⟩
/-- CHN_TOKCNT (R657). -/
def CHN_TOKCNT : Nat := 0x140030
def fCHN_TOKCNT_MISSED : Fld := ⟨31, 16⟩
def fCHN_TOKCNT_LATE : Fld := ⟨15, 8⟩
def fCHN_TOKCNT_TAKEOVERS : Fld := ⟨7, 0⟩
/-- CHN_PNJUMP (R657). -/
def CHN_PNJUMP : Nat := 0x140034
def fCHN_PNJUMP_JUMP : Fld := ⟨31, 0⟩
/-- CHN_MIRCTL (R657). -/
def CHN_MIRCTL : Nat := 0x140038
def fCHN_MIRCTL_MODE : Fld := ⟨31, 31⟩
def fCHN_MIRCTL_LAG_BEATS : Fld := ⟨7, 0⟩
/-- CHN_MIRSTAT (R657). -/
def CHN_MIRSTAT : Nat := 0x14003C
def fCHN_MIRSTAT_UNMIRRORED : Fld := ⟨31, 16⟩
def fCHN_MIRSTAT_LAG : Fld := ⟨7, 0⟩
/-- CHN_MKEYk (R657). -/
def CHN_MKEYk (k : Nat) : Nat := 0x140040 + 0x4 * k
def fCHN_MKEYk_KEY : Fld := ⟨31, 0⟩
/-- CHN_GUYp_STAT (R657). -/
def CHN_GUYp_STAT (p : Nat) : Nat := 0x140060 + 0x8 * p
def fCHN_GUYp_STAT_UP : Fld := ⟨31, 31⟩
def fCHN_GUYp_STAT_PAIR : Fld := ⟨30, 30⟩
def fCHN_GUYp_STAT_PEER_ADDR : Fld := ⟨24, 20⟩
/-- CHN_GUYp_CNT (R657). -/
def CHN_GUYp_CNT (p : Nat) : Nat := 0x140064 + 0x8 * p
def fCHN_GUYp_CNT_RETRIES : Fld := ⟨31, 16⟩
def fCHN_GUYp_CNT_NACKS : Fld := ⟨15, 8⟩
def fCHN_GUYp_CNT_DOWNS : Fld := ⟨7, 0⟩
/-- CHN_CFGGEN (R657). -/
def CHN_CFGGEN : Nat := 0x140080
def fCHN_CFGGEN_GEN : Fld := ⟨31, 0⟩
/-- CHN_STGGEN (R657). -/
def CHN_STGGEN : Nat := 0x140084
def fCHN_STGGEN_GEN : Fld := ⟨31, 0⟩
/-- CHN_SEAL_LO (R657). -/
def CHN_SEAL_LO : Nat := 0x140088
def fCHN_SEAL_LO_SEAL : Fld := ⟨31, 0⟩
/-- CHN_SEAL_HI (R657). -/
def CHN_SEAL_HI : Nat := 0x14008C
def fCHN_SEAL_HI_SEAL : Fld := ⟨31, 0⟩
/-- CHN_CFGSTAT (R657). -/
def CHN_CFGSTAT : Nat := 0x140090
def fCHN_CFGSTAT_STAGING : Fld := ⟨31, 31⟩
def fCHN_CFGSTAT_SEAL_PENDING : Fld := ⟨30, 30⟩
def fCHN_CFGSTAT_MISMATCH : Fld := ⟨29, 29⟩
def fCHN_CFGSTAT_LATE : Fld := ⟨28, 28⟩
def fCHN_CFGSTAT_SEALGRP : Fld := ⟨7, 0⟩
/-- CHN_IMGBASE_LO (R657). -/
def CHN_IMGBASE_LO : Nat := 0x140094
def fCHN_IMGBASE_LO_BASE : Fld := ⟨31, 16⟩
/-- CHN_IMGBASE_HI (R657). -/
def CHN_IMGBASE_HI : Nat := 0x140098
def fCHN_IMGBASE_HI_BASE : Fld := ⟨31, 0⟩
/-- CHN_PEERSEL (R657). -/
def CHN_PEERSEL : Nat := 0x1400A0
def fCHN_PEERSEL_ADDR : Fld := ⟨4, 0⟩
/-- CHN_PEERGEN (R657). -/
def CHN_PEERGEN : Nat := 0x1400A4
def fCHN_PEERGEN_GEN : Fld := ⟨31, 0⟩
/-- CHN_PEERSEAL_LO (R657). -/
def CHN_PEERSEAL_LO : Nat := 0x1400A8
def fCHN_PEERSEAL_LO_SEAL : Fld := ⟨31, 0⟩
/-- CHN_PEERSEAL_HI (R657). -/
def CHN_PEERSEAL_HI : Nat := 0x1400AC
def fCHN_PEERSEAL_HI_SEAL : Fld := ⟨31, 0⟩
/-- FLT_CTL (R687). -/
def FLT_CTL : Nat := 0x150000
def fFLT_CTL_JRUN : Fld := ⟨31, 31⟩
def fFLT_CTL_STUCK_BEATS : Fld := ⟨15, 8⟩
/-- FLT_STAT (R687). -/
def FLT_STAT : Nat := 0x150004
def fFLT_STAT_FATAL : Fld := ⟨31, 31⟩
def fFLT_STAT_JRUNNING : Fld := ⟨30, 30⟩
def fFLT_STAT_LOGFILL : Fld := ⟨6, 0⟩
/-- FLT_JBASE_LO (R687). -/
def FLT_JBASE_LO : Nat := 0x150008
def fFLT_JBASE_LO_BASE : Fld := ⟨31, 26⟩
/-- FLT_JBASE_HI (R687). -/
def FLT_JBASE_HI : Nat := 0x15000C
def fFLT_JBASE_HI_BASE : Fld := ⟨31, 0⟩
/-- FLT_JPOS (R687). -/
def FLT_JPOS : Nat := 0x150010
def fFLT_JPOS_POS : Fld := ⟨21, 0⟩
/-- FLT_JSTAT (R687). -/
def FLT_JSTAT : Nat := 0x150014
def fFLT_JSTAT_RESNAPS : Fld := ⟨31, 16⟩
/-- FLT_RPLCNT (R687). -/
def FLT_RPLCNT : Nat := 0x150018
def fFLT_RPLCNT_REPLAYED : Fld := ⟨31, 16⟩
def fFLT_RPLCNT_NOREPLAY : Fld := ⟨15, 8⟩
def fFLT_RPLCNT_RESTARTS : Fld := ⟨7, 0⟩
/-- FLT_POISCNT (R687). -/
def FLT_POISCNT : Nat := 0x15001C
def fFLT_POISCNT_NOTES : Fld := ⟨31, 16⟩
def fFLT_POISCNT_BLOCK : Fld := ⟨15, 0⟩
/-- FLT_CKCTL (R687). -/
def FLT_CKCTL : Nat := 0x150020
def fFLT_CKCTL_EN : Fld := ⟨31, 31⟩
def fFLT_CKCTL_RESTORE : Fld := ⟨30, 30⟩
def fFLT_CKCTL_RX_GUARD : Fld := ⟨29, 29⟩
def fFLT_CKCTL_PN_WINDOW : Fld := ⟨21, 16⟩
def fFLT_CKCTL_PERIOD_S : Fld := ⟨15, 0⟩
/-- FLT_CKSTAT (R687). -/
def FLT_CKSTAT : Nat := 0x150024
def fFLT_CKSTAT_STATUS : Fld := ⟨31, 28⟩
def fFLT_CKSTAT_SLOT : Fld := ⟨25, 24⟩
def fFLT_CKSTAT_FAILS : Fld := ⟨7, 0⟩
/-- FLT_CKSEQ_LO (R687). -/
def FLT_CKSEQ_LO : Nat := 0x150028
def fFLT_CKSEQ_LO_CKSEQ : Fld := ⟨31, 0⟩
/-- FLT_CKSEQ_HI (R687). -/
def FLT_CKSEQ_HI : Nat := 0x15002C
def fFLT_CKSEQ_HI_CKSEQ : Fld := ⟨31, 0⟩
/-- FLT_LOGSEL (R687). -/
def FLT_LOGSEL : Nat := 0x150030
def fFLT_LOGSEL_ENTRY : Fld := ⟨5, 0⟩
/-- FLT_LOGw (R687). -/
def FLT_LOGw (w : Nat) : Nat := 0x150034 + 0x4 * w
def fFLT_LOGw_BYTES : Fld := ⟨31, 0⟩
/-- SYS_BOOTSTAT (R725). -/
def SYS_BOOTSTAT : Nat := 0x18
def fSYS_BOOTSTAT_STEP : Fld := ⟨31, 28⟩
def fSYS_BOOTSTAT_FAILCODE : Fld := ⟨27, 20⟩
def fSYS_BOOTSTAT_BOOT_FAIL : Fld := ⟨19, 19⟩
def fSYS_BOOTSTAT_IMAGE : Fld := ⟨18, 18⟩
def fSYS_BOOTSTAT_FB_BAD : Fld := ⟨17, 17⟩
def fSYS_BOOTSTAT_AUTO_BUSY : Fld := ⟨16, 16⟩
def fSYS_BOOTSTAT_AUTO_FAIL : Fld := ⟨15, 15⟩
def fSYS_BOOTSTAT_TSRC : Fld := ⟨14, 12⟩
/-- SYS_BOOTCTL (R725). -/
def SYS_BOOTCTL : Nat := 0x1C
def fSYS_BOOTCTL_TB4_SITE : Fld := ⟨31, 31⟩
def fSYS_BOOTCTL_AUTO_CANCEL : Fld := ⟨30, 30⟩
/-- SYS_BOOTTIME (R725). -/
def SYS_BOOTTIME : Nat := 0x20
def fSYS_BOOTTIME_READY_MS : Fld := ⟨31, 16⟩
def fSYS_BOOTTIME_BCN_MS : Fld := ⟨15, 0⟩
/-- SYS_TEMP (R746). -/
def SYS_TEMP : Nat := 0x24
def fSYS_TEMP_TJ_MAX : Fld := ⟨31, 16⟩
def fSYS_TEMP_CASE_EST : Fld := ⟨15, 0⟩
/-- SYS_THSTAT (R746). -/
def SYS_THSTAT : Nat := 0x28
def fSYS_THSTAT_THERM : Fld := ⟨31, 31⟩
def fSYS_THSTAT_FORCED : Fld := ⟨30, 30⟩
def fSYS_THSTAT_CASE_OVER : Fld := ⟨29, 29⟩
def fSYS_THSTAT_HOTTEST : Fld := ⟨19, 16⟩
def fSYS_THSTAT_TJ_PEAK : Fld := ⟨15, 0⟩
/-- SYS_THCTL (R746). -/
def SYS_THCTL : Nat := 0x2C
def fSYS_THCTL_JC_DROP : Fld := ⟨7, 0⟩

/-- The four registers at the end of every block (R10, R691, R692, R763). -/
def rowsTail : List RegRow :=
  [⟨0xFF00, [], 0xFF0000, 0x30FFFFFF, 0x0, 0x0, 0x0, 0xC0000000, 0x0⟩,
   ⟨0xFF04, [], 0x40000000, 0xFF0000, 0x0, 0x0, 0x0, 0x0, 0x0⟩,
   ⟨0xFF08, [], 0x0, 0xFF000000, 0x0, 0x0, 0x0, 0x0, 0x0⟩,
   ⟨0xFF0C, [], 0x0, 0x0, 0x0, 0x0, 0x0, 0x0, 0x0⟩]

/-- The registers of block SYS without its common tail. -/
def rowsSYS : List RegRow :=
  [⟨0x0, [], 0x38A8A101, 0x0, 0x0, 0x0, 0x0, 0x0, 0x0⟩,
   ⟨0x4, [], 0x0, 0x0, 0x0, 0x0, 0x0, 0x0, 0x0⟩,
   ⟨0x8, [], 0x0, 0x0, 0x0, 0x0, 0x0, 0x0, 0x0⟩,
   ⟨0xC, [], 0x0, 0x0, 0x0, 0x0, 0x88, 0x0, 0x0⟩,
   ⟨0x10, [], 0x0, 0xFFFF, 0x0, 0x0, 0x0, 0x0, 0x0⟩,
   ⟨0x14, [], 0x1B, 0x0, 0x0, 0x0, 0x0, 0x0, 0x0⟩,
   ⟨0x18, [], 0x0, 0x0, 0x0, 0x0, 0x0, 0x0, 0x0⟩,
   ⟨0x1C, [], 0x0, 0x80000000, 0x0, 0x0, 0x0, 0x40000000, 0x0⟩,
   ⟨0x20, [], 0x0, 0x0, 0x0, 0x0, 0x0, 0x0, 0x0⟩,
   ⟨0x24, [], 0x0, 0x0, 0x0, 0x0, 0x0, 0x0, 0x0⟩,
   ⟨0x28, [], 0x0, 0xFFFF, 0x0, 0x0, 0x20000000, 0x0, 0x0⟩,
   ⟨0x2C, [], 0x10, 0xFF, 0x0, 0x0, 0x0, 0x0, 0x0⟩]

/-- The registers of block ARM without its common tail. -/
def rowsARM : List RegRow :=
  [⟨0x0, [], 0x8400, 0x0, 0x0, 0x0, 0x0, 0x0, 0x0⟩,
   ⟨0x4, [], 0x0, 0x40000373, 0x0, 0x0, 0x0, 0x80000000, 0x0⟩,
   ⟨0x8, [], 0x0, 0xFFFFFFF0, 0x0, 0x0, 0x0, 0x0, 0x0⟩,
   ⟨0xC, [], 0x0, 0xFFFFFFFF, 0x0, 0x0, 0x0, 0x0, 0x0⟩,
   ⟨0x10, [], 0x0, 0xFFFFFFFF, 0x0, 0x0, 0x0, 0x0, 0x0⟩,
   ⟨0x14, [], 0x0, 0x0, 0x0, 0x0, 0x0, 0x0, 0x0⟩,
   ⟨0x18, [], 0x0, 0xFFFFFFFF, 0x0, 0x0, 0x0, 0x0, 0x0⟩,
   ⟨0x1C, [], 0x0, 0x3FFF, 0x0, 0x0, 0x0, 0x0, 0x0⟩,
   ⟨0x20, [], 0x0, 0x0, 0x0, 0x0, 0x0, 0xC0000000, 0x0⟩,
   ⟨0x24, [], 0x2, 0x3, 0x0, 0x0, 0x0, 0x80000000, 0x0⟩,
   ⟨0x28, [], 0x20403214, 0xE07FFFFF, 0x0, 0x0, 0x0, 0x0, 0x0⟩,
   ⟨0x2C, [], 0x0, 0x0, 0x0, 0x0, 0x4000, 0x0, 0x0⟩,
   ⟨0x30, [], 0x13, 0x1F, 0x0, 0x0, 0x0, 0x0, 0x0⟩,
   ⟨0x34, [], 0x0, 0xFFFF0000, 0x0, 0x0, 0x0, 0x0, 0x0⟩,
   ⟨0x38, [], 0x0, 0x0, 0x0, 0x0, 0x0, 0x0, 0x0⟩,
   ⟨0x3C, [], 0x0, 0x0, 0x0, 0x0, 0x0, 0x0, 0x0⟩,
   ⟨0x40, [], 0x8D8601, 0xFFFF01, 0x0, 0x0, 0x0, 0x2, 0x0⟩,
   ⟨0x44, [], 0xFF, 0x0, 0x0, 0x0, 0x0, 0x0, 0x0⟩,
   ⟨0x48, [], 0x1, 0x80000003, 0x0, 0x0, 0x0, 0x0, 0x0⟩,
   ⟨0x4C, [], 0x103, 0x0, 0x0, 0x0, 0x0, 0x0, 0x0⟩,
   ⟨0x50, [], 0x0, 0x0, 0x0, 0x0, 0x0, 0x0, 0x0⟩,
   ⟨0x54, [], 0x0, 0x0, 0x0, 0x0, 0x0, 0x0, 0x0⟩,
   ⟨0x58, [], 0x0, 0x0, 0x0, 0x0, 0x0, 0x0, 0x0⟩,
   ⟨0x5C, [], 0x0, 0x0, 0x0, 0x0, 0x0, 0x0, 0xFFFFFFFF⟩,
   ⟨0x60, [], 0x0, 0x0, 0x0, 0x0, 0x0, 0x0, 0x0⟩] ++
  [⟨0x64, [], 0x0, 0x0, 0x0, 0x0, 0x0, 0x0, 0x0⟩,
   ⟨0x68, [], 0x0, 0x0, 0x0, 0x0, 0x0, 0x0, 0x0⟩,
   ⟨0x6C, [], 0x0, 0x0, 0x0, 0x0, 0x0, 0x0, 0x0⟩,
   ⟨0x100, [(0x4, 24)], 0xFFFF, 0x0, 0x0, 0x0, 0x0, 0x0, 0x0⟩]

/-- The registers of block ENG without its common tail. -/
def rowsENG : List RegRow :=
  [⟨0x0, [(0x40, 16)], 0x10, 0x1, 0x0, 0x130, 0x0, 0x0, 0x0⟩,
   ⟨0x4, [(0x40, 16)], 0x0, 0x0, 0x0, 0x0, 0x0, 0x0, 0x0⟩,
   ⟨0x8, [(0x40, 16)], 0x0, 0x0, 0x0, 0x0, 0x0, 0x0, 0x0⟩,
   ⟨0xC, [(0x40, 16)], 0x0, 0x0, 0x0, 0x0, 0x0, 0x0, 0x0⟩,
   ⟨0x10, [(0x40, 16)], 0x0, 0xFFFFFFFF, 0x0, 0x0, 0x0, 0x0, 0x0⟩,
   ⟨0x800, [], 0x0, 0x0, 0x0, 0xFF000000, 0x0, 0x0, 0x0⟩,
   ⟨0x804, [], 0x0, 0x0, 0x0, 0xFFFFFFFF, 0x0, 0x0, 0x0⟩,
   ⟨0x808, [], 0x0, 0x0, 0x0, 0xFFF, 0x0, 0x0, 0x0⟩,
   ⟨0x1000, [], 0x0, 0x1, 0x0, 0x0, 0x0, 0x0, 0x0⟩,
   ⟨0x1004, [], 0x0, 0x0, 0x0, 0x0, 0x0, 0x0, 0x0⟩,
   ⟨0x1008, [], 0x0, 0x0, 0x0, 0x0, 0x0, 0x0, 0x0⟩]

/-- The registers of block DSP without its common tail. -/
def rowsDSP : List RegRow :=
  [⟨0x0, [(0x20, 16)], 0x0, 0x0, 0x0, 0x0, 0x0, 0x0, 0x0⟩,
   ⟨0x4, [(0x20, 16)], 0x0, 0x0, 0x0, 0x0, 0x0, 0x0, 0x0⟩,
   ⟨0x8, [(0x20, 16)], 0x0, 0x0, 0x0, 0x0, 0x0, 0x0, 0x0⟩,
   ⟨0xC, [(0x20, 16)], 0x0, 0xFFFF03E0, 0x0, 0x0, 0x0, 0x0, 0x0⟩,
   ⟨0x10, [(0x20, 16)], 0x0, 0xFFFF0000, 0x0, 0x0, 0x0, 0x0, 0x0⟩,
   ⟨0x14, [(0x20, 16)], 0x0, 0x3F, 0x0, 0x0, 0x0, 0x0, 0x0⟩,
   ⟨0x18, [(0x20, 16)], 0x0, 0x0, 0x0, 0x0, 0x0, 0x0, 0x0⟩,
   ⟨0x1C, [(0x20, 16)], 0x0, 0x0, 0x0, 0x0, 0x0, 0x0, 0x0⟩,
   ⟨0x400, [], 0x0, 0x0, 0x0, 0x0, 0x0, 0x0, 0x7FFF⟩]

/-- The registers of block FQ without its common tail. -/
def rowsFQ : List RegRow :=
  [⟨0x0, [(0x20, 256)], 0xFFFF01, 0x0, 0x0, 0x80FFFF7F, 0x0, 0x0, 0x0⟩,
   ⟨0x4, [(0x20, 256)], 0x0, 0x0, 0x0, 0x3FF03FF, 0x0, 0x0, 0x0⟩,
   ⟨0x8, [(0x20, 256)], 0x0, 0x0, 0x0, 0x80007FFF, 0x0, 0x0, 0x0⟩,
   ⟨0xC, [(0x20, 256)], 0x0, 0x0, 0x0, 0x83FF7FFF, 0x0, 0x0, 0x0⟩,
   ⟨0x10, [(0x20, 256)], 0x0, 0x0, 0x0, 0x0, 0x0, 0x0, 0x0⟩,
   ⟨0x14, [(0x20, 256)], 0x0, 0xFFFFFFFF, 0x0, 0x0, 0x0, 0x0, 0x0⟩,
   ⟨0x18, [(0x20, 256)], 0x0, 0x0, 0x0, 0x0, 0x0, 0x0, 0x3⟩,
   ⟨0x2000, [], 0x300, 0x0, 0x0, 0x0, 0x0, 0x0, 0x0⟩]

/-- The registers of block RFL without its common tail. -/
def rowsRFL : List RegRow :=
  [⟨0x0, [], 0xA0004, 0xFF0007, 0x0, 0x0, 0x0, 0x0, 0x0⟩,
   ⟨0x4, [], 0x0, 0x0, 0x0, 0x0, 0x0, 0x0, 0x0⟩,
   ⟨0x8, [], 0x6, 0x0, 0x0, 0xFFF, 0x0, 0x0, 0x0⟩,
   ⟨0xC, [], 0x0, 0xFFFFFFFF, 0x0, 0x0, 0x0, 0x0, 0x0⟩,
   ⟨0x10, [], 0x0, 0x3FFF, 0x0, 0x0, 0x0, 0x0, 0x0⟩,
   ⟨0x14, [], 0xF, 0xF, 0x0, 0x0, 0x0, 0x0, 0x0⟩,
   ⟨0x18, [], 0x0, 0x0, 0x0, 0x0, 0x0, 0x0, 0x0⟩,
   ⟨0x1C, [], 0x0, 0x0, 0x0, 0x0, 0xF, 0x0, 0x0⟩,
   ⟨0x20, [(0x4, 8)], 0xFFFF0000, 0x0, 0x0, 0x0, 0x0, 0x0, 0x0⟩,
   ⟨0x40, [], 0x0, 0xFFFFFFFF, 0x0, 0x0, 0x0, 0x0, 0x0⟩,
   ⟨0x44, [], 0x0, 0x0, 0x0, 0x0, 0x0, 0x0, 0x0⟩,
   ⟨0x48, [], 0x0, 0xF, 0x0, 0x0, 0x0, 0x0, 0x0⟩,
   ⟨0x4C, [], 0x0, 0x0, 0x0, 0x0, 0x0, 0x0, 0x0⟩]

/-- The registers of block RFM without its common tail. -/
def rowsRFM : List RegRow :=
  [⟨0x0, [], 0xA0004, 0xFF0007, 0x0, 0x0, 0x0, 0x0, 0x0⟩,
   ⟨0x4, [], 0x0, 0x0, 0x0, 0x0, 0x0, 0x0, 0x0⟩,
   ⟨0x8, [], 0x224, 0x0, 0x0, 0xFFF, 0x0, 0x0, 0x0⟩,
   ⟨0xC, [], 0x0, 0xFFFFFFFF, 0x0, 0x0, 0x0, 0x0, 0x0⟩,
   ⟨0x10, [], 0x0, 0x3FFF, 0x0, 0x0, 0x0, 0x0, 0x0⟩,
   ⟨0x14, [], 0xFF, 0xFF, 0x0, 0x0, 0x0, 0x0, 0x0⟩,
   ⟨0x18, [], 0x0, 0x0, 0x0, 0x0, 0x0, 0x0, 0x0⟩,
   ⟨0x1C, [], 0x0, 0x0, 0x0, 0x0, 0xFF, 0x0, 0x0⟩,
   ⟨0x20, [(0x4, 8)], 0xFFFF0000, 0x0, 0x0, 0x0, 0x0, 0x0, 0x0⟩,
   ⟨0x40, [], 0x0, 0xFFFFFFFF, 0x0, 0x0, 0x0, 0x0, 0x0⟩,
   ⟨0x44, [], 0x0, 0x0, 0x0, 0x0, 0x0, 0x0, 0x0⟩,
   ⟨0x48, [], 0x0, 0xF, 0x0, 0x0, 0x0, 0x0, 0x0⟩,
   ⟨0x4C, [], 0x0, 0x0, 0x0, 0x0, 0x0, 0x0, 0x0⟩]

/-- The registers of block RFH without its common tail. -/
def rowsRFH : List RegRow :=
  [⟨0x0, [], 0xA0004, 0xFF0007, 0x0, 0x0, 0x0, 0x0, 0x0⟩,
   ⟨0x4, [], 0x0, 0x0, 0x0, 0x0, 0x0, 0x0, 0x0⟩,
   ⟨0x8, [], 0x325, 0x0, 0x0, 0xFFF, 0x0, 0x0, 0x0⟩,
   ⟨0xC, [], 0x0, 0xFFFFFFFF, 0x0, 0x0, 0x0, 0x0, 0x0⟩,
   ⟨0x10, [], 0x0, 0x3FFF, 0x0, 0x0, 0x0, 0x0, 0x0⟩,
   ⟨0x14, [], 0xFFFF, 0xFFFF, 0x0, 0x0, 0x0, 0x0, 0x0⟩,
   ⟨0x18, [], 0x0, 0x0, 0x0, 0x0, 0x0, 0x0, 0x0⟩,
   ⟨0x1C, [], 0x0, 0x0, 0x0, 0x0, 0xFFFF, 0x0, 0x0⟩,
   ⟨0x20, [(0x4, 8)], 0xFFFF0000, 0x0, 0x0, 0x0, 0x0, 0x0, 0x0⟩,
   ⟨0x40, [], 0x0, 0xFFFFFFFF, 0x0, 0x0, 0x0, 0x0, 0x0⟩,
   ⟨0x44, [], 0x0, 0x0, 0x0, 0x0, 0x0, 0x0, 0x0⟩,
   ⟨0x48, [], 0x0, 0xF, 0x0, 0x0, 0x0, 0x0, 0x0⟩,
   ⟨0x4C, [], 0x0, 0x0, 0x0, 0x0, 0x0, 0x0, 0x0⟩]

/-- The registers of block BBL without its common tail. -/
def rowsBBL : List RegRow :=
  [⟨0x0, [], 0xA0010, 0xFF0030, 0x0, 0x0, 0x0, 0x0, 0x0⟩,
   ⟨0x4, [], 0xC2AE, 0xFFFF, 0x0, 0x0, 0x0, 0x0, 0x0⟩,
   ⟨0x8, [], 0x0, 0x0, 0x0, 0xFFFF, 0x0, 0x0, 0x0⟩,
   ⟨0xC, [], 0x0, 0x0, 0x0, 0x0, 0x0, 0x0, 0x0⟩,
   ⟨0x10, [], 0x0, 0xFFFFFFFF, 0x0, 0x0, 0x0, 0x0, 0x0⟩,
   ⟨0x14, [], 0x0, 0xFFFFFFFF, 0x0, 0x0, 0x0, 0x0, 0x0⟩,
   ⟨0x18, [], 0x0, 0xFFFFFFFF, 0x0, 0x0, 0x0, 0x0, 0x0⟩,
   ⟨0x1C, [], 0x0, 0xFFFFFFFF, 0x0, 0x0, 0x0, 0x0, 0x0⟩,
   ⟨0x20, [], 0x0, 0x0, 0x0, 0x0, 0x0, 0x0, 0x0⟩,
   ⟨0x24, [], 0x0, 0x0, 0x0, 0x0, 0x0, 0x0, 0x0⟩,
   ⟨0x28, [], 0x640000, 0xFFFF0000, 0x0, 0x0, 0x0, 0x0, 0x0⟩,
   ⟨0x2C, [], 0x0, 0x0, 0x0, 0x0, 0x0, 0x0, 0x0⟩,
   ⟨0x30, [(0x4, 8)], 0x0, 0x0, 0x0, 0x0, 0x0, 0x0, 0x0⟩,
   ⟨0x80, [(0x4, 16)], 0x80, 0x0, 0x0, 0x0, 0x0, 0x0, 0x0⟩]

/-- The registers of block BBM without its common tail. -/
def rowsBBM : List RegRow :=
  [⟨0x0, [], 0xA0013, 0xFF0033, 0x0, 0x0, 0x0, 0x0, 0x0⟩,
   ⟨0x4, [], 0xC2AE, 0xFFFF, 0x0, 0x0, 0x0, 0x0, 0x0⟩,
   ⟨0x8, [], 0x0, 0x0, 0x0, 0xFFFF, 0x0, 0x0, 0x0⟩,
   ⟨0xC, [], 0x0, 0x0, 0x0, 0x0, 0x0, 0x0, 0x0⟩,
   ⟨0x10, [], 0x0, 0xFFFFFFFF, 0x0, 0x0, 0x0, 0x0, 0x0⟩,
   ⟨0x14, [], 0x0, 0xFFFFFFFF, 0x0, 0x0, 0x0, 0x0, 0x0⟩,
   ⟨0x18, [], 0x0, 0xFFFFFFFF, 0x0, 0x0, 0x0, 0x0, 0x0⟩,
   ⟨0x1C, [], 0x0, 0xFFFFFFFF, 0x0, 0x0, 0x0, 0x0, 0x0⟩,
   ⟨0x20, [], 0x0, 0x0, 0x0, 0x0, 0x0, 0x0, 0x0⟩,
   ⟨0x24, [], 0x2804, 0xFF0F, 0x0, 0x0, 0x0, 0x0, 0x0⟩,
   ⟨0x28, [], 0x640000, 0xFFFF0000, 0x0, 0x0, 0x0, 0x0, 0x0⟩,
   ⟨0x2C, [], 0x0, 0x0, 0x0, 0x0, 0x0, 0x0, 0x0⟩,
   ⟨0x30, [(0x4, 8)], 0x0, 0x0, 0x0, 0x0, 0x0, 0x0, 0x0⟩,
   ⟨0x80, [(0x4, 16)], 0x80, 0x0, 0x0, 0x0, 0x0, 0x0, 0x0⟩]

/-- The registers of block BBH without its common tail. -/
def rowsBBH : List RegRow :=
  [⟨0x0, [], 0xA0013, 0xFF0033, 0x0, 0x0, 0x0, 0x0, 0x0⟩,
   ⟨0x4, [], 0xC2AE, 0xFFFF, 0x0, 0x0, 0x0, 0x0, 0x0⟩,
   ⟨0x8, [], 0x0, 0x0, 0x0, 0xFFFF, 0x0, 0x0, 0x0⟩,
   ⟨0xC, [], 0x0, 0x0, 0x0, 0x0, 0x0, 0x0, 0x0⟩,
   ⟨0x10, [], 0x0, 0xFFFFFFFF, 0x0, 0x0, 0x0, 0x0, 0x0⟩,
   ⟨0x14, [], 0x0, 0xFFFFFFFF, 0x0, 0x0, 0x0, 0x0, 0x0⟩,
   ⟨0x18, [], 0x0, 0xFFFFFFFF, 0x0, 0x0, 0x0, 0x0, 0x0⟩,
   ⟨0x1C, [], 0x0, 0xFFFFFFFF, 0x0, 0x0, 0x0, 0x0, 0x0⟩,
   ⟨0x20, [], 0x0, 0x0, 0x0, 0x0, 0x0, 0x0, 0x0⟩,
   ⟨0x24, [], 0x2804, 0xFF0F, 0x0, 0x0, 0x0, 0x0, 0x0⟩,
   ⟨0x28, [], 0x640000, 0xFFFF0000, 0x0, 0x0, 0x0, 0x0, 0x0⟩,
   ⟨0x2C, [], 0x0, 0x0, 0x0, 0x0, 0x0, 0x0, 0x0⟩,
   ⟨0x30, [(0x4, 8)], 0x0, 0x0, 0x0, 0x0, 0x0, 0x0, 0x0⟩,
   ⟨0x80, [(0x4, 16)], 0x80, 0x0, 0x0, 0x0, 0x0, 0x0, 0x0⟩]

/-- The registers of block WMAC without its common tail. -/
def rowsWMAC : List RegRow :=
  [⟨0x0, [], 0x7000, 0x8000F001, 0x0, 0x0, 0x0, 0x0, 0x0⟩,
   ⟨0x4, [], 0x0, 0x0, 0x0, 0x0, 0x0, 0x0, 0x0⟩,
   ⟨0x10, [], 0xA0900, 0x0, 0x0, 0x1, 0x0, 0x0, 0x0⟩,
   ⟨0x20, [(0x10, 2)], 0x100900, 0x0, 0x0, 0x1, 0x0, 0x0, 0x0⟩,
   ⟨0x14, [(0x10, 3)], 0x0, 0xFFFFFFFF, 0x0, 0x0, 0x0, 0x0, 0x0⟩,
   ⟨0x18, [(0x10, 3)], 0x0, 0x0, 0x0, 0x0, 0x0, 0x0, 0x0⟩,
   ⟨0x1C, [(0x10, 3)], 0x0, 0xFFFF0000, 0x0, 0x0, 0x0, 0x0, 0x0⟩,
   ⟨0x40, [], 0x80000000, 0x80000000, 0x0, 0x0, 0x0, 0x0, 0x0⟩,
   ⟨0x44, [], 0x2710, 0xFFFF, 0x0, 0x0, 0x0, 0x0, 0x0⟩,
   ⟨0x48, [], 0x100000, 0x0, 0x0, 0xFF0000, 0x0, 0x0, 0x0⟩,
   ⟨0x4C, [], 0x0, 0xFFFFFFFF, 0x0, 0x0, 0x0, 0x0, 0x0⟩,
   ⟨0x50, [], 0x0, 0xFFFFFFFF, 0x0, 0x0, 0x0, 0x0, 0x0⟩,
   ⟨0x54, [], 0x0, 0xFFFF0000, 0x0, 0x0, 0x0, 0x0, 0x0⟩,
   ⟨0x58, [], 0x0, 0x0, 0x0, 0x0, 0x0, 0x0, 0x0⟩,
   ⟨0x100, [(0x10, 48)], 0x1, 0x0, 0x0, 0xC00000FF, 0x0, 0x0, 0x0⟩,
   ⟨0x104, [(0x10, 48)], 0x0, 0x0, 0x0, 0xFFFFFFFF, 0x0, 0x0, 0x0⟩,
   ⟨0x108, [(0x10, 48)], 0x0, 0x0, 0x0, 0xFFFF, 0x0, 0x0, 0x0⟩,
   ⟨0x10C, [(0x10, 48)], 0x0, 0x0, 0x0, 0x80000F0F, 0x0, 0x0, 0x0⟩,
   ⟨0x400, [(0x8, 16)], 0x0, 0x0, 0x0, 0xFFFFFFFF, 0x0, 0x0, 0x0⟩,
   ⟨0x404, [(0x8, 16)], 0x0, 0x0, 0x0, 0xFFFF, 0x0, 0x0, 0x0⟩]

/-- The registers of block ASCH without its common tail. -/
def rowsASCH : List RegRow :=
  [⟨0x0, [], 0x2, 0x80000003, 0x0, 0x0, 0x0, 0x0, 0x0⟩,
   ⟨0x4, [], 0x0, 0x0, 0x0, 0x0, 0x0, 0x0, 0x0⟩,
   ⟨0x8, [], 0x0, 0x13F, 0x0, 0x0, 0x0, 0x0, 0x0⟩,
   ⟨0xC, [], 0x0, 0x0, 0x0, 0x0, 0x0, 0xC0000000, 0x0⟩,
   ⟨0x10, [], 0x0, 0xFFFF, 0x0, 0x0, 0x0, 0x0, 0x0⟩,
   ⟨0x20, [(0x4, 8)], 0x0, 0x8700FFFF, 0x0, 0x0, 0x0, 0x0, 0x0⟩,
   ⟨0x40, [], 0x2A2A2A2A, 0xFFFFFFFF, 0x0, 0x0, 0x0, 0x0, 0x0⟩,
   ⟨0x44, [], 0x2A2A2A2A, 0xFFFFFFFF, 0x0, 0x0, 0x0, 0x0, 0x0⟩,
   ⟨0x50, [], 0x0, 0xFFFFFFFF, 0x0, 0x0, 0x0, 0x0, 0x0⟩,
   ⟨0x54, [], 0x0, 0xFFFFFFFF, 0x0, 0x0, 0x0, 0x0, 0x0⟩,
   ⟨0x58, [], 0x0, 0xFFFFFFFF, 0x0, 0x0, 0x0, 0x0, 0x0⟩,
   ⟨0x60, [], 0x0, 0x0, 0x0, 0x0, 0x0, 0x0, 0x0⟩,
   ⟨0x64, [], 0x0, 0x0, 0x0, 0x0, 0x0, 0x0, 0x0⟩,
   ⟨0x70, [], 0x0, 0x0, 0x0, 0xFFFFFFF0, 0x0, 0x0, 0x0⟩,
   ⟨0x74, [], 0x0, 0x0, 0x0, 0xFFFFFFFF, 0x0, 0x0, 0x0⟩,
   ⟨0x78, [], 0x0, 0x0, 0x0, 0xF, 0x0, 0x0, 0x0⟩,
   ⟨0x7C, [], 0x0, 0x0, 0x0, 0x7FFF7FFF, 0x0, 0x0, 0x0⟩,
   ⟨0x80, [], 0x0, 0x0, 0x0, 0x0, 0x0, 0x0, 0x0⟩,
   ⟨0x84, [], 0x0, 0x0, 0x0, 0x0, 0x0, 0x0, 0x0⟩,
   ⟨0x88, [], 0x0, 0xFFFF0000, 0x0, 0x0, 0x0, 0x0, 0x0⟩,
   ⟨0x8C, [], 0x0, 0x0, 0x0, 0xFFFFFF, 0x0, 0x0, 0x0⟩,
   ⟨0x90, [(0x10, 2)], 0x0, 0x0, 0x0, 0xFFFFF000, 0x0, 0x0, 0x0⟩,
   ⟨0x94, [(0x10, 2)], 0x0, 0x0, 0x0, 0xFFFFFFFF, 0x0, 0x0, 0x0⟩,
   ⟨0x98, [(0x10, 2)], 0x0, 0x0, 0x0, 0x1FFFFF, 0x0, 0x0, 0x0⟩,
   ⟨0x9C, [(0x10, 2)], 0x0, 0xFF000000, 0x0, 0x0, 0x0, 0x0, 0x0⟩]

/-- The registers of block MSH without its common tail. -/
def rowsMSH : List RegRow :=
  [⟨0x0, [], 0x4, 0x7, 0x0, 0x0, 0x0, 0x0, 0x0⟩,
   ⟨0x4, [], 0x0, 0x0, 0x0, 0x0, 0x0, 0x0, 0x0⟩,
   ⟨0x8, [(0x4, 4)], 0x5111002, 0x87337F07, 0x0, 0x0, 0x0, 0x0, 0x0⟩,
   ⟨0x18, [], 0x6A3DC519, 0xFFFFFFFF, 0x0, 0x0, 0x0, 0x0, 0x0⟩,
   ⟨0x1C, [], 0x2D4, 0xFFF, 0x0, 0x0, 0x0, 0x0, 0x0⟩,
   ⟨0x20, [], 0x14, 0xFF, 0x0, 0x0, 0x0, 0x0, 0x0⟩,
   ⟨0x24, [], 0x0, 0x0, 0xC0FFFF00, 0x0, 0x0, 0x0, 0x0⟩,
   ⟨0x28, [], 0xFF60FFA, 0x0, 0xFFF0FFF, 0x0, 0x0, 0x0, 0x0⟩,
   ⟨0x2C, [], 0xC0FF8, 0x0, 0xFFF0FFF, 0x0, 0x0, 0x0, 0x0⟩,
   ⟨0x30, [], 0x94003E, 0x0, 0xFFF0FFF, 0x0, 0x0, 0x0, 0x0⟩,
   ⟨0x34, [], 0x23E00FC, 0x0, 0xFFF0FFF, 0x0, 0x0, 0x0, 0x0⟩,
   ⟨0x38, [], 0x60010, 0xFF0010, 0x0, 0x0, 0x0, 0x0, 0x0⟩,
   ⟨0x3C, [], 0x0, 0xFFFFFFFF, 0x0, 0x0, 0x0, 0x0, 0x0⟩,
   ⟨0x40, [], 0x0, 0xFFFFFFFF, 0x0, 0x0, 0x0, 0x0, 0x0⟩,
   ⟨0x44, [], 0x0, 0xFFFFFFFF, 0x0, 0x0, 0x0, 0x0, 0x0⟩,
   ⟨0x48, [], 0x0, 0x0, 0x0, 0x0, 0x0, 0x0, 0x0⟩,
   ⟨0x4C, [], 0x0, 0x0, 0x0, 0x0, 0x0, 0x0, 0x0⟩,
   ⟨0x50, [], 0xA0000, 0x7FF0000, 0x0, 0x0, 0x0, 0x80000000, 0x0⟩,
   ⟨0x54, [], 0x0, 0xFFFFFFFF, 0x0, 0x0, 0x0, 0x0, 0x0⟩,
   ⟨0x60, [(0x4, 4)], 0x0, 0x0, 0x0, 0x0, 0x0, 0x0, 0x0⟩,
   ⟨0x70, [], 0x30D0001, 0x8FFF0003, 0x0, 0x0, 0x0, 0x0, 0x0⟩,
   ⟨0x74, [], 0x0, 0xFFFF, 0x0, 0x0, 0x0, 0x0, 0x0⟩,
   ⟨0x78, [], 0x0, 0xFFFFFFFF, 0x0, 0x0, 0x0, 0x0, 0x0⟩,
   ⟨0x100, [], 0x40000300, 0xC0000F00, 0x0, 0x0, 0x0, 0x0, 0x0⟩,
   ⟨0x104, [], 0x0, 0x0, 0x0, 0x0, 0x0, 0x0, 0x0⟩] ++
  [⟨0x108, [], 0x0, 0x0, 0x0, 0x0, 0x0, 0x0, 0x0⟩,
   ⟨0x10C, [], 0xC81400, 0xFFFFFF00, 0x0, 0x0, 0x0, 0x0, 0x0⟩,
   ⟨0x110, [], 0x64000040, 0xFFFFFFFF, 0x0, 0x0, 0x0, 0x0, 0x0⟩,
   ⟨0x114, [], 0x4000, 0xFF00, 0x0, 0x0, 0x0, 0x0, 0x0⟩,
   ⟨0x118, [], 0x0, 0x0, 0xFFFFFFFF, 0x0, 0x0, 0x0, 0x0⟩,
   ⟨0x11C, [], 0x0, 0x0, 0x0, 0x0, 0x0, 0x0, 0x0⟩,
   ⟨0x120, [], 0x0, 0x7F, 0x0, 0x0, 0x0, 0x0, 0x0⟩,
   ⟨0x124, [], 0x0, 0x0, 0x0, 0x0, 0x0, 0x0, 0x0⟩,
   ⟨0x128, [], 0x0, 0x0, 0x0, 0x0, 0x0, 0x0, 0x0⟩,
   ⟨0x12C, [], 0x0, 0x0, 0x0, 0x0, 0x0, 0x0, 0x0⟩,
   ⟨0x130, [], 0x0, 0xFFFFFFFF, 0x0, 0x0, 0x0, 0x0, 0x0⟩,
   ⟨0x134, [], 0x0, 0xFFFFFFFF, 0x0, 0x0, 0x0, 0x0, 0x0⟩,
   ⟨0x138, [], 0x0, 0xFFFFFFFF, 0x0, 0x0, 0x0, 0x0, 0x0⟩,
   ⟨0x13C, [], 0x0, 0x0, 0x0, 0x0, 0x0, 0x0, 0x0⟩,
   ⟨0x200, [], 0x0, 0x0, 0x0, 0x0, 0x0, 0x0, 0x0⟩,
   ⟨0x204, [], 0x0, 0x0, 0x0, 0x0, 0x0, 0x0, 0x0⟩,
   ⟨0x208, [], 0x0, 0x0, 0x0, 0x0, 0x0, 0x0, 0x0⟩,
   ⟨0x20C, [], 0x0, 0x0, 0x0, 0x0, 0x0, 0x0, 0x0⟩,
   ⟨0x210, [], 0x1F, 0xFF, 0x0, 0x0, 0x0, 0x0, 0x0⟩,
   ⟨0x214, [], 0x40000000, 0xFFFFFFFF, 0x0, 0x0, 0x0, 0x0, 0x0⟩,
   ⟨0x218, [], 0x0, 0xFFFFFFFF, 0x0, 0x0, 0x0, 0x0, 0x0⟩,
   ⟨0x21C, [], 0x0, 0xFFFFFFFF, 0x0, 0x0, 0x0, 0x0, 0x0⟩,
   ⟨0x220, [], 0x0, 0xFFFFFFFF, 0x0, 0x0, 0x0, 0x0, 0x0⟩,
   ⟨0x224, [], 0x0, 0xFFFFFFFF, 0x0, 0x0, 0x0, 0x0, 0x0⟩,
   ⟨0x228, [], 0x0, 0xFFFFFFFF, 0x0, 0x0, 0x0, 0x0, 0x0⟩] ++
  [⟨0x22C, [], 0x0, 0xFFFFFFFF, 0x0, 0x0, 0x0, 0x0, 0x0⟩,
   ⟨0x230, [], 0x0, 0x40000000, 0x0, 0x0, 0x0, 0x80000000, 0x0⟩]

/-- The registers of block UPL without its common tail. -/
def rowsUPL : List RegRow :=
  [⟨0x0, [(0x100, 5)], 0x25800010, 0x0, 0x0, 0x3FFF0037, 0x0, 0x0, 0x0⟩,
   ⟨0x4, [(0x100, 5)], 0x0, 0x0, 0x0, 0x0, 0x0, 0x0, 0x0⟩,
   ⟨0x8, [(0x100, 5)], 0x3000, 0x0, 0x0, 0x7FFF, 0x0, 0x0, 0x0⟩,
   ⟨0xC, [(0x100, 5)], 0x100404, 0x7, 0x0, 0xFFFF00, 0x0, 0x0, 0x0⟩,
   ⟨0x10, [(0x100, 5)], 0xFFFF, 0xFFFF, 0x0, 0x0, 0x0, 0x0, 0x0⟩,
   ⟨0x14, [(0x100, 5)], 0x64000A, 0xFFFFFFFF, 0x0, 0x0, 0x0, 0x0, 0x0⟩,
   ⟨0x18, [(0x100, 5)], 0x20000001, 0x600001FF, 0x0, 0x0, 0x0, 0x80000000, 0x0⟩,
   ⟨0x1C, [(0x100, 5)], 0xF4240, 0x3FFFFFFF, 0x0, 0x0, 0x0, 0x0, 0x0⟩,
   ⟨0x20, [(0x100, 5)], 0x0, 0xFFFFFFFF, 0x0, 0x0, 0x0, 0x0, 0x0⟩,
   ⟨0x24, [(0x100, 5)], 0x0, 0xFFFFFFFF, 0x0, 0x0, 0x0, 0x0, 0x0⟩,
   ⟨0x28, [(0x100, 5)], 0x0, 0xFFFFFFFF, 0x0, 0x0, 0x0, 0x0, 0x0⟩,
   ⟨0x2C, [(0x100, 5)], 0x0, 0x0, 0x0, 0x0, 0x0, 0x0, 0x0⟩,
   ⟨0x30, [(0x100, 5)], 0x0, 0x0, 0x0, 0x0, 0x0, 0x0, 0x0⟩,
   ⟨0x34, [(0x100, 5)], 0x0, 0x0, 0x0, 0x0, 0x0, 0x0, 0x0⟩,
   ⟨0x38, [(0x100, 5)], 0x64, 0x8000FFFF, 0x0, 0x0, 0x0, 0x0, 0x0⟩,
   ⟨0x3C, [(0x100, 5)], 0x0, 0xFFFFFFFF, 0x0, 0x0, 0x0, 0x0, 0x0⟩,
   ⟨0x40, [(0x100, 5)], 0x0, 0x0, 0x0, 0x0, 0x0, 0x0, 0x0⟩,
   ⟨0x44, [(0x100, 5)], 0x0, 0x0, 0x0, 0x0, 0x0, 0x0, 0x0⟩,
   ⟨0x48, [(0x100, 5)], 0x0, 0x0, 0x0, 0x0, 0x0, 0x0, 0x0⟩,
   ⟨0x4C, [(0x100, 5)], 0x0, 0xFFFFFFFF, 0x0, 0x0, 0x0, 0x0, 0x0⟩,
   ⟨0x50, [(0x100, 5)], 0x0, 0xFFFFFFFF, 0x0, 0x0, 0x0, 0x0, 0x0⟩,
   ⟨0x80, [(0x100, 5), (0x8, 8)], 0x0, 0x80FFFFFF, 0x0, 0x0, 0x0, 0x0, 0x0⟩,
   ⟨0x84, [(0x100, 5), (0x8, 8)], 0x6000600, 0xFFFFFFFF, 0x0, 0x0, 0x0, 0x0, 0x0⟩,
   ⟨0x4000, [(0x800, 5), (0x8, 256)], 0x0, 0x3FFFFFFF, 0x0, 0x0, 0x0, 0x0, 0x0⟩,
   ⟨0x4004, [(0x800, 5), (0x8, 256)], 0xFF, 0xFF, 0x0, 0x0, 0x0, 0x0, 0x0⟩]

/-- The registers of block RTE without its common tail. -/
def rowsRTE : List RegRow :=
  [⟨0x0, [], 0x0, 0x80000000, 0x0, 0x0, 0x0, 0x0, 0x0⟩,
   ⟨0x4, [], 0x18000, 0x0, 0x0, 0x0, 0x0, 0x0, 0x0⟩,
   ⟨0x8, [], 0x2006, 0x0, 0x0, 0xFF0F, 0x0, 0x0, 0x0⟩,
   ⟨0xC, [], 0x2000400, 0xFFFFFFFF, 0x0, 0x0, 0x0, 0x0, 0x0⟩,
   ⟨0x10, [], 0x0, 0x0, 0x0, 0xFFFFC000, 0x0, 0x0, 0x0⟩,
   ⟨0x14, [], 0x0, 0x0, 0x0, 0xFFFFFFFF, 0x0, 0x0, 0x0⟩,
   ⟨0x18, [], 0x0, 0x0, 0x0, 0xFFF, 0x0, 0x0, 0x0⟩,
   ⟨0x1C, [], 0x0, 0xFFFFFFFF, 0x0, 0x0, 0x0, 0x0, 0x0⟩,
   ⟨0x20, [], 0x0, 0xFFFFFFFF, 0x0, 0x0, 0x0, 0x0, 0x0⟩,
   ⟨0x24, [], 0x100, 0x8000FFFF, 0x0, 0x0, 0x0, 0x0, 0x0⟩,
   ⟨0x40, [(0x4, 16)], 0x0, 0x0, 0x0, 0xC00000FF, 0x0, 0x0, 0x0⟩,
   ⟨0x100, [(0x10, 16)], 0x0, 0x0, 0x0, 0xFFFFFFFF, 0x0, 0x0, 0x0⟩,
   ⟨0x104, [(0x10, 16)], 0x0, 0x0, 0x0, 0xFFFFFFFF, 0x0, 0x0, 0x0⟩,
   ⟨0x108, [(0x10, 16)], 0x0, 0x0, 0x0, 0xFFFF8000, 0x0, 0x0, 0x0⟩,
   ⟨0x10C, [(0x10, 16)], 0x0, 0x0, 0x0, 0xFFFF1FFF, 0x0, 0x0, 0x0⟩,
   ⟨0x200, [(0x8, 16)], 0x0, 0xFFFFFFFF, 0x0, 0x0, 0x0, 0x0, 0x0⟩,
   ⟨0x204, [(0x8, 16)], 0x0, 0xFFFF, 0x0, 0x0, 0x0, 0x0, 0x0⟩,
   ⟨0x300, [(0x4, 2)], 0x0, 0x8000000F, 0x0, 0x0, 0x0, 0x0, 0x0⟩,
   ⟨0x400, [(0x40, 2), (0x4, 16)], 0x0, 0xFFFFFFFF, 0x0, 0x0, 0x0, 0x0, 0x0⟩]

/-- The registers of block MEM without its common tail. -/
def rowsMEM : List RegRow :=
  [⟨0x0, [], 0x102, 0x0, 0x0, 0x3, 0x0, 0x80000000, 0x0⟩,
   ⟨0x4, [], 0x88000008, 0x0, 0x0, 0x8C00001F, 0x0, 0x0, 0x0⟩,
   ⟨0x8, [], 0x0, 0x0, 0x0, 0x0, 0x0, 0x0, 0x0⟩,
   ⟨0xC, [], 0x0, 0x0, 0x0, 0x0, 0x0, 0x0, 0x0⟩,
   ⟨0x10, [], 0x1E808C5A, 0x0, 0x0, 0xFFFFFFFF, 0x0, 0x0, 0x0⟩,
   ⟨0x14, [], 0x0, 0xFFFFFFFF, 0x0, 0x0, 0x0, 0x0, 0x0⟩,
   ⟨0x18, [], 0x0, 0xFFFFFFFF, 0x0, 0x0, 0x0, 0x0, 0x0⟩,
   ⟨0x1C, [], 0x0, 0x0, 0x0, 0x0, 0x0, 0x0, 0x0⟩,
   ⟨0x20, [], 0x0, 0x0, 0x0, 0x0, 0x0, 0x0, 0x0⟩,
   ⟨0x24, [], 0x803C0018, 0x80FFFFFF, 0x0, 0x0, 0x0, 0x0, 0x0⟩,
   ⟨0x28, [], 0x0, 0xFFFFFFFF, 0x0, 0x0, 0x0, 0x0, 0x0⟩,
   ⟨0x2C, [], 0x8, 0xFFFF00FF, 0x0, 0x0, 0x0, 0x0, 0x0⟩,
   ⟨0x30, [], 0x0, 0x1F1F1F1F, 0x0, 0x0, 0x0, 0x0, 0x0⟩,
   ⟨0x34, [], 0x1C00, 0x0, 0x0, 0x0, 0x0, 0x0, 0x0⟩]

/-- The registers of block CHK without its common tail. -/
def rowsCHK : List RegRow :=
  [⟨0x0, [(0x40, 8)], 0x0, 0x3BFFFF80, 0x0, 0x0, 0x0, 0xC0000000, 0x0⟩,
   ⟨0x4, [(0x40, 8)], 0x0, 0xFFFFFFFF, 0x0, 0x0, 0x0, 0x0, 0x0⟩,
   ⟨0x8, [(0x40, 8)], 0x0, 0xFFFFFFFF, 0x0, 0x0, 0x0, 0x0, 0x0⟩,
   ⟨0xC, [(0x40, 8)], 0x0, 0xFFFFFFFF, 0x0, 0x0, 0x0, 0x0, 0x0⟩,
   ⟨0x10, [(0x40, 8)], 0x0, 0xFFFFFFFF, 0x0, 0x0, 0x0, 0x0, 0x0⟩,
   ⟨0x14, [(0x40, 8)], 0x0, 0xFFFFFFFF, 0x0, 0x0, 0x0, 0x0, 0x0⟩,
   ⟨0x18, [(0x40, 8)], 0x0, 0x0, 0x0, 0x0, 0x0, 0x0, 0x0⟩,
   ⟨0x1C, [(0x40, 8)], 0x0, 0x0, 0x0, 0x0, 0x0, 0x0, 0x0⟩,
   ⟨0x20, [(0x40, 8)], 0x0, 0x0, 0x0, 0x0, 0x0, 0x0, 0x0⟩,
   ⟨0x24, [(0x40, 8)], 0x0, 0x0, 0x0, 0x0, 0x0, 0x0, 0x0⟩]

/-- The registers of block TIM without its common tail. -/
def rowsTIM : List RegRow :=
  [⟨0x0, [(0x40, 4)], 0x0, 0x0, 0x0, 0x0, 0x0, 0x0, 0x0⟩,
   ⟨0x140, [], 0x0, 0x0, 0x0, 0x0, 0x0, 0x0, 0x0⟩,
   ⟨0x4, [(0x40, 4)], 0x0, 0x0, 0x0, 0x0, 0x0, 0x0, 0x0⟩,
   ⟨0x144, [], 0x0, 0x0, 0x0, 0x0, 0x0, 0x0, 0x0⟩,
   ⟨0x8, [(0x40, 4)], 0x0, 0x0, 0x0, 0x0, 0x0, 0x0, 0x0⟩,
   ⟨0x148, [], 0x0, 0x0, 0x0, 0x0, 0x0, 0x0, 0x0⟩,
   ⟨0xC, [(0x40, 4)], 0x0, 0x0, 0x0, 0x0, 0x0, 0x0, 0x0⟩,
   ⟨0x14C, [], 0x0, 0x0, 0x0, 0x0, 0x0, 0x0, 0x0⟩,
   ⟨0x10, [(0x40, 4)], 0x2, 0xFF, 0x0, 0x0, 0x0, 0x0, 0x0⟩,
   ⟨0x14, [(0x40, 4)], 0x80000000, 0xFFFFFFFF, 0x0, 0x0, 0x0, 0x0, 0x0⟩,
   ⟨0x18, [(0x40, 4)], 0x0, 0xFFFFFFFF, 0x0, 0x0, 0x0, 0x0, 0x0⟩,
   ⟨0x1C, [(0x40, 4)], 0x0, 0xFFFFFFFF, 0x0, 0x0, 0x0, 0x0, 0x0⟩,
   ⟨0x20, [(0x40, 4)], 0x0, 0xFFFFFFFF, 0x0, 0x0, 0x0, 0x0, 0x0⟩,
   ⟨0x24, [(0x40, 4)], 0x0, 0xFFFFFFFF, 0x0, 0x0, 0x0, 0x0, 0x0⟩,
   ⟨0x28, [(0x40, 4)], 0x0, 0xFFFFFFFF, 0x0, 0x0, 0x0, 0x0, 0x0⟩,
   ⟨0x2C, [(0x40, 4)], 0x0, 0xFFFFFFFF, 0x0, 0x0, 0x0, 0x0, 0x0⟩,
   ⟨0x30, [], 0x0, 0x40000000, 0x0, 0x0, 0x0, 0x80000000, 0x0⟩,
   ⟨0x70, [(0x40, 3)], 0x40000000, 0x40000000, 0x0, 0x0, 0x0, 0x80000000, 0x0⟩,
   ⟨0x200, [], 0x3E8, 0x80000FFF, 0x0, 0x0, 0x0, 0x0, 0x0⟩,
   ⟨0x204, [], 0x0, 0x40000000, 0x0, 0x0, 0x0, 0x80000000, 0x0⟩,
   ⟨0x208, [], 0x64, 0x800003FF, 0x0, 0x0, 0x0, 0x0, 0x0⟩,
   ⟨0x210, [(0x10, 4)], 0x0, 0x0, 0x0, 0x0, 0x0, 0x0, 0x0⟩,
   ⟨0x214, [(0x10, 4)], 0x0, 0x0, 0x0, 0x0, 0x0, 0x0, 0x0⟩,
   ⟨0x218, [(0x10, 4)], 0x0, 0x0, 0x0, 0x0, 0x0, 0x0, 0x0⟩,
   ⟨0x21C, [(0x10, 4)], 0x0, 0x0, 0x0, 0x0, 0x0, 0x0, 0x0⟩] ++
  [⟨0x300, [(0x20, 2)], 0x0, 0xC0000000, 0x0, 0x0, 0x0, 0x0, 0x0⟩,
   ⟨0x304, [(0x20, 2)], 0x0, 0x0, 0x0, 0x0, 0x0, 0x0, 0x0⟩,
   ⟨0x308, [(0x20, 2)], 0x0, 0x0, 0x0, 0x0, 0x0, 0x0, 0x0⟩,
   ⟨0x30C, [(0x20, 2)], 0x0, 0xFFFFFFFF, 0x0, 0x0, 0x0, 0x0, 0x0⟩,
   ⟨0x310, [(0x20, 2)], 0x0, 0xFFFF, 0x0, 0x0, 0x0, 0x0, 0x0⟩]

/-- The registers of block HIF without its common tail. -/
def rowsHIF : List RegRow :=
  [⟨0x0, [], 0x0, 0x80000000, 0x0, 0x0, 0x0, 0x0, 0x0⟩,
   ⟨0x4, [], 0x0, 0x0, 0x0, 0x0, 0x0, 0x0, 0x0⟩,
   ⟨0x8, [], 0x0, 0xFFFFF000, 0x0, 0x0, 0x0, 0x0, 0x0⟩,
   ⟨0xC, [], 0x0, 0xFFFFFFFF, 0x0, 0x0, 0x0, 0x0, 0x0⟩,
   ⟨0x10, [], 0x0, 0xFFFFF000, 0x0, 0x0, 0x0, 0x0, 0x0⟩,
   ⟨0x14, [], 0x0, 0xFFFFFFFF, 0x0, 0x0, 0x0, 0x0, 0x0⟩,
   ⟨0x18, [], 0x0, 0xFFFFF000, 0x0, 0x0, 0x0, 0x0, 0x0⟩,
   ⟨0x1C, [], 0x0, 0xFFFFFFFF, 0x0, 0x0, 0x0, 0x0, 0x0⟩,
   ⟨0x20, [], 0x1, 0xF, 0x0, 0x0, 0x0, 0x0, 0x0⟩,
   ⟨0x24, [], 0x100, 0x1FF, 0x0, 0x0, 0x0, 0x0, 0x0⟩,
   ⟨0x28, [], 0x0, 0xFFFFFFFF, 0x0, 0x0, 0x0, 0x0, 0x0⟩,
   ⟨0x2C, [], 0x0, 0xFFFFFFFF, 0x0, 0x0, 0x0, 0x0, 0x0⟩,
   ⟨0x30, [], 0x0, 0x0, 0x800003FF, 0x0, 0x0, 0x0, 0x0⟩,
   ⟨0x34, [], 0x0, 0xFFFFFFFF, 0x0, 0x0, 0x0, 0x0, 0x0⟩,
   ⟨0x38, [], 0x0, 0x0, 0xFFFFFFFF, 0x0, 0x0, 0x0, 0x0⟩,
   ⟨0x40, [(0x4, 6)], 0x40404040, 0xFFFFFFFF, 0x0, 0x0, 0x0, 0x0, 0x0⟩,
   ⟨0x60, [], 0x0, 0xFF, 0x0, 0x0, 0x0, 0x0, 0x0⟩,
   ⟨0x64, [], 0x0, 0x0, 0x0, 0x0, 0x0, 0x0, 0x0⟩,
   ⟨0x68, [], 0x0, 0x0, 0x0, 0x0, 0x0, 0x0, 0x0⟩]

/-- The registers of block CHN without its common tail. -/
def rowsCHN : List RegRow :=
  [⟨0x0, [], 0x0, 0x80000000, 0x0, 0x0, 0x0, 0x0, 0x0⟩,
   ⟨0x4, [], 0x0, 0x0, 0x0, 0x0, 0x0, 0x0, 0x0⟩,
   ⟨0x8, [], 0x0, 0x0, 0x0, 0x0, 0x0, 0x0, 0x0⟩,
   ⟨0xC, [], 0x0, 0x0, 0x0, 0x0, 0x0, 0x0, 0x0⟩,
   ⟨0x10, [], 0x0, 0x0, 0xFF1F, 0x0, 0x0, 0x0, 0x0⟩,
   ⟨0x14, [], 0x0, 0xFFFFFFFF, 0x0, 0x0, 0x0, 0x0, 0x0⟩,
   ⟨0x20, [], 0x1F40600, 0xFFFF871F, 0x0, 0x0, 0x0, 0x0, 0x0⟩,
   ⟨0x24, [], 0x0, 0x0, 0x0, 0x0, 0x0, 0xE0000000, 0x0⟩,
   ⟨0x28, [], 0x0, 0x0, 0x0, 0x0, 0x0, 0x0, 0x0⟩,
   ⟨0x2C, [], 0x4, 0xF, 0x0, 0x0, 0x0, 0x0, 0x0⟩,
   ⟨0x30, [], 0x0, 0xFFFFFFFF, 0x0, 0x0, 0x0, 0x0, 0x0⟩,
   ⟨0x34, [], 0x10000, 0xFFFFFFFF, 0x0, 0x0, 0x0, 0x0, 0x0⟩,
   ⟨0x38, [], 0x10, 0x800000FF, 0x0, 0x0, 0x0, 0x0, 0x0⟩,
   ⟨0x3C, [], 0x0, 0xFFFF0000, 0x0, 0x0, 0x0, 0x0, 0x0⟩,
   ⟨0x40, [(0x4, 8)], 0x0, 0x0, 0xFFFFFFFF, 0x0, 0x0, 0x0, 0x0⟩,
   ⟨0x60, [(0x8, 2)], 0x0, 0x0, 0x0, 0x0, 0x0, 0x0, 0x0⟩,
   ⟨0x64, [(0x8, 2)], 0x0, 0xFFFFFFFF, 0x0, 0x0, 0x0, 0x0, 0x0⟩,
   ⟨0x80, [], 0x0, 0x0, 0x0, 0x0, 0x0, 0x0, 0x0⟩,
   ⟨0x84, [], 0x0, 0x0, 0x0, 0x0, 0x0, 0x0, 0x0⟩,
   ⟨0x88, [], 0x0, 0x0, 0x0, 0x0, 0x0, 0x0, 0x0⟩,
   ⟨0x8C, [], 0x0, 0x0, 0x0, 0x0, 0x0, 0x0, 0x0⟩,
   ⟨0x90, [], 0x80000000, 0xFF, 0x0, 0x0, 0x30000000, 0x0, 0x0⟩,
   ⟨0x94, [], 0x0, 0xFFFF0000, 0x0, 0x0, 0x0, 0x0, 0x0⟩,
   ⟨0x98, [], 0x0, 0xFFFFFFFF, 0x0, 0x0, 0x0, 0x0, 0x0⟩,
   ⟨0xA0, [], 0x0, 0x1F, 0x0, 0x0, 0x0, 0x0, 0x0⟩] ++
  [⟨0xA4, [], 0x0, 0x0, 0x0, 0x0, 0x0, 0x0, 0x0⟩,
   ⟨0xA8, [], 0x0, 0x0, 0x0, 0x0, 0x0, 0x0, 0x0⟩,
   ⟨0xAC, [], 0x0, 0x0, 0x0, 0x0, 0x0, 0x0, 0x0⟩]

/-- The registers of block FLT without its common tail. -/
def rowsFLT : List RegRow :=
  [⟨0x0, [], 0x1000, 0x8000FF00, 0x0, 0x0, 0x0, 0x0, 0x0⟩,
   ⟨0x4, [], 0x0, 0x0, 0x0, 0x0, 0x0, 0x0, 0x0⟩,
   ⟨0x8, [], 0x0, 0x0, 0x0, 0xFC000000, 0x0, 0x0, 0x0⟩,
   ⟨0xC, [], 0x0, 0x0, 0x0, 0xFFFFFFFF, 0x0, 0x0, 0x0⟩,
   ⟨0x10, [], 0x0, 0x0, 0x0, 0x0, 0x0, 0x0, 0x0⟩,
   ⟨0x14, [], 0x0, 0xFFFF0000, 0x0, 0x0, 0x0, 0x0, 0x0⟩,
   ⟨0x18, [], 0x0, 0xFFFFFFFF, 0x0, 0x0, 0x0, 0x0, 0x0⟩,
   ⟨0x1C, [], 0x0, 0xFFFFFFFF, 0x0, 0x0, 0x0, 0x0, 0x0⟩,
   ⟨0x20, [], 0x2024003C, 0xA03FFFFF, 0x0, 0x0, 0x0, 0x40000000, 0x0⟩,
   ⟨0x24, [], 0x0, 0x0, 0x0, 0x0, 0x0, 0x0, 0x0⟩,
   ⟨0x28, [], 0x0, 0x0, 0x0, 0x0, 0x0, 0x0, 0x0⟩,
   ⟨0x2C, [], 0x0, 0x0, 0x0, 0x0, 0x0, 0x0, 0x0⟩,
   ⟨0x30, [], 0x0, 0x3F, 0x0, 0x0, 0x0, 0x0, 0x0⟩,
   ⟨0x34, [(0x4, 8)], 0x0, 0x0, 0x0, 0x0, 0x0, 0x0, 0x0⟩]

/-- The registers of block NVM without its common tail. -/
def rowsNVM : List RegRow :=
  [⟨0x0, [], 0x0, 0x0, 0x0, 0x0, 0x0, 0x0, 0x0⟩,
   ⟨0x4, [], 0x0, 0x0, 0x0, 0x0, 0x0, 0x0, 0xFFFFFFFF⟩,
   ⟨0x8, [], 0xB00000, 0x0, 0x0, 0x0, 0x0, 0x0, 0x0⟩,
   ⟨0xC, [], 0x0, 0xFFFFFFFF, 0x0, 0x0, 0x0, 0x0, 0x0⟩,
   ⟨0x100, [(0x4, 32)], 0x0, 0x0, 0xFFFFFFFF, 0x0, 0x0, 0x0, 0x0⟩]

/-- The registers of block IDM without its common tail. -/
def rowsIDM : List RegRow :=
  [⟨0x0, [(0x20, 3)], 0x1, 0x1, 0x0, 0x0, 0x0, 0x80000000, 0x0⟩,
   ⟨0x4, [(0x20, 3)], 0x0, 0x0, 0x0, 0x0, 0x0, 0x0, 0x0⟩,
   ⟨0x8, [(0x20, 3)], 0xFFFFFFFF, 0x0, 0x0, 0x0, 0x0, 0x0, 0x0⟩,
   ⟨0xC, [(0x20, 3)], 0x0, 0xFFFFFFFF, 0x0, 0x0, 0x0, 0x0, 0x0⟩,
   ⟨0x1000, [(0x800, 3), (0x100, 8), (0x4, 64)], 0x0, 0x0, 0x0, 0x0, 0x0, 0x0, 0x0⟩]

/-- The register rows of block number `b`. -/
def blockRows : Nat → List RegRow
  | 0 => rowsSYS
  | 1 => rowsARM
  | 2 => rowsENG
  | 3 => rowsDSP
  | 4 => rowsFQ
  | 5 => rowsRFL
  | 6 => rowsRFM
  | 7 => rowsRFH
  | 8 => rowsBBL
  | 9 => rowsBBM
  | 10 => rowsBBH
  | 11 => rowsWMAC
  | 12 => rowsASCH
  | 13 => rowsMSH
  | 14 => rowsUPL
  | 15 => rowsRTE
  | 16 => rowsMEM
  | 17 => rowsCHK
  | 18 => rowsTIM
  | 19 => rowsHIF
  | 20 => rowsCHN
  | 21 => rowsFLT
  | 22 => rowsNVM
  | 23 => rowsIDM
  | _ => []

/-- Whether an offset falls on one of the copies that the strides and counts of a row make. -/
def onGrid : List (Nat × Nat) → Nat → Bool
  | [], d => d == 0
  | [(st, n)], d => d % st == 0 && d / st < n
  | (st, n) :: rest, d => d / st < n && onGrid rest (d % st)

/-- The row that an offset of a block belongs to. -/
def RegRow.covers (r : RegRow) (off : Nat) : Bool := r.off ≤ off && onGrid r.dims (off - r.off)

/-- The register row at a BAR0 address, none at a reserved offset (R13). -/
def regRow (a : Nat) : Option RegRow :=
  (if a % 0x10000 < 0xFF00 then blockRows (a / 0x10000) else if a / 0x10000 < 24 then rowsTail else []).find? (·.covers (a % 0x10000))

/-- The value a register holds at reset: what its table gives; 0 where the table gives none (DESIGN CHOICE, log 3) and at
a reserved offset (R13). -/
def regReset (a : Nat) : BitVec 32 :=
  match regRow a with
  | some r => BitVec.ofNat 32 r.reset
  | none => 0

end Sys2Proof.Machine
end

