-- ==== Sys2Proof/Machine/Tab.lean ====
section
/-! DEFINITION. Sparse tables: the one representation of every large store of the block (register file, station table,
queues, memories). A table lists (key, value) pairs with keys strictly rising and lists no entry equal to what an
unlisted key reads as, so that equal contents are equal data. -/

namespace Sys2Proof.Machine

/-- A sparse table from numbers to values. -/
abbrev Tab (α : Type) := List (Nat × α)

/-- The value at key `k`; `d` where the table lists none. -/
def tabGet {α : Type} (d : α) : Tab α → Nat → α
  | [], _ => d
  | (j, v) :: r, k => if j = k then v else tabGet d r k

/-- The table without key `k`. -/
def tabErase {α : Type} : Tab α → Nat → Tab α
  | [], _ => []
  | (j, v) :: r, k => if j = k then tabErase r k else (j, v) :: tabErase r k

/-- The table with the pair put before the first greater key. -/
def tabInsert {α : Type} : Tab α → Nat → α → Tab α
  | [], k, v => [(k, v)]
  | (j, w) :: r, k, v => if k < j then (k, v) :: (j, w) :: r else (j, w) :: tabInsert r k v

/-- The table with `v` at key `k`; an entry equal to the default `d` is not listed. -/
def tabSet {α : Type} [DecidableEq α] (d : α) (t : Tab α) (k : Nat) (v : α) : Tab α :=
  if v = d then tabErase t k else tabInsert (tabErase t k) k v

/-- The table with the value at `k` changed by `f`. -/
def tabMod {α : Type} [DecidableEq α] (d : α) (t : Tab α) (k : Nat) (f : α → α) : Tab α :=
  tabSet d t k (f (tabGet d t k))

/-- Whether the keys rise strictly from above `lo`. -/
def tabSorted {α : Type} : Nat → Tab α → Bool
  | _, [] => true
  | lo, (j, _) :: r => lo ≤ j && tabSorted (j + 1) r

/-- The commands that wait for a radio, without those that ask for the state `s` it is in (R226). -/
def dropSame (s : Nat) : List Nat → List Nat
  | t :: r => if t = s then dropSame s r else t :: r
  | [] => []

/-- The canonical form of a byte memory: addresses strictly rising, no entry equal to the byte an unlisted address reads
as, which is 0 (log 4). -/
def Memory.wf (t : List Host.Cell) : Bool := tabSorted 0 t && t.all (fun c => c.2 != 0)

/-- One byte of a memory. -/
def memGet (t : List Host.Cell) (a : Nat) : Byte := tabGet 0 t a

/-- A memory with one byte written. -/
def memSet (t : List Host.Cell) (a : Nat) (b : Byte) : List Host.Cell := tabSet 0 t a b

/-- `k` bytes of a memory from address `a`. -/
def memRead (t : List Host.Cell) (a : Nat) : Nat → List Byte
  | 0 => []
  | k + 1 => memGet t a :: memRead t (a + 1) k

/-- A memory with bytes written from address `a`. -/
def memWrite (t : List Host.Cell) (a : Nat) : List Byte → List Host.Cell
  | [] => t
  | b :: r => memWrite (memSet t a b) (a + 1) r

end Sys2Proof.Machine
end

