-- ==== Sys2Proof/Machine/Code.lean ====
section
/-! DEFINITION. The 144/128 common code over GF(2^8) (R500 to R505), and the CRCs of the check channels (R537). -/

namespace Sys2Proof.Machine

/-- Multiplication by α = 0x02 modulo x^8 + x^4 + x^3 + x^2 + 1 (R500). -/
def gfAlpha (x : Byte) : Byte := if x.getLsbD 7 then (x <<< 1) ^^^ 0x1D#8 else x <<< 1

/-- Multiplication by α^k. -/
def gfAlphaPow : Nat → Byte → Byte
  | 0, x => x
  | k + 1, x => gfAlpha (gfAlphaPow k x)

/-- Multiplication in GF(2^8), from the bits of the first factor up. -/
def gfMulAux : Nat → Byte → Byte → Byte
  | 0, _, _ => 0
  | k + 1, a, b => (if a.getLsbD 0 then b else 0) ^^^ gfMulAux k (a >>> 1) (gfAlpha b)

/-- Multiplication in GF(2^8) (R501). -/
def gfMul (a b : Byte) : Byte := gfMulAux 8 a b

/-- The XOR of symbols. -/
def gfSum : List Byte → Byte
  | [] => 0
  | x :: r => x ^^^ gfSum r

/-- The sum of symbol p times α^p, the first symbol of the list at position 0. -/
def gfWeigh : List Byte → Byte
  | [] => 0
  | x :: r => x ^^^ gfAlpha (gfWeigh r)

/-- Data symbol Dk of a datum (R500). -/
def dataSym (d : BitVec 128) (k : Nat) : Byte := d.extractLsb' (8 * k) 8

/-- The sixteen data symbols, D0 first. -/
def dataSyms (d : BitVec 128) : List Byte :=
  [dataSym d 0, dataSym d 1, dataSym d 2, dataSym d 3, dataSym d 4, dataSym d 5, dataSym d 6, dataSym d 7,
   dataSym d 8, dataSym d 9, dataSym d 10, dataSym d 11, dataSym d 12, dataSym d 13, dataSym d 14, dataSym d 15]

/-- The symbols of a code word at positions 0 to 17: C0, C1, D0 to D15 (R500). -/
def codeSyms (w : Code) : List Byte :=
  w.extractLsb' 128 8 :: w.extractLsb' 136 8 :: dataSyms (w.extractLsb' 0 128)

/-- The 128 data bits of a code word. -/
def codeData (w : Code) : BitVec 128 := w.extractLsb' 0 128

/-- A code word from C1, C0 and the datum. -/
def codeMk (c1 c0 : Byte) (d : BitVec 128) : Code := c1 ++ c0 ++ d

/-- The check symbols (C1, C0) of a datum: the encoder of R501. -/
def checkSyms (d : BitVec 128) : Byte × Byte :=
  let a0 := gfSum (dataSyms d)
  let a1 := gfAlphaPow 2 (gfWeigh (dataSyms d))
  let c1 := gfMul (a0 ^^^ a1) 0xF4
  (c1, a0 ^^^ c1)

/-- The code word of a datum (R501). -/
def encodeCode (d : BitVec 128) : Code := codeMk (checkSyms d).1 (checkSyms d).2 d

/-- The code word that stores a poisoned datum: 0x5A into both check symbols (R504). -/
def encodePoison (d : BitVec 128) : Code := codeMk ((checkSyms d).1 ^^^ 0x5A) ((checkSyms d).2 ^^^ 0x5A) d

/-- Syndrome S0: the XOR of all 18 symbols (R501). -/
def synd0 (w : Code) : Byte := gfSum (codeSyms w)

/-- Syndrome S1: the sum of symbol p times α^p (R501). -/
def synd1 (w : Code) : Byte := gfWeigh (codeSyms w)

/-- The class a decoder gives a word (R502); a corrected word carries the whole corrected code word. -/
inductive CodeClass where
  | clean
  | corrected (w : Code)
  | storedPoison
  | uncorrectable
  deriving DecidableEq, Repr

/-- The bit position of symbol `p` in a code word (R500). -/
def symShift (p : Nat) : Nat := if p < 2 then 128 + 8 * p else 8 * (p - 2)

/-- A code word with `e` added to symbol `p`. -/
def addSym (w : Code) (p : Nat) (e : Byte) : Code := w ^^^ (e.setWidth 144 <<< symShift p)

/-- The position L in `p` to `p + k - 1` with S1 = α^L S0: the logarithm test of R502. -/
def findPos (s0 : Byte) : Nat → Nat → Byte → Option Nat
  | _, 0, _ => none
  | p, k + 1, t => if t = gfAlphaPow p s0 then some p else findPos s0 (p + 1) k t

/-- The decoder of a correcting place (R502). -/
def classify (w : Code) : CodeClass :=
  if synd0 w = 0 then
    if synd1 w = 0 then .clean else if synd1 w = 0xEE then .storedPoison else .uncorrectable
  else if synd1 w = 0 then .uncorrectable
  else match findPos (synd0 w) 0 18 (synd1 w) with
    | some p => .corrected (addSym w p (synd0 w))
    | none => .uncorrectable

/-- The decoder of a place that checks and does not correct (R502). -/
def classifyCheck (w : Code) : CodeClass :=
  if synd0 w = 0 ∧ synd1 w = 0 then .clean
  else if synd0 w = 0 ∧ synd1 w = 0xEE then .storedPoison else .uncorrectable

/-- The word a correcting place delivers: none where it delivers poison. -/
def CodeClass.word (w : Code) : CodeClass → Option Code
  | .clean => some w
  | .corrected v => some v
  | _ => none

/-- A code word of a byte store that keeps 18 bytes a word: the data bytes in address order, then C0 and C1. -/
def codeOfBytes (l : List Byte) : Code :=
  BitVec.ofNat 144 (numLE l)

/-- The 18 bytes of a code word. -/
def codeToBytes (w : Code) : List Byte := bytesLE 18 w.toNat

/-- Code word `i` of a store that keeps 18 bytes a word. -/
def storeGet (t : List Host.Cell) (i : Nat) : Code := codeOfBytes (memRead t (18 * i) 18)

/-- A store with code word `i` written. -/
def storeSet (t : List Host.Cell) (i : Nat) (w : Code) : List Host.Cell := memWrite t (18 * i) (codeToBytes w)

/-- Sixteen bytes, least significant first, as a datum. -/
def datumOf (l : List Byte) : BitVec 128 := BitVec.ofNat 128 (numLE l)

/-- The sixteen bytes of a datum. -/
def datumBytes (d : BitVec 128) : List Byte := bytesLE 16 d.toNat

/-! ### The CRCs of R537 -/

/-- The parameters of a CRC: width, polynomial (reflected where the CRC is), initial value, reflection, final XOR. -/
structure CrcParams where
  width : Nat
  poly : Nat
  init : Nat
  refl : Bool
  xorOut : Nat
  deriving DecidableEq, Repr

/-- One bit step of a reflected CRC. -/
def crcBitR (p : CrcParams) : Nat → Nat → Nat
  | 0, c => c
  | k + 1, c => crcBitR p k (if c % 2 = 1 then Nat.xor (c / 2) p.poly else c / 2)

/-- One bit step of a CRC taken most significant bit first. -/
def crcBitN (p : CrcParams) : Nat → Nat → Nat
  | 0, c => c
  | k + 1, c => crcBitN p k
      (if c.testBit (p.width - 1) then Nat.xor ((2 * c) % 2 ^ p.width) p.poly else (2 * c) % 2 ^ p.width)

/-- The CRC register after one more byte. -/
def crcByte (p : CrcParams) (c : Nat) (b : Byte) : Nat :=
  if p.refl then crcBitR p 8 (Nat.xor c b.toNat) else crcBitN p 8 (Nat.xor c (b.toNat <<< (p.width - 8)))

/-- The CRC register after bytes. -/
def crcRun (p : CrcParams) : Nat → List Byte → Nat
  | c, [] => c
  | c, b :: r => crcRun p (crcByte p c b) r

/-- The CRC of bytes. -/
def crcOf (p : CrcParams) (l : List Byte) : Nat := Nat.xor (crcRun p p.init l) p.xorOut

/-- The CRC of bytes that follow bytes whose CRC is `seed` (R538). -/
def crcChain (p : CrcParams) (seed : Nat) (l : List Byte) : Nat :=
  Nat.xor (crcRun p (Nat.xor seed p.xorOut) l) p.xorOut

/-- The CRC that CTL.POLY selects (R537); none for the values that fail. -/
def crcPoly : Nat → Option CrcParams
  | 0 => some ⟨32, 0xEDB88320, 0xFFFFFFFF, true, 0xFFFFFFFF⟩
  | 1 => some ⟨32, 0x82F63B78, 0xFFFFFFFF, true, 0xFFFFFFFF⟩
  | 2 => some ⟨16, 0x1021, 0xFFFF, false, 0⟩
  | 3 => some ⟨8, 0x07, 0, false, 0⟩
  | 4 => some ⟨64, 0x42F0E1EBA9EA3693, 0, false, 0⟩
  | _ => none

/-- CRC-64/ECMA: the seal of R59. -/
def crc64 : CrcParams := ⟨64, 0x42F0E1EBA9EA3693, 0, false, 0⟩

/-- The 16-byte seal block of R59 over bytes. -/
def sealBlock (l : List Byte) : List Byte := bytesLE 8 (crcOf crc64 l) ++ List.replicate 8 0

end Sys2Proof.Machine
end

