-- ==== Sys2Proof/Machine/StEngine.lean ====
section
/-! DEFINITION. The state of the engines, of the dispatcher and of the queue channels (R92 to R216, R661 to R665). -/

namespace Sys2Proof.Machine

/-- The name of a task run: 0 for none, else 1 + 64 × engine + task slot. A provisional effect carries the run it
belongs to (R661). -/
abbrev RunId := Nat

/-- The run name of a task slot of an engine. -/
def runOf (te slot : Nat) : RunId := 1 + 64 * te + slot

/-- What a pending write lands in: a register, a flag of FL, or a division trap with the pc, word and transfer state of
its DIV (R95, R124). -/
inductive PTgt where
  | reg (r : Nat)
  | flag (f : Nat)
  | dz (fpc : Nat) (finsn : Nat) (bt : Option Nat) (btc : Nat) (ending : Nat)
  deriving DecidableEq, Repr

/-- A pending write: its landing slot, its issue number, its target and its value. -/
structure Pend where
  slot : Nat
  seq : Nat
  tgt : PTgt
  val : TWord
  deriving DecidableEq, Repr

/-- A far access (R112 to R119): who issued it, what it names, and, once its target has served it, its status bits and
the words it lands. `live` while the run that issued it is in force (R664). -/
structure Acc where
  id : Nat
  tslot : Nat
  flag : Nat
  put : Bool
  far : TWord
  loc : Nat
  len : Nat
  tagMode : Bool
  src : List TWord
  out : Option Nat
  done : Bool
  status : Nat
  res : List (Nat × TWord)
  detached : Bool
  live : Bool
  deriving DecidableEq, Repr

/-- An output of a run (R661, R673): its number, whether it is a QITEM (0), a PUT to class UNIT (1) or a SIG (2), its
channel, unit or engine, its kind or operation (task slot and flag for a SIG), the far PTR, the length and the words. -/
structure Output where
  no : Nat
  kind : Nat
  target : Nat
  op : Nat
  far : TWord
  len : Nat
  words : List TWord
  deriving DecidableEq, Repr

/-- The registers and transfer state of one task. `btc` counts the delay-slot instructions still to issue; `ending` says what
follows them: 0 nothing, 1 END, 2, 3 and 4 the modes of FRET (R96, R132). -/
structure Ctx where
  regs : Tab TWord
  fl : BitVec 7
  pm : Nat
  pc : Nat
  bt : Option Nat
  btc : Nat
  ending : Nat
  deriving DecidableEq, Repr

/-- The context before any dispatch. -/
def Ctx.zero : Ctx := ⟨[], 0, 0, 0, none, 0, 0⟩

/-- What fault entry freezes (R102, R130); `rep` says that FPC is a REP (R128). -/
structure Frozen where
  code : Nat
  fpc : Nat
  finsn : Nat
  fopnd : Nat
  bt : Option Nat
  btc : Nat
  ffl : BitVec 7
  place : Nat
  rep : Bool
  deriving DecidableEq, Repr

/-- Nothing frozen. -/
def Frozen.zero : Frozen := ⟨0, 0, 0, 0, none, 0, 0, 0, false⟩

/-- A stop frame (R134): the task's context, a trap still to be taken, the run's outputs to re-issue, its undo log. -/
structure StopFrame where
  ctx : Ctx
  dz : Option PTgt
  outs : List Output
  undo : List (Nat × Code)
  undoFull : Bool
  beat : Nat
  time : BitVec 60
  deriving DecidableEq, Repr

/-- What a WAIT in force names (R120). -/
structure WaitRec where
  mask : BitVec 32
  all : Bool
  deadline : Option (BitVec 60)
  deriving DecidableEq, Repr

/-- What an engine does (R145): idle, running a task, suppressed by a fault whose task has not started, running the
fault task, or in a WAIT (`wait` of the task, `waitF` of the fault task). -/
inductive EngState where
  | idle | run | faulting | fault | wait | waitF
  deriving DecidableEq, Repr

/-- A task that the dispatcher has selected in this beat, or replays (R180, R186). -/
structure TaskSt where
  slot : Nat
  prio : Nat
  entry : Nat
  release : Nat
  deadline : Nat
  wmask : BitVec 32
  released : Bool
  ran : Bool
  deriving DecidableEq, Repr

/-- A tagged engine. `task` is the task whose run is in force, `entered` the context that fault entry froze and `outMark` the
number of the run's outputs before its fault task started (R134); `replay` marks a replayed run (R666), `late` one whose END
lost to a beat start (R78). -/
structure Te where
  st : EngState
  tslot : Nat
  ctx : Ctx
  slotNo : Nat
  seq : Nat
  pend : List Pend
  wait : Option WaitRec
  frozen : Frozen
  saved : Ctx
  entered : Ctx
  task : Option TaskSt
  first : Nat
  firstTime : BitVec 60
  stops : Tab (Option StopFrame)
  undo : List (Nat × Code)
  undoFull : Bool
  abandoned : List Nat
  accs : List Acc
  accSeq : Nat
  outs : List Output
  outMark : Nat
  replay : Bool
  late : Bool
  lmem : List Host.Cell
  istore : Tab W32
  deriving DecidableEq, Repr

/-- An engine at reset. -/
def Te.zero : Te :=
  ⟨.idle, 0, Ctx.zero, 0, 0, [], none, Frozen.zero, Ctx.zero, Ctx.zero, none, 0, 0, [], [], false, [], [], 0, [], 0, false, false,
   [], []⟩

/-- The lantern core (R138 to R143). `regs` holds b0 to b7 at 0 to 7 and p0 to p3 at 8 to 11; `restarting` stands from a restart
under R142 until an instruction issues at vector 0 (R145). -/
structure Lc where
  st : Nat
  regs : Tab Nat
  fl : BitVec 7
  pm : Nat
  pc : Nat
  slotNo : Nat
  seq : Nat
  pend : List Pend
  bt : Option Nat
  btc : Nat
  ending : Nat
  savedPc : Nat
  savedFl : BitVec 7
  irq : BitVec 8
  restarting : Bool
  sram : List Host.Cell
  code : List Host.Cell
  deriving DecidableEq, Repr

/-- LC as its power-on detector releases it: at vector 0 (R140). -/
def Lc.zero : Lc := ⟨0, [], 0, 0, 0, 0, 0, [], none, 0, 0, 0, 0, 0, false, [], []⟩

/-- An entry of an event queue (R187): slot, flag, and the run while it is provisional. -/
structure EvEnt where
  slot : Nat
  flag : Nat
  prov : RunId
  deriving DecidableEq, Repr

/-- The dispatcher's state for one TE. `flags`, `stat` and `late` are keyed by task slot (and flag). -/
structure DspTe where
  sel : List TaskSt
  delay : List (Nat × Nat)
  replay : List TaskSt
  evq : List EvEnt
  held : List EvEnt
  flags : Tab (BitVec 32)
  late : Tab (BitVec 32)
  stat : Tab Nat
  last : Nat
  deriving DecidableEq, Repr

/-- The dispatcher at reset. -/
def DspTe.zero : DspTe := ⟨[], [], [], [], [], [], [], [], 0⟩

/-- A stored word of a queue channel (R191) with the run while its item is provisional (R661). -/
structure QWord where
  code : Code
  side : BitVec 16
  par : Bool
  prov : RunId
  deriving DecidableEq, Repr

/-- A queue channel's state beside its registers: the stored words, the producer's words that wait for room (R194),
whether an item is being written or voided, the words delivered provisionally (R663), whether the consumer is inside a
packet, how many whole items at the head are visible and whether the packet of the last of them goes on (R196), whether the
rest of a packet is discarded (R205), whether the last end word was answered FLUSHED (R206), and the port whose item was last
answered REFUSED (R192, R193). -/
structure Chan where
  q : List QWord
  waiting : List QWord
  writing : Bool
  voiding : Bool
  out : List (RunId × List QWord)
  started : Bool
  vis : Nat
  tail : Bool
  dropping : Bool
  lastFlushed : Bool
  refused : Option Nat
  deriving DecidableEq, Repr

/-- A channel at reset. -/
def Chan.zero : Chan := ⟨[], [], false, false, [], false, 0, false, false, false, none⟩

end Sys2Proof.Machine
end

