-- ==== Sys2Proof/Machine/StMain.lean ====
section
/-! DEFINITION. The state of the armature, the time bases, the memories, the check units, the host interface and the
fault block, beside their registers. -/

namespace Sys2Proof.Machine

/-- A TASKSET entry (R56). -/
structure Task where
  te : Nat
  period : Nat
  phase : Nat
  tslot : Nat
  prio : Nat
  entry : Nat
  release : Nat
  deadline : Nat
  wmask : BitVec 32
  issue : Nat
  nSram : Nat
  nDram : Nat
  nHash : Nat
  nLpm : Nat
  nCiph : Nat
  budget : Nat
  place : Nat
  deriving DecidableEq, Repr

/-- A SLOTTAB entry (R57). `place` is the entry's byte offset in the image. -/
structure Slot where
  radio : Nat
  beat : Nat
  kind : Nat
  start : Nat
  param : Nat
  len : Nat
  latest : Nat
  every : Nat
  phase : Nat
  dep : BitVec 16
  kbits : Nat
  place : Nat
  deriving DecidableEq, Repr

/-- A MEMWIN entry (R58). -/
structure MemWin where
  beat : Nat
  mask : Nat
  kind : Nat
  start : Nat
  len : Nat
  place : Nat
  deriving DecidableEq, Repr

/-- A BOUNDS entry (R58). -/
structure Bound where
  sta : Nat
  tid : Nat
  up : Bool
  boundUs : Nat
  slips : Nat
  radio : Nat
  flow : Nat
  targetUs : Nat
  place : Nat
  deriving DecidableEq, Repr

/-- A BUDGETS entry of an engine and beat index (R58). -/
structure Budget where
  te : Nat
  bidx : Nat
  claim : Nat
  reserve : Nat
  place : Nat
  deriving DecidableEq, Repr

/-- The content of an armature bank beside the instruction stores and banked words, which stand in the engines; `img` is the
image it was loaded from, as an active unit sends it to its standby (R634, log 39). -/
structure Bank where
  profile : Nat
  period : Nat
  cycle : Nat
  flags : Nat
  armId : Nat
  rporder : Nat
  tasks : List Task
  slots : List Slot
  memwin : List MemWin
  bounds : List Bound
  budgets : List Budget
  meshTpl : List Byte
  engs : List Nat
  img : List Byte
  deriving DecidableEq, Repr

/-- An empty bank. -/
def Bank.zero : Bank := ⟨0, 0, 1, 0, 0, 0x1B, [], [], [], [], [], [], [], []⟩

/-- Block ARM beside its registers: the two banks, the load under way (destination and source as taken at GO), the key
slots' fused digests, a revocation written once in this beat, the monitors below CRIT at the last beat start, the armed
swap, the tasks that overran at the last beat start (engine, slot), work for the end of the first beat without overrun;
`change` names what the regulator or a swap is awaited for: 0 nothing, 1 a faster profile, 3 a slower profile before its
swap, 4 after it, 5 the raise of a fallback from TWIN, 6 the lowering under a fallback, 7 the raise of a takeover; `fbCause`
a fallback that is called for (1 overrun limit, 2 margin) and `fbSwap` one that awaits its swap; `ran` once an armature has run (R651); `undriven` a regulator found not linear (R86), `lateChg` a change that
ends DONE_LATE (R88). -/
structure ArmSt where
  bank0 : Bank
  bank1 : Bank
  load : Option (Nat × Nat × Nat)
  fbLoad : Bool
  key0 : List Byte
  key1 : List Byte
  revoke : Option Nat
  crit : List Nat
  armed : Bool
  swapFrame : Nat
  change : Nat
  target : Nat
  confirmed : Bool
  settle : Bool
  lowering : Bool
  fbSwap : Bool
  fbCause : Nat
  overran : List (Nat × Nat)
  ran : Bool
  undriven : Bool
  lateChg : Bool
  deriving DecidableEq, Repr

/-- Block ARM at reset. -/
def ArmSt.zero : ArmSt :=
  ⟨Bank.zero, Bank.zero, none, false, [], [], none, [], false, 0, 0, 0, false, false, false, false, 0, [], false, false, false⟩

/-- A time base (R549) with what it takes at its next step: a load, a signed step, an increment pair (R552); `fwd` holds
the forward steps of a TSF base until the next beat start (R554). -/
structure Base where
  s : BitVec 64
  ns : Nat
  frac : BitVec 32
  load : Bool
  step : Int
  fwd : Nat
  incNs : Option Nat
  incPair : Option (Nat × Nat)
  latS : BitVec 64
  latFrac : BitVec 32
  deriving DecidableEq, Repr

/-- A time base at reset. -/
def Base.zero : Base := ⟨0, 0, 0, false, 0, 0, none, none, 0, 0⟩

/-- A guy port's time exchange (R566 to R569): t1 while an exchange is open, the t1 of the frame before where none came in
it, t2 while an answer is owed, consecutive missed frames, consecutive frames inside 100 ns. -/
structure GuyTime where
  t1 : Option Nat
  t1old : Option Nat
  t2 : Option Nat
  missed : Nat
  inside : Nat
  deriving DecidableEq, Repr

/-- A guy port's exchange at reset. -/
def GuyTime.zero : GuyTime := ⟨none, none, none, 0, 0⟩

/-- Block TIM and TB4: the six bases, the phase of the lantern's crystal against the 2.5 ns steps, the steps of 2.5 ns since PORST_N release and since the main
domain's last reset, the beat number, the TIME of its start and the
tick, PPS_OUT, and the two guy ports' exchanges. -/
structure TimSt where
  tb : Tab Base
  ref : Nat
  up : Nat
  run : Nat
  beat : BitVec 48
  beatTime : BitVec 60
  tick : Nat
  started : Bool
  pps : Bool
  guy : Tab GuyTime
  deriving DecidableEq, Repr

/-- Block TIM at reset. -/
def TimSt.zero : TimSt := ⟨[], 0, 0, 0, 0, 0, 0, false, false, []⟩

/-- A request in a DRAM bank queue: its first word address, the words it writes (none for a read), its length, its place in the
order of arrival at the controller (R513). -/
structure DramReq where
  addr : Nat
  write : Bool
  words : List Code
  len : Nat
  seq : Nat
  deriving DecidableEq, Repr

/-- A DRAM bank: its queue, the senders held (R512), its debt, whether its refresh is forced, its open row; when its interval began and
from when it is free for a refresh, in quarters of a ns (R515, R518). -/
structure DBank where
  queue : List DramReq
  held : List DramReq
  debt : Nat
  forced : Bool
  row : Option Nat
  since : Nat
  freeAt : Nat
  deriving DecidableEq, Repr

/-- A DRAM bank at reset. -/
def DBank.zero : DBank := ⟨[], [], 0, false, none, 0, 0⟩

/-- Block MEM: the DRAM bytes at their physical addresses (R510), the bank queues, the rotation pointer of each channel,
the last words read, kind-3 drift overruns in a row, the scrubber's words in DRAM and SRAM, the address map in force,
the on-chip SRAM of class SRAM, the requests that have arrived; by channel, when its last refresh was issued and its MR4 last read, in
quarters of a ns (R515, R516), the DQS oscillator count last read and that from which its delays were last adjusted (R523); when the scrubber's passes of DRAM and of SRAM began, in steps (R524, R525). -/
structure MemSt where
  dram : List Host.Cell
  sram : List Host.Cell
  banks : Tab DBank
  ptr : Tab Nat
  drift : Tab Nat
  scrubAt : Nat
  scrubSram : Nat
  map : Nat
  lastRead : List Code
  arrivals : Nat
  issued : Tab Nat
  mr4At : Tab (Option Nat)
  osc : Tab Nat
  trim : Tab Nat
  scrubSince : Nat
  sramSince : Nat
  deriving DecidableEq, Repr

/-- Block MEM at reset. -/
def MemSt.zero : MemSt := ⟨[], [], [], [], [], 0, 0, 2, [], 0, [], [], [], [], 0, 0⟩

/-- An image slot of the armature pool (R62, R529): the pool units its image takes, and its length. -/
structure NvSlot where
  units : List Nat
  len : Nat
  deriving DecidableEq, Repr

/-- Block NVM: the bytes (18 a code word), the pool slots (0 to 3 store, 4 fallback, 5 pending fallback), a lock key
written once in this beat. -/
structure NvmSt where
  cells : List Host.Cell
  slots : Tab NvSlot
  keyOnce : Bool
  deriving DecidableEq, Repr

/-- Block NVM at reset. -/
def NvmSt.zero : NvmSt := ⟨[], [], false⟩

/-- An event as it goes to its ring (R587). -/
structure Event where
  ring : Nat
  code : Nat
  unit : Nat
  late : Bool
  beat : Nat
  data : BitVec 64
  deriving DecidableEq, Repr

/-- A ring (R578 to R582). `idx` is the device INDEX, `taken` the INDEX up to which entries are taken, `db` the INDEX of the
last doorbell read; `fresh` whether an event ring has events since its last message, sent at beat `msg`; `progress` whether
the device INDEX has changed since the progress page took it, as `shown` says; `hold` the doorbell reads a hold still has;
`beatTaken` the entries taken in this beat. -/
structure Ring where
  st : Nat
  gen : Nat
  base : Nat
  log2 : Nat
  progEv : Bool
  evring : Nat
  vector : Nat
  mod : Nat
  quota : Nat
  ch : Nat
  idx : Nat
  taken : Nat
  db : Nat
  fresh : Bool
  msg : Nat
  progress : Bool
  hold : Option Nat
  shown : Nat
  beatTaken : Nat
  deriving DecidableEq, Repr

/-- A ring at reset: OFF. -/
def Ring.zero : Ring := ⟨0, 0, 0, 0, false, 0, 0, 0, 0, 0, 0, 0, 0, false, 0, false, none, 0, 0⟩

/-- A command entry taken from a ring (R594), with its indirect buffer once read (`bad` where the read failed), the data at
the address it names, the beat of its pickup; `mute` where an FLR keeps its completion from being written (R576). -/
structure Cmd where
  opcode : Nat
  ev : Bool
  indirect : Bool
  tag : BitVec 32
  ops : List Byte
  buf : Option (List Byte)
  bad : Bool
  data : List Byte
  beat : Nat
  mute : Bool
  deriving DecidableEq, Repr

/-- A frame HIF holds for a to-host ring (R605): its bytes, its handle to consume, the fields of its first entry. -/
structure HFrame where
  ring : Nat
  handle : Option TWord
  bytes : List Byte
  posted : Bool
  reason : Nat
  source : Nat
  time : Nat
  prov : RunId
  deriving DecidableEq, Repr

/-- Block HIF: the rings and those adopted at the next beat start, the event store and lost counts (R590), the commands taken
and not complete, the frames held, the bytes the device has written to host memory, the MSI-X table with bit 0 of each mask
word inverted, its pending bits, the doorbell read under way, whether the rings are adopted, whether a timed-out read may
still complete, the messages sent (newest first, at most 64), whether the link is in L1, the ring instances adopted at the next
beat start, whether the last read completion of the diagnostic window bore EP (R608); the host addresses to which code words of
zeros went in write TLPs with EP set, newest first (R772); the command ring at which this beat's visits start (R593). -/
structure HifSt where
  rings : Tab Ring
  store : List Event
  lost : Tab Nat
  cmds : Tab (List Cmd)
  frames : List HFrame
  hostMem : List Host.Cell
  msix : List Host.Cell
  pba : BitVec 64
  reading : Bool
  adopted : Bool
  late : Bool
  msgs : List (Nat × Nat)
  l1 : Bool
  adopting : Tab (Option Ring)
  ep : Bool
  poisoned : List Nat
  cmdStart : Nat
  deriving DecidableEq, Repr

/-- Block HIF at reset. -/
def HifSt.zero : HifSt := ⟨[], [], [], [], [], [], [], 0, false, false, false, [], false, [], false, [], 0⟩

/-- A POISON_NOTE on its way to FLT (R507): source port, PLACE, S1, S0 and address. -/
structure Note where
  src : Nat
  place : Nat
  s1 : Byte
  s0 : Byte
  addr : Nat
  deriving DecidableEq, Repr

/-- A captured checkpoint (R680 to R682) under way: its slot, number, the bytes to write, and the mark and generation of every
key it holds. -/
structure Ckpt where
  slot : Nat
  seq : Nat
  bytes : List Byte
  marks : List (Nat × Nat × Nat)
  deriving DecidableEq, Repr

/-- Block FLT: the last 64 fault records (32 bytes each, newest first), POISON_NOTEs on their way, the journal words
written ahead of the position that the standby has acknowledged, a checkpoint under way, the blocks
restarting (100 + block until the beat start that begins it), the TB0 seconds of the last beat start, and whether a capture is due since a beat
start (R680). -/
structure FltSt where
  log : List (List Byte)
  notes : List Note
  ahead : Nat
  ckpt : Option Ckpt
  restarting : List Nat
  beatSec : Nat
  ckDue : Bool
  deriving DecidableEq, Repr

/-- Block FLT at reset. -/
def FltSt.zero : FltSt := ⟨[], [], 0, none, [], 0, false⟩

end Sys2Proof.Machine
end

