-- ==== Sys2Proof/Machine/StSys.lean ====
section
/-! DEFINITION. The state of block SYS, of power control, and of start-up (R15 to R45, R689 to R726, R740 to R747). -/

namespace Sys2Proof.Machine

/-- A power unit's state beside PWRSTAT (R689 to R698): 0 not gated, 2 Retain, 3 Off; the requested entry that waits for
Idle; the entry or wake under way; a wake that reached it during its entry. -/
structure PwrUnit where
  gate : Nat
  want : Option Nat
  entering : Option Nat
  waking : Bool
  wakeDue : Bool
  deriving DecidableEq, Repr

/-- A power unit at reset. -/
def PwrUnit.zero : PwrUnit := ⟨0, none, none, false, false⟩

/-- Where a switch node sent the last header it routed (R20, R28, R29). -/
inductive Hop where
  | none
  | row (node : Nat)
  | col (node : Nat)
  | port (p : Nat)
  | divert
  deriving DecidableEq, Repr

/-- What a packet asks of its destination (R27). -/
inductive RpOp where
  | write (addr len : Nat)
  | readReq (addr words tag : Nat)
  | readRsp (len tag : Nat)
  | qitem (ch : Nat) (arg : BitVec 16) (len : Nat)
  | event (slot flag : Nat)
  | cfgWrite (addr : Nat)
  | cfgRead (addr tag : Nat)
  | cfgRsp (tag : Nat)
  | poisonNote (place : Nat) (s1 s0 : Byte) (addr : Nat)
  deriving DecidableEq, Repr

/-- A packet on the ridge pole: its number in the order of entry, its header as forwarded, the node it has reached, the output it
needs and the input it came by, its class, source and destination places, and whether the output is sending it (R20 to R24). -/
structure RpPkt where
  id : Nat
  hdr : Code
  node : Nat
  out : Hop
  inp : Nat
  cls : Nat
  src : Nat
  dst : Nat
  going : Bool
  deriving DecidableEq, Repr

/-- The states of the boundary-scan controller (R751, IEEE 1149.1). -/
inductive TapState where
  | reset | idle
  | selectDr | captureDr | shiftDr | exit1Dr | pauseDr | exit2Dr | updateDr
  | selectIr | captureIr | shiftIr | exit1Ir | pauseIr | exit2Ir | updateIr
  deriving DecidableEq, Repr

/-- The instructions of the boundary-scan port (R751). -/
inductive TapInstr where
  | bypass | sample | extest | idcode
  deriving DecidableEq, Repr

/-- The boundary-scan port: its controller, the instruction in force, the instruction and data registers under shift (first bit out
first), and the levels latched for the covered balls. -/
structure Tap where
  state : TapState
  instr : TapInstr
  ir : List Bool
  dr : List Bool
  drive : List Bool
  deriving DecidableEq, Repr

/-- The port at reset: TRST_N is pulled low (R738), and IDCODE is in force. -/
def Tap.zero : Tap := ⟨.reset, .idcode, [], [], []⟩

/-- Block SYS and the lantern's supply: main power-good, PORST_N and PERST_N released, the level of PAIR_FENCE, THERM_N
driven low, whether the endpoint is ready (R709, R718); of the ridge pole the last SEQ taken of each port, source and class (R30), the
next SEQ of each source and class (R26), the packets on their way with the count of entries and the input last served of each output
and class (R21 to R24), the last header sent on and its way, what the last packet that arrived asks (R27), and the source places
whose diverted unit is taken again (R29, R668); power units by block and unit, the AUTO bits and slots of the boot image applied
(R711), AUTO's phase (0 none, 1 the pair-port search, 2 loading, 3 armed), when its search began and when its next TIME_REQ is due as
`TimSt.run` counts (R719), whether CASE_OVER waits for a fall of 2 °C (R744), and the
boundary-scan port (R751). -/
structure SysSt where
  powerGood : Bool
  porst : Bool
  perst : Bool
  fencePin : Bool
  therm : Bool
  ready : Bool
  seqs : Tab (Option Nat)
  sent : Tab Nat
  flight : List RpPkt
  entered : Nat
  rot : Tab Nat
  hop : Hop
  fwd : Code
  arrived : Option RpOp
  again : List Nat
  pwr : Tab PwrUnit
  autoFlags : BitVec 8
  slotAct : Nat
  slotStby : Nat
  auto : Nat
  autoAt : Nat
  autoReq : Nat
  caseOver : Bool
  tap : Tap
  deriving DecidableEq, Repr

/-- Block SYS at reset: power good, PORST_N not yet released (log 43). -/
def SysSt.zero : SysSt :=
  ⟨true, false, false, false, false, false, [], [], [], 0, [], .none, 0, none, [], [], 0, 0, 0xFF, 0, 0, 0, false, Tap.zero⟩

end Sys2Proof.Machine
end

