-- ==== Sys2Proof/Machine/StMesh.lean ====
section
/-! DEFINITION. The state of the lantern domain beside its core and its registers: the mesh radio and the link layer
(R373 to R453). -/

namespace Sys2Proof.Machine

/-- A transmission of the mesh radio: `burst` gives the pattern count of a wake burst (0 for a PPDU); `lk` when the link
controller's queue asked for it; `frame` the bytes; `clamped` once its power is set (R408, R410). -/
structure MeshTx where
  burst : Nat
  lk : Bool
  profile : Nat
  chan : Nat
  frame : List Byte
  clamped : Bool
  deriving DecidableEq, Repr

/-- What a transmission sends: nothing yet, the symbols of sweep mode as (d, φ), the bit periods of narrow mode (R382, R389), or the halves of
the Manchester bits of a wake burst, carrier or none (R411). -/
inductive MeshAir where
  | silent
  | sweep (symbols : List (Bool × Bool))
  | narrow (bits : List Bool)
  | keyed (halves : List Bool)
  deriving DecidableEq, Repr

/-- A reception: 0 none, 1 the owner waits for its sync word, 2 sync accepted, 3 header passed. With none, `endAt` is one more than
the TB4 ns at which the last one ended and `power` its frame power (R395). -/
structure MeshRx where
  phase : Nat
  power : Int
  searcher : Option Int
  restarted : Bool
  late : Bool
  syncErr : Nat
  len : Nat
  tsS : Nat
  tsNs : Nat
  endAt : Nat
  deriving DecidableEq, Repr

/-- No reception. -/
def MeshRx.zero : MeshRx := ⟨0, 0, none, false, false, 0, 0, 0, 0, 0⟩

/-- A receive vector and payload as delivered to the link controller (R397). -/
structure MeshVec where
  bytes : List Byte
  payload : List Byte
  deriving DecidableEq, Repr

/-- The mesh radio beside its registers: the transition under way, the states that held commands ask for, whether the
synthesiser settles or relocks, the transmission (`txOn` once it is on the air), the reception, the buckets of the duty
entries (61 per entry, the current one first) and their saved copy, the settings copy of R405 (record bytes 0x44 to
0x5F) and whether its record's MAGIC, VERSION and seal hold, the copy of its RWL registers, whether
the calibrations of a lantern start run (R401), the symbols or bits of the last PPDU started, and its stamp, the TB4 ns at which its
sync word leaves the port (R399). -/
structure MeshRadio where
  moving : Option Nat
  next : List Nat
  settling : Bool
  relock : Bool
  tx : Option MeshTx
  txOn : Bool
  rx : MeshRx
  cal : Option Nat
  buckets : Tab (List Nat)
  saved : Tab (List Nat)
  copy : List Byte
  copyOk : Bool
  copyRegs : Tab (BitVec 32)
  startCal : Bool
  air : MeshAir
  stamp : Nat
  deriving DecidableEq, Repr

/-- The mesh radio at a lantern reset. -/
def MeshRadio.zero : MeshRadio :=
  ⟨none, [], false, false, none, false, MeshRx.zero, none, [], [], [], false, [], false, .silent, 0⟩

/-- A neighbour entry (R431 to R439). `anchor` is the superframe of its reported anchor, `current` whether that report named
the beacon current then; `air` the air time of its last accepted frame in ns; `attempts` failed resync attempts;
`resync` while one is under way (0 none, 1 burst, 2 RESYNC sent). -/
structure Nbr where
  addr : Nat
  state : Nat
  misses : Nat
  resyncs : Nat
  d : Int
  r : Nat
  dev : Nat
  nsamp : Nat
  hi : Nat
  seen : BitVec 32
  anchor : Nat
  current : Bool
  air : Nat
  attempts : Nat
  resync : Nat
  deriving DecidableEq, Repr

/-- A free entry. -/
def Nbr.zero : Nbr := ⟨0, 0, 0, 0, 0, 0, 0, 0, 0, 0, 0, false, 0, 0, 0⟩

/-- A message that travels in the lantern: KIND, flags, node, target, sequence, time and payload of an item of R445, with
the MSEQ it arrived with. -/
structure MItem where
  kind : Nat
  flags : Nat
  mseq : Nat
  orig : Nat
  tgt : Nat
  seq : Nat
  tsS : Nat
  tsNs : Nat
  data : List Byte
  deriving DecidableEq, Repr

/-- A seen-cache entry (R442, R443): the pair, its entry time in ns, the copies overheard since a relay was scheduled, and
the pending relay: its due time, TTL, target and payload. -/
structure Seen where
  orig : Nat
  seq : Nat
  at_ : Nat
  heard : Nat
  relay : Option (Nat × Nat × Nat × List Byte)
  deriving DecidableEq, Repr

/-- A log record (R449): TYPE, FLAGS, channel, and the item. -/
structure LogRec where
  type : Nat
  flags : Nat
  ch : Nat
  item : MItem
  lseq : Nat
  deriving DecidableEq, Repr

/-- A queued command of the link controller (R453). -/
structure LkCmd where
  at_ : Nat
  op : Nat
  profile : Nat
  buf : Nat
  len : Nat
  deriving DecidableEq, Repr

/-- The window the link controller has open: for an UP_DED slot's node (with its entry's nominal start N and anchor start
P in ns) or none; whether a frame of that node was accepted in it; the SRAM buffer of an LK_CMD window; its PHY profile; the TB4 ns
at which it closes, where a rule gives one. -/
structure LkWindow where
  node : Option Nat
  nominal : Nat
  prior : Nat
  hit : Bool
  closed : Bool
  buf : Option Nat
  profile : Nat
  closes : Option Nat
  deriving DecidableEq, Repr

/-- The link layer (`timer` is the slot timer in half ns; `wrapped` says that undelivered records were overwritten):
templates LIVE, BACKUP and STAGED, the one in force, a scheduled apply (TB4 second, slot), whether the supply change asks for another template; the superframe; the node list with its MARKs; neighbours; the own counter and
its mark; the key; routes; downlink frames; frames that wait for the air; the seen cache; the mailbox; the log; the
link controller; the ACKs owed (due in TB4 ns, profile, node, echo) and the TB4 ns at which the last wake burst ended; its ports. -/
structure MeshLink where
  live : List Byte
  backup : List Byte
  staged : List Byte
  force : List Byte
  apply : Option (Nat × Nat)
  swapTo : Nat
  sfn : Nat
  nodes : Tab (Option Nat)
  nbrs : Tab Nbr
  fcnt : Nat
  mark : Nat
  key : List Byte
  routes : Tab (Option Nat)
  down : List MItem
  floods : List MItem
  floors : List Nat
  air : List MeshTx
  seen : List Seen
  open_ : Bool
  out : Tab (Option MItem)
  waiting : Tab (List MItem)
  mseq : Tab Nat
  log : List LogRec
  lseq : Nat
  delivered : Nat
  savedPtr : Tab Nat
  saveSlot : Nat
  wrapped : Bool
  timer : Nat
  queue : List LkCmd
  busy : Option LkCmd
  window : Option LkWindow
  lastRx : Option MeshVec
  acks : List (Nat × Nat × Nat × List Byte)
  burstEnd : Nat
  ports : Tab Byte
  nowLatch : Nat
  mbPos : Nat
  mbOut : List Byte
  lgBuf : List Byte
  ccBusy : Option Nat
  deriving DecidableEq, Repr

/-- The link layer of a lantern without templates, nodes or key. -/
def MeshLink.zero : MeshLink :=
  ⟨[], [], [], [], none, 0, 0, [], [], 0, 0, [], [], [], [], [], [], [], false, [], [], [], [], 0, 0, [], 0, false, 0, [], none,
   none, none, [], 0, [], 0, 0, [], [], none⟩

end Sys2Proof.Machine
end

