-- ==== Sys2Proof/Machine/StWifi.lean ====
section
/-! DEFINITION. The state of the Wi-Fi side beside its registers: transceivers, identity buses, basebands, the MAC and the
air scheduler (R217 to R372). -/

namespace Sys2Proof.Machine

/-- A transmit command at a radio (R229, R230, R257): 0 slot content, 1 immediate, 2 response; its chain set, the subchannels of the
wide channel that carry nothing, its width and format, what it is; steering and requested quarter-dBm, its start in TB5 ns and its time on the air, the
staged subframes it carries, whether it solicits a response, whether it went out clamped, and the ring and TAG of a TX_IMM; the drive
and the power set of each chain in quarter-dBm. -/
structure RfTx where
  kind : Nat
  chains : BitVec 16
  punct : BitVec 16
  bw : Nat
  format : Nat
  content : Content
  steered : Bool
  req : Int
  start : Nat
  len : Nat
  subs : List Nat
  solicits : Bool
  clamped : Bool
  tag : Option (Nat × BitVec 32)
  drives : List (Nat × Int)
  sets : List (Nat × Int)
  deriving DecidableEq, Repr

/-- A front-end line of a chain (R218). -/
inductive FeLine where
  | txen
  | paen
  | lnabyp
  deriving DecidableEq, Repr

/-- An edge on a front-end line: ns after the turnaround decision or the last sample, chain, line, the level it takes; `none` gives the
line back to gain control (R228). -/
structure FeEdge where
  ns : Nat
  chain : Nat
  line : FeLine
  level : Option Bool
  deriving DecidableEq, Repr

/-- A calibration that waits for its radio (R238): kind, place in the radio's table, the frame in which its slot began. -/
structure CalWait where
  kind : Nat
  ix : Nat
  frame : Nat
  deriving DecidableEq, Repr

/-- A transceiver: the mode in force, the transition under way and the commands that wait for it, whether its synthesiser settles or
relocks, the transmit held or on the air and the transmits that reached it meanwhile, the calibration under way and one that waits,
the channel and static puncturing in force (0: the reset channel), over-power counts, detector readings (correction, power) and
calibration temperatures by chain or kind, the die temperature, the kinds whose CAL_STALE is out; the edges of the last turnaround,
what gain control set on xLNABYPc and on chip (R273), and the stamps of the last PPDU sent by chain, in eightieths of a ns of TB0
(R291). -/
structure Radio where
  mode : Nat
  moving : Option Nat
  next : List Nat
  settling : Bool
  relock : Bool
  tx : Option RfTx
  txOn : Bool
  waitTx : List RfTx
  cal : Option Nat
  calWait : Option CalWait
  chan : W32
  punct : BitVec 16
  highs : Tab Nat
  pd : Tab (Int × Int)
  calTemp : Tab Int
  temp : Int
  startCal : Bool
  stale : List Nat
  edges : List FeEdge
  bypass : BitVec 16
  gain : BitVec 64
  stamps : List (Nat × Nat)
  deriving DecidableEq, Repr

/-- A transceiver at reset: Off. -/
def Radio.zero : Radio :=
  ⟨0, none, [], false, false, none, false, [], none, none, 0, 0, [], [], [], 0, false, [], [], 0, 0, []⟩

/-- An identity bus: the position of the memory under read, whether a re-read waits for a PPDU to finish, the level whose
1 ms runs, a bus error of the memory under read, and the records as read by address index. -/
structure IdBus where
  reading : Option Nat
  wait : Bool
  edge : Option Bool
  stuck : Bool
  recs : Tab (List Byte)
  deriving DecidableEq, Repr

/-- A bus at reset. -/
def IdBus.zero : IdBus := ⟨none, false, none, false, []⟩

/-- A reception (R273 to R289): 0 SEARCH, 1 GAIN, 2 SIGNAL, 3 DATA; the frame power; whether it came by a restart, is
trigger-based, was cut OVERLOAD, overlaps the other radio's transmit, is addressed to a BSS of the device, may be cut under
R313 (with its declared end in TB5 ns); failed codewords; the beat its bits are charged to and that beat's budget (none without an
armature); its stamp and TSF; its users as far as they are decoded. -/
structure Rx where
  state : Nat
  power : Int
  restarted : Bool
  tb : Bool
  cut : Bool
  xb : Bool
  own : Bool
  foreign : Bool
  endAt : Nat
  cwFail : Nat
  beat : Nat
  budget : Option Nat
  late : Bool
  tsf : Nat
  users : List RxVec
  deriving DecidableEq, Repr

/-- No reception. -/
def Rx.zero : Rx := ⟨0, 0, false, false, false, false, false, false, 0, 0, 0, none, false, 0, []⟩

/-- An entry of the steering store (R270): station, frame of its sounding, its steering matrices by group of 8 chains. -/
structure Steer where
  sta : Nat
  frame : Nat
  mats : List (List Byte)
  deriving DecidableEq, Repr

/-- A baseband: its reception, the vectors that its last reception delivered, the coded bits charged by beat, the steering store
(oldest first), consecutive low cancellations by chain, whether a degradation still bars STR_OK, the subchannels whose energy reaches
ED_THR. -/
structure Bb where
  rx : Rx
  vecs : List (List Byte)
  charge : List (Nat × Nat)
  steer : List Steer
  low : Tab Nat
  degraded : Bool
  energy : BitVec 16
  deriving DecidableEq, Repr

/-- A baseband at reset. -/
def Bb.zero : Bb := ⟨Rx.zero, [], [], [], [], false, 0⟩

/-- A station entry (R300): the record of STA_SET, and its device-held power state: 0 active, 1 power-save, 2 TWT. -/
structure Sta where
  record : List Byte
  power : Nat
  deriving DecidableEq, Repr

/-- A key table entry (R329 to R336): generation, suite, key, its station or BSS, transmit packet number, reservation mark,
whether it was used in the beat, last accepted packet numbers by TID (16 for management); the engine and local word that
took its handle; the number a checkpoint holds it below (R682); whether a restore guards its receiver (R683); the mirrored
frame that carries its mark (R639). -/
structure KeyE where
  used : Bool
  gen : Nat
  suite : Nat
  key : List Byte
  owner : Nat
  pn : Nat
  mark : Nat
  busy : Bool
  rx : Tab Nat
  te : Nat
  word : Nat
  limit : Option Nat
  guard : Bool
  sent : Nat
  deriving DecidableEq, Repr

/-- A free entry. -/
def KeyE.zero : KeyE := ⟨false, 0, 0, [], 0, 0, 0, false, [], 0, 0, none, false, 0⟩

/-- A received MPDU: sequence and packet number, station, TID (16 for management), key entry, whether its MIC held, its
bytes, its arrival in TB0 ns, its radio. -/
structure Mpdu where
  seq : Nat
  pn : Nat
  sta : Nat
  tid : Nat
  key : Option Nat
  mic : Bool
  bytes : List Byte
  at_ : Nat
  radio : Nat
  deriving DecidableEq, Repr

/-- A receive agreement (R319 to R322): buffer size, window start, held MPDUs, passed holes with the packet numbers on
either side, the packet number delivered last. -/
structure BaRx where
  size : Nat
  start : Nat
  held : List Mpdu
  holes : List (Nat × Nat × Nat)
  lastPn : Nat
  deriving DecidableEq, Repr

/-- A transmit agreement: buffer size, starting sequence number. -/
structure BaTx where
  size : Nat
  start : Nat
  deriving DecidableEq, Repr

/-- A subframe in a staging buffer (R323 to R327, R331, R333): its number, write position and staged bytes; station, TID,
BSS; group-addressed, management, end of A-MPDU; home copy and its length; key entry and generation; sequence and packet
number; times sent; on the air; the beat of its loss; whether null delimiters went in its place; whether it waits for a
reservation; the TB0 ns from which it may go out again; the run while provisional; the protected body. -/
structure Sub where
  id : Nat
  off : Nat
  len : Nat
  sta : Nat
  tid : Nat
  bss : Nat
  group : Bool
  mgmt : Bool
  last : Bool
  home : Nat
  bytes : Nat
  key : Option (Nat × Nat)
  seq : Nat
  pn : Nat
  tries : Nat
  air : Bool
  lost : Option Nat
  nulled : Bool
  wait : Bool
  ready : Nat
  prov : RunId
  body : List Byte
  deriving DecidableEq, Repr

/-- A radio's staging buffer: the write position since reset and the subframes in writing order. -/
structure Stg where
  w : Nat
  subs : List Sub
  deriving DecidableEq, Repr

/-- A slot that a sequencer has opened: radio-table entry, beat, its start in TB5 ns, whether it waits for the medium,
whether it waits under R314. -/
structure SlotRun where
  slot : Slot
  beat : Nat
  at_ : Nat
  waiting : Bool
  nstr : Bool
  deriving DecidableEq, Repr

/-- A sounding exchange (R269): the stations announced, the NDPs it takes and those sent, the frame of the first, and the feedback so
far by station and NDP. -/
structure Sound where
  stas : List Nat
  need : Nat
  sent : Nat
  frame : Nat
  parts : List (Nat × Nat × List Byte)
  deriving DecidableEq, Repr

/-- A sequencer: NAV of another BSS, the slot open, the subframes whose response is awaited, the end of the last PPDU that
asked for one (R364), a response owed, attempts that
timed out with their response still possible, backoff counters by access category, those that stay at 0 until the next CONT slot (R312),
the sounding under way. -/
structure Seq where
  nav : Bool
  slot : Option SlotRun
  await : Option (List Nat)
  sentAt : BitVec 60
  owe : Bool
  lateSubs : List Nat
  backoff : Tab (Option Nat)
  parked : List Nat
  sound : Option Sound
  deriving DecidableEq, Repr

/-- A sequencer at reset. -/
def Seq.zero : Seq := ⟨false, none, none, 0, false, [], [], [], none⟩

/-- A TWT binding (R316): agreement or schedule, broadcast, station or BSS, the slot it names. -/
structure Twt where
  agr : Nat
  bcast : Bool
  owner : Nat
  radio : Nat
  beat : Nat
  start : Nat
  every : Nat
  phase : Nat
  deriving DecidableEq, Repr

/-- A frame in a queue (R341): home copy, length, ENTRY, lost opportunities, whether reported PENDING, its run, and the sequence
and packet number that a takeover found for it (R677). -/
structure QFrame where
  home : Nat
  len : Nat
  entry : BitVec 60
  lost : Nat
  reported : Bool
  prov : RunId
  nums : Option (Nat × Nat)
  deriving DecidableEq, Repr

/-- A picked frame until its home copy is released: its queue, tag and frame (R352, R354, R364). -/
structure Picked where
  queue : Nat
  tag : BitVec 64
  f : QFrame
  deriving DecidableEq, Repr

/-- Content of a missed slot until it goes into the next eligible one (R309): KIND, radio, frame or grant. -/
structure Carried where
  kind : Nat
  radio : Nat
  p : Picked
  deriving DecidableEq, Repr

/-- Block WMAC: stations, agreements by 16 × station + TID, keys (group entries from 4096), sequence numbers, staging,
sequencers, bindings, beacon templates, the last beacon that each BSS sent, DTIM counts, the next subframe number, the content that missed slots carry on (R309), the end
in TB0 ns of the PPDU whose MPDUs are delivered (R364). -/
structure Wmac where
  stas : Tab (Option Sta)
  baRx : Tab (Option BaRx)
  baTx : Tab (Option BaTx)
  keys : Tab KeyE
  seqs : Tab Nat
  stg : Tab Stg
  sq : Tab Seq
  twts : List Twt
  beacons : Tab (List Byte)
  built : Tab (List Byte)
  dtim : Tab Nat
  nextSub : Nat
  carried : List Carried
  airEnd : Nat
  deriving DecidableEq, Repr

/-- Block WMAC at reset. -/
def Wmac.zero : Wmac := ⟨[], [], [], [], [], [], [], [], [], [], [], 0, [], 0⟩

/-- The attributes of a queue (R340); 0xFFF for no shaper or policer. -/
structure QAttr where
  cls : Nat
  weight : Nat
  shaper : Nat
  policer : Nat
  limit : Nat
  radio : Nat
  deriving DecidableEq, Repr

/-- An open bounded uplink unit (R364): reported bytes still to come, the report's instant in TB0 ns, losses, reported. -/
structure UpUnit where
  left : Nat
  at_ : Nat
  lost : Nat
  reported : Bool
  deriving DecidableEq, Repr

/-- A queue: attributes and pending ones, downlink frames, the head's tag, the reported uplink backlog, open uplink units,
lost opportunities in the frame under way and the one before. -/
structure AQueue where
  attr : QAttr
  pend : Option QAttr
  frames : List QFrame
  tag : Option (BitVec 64)
  backlog : Nat
  units : List UpUnit
  lostNow : Nat
  lostPrev : Nat
  deriving DecidableEq, Repr

/-- A queue at reset: class 0, weight 1, no shaper, no policer, 4 KiB (log 3). -/
def AQueue.zero : AQueue := ⟨⟨0, 1, 0xFFF, 0xFFF, 4, 0⟩, none, [], none, 0, [], 0, 0⟩

/-- A shaper or policer (R356, R360): IDLE, HI, LO, ACTION, the credit in mB, a pending change. -/
structure Shaper where
  idle : Nat
  hi : Nat
  lo : Int
  action : Nat
  credit : Int
  pend : Option (Nat × Nat × Int × Nat)
  deriving DecidableEq, Repr

/-- A shaper at reset: the lowest IDLE, empty bounds (log 3). -/
def Shaper.zero : Shaper := ⟨1, 0, 0, 0, 0, none⟩

/-- A pick for a slot (R350): radio, beat, START, KIND, the armature it was made against, the frames and grants, and the content
of missed slots that goes along (R309, R353). -/
structure Pick where
  radio : Nat
  beat : Nat
  start : Nat
  kind : Nat
  armId : Nat
  frames : List Picked
  along : List Picked
  deriving DecidableEq, Repr

/-- A template bank (R347, R348): the words CAP (key 16 × template) and class c (key 16 × template + 1 + c), whether
software wrote it, and its tag. -/
structure TplBank where
  words : Tab W32
  written : Bool
  tag : Option Nat
  deriving DecidableEq, Repr

/-- An empty bank. -/
def TplBank.zero : TplBank := ⟨[], false, none⟩

/-- Block ASCH: queues, class virtual times, shapers, policers, template banks (R347), picks, picked frames in WMAC's
hands, allocated buffers by pool with their run,
frees of runs not yet committed, sample rows under way (frame, LATE, samples), the oldest first; the armature that the next
beat's picks expect, and whether this beat's expected another (R350). -/
structure Asch where
  queues : Tab AQueue
  v : Tab (BitVec 64)
  shapers : Tab Shaper
  policers : Tab Shaper
  tpl0 : TplBank
  tpl1 : TplBank
  picks : List Pick
  picked : List Picked
  pool0 : Tab (Option RunId)
  pool1 : Tab (Option RunId)
  freeing : List (RunId × Nat × Nat)
  rows : List (Nat × Bool × List Byte)
  expect : Option Nat
  voided : Bool
  deriving DecidableEq, Repr

/-- Block ASCH at reset. -/
def Asch.zero : Asch := ⟨[], [], [], [], TplBank.zero, TplBank.zero, [], [], [], [], [], [], none, false⟩

end Sys2Proof.Machine
end

