-- ==== Sys2Proof/Machine/StNet.lean ====
section
/-! DEFINITION. The state of the uplinks and of the router beside their registers (R454 to R499). -/

namespace Sys2Proof.Machine

/-- A frame's record, kept at its head cell (R477, R494): GEN, REFCNT, OFFSET, LEN, further cells, the spill slot that
holds its copy, the slot a copy is being written to, source port (5 for none) and PCP. -/
structure Head where
  gen : Nat
  ref : Nat
  off : Nat
  len : Nat
  cells : List Nat
  spill : Option Nat
  copying : Option Nat
  port : Nat
  pcp : Nat
  deriving DecidableEq, Repr

/-- A head cell no frame has used. -/
def Head.zero : Head := ⟨0, 0, 0, 0, [], none, none, 5, 0⟩

/-- A parsed frame in an intake queue (R481, R482): its head cell, the words of its parse record after the handle, whether a
policer marked it (R360) and whether it came late (R322). -/
structure Parsed where
  head : Nat
  words : List TWord
  marked : Bool
  late : Bool
  deriving DecidableEq, Repr

/-- A frame on its way to an intake queue (R481): its head cell, source 0 uplink, 1 air, 2 host, port or station, PCP or
TID, its ENTRY, TSTAG with TSREQ of a host frame; UFLAGS bit 7 (R360) and FLAGS.LATE (R322) of an MSDU from the air. -/
structure Arrive where
  head : Nat
  source : Nat
  port : Nat
  pcp : Nat
  entry : BitVec 60
  ts : Nat
  marked : Bool
  late : Bool
  deriving DecidableEq, Repr

/-- A change of references that waits for its run's commit (R477, R661): references taken, or one consumed. -/
structure RefAct where
  run : RunId
  head : Nat
  add : Nat
  deriving DecidableEq, Repr

/-- Block RTE: head records, cells in use, intake queues, frames that WMAC delivers, frames pulled by runs not yet
committed (run, queue, frame), reference changes of such runs, the operative LAG maps by 16 × group + word, wired policers,
the ager's table and entry, spill slots in use, whether RTE spills. -/
structure Rte where
  heads : Tab Head
  used : Tab Bool
  intake : Tab (List Parsed)
  air : List Arrive
  pulled : List (RunId × Nat × Parsed)
  acts : List RefAct
  lag : Tab W32
  pol : Tab Shaper
  ageTbl : Nat
  ageAt : Nat
  slots : Tab Bool
  spilling : Bool
  deriving DecidableEq, Repr

/-- Block RTE at reset. -/
def Rte.zero : Rte := ⟨[], [], [], [], [], [], [], [], 0, 0, [], false⟩

/-- A frame in a transmit queue (R458, R484): its head cell, length, TSREQ, TSTAG, its bytes where SENDV edited them, its run
while provisional. -/
structure TxEnt where
  head : Nat
  len : Nat
  tsreq : Bool
  tstag : Nat
  edited : Option (List Byte)
  prov : RunId
  deriving DecidableEq, Repr

/-- A gate list (R467): gate states with their intervals, the cycle, the start of its first cycle in TB0 ns. -/
structure Gates where
  list : List (Nat × Nat)
  cycle : Nat
  start : Nat
  deriving DecidableEq, Repr

/-- A port: transmit queues, what it sends (1 a frame, 2 a pause frame), shaper credits, for each priority in pause the TB0 ns since when and
until when (R462, R464), for each priority whose pause is ignored until when, operating and pending gate list, a CHANGE not yet taken,
transmit stamps in ns with their tags, low-power idle (0 active, 1 idle, 2 waking), when its queues fell empty and when its wake ends (R470),
priorities whose pause the port has sent, when it last sent one (R466), a pause frame due, frames ignored by priority, and the shapers'
RATE and BND words in force (R358, R461). -/
structure UPort where
  queues : Tab (List TxEnt)
  busy : Nat
  cur : Option TxEnt
  credit : Tab Int
  paused : Tab (Nat × Nat)
  ignoreTo : Tab Nat
  oper : Option Gates
  next : Option Gates
  change : Bool
  stamps : List (Nat × Nat)
  lpi : Nat
  emptyAt : Nat
  wakeAt : Nat
  pauseSent : BitVec 8
  pauseAt : Nat
  pauseDue : Bool
  ignored : Tab Nat
  shp : Tab (W32 × W32)
  deriving DecidableEq, Repr

/-- A port at reset. -/
def UPort.zero : UPort := ⟨[], 0, none, [], [], [], none, none, false, [], 0, 0, 0, 0, 0, false, [], []⟩

end Sys2Proof.Machine
end

