-- ==== Sys2Proof/Machine/StChn.lean ====
section
/-! DEFINITION. The state of block CHN beside its registers: camp bus, pegging, guy lines, pair roles, tokens, takeover and
configuration commits (R611 to R658). -/

namespace Sys2Proof.Machine

/-- A camp frame handed to the transmitter, under its SEQ (R612): its bytes, the attempts made, the end of the back-off it waits for, as
`TimSt.run` counts. -/
structure CampTx where
  bytes : List Byte
  tries : Nat
  wait : Option Nat
  deriving DecidableEq, Repr

/-- A guy-line frame (R624, R625). -/
structure GFrame where
  type : Nat
  enc : Bool
  final : Bool
  arg : Nat
  payload : List Code
  deriving DecidableEq, Repr

/-- A guy-line port (R626): the next SEQ it sends, the SEQ it expects, the sequenced frames not acknowledged with their SEQ,
the ones that wait for room, failures in a row of the oldest, the last frame sent of each type that bears no SEQ, and when the oldest
last made progress or was sent again, as `TimSt.run` counts. -/
structure Guy where
  tx : Nat
  rx : Nat
  unacked : List (Nat × GFrame)
  waiting : List GFrame
  fails : Nat
  sent : Tab (Option GFrame)
  since : Nat
  deriving DecidableEq, Repr

/-- A port at reset. -/
def Guy.zero : Guy := ⟨0, 0, [], [], 0, [], 0⟩

/-- What a unit's last GEN published (R615, R654). -/
structure Peer where
  gen : Nat
  sl : Nat
  staged : Nat
  flags : Nat
  role : Nat
  grp : Nat
  deriving DecidableEq, Repr

/-- A unit not heard. -/
def Peer.zero : Peer := ⟨0, 0, 0, 0, 0, 0⟩

/-- The last TOKEN (R637): its beat, generation, profile, SEAL_PENDING, seal, ARM_ID, journal position and TSFs. -/
structure Token where
  beat : Nat
  gen : Nat
  profile : Nat
  pending : Bool
  sl : Nat
  armId : Nat
  pos : Nat
  tsf : List Nat
  deriving DecidableEq, Repr

/-- A mirrored journal record: TYPE, ARG, payload bytes (R672). -/
structure MRec where
  type : Nat
  arg : Nat
  bytes : List Byte
  deriving DecidableEq, Repr

/-- Block CHN. `seq` and `camp`: the camp transmitter. `taken`, `cand`, `forced`, `enumIn`, `enumOut`: pegging (R618 to R622).
`pegStep`: when start-up's step 7 began; `pegEnds`: the
end of the 1 ms wait after the last PEG; `roleAt`: when the next ROLE is due; `waitAt`: when the wait of R630 began (all as `TimSt.run`
counts). `since`: the active-since beat; `partner`: the role the partner last reported; `joined`: the partner joined as standby.
`window`: the fence-test window a unit named, open or to come; `tested`: PAIR_FENCE seen high in it; `pulse`: the instant a
standby pulses at. `token`, `gotToken`, `gotStoken`, `stokMiss`: tokens; `fenceBar`, `keysBar`, `lagBar`: INELIG bits that are
no function of other state; `tsfAt`: the TSFs at this beat's start. `query`: the instant a takeover began its query; `grace`: beats left under R644; `beacons`: radios that owe a takeover's beacons; `switchAt`: the
frame of a planned changeover. `commit`: generation and beat of a scheduled commit; `announced`: of one announced (R654).
`cfgBuf`: bytes received in CFG frames by kind; `recs`: mirrored records not yet closed. `sentN`, `ackN`, `holds`: mirrored
frames sent and acknowledged, and per queue the frame that carries its last output's record (R639). `marks`: journal
positions of the beats not yet acknowledged; `degraded`: payloads withheld (R636). `portsOff`: a fenced unit's uplink
transmitters are off (R632). -/
structure ChnSt where
  seq : Nat
  camp : Tab (Option CampTx)
  taken : List Nat
  cand : Option Nat
  forced : Bool
  enumIn : Bool
  enumOut : Bool
  pegStep : Nat
  pegEnds : Nat
  roleAt : Nat
  waitAt : Nat
  peers : Tab (Option Peer)
  guy : Tab Guy
  since : Nat
  partner : Nat
  joined : Bool
  window : Option Nat
  tested : Bool
  pulse : Option Nat
  token : Option Token
  gotToken : Bool
  gotStoken : Bool
  stokMiss : Nat
  peerInelig : Nat
  fenceBar : Bool
  keysBar : Bool
  lagBar : Bool
  tsfAt : List Nat
  query : Option Nat
  grace : Nat
  beacons : List Nat
  switchAt : Option Nat
  commit : Option (Nat × Nat)
  announced : Option (Nat × Nat)
  cfgBuf : Tab (List Host.Cell)
  recs : List MRec
  sentN : Nat
  ackN : Nat
  holds : Tab Nat
  marks : List Nat
  degraded : Bool
  portsOff : Bool
  deriving DecidableEq, Repr

/-- Block CHN at reset. -/
def ChnSt.zero : ChnSt :=
  { seq := 0, camp := [], taken := [], cand := none, forced := false, enumIn := false, enumOut := false, pegStep := 0, pegEnds := 0,
    roleAt := 0, waitAt := 0, peers := [], guy := [], since := 0, partner := 0, joined := false, window := none, tested := false, pulse := none,
    token := none, gotToken := false, gotStoken := false, stokMiss := 0, peerInelig := 0, fenceBar := true, keysBar := true,
    lagBar := false, tsfAt := [], query := none, grace := 0, beacons := [], switchAt := none,
    commit := none, announced := none, cfgBuf := [], recs := [], sentN := 0, ackN := 0, holds := [], marks := [],
    degraded := false, portsOff := false }

end Sys2Proof.Machine
end

