-- ==== Sys2Proof/Machine/Mach.lean ====
section
/-! DEFINITION. The machine: everything the spec gives the block, without the queue of waiting commands. -/

namespace Sys2Proof.Machine

/-- The state of the device. `regs` holds every register under its BAR0 address, an unlisted one at its reset value;
`stage` the staged copies of R651; `free` counts the free values used; `answer` is the data of the last read. -/
structure Mach where
  regs : Tab W32
  stage : Tab W32
  free : Nat
  answer : W32
  sys : SysSt
  arm : ArmSt
  te : Tab Te
  lc : Lc
  dsp : Tab DspTe
  chans : Tab Chan
  mem : MemSt
  nvm : NvmSt
  tim : TimSt
  hif : HifSt
  flt : FltSt
  mrad : MeshRadio
  mlink : MeshLink
  radios : Tab Radio
  idbus : Tab IdBus
  bbs : Tab Bb
  wmac : Wmac
  asch : Asch
  rte : Rte
  upl : Tab UPort
  chn : ChnSt
  deriving DecidableEq, Repr

/-- The device right after reset: every register at its reset value, every store empty. -/
def Mach.reset : Mach :=
  ⟨[], [], 0, 0, SysSt.zero, ArmSt.zero, [], Lc.zero, [], [], MemSt.zero, NvmSt.zero, TimSt.zero, HifSt.zero,
   FltSt.zero, MeshRadio.zero, MeshLink.zero, [], [], [], Wmac.zero, Asch.zero,
   Rte.zero, [], ChnSt.zero⟩

/-! ### Registers -/

/-- A register's live value. -/
def Mach.reg (m : Mach) (a : Nat) : W32 := tabGet (regReset a) m.regs a

/-- The device with a register set. -/
def Mach.setReg (m : Mach) (a : Nat) (v : W32) : Mach := { m with regs := tabSet (regReset a) m.regs a v }

/-- The value of a field in a word. -/
def getFld (v : W32) (f : Fld) : Nat := (v.toNat / 2 ^ f.lo) % 2 ^ (f.hi + 1 - f.lo)

/-- A word with a field replaced by `n` modulo the field's size. -/
def putFld (v : W32) (f : Fld) (n : Nat) : W32 :=
  BitVec.ofNat 32 (v.toNat - getFld v f * 2 ^ f.lo + (n % 2 ^ (f.hi + 1 - f.lo)) * 2 ^ f.lo)

/-- Read a field of a register. -/
def Mach.rd (m : Mach) (a : Nat) (f : Fld) : Nat := getFld (m.reg a) f

/-- Set a field of a register. -/
def Mach.wr (m : Mach) (a : Nat) (f : Fld) (n : Nat) : Mach := m.setReg a (putFld (m.reg a) f n)

/-- Whether a one-bit field is set. -/
def Mach.bit (m : Mach) (a : Nat) (f : Fld) : Bool := m.rd a f != 0

/-- The largest value of a field. -/
def Fld.top (f : Fld) : Nat := 2 ^ (f.hi + 1 - f.lo) - 1

/-- Add to a saturating counter field. -/
def Mach.count (m : Mach) (a : Nat) (f : Fld) (k : Nat := 1) : Mach := m.wr a f (satAdd f.top (m.rd a f) k)

/-- A 64-bit value held in two registers. -/
def Mach.reg64 (m : Mach) (lo hi : Nat) : Nat := (m.reg lo).toNat + 2 ^ 32 * (m.reg hi).toNat

/-- Set two registers to a 64-bit value. -/
def Mach.setReg64 (m : Mach) (lo hi : Nat) (v : Nat) : Mach :=
  (m.setReg lo (BitVec.ofNat 32 v)).setReg hi (BitVec.ofNat 32 (v / 2 ^ 32))

/-! ### Sub-states -/

/-- The data of a read, left as the answer. -/
def Mach.setAnswer (m : Mach) (v : W32) : Mach := { m with answer := v }
/-- A change of the staged copies. -/
def Mach.stageMod (m : Mach) (f : Tab W32 → Tab W32) : Mach := { m with stage := f m.stage }
/-- Registers that do not satisfy `p` take their reset values. -/
def Mach.keepRegs (m : Mach) (p : Nat → Bool) : Mach := { m with regs := m.regs.filter fun e => p e.1 }
def Mach.sysMod (m : Mach) (f : SysSt → SysSt) : Mach := { m with sys := f m.sys }
def Mach.armMod (m : Mach) (f : ArmSt → ArmSt) : Mach := { m with arm := f m.arm }
def Mach.memMod (m : Mach) (f : MemSt → MemSt) : Mach := { m with mem := f m.mem }
def Mach.nvmMod (m : Mach) (f : NvmSt → NvmSt) : Mach := { m with nvm := f m.nvm }
def Mach.timMod (m : Mach) (f : TimSt → TimSt) : Mach := { m with tim := f m.tim }
def Mach.hifMod (m : Mach) (f : HifSt → HifSt) : Mach := { m with hif := f m.hif }
def Mach.fltMod (m : Mach) (f : FltSt → FltSt) : Mach := { m with flt := f m.flt }
def Mach.chnMod (m : Mach) (f : ChnSt → ChnSt) : Mach := { m with chn := f m.chn }
def Mach.lcMod (m : Mach) (f : Lc → Lc) : Mach := { m with lc := f m.lc }
def Mach.mradMod (m : Mach) (f : MeshRadio → MeshRadio) : Mach := { m with mrad := f m.mrad }
def Mach.mlinkMod (m : Mach) (f : MeshLink → MeshLink) : Mach := { m with mlink := f m.mlink }
def Mach.getTe (m : Mach) (n : Nat) : Te := tabGet Te.zero m.te n
def Mach.setTe (m : Mach) (n : Nat) (t : Te) : Mach := { m with te := tabSet Te.zero m.te n t }
def Mach.teMod (m : Mach) (n : Nat) (f : Te → Te) : Mach := m.setTe n (f (m.getTe n))
def Mach.getDsp (m : Mach) (n : Nat) : DspTe := tabGet DspTe.zero m.dsp n
def Mach.setDsp (m : Mach) (n : Nat) (d : DspTe) : Mach := { m with dsp := tabSet DspTe.zero m.dsp n d }
def Mach.dspMod (m : Mach) (n : Nat) (f : DspTe → DspTe) : Mach := m.setDsp n (f (m.getDsp n))
def Mach.getChan (m : Mach) (n : Nat) : Chan := tabGet Chan.zero m.chans n
def Mach.setChan (m : Mach) (n : Nat) (c : Chan) : Mach := { m with chans := tabSet Chan.zero m.chans n c }
def Mach.getRing (m : Mach) (r : Nat) : Ring := tabGet Ring.zero m.hif.rings r
def Mach.setRing (m : Mach) (r : Nat) (x : Ring) : Mach := m.hifMod fun h => { h with rings := tabSet Ring.zero h.rings r x }
def Mach.getBase (m : Mach) (k : Nat) : Base := tabGet Base.zero m.tim.tb k
def Mach.setBase (m : Mach) (k : Nat) (b : Base) : Mach := m.timMod fun t => { t with tb := tabSet Base.zero t.tb k b }

def Mach.getRadio (m : Mach) (x : Nat) : Radio := tabGet Radio.zero m.radios x
def Mach.radioMod (m : Mach) (x : Nat) (f : Radio → Radio) : Mach :=
  { m with radios := tabSet Radio.zero m.radios x (f (m.getRadio x)) }
def Mach.getBus (m : Mach) (k : Nat) : IdBus := tabGet IdBus.zero m.idbus k
def Mach.busMod (m : Mach) (k : Nat) (f : IdBus → IdBus) : Mach := { m with idbus := tabSet IdBus.zero m.idbus k (f (m.getBus k)) }
def Mach.getBb (m : Mach) (x : Nat) : Bb := tabGet Bb.zero m.bbs x
def Mach.bbMod (m : Mach) (x : Nat) (f : Bb → Bb) : Mach := { m with bbs := tabSet Bb.zero m.bbs x (f (m.getBb x)) }
def Mach.wmacMod (m : Mach) (f : Wmac → Wmac) : Mach := { m with wmac := f m.wmac }
def Mach.aschMod (m : Mach) (f : Asch → Asch) : Mach := { m with asch := f m.asch }
def Mach.rteMod (m : Mach) (f : Rte → Rte) : Mach := { m with rte := f m.rte }
def Mach.getPort (m : Mach) (p : Nat) : UPort := tabGet UPort.zero m.upl p
def Mach.portMod (m : Mach) (p : Nat) (f : UPort → UPort) : Mach :=
  { m with upl := tabSet UPort.zero m.upl p (f (m.getPort p)) }
def Mach.getSq (m : Mach) (x : Nat) : Seq := tabGet Seq.zero m.wmac.sq x
def Mach.sqMod (m : Mach) (x : Nat) (f : Seq → Seq) : Mach :=
  m.wmacMod fun w => { w with sq := tabSet Seq.zero w.sq x (f (m.getSq x)) }

/-- Do `f` only when a condition holds. -/
def Mach.when (m : Mach) (c : Bool) (f : Mach → Mach) : Mach := if c then f m else m

/-- Apply an operation for every element of a list in order. -/
def Mach.forEach {α : Type} (m : Mach) : List α → (Mach → α → Mach) → Mach
  | [], _ => m
  | x :: r, f => (f m x).forEach r f

/-- A free value (log 5), and the device with the use counted. -/
def Mach.freeVal (m : Mach) : BitVec 64 × Mach := (Config.free64 m.free, { m with free := m.free + 1 })

/-- A drawn number below `k` (log 6), and the device with the use counted. -/
def Mach.drawBelow (m : Mach) (k : Nat) : Nat × Mach := (Config.draw m.free % k, { m with free := m.free + 1 })

end Sys2Proof.Machine
end

