-- ==== Sys2Proof/Machine/GuyBase.lean ====
section
/-! DEFINITION. Sending on the guy lines, and what the active mirrors to its standby (R625, R626, R629, R639, R674). -/

namespace Sys2Proof.Machine

def Mach.getGuy (m : Mach) (p : Nat) : Guy := tabGet Guy.zero m.chn.guy p
def Mach.guyMod (m : Mach) (p : Nat) (f : Guy → Guy) : Mach :=
  m.chnMod fun c => { c with guy := tabSet Guy.zero c.guy p (f (m.getGuy p)) }

/-- The unit's role (R629). -/
def Mach.role (m : Mach) : Nat := m.rd CHN_STAT fCHN_STAT_ROLE

/-- The pair ports that are up (R629). -/
def Mach.pairPorts (m : Mach) : List Nat :=
  [0, 1].filter fun p => m.bit (CHN_GUYp_STAT p) fCHN_GUYp_STAT_UP && m.bit (CHN_GUYp_STAT p) fCHN_GUYp_STAT_PAIR

/-- Whether frames of a type bear a SEQ (R625). -/
def sequenced (t : Nat) : Bool := decide (6 ≤ t ∧ t ≤ 9)

/-- Give SEQs to the frames that wait, while fewer than 256 are unacknowledged (R626). -/
def Guy.pump : Nat → Guy → Guy
  | 0, g => g
  | k + 1, g => match g.waiting with
    | f :: r => if g.unacked.length < 256 then
        Guy.pump k { g with tx := (g.tx + 1) % 4096, unacked := g.unacked ++ [(g.tx, f)], waiting := r } else g
    | [] => g

/-- Hand a frame to a port (R625, R626). -/
def Mach.guySend (m : Mach) (p : Nat) (f : GFrame) : Mach :=
  m.guyMod p fun g =>
    if sequenced f.type then
      let x := Guy.pump 1 { g with waiting := g.waiting ++ [f] }
      if g.unacked = [] then { x with since := m.tim.run } else x
    else { g with sent := tabSet none g.sent f.type (some f) }

/-- Whether the unit mirrors: ACTIVE, with a partner in STANDBY on a pair port that is up (R635, R674). -/
def Mach.mirrors (m : Mach) : Bool := m.role == 2 && m.chn.partner == 4 && !m.pairPorts.isEmpty

/-- Send sequenced frames to the standby: by the first pair port that is up (log 33). -/
def Mach.toStandby (m : Mach) (f : GFrame) : Mach :=
  match m.pairPorts with
  | p :: _ => (m.guySend p f).chnMod fun c => { c with sentN := c.sentN + 1 }
  | [] => m

/-- Cut words into frames of at most 64 (R624). -/
def cut64 : Nat → List Code → List (List Code)
  | 0, _ => []
  | _ + 1, [] => []
  | k + 1, l => l.take 64 :: cut64 k (l.drop 64)

/-- Mirror a record: COMMIT_TASK and OUTCOMMIT records in COMMIT frames, others in MIRROR frames (R674). -/
def Mach.mirror (m : Mach) (type : Nat) (words : List Code) : Mach :=
  if m.mirrors then
    m.forEach (cut64 (words.length + 1) words) fun x w =>
      x.toStandby ⟨if type = 4 ∨ type = 0x0A then 6 else 7, false, false, 0, w⟩
  else m

/-- Whether a planned changeover stops the outputs (R649). -/
def Mach.switching (m : Mach) : Bool := m.chn.switchAt.any fun f => decide (f ≤ m.tim.beat.toNat / 4)

/-- Whether a queue's next output must wait: for the standby to acknowledge the record of the one before, or for a planned
changeover (R639, R649). -/
def Mach.held (m : Mach) (q : Nat) : Bool := m.switching || m.mirrors && decide (m.chn.ackN < tabGet 0 m.chn.holds q)

/-- Note the frame that carries a queue's last output record (R639). -/
def Mach.holdOn (m : Mach) (q : Nat) : Mach :=
  if m.mirrors then m.chnMod fun c => { c with holds := tabSet 0 c.holds q c.sentN } else m

/-- The number under which ring `r` keeps its hold: the queues of ASCH stand below (R639, R646). -/
def ringKey (r : Nat) : Nat := 0x10000 + r

end Sys2Proof.Machine
end

