-- ==== Sys2Proof/Machine/Ops.lean ====
section
/-! DEFINITION. The named operations that every block shares: BLKFAULT reports (R763), events to the host (R587 to
R591, R768), the stores under the common code (R502 to R510), fault records and the journal (R670 to R674, R684, R685),
and TE local memory (R110, R111, R664). -/

namespace Sys2Proof.Machine

/-! ### Reports -/

/-- The kinds of BLKFAULT reports (R763). -/
def kLocked : Nat := 1
def kIgnored : Nat := 2
def kRefused : Nat := 3
def kSeqGap : Nat := 4
def kNoted : Nat := 5

/-- Record a report in a block's BLKFAULT (R763). -/
def Mach.report (m : Mach) (blk kind info : Nat) : Mach :=
  ((m.count (BLKFAULT blk) fBLKFAULT_COUNT).wr (BLKFAULT blk) fBLKFAULT_KIND kind).wr (BLKFAULT blk) fBLKFAULT_INFO info

/-- Report a write that a rule ignores: INFO is the block offset of the register (R763). -/
def Mach.ignored (m : Mach) (a : Nat) : Mach := m.report (a / 0x10000) kIgnored (a % 0x10000)

/-! ### Beats -/

/-- The beat number in force. -/
def Mach.beat (m : Mach) : Nat := m.tim.beat.toNat

/-- The beat period in ns (R46). -/
def Mach.beatNs (m : Mach) : Nat := 128000 * 2 ^ m.rd ARM_PLINTH fARM_PLINTH_PERIOD

/-- Whether an armature runs (ARM_STAT.ACT_VALID). -/
def Mach.actValid (m : Mach) : Bool := m.bit ARM_STAT fARM_STAT_ACT_VALID

/-- Whether the device is in Hold (R83). -/
def Mach.inHold (m : Mach) : Bool := m.bit ARM_STAT fARM_STAT_HOLD

/-- The active bank's number. -/
def Mach.actBank (m : Mach) : Nat := m.rd ARM_STAT fARM_STAT_ACTIVE_BANK

/-- A bank's content. -/
def Mach.bankOf (m : Mach) (b : Nat) : Bank := if b = 0 then m.arm.bank0 else m.arm.bank1

/-- The active armature. -/
def Mach.act (m : Mach) : Bank := m.bankOf m.actBank

/-- The shadow bank's number. -/
def Mach.shdBank (m : Mach) : Nat := 1 - m.actBank

/-- The shadow bank's content. -/
def Mach.shd (m : Mach) : Bank := m.bankOf m.shdBank

/-- Replace a bank's content. -/
def Mach.setBank (m : Mach) (b : Nat) (x : Bank) : Mach :=
  m.armMod fun a => if b = 0 then { a with bank0 := x } else { a with bank1 := x }

/-- The beat index under the active armature (R49). -/
def Mach.bidx (m : Mach) : Nat := m.beat % (4 * m.act.cycle)

/-- The schedule frame of the current beat (R48). -/
def Mach.frame (m : Mach) : Nat := m.beat / 4

/-! ### Time -/

/-- Nanoseconds of a base since its epoch. -/
def Base.nsTotal (b : Base) : Nat := b.s.toNat * 1000000000 + b.ns

/-- A base in units of 2^-32 ns. -/
def Base.total (b : Base) : Nat := b.nsTotal * 2 ^ 32 + b.frac.toNat

/-- A base in sixteenths of a ns. -/
def Base.sixteenths (b : Base) : Nat := b.total / 2 ^ 28

/-- The payload of the TIME tag (R560). -/
def Mach.timePayload (m : Mach) : BitVec 60 := BitVec.ofNat 60 (m.getBase 0).nsTotal

/-! ### Events -/

/-- The next multiple of `w` from `o` on. -/
def alignUp (o w : Nat) : Nat := (o + w - 1) / w * w

/-- The DATA of an event from its fields, each (width in bytes, value) (R768). -/
def packFrom : Nat → List (Nat × Nat) → Nat
  | _, [] => 0
  | o, (w, v) :: r => (v % 256 ^ w) * 256 ^ alignUp o w + packFrom (alignUp o w + w) r

/-- The DATA of an event (R768); a beat number, 6 bytes wide, stands first. -/
def pack (l : List (Nat × Nat)) : BitVec 64 := BitVec.ofNat 64 (packFrom 0 l)

/-- Write bytes to host memory. -/
def Mach.hostWrite (m : Mach) (a : Nat) (l : List Byte) : Mach :=
  m.hifMod fun h => { h with hostMem := memWrite h.hostMem a l }

/-- Whether an event ring has room by the consumer INDEX of the last doorbell read (R590). -/
def Ring.room (x : Ring) : Bool := (x.idx + 2 ^ 32 - x.db) % 2 ^ 32 < 2 ^ x.log2

/-- The PHASE of the entry a ring writes next (R588). -/
def Ring.phase (x : Ring) : Nat := if x.idx / 2 ^ x.log2 % 2 = 0 then 1 else 0

/-- The 16 bytes of an event entry (R587). -/
def Event.bytes (e : Event) (phase : Nat) : List Byte :=
  bytesLE 2 e.code ++ bytesLE 1 e.unit ++ bytesLE 1 (128 * phase + if e.late then 64 else 0) ++ bytesLE 4 e.beat ++
    bytesLE 8 e.data.toNat

/-- Write one event into its ring (R586 to R588). -/
def Mach.writeEvent (m : Mach) (e : Event) : Mach :=
  let x := m.getRing e.ring
  (m.hostWrite (x.base + 16 * (x.idx % 2 ^ x.log2)) (e.bytes x.phase)).setRing e.ring
    { x with idx := (x.idx + 1) % 2 ^ 32, fresh := true, progress := true }

/-- Whether HIF may write into a ring now (R576, R582). -/
def Mach.ringOpen (m : Mach) (r : Nat) : Bool :=
  (m.getRing r).st = 1 && !m.bit HIF_STAT fHIF_STAT_D3 && m.bit HIF_CTL fHIF_CTL_ENABLE

/-- Hand an event to its ring, to the on-chip store, or to the ring's lost count (R590). -/
def Mach.putEvent (m : Mach) (e : Event) : Mach :=
  if m.ringOpen e.ring && (m.getRing e.ring).room && !(m.hif.store.any fun x => x.ring == e.ring)
      && tabGet 0 m.hif.lost e.ring == 0 then m.writeEvent e
  else if m.hif.store.length < 1024 then m.hifMod fun h => { h with store := h.store ++ [e] }
  else (m.hifMod fun h => { h with lost := tabMod 0 h.lost e.ring (· + 1) }).count HIF_CNT0 fHIF_CNT0_EV_LOST

/-- The event ring for a block's events (R589); values outside 64 to 127 act as 64. -/
def Mach.evRing (m : Mach) (blk : Nat) : Nat :=
  let r := m.rd (HIF_EVROUTEj (blk / 4)) (fHIF_EVROUTEj_RINGk (blk % 4))
  if 64 ≤ r ∧ r ≤ 127 then r else 64

/-- Raise an event of its source block (R587, R589). -/
def Mach.event (m : Mach) (code unit : Nat) (fields : List (Nat × Nat)) (late : Bool := false) : Mach :=
  m.putEvent ⟨m.evRing (code / 256), code, unit, late, m.beat % 2 ^ 32, pack fields⟩

/-- Raise a completion or a notice of a ring on the ring's EVRING (R589). -/
def Mach.notice (m : Mach) (ring code unit : Nat) (fields : List (Nat × Nat)) : Mach :=
  let e := (m.getRing ring).evring
  m.putEvent ⟨if 64 ≤ e ∧ e ≤ 127 then e else 64, code, unit, false, m.beat % 2 ^ 32, pack fields⟩

/-- Enter a new role (R629, R656). -/
def Mach.setRole (m : Mach) (r : Nat) : Mach :=
  if m.role = r then m
  else
    let m1 := (m.wr CHN_STAT fCHN_STAT_ROLE r).event 0x1406 0 [(1, r)]
    if r = 1 then m1.chnMod fun c => { c with roleAt := m.tim.run, waitAt := m.tim.run } else m1

/-! ### Stores under the common code -/

/-- What a correcting or checking place delivers: the code word, or the POISON word that records the failure (R505). -/
structure Read where
  code : Code
  poison : Option TWord
  deriving DecidableEq, Repr

/-- A POISON word with the record of R505. -/
def poisonWord (place : Nat) (stored : Bool) (s1 s0 : Byte) : TWord :=
  BitVec.ofNat 64 (15 * 2 ^ 60 + place * 2 ^ 20 + (if stored then 2 ^ 16 else 0) + s1.toNat * 2 ^ 8 + s0.toNat)

/-- Send a POISON_NOTE to FLT (R507). -/
def Mach.note (m : Mach) (src place : Nat) (w : Code) (addr : Nat) : Mach :=
  m.fltMod fun f => { f with notes := f.notes ++ [⟨src, place, synd1 w, synd0 w, addr⟩] }

/-- The port codes of R212 that sources of notes and records bear. -/
def portWMAC : Nat := 0x20
def portASCH : Nat := 0x21
def portUPL : Nat := 0x22
def portRTE : Nat := 0x23
def portHIF : Nat := 0x24
def portCHN : Nat := 0x25
def portFLT : Nat := 0x26
def portFQ : Nat := 0x27
def portMEM : Nat := 0x2B
def portNVM : Nat := 0x2C
def portLC : Nat := 0x10

/-- Read a word at a correcting place: counts and notes as R507 says. `cnt` names the register and fields of the
corrected and uncorrectable counts where the block has them. -/
def Mach.decodeAt (m : Mach) (src place : Nat) (cnt : Option (Nat × Fld × Fld)) (addr : Nat) (w : Code) : Mach × Read :=
  match classify w with
  | .clean => (m, ⟨w, none⟩)
  | .corrected v =>
    (match cnt with | some (a, c, _) => m.count a c | none => m, ⟨v, none⟩)
  | .storedPoison => (m, ⟨w, some (poisonWord place true (synd1 w) (synd0 w))⟩)
  | .uncorrectable =>
    ((match cnt with | some (a, _, u) => m.count a u | none => m).note src place w addr,
     ⟨w, some (poisonWord place false (synd1 w) (synd0 w))⟩)

/-- The usable DRAM in bytes (R510). -/
def Mach.dramTop (m : Mach) : Nat := m.rd MEM_CFG fMEM_CFG_SIZE_GIB * 2 ^ 30 / 8 * 7

/-- The physical address of the data bytes of the word at device address `a` (R510). -/
def dramPhys (a : Nat) : Nat := a / 896 * 1024 + a % 896

/-- The physical address of the check bytes of the word at device address `a` (R510). -/
def dramChk (a : Nat) : Nat := a / 896 * 1024 + 896 + 2 * (a % 896 / 16)

/-- The code word stored at a device DRAM address (R510). -/
def dramWord (t : List Host.Cell) (a : Nat) : Code :=
  codeMk (memGet t (dramChk a + 1)) (memGet t (dramChk a)) (datumOf (memRead t (dramPhys a) 16))

/-- DRAM with a code word stored (R510). -/
def dramPut (t : List Host.Cell) (a : Nat) (w : Code) : List Host.Cell :=
  memWrite (memWrite t (dramPhys a) (datumBytes (codeData w))) (dramChk a) [w.extractLsb' 128 8, w.extractLsb' 136 8]

/-- Store a code word in DRAM. -/
def Mach.dramWrite (m : Mach) (a : Nat) (w : Code) : Mach := m.memMod fun x => { x with dram := dramPut x.dram a w }

/-- Store code words in DRAM from an address up. -/
def Mach.dramWrites (m : Mach) (a : Nat) : List Code → Mach
  | [] => m
  | w :: r => (m.dramWrite a w).dramWrites (a + 16) r

/-- Read a DRAM word (R502, R507); an uncorrectable one is recorded in MEM_ECCLAST. -/
def Mach.dramRead (m : Mach) (a : Nat) : Mach × Read :=
  let w := dramWord m.mem.dram a
  let r := m.decodeAt portMEM 3 (some (MEM_ECCCNT, fMEM_ECCCNT_CORR, fMEM_ECCCNT_UNCORR)) a w
  if classify w = .uncorrectable then
    (((((r.1.setReg MEM_ECCLAST_LO (BitVec.ofNat 32 a)).setReg MEM_ECCLAST_HI 0).wr MEM_ECCLAST_HI ⟨31, 24⟩ (synd1 w).toNat).wr
      MEM_ECCLAST_HI ⟨23, 16⟩ (synd0 w).toNat).wr MEM_ECCLAST_HI ⟨1, 0⟩ (a / 2 ^ 32), r.2)
  else r

/-- Read `n` DRAM words. -/
def Mach.dramReads (m : Mach) (a : Nat) : Nat → Mach × List Read
  | 0 => (m, [])
  | n + 1 => let r := m.dramRead a; let s := r.1.dramReads (a + 16) n; (s.1, r.2 :: s.2)

/-- The PLACE of a class SRAM address: packet SRAM below 24 MiB, the table cache above (R105, R505). -/
def sramPlace (a : Nat) : Nat := if a < 0x1800000 then 1 else 2

/-- Read a word of class SRAM. -/
def Mach.sramRead (m : Mach) (a : Nat) : Mach × Read :=
  m.decodeAt portRTE (sramPlace a) none a (storeGet m.mem.sram (a / 16))

/-- Store a word in class SRAM. -/
def Mach.sramWrite (m : Mach) (a : Nat) (w : Code) : Mach := m.memMod fun x => { x with sram := storeSet x.sram (a / 16) w }

/-- Read `n` words of class SRAM. -/
def Mach.sramReads (m : Mach) (a : Nat) : Nat → Mach × List Read
  | 0 => (m, [])
  | n + 1 => let r := m.sramRead a; let s := r.1.sramReads (a + 16) n; (s.1, r.2 :: s.2)

/-- Read a word of non-volatile memory. -/
def Mach.nvmRead (m : Mach) (a : Nat) : Mach × Read :=
  m.decodeAt portNVM 4 (some (NVM_ECCCNT, fNVM_ECCCNT_CORR, fNVM_ECCCNT_UNCORR)) a (storeGet m.nvm.cells (a / 16))

/-- Read `n` words of non-volatile memory. -/
def Mach.nvmReads (m : Mach) (a : Nat) : Nat → Mach × List Read
  | 0 => (m, [])
  | n + 1 => let r := m.nvmRead a; let s := r.1.nvmReads (a + 16) n; (s.1, r.2 :: s.2)

/-- Store a word in non-volatile memory (R528). -/
def Mach.nvmWrite (m : Mach) (a : Nat) (w : Code) : Mach := m.nvmMod fun x => { x with cells := storeSet x.cells (a / 16) w }

/-- Bytes grouped into data of 16, the last filled with zeros. -/
def datums : Nat → List Byte → List (BitVec 128)
  | 0, _ => []
  | _ + 1, [] => []
  | k + 1, l => datumOf (slice 0 l 0 16) :: datums k (l.drop 16)

/-- The code words of bytes, encoded (R31). -/
def codesOf (l : List Byte) : List Code := (datums (l.length + 1) l).map encodeCode

/-- Store bytes in non-volatile memory from an address that is a multiple of 16. -/
def Mach.nvmBytes (m : Mach) (a : Nat) : List Code → Mach
  | [] => m
  | w :: r => (m.nvmWrite a w).nvmBytes (a + 16) r

/-- The data bytes of words read; none when one is poisoned. -/
def readBytes : List Read → Option (List Byte)
  | [] => some []
  | x :: r => match x.poison, readBytes r with
    | none, some l => some (datumBytes (codeData x.code) ++ l)
    | _, _ => none

/-! ### The journal and fault records -/

/-- The journal's base in DRAM. -/
def Mach.jBase (m : Mach) : Nat := m.reg64 FLT_JBASE_LO FLT_JBASE_HI

/-- The header word of a journal record (R672). -/
def jHeader (type words src flags tslot beat arg : Nat) : BitVec 128 :=
  datumOf (bytesLE 1 type ++ bytesLE 1 words ++ bytesLE 1 src ++ bytesLE 1 flags ++ bytesLE 1 tslot ++ bytesLE 1 0 ++
    bytesLE 6 beat ++ bytesLE 4 arg)

/-- Write one journal word and advance the write position modulo 2^22 (R670). -/
def Mach.jWord (m : Mach) (w : Code) : Mach :=
  let p := m.rd FLT_JPOS fFLT_JPOS_POS
  (m.dramWrite (m.jBase + 16 * p) w).wr FLT_JPOS fFLT_JPOS_POS ((p + 1) % 2 ^ 22)

/-- Write journal words. -/
def Mach.jWords (m : Mach) (l : List Code) : Mach := m.forEach l fun x w => x.jWord w

/-- Whether FLT writes the journal (R670). -/
def Mach.jrun (m : Mach) : Bool := m.bit FLT_CTL fFLT_CTL_JRUN

/-- Fill the ring's end with a PAD record where a record of `n` words would pass it (R670). -/
def Mach.jPad (m : Mach) (n : Nat) : Mach :=
  if m.rd FLT_JPOS fFLT_JPOS_POS + n > 2 ^ 22 then
    (m.jWord (encodeCode (jHeader 0 0 portFLT 0 0 m.beat 0))).wr FLT_JPOS fFLT_JPOS_POS 0
  else m

/-- Write a journal record while JRUN is set (R670 to R673), and mirror it unless it is LOCAL (R674); nothing otherwise. -/
def Mach.journal (m : Mach) (type src flags tslot arg : Nat) (payload : List Code) : Mach :=
  if m.jrun then
    let h := encodeCode (jHeader type payload.length src flags tslot m.beat arg)
    let m1 := (((m.jPad (1 + payload.length)).jWord h).jWords payload).fltMod fun f => { f with ahead := f.ahead + 1 + payload.length }
    if flags % 2 = 1 then m1 else m1.mirror type (h :: payload)
  else m

/-- A fault record's fields (R684). -/
structure FaultRec where
  cls : Nat
  src : Nat
  code : Nat
  flags : Nat
  tslot : Nat
  fpc : Nat
  fopnd : Nat
  detail : Nat
  addr : Nat
  deriving DecidableEq, Repr

/-- The 32 bytes of a fault record (R684). -/
def FaultRec.bytes (r : FaultRec) (beat jpos : Nat) : List Byte :=
  bytesLE 1 r.cls ++ bytesLE 1 r.src ++ bytesLE 1 r.code ++ bytesLE 1 r.flags ++ bytesLE 1 r.tslot ++ bytesLE 1 0 ++
    bytesLE 6 beat ++ bytesLE 2 r.fpc ++ bytesLE 1 r.fopnd ++ bytesLE 1 0 ++ bytesLE 4 r.detail ++ bytesLE 8 r.addr ++
    bytesLE 4 jpos

/-- Keep a fault record in the log of the last 64 and write it to the journal (R684, R685). -/
def Mach.faultRecord (m : Mach) (r : FaultRec) : Mach :=
  let m1 := m.when m.jrun fun x => x.jPad 3
  let b := r.bytes m.beat (m1.rd FLT_JPOS fFLT_JPOS_POS)
  let m2 := m1.fltMod fun f => { f with log := (b :: f.log).take 64 }
  (m2.wr FLT_STAT fFLT_STAT_LOGFILL m2.flt.log.length).journal 0x0B portFLT 0 r.tslot r.cls (codesOf b)

/-- The first poisoned word of words read from an address, with its address. -/
def badWord : Nat → List Read → Option (Nat × TWord)
  | _, [] => none
  | a, x :: r => match x.poison with
    | some w => some (a, w)
    | none => badWord (a + 16) r

/-- A unit of a block has met words that are poisoned still, and ends: its record, of the first of them, and its count (R668, R684). -/
def Mach.unitEnds (m : Mach) (port a : Nat) (l : List Read) : Mach :=
  match badWord a l with
  | some (b, w) =>
    (m.faultRecord ⟨2, port, 0, 1, 0, 0, 0, w.toNat / 2 ^ 20 % 16 * 2 ^ 20 + w.toNat % 2 ^ 16, b⟩).count FLT_POISCNT fFLT_POISCNT_BLOCK
  | none => m

/-! ### TE local memory -/

/-- The store index of the code word that holds local word `i`: the top 8 KiB stand once per bank (R55, R111). -/
def lmIndex (bank i : Nat) : Nat := if i < 7168 then i / 2 else 3584 + 512 * bank + (i - 7168) / 2

/-- A code word of local memory with one half replaced. -/
def putHalf (d : BitVec 128) (odd : Bool) (v : TWord) : BitVec 128 :=
  if odd then v ++ d.extractLsb' 0 64 else (d.extractLsb' 64 64 : BitVec 64) ++ v

/-- One half of a code word of local memory (R111). -/
def getHalf (d : BitVec 128) (odd : Bool) : TWord := if odd then d.extractLsb' 64 64 else d.extractLsb' 0 64

/-- Read the code word of local word `i`, as a load does (R111). -/
def Mach.lmRead (m : Mach) (n i : Nat) : Mach × Read :=
  m.decodeAt n 0 (some (ENG_TEn_FCNT n, fENG_TEn_FCNT_CORR, fENG_TEn_FCNT_UNCORR)) (i / 2 * 2)
    (storeGet (m.getTe n).lmem (lmIndex m.actBank i))

/-- Load local word `i` (R111): POISON where its code word is uncorrectable. -/
def Mach.lmLoad (m : Mach) (n i : Nat) : Mach × TWord :=
  let r := m.lmRead n i
  (r.1, r.2.poison.getD (getHalf (codeData r.2.code) (i % 2 = 1)))

/-- Log the old content of a code word before a run's first store to it (R664). -/
def Te.undoLog (t : Te) (ix : Nat) : Te :=
  if t.undo.any (fun e => e.1 == ix) then t
  else if t.undo.length < 256 then { t with undo := (ix, storeGet t.lmem ix) :: t.undo }
  else { t with undoFull := true }

/-- Store `v` to local word `i`; `log` when the store is a run's and not the fault task's (R111, R506, R664). -/
def Mach.lmStore (m : Mach) (n i : Nat) (v : TWord) (log : Bool) : Mach :=
  let r := m.lmRead n i
  let ix := lmIndex m.actBank i
  let d := match r.2.poison with
    | none => codeData r.2.code
    | some p => p ++ p
  r.1.teMod n fun t =>
    let t' := if log then t.undoLog ix else t
    { t' with lmem := storeSet t'.lmem ix (encodeCode (putHalf d (i % 2 = 1) v)) }

/-- Store words from local word `i` up. -/
def Mach.lmStores (m : Mach) (n i : Nat) (log : Bool) : List TWord → Mach
  | [] => m
  | v :: r => (m.lmStore n i v log).lmStores n (i + 1) log r

/-- Store words at the places they name. -/
def Mach.lmPlace (m : Mach) (n : Nat) (log : Bool) (l : List (Nat × TWord)) : Mach :=
  m.forEach l fun x p => x.lmStore n p.1 p.2 log

/-- Load `k` local words from word `i` up. -/
def Mach.lmLoads (m : Mach) (n i : Nat) : Nat → Mach × List TWord
  | 0 => (m, [])
  | k + 1 => let r := m.lmLoad n i; let s := r.1.lmLoads n (i + 1) k; (s.1, r.2 :: s.2)

/-! ### TE words -/

def tagNIL : Nat := 0
def tagINT : Nat := 1
def tagPTR : Nat := 2
def tagDESC : Nat := 3
def tagPKT : Nat := 4
def tagKEY : Nat := 5
def tagTIME : Nat := 6
def tagPOISON : Nat := 15

/-- The tag of a TE word (R104). -/
def wTag (w : TWord) : Nat := (w.extractLsb' 60 4).toNat

/-- The payload of a TE word; NIL reads as 0 (R104). -/
def wPay (w : TWord) : BitVec 60 := if wTag w = tagNIL then 0 else w.extractLsb' 0 60

/-- The TE word of a tag and a payload (R104). -/
def mkWord (tag : Nat) (p : BitVec 60) : TWord := (BitVec.ofNat 4 tag) ++ p

/-- The INT of a number. -/
def intWord (n : Nat) : TWord := mkWord tagINT (BitVec.ofNat 60 n)

/-- NIL. -/
def nilWord : TWord := 0

end Sys2Proof.Machine
end

