-- ==== Sys2Proof/Machine/Flags.lean ====
section
/-! DEFINITION. The arithmetic of both engine classes at a width `w` (60 on TE, 8 or 16 on LC), with every flag each
operation writes (R122, R123, R152, R153, R159, R160). Operands and results are numbers below 2^w. -/

namespace Sys2Proof.Machine

/-- The bit numbers of FL (R103, R139). -/
def flN : Nat := 0
def flZ : Nat := 1
def flC : Nat := 2
def flV : Nat := 3
def flDZ : Nat := 4
def flD : Nat := 5
def flTO : Nat := 6

/-- What an operation gives: its result and the flags it writes, each with its value. -/
structure Alu where
  val : Nat
  flags : List (Nat × Bool)
  deriving DecidableEq, Repr

/-- The top bit. -/
def topBit (w a : Nat) : Bool := 2 ^ (w - 1) ≤ a

/-- N and Z of a result (R153). -/
def nz (w r : Nat) : List (Nat × Bool) := [(flN, topBit w r), (flZ, r == 0)]

/-- A number modulo 2^w of an exact integer. -/
def wrapInt (w : Nat) (x : Int) : Nat := (x % (2 ^ w : Nat)).toNat

/-- Whether an exact integer lies outside the signed range of width w. -/
def outOfRange (w : Nat) (x : Int) : Bool := x < -(2 ^ (w - 1) : Nat) || x ≥ (2 ^ (w - 1) : Nat)

/-- ADD (R152, R153). -/
def aluAdd (w a b : Nat) : Alu :=
  let r := (a + b) % 2 ^ w
  ⟨r, nz w r ++ [(flC, decide (2 ^ w ≤ a + b)), (flV, outOfRange w (signedOf w a + signedOf w b))]⟩

/-- SUB, and the flags of CMP (R152, R153). -/
def aluSub (w a b : Nat) : Alu :=
  let r := (a + 2 ^ w - b) % 2 ^ w
  ⟨r, nz w r ++ [(flC, decide (a < b)), (flV, outOfRange w (signedOf w a - signedOf w b))]⟩

/-- AND, OR, XOR, ANDN and NOT: N and Z of the result (R152). -/
def aluLogic (w r : Nat) : Alu := ⟨r % 2 ^ w, nz w (r % 2 ^ w)⟩

/-- SHL by a count (R122, R123, R153). -/
def aluShl (w a k : Nat) : Alu :=
  if w ≤ k then ⟨0, nz w 0 ++ [(flC, false)]⟩
  else
    let r := a * 2 ^ k % 2 ^ w
    ⟨r, nz w r ++ (if k = 0 then [] else [(flC, a.testBit (w - k))]) ++
      [(flV, signedOf w a * (2 ^ k : Nat) != signedOf w r)]⟩

/-- SHR by a count (R122, R123, R153). -/
def aluShr (w a k : Nat) : Alu :=
  if w ≤ k then ⟨0, nz w 0 ++ [(flC, false)]⟩
  else ⟨a / 2 ^ k, nz w (a / 2 ^ k) ++ (if k = 0 then [] else [(flC, a.testBit (k - 1))])⟩

/-- SAR by a count (R122, R123, R153). -/
def aluSar (w a k : Nat) : Alu :=
  if w ≤ k then
    let r := if topBit w a then 2 ^ w - 1 else 0
    ⟨r, nz w r ++ [(flC, topBit w a)]⟩
  else
    let r := wrapInt w (signedOf w a / (2 ^ k : Nat))
    ⟨r, nz w r ++ (if k = 0 then [] else [(flC, a.testBit (k - 1))])⟩

/-- NEG (R122, R153). -/
def aluNeg (w a : Nat) : Alu := aluSub w 0 a

/-- MUL: the low bits of the product, V when it leaves the signed range (R122, R152). -/
def aluMul (w a b : Nat) : Alu :=
  let x := signedOf w a * signedOf w b
  ⟨wrapInt w x, nz w (wrapInt w x) ++ [(flV, outOfRange w x)]⟩

/-- MULH: the high bits of the signed product, V = 0 (R152). -/
def aluMulh (w a b : Nat) : Alu :=
  let r := wrapInt w (signedOf w a * signedOf w b / (2 ^ w : Nat))
  ⟨r, nz w r ++ [(flV, false)]⟩

/-- DIV: quotient, remainder and the flags V and DZ (R122, R160). DZ is written only as 1. -/
def aluDiv (w a b : Nat) : Nat × Nat × List (Nat × Bool) :=
  if b = 0 then (0, a, [(flV, false), (flDZ, true)])
  else
    let x := Int.tdiv (signedOf w a) (signedOf w b)
    (wrapInt w x, wrapInt w (Int.tmod (signedOf w a) (signedOf w b)), [(flV, outOfRange w x)])

/-- EXT: bits pos + len - 1 to pos, zero-extended, with Z (R159). -/
def aluExt (a pos len : Nat) : Alu :=
  let r := a / 2 ^ pos % 2 ^ len
  ⟨r, [(flZ, r == 0)]⟩

/-- INS: `d` with bits pos + len - 1 to pos from the low bits of `a` (R159). -/
def aluIns (d a pos len : Nat) : Nat := d - d / 2 ^ pos % 2 ^ len * 2 ^ pos + a % 2 ^ len * 2 ^ pos

/-- Bitwise operations on numbers of width w. -/
def andNat (a b : Nat) : Nat := Nat.land a b
def orNat (a b : Nat) : Nat := Nat.lor a b
def xorNat (a b : Nat) : Nat := Nat.xor a b
def notNat (w a : Nat) : Nat := 2 ^ w - 1 - a

/-- FL with one flag set to a value. -/
def setFl (fl : BitVec 7) (f : Nat) (v : Bool) : BitVec 7 :=
  if v then fl ||| (1#7 <<< f) else fl &&& ~~~(1#7 <<< f)

/-- FL with flags written. -/
def setFls (fl : BitVec 7) : List (Nat × Bool) → BitVec 7
  | [] => fl
  | (f, v) :: r => setFls (setFl fl f v) r

/-- The condition of a branch on FL (R168); none where it is undefined for the engine class. -/
def condHolds (te : Bool) (fl : BitVec 7) (cond : Nat) : Option Bool :=
  let n := fl.getLsbD flN
  let z := fl.getLsbD flZ
  let c := fl.getLsbD flC
  let v := fl.getLsbD flV
  let o := fl.getLsbD flTO
  match cond with
  | 0 => some true
  | 1 => some z
  | 2 => some (!z)
  | 3 => some (n != v)
  | 4 => some (n == v)
  | 5 => some (z || n != v)
  | 6 => some (!z && n == v)
  | 7 => some c
  | 8 => some (!c)
  | 9 => some n
  | 10 => some (!n)
  | 11 => some v
  | 12 => some (!v)
  | 13 => if te then some o else none
  | 14 => if te then some (!o) else none
  | _ => none

end Sys2Proof.Machine
end

