-- ==== Sys2Proof/Machine/Ridge.lean ====
section
/-! DEFINITION. The ridge pole: the header word of a packet (R26, R27), the way through the nodes (R20), the packets on their way
and the order in which a node serves its outputs (R21, R22, R24, R25), and the SEQ that a source port counts (R26). -/

namespace Sys2Proof.Machine

open Sys2Proof

/-! ### Header words (R26, R27) -/

/-- A field of a header word (R26). -/
def hdrFld (w : Code) (hi lo : Nat) : Nat := (codeData w).toNat / 2 ^ lo % 2 ^ (hi + 1 - lo)

def hdrDnode (w : Code) : Nat := hdrFld w 127 123
def hdrDport (w : Code) : Nat := hdrFld w 122 121
def hdrSnode (w : Code) : Nat := hdrFld w 120 116
def hdrSport (w : Code) : Nat := hdrFld w 115 114
def hdrClass (w : Code) : Nat := hdrFld w 113 112
def hdrLen (w : Code) : Nat := hdrFld w 111 105
def hdrOp (w : Code) : Nat := hdrFld w 104 100
def hdrSeq (w : Code) : Nat := hdrFld w 99 88
def hdrArg (w : Code) : Nat := hdrFld w 87 64
def hdrAddr (w : Code) : Nat := hdrFld w 63 0

/-- The place of a port on the pole: three to a node. -/
def hdrSource (w : Code) : Nat := hdrSnode w * 3 + hdrSport w
def hdrDest (w : Code) : Nat := hdrDnode w * 3 + hdrDport w

/-- A header word from its fields: destination and source places, class, LEN, OP, SEQ, ARG, ADDR (R26). -/
def mkHeader (dst src cls len op seq arg addr : Nat) : Code :=
  encodeCode (BitVec.ofNat 128 (((((((((dst / 3 % 32 * 4 + dst % 3) * 32 + src / 3 % 32) * 4 + src % 3) * 4 + cls % 4) * 128 +
    len % 128) * 32 + op % 32) * 4096 + seq % 4096) * 2 ^ 24 + arg % 2 ^ 24) * 2 ^ 64 + addr % 2 ^ 64))

/-- Whether a header names a reserved destination or operation (R29). -/
def hdrReserved (w : Code) : Bool := 24 ≤ hdrDnode w || hdrDport w == 3 || 9 ≤ hdrOp w

/-- What a header asks of its destination (R27); none where LEN is not one that its OP takes. -/
def hdrOperation (w : Code) : Option RpOp :=
  let n := hdrLen w
  let a := hdrArg w
  let words := decide (1 ≤ n ∧ n ≤ 64)
  match hdrOp w with
  | 0x00 => if words then some (.write (hdrAddr w) n) else none
  | 0x01 => if n = 0 ∧ 1 ≤ a % 128 ∧ a % 128 ≤ 64 then some (.readReq (hdrAddr w) (a % 128) (a / 128)) else none
  | 0x02 => if words then some (.readRsp n (a / 128)) else none
  | 0x03 => if words then some (.qitem (a % 256) (BitVec.ofNat 16 (a / 256)) n) else none
  | 0x04 => if n = 0 then some (.event (a / 32 % 64) (a % 32)) else none
  | 0x05 => if n = 1 then some (.cfgWrite (hdrAddr w)) else none
  | 0x06 => if n = 0 then some (.cfgRead (hdrAddr w) (a / 128)) else none
  | 0x07 => if n = 1 then some (.cfgRsp (a / 128)) else none
  | 0x08 => if n = 0 then some (.poisonNote (a / 2 ^ 20) (BitVec.ofNat 8 (a / 2 ^ 8)) (BitVec.ofNat 8 a) (hdrAddr w)) else none
  | _ => none

/-! ### SEQ (R26) -/

/-- The place on the pole of an end: a port code of R212, or 0x200 + n for the port that takes events for TE n (log 14). -/
def rpPlace (e : Nat) : Nat := Config.rpPlace e % 72

/-- The SEQ of the next packet of a source in a class, and the device with it counted (R26, log 14). -/
def Mach.rpSeqTake (m : Mach) (src cls : Nat) : Nat × Mach :=
  let k := src * 4 + cls
  (tabGet 0 m.sys.sent k, m.sysMod fun x => { x with sent := tabSet 0 x.sent k ((tabGet 0 x.sent k + 1) % 4096) })

/-! ### Packets on their way (R20 to R25) -/

/-- The way from a node towards a header's destination: along the row, then along the column, then to the port (R20).
Nodes are numbered row by row, six to a row (log 42). -/
def hdrHop (node : Nat) (w : Code) : Hop :=
  let d := hdrDnode w
  if d % 6 ≠ node % 6 then .row (if node % 6 < d % 6 then node + 1 else node - 1)
  else if d / 6 ≠ node / 6 then .col (if node / 6 < d / 6 then node + 6 else node - 6)
  else .port (hdrDport w)

/-- The input of a node on which a header arrives by R20: 0 to 3 from the left, the right, above, below; 4 to 6 a local port. -/
def hdrInput (node : Nat) (w : Code) : Nat :=
  let s := hdrSnode w
  if node = s then 4 + hdrSport w
  else if node / 6 = s / 6 then (if s % 6 < node % 6 then 0 else 1)
  else if s / 6 < node / 6 then 2 else 3

/-- An output as a number: a neighbour, or 24 + a local port. -/
def Hop.code : Hop → Nat
  | .row n => n
  | .col n => n
  | .port p => 24 + p
  | .none => 31
  | .divert => 31

/-- Whether an output leads to a node. -/
def Hop.leadsTo (node : Nat) : Hop → Bool
  | .row n => n == node
  | .col n => n == node
  | _ => false

/-- The class order in force, first to last (R24, R45). -/
def Mach.rpOrder (m : Mach) : List Nat :=
  [m.rd SYS_RPCLASS fSYS_RPCLASS_P0, m.rd SYS_RPCLASS fSYS_RPCLASS_P1, m.rd SYS_RPCLASS fSYS_RPCLASS_P2,
   m.rd SYS_RPCLASS fSYS_RPCLASS_P3]

/-- How far an input stands behind the one served last, in rotation (R24). -/
def rotDist (last i : Nat) : Nat := (i + 7 - (last + 1) % 7) % 7

/-- The packet of the input next in rotation; of one input, the first that came. -/
def rotPick (last : Nat) : List RpPkt → Option RpPkt
  | [] => none
  | p :: r => match rotPick last r with
    | some q => if rotDist last q.inp < rotDist last p.inp then some q else some p
    | none => some p

/-- The packet that an output serves next among those that wait for it: the first class of the order that has one, the inputs of
the class in rotation (R24). -/
def rpNext (rot : Nat → Nat) (wait : List RpPkt) : List Nat → Option RpPkt
  | [] => none
  | c :: r => match rotPick (rot c) (wait.filter fun p => p.cls == c) with
    | some p => some p
    | none => rpNext rot wait r

/-- A free output of a node serves its next packet (R22, R24): it holds the output until its receiver takes it. -/
def Mach.rpServe (m : Mach) (node : Nat) (out : Hop) : Mach :=
  let here := m.sys.flight.filter fun p => p.node == node && p.out == out
  let k := (node * 32 + out.code) * 4
  if here.any fun p => p.going then m
  else match rpNext (fun c => tabGet 6 m.sys.rot (k + c)) here m.rpOrder with
    | some p => m.sysMod fun x =>
        { x with hop := out, fwd := p.hdr, rot := tabSet 6 x.rot (k + p.cls) p.inp,
                 flight := x.flight.map fun q => if q.id = p.id then { q with going := true } else q }
    | none => m

/-- A packet leaves the output that sent it, which serves its next. -/
def Mach.rpLeave (m : Mach) (p : RpPkt) : Mach :=
  (m.sysMod fun x => { x with flight := x.flight.filter fun q => q.id != p.id }).rpServe p.node p.out

/-- A packet enters a node and waits for its output (R20, R22). -/
def Mach.rpEnter (m : Mach) (node id : Nat) (v w : Code) : Mach :=
  (m.sysMod fun x => { x with flight := x.flight ++
    [⟨id, w, node, hdrHop node v, hdrInput node v, hdrClass v, hdrSource v, hdrDest v, false⟩] }).rpServe node (hdrHop node v)

/-- The packet of a flow that entered the pole first (R21). -/
def oldestOf (src cls dst : Nat) : List RpPkt → Option RpPkt
  | [] => none
  | p :: r =>
    let q := oldestOf src cls dst r
    if p.src = src ∧ p.cls = cls ∧ p.dst = dst then
      (match q with
       | some x => if x.id < p.id then some x else some p
       | none => some p)
    else q

end Sys2Proof.Machine
end

