-- ==== Sys2Proof/Machine/Queue.lean ====
section
/-! DEFINITION. The event queues of the dispatcher and the queue channels: the operations behind R187 to R209, R661 and
R663. -/

namespace Sys2Proof.Machine

/-! ### Event flags and event queues -/

/-- The event flags of a task slot (R178). -/
def Mach.flagsOf (m : Mach) (n slot : Nat) : BitVec 32 := tabGet 0 (m.getDsp n).flags slot

/-- The status bits of a flag (R119). -/
def Mach.statOf (m : Mach) (n slot f : Nat) : Nat := tabGet 0 (m.getDsp n).stat (32 * slot + f)

/-- Clear the flags of a mask with their status (R117, R164, R182). -/
def DspTe.clear (d : DspTe) (slot : Nat) (mask : BitVec 32) : DspTe :=
  { d with
    flags := tabSet 0 d.flags slot (tabGet 0 d.flags slot &&& ~~~mask)
    stat := d.stat.filter fun e => !(e.1 / 32 == slot && mask.getLsbD (e.1 % 32)) }

/-- Forget the late marks of a mask: their accesses are new, or detached (R117, R119, R770). -/
def DspTe.unlate (d : DspTe) (slot : Nat) (mask : BitVec 32) : DspTe :=
  { d with late := tabSet 0 d.late slot (tabGet 0 d.late slot &&& ~~~mask) }

/-- Whether a WAIT's condition holds on flags (R120). -/
def WaitRec.holds (w : WaitRec) (fl : BitVec 32) : Bool :=
  if w.all then fl &&& w.mask == w.mask else fl &&& w.mask != 0

/-- The task slot whose flags the engine's instructions use: slot 63 in the fault task (R131). -/
def Te.curSlot (t : Te) : Nat := if t.st = .fault ∨ t.st = .waitF then 63 else t.tslot

/-- The next instruction of a context after one that issued (R96, the reference model of issue). -/
def Ctx.next (c : Ctx) (step : Nat) : Ctx :=
  if c.btc = 0 then { c with pc := c.pc + step }
  else if c.btc = 1 then
    match c.bt with
    | some t => { c with pc := t, bt := none, btc := 0 }
    | none => { c with pc := c.pc + step, btc := 0 }
  else { c with pc := c.pc + step, btc := c.btc - 1 }

/-- End a WAIT: FL.TO says whether the deadline ended it, and the engine goes on (R120, R137). -/
def Te.endWait (t : Te) (byDeadline : Bool) : Te :=
  { t with
    st := if t.st = .waitF then .fault else .run
    wait := none
    slotNo := t.slotNo + 1
    ctx := { t.ctx.next 1 with fl := setFl t.ctx.fl flTO byDeadline } }

/-- Whether the engine sits in a WAIT. -/
def Te.waiting (t : Te) : Bool := t.st = .wait || t.st = .waitF

/-- Wake the engine when its WAIT's condition holds (R137). -/
def Mach.wake (m : Mach) (n : Nat) : Mach :=
  let t := m.getTe n
  match t.wait with
  | some w => if t.waiting && w.holds (m.flagsOf n t.curSlot) then m.setTe n (t.endWait false) else m
  | none => m

/-- Set an event flag (R187). -/
def Mach.setFlag (m : Mach) (n slot f : Nat) : Mach :=
  (m.dspMod n fun d => { d with flags := tabSet 0 d.flags slot (tabGet 0 d.flags slot ||| (1#32 <<< f)) }).wake n

/-- A far access completes on its flag: LATE is added when the WAIT that named it had ended by its deadline (R119,
R121). -/
def Mach.completeFlag (m : Mach) (n slot f st : Nat) : Mach :=
  (m.dspMod n fun d =>
    let late := (tabGet 0 d.late slot).getLsbD f
    { d.unlate slot (1#32 <<< f) with
      stat := tabSet 0 d.stat (32 * slot + f) (if late then Nat.lor st 1 else st) }).setFlag n slot f

/-- Show the event queue's fill in DSP_TEn_EVQ. -/
def Mach.evqShow (m : Mach) (n : Nat) : Mach :=
  let k := (m.getDsp n).evq.length
  (m.wr (DSP_TEn_EVQ n) fDSP_TEn_EVQ_FILL k).wr (DSP_TEn_EVQ n) fDSP_TEn_EVQ_HIWATER
    (max k (m.rd (DSP_TEn_EVQ n) fDSP_TEn_EVQ_HIWATER))

/-- Apply the final entries of an event queue in arrival order, past the provisional ones (R187). -/
def Mach.evApply (m : Mach) (n : Nat) : Mach :=
  let d := m.getDsp n
  ((m.setDsp n { d with evq := d.evq.filter fun e => e.prov != 0 }).forEach (d.evq.filter fun e => e.prov == 0)
    fun x e => x.setFlag n e.slot e.flag)

/-- Take held EVENT packets into the queue while it has room (R188). -/
def DspTe.takeHeld (d : DspTe) : DspTe :=
  { d with evq := d.evq ++ d.held.take (16 - d.evq.length), held := d.held.drop (16 - d.evq.length) }

/-- Take in, apply and show until no held packet can enter. -/
def Mach.evPumpN : Nat → Mach → Nat → Mach
  | 0, m, _ => m
  | k + 1, m, n =>
    let m1 := ((m.dspMod n DspTe.takeHeld).evqShow n).evApply n
    if (m1.getDsp n).held = [] then m1 else Mach.evPumpN k m1 n

/-- What an event queue does when entries came or went: take in, apply, show its fill. -/
def Mach.evPump (m : Mach) (n : Nat) : Mach :=
  let m1 := Mach.evPumpN ((m.getDsp n).held.length + 1) m n
  m1.wr (DSP_TEn_EVQ n) fDSP_TEn_EVQ_FILL (m1.getDsp n).evq.length

/-- An EVENT packet reaches an event queue: held and counted when the queue is full (R187, R188). -/
def Mach.sendEvent (m : Mach) (n slot f : Nat) (prov : RunId) : Mach :=
  let d := m.getDsp n
  if d.evq.length < 16 ∧ d.held = [] then (m.setDsp n { d with evq := d.evq ++ [⟨slot, f, prov⟩] }).evPump n
  else (m.setDsp n { d with held := d.held ++ [⟨slot, f, prov⟩] }).count (DSP_TEn_EVQ n) fDSP_TEn_EVQ_HELD

/-- Send the event that a register's FLAG, ENGINE and TSLOT fields name: bits 14:10, 9:6 and 5:0 (R203, R204, R214). -/
def Mach.sendNamed (m : Mach) (v : W32) : Mach :=
  m.sendEvent (getFld v ⟨9, 6⟩) (getFld v ⟨5, 0⟩) (getFld v ⟨14, 10⟩) 0

/-! ### Queue channels -/

/-- The number of ones in a side field and its parity bit. -/
def sideOnes (side : BitVec 16) (par : Bool) : Nat :=
  ((List.range 16).filter fun i => side.getLsbD i).length + (if par then 1 else 0)

/-- The parity bit that makes the number of ones even (R191). -/
def sideParity (side : BitVec 16) : Bool := sideOnes side false % 2 = 1

/-- The side field as taken for boundaries: a failing parity closes item and packet (R209). -/
def QWord.eff (w : QWord) : BitVec 16 := if sideOnes w.side w.par % 2 = 0 then w.side else 0x7000

def QWord.ps (w : QWord) : Bool := w.eff.getLsbD 15
def QWord.pe (w : QWord) : Bool := w.eff.getLsbD 14
def QWord.ie (w : QWord) : Bool := w.eff.getLsbD 13

/-- A side field from its parts (R191). -/
def mkSide (ps pe ie : Bool) (nbytes uflags : Nat) : BitVec 16 :=
  BitVec.ofNat 16 ((if ps then 0x8000 else 0) + (if pe then 0x4000 else 0) + (if ie then 0x2000 else 0) +
    nbytes % 32 * 256 + uflags % 256)

/-- The stored words of part of an item with its side template (R192): `first` and `last` say whether the part holds the
item's first and last word. -/
def sideWords (ps pe : Bool) (lastBytes uflags : Nat) (last : Bool) (prov : RunId) : Bool → List Code → List QWord
  | _, [] => []
  | first, [c] =>
    let s := mkSide (ps && first) (pe && last) last (if last then lastBytes else 16) uflags
    [⟨c, s, sideParity s, prov⟩]
  | first, c :: r =>
    let s := mkSide (ps && first) false false 16 uflags
    ⟨c, s, sideParity s, prov⟩ :: sideWords ps pe lastBytes uflags last prov false r

/-- The words a channel's store counts: those stored, and those delivered provisionally (R663). -/
def Chan.stored (c : Chan) : Nat := c.q.length + (c.out.map fun o => o.2.length).sum

/-- The words up to and with the first end word of an item; none when no end word is stored. -/
def firstItem : List QWord → Option (List QWord)
  | [] => none
  | w :: r => if w.ie then some [w] else (firstItem r).map (w :: ·)

/-- Whole items at the head: complete and not provisional (R195, R661), up to the first that is not. -/
def wholeItems : Nat → List QWord → List (List QWord)
  | 0, _ => []
  | k + 1, q => match firstItem q with
    | some it => if it.all fun w => w.prov == 0 then it :: wholeItems k (q.drop it.length) else []
    | none => []

/-- The items of the first packet among whole items. -/
def firstPacket : List (List QWord) → List (List QWord)
  | [] => []
  | it :: r => if it.any QWord.pe then [it] else it :: firstPacket r

/-- The store of a channel in words. -/
def Mach.chCap (m : Mach) (ch : Nat) : Nat :=
  if 248 ≤ ch then 256 else 64 * m.rd (FQ_CHn_STORE ch) fFQ_CHn_STORE_DEPTH

/-- The cut-through threshold of a channel: 1 on the mailbox channels, 0 acts as 1 (R196, R211). -/
def Mach.chCut (m : Mach) (ch : Nat) : Nat :=
  if 248 ≤ ch then 1 else max 1 (m.rd (FQ_CHn_CFG ch) fFQ_CHn_CFG_CT_ITEMS)

/-- How many of the items after the visible ones become visible, and whether the packet of the last visible item goes on (R196): an
item of a released packet as soon as it is whole, the first item of another packet once the packet is released. -/
def revealFrom (full : Bool) (cut : Nat) : Bool → List (List QWord) → Nat × Bool
  | tail, [] => (0, tail)
  | tail, it :: r =>
    let p := firstPacket (it :: r)
    if tail || cut ≤ p.length || p.any (·.any QWord.pe) || full then
      let y := revealFrom full cut (!it.any QWord.pe) r
      (y.1 + 1, y.2)
    else (0, tail)

/-- The channel with every item visible that R196 releases; what is visible stays so. -/
def Chan.reveal (c : Chan) (cap cut : Nat) : Chan :=
  let y := revealFrom (cap ≤ c.stored) cut c.tail ((wholeItems c.q.length c.q).drop c.vis)
  { c with vis := c.vis + y.1, tail := y.2 }

/-- The items a consumer sees. -/
def Chan.visible (c : Chan) : List (List QWord) := (wholeItems c.q.length c.q).take c.vis

/-- One word offered to a channel: discarded while an item is voided or a packet dropped, else stored (R205, R206). A PE ends the
consumer's packet, and the discarding of it, in a void item too. -/
def Chan.offer (c : Chan) (w : QWord) : Chan :=
  if c.voiding then
    { c with voiding := !w.ie, writing := !w.ie, lastFlushed := w.ie, dropping := c.dropping && !w.pe && !w.ps,
             started := c.started && !w.pe, tail := c.tail && !w.pe }
  else if c.dropping && !w.ps then { c with dropping := !w.pe, writing := !w.ie, lastFlushed := false }
  else { c with q := c.q ++ [w], dropping := false, writing := !w.ie, lastFlushed := false }

/-- Whether the channel acknowledges its next word (R194). -/
def Chan.accepts (c : Chan) (cap : Nat) (w : QWord) : Bool :=
  c.voiding || (c.dropping && !w.ps) || c.stored < cap

/-- Take waiting words while the channel acknowledges them; counts the flushes whose void item has ended (R206). -/
def Chan.pump (cap : Nat) : Nat → Chan → Nat → Chan × Nat
  | 0, c, k => (c, k)
  | f + 1, c, k => match c.waiting with
    | [] => (c, k)
    | w :: r => if c.accepts cap w then
        Chan.pump cap f ({ c with waiting := r }.offer w) (if c.voiding && w.ie then k + 1 else k)
      else (c, k)

/-- Put a changed channel back: items become visible (R196), then waiting words are taken. AVAIL goes when an item is visible where
none was, before the change or after it (R203); ROOM when the change itself raises the free store to its threshold (R204). -/
def Mach.chPut (m : Mach) (ch : Nat) (c' : Chan) : Mach :=
  let cap := m.chCap ch
  let c := m.getChan ch
  let mid := c'.reveal cap (m.chCut ch)
  let p := Chan.pump cap (mid.waiting.length + 1) mid 0
  let d := p.1.reveal cap (m.chCut ch)
  let th := 64 * m.rd (FQ_CHn_ROOMEV ch) fFQ_CHn_ROOMEV_ROOM
  let m1 := (m.setChan ch d).count (FQ_CHn_CNT ch) fFQ_CHn_CNT_FLUSHES p.2
  let m2 := m1.when (m1.bit (FQ_CHn_ROOMEV ch) fFQ_CHn_ROOMEV_EN && decide (cap - c.stored < th ∧ th ≤ cap - mid.stored))
    fun x => x.sendNamed (x.reg (FQ_CHn_ROOMEV ch))
  m2.when (d.visible != [] && (c.visible == [] || mid.visible == []) && m2.bit (FQ_CHn_AVEV ch) fFQ_CHn_AVEV_EN)
    fun x => x.sendNamed (x.reg (FQ_CHn_AVEV ch))

/-- Words reach a channel in order; those without room wait, and their producer is held (R194). -/
def Mach.chReceive (m : Mach) (ch : Nat) (l : List QWord) : Mach :=
  let c := m.getChan ch
  m.chPut ch { c with waiting := c.waiting ++ l }

/-- Drop the words up to and with the first that ends the packet, or up to the next that starts one; the flag says
whether the discarding goes on with later words (R205). -/
def dropPacket : List QWord → List QWord × Bool
  | [] => ([], true)
  | w :: r => if w.pe then (r, false) else if w.ps then (w :: r, false) else dropPacket r

/-- DROP_REM (R205). -/
def Mach.chDrop (m : Mach) (ch : Nat) : Mach :=
  let c := m.getChan ch
  let m1 := m.count (FQ_CHn_CNT ch) fFQ_CHn_CNT_DROPS
  if c.started then
    let p := dropPacket c.q
    let gone := ((c.q.take (c.q.length - p.1.length)).filter QWord.ie).length
    m1.chPut ch { c with q := p.1, dropping := p.2, started := false, vis := c.vis - gone,
                         tail := c.tail && !p.2 && decide (gone < c.vis) }
  else m1

/-- The words of the complete provisional items, which a flush leaves. -/
def flushKeep : Nat → List QWord → List QWord
  | 0, _ => []
  | k + 1, q => match firstItem q with
    | some it => (if it.all fun w => w.prov == 0 then [] else it) ++ flushKeep k (q.drop it.length)
    | none => []

/-- The words that a flush discards with their whole items. -/
def flushGone : Nat → List QWord → List QWord
  | 0, _ => []
  | k + 1, q => match firstItem q with
    | some it => (if it.all fun w => w.prov == 0 then it else []) ++ flushGone k (q.drop it.length)
    | none => []

/-- The channel's own part of FLUSH (R206, steps 1 to 4): the consumer's packet goes on unless its PE is discarded. -/
def Chan.flush (c : Chan) : Chan :=
  { c with q := flushKeep c.q.length c.q, voiding := c.writing || c.voiding, vis := 0,
           started := c.started && !(flushGone c.q.length c.q).any QWord.pe }

/-- The words a FETCH takes from the first visible item: at most `n` (R198). -/
def Mach.chTake (m : Mach) (ch n : Nat) (run : RunId) : Mach × List QWord :=
  let c := m.getChan ch
  match c.visible with
  | [] => (m, [])
  | it :: _ =>
    let l := it.take n
    let ended := match l.getLast? with | some w => w.pe | none => false
    (m.chPut ch { c with
        q := c.q.drop l.length
        out := if l = [] ∨ run = 0 then c.out else c.out ++ [(run, l)]
        started := if l = [] then c.started else !ended
        vis := if l.length = it.length then c.vis - 1 else c.vis }, l)

/-- Make a run's consumption of a channel final (R663). -/
def Mach.chCommit (m : Mach) (run : RunId) (ch : Nat) : Mach :=
  let c := m.getChan ch
  m.chPut ch { c with
    out := c.out.filter fun o => o.1 != run
    q := c.q.map fun w => if w.prov = run then { w with prov := 0 } else w
    waiting := c.waiting.map fun w => if w.prov = run then { w with prov := 0 } else w }

/-- Return a run's consumption to the head of the channel and discard its items (R663, R665). -/
def Mach.chVoid (m : Mach) (run : RunId) (outs ins : Bool) (ch : Nat) : Mach :=
  let c := m.getChan ch
  let back := ((c.out.filter fun o => o.1 == run).map fun o => o.2).flatten
  let c1 := if ins && back != [] then
      { c with out := c.out.filter (fun o => o.1 != run), q := back ++ c.q, vis := c.vis + (back.filter QWord.ie).length,
               started := match back with | w :: _ => !w.ps | [] => c.started }
    else c
  let mid := match c1.waiting with | w :: _ => w.prov == run | [] => false
  m.chPut ch (if outs then { c1 with q := c1.q.filter (fun w => w.prov != run),
                                     waiting := c1.waiting.filter (fun w => w.prov != run),
                                     writing := c1.writing && !mid, voiding := c1.voiding && !mid } else c1)

/-- The first unit of a channel's store: fixed on the mailbox channels (R211). -/
def Mach.chFirst (m : Mach) (ch : Nat) : Nat :=
  if 248 ≤ ch then 736 + 4 * (ch - 248) else m.rd (FQ_CHn_STORE ch) fFQ_CHn_STORE_BASE

/-- The producer port of a channel (R211, R212). -/
def Mach.chProd (m : Mach) (ch : Nat) : Nat := if 252 ≤ ch then portLC else m.rd (FQ_CHn_CFG ch) fFQ_CHn_CFG_PROD

/-- The consumer port of a channel. -/
def Mach.chCons (m : Mach) (ch : Nat) : Nat :=
  if 248 ≤ ch ∧ ch < 252 then portLC else m.rd (FQ_CHn_CFG ch) fFQ_CHn_CFG_CONS

/-- Whether a port code can serve as an end of a channel (R212). -/
def portServes (p : Nat) : Bool := p != portFQ && p != portNVM && p != 0xFF

/-- Whether a channel is enabled. -/
def Mach.chOn (m : Mach) (ch : Nat) : Bool := m.bit (FQ_CHn_CFG ch) fFQ_CHn_CFG_ENABLE

/-- Whether a channel takes an item of a port: enabled, and the port its producer (R193, R212). -/
def Mach.chTakes (m : Mach) (src ch : Nat) : Bool := m.chOn ch && src == m.chProd ch && portServes src

/-- A channel answers an item REFUSED and reports it (R192, R193, R763). -/
def Mach.chRefuse (m : Mach) (src ch : Nat) : Mach :=
  (m.setChan ch { m.getChan ch with refused := some src }).report blkFQ kRefused ch

/-- Whole items of a block reach a channel: stored, or answered REFUSED (R193). -/
def Mach.chFrom (m : Mach) (src ch : Nat) (l : List QWord) : Mach :=
  if m.chTakes src ch then m.chReceive ch l else m.chRefuse src ch

/-- A QITEM reaches a channel (R192 to R194): `arg` is the header's ARG[23:8]. -/
def Mach.qitem (m : Mach) (src ch : Nat) (arg : BitVec 16) (l : List Code) : Mach :=
  let last := (arg.extractLsb' 9 5).toNat
  if last == 0 || decide (16 < last) then m.chRefuse src ch
  else m.chFrom src ch (sideWords (arg.getLsbD 15) (arg.getLsbD 14) last (arg.extractLsb' 1 8).toNat true 0 true l)

/-- Deliver a word: checked under the common code and its parity, not corrected (R208). -/
def Mach.chDeliver (m : Mach) (ch : Nat) (w : QWord) : Mach × Read :=
  let okPar := sideOnes w.side w.par % 2 = 0
  let addr := ch * 2 ^ 32 + m.chFirst ch * 64
  match classifyCheck w.code with
  | .clean => if okPar then (m, ⟨w.code, none⟩)
    else ((m.count (FQ_CHn_CNT ch) fFQ_CHn_CNT_POISONED).note portFQ 5 w.code addr, ⟨w.code, some (poisonWord 5 false 0 0)⟩)
  | .storedPoison =>
    let p := poisonWord 5 true (synd1 w.code) (synd0 w.code)
    if okPar then (m, ⟨w.code, some p⟩)
    else ((m.count (FQ_CHn_CNT ch) fFQ_CHn_CNT_POISONED).note portFQ 5 w.code addr, ⟨w.code, some p⟩)
  | _ => ((m.count (FQ_CHn_CNT ch) fFQ_CHn_CNT_POISONED).note portFQ 5 w.code addr,
          ⟨w.code, some (poisonWord 5 false (synd1 w.code) (synd0 w.code))⟩)

/-- Deliver words in order. -/
def Mach.chDelivers (m : Mach) (ch : Nat) : List QWord → Mach × List Read
  | [] => (m, [])
  | w :: r => let x := m.chDeliver ch w; let y := x.1.chDelivers ch r; (y.1, x.2 :: y.2)

/-- The four INT of a word in mode RAW32, or four POISON (R113, R208). -/
def Read.raw32 (r : Read) : List TWord :=
  match r.poison with
  | some p => [p, p, p, p]
  | none =>
    let d := codeData r.code
    [intWord (d.extractLsb' 0 32).toNat, intWord (d.extractLsb' 32 32).toNat, intWord (d.extractLsb' 64 32).toNat,
     intWord (d.extractLsb' 96 32).toNat]

/-- The two words of a code word in mode TAG: a stored KEY or reserved tag lands as POISON (R113, R505). -/
def Read.tagged (r : Read) : List TWord :=
  match r.poison with
  | some p => [p, p]
  | none => [getHalf (codeData r.code) false, getHalf (codeData r.code) true].map fun w =>
      if wTag w ≤ 4 ∨ wTag w = 6 ∨ wTag w = tagPOISON then w else poisonWord 3 false 0 0

/-- The code word of four RAW32 words; poisoned when one of them is POISON (R113). -/
def rawCode (a b c d : TWord) : Code :=
  let v : BitVec 128 := (d.extractLsb' 0 32 : BitVec 32) ++ (c.extractLsb' 0 32 : BitVec 32) ++
    (b.extractLsb' 0 32 : BitVec 32) ++ (a.extractLsb' 0 32 : BitVec 32)
  if [a, b, c, d].any fun w => wTag w == tagPOISON then encodePoison v else encodeCode v

/-- The code words of RAW32 words, four to a code word. -/
def rawCodes : Nat → List TWord → List Code
  | 0, _ => []
  | _ + 1, [] => []
  | k + 1, l => rawCode (l.getD 0 0) (l.getD 1 0) (l.getD 2 0) (l.getD 3 0) :: rawCodes k (l.drop 4)

/-- The code words of tagged words, two to a code word. -/
def tagCodes : Nat → List TWord → List Code
  | 0, _ => []
  | _ + 1, [] => []
  | k + 1, l => encodeCode (putHalf (putHalf 0 false (l.getD 0 0)) true (l.getD 1 0)) :: tagCodes k (l.drop 2)

end Sys2Proof.Machine
end

