-- ==== Sys2Proof/Machine/Run.lean ====
section
/-! DEFINITION. The life of a task run: commit (R662), stop (R134, R665), abandon (R132, R664, R665, R770), and the
landing of pending results (R95, R99, R124). -/

namespace Sys2Proof.Machine

/-! ### Landing -/

/-- Write one landed value: t0 discards it (R100). -/
def Te.landOne (t : Te) (p : Pend) : Te :=
  match p.tgt with
  | .reg 0 => t
  | .reg r => { t with ctx := { t.ctx with regs := tabSet 0 t.ctx.regs r p.val } }
  | .flag f => { t with ctx := { t.ctx with fl := setFl t.ctx.fl f (p.val != 0) } }
  | .dz .. => t

/-- Land values in order. -/
def Te.landList (t : Te) : List Pend → Te
  | [] => t
  | p :: r => (t.landOne p).landList r

/-- A division trap among pending writes. -/
def findDz : List Pend → Option PTgt
  | [] => none
  | p :: r => match p.tgt with
    | .dz .. => some p.tgt
    | _ => findDz r

/-- Land everything due in slot `s`, in issue order (R95). -/
def Te.landSlot (t : Te) (s : Nat) : Te :=
  { t.landList (t.pend.filter fun p => p.slot == s) with pend := t.pend.filter fun p => p.slot != s }

/-- Land everything due in slots `s` to `s + k - 1`. -/
def Te.landFrom (t : Te) (s : Nat) : Nat → Te
  | 0 => t
  | k + 1 => (t.landSlot s).landFrom (s + 1) k

/-- The highest landing slot pending. -/
def lastSlot : List Pend → Nat
  | [] => 0
  | p :: r => max p.slot (lastSlot r)

/-- The lowest landing slot pending from a start. -/
def firstSlot : Nat → List Pend → Nat
  | d, [] => d
  | d, p :: r => min p.slot (firstSlot d r)

/-- Land every pending write in landing order (R99). -/
def Te.landAll (t : Te) : Te :=
  let a := firstSlot t.slotNo t.pend
  t.landFrom a (lastSlot t.pend + 1 - a)

/-- Land what is due before the instruction of the engine's current slot reads its operands (R93). -/
def Te.landDue (t : Te) : Te :=
  let a := firstSlot t.slotNo t.pend
  t.landFrom a (t.slotNo + 1 - a)

/-- A division trap due by the current slot (R124). -/
def Te.dzDue (t : Te) : Option PTgt := findDz (t.pend.filter fun p => p.slot ≤ t.slotNo)

/-! ### Commit and void -/

/-- Make a run's SIGs final, on every engine's event queue (R661, R662). -/
def Mach.sigCommit (m : Mach) (run : RunId) : Mach :=
  m.forEach (List.range 16) fun x n =>
    if (x.getDsp n).evq.any (fun e => e.prov == run) || (x.getDsp n).held.any (fun e => e.prov == run) then
      (x.dspMod n fun d =>
        { d with
          evq := d.evq.map fun e => if e.prov = run then { e with prov := 0 } else e
          held := d.held.map fun e => if e.prov = run then { e with prov := 0 } else e }).evPump n
    else x

/-- Free a run's SIG entries without setting their flags (R187). -/
def Mach.sigVoid (m : Mach) (run : RunId) : Mach :=
  m.forEach (List.range 16) fun x n =>
    if (x.getDsp n).evq.any (fun e => e.prov == run) || (x.getDsp n).held.any (fun e => e.prov == run) then
      (x.dspMod n fun d =>
        { d with evq := d.evq.filter fun e => e.prov != run, held := d.held.filter fun e => e.prov != run }).evPump n
    else x

/-- Whether a channel holds something of a run. -/
def Chan.has (c : Chan) (run : RunId) : Bool :=
  c.q.any (fun w => w.prov == run) || c.waiting.any (fun w => w.prov == run) || c.out.any (fun o => o.1 == run)

/-- The channels that hold something of a run. -/
def Mach.chansOf (m : Mach) (run : RunId) : List Nat := (m.chans.filter fun e => e.2.has run).map fun e => e.1

/-- Whether an output's target is a router or uplink unit: its record is LOCAL (R674). -/
def localUnit (target : Nat) : Bool := (0x50 ≤ target && target ≤ 0x5F) || (0x60 ≤ target && target ≤ 0x63)

/-- Whether every output of a non-empty run is local (R674). -/
def allLocal (outs : List Output) : Bool := outs != [] && outs.all fun o => o.kind == 1 && localUnit o.target

end Sys2Proof.Machine
end

