-- ==== Sys2Proof/Machine/LcBase.lean ====
section
/-! DEFINITION. The lantern core's landing, vectors and interrupts (R93 to R99, R140 to R143), and the lantern's power states
(R143, R703). -/

namespace Sys2Proof.Machine

/-- Whether the lantern domain is powered (SYS_DOMSTAT.LANT_STATE, R19). -/
def Mach.lanternOn (m : Mach) : Bool := m.rd SYS_DOMSTAT fSYS_DOMSTAT_LANT_STATE != 0

/-! ### Power (R143, R703) -/

/-- The lantern enters Run (1), Doze (2) or Bivouac (3): SYS_DOMSTAT and MSH_PWRSTAT show it (R43, R703). -/
def Mach.lanternState (m : Mach) (s : Nat) : Mach :=
  (m.wr SYS_DOMSTAT fSYS_DOMSTAT_LANT_STATE s).wr (PWRSTAT blkMSH) fPWRSTAT_STATE (s - 1)

/-- The lantern wakes: a wake from Bivouac counts (R704). -/
def Mach.lanternWake (m : Mach) : Mach :=
  if m.rd SYS_DOMSTAT fSYS_DOMSTAT_LANT_STATE = 3 then (m.lanternState 1).count (PWRSTAT blkMSH) fPWRSTAT_WAKES
  else if m.rd SYS_DOMSTAT fSYS_DOMSTAT_LANT_STATE = 2 then m.lanternState 1
  else m

/-! ### Landing (R93 to R99) -/

/-- Whether LC issues: powered, in Run, not in a WAIT. -/
def Mach.lcIssues (m : Mach) : Bool := m.rd SYS_DOMSTAT fSYS_DOMSTAT_LANT_STATE == 1 && m.lc.st / 2 == 0

/-- Whether the fault vector runs (R142). -/
def Lc.inFault (l : Lc) : Bool := l.st % 2 == 1

/-- Write one landed value. -/
def Lc.landOne (l : Lc) (p : Pend) : Lc :=
  match p.tgt with
  | .reg r => { l with regs := tabSet 0 l.regs r p.val.toNat }
  | .flag f => { l with fl := setFl l.fl f (p.val != 0) }
  | .dz .. => l

/-- Land values in order. -/
def Lc.landList (l : Lc) : List Pend → Lc
  | [] => l
  | p :: r => (l.landOne p).landList r

/-- Land what is due in slots `s` to `s + k - 1`, in issue order (R95). -/
def Lc.landFrom (l : Lc) (s : Nat) : Nat → Lc
  | 0 => l
  | k + 1 =>
    Lc.landFrom { l.landList (l.pend.filter fun p => p.slot == s) with pend := l.pend.filter fun p => p.slot != s } (s + 1) k

/-- Land what is due before the current slot's instruction reads (R93). -/
def Lc.landDue (l : Lc) : Lc :=
  let a := firstSlot l.slotNo l.pend
  l.landFrom a (l.slotNo + 1 - a)

/-- Land everything pending (R99). -/
def Lc.landAll (l : Lc) : Lc :=
  let a := firstSlot l.slotNo l.pend
  l.landFrom a (lastSlot l.pend + 1 - a)

/-! ### Vectors and interrupts (R140 to R143) -/

/-- Enter a vector: the program counter and FL are saved, IE is cleared (R141). -/
def Lc.enter (l : Lc) (n back : Nat) : Lc :=
  { l with savedPc := back, savedFl := l.fl, fl := setFl l.fl 6 false, pc := 16 * n, bt := none, btc := 0, ending := 0 }

/-- LC starts at vector 0 after a fault of its fault vector (R140, R142). -/
def Lc.restart (l : Lc) : Lc := { l with st := 0, pc := 0, bt := none, btc := 0, ending := 0, fl := 0, pm := 0, restarting := true }

/-- The lowest interrupt pending of 2 to 7 (R140). -/
def Lc.nextIrq (l : Lc) : Option Nat := [2, 3, 4, 5, 6, 7].find? fun n => l.irq.getLsbD n

/-- The interrupt that LC takes at this boundary: FL.IE as the next instruction would see it is 1, and no delay slot is to come
(R93, R141). -/
def Mach.lcDue (m : Mach) : Option Nat :=
  if m.lcIssues && m.lc.landDue.fl.getLsbD 6 && m.lc.btc == 0 then m.lc.nextIrq else none

/-- Take a pending interrupt at a boundary (R141). What is pending keeps its distance: an interrupt is none of the events of R99
(DEDUCED, log 66). -/
def Mach.lcTake (m : Mach) : Mach :=
  match m.lcDue with
  | some n => m.lcMod fun l0 =>
      let l := l0.landDue
      { l.enter n l.pc with irq := l.irq &&& ~~~(1#8 <<< n) }
  | none => m

/-- Raise an interrupt source of LC (R140). A WAIT ends where interrupts are enabled: the lantern wakes and LC enters the vector
(R143); a running core takes the interrupt at its next boundary. -/
def Mach.lcRaise (m : Mach) (n : Nat) : Mach :=
  let m1 := m.lcMod fun l => { l with irq := l.irq ||| (1#8 <<< n) }
  if m1.lc.st / 2 ≠ 0 ∧ m1.lc.fl.getLsbD 6 then ((m1.lcMod fun l => { l with st := l.st % 2 }).lanternWake).lcTake else m1

end Sys2Proof.Machine
end

