-- ==== Sys2Proof/Machine/MeshPhy.lean ====
section
/-! DEFINITION. The mesh radio's coding (R382 to R389): header, whitener, convolutional encoder, interleaver, and the symbols or bit periods
of a PPDU. -/

namespace Sys2Proof.Machine

/-- Bytes most significant bit first (R385). -/
def bitsMsb (l : List Byte) : List Bool := l.flatMap fun b => (List.range 8).map fun i => b.getLsbD (7 - i)

/-! ### The header (R384) -/

/-- The CRC-8 of the header. -/
def hdrCrc : CrcParams := ⟨8, 0x07, 0, false, 0⟩

/-- The header of a payload of `len` bytes. -/
def phyHeader (len : Nat) : List Byte :=
  let h := bytesLE 1 len ++ bytesLE 1 0
  h ++ bytesLE 1 (crcOf hdrCrc h)

/-! ### The whitener (R385) -/

/-- One step of the register x^9 + x^5 + 1. -/
def whiteStep (r : BitVec 9) : BitVec 9 := r >>> 1 ||| (if xor (r.getLsbD 0) (r.getLsbD 5) then 0x100 else 0)

/-- Bits whitened from a state of the register on. -/
def whiten : BitVec 9 → List Bool → List Bool
  | _, [] => []
  | r, b :: l => xor b (r.getLsbD 0) :: whiten (whiteStep r) l

/-- A payload's bits, the register started anew at the first (R385). -/
def whitePayload (l : List Byte) : List Bool := whiten 0x1FF (bitsMsb l)

/-! ### The convolutional encoder (R386, R387) -/

/-- The parity of a generator over the register, the newest bit in bit 6. -/
def convBit (g : BitVec 7) (s : BitVec 7) : Bool := ((List.range 7).filter fun i => (g &&& s).getLsbD i).length % 2 == 1

/-- The coded bits of input bits, from the register on: generator 0o133 first, then 0o171. -/
def convCode : BitVec 7 → List Bool → List Bool
  | _, [] => []
  | s, b :: l =>
    let r : BitVec 7 := s >>> 1 ||| if b then 0x40 else 0
    convBit 0o133 r :: convBit 0o171 r :: convCode r l

/-- A part's bits with its tail and pad (R386). -/
def convPad (l : List Bool) : List Bool := l ++ List.replicate (6 + (32 - (l.length + 6) % 32) % 32) false

/-- The coded bits of a part: the encoder starts from state zero. -/
def convPart (l : List Bool) : List Bool := convCode 0 (convPad l)

/-! ### The interleaver (R388) -/

/-- One block of 64 coded bits, read out column by column. -/
def interleave (l : List Bool) : List Bool := (List.range 64).map fun k => l.getD (k % 8 * 8 + k / 8) false

/-- The blocks of a part, each interleaved on its own. -/
def interleaveAll : Nat → List Bool → List Bool
  | 0, _ => []
  | n + 1, l => interleave (l.take 64) ++ interleaveAll n (l.drop 64)

/-- The interleaved stream of a part. -/
def codedPart (l : List Bool) : List Bool := interleaveAll ((convPart l).length / 64) (convPart l)

/-! ### The PPDU (R382, R383, R389) -/

/-- Symbol j of a stream: bits 2j and 2j + 1 as (d, φ). -/
def pairBits : List Bool → List (Bool × Bool)
  | d :: p :: l => (d, p) :: pairBits l
  | _ => []

/-- What goes on the air for a frame: preamble, sync word, header, payload, as symbols in sweep mode and as bit periods in narrow mode. -/
def meshPpdu (narrow : Bool) (pre : Nat) (sync : W32) (frame : List Byte) : MeshAir :=
  let word := (List.range 32).map fun i => sync.getLsbD (31 - i)
  let parts := word ++ codedPart (bitsMsb (phyHeader frame.length)) ++ codedPart (whitePayload frame)
  if narrow then .narrow (bitsMsb (List.replicate pre 0x55) ++ parts)
  else .sweep (List.replicate pre (false, false) ++ pairBits parts)

/-- The halves of `n` wake patterns of a word (R411, R414). -/
def wakeBurst (n : Nat) (word : BitVec 16) : MeshAir :=
  let one := (bitsMsb [0xAA] ++ (List.range 16).map fun i => word.getLsbD (15 - i)).flatMap fun b => [b, !b]
  .keyed (List.replicate n one).flatten

end Sys2Proof.Machine
end

