-- ==== Sys2Proof/Machine/MeshRadioOps.lean ====
section
/-! DEFINITION. The mesh radio: states, transmission and its limits, reception, calibration, the wake receiver
(R373 to R418). -/

namespace Sys2Proof.Machine

/-! ### States (R375 to R378) -/

/-- The state the radio is in. -/
def Mach.mradState (m : Mach) : Nat := m.rd MSH_MSTAT fMSH_MSTAT_STATE

/-- The state the mode and the rest field ask for (R223, R376); the reserved mode 3 asks for no state below Tx and Rx (log 77). -/
def Mach.mradRest (m : Mach) : Nat :=
  match m.rd MSH_MCTL fMSH_MCTL_MODE with
  | 0 => 0
  | 1 => 1
  | 2 => if m.bit MSH_MCTL fMSH_MCTL_RET then 3 else 2
  | _ => min 2 m.mradState

/-- The state to return to: Rx while a receive window of the link controller is open, the state of rest otherwise (R225, R423,
R434). -/
def Mach.mradAfter (m : Mach) : Nat :=
  match m.mlink.window with
  | some w => if w.closed ∨ m.rd MSH_MCTL fMSH_MCTL_MODE ≠ 2 then m.mradRest else 3
  | none => m.mradRest

/-- The output MTXEN: 1 in Tx (R374, R375). -/
def Mach.mtxEn (m : Mach) : Bool := m.mradState == 4

/-- The output MPAEN: 1 in Tx with EXT_PA (R374, R375). -/
def Mach.mpaEn (m : Mach) : Bool := m.mradState == 4 && m.bit MSH_MTXCFG fMSH_MTXCFG_EXT_PA

/-- The output MLNAEN: 1 in Rx (R374, R375). -/
def Mach.mlnaEn (m : Mach) : Bool := m.mradState == 3

/-- The next state on the way from `s` to `t` by the transitions of R375. -/
def mradHop (s t : Nat) : Nat :=
  if s ≤ 3 ∧ t = 0 then 0
  else if s = 0 then 1
  else if s = 1 then (if t = 1 then 1 else 2)
  else if t ≤ 1 ∧ s ≠ 2 then 2
  else t

/-- Begin a transition, or hold the command behind the one under way and those that wait (R226, R376). -/
def Mach.mradGo (m : Mach) (t : Nat) : Mach :=
  let s := m.mradState
  if m.mrad.moving.isSome then m.mradMod fun r => { r with next := r.next ++ [t] }
  else if s = t then m
  else
    let h := mradHop s t
    m.mradMod fun r => { r with moving := some h, next := if h = t then r.next else t :: r.next }

/-- Whether a transmission is on the air or a calibration runs. -/
def Mach.mradWorks (m : Mach) : Bool := m.mrad.txOn || m.mrad.cal.isSome

/-- The work of a slot asks for a state; a radio whose mode is not ON stays where it is, and one that transmits, calibrates, or receives
while it would have to leave Rx moves when that has ended (R223, R225, R376). -/
def Mach.mradSlot (m : Mach) (target : Nat) : Mach :=
  m.when (m.rd MSH_MCTL fMSH_MCTL_MODE = 2 ∧ !m.mradWorks ∧ (target = 3 ∨ m.mrad.rx.phase = 0)) fun x => x.mradGo target

/-- A radio that neither transmits, receives nor calibrates goes to the state that its mode and its window ask for (R223, R225, R376). -/
def Mach.mradRelax (m : Mach) : Mach :=
  if m.mradWorks ∨ m.mrad.rx.phase ≠ 0 then m else m.mradGo m.mradAfter

/-- A new channel number is accepted: outside Off and Sleep the synthesiser settles on it (R375, R377). -/
def Mach.mradRetune (m : Mach) : Mach :=
  m.when (2 ≤ m.mradState) fun x => (x.wr MSH_MSTAT fMSH_MSTAT_LOCK 0).mradMod fun r => { r with settling := true }

/-- A transition ends: the outputs follow the state, and the commands that waited act in turn (R226, R375). -/
def Mach.mradArrive (m : Mach) : Mach :=
  match m.mrad.moving with
  | some s =>
    let w := dropSame s m.mrad.next
    let m1 := (m.wr MSH_MSTAT fMSH_MSTAT_STATE s).mradMod fun r => { r with moving := none, next := w.drop 1 }
    let m2 := if s ≤ 1 then m1.wr MSH_MSTAT fMSH_MSTAT_LOCK 0
      else if m1.mrad.settling || m1.mrad.relock then m1 else m1.wr MSH_MSTAT fMSH_MSTAT_LOCK 1
    match w with
    | t :: _ => m2.mradGo t
    | [] => m2
  | none => m

/-! ### Limits of a transmission (R373, R390, R405 to R409) -/

/-- The occupied width of a profile in kHz (R373, R379, R381). -/
def phyWidth (v : W32) : Nat :=
  if getFld v fMSH_MPHYk_NARROW = 1 then 100 * 2 ^ getFld v fMSH_MPHYk_RATE else 200 * 2 ^ getFld v fMSH_MPHYk_BW

/-- PRE_LEN of a profile, limited to 8 to 64 (R382). -/
def phyPre (v : W32) : Nat := min 64 (max 8 (getFld v fMSH_MPHYk_PRE_LEN))

/-- The duration of a symbol or bit period of a profile in ns (R379, R381). -/
def phyUnit (v : W32) : Nat :=
  if getFld v fMSH_MPHYk_NARROW = 1 then 20000 / 2 ^ getFld v fMSH_MPHYk_RATE else 64000 * 2 ^ getFld v fMSH_MPHYk_SF

/-- Payload blocks of a frame of `len` bytes (R387). -/
def phyBlocks (len : Nat) : Nat := (8 * len + 6 + 31) / 32

/-- The air time of a PPDU in ns, ramps included (R390). -/
def phyAir (v : W32) (len : Nat) : Nat :=
  (if getFld v fMSH_MPHYk_NARROW = 1 then 8 * phyPre v + 32 + 64 + 64 * phyBlocks len
   else phyPre v + 16 + 32 + 32 * phyBlocks len) * phyUnit v + 16000

/-- The time of preamble and sync word in ns (R434). -/
def phySync (v : W32) : Nat :=
  (if getFld v fMSH_MPHYk_NARROW = 1 then 8 * phyPre v + 32 else phyPre v + 16) * phyUnit v

/-- The air time of a transmission in ns (R390, R414). -/
def Mach.meshAir (m : Mach) (t : MeshTx) : Nat :=
  if t.burst = 0 then phyAir (m.reg (MSH_MPHYk t.profile)) t.frame.length else t.burst * 12000000 + 16000

/-- The occupied width of a transmission in kHz (R373, R414). -/
def Mach.meshWidth (m : Mach) (t : MeshTx) : Nat := if t.burst = 0 then phyWidth (m.reg (MSH_MPHYk t.profile)) else 50

/-- Whether a band in half kHz lies inside 863 to 870 MHz or 902 to 928 MHz (R373). -/
def bandOk (chan width : Nat) : Bool :=
  let lo := 2 * (850000 + 25 * chan) - width
  let hi := 2 * (850000 + 25 * chan) + width
  decide (2 * 863000 ≤ lo ∧ hi ≤ 2 * 870000) || decide (2 * 902000 ≤ lo ∧ hi ≤ 2 * 928000)

/-- A byte of the settings copy by its record offset (R405, R406). -/
def MeshRadio.byteAt (r : MeshRadio) (off : Nat) : Nat := (r.copy.getD (off - 0x44) 0).toNat

/-- A 16-bit field of the settings copy. -/
def MeshRadio.wordAt (r : MeshRadio) (off : Nat) : Nat := r.byteAt off + 256 * r.byteAt (off + 1)

/-- Whether a channel's occupied band lies within entry `e` (R407). -/
def MeshRadio.entryFits (r : MeshRadio) (e chan width : Nat) : Bool :=
  decide (50 * r.wordAt (0x48 + 6 * e) + width ≤ 50 * chan) && decide (50 * chan + width ≤ 50 * r.wordAt (0x4A + 6 * e))

/-- The entry whose band holds a transmission (R407). -/
def MeshRadio.entry (r : MeshRadio) (chan width : Nat) : Option Nat :=
  (List.range (r.byteAt 0x44)).find? fun e => r.entryFits e chan width

/-- The milliseconds counted for an entry (R409). -/
def MeshRadio.used (r : MeshRadio) (e : Nat) : Nat := (tabGet [] r.buckets e).sum

/-- The drive of a transmission in half-dBm, and whether it is clamped (R408); none for POWER_FLOOR. -/
def Mach.meshPower (m : Mach) (maxEirp : Int) : Option Bool :=
  let c := m.reg MSH_MTXCFG
  let req := signedOf 8 (m.rd MSH_MTXPWR fMSH_MTXPWR_PWR)
  let p := min req (min (maxEirp - signedOf 8 (getFld c fMSH_MTXCFG_ANT_GAIN)) 54)
  let gain : Int := if getFld c fMSH_MTXCFG_EXT_PA = 1 then signedOf 8 (getFld c fMSH_MTXCFG_EXT_PA_GAIN) else 0
  let drive := min (p - gain) (if getFld c fMSH_MTXCFG_FK1_MASK = 1 then 25 else 28)
  if drive < -20 then none else some (decide (drive + gain < req))

/-- Judge a transmit: the first refusal in the order of R410, or its entry and whether it is clamped. -/
def Mach.meshJudge (m : Mach) (t : MeshTx) : Except Nat (Nat × Bool) :=
  let r := m.mrad
  let air := m.meshAir t
  if m.rd MSH_MCTL fMSH_MCTL_MODE ≠ 2 ∨ m.mradState = 0 ∨ !m.bit SYS_DOMSTAT fSYS_DOMSTAT_VBAK_GOOD then .error 0x12
  else if !r.copyOk ∨ r.byteAt 0x44 = 0 ∨ 4 < r.byteAt 0x44 then .error 0x17
  else match (if bandOk t.chan (m.meshWidth t) then r.entry t.chan (m.meshWidth t) else none) with
    | none => .error 0x16
    | some e =>
      let duty := r.byteAt (0x4C + 6 * e)
      if r.byteAt 0x45 ≠ 0 ∧ r.byteAt 0x45 * 10000000 < air then .error 0x1A
      else if duty ≠ 255 ∧ duty * r.wordAt 0x46 < r.used e + (air + 999999) / 1000000 then .error 0x19
      else match m.meshPower (signedOf 8 (r.byteAt (0x4D + 6 * e))) with
        | none => .error 0x1B
        | some c => .ok (e, c)

/-- Show the counted air time of the four entries (R418). -/
def Mach.dutyShow (m : Mach) : Mach :=
  m.forEach (List.range 4) fun x e => x.setReg (MSH_DUTYe e) (BitVec.ofNat 32 (x.mrad.used e))

/-- Count a transmission's air time in the current bucket of its entry, where its DUTY is not 255 (R409). -/
def Mach.dutyCount (m : Mach) (e ms : Nat) : Mach :=
  if m.mrad.byteAt (0x4C + 6 * e) = 255 then m
  else (m.mradMod fun r =>
    { r with buckets := tabMod [] r.buckets e fun l => match l with | [] => [ms] | b :: t => (b + ms) :: t }).dutyShow

/-- End a transmit with a status: counters, MSH_MTXLAST, and the completion to the link controller (R410, R453). -/
def Mach.meshTxDone (m : Mach) (t : MeshTx) (st : Nat) : Mach :=
  let m1 := if st = 0 then m
    else ((m.count MSH_MTXCNT (if st = 1 then fMSH_MTXCNT_CLAMPED else fMSH_MTXCNT_REFUSED)).wr MSH_MTXLAST
      fMSH_MTXLAST_STATUS st).wr MSH_MTXLAST fMSH_MTXLAST_CHAN t.chan
  let m2 := m1.mradMod fun r => { r with tx := none, txOn := false }
  if t.lk then (m2.mlinkMod fun l => { l with busy := none, ports := tabSet 0 l.ports 0xF30D (BitVec.ofNat 8 st) }).lcRaise 2
  else m2

/-- What a transmission sends: a PPDU under its profile (R382 to R389), or a burst of wake patterns (R411, R414). -/
def Mach.meshWave (m : Mach) (t : MeshTx) : MeshAir :=
  let v := m.reg (MSH_MPHYk t.profile)
  if t.burst = 0 then meshPpdu (getFld v fMSH_MPHYk_NARROW == 1) (phyPre v) (m.reg MSH_MSYNC) t.frame
  else wakeBurst t.burst (BitVec.ofNat 16 (m.rd MSH_WAKEWORD fMSH_WAKEWORD_WORD))

/-- An instant in TB4 ns at the resolution of a stamp, one step of 31.25 ns (R399). -/
def tb4Step (ns : Nat) : Nat := ns * 4 / 125 * 125 / 4

/-- A stamp of TB4 with a delay in ns taken off or added (R399). -/
def Mach.tb4Stamp (m : Mach) (delay : Int) : Nat × Nat :=
  let t := tb4Step (((m.getBase 4).nsTotal : Int) + delay).toNat
  (t / 1000000000 % 2 ^ 16, t % 1000000000)

/-- The TB4 instant at which the sync word of a frame started now ends at the antenna port (R399, R427). -/
def Mach.syncEnd (m : Mach) (profile : Nat) : Nat :=
  tb4Step ((m.getBase 4).nsTotal + 8000 + phySync (m.reg (MSH_MPHYk profile)) + m.rd MSH_MTSDLY fMSH_MTSDLY_TX)

/-- Put a judged transmission on the air: its air time counts in the bucket in which it starts, and a PPDU takes its stamp (R375, R399,
R409). -/
def Mach.meshTxStart (m : Mach) (t : MeshTx) (e : Nat) (clamped : Bool) : Mach :=
  ((m.mradMod fun r => { r with tx := some { t with clamped := clamped }, txOn := true, rx := MeshRx.zero, air := m.meshWave t,
                                    stamp := if t.burst = 0 then m.syncEnd t.profile else r.stamp }).dutyCount e
    ((m.meshAir t + 999999) / 1000000)).mradGo 4

/-- A transmit reaches the radio: refused, held while the synthesiser settles or calibrates, ended LOCK_LOST while it
relocks, or started (R376 to R378, R410). -/
def Mach.meshTx (m : Mach) (t : MeshTx) : Mach :=
  match m.meshJudge t with
  | .error st => m.meshTxDone t st
  | .ok (e, c) =>
    if m.mrad.relock then m.meshTxDone t 0x11
    else if m.mrad.settling ∨ m.mrad.cal.isSome then m.mradMod fun r => { r with tx := some t, txOn := false }
    else m.meshTxStart t e c

/-- The synthesiser reports lock; a held transmit starts (R377). -/
def Mach.meshLock (m : Mach) : Mach :=
  let m1 := (m.wr MSH_MSTAT fMSH_MSTAT_LOCK 1).mradMod fun r => { r with settling := false, relock := false }
  match m.mrad.tx with
  | some t => if m.mrad.txOn then m1 else m1.meshTx t
  | none => m1

/-- The deadline of a held transmit passes: it is cancelled where lock has not come (R377). -/
def Mach.meshDeadline (m : Mach) : Mach :=
  match m.mrad.tx with
  | some t => if m.mrad.txOn ∨ m.bit MSH_MSTAT fMSH_MSTAT_LOCK then m else m.meshTxDone t 0x10
  | none => m

/-- The synthesiser loses lock: what the radio sends or holds ends LOCK_LOST (R378). -/
def Mach.meshLockLoss (m : Mach) : Mach :=
  if m.bit MSH_MSTAT fMSH_MSTAT_LOCK then
    let m1 := (m.wr MSH_MSTAT fMSH_MSTAT_LOCK 0).mradMod fun r => { r with relock := true }
    match m.mrad.tx with
    | some t =>
      let m2 := m1.meshTxDone t 0x11
      if m.mrad.txOn then m2.mradGo m1.mradAfter else m2
    | none => m1
  else m

/-! ### Reception (R391 to R399) -/

/-- The profile in force: that of the window opened last, or of the command under way. -/
def Mach.mradProfile (m : Mach) : Nat :=
  match m.mlink.window with
  | some w => w.profile
  | none => (m.mlink.busy.map fun c => c.profile).getD 0

/-- A reception ends with a status: MSH_MRXLAST shows it, and LK_STAT while the link controller runs a command (R398, R418,
R453). -/
def Mach.mradEnded (m : Mach) (st snr : Nat) : Mach :=
  let rssi := (BitVec.ofInt 16 m.mrad.rx.power).toNat
  (((m.wr MSH_MRXLAST fMSH_MRXLAST_RSSI rssi).wr MSH_MRXLAST fMSH_MRXLAST_SNR snr).wr MSH_MRXLAST fMSH_MRXLAST_STATUS st).when
    m.mlink.busy.isSome fun x => x.mlinkMod fun l => { l with ports := tabSet 0 l.ports 0xF30D (BitVec.ofNat 8 st) }

/-- A reception ends without a vector: its SNR is a value the spec does not state (R398, log 5). -/
def Mach.mradFailed (m : Mach) (st : Nat) : Mach := m.freeVal.2.mradEnded st (m.freeVal.1.toNat % 256)

/-- Deliver a receive vector, and the payload of an OK reception, to the link controller; the payload goes to the buffer an
LK_CMD window names (R397, R398, R453). -/
def Mach.meshDeliver (m : Mach) (st : Nat) (snr syncErr cfo : Nat) (payload : List Byte) : Mach :=
  let x := m.mrad.rx
  let prof := m.mradProfile
  let v := m.reg (MSH_MPHYk prof)
  let narrow := getFld v fMSH_MPHYk_NARROW
  let phy := narrow + 2 * getFld v fMSH_MPHYk_SF +
    16 * (if narrow = 1 then getFld v fMSH_MPHYk_RATE else getFld v fMSH_MPHYk_BW) + 64 * prof
  let rssi := (BitVec.ofInt 16 x.power).toNat
  let bytes := bytesLE 1 st ++ bytesLE 1 phy ++ bytesLE 1 x.len ++
    bytesLE 1 ((if x.restarted then 1 else 0) + if x.late then 2 else 0) ++ bytesLE 2 rssi ++ bytesLE 1 snr ++
    bytesLE 1 syncErr ++ bytesLE 2 cfo ++ bytesLE 2 x.tsS ++ bytesLE 4 x.tsNs
  let m1 := (m.mradEnded st snr).mlinkMod fun l => { l with lastRx := some ⟨bytes, payload⟩ }
  let m2 := match m.mlink.window with
    | some w => (match w.buf with
      | some b => m1.lcMod fun c => { c with sram := memWrite c.sram (0xC000 + 256 * b) payload }
      | none => m1)
    | none => m1
  m2.lcRaise 2

/-- The owner's reception ends; the searching correlator, if it holds a detection, becomes the owner (R392, R394). -/
def MeshRx.handOver (x : MeshRx) : MeshRx :=
  match x.searcher with
  | some p => { MeshRx.zero with phase := 1, power := p }
  | none => MeshRx.zero

/-- Without a reception left, the radio returns to its state (R225, R376). -/
def Mach.mradRxOver (m : Mach) : Mach := m.when (m.mrad.rx.phase = 0 ∧ m.mradState = 3) fun x => x.mradGo x.mradAfter

/-- Whether a reception ended at this very TB4 instant (R395). -/
def Mach.meshJustEnded (m : Mach) : Bool := decide (m.mrad.rx.phase = 0 ∧ m.mrad.rx.endAt = (m.getBase 4).nsTotal + 1)

/-- A correlator detects a preamble of a power in quarter-dBm (R391, R393 to R395); `snr` and `cfo` are what the radio measured of
the reception that it may supersede. -/
def Mach.meshDetect (m : Mach) (power : Int) (snr cfo : Nat) : Mach :=
  let x := m.mrad.rx
  let delta := min 31 (max 1 (m.rd MSH_MRXCTL fMSH_MRXCTL_RESTART_DELTA))
  if m.mradState ≠ 3 ∨ m.mrad.moving.isSome then m
  else if x.phase = 0 then m.mradMod fun r =>
    { r with rx := { MeshRx.zero with phase := 1, power := power,
                                      restarted := m.meshJustEnded && m.bit MSH_MRXCTL fMSH_MRXCTL_RESTART_EN &&
                                        decide (x.power + 4 * delta ≤ power) } }
  else if x.phase = 1 then m.mradMod fun r => { r with rx := { x with searcher := some power } }
  else if m.bit MSH_MRXCTL fMSH_MRXCTL_RESTART_EN ∧ x.power + 4 * delta ≤ power then
    let m1 := if x.phase = 3 then (m.count MSH_MRXCNT1 fMSH_MRXCNT1_SUPERSEDED).meshDeliver 0x10 snr x.syncErr cfo []
      else (m.count MSH_MRXCNT1 fMSH_MRXCNT1_FALSE_LOCK).mradFailed 0x21
    m1.mradMod fun r => { r with rx := { MeshRx.zero with phase := 1, power := power, restarted := true } }
  else m.mradMod fun r => { r with rx := { x with searcher := some power } }

/-- The owner's reception is abandoned as a false lock (R392). -/
def Mach.meshFalseLock (m : Mach) : Mach :=
  if m.mrad.rx.phase = 1 then
    (((m.count MSH_MRXCNT1 fMSH_MRXCNT1_FALSE_LOCK).mradFailed 0x21).mradMod fun r => { r with rx := r.rx.handOver }).mradRxOver
  else m

/-- The owner accepts its sync word: the RSSI is latched, the stamp taken; a window that has closed makes it LATE (R383,
R393, R396, R399). -/
def Mach.meshSync (m : Mach) (power : Int) (errs : Nat) : Mach :=
  let x := m.mrad.rx
  let ts := m.tb4Stamp (-(m.rd MSH_MTSDLY fMSH_MTSDLY_RX : Int))
  let lim := min 6 (getFld (m.reg (MSH_MPHYk m.mradProfile)) fMSH_MPHYk_SYNC_ERR)
  let late := match m.mlink.window with | some w => w.closed | none => false
  if x.phase = 1 ∧ errs ≤ lim then
    m.mradMod fun r =>
      { r with rx := { x with phase := 2, power := power, late := late, syncErr := errs, tsS := ts.1, tsNs := ts.2 } }
  else m

/-- The CRC-8 of R384. -/
def crc8 : CrcParams := ⟨8, 0x07, 0, false, 0⟩

/-- The header block is decoded and checked (R384, R398). -/
def Mach.meshHeader (m : Mach) (b0 b1 b2 : Byte) : Mach :=
  let x := m.mrad.rx
  if x.phase ≠ 2 then m
  else if crcOf crc8 [b0, b1] ≠ b2.toNat ∨ b0 = 0 ∨ b1.toNat / 64 ≠ 0 then
    (((m.count MSH_MRXCNT0 fMSH_MRXCNT0_HDR_FAIL).mradFailed 0x20).mradMod fun r => { r with rx := r.rx.handOver }).mradRxOver
  else m.mradMod fun r => { r with rx := { x with phase := 3, len := b0.toNat } }

/-- A reception ends: OK with its payload, or TRUNCATED (R398). -/
def Mach.meshRxEnd (m : Mach) (ok : Bool) (snr cfo : Nat) (payload : List Byte) : Mach :=
  let x := m.mrad.rx
  if x.phase ≠ 3 ∨ (ok ∧ payload.length ≠ x.len) then m
  else
    let m1 := if ok then m.count MSH_MRXCNT0 fMSH_MRXCNT0_OK else m.count MSH_MRXCNT1 fMSH_MRXCNT1_TRUNCATED
    let m2 := m1.meshDeliver (if ok then 0 else 0x11) snr x.syncErr cfo (if ok then payload else [])
    (m2.mradMod fun r => { r with rx := if x.searcher.isSome then r.rx.handOver
                                       else { MeshRx.zero with power := x.power, endAt := (m.getBase 4).nsTotal + 1 } }).mradRxOver

/-- A transmission ends: its status and stamp return, and the radio goes to rest (R225, R399, R410). -/
def Mach.meshTxEnd (m : Mach) : Mach :=
  match m.mrad.tx with
  | some t =>
    if m.mrad.txOn ∧ m.mradState = 4 then
      let m1 := if t.burst = 0 then m
        else (m.count MSH_WAKECNT fMSH_WAKECNT_BURSTS).mlinkMod fun l => { l with burstEnd := (m.getBase 4).nsTotal }
      (m1.meshTxDone t (if t.clamped then 1 else 0)).mradGo m.mradAfter
    else m
  | none => m

/-! ### Calibration, duty buckets, the wake receiver (R401, R402, R409, R412) -/

/-- Start a calibration, refused while a PPDU is sent or received (R402). -/
def Mach.meshCal (m : Mach) (kind : Nat) : Mach :=
  if (m.mrad.tx.isSome ∧ m.mrad.txOn) ∨ 2 ≤ m.mrad.rx.phase ∨ 3 ≤ kind then m.report blkMSH kRefused 0
  else (((m.wr MSH_MRCAL fMSH_MRCAL_KIND kind).wr MSH_MRCAL fMSH_MRCAL_GO 1).wr MSH_MSTAT fMSH_MSTAT_CAL_KIND kind).mradMod
    (fun r => { r with cal := some kind }) |>.mradGo 5

/-- A calibration that the link controller runs completes (R453). -/
def Mach.calReply (m : Mach) : Mach :=
  match m.mlink.busy with
  | some c => if c.op = 4 then
      (m.mlinkMod fun l => { l with busy := none, ports := tabSet 0 l.ports 0xF30D 0 }).lcRaise 2 else m
  | none => m

/-- A calibration completes (R402), and a lantern start goes on to the next (R401); an IRR gives the image rejection it measured and clears CAL_STALE. -/
def Mach.meshCalDone (m : Mach) (db : Nat) : Mach :=
  match m.mrad.cal with
  | some k =>
    let m1 := (m.wr MSH_MRCAL fMSH_MRCAL_GO 0).mradMod fun r => { r with cal := none }
    let m2 := if k = 1 then ((m1.wr MSH_MRCAL fMSH_MRCAL_IRR_DB db).wr MSH_MRCAL fMSH_MRCAL_DT_NOW 0).wr MSH_MSTAT
        fMSH_MSTAT_CAL_STALE 0 else m1
    let m3 := if m.mrad.startCal ∧ k < 2 then m2.meshCal (k + 1)
      else ((m2.mradMod fun r => { r with startCal := false }).mradGo m2.mradAfter).calReply
    match m3.mrad.tx with
    | some t => if m3.mrad.txOn then m3 else m3.meshTx t
    | none => m3
  | none => m

/-- The die temperature moved since the last IRR (R402). -/
def Mach.meshTemp (m : Mach) (dt : Nat) : Mach :=
  let m1 := m.wr MSH_MRCAL fMSH_MRCAL_DT_NOW (min 255 dt)
  if m.rd MSH_MRCAL fMSH_MRCAL_DT ≤ dt then (m1.wr MSH_MSTAT fMSH_MSTAT_CAL_STALE 1).lcRaise 2 else m1

/-- A duty bucket ends: a new current bucket opens, the oldest of 61 goes, and the buckets are saved (R409). -/
def Mach.dutyEnd (m : Mach) : Mach :=
  (m.mradMod fun r =>
    let b := r.buckets.map fun e => (e.1, (0 :: e.2).take 61)
    { r with buckets := b, saved := b }).dutyShow

/-- The wake receiver matches its word (R412, R413). -/
def Mach.wakeMatch (m : Mach) : Mach :=
  if m.bit MSH_WAKECTL fMSH_WAKECTL_EN && m.lanternOn && m.mradState != 4 then
    (m.count MSH_WAKECNT fMSH_WAKECNT_MATCHES).lcRaise 6
  else m

/-- A write of MSH_WAKECTL (R412): EN is refused while the word is 0x0000 or 0xFFFF. -/
def Mach.wakeWrite (m : Mach) (v : W32) : Mach :=
  let w := m.rd MSH_WAKEWORD fMSH_WAKEWORD_WORD
  let u := putFld (putFld (m.reg MSH_WAKECTL) fMSH_WAKECTL_CHAN (getFld v fMSH_WAKECTL_CHAN))
    fMSH_WAKECTL_WK_ERR (getFld v fMSH_WAKECTL_WK_ERR)
  if getFld v fMSH_WAKECTL_EN = 1 ∧ (w = 0 ∨ w = 0xFFFF) then (m.setReg MSH_WAKECTL u).report blkMSH kRefused 0
  else m.setReg MSH_WAKECTL (putFld u fMSH_WAKECTL_EN (getFld v fMSH_WAKECTL_EN))

end Sys2Proof.Machine
end

