-- ==== Sys2Proof/Machine/MeshFrames.lean ====
section
/-! DEFINITION. The lantern's templates, link frames, log and mailbox (R421 to R430, R444 to R450). -/

namespace Sys2Proof.Machine

/-! ### Templates (R421, R422, R424) -/

/-- A byte of a template. -/
def tplB (t : List Byte) (o : Nat) : Nat := (t.getD o 0).toNat

/-- A 16-bit field of a template. -/
def tplW (t : List Byte) (o : Nat) : Nat := tplB t o + 256 * tplB t (o + 1)

/-- SLOT_MS of a template. -/
def tplSlotMs (t : List Byte) : Nat := tplB t 6

/-- COUNT of a template. -/
def tplCount (t : List Byte) : Nat := tplW t 8

/-- BI of a template in ns (R421). -/
def tplBi (t : List Byte) : Nat := 256 * tplSlotMs t * 1000000

/-- The offset of entry `e`. -/
def tplE (e : Nat) : Nat := 16 + 8 * e

/-- Whether entry `e` occurs in superframe `k` (R422). -/
def tplOccurs (t : List Byte) (e k : Nat) : Bool := k % max 1 (tplB t (tplE e + 6)) == tplB t (tplE e + 7)

/-- The first failing field of an entry (R422, R424 step 4). -/
def tplEntryBad (t : List Byte) (e : Nat) : Option Nat :=
  let o := tplE e
  let kind := tplB t (o + 2)
  if tplB t (o + 1) = 0 ∨ 256 < tplB t o + tplB t (o + 1) then some (o + 1)
  else if 6 < kind then some (o + 2)
  else if (if kind = 6 then 2 else 3) < tplB t (o + 3) then some (o + 3)
  else if (if kind = 2 ∨ kind = 4 then tplW t (o + 4) = 0 ∨ 0x400 < tplW t (o + 4) else tplW t (o + 4) ≠ 0) then some (o + 4)
  else if tplB t (o + 6) = 0 then some (o + 6)
  else if tplB t (o + 6) ≤ tplB t (o + 7) then some (o + 7)
  else none

/-- Whether two entries meet in one slot of some superframe (R424 step 6). -/
def tplClash (t : List Byte) (a b : Nat) : Bool :=
  let x := tplE a
  let y := tplE b
  decide (tplB t x < tplB t y + tplB t (y + 1)) && decide (tplB t y < tplB t x + tplB t (x + 1)) &&
    (Nat.gcd (tplB t (x + 6)) (tplB t (y + 6)) == 0 ||
      (tplB t (x + 7) + 256 * Nat.gcd (tplB t (x + 6)) (tplB t (y + 6)) - tplB t (y + 7)) %
        Nat.gcd (tplB t (x + 6)) (tplB t (y + 6)) == 0)

/-- The first answer among a list. -/
def firstSome {α β : Type} (f : α → Option β) : List α → Option β
  | [] => none
  | x :: r => match f x with
    | some y => some y
    | none => firstSome f r

/-- The offset of the first failing field of a template (R424); none when it passes. -/
def tplCheck (t : List Byte) : Option Nat :=
  let n := tplCount t
  let es := List.range n
  let beacons := es.filter fun e => tplB t (tplE e + 2) == 0
  if slice 0 t 0 4 ≠ [0x46, 0x4A, 0x4D, 0x54] then some 0
  else if tplB t 4 ≠ 1 then some 4
  else if n = 0 ∨ 510 < n ∨ t.length < 16 + 8 * n then some 8
  else if 1 < tplB t 5 then some 5
  else if tplSlotMs t < 4 ∨ 250 < tplSlotMs t then some 6
  else if tplB t 7 = 0 then some 7
  else if 0xFFF < tplW t 0x0A then some 0x0A
  else match firstSome (tplEntryBad t) es with
    | some o => some o
    | none => match beacons with
      | [] => some 0x10
      | [e] =>
        if tplB t (tplE e) ≠ 0 then some (tplE e)
        else if tplB t (tplE e + 6) ≠ 1 then some (tplE e + 6)
        else match firstSome (fun b => firstSome (fun a => if tplClash t a b then some (tplE b) else none) (List.range b)) es with
          | some o => some o
          | none => firstSome (fun e =>
              if tplB t (tplE e + 2) = 6 ∧ tplB t (tplE e + 1) * tplSlotMs t < (if tplB t (tplE e + 3) = 1 then 2 else 1)
              then some (tplE e + 1) else none) es
      | _ :: e :: _ => some (tplE e + 2)

/-! ### Superframes -/

/-- TB4 in ns since its epoch. -/
def Mach.tb4 (m : Mach) : Nat := (m.getBase 4).nsTotal

/-- The BSN of the superframe under way (R421). -/
def Mach.bsn (m : Mach) : Nat := m.mlink.sfn % 256

/-- The start of superframe `k` of the template in force, in TB4 ns (R421). -/
def Mach.sfStart (m : Mach) (k : Nat) : Nat := k * tplBi m.mlink.force

/-- The entry of the template in force that covers slot `j` in superframe `k`. -/
def Mach.entryAt (m : Mach) (k j : Nat) : Option Nat :=
  (List.range (tplCount m.mlink.force)).find? fun e =>
    let o := tplE e
    tplOccurs m.mlink.force e k && decide (tplB m.mlink.force o ≤ j ∧ j < tplB m.mlink.force o + tplB m.mlink.force (o + 1))

/-! ### Items and the log (R445, R447, R449, R450) -/

/-- The bytes of an item: its header word and its payload (R445). -/
def MItem.bytes (i : MItem) : List Byte :=
  bytesLE 1 i.kind ++ bytesLE 1 i.flags ++ bytesLE 1 i.data.length ++ bytesLE 1 0 ++ bytesLE 2 i.mseq ++ bytesLE 2 i.orig ++
    bytesLE 2 i.tgt ++ bytesLE 2 i.seq ++ bytesLE 2 i.tsS ++ bytesLE 2 (i.tsNs / 1000000) ++ i.data

/-- An item read from the bytes of a channel item. -/
def MItem.ofBytes (l : List Byte) : MItem :=
  ⟨tplB l 0, tplB l 1, tplW l 4, tplW l 6, tplW l 8, tplW l 10, tplW l 12, tplW l 14 * 1000000, slice 0 l 16 (tplB l 2)⟩

/-- An item of now (R445). -/
def Mach.itemNow (m : Mach) (kind orig tgt seq : Nat) (data : List Byte) : MItem :=
  ⟨kind, 0, 0, orig, tgt, seq, m.tb4 / 1000000000 % 65536, m.tb4 % 1000000000, data⟩

/-- The bytes of a record: its header word and its payload (R449). -/
def LogRec.bytes (r : LogRec) : List Byte :=
  bytesLE 1 (r.type + 16 * r.flags) ++ bytesLE 1 r.ch ++ bytesLE 1 r.item.data.length ++ bytesLE 1 r.item.kind ++
    bytesLE 2 r.item.orig ++ bytesLE 2 r.item.seq ++ bytesLE 2 r.item.tsS ++ bytesLE 4 r.item.tsNs ++ bytesLE 2 r.lseq ++ r.item.data

/-- The item that a record goes out as: the logged item, or for a LOGREC the record itself (R446, R448, R450). -/
def LogRec.out (r : LogRec) : MItem :=
  { r.item with flags := r.item.flags ||| 1 ||| r.flags, data := if r.item.kind = 4 then r.bytes else r.item.data }

/-- The words a log record takes (R449). -/
def LogRec.words (r : LogRec) : Nat := 1 + (r.item.data.length + 15) / 16

/-- Drop the oldest records until the ring of 11,776 words holds the rest; counts undelivered ones (R449). -/
def logTrim (delivered : Nat) : List LogRec → List LogRec × Nat
  | [] => ([], 0)
  | r :: l =>
    if ((r :: l).map LogRec.words).sum ≤ 11776 then (r :: l, 0)
    else let x := logTrim delivered l; (x.1, x.2 + if delivered < r.lseq then 1 else 0)

/-- Show the log in MSH_LOGSTAT and SYS_DOMSTAT (R42, R452). -/
def Mach.logShow (m : Mach) : Mach :=
  let u := (m.mlink.log.filter fun r => decide (m.mlink.delivered < r.lseq)).length
  ((m.wr MSH_LOGSTAT fMSH_LOGSTAT_UNDELIV (min u 0xFFFF)).wr MSH_LOGSTAT fMSH_LOGSTAT_FILL_KIB
    (((m.mlink.log.map LogRec.words).sum * 16 + 1023) / 1024)).wr SYS_DOMSTAT fSYS_DOMSTAT_LOG_PENDING (if u = 0 then 0 else 1)

/-- Append a record to the message log (R449). -/
def Mach.logAppend (m : Mach) (type flags ch : Nat) (i : MItem) : Mach :=
  let s := m.mlink.lseq + 1
  let t := logTrim m.mlink.delivered (m.mlink.log ++ [⟨type, flags, ch, i, s⟩])
  ((m.mlinkMod fun l => { l with log := t.1, lseq := s, wrapped := l.wrapped || t.2 != 0 }).count MSH_LOGSTAT fMSH_LOGSTAT_LOST
    t.2).logShow

/-- The words of an item for a queue channel: one packet of one item. -/
def itemWords (l : List Byte) : List QWord :=
  let c := codesOf l
  sideWords true true (if l.length % 16 = 0 then 16 else l.length % 16) 0 true 0 true c

/-- Send an item on a lantern-to-main channel: it is outstanding until an ACK names it (R447). -/
def Mach.mboxSend (m : Mach) (ch : Nat) (i : MItem) : Mach :=
  let q := tabGet 0 m.mlink.mseq ch
  let j := { i with mseq := q }
  (m.mlinkMod fun l => { l with out := tabSet none l.out ch (some j), mseq := tabSet 0 l.mseq ch ((q + 1) % 65536) }).chFrom
    portLC ch (itemWords j.bytes)

/-- Post an item to the main domain: sent, waiting, or logged (R447, R449). -/
def Mach.mboxPost (m : Mach) (ch : Nat) (i : MItem) : Mach :=
  if !m.mlink.open_ then m.logAppend 0 0 ch i
  else if (tabGet none m.mlink.out ch).isNone ∧ tabGet [] m.mlink.waiting ch = [] ∧
      m.mlink.log.all (fun r => decide (r.lseq ≤ m.mlink.delivered)) then m.mboxSend ch i
  else if (tabGet [] m.mlink.waiting ch).length < 16 then
    m.mlinkMod fun l => { l with waiting := tabMod [] l.waiting ch fun w => w ++ [i] }
  else m.logAppend 0 0 ch i

/-- An EVENT item (R446). -/
def Mach.meshEvent (m : Mach) (code node data : Nat) : Mach :=
  m.mboxPost 254 (m.itemNow 0x03 0 0 0 (bytesLE 1 code ++ bytesLE 2 node ++ bytesLE 4 data))

/-- A RESP to a command (R446): the command's KIND and MSEQ, a status, an offset. It is sent before the mailbox is open too (R447),
and ahead of logged records (R448). -/
def Mach.meshResp (m : Mach) (i : MItem) (status off : Nat) : Mach :=
  let a := m.itemNow 0x02 0 0 0 (bytesLE 1 i.kind ++ bytesLE 2 i.mseq ++ bytesLE 1 status ++ bytesLE 2 off)
  let w := tabGet [] m.mlink.waiting 253
  if (tabGet none m.mlink.out 253).isNone ∧ w = [] then m.mboxSend 253 a
  else if w.length < 16 then m.mlinkMod fun l => { l with waiting := tabSet [] l.waiting 253 (w ++ [a]) }
  else m.logAppend 0 0 253 a

/-- Deliver what the channels can take: log records after the delivery pointer in log order first, then waiting items
(R40, R447, R448). -/
def Mach.mboxPump : Nat → Mach → Mach
  | 0, m => m
  | k + 1, m =>
    if !m.mlink.open_ then m
    else match m.mlink.log.find? fun r => decide (m.mlink.delivered < r.lseq) with
      | some r =>
        if (tabGet none m.mlink.out r.ch).isNone then
          let m1 := (m.mlinkMod fun l => { l with delivered := r.lseq }).logShow
          Mach.mboxPump k (m1.mboxSend r.ch r.out)
        else m
      | none =>
        match [252, 253, 254, 255].find? fun ch => (tabGet none m.mlink.out ch).isNone && tabGet [] m.mlink.waiting ch != [] with
        | some ch =>
          match tabGet [] m.mlink.waiting ch with
          | i :: r => Mach.mboxPump k ((m.mlinkMod fun l => { l with waiting := tabSet [] l.waiting ch r }).mboxSend ch i)
          | [] => m
        | none => m

/-- Deliver, and raise LOG_WRAP when delivery resumes after overwriting (R449). -/
def Mach.mboxDeliver (m : Mach) : Mach :=
  let m1 := if m.mlink.wrapped ∧ m.mlink.open_ then (m.mlinkMod fun l => { l with wrapped := false }).meshEvent 8 0 0 else m
  Mach.mboxPump (m1.mlink.log.length + 65) m1

/-! ### Link frames (R426 to R430) -/

/-- The CRC-16/CCITT of R248 and R428. -/
def crc16 : CrcParams := ⟨16, 0x1021, 0xFFFF, false, 0⟩

/-- A link frame taken apart (R426). -/
structure LinkFrame where
  type : Nat
  ackReq : Bool
  mic : Nat
  ttl : Nat
  dst : Nat
  src : Nat
  fcnt : Nat
  orig : Nat
  tgt : Nat
  seq : Nat
  anchor : Nat
  body : List Byte
  deriving DecidableEq, Repr

/-- The fields of a frame's bytes; the body is what follows byte 16 up to the CRC. -/
def LinkFrame.parse (l : List Byte) : LinkFrame :=
  let fc := tplB l 0
  ⟨fc / 16, fc / 8 % 2 = 1, fc % 4, tplB l 1 / 16, tplW l 2, tplW l 4, tplW l 6 + 65536 * tplW l 8, tplW l 10, tplW l 12,
   tplW l 14, tplB l 16, slice 0 l 17 (l.length - 19)⟩

/-- The 13-byte nonce of R428. -/
def linkNonce (netid src fcnt mic : Nat) : List Byte :=
  bytesLE 4 netid ++ bytesLE 2 src ++ bytesLE 2 0 ++ bytesLE 4 fcnt ++ bytesLE 1 (if mic = 2 then 6 else 5)

/-- Raise the own frame counter by one, write its mark when it reaches it, and raise FCNT_HIGH (R429). -/
def Mach.fcntNext (m : Mach) : Mach :=
  let f := m.mlink.fcnt + 1
  let m1 := (m.mlinkMod fun l => { l with fcnt := f, mark := if l.mark ≤ f then f + 65536 else l.mark }).setReg MSH_FCNTOWN
    (BitVec.ofNat 32 f)
  m1.when (f = 2 ^ 32 - 2 ^ 24) fun x => x.meshEvent 5 0 0

/-- A transmit of the lantern reaches the radio; a refusal with DUTY is an event (R409, R446). -/
def Mach.meshAsk (m : Mach) (t : MeshTx) : Mach :=
  match m.meshJudge t with
  | .error st => (m.meshTxDone t st).when (st = 0x19) fun x => x.meshEvent 7 0 0
  | .ok _ => m.meshTx t

/-- Give a transmission to the radio, or let it wait while another is on the air. -/
def Mach.airQueue (m : Mach) (t : MeshTx) : Mach :=
  if m.mrad.tx.isSome ∨ m.mlink.air ≠ [] then m.mlinkMod fun l => { l with air := l.air ++ [t] } else m.meshAsk t

/-- The transmissions that wait go to the radio in turn, until it holds one; each that it refuses has ended. -/
def Mach.airPump : Nat → Mach → Mach
  | 0, m => m
  | k + 1, m =>
    match m.mlink.air with
    | t :: r => if m.mrad.tx.isNone then Mach.airPump k ((m.mlinkMod fun l => { l with air := r }).meshAsk t) else m
    | [] => m

/-- The next waiting transmission goes to the radio. -/
def Mach.airNext (m : Mach) : Mach := Mach.airPump m.mlink.air.length m

/-- Send a link frame of the lantern on the network channel with a 4-byte MIC and its own next FCNT (R426 to R429);
nothing once the counter is spent. -/
def Mach.linkSend (m : Mach) (type : Nat) (ackReq : Bool) (ttl dst orig tgt seq profile : Nat) (payload : List Byte) : Mach :=
  if 2 ^ 32 - 1 ≤ m.mlink.fcnt then m
  else
    let m1 := m.fcntNext
    let f := m1.mlink.fcnt
    let hdr := bytesLE 1 (16 * type + (if ackReq then 8 else 0) + 1) ++ bytesLE 1 (16 * ttl) ++ bytesLE 2 dst ++ bytesLE 2 0 ++
      bytesLE 4 f ++ bytesLE 2 orig ++ bytesLE 2 tgt ++ bytesLE 2 seq ++ bytesLE 1 m.bsn
    let sealed := ccmSeal 4 m.mlink.key (linkNonce (m.reg MSH_NETID).toNat 0 f 1) hdr payload
    let c := crcOf crc16 (hdr ++ sealed)
    m1.airQueue ⟨0, false, profile, tplW m.mlink.force 0x0A, hdr ++ sealed ++ bytesLE 1 (c / 256) ++ bytesLE 1 c, false⟩

/-- The originator's next message sequence (R426). -/
def Mach.ownSeq (m : Mach) : Nat × Mach :=
  let q := tabGet 0 m.mlink.mseq 0
  (q, m.mlinkMod fun l => { l with mseq := tabSet 0 l.mseq 0 ((q + 1) % 65536) })

end Sys2Proof.Machine
end

