-- ==== Sys2Proof/Machine/MeshLinkOps.lean ====
section
/-! DEFINITION. The lantern's link layer: superframes, slots, receiving, neighbours, floods, the mailbox commands and the
link controller (R421 to R453). -/

namespace Sys2Proof.Machine

/-! ### Neighbours (R431 to R439) -/

/-- The index of a node's neighbour entry. -/
def MeshLink.nbrOf (l : MeshLink) (addr : Nat) : Option Nat :=
  (l.nbrs.find? fun e => e.2.addr == addr && e.2.state != 0).map fun e => e.1

/-- The lowest free entry of the 128. -/
def MeshLink.nbrFree (l : MeshLink) : Option Nat := (List.range 128).find? fun i => (tabGet Nbr.zero l.nbrs i).state == 0

/-- DMAX, at most 32767 (R452). -/
def Mach.dmax (m : Mach) : Nat := min 32767 (m.rd MSH_DRIFT fMSH_DRIFT_DMAX)

/-- Change a neighbour entry; MSH_LSTAT.NBRS shows their number. -/
def Mach.setNbr (m : Mach) (i : Nat) (n : Nbr) : Mach :=
  let m1 := m.mlinkMod fun l => { l with nbrs := tabSet Nbr.zero l.nbrs i n }
  m1.wr MSH_LSTAT fMSH_LSTAT_NBRS (m1.mlink.nbrs.filter fun e => e.2.state != 0).length

/-- An entry in learning: nothing known of its drift (R437, R439). -/
def Nbr.learn (n : Nbr) (dmax anchor : Nat) : Nbr :=
  { n with state := 1, misses := 0, attempts := 0, resync := 0, d := 0, r := dmax, dev := 0, nsamp := 0, anchor := anchor }

/-- The replay window's judgement and update (R431). -/
def Nbr.replay (n : Nbr) (f : Nat) : Option Nbr :=
  if n.hi < f then
    let sh := f - n.hi
    some { n with hi := f
                  seen := if 32 < sh then 0 else (if sh = 32 then 0 else n.seen <<< sh) ||| (1#32 <<< (sh - 1)) }
  else if f < n.hi ∧ n.hi - f ≤ 32 ∧ !n.seen.getLsbD (n.hi - f - 1) then
    some { n with seen := n.seen ||| (1#32 <<< (n.hi - f - 1)) }
  else none

/-- The superframe that an ANCHOR byte names: the latest with that BSN (R433). -/
def Mach.anchorSf (m : Mach) (a : Nat) : Nat := m.mlink.sfn - (m.mlink.sfn + 256 - a % 256) % 256

/-- The drift update of R436: `e` the deviation in ns, `dt` N − P in µs. `big` stands for a residual 2 × dev that r, a uint16, cannot
hold (log 5). -/
def Nbr.drift (n : Nbr) (e : Int) (dt rmin big : Nat) : Nbr :=
  let s := max (-32767) (min 32767 (Int.tdiv (e * 256000) dt))
  if n.nsamp < 4 then
    let d := Int.tdiv (n.d * n.nsamp + s) (n.nsamp + 1)
    let dev := max n.dev (s - d).natAbs
    { n with d := d, dev := dev, nsamp := n.nsamp + 1,
             r := if n.nsamp + 1 = 4 then (if 2 * dev < 65536 then max rmin (2 * dev) else big) else n.r,
             state := if n.nsamp + 1 = 4 then 2 else n.state }
  else { n with d := n.d + Int.tdiv (s - n.d) 4, r := max (max rmin (n.r - n.r / 8)) (s - n.d).natAbs }

/-- The guard of a window in ns (R434), for a span N − P or, after misses, N − A. -/
def Mach.guardNs (m : Mach) (n : Nbr) (toP toA : Nat) : Nat :=
  let gmin := m.rd MSH_GUARD fMSH_GUARD_GMIN_US * 1000
  let jit := 2 * m.rd MSH_GUARD fMSH_GUARD_JITTER_US * 1000
  if n.misses = 0 then max gmin (n.r * toP / 256000000 + jit) else max gmin ((n.d.natAbs + n.r) * toA / 256000000 + jit)

/-- A resync attempt fails: the next comes at the next UP_DED slot, or the neighbour is LOST and its downlink items are
answered (R437). -/
def Mach.attemptFails (m : Mach) (i : Nat) : Mach :=
  let n := tabGet Nbr.zero m.mlink.nbrs i
  if max 1 (m.rd MSH_LCTL fMSH_LCTL_RESYNC_MAX) ≤ n.attempts + 1 then
    let m1 := ((m.setNbr i { n with attempts := n.attempts + 1, resync := 0, state := 3 }).count MSH_LINKCNT fMSH_LINKCNT_LOST).meshEvent
      2 n.addr 0
    let mine := m.mlink.down.filter fun x => tabGet none m.mlink.routes x.tgt == some n.addr
    (m1.mlinkMod fun l => { l with down := l.down.filter fun x => tabGet none m.mlink.routes x.tgt != some n.addr }).forEach mine
      fun x it => x.meshResp it 4 0
  else m.setNbr i { n with attempts := n.attempts + 1, resync := 0 }

/-! ### Superframes and slots (R421, R423, R425) -/

/-- The instant at which a scheduled template applies: the first boundary of its own grid at or after the second (R425). -/
def applyAt (t : List Byte) (sec : Nat) : Nat := alignUp (sec * 1000000000) (max 1 (tplBi t))

/-- Put a template in force and report it (R425, R446, R448). -/
def Mach.tplForce (m : Mach) (t : List Byte) (which : Nat) : Mach :=
  ((m.mlinkMod fun l => { l with force := t, swapTo := 0 }).wr MSH_LSTAT fMSH_LSTAT_TPL which).meshEvent 6 0
    (tplW t 0x0C + 65536 * tplW t 0x0E)

/-- Whether a scheduled apply to slot 0 (LIVE) or 1 (BACKUP) changes the template in force (R425, R446, R448). -/
def Mach.applyForces (m : Mach) (slot : Nat) : Bool :=
  (slot == 0 && m.rd MSH_LSTAT fMSH_LSTAT_TPL != 2) || (slot == 1 && m.rd MSH_LSTAT fMSH_LSTAT_TPL == 2)

/-- Apply what is due at a superframe boundary: the STAGED template, or the one the supply asks for (R425, R448). -/
def Mach.tplBoundary (m : Mach) : Mach :=
  let l := m.mlink
  let m1 := match l.apply with
    | some (sec, slot) =>
      if applyAt l.staged sec ≤ m.tb4 then
        let m2 := m.mlinkMod fun x => if slot = 0 then { x with live := l.staged, apply := none }
          else { x with backup := l.staged, apply := none }
        if m.applyForces slot then m2.tplForce l.staged (slot + 1) else m2
      else m
    | none => m
  if m1.mlink.swapTo = 2 ∧ m1.mlink.backup ≠ [] then m1.tplForce m1.mlink.backup 2
  else if m1.mlink.swapTo = 1 ∧ m1.mlink.live ≠ [] then m1.tplForce m1.mlink.live 1
  else m1

/-- TB4 crosses a superframe boundary (R421). -/
def Mach.superframe (m : Mach) : Mach :=
  if m.lanternOn ∧ m.bit MSH_LCTL fMSH_LCTL_RUN then
    let m1 := m.tplBoundary
    if m1.mlink.force = [] then m1
    else
      let k := m1.tb4 / max 1 (tplBi m1.mlink.force)
      ((m1.mlinkMod fun l => { l with sfn := k }).setReg MSH_SFN (BitVec.ofNat 32 k)).wr MSH_LSTAT fMSH_LSTAT_BSN k
  else m

/-- The beacon (R423, R425, R427): FULL time every FULL_EVERY superframes; CHG in the last four superframes before a
template with another SLOT_MS applies. -/
def Mach.sendBeacon (m : Mach) (profile : Nat) : Mach :=
  let l := m.mlink
  let full := m.bsn % max 1 (tplB l.force 7) == 0
  let chg : Option (Nat × Nat) := match l.apply with
    | some (sec, slot) =>
      let at_ := applyAt l.staged sec
      if m.applyForces slot ∧ tplSlotMs l.staged ≠ tplSlotMs l.force ∧ at_ - m.sfStart l.sfn ≤ 4 * tplBi l.force then
        some (tplSlotMs l.staged, at_ / 1000000000) else none
    | none => none
  let t := m.syncEnd profile
  let payload := bytesLE 1 m.bsn ++ bytesLE 1 ((if full then 1 else 0) + if chg.isSome then 2 else 0) ++ bytesLE 1 0 ++
    bytesLE 1 (tplSlotMs l.force) ++ bytesLE 1 ((chg.map fun c => c.1).getD 0) ++ bytesLE 1 0 ++
    bytesLE 4 ((chg.map fun c => c.2).getD 0) ++
    (if full then bytesLE 4 (t / 1000000000) ++ bytesLE 4 (t % 1000000000) else [])
  let q := m.ownSeq
  q.2.linkSend 0 false 0 0xFFFF 0 0xFFFF q.1 profile payload

/-- Send a RESYNC to a node (R427, R432, R437). -/
def Mach.sendResync (m : Mach) (node profile : Nat) (ackReq : Bool) : Mach :=
  let t := m.syncEnd profile
  let mark := (tabGet none m.mlink.nodes node).getD 0
  let q := m.ownSeq
  q.2.linkSend 3 ackReq 0 node 0 node q.1 profile
    (bytesLE 4 (t / 1000000000) ++ bytesLE 4 (t % 1000000000) ++ bytesLE 1 m.bsn ++ bytesLE 1 (tplSlotMs m.mlink.force) ++
      bytesLE 4 (mark + 1))

/-- Send the RESYNC that a node is owed (R432). -/
def Mach.floorSend (m : Mach) (node profile : Nat) : Mach :=
  if m.mlink.floors.contains node then
    (m.mlinkMod fun l => { l with floors := l.floors.filter fun x => x != node }).sendResync node profile false
  else m

/-- Send what a DOWN slot holds for its node: a RESYNC owed under R432 first, then its queued frames (R423, R441). -/
def Mach.downSlot (m : Mach) (node profile : Nat) : Mach :=
  let m1 := m.floorSend node profile
  let mine := m1.mlink.down.filter fun x => tabGet none m1.mlink.routes x.tgt == some node
  (m1.mlinkMod fun l => { l with down := l.down.filter fun x => tabGet none m1.mlink.routes x.tgt != some node }).forEach mine
    fun x it => x.linkSend 1 false 0 node 0 it.tgt it.seq profile it.data

/-- The seen cache with an entry put in; a full cache loses its oldest entry (R443). -/
def seenAdd (l : List Seen) (e : Seen) : List Seen := (if l.length < 512 then l else l.drop 1) ++ [e]

/-- Send the floods that FLOOD items ask for (R442, R444). -/
def Mach.floodSlot (m : Mach) (profile : Nat) : Mach :=
  let fs := m.mlink.floods
  (m.mlinkMod fun l => { l with floods := [] }).forEach fs fun x it =>
    (x.mlinkMod fun l => { l with seen := seenAdd l.seen ⟨0, it.seq, x.tb4, 0, none⟩ }).linkSend 4 false (it.flags / 16) 0xFFFF 0
      it.tgt it.seq profile it.data

/-- Open a window: for an UP_DED slot's node, or none; with its profile and the instant it closes (R423, R434). -/
def Mach.openWindow (m : Mach) (node : Option Nat) (nominal prior profile : Nat) (closes : Option Nat) : Mach :=
  (m.mlinkMod fun l => { l with window := some ⟨node, nominal, prior, false, false, none, profile, closes⟩ }).mradSlot 3

/-- P of R434 for a neighbour: the start of the latest superframe if its last frame reported the BSN then current, else of the one
it named. -/
def Mach.priorOf (m : Mach) (n : Nbr) : Nat := if n.current then m.sfStart m.mlink.sfn else m.sfStart n.anchor

/-- The receive window of an UP_DED slot of a neighbour with nominal start N: from the predicted start less the guard to the predicted
start plus the guard and the sync time (R434). -/
def Mach.dedWindow (m : Mach) (n : Nbr) (nominal profile : Nat) : Nat × Nat :=
  let p := m.priorOf n
  let pred : Int := nominal + n.d * ((nominal : Int) - p) / 256000000
  let g : Int := m.guardNs n (nominal - p) (nominal - m.sfStart n.anchor)
  ((pred - g).toNat, (pred + g + phySync (m.reg (MSH_MPHYk profile))).toNat)

/-- The nominal start of slot `j` of the superframe under way, in TB4 ns (R421). -/
def Mach.sfSlot (m : Mach) (j : Nat) : Nat := m.sfStart m.mlink.sfn + j * tplSlotMs m.mlink.force * 1000000

/-- The instant at which the lantern's work for slot `j` begins: the slot start, or the opening of its neighbour's window before it
(R423, R434). -/
def Mach.slotInstant (m : Mach) (j : Nat) : Nat :=
  match m.entryAt m.mlink.sfn j with
  | some e =>
    let t := m.mlink.force
    if tplB t (tplE e + 2) = 2 ∧ tplB t (tplE e) = j then
      match m.mlink.nbrOf (tplW t (tplE e + 4)) with
      | some i => min (m.sfSlot j) (m.dedWindow (tabGet Nbr.zero m.mlink.nbrs i) (m.sfSlot j) (tplB t (tplE e + 3) % 4)).1
      | none => m.sfSlot j
    else m.sfSlot j
  | none => m.sfSlot j

/-- A mesh slot begins (R423). Work is skipped while a wake burst is on the air (R437). -/
def Mach.meshSlot (m : Mach) (j : Nat) : Mach :=
  let l := m.mlink
  let t := l.force
  let burst : Bool := match m.mrad.tx with | some x => x.burst != 0 | none => false
  if !m.lanternOn || !m.bit MSH_LCTL fMSH_LCTL_RUN || burst then m
  else match m.entryAt l.sfn j with
    | none => m.mradSlot 1
    | some e =>
      let o := tplE e
      if tplB t o ≠ j then m
      else
        let prof := tplB t (o + 3) % 4
        let node := tplW t (o + 4)
        let nominal := m.sfSlot j
        let ends := m.sfSlot (j + tplB t (o + 1))
        match tplB t (o + 2) with
        | 0 => m.sendBeacon prof
        | 1 => m.mradSlot 1
        | 2 =>
          if l.floors.contains node then m.floorSend node prof
          else match l.nbrOf node with
            | some i =>
              let n := tabGet Nbr.zero l.nbrs i
              if n.state = 3 ∨ 3 ≤ n.misses then m
              else m.openWindow (some node) nominal (m.priorOf n) prof (some (m.dedWindow n nominal prof).2)
            | none => m.openWindow (some node) nominal nominal prof (some ends)
        | 3 => m.openWindow none nominal nominal prof (some ends)
        | 4 => m.downSlot node prof
        | 5 => (m.floodSlot prof).openWindow none nominal nominal prof (some ends)
        | 6 => m.when (m.rd MSH_MCTL fMSH_MCTL_MODE = 2) fun x => x.meshCal (tplB t (o + 3))
        | _ => m

/-! ### Receiving (R430 to R436, R439 to R443) -/

/-- What a frame meets at the checks of R430. -/
inductive Judged where
  | dropped (m : Mach)
  | passed (m : Mach) (f : LinkFrame) (i : Nat)
  deriving DecidableEq, Repr

/-- The seven checks of R430 in order, then the neighbour entry and its replay window (R431, R432, R439). -/
def Mach.linkJudge (m : Mach) (l : List Byte) : Judged :=
  let f := LinkFrame.parse l
  let n := l.length
  if n < 23 then .dropped m
  else if crcOf crc16 (l.take (n - 2)) ≠ 256 * tplB l (n - 2) + tplB l (n - 1) then .dropped (m.count MSH_SECCNT fMSH_SECCNT_CRC_FAIL)
  else if !(f.mic = 1 ∨ f.mic = 2) ∨ 5 < f.type then .dropped m
  else if f.dst ≠ 0 ∧ f.dst ≠ 0xFFFF then .dropped m
  else match tabGet none m.mlink.nodes f.src with
    | none => .dropped (m.count MSH_SECCNT fMSH_SECCNT_UNKNOWN)
    | some mark =>
      match ccmOpen (if f.mic = 2 then 8 else 4) m.mlink.key (linkNonce (m.reg MSH_NETID).toNat f.src f.fcnt f.mic) (slice 0 l 0 17) f.body with
      | none => .dropped (m.count MSH_SECCNT fMSH_SECCNT_MIC_FAIL)
      | some plain =>
        let old := m.mlink.nbrOf f.src
        let nb : Nbr := match old with
          | some i => tabGet Nbr.zero m.mlink.nbrs i
          | none => { (Nbr.zero.learn m.dmax 0) with addr := f.src, hi := mark, seen := 0xFFFFFFFF }
        match nb.replay f.fcnt with
        | none =>
          let owed := decide (f.fcnt ≤ mark) && nb.hi == mark && nb.seen == 0xFFFFFFFF && !m.mlink.floors.contains f.src
          .dropped (((m.count MSH_SECCNT fMSH_SECCNT_REPLAY)).mlinkMod fun x =>
            if owed then { x with floors := x.floors ++ [f.src] } else x)
        | some nb1 =>
          match (match old with | some i => some i | none => m.mlink.nbrFree) with
          | none => .dropped ((m.count MSH_SECCNT fMSH_SECCNT_UNKNOWN).meshEvent 9 f.src 0)
          | some i =>
            let a := m.anchorSf f.anchor
            let nb2 : Nbr := if nb1.state = 3 then nb1.learn m.dmax a
              else { nb1 with misses := 0, anchor := a }
            let nb3 := { nb2 with current := a == m.mlink.sfn, air := m.meshAir ⟨0, false, 0, 0, l, false⟩ }
            let m1 := (m.setNbr i nb3).mlinkMod fun x =>
              { x with nodes := if mark ≤ nb3.hi then tabSet none x.nodes f.src (some (nb3.hi + 4096)) else x.nodes
                       routes := tabSet none x.routes f.orig (some f.src) }
            let m2 := if old.isNone ∨ nb.state = 3 then m1.meshEvent 1 f.src 0 else m1
            .passed m2 { f with body := plain } i

/-- The frame the radio delivered last, when it ended as OK (R398, R430). -/
def Mach.rxFrame (m : Mach) : Option (List Byte) :=
  match m.mlink.lastRx with
  | some v => if v.bytes.headD 0 = 0 then some v.payload else none
  | none => none

/-- The stamp of the last reception in TB4 ns, its seconds taken near now (R397). -/
def Mach.rxStamp (m : Mach) : Nat :=
  match m.mlink.lastRx with
  | some v =>
    let s := tplW v.bytes 0x0A
    let now := m.tb4 / 1000000000
    (now - (now + 65536 - s) % 65536) * 1000000000 + (tplW v.bytes 0x0C + 65536 * tplW v.bytes 0x0E)
  | none => 0

/-- An accepted frame in the window of its node's UP_DED slot: the window is hit, and the drift is updated (R435, R436). -/
def Mach.windowHit (m : Mach) (f : LinkFrame) (i : Nat) : Mach :=
  match m.mlink.window with
  | some w =>
    if w.node = some f.src then
      let prof := (m.mlink.lastRx.map fun v => tplB v.bytes 1 / 64).getD 0
      let expd := w.nominal + 8000 + phySync (m.reg (MSH_MPHYk prof))
      let dt := (w.nominal - w.prior) / 1000
      let n := tabGet Nbr.zero m.mlink.nbrs i
      let m1 := m.mlinkMod fun l => { l with window := some { w with hit := true } }
      if dt = 0 then m1
      else m1.freeVal.2.setNbr i (n.drift ((m.rxStamp : Int) - expd) dt (m.rd MSH_DRIFT fMSH_DRIFT_RMIN) (m1.freeVal.1.toNat % 65536))
    else m
  | none => m

/-- The ACK owed for an accepted frame with ACKREQ, 500 µs after the end of the frame (R438). -/
def Mach.owesAck (m : Mach) (f : LinkFrame) : Mach :=
  if f.ackReq ∧ (f.type = 1 ∨ f.type = 5 ∨ f.type = 3) then
    let prof := (m.mlink.lastRx.map fun v => tplB v.bytes 1 / 64).getD 0
    m.mlinkMod fun l => { l with acks := l.acks ++ [(m.mrad.rx.endAt - 1 + 500000, prof, f.src, bytesLE 2 f.orig ++ bytesLE 2 f.tgt ++ bytesLE 2 f.seq)] }
  else m

/-- Deliver a message to the main domain as a MSG item with the time of its reception, or log it (R445 to R449). -/
def Mach.meshDeliverMsg (m : Mach) (f : LinkFrame) : Mach :=
  let fl := match m.mlink.lastRx with | some v => tplB v.bytes 3 | none => 0
  let t := m.rxStamp
  if f.tgt = 0 ∨ f.tgt = 0xFFFF then
    m.mboxPost 252 ⟨0x01, 2 * (fl / 2 % 2) + 8 * (fl % 2), 0, f.orig, f.tgt, f.seq, t / 1000000000 % 65536, t % 1000000000, f.body⟩
  else m

/-- Take the last reception for judgement when its TYPE nibble satisfies `want`; a frame that fails a check is dropped and
counted (R430). -/
def Mach.linkTake (m : Mach) (want : Nat → Bool) (act : Mach → LinkFrame → Nat → Mach) : Mach :=
  match m.rxFrame with
  | none => m
  | some l =>
    if !want (tplB l 0 / 16) then m
    else
      let done (x : Mach) : Mach := x.mlinkMod fun y => { y with lastRx := none }
      match m.linkJudge l with
      | .dropped m1 => done m1
      | .passed m1 f i => done (act (m1.windowHit f i) f i)

/-- A DATA frame, or any frame that no other row takes (R430, R438, R446). -/
def Mach.dataReceive (m : Mach) : Mach :=
  m.linkTake (fun t => t != 2 && t != 4 && t != 5) fun x f _ =>
    (if f.type = 1 then x.meshDeliverMsg f else x).owesAck f

/-- An ACK frame: it completes a resync (R437). -/
def Mach.ackReceive (m : Mach) : Mach :=
  m.linkTake (· == 2) fun x f i =>
    let n := tabGet Nbr.zero x.mlink.nbrs i
    if n.resync = 2 then
      (((x.setNbr i { n.learn x.dmax x.mlink.sfn with resyncs := min 255 (n.resyncs + 1) }).count MSH_LINKCNT
        fMSH_LINKCNT_RESYNCS).meshEvent 3 f.src 0)
    else x

/-- A seen-cache entry is 60 s old (R443). -/
def Mach.seenAge (m : Mach) (orig seq : Nat) : Mach :=
  m.mlinkMod fun l => { l with seen := l.seen.filter fun e =>
    !(e.orig == orig && e.seq == seq && decide (e.at_ + 60000000000 ≤ m.tb4)) }

/-- Schedule the relay of a flood (R442). -/
def Mach.floodSchedule (m : Mach) (f : LinkFrame) : Mach :=
  let fresh : Seen := ⟨f.orig, f.seq, m.tb4, 0, none⟩
  if 1 < f.ttl ∧ m.bit MSH_LCTL fMSH_LCTL_FLOOD_RELAY then
    let r := m.drawBelow (max 1 (m.rd MSH_FLOOD fMSH_FLOOD_RELAY_WIN_MS))
    r.2.mlinkMod fun l =>
      { l with seen := seenAdd l.seen { fresh with relay := some (m.tb4 + r.1 * 1000000, f.ttl - 1, f.tgt, f.body) } }
  else m.mlinkMod fun l => { l with seen := seenAdd l.seen fresh }

/-- A FLOOD frame: overheard, or new (R442, R443). -/
def Mach.floodReceive (m : Mach) : Mach :=
  m.linkTake (· == 4) fun x f _ =>
    let known := x.mlink.seen.find? fun e => e.orig == f.orig && e.seq == f.seq && decide (x.tb4 ≤ e.at_ + 60000000000)
    if f.ttl = 0 then x
    else match known with
      | some e =>
        let cancel := e.relay.isSome && decide (2 ≤ e.heard + 1)
        (x.mlinkMod fun l => { l with seen := l.seen.map fun y => if y.orig = f.orig ∧ y.seq = f.seq then
            { y with heard := y.heard + 1, relay := if cancel then none else y.relay } else y }).when cancel
          fun y => y.count MSH_FLDCNT fMSH_FLDCNT_SUPPRESSED
      | none => ((x.seenAge f.orig f.seq).floodSchedule f).meshDeliverMsg f

/-- A PARENT frame (R427, R441). -/
def Mach.parentReceive (m : Mach) : Mach :=
  m.linkTake (· == 5) fun x f _ =>
    (x.meshEvent 4 f.orig (tplW f.body 0 + 65536 * tplB f.body 2)).owesAck f

/-- A receive window of the link controller closes: a miss without a frame of its node, a failed attempt where the window
waited for the ACK of a RESYNC (R396, R435, R437). -/
def Mach.windowClose (m : Mach) : Mach :=
  match m.mlink.window with
  | some w =>
    if w.closed then m
    else
      let m0 := m.mlinkMod fun l => { l with window := some { w with closed := true } }
      let m1 := m0.when (m.mrad.tx.isNone ∧ m.mrad.rx.phase = 0) fun x => x.mradGo x.mradAfter
      let m2 := match m.mlink.busy with
        | some c => if c.op = 1 then
            (m1.mlinkMod fun l => { l with busy := none }).lcRaise 2 else m1
        | none => m1
      match w.node with
      | some node =>
        match m.mlink.nbrOf node with
        | some i =>
          let n := tabGet Nbr.zero m.mlink.nbrs i
          if n.resync = 2 then m2.attemptFails i
          else if w.hit then m2
          else (m2.setNbr i { n with misses := min 15 (n.misses + 1) }).count MSH_LINKCNT fMSH_LINKCNT_MISSES
        | none => m2
      | none => m2
  | none => m

/-- The wake bursts of at most 255 patterns that make up a number of patterns (R437). -/
def burstSplit : Nat → Nat → List Nat
  | 0, _ => []
  | _ + 1, 0 => []
  | k + 1, n => min 255 n :: burstSplit k (n - 255)

/-- U of R437 in ns: DMAX × (N − A) + 2 × JITTER. -/
def Mach.resyncU (m : Mach) (n : Nbr) (nominal : Nat) : Nat :=
  m.dmax * (nominal - m.sfStart n.anchor) / 256000000 + 2 * m.rd MSH_GUARD fMSH_GUARD_JITTER_US * 1000

/-- The nominal start of the node's next UP_DED slot that leaves time for its wake burst, N − U − 12 ms at or after now (R434,
R437). -/
def Mach.nextDed (m : Mach) (n : Nbr) (node : Nat) : Option Nat :=
  let t := m.mlink.force
  firstSome (fun d =>
    firstSome (fun e =>
      let o := tplE e
      let k := m.mlink.sfn + d
      let start := m.sfStart k + tplB t o * tplSlotMs t * 1000000
      if tplB t (o + 2) = 2 ∧ tplW t (o + 4) = node ∧ tplOccurs t e k ∧ m.tb4 + m.resyncU n start + 12000000 ≤ start
      then some start else none) (List.range (tplCount t)))
    (List.range 256)

/-- The neighbour entry and the UP_DED slot that a node's resynchronisation works on: after three misses, with no attempt under way
(R435, R437). -/
def Mach.burstPlan (m : Mach) (node : Nat) : Option (Nat × Nat) :=
  match m.mlink.nbrOf node with
  | some i =>
    let n := tabGet Nbr.zero m.mlink.nbrs i
    if n.misses < 3 ∨ n.state = 3 ∨ n.resync ≠ 0 then none else (m.nextDed n node).map fun t => (i, t)
  | none => none

/-- The wake burst that resynchronises a neighbour (R437): a burst that R409 refuses counts as no attempt. -/
def Mach.resyncBurst (m : Mach) (i nominal : Nat) : Mach :=
  let n := tabGet Nbr.zero m.mlink.nbrs i
  let u := m.resyncU n nominal
  let count := (2 * u + n.air + 11999999) / 12000000 + 2
  let one (c : Nat) : MeshTx := ⟨c, false, 0, m.rd MSH_WAKECTL fMSH_WAKECTL_CHAN, [], false⟩
  match m.meshJudge (one (min 255 count)) with
  | .error _ => m.meshAsk (one (min 255 count))
  | .ok _ => (m.forEach (burstSplit count count) fun x c => x.airQueue (one c)).setNbr i { n with resync := 1 }

/-- The RESYNC 20 ms after the burst (R437); one that R409 refuses counts as no attempt. -/
def Mach.resyncSend (m : Mach) (node : Nat) : Mach :=
  match m.mlink.nbrOf node with
  | some i =>
    let n := tabGet Nbr.zero m.mlink.nbrs i
    if n.resync ≠ 1 ∨ m.mrad.tx.isSome ∨ m.mlink.air ≠ [] then m
    else
      let t := m.mlink.force
      let prof := ((List.range (tplCount t)).find? fun e => tplB t (tplE e + 2) == 2 && tplW t (tplE e + 4) == node).map
        fun e => tplB t (tplE e + 3) % 4
      let m1 := m.sendResync node (prof.getD 0) true
      if m1.mrad.tx.isSome then (m1.setNbr i { n with resync := 2 }).mlinkMod fun l =>
          { l with window := some ⟨some node, m.tb4, m.tb4, false, false, none, prof.getD 0, none⟩ }
      else m1.setNbr i { n with resync := 0 }
  | none => m

/-- The ACK of R438, with the acknowledged frame's ORIG, TGT and SEQ. -/
def Mach.ackSend (m : Mach) : Mach :=
  match m.mlink.acks with
  | (_, prof, dst, e) :: r =>
    (m.mlinkMod fun l => { l with acks := r }).linkSend 2 false 0 dst (tplW e 0) (tplW e 2) (tplW e 4) prof []
  | [] => m

/-- The first FLOOD-slot instant of the superframe under way at or after an instant, with the profile of its slot (R442). -/
def Mach.floodAt (m : Mach) (due : Nat) : Option (Nat × Nat) :=
  let t := m.mlink.force
  (List.range (tplCount t)).foldl (fun b e =>
    let o := tplE e
    let x := max due (m.sfSlot (tplB t o))
    if tplB t (o + 2) = 5 ∧ tplOccurs t e m.mlink.sfn ∧ due < m.sfSlot (tplB t o + tplB t (o + 1)) then
      match b with
      | some y => if x < y.1 then some (x, tplB t (o + 3) % 4) else b
      | none => some (x, tplB t (o + 3) % 4)
    else b) none

/-- A scheduled relay's delay has expired: it goes out in the FLOOD slot, or is dropped where none remains (R442). -/
def Mach.floodRelay (m : Mach) (orig seq : Nat) : Mach :=
  match m.mlink.seen.find? fun e => e.orig == orig && e.seq == seq with
  | some e =>
    match e.relay with
    | some (due, ttl, tgt, data) =>
      let go := m.floodAt due
      if m.tb4 < ((go.map fun g => g.1).getD due) then m
      else
        let m1 := m.mlinkMod fun l =>
          { l with seen := l.seen.map fun y => if y.orig = orig ∧ y.seq = seq then { y with relay := none } else y }
        match go with
        | some (_, prof) => (m1.count MSH_FLDCNT fMSH_FLDCNT_RELAYED).linkSend 4 false ttl 0xFFFF orig tgt seq prof data
        | none => m1.count MSH_FLDCNT fMSH_FLDCNT_NOSLOT
    | none => m
  | none => m

/-! ### Mailbox commands (R444 to R449) -/

/-- Take the visible item of a channel whole: its bytes, none where a word is poisoned. -/
def Mach.itemTake (m : Mach) (ch : Nat) : Mach × Option MItem :=
  let r := m.chTake ch 64 0
  let d := r.1.chDelivers ch r.2
  (d.1, (readBytes d.2).map MItem.ofBytes)

/-- The item at the head of a channel, without taking it. -/
def Mach.itemPeek (m : Mach) (ch : Nat) : Option MItem :=
  match (m.getChan ch).visible with
  | it :: _ => some (MItem.ofBytes ((it.map fun w => datumBytes (codeData w.code)).flatten))
  | [] => none

/-- Take a command of a KIND from a channel and act on it; NOT_OPEN before the mailbox is open (R446, R447). -/
def Mach.mboxCommand (m : Mach) (ch kind : Nat) (ok : MItem → Bool) (act : Mach → MItem → Mach) : Mach :=
  match m.itemPeek ch with
  | some i =>
    if i.kind ≠ kind ∨ !ok i ∨ !m.lanternOn then m
    else if !m.mlink.open_ ∧ kind ≠ 0x81 then
      if ch = 248 then (m.itemTake ch).1.meshResp i 6 0 else m
    else act (m.itemTake ch).1 i
  | none => m

/-- OPEN (R448): MAIN_RETURN is recorded, logged records come first, LIVE returns at the next superframe boundary. -/
def Mach.mboxOpen (m : Mach) : Mach :=
  m.mboxCommand 248 0x81 (fun _ => true) fun x i =>
    let x1 := (x.mlinkMod fun l => { l with open_ := true, swapTo := if l.force = l.live then l.swapTo else 1 }).wr SYS_DOMSTAT
      fSYS_DOMSTAT_MBOX_UP 1
    (((x1.meshResp i 0 0).logAppend 2 0 255 (x1.itemNow 0x04 0 0 0 [])).mboxDeliver)

/-- ACK: the outstanding item of the named channel is released (R447). -/
def Mach.mboxAck (m : Mach) : Mach :=
  m.mboxCommand 248 0x82 (fun _ => true) fun x i =>
    let ch := tplB i.data 0
    let hit := match tabGet none x.mlink.out ch with | some o => o.mseq == tplW i.data 1 | none => false
    ((if hit then x.mlinkMod fun l => { l with out := tabSet none l.out ch none } else x).meshResp i 0 0).mboxDeliver

/-- TPL_DATA: template bytes into STAGED (R446). -/
def Mach.tplData (m : Mach) : Mach :=
  m.mboxCommand 248 0x83 (fun _ => true) fun x i =>
    let o := tplW i.data 0
    let d := i.data.drop 2
    if 4096 < o + d.length ∨ 224 < d.length then x.meshResp i 1 o
    else
      let s := slice 0 x.mlink.staged 0 4096
      (x.mlinkMod fun l => { l with staged := s.take o ++ d ++ s.drop (o + d.length) }).meshResp i 0 0

/-- TPL_APPLY: the staged template is checked and scheduled (R424, R425). -/
def Mach.tplApply (m : Mach) : Mach :=
  m.mboxCommand 248 0x84 (fun _ => true) fun x i =>
    match tplCheck x.mlink.staged with
    | some o => x.meshResp i 1 o
    | none => (x.mlinkMod fun l =>
        { l with apply := some (tplW i.data 0 + 65536 * tplW i.data 2, tplB i.data 4 % 2) }).meshResp i 0 0

/-- NODE add (R439, R446). -/
def Mach.nodeAdd (m : Mach) : Mach :=
  m.mboxCommand 248 0x85 (fun i => tplB i.data 2 == 0) fun x i =>
    let a := tplW i.data 0
    let mark := tplW i.data 3 + 65536 * tplW i.data 5
    let x1 := x.mlinkMod fun l => { l with nodes := tabSet none l.nodes a (some mark) }
    let x2 := match x1.mlink.nbrOf a with
      | some k =>
        let n := tabGet Nbr.zero x1.mlink.nbrs k
        if n.state = 3 then x1.setNbr k { n.learn x1.dmax n.anchor with hi := mark, seen := 0xFFFFFFFF } else x1
      | none => x1
    x2.meshResp i 0 0

/-- NODE delete (R446). -/
def Mach.nodeDelete (m : Mach) : Mach :=
  m.mboxCommand 248 0x85 (fun i => tplB i.data 2 == 1) fun x i =>
    (x.mlinkMod fun l => { l with nodes := tabSet none l.nodes (tplW i.data 0) none }).meshResp i 0 0

/-- KEY (R429): the own counter, the mark, every MARK and every replay window go to 0. -/
def Mach.meshKey (m : Mach) : Mach :=
  m.mboxCommand 248 0x86 (fun _ => true) fun x i =>
    ((x.mlinkMod fun l =>
      { l with key := slice 0 i.data 0 16, fcnt := 0, mark := 0
               nodes := l.nodes.map fun e => (e.1, some 0)
               nbrs := l.nbrs.map fun e => (e.1, { e.2 with hi := 0, seen := 0 }) }).setReg MSH_FCNTOWN 0).meshResp i 0 0

/-- NBR_DEL (R439, R446). -/
def Mach.nbrDel (m : Mach) : Mach :=
  m.mboxCommand 248 0x87 (fun _ => true) fun x i =>
    ((match x.mlink.nbrOf (tplW i.data 0) with
      | some k => x.setNbr k Nbr.zero
      | none => x)).meshResp i 0 0

/-- DOWN (R437, R441). -/
def Mach.meshDown (m : Mach) : Mach :=
  m.mboxCommand 249 0x90 (fun _ => true) fun x i =>
    match tabGet none x.mlink.routes i.tgt with
    | none => x.meshResp i 2 0
    | some r =>
      let lost := match x.mlink.nbrOf r with | some k => (tabGet Nbr.zero x.mlink.nbrs k).state == 3 | none => false
      if lost then x.meshResp i 4 0
      else if 32 ≤ x.mlink.down.length then x.meshResp i 3 0
      else (x.mlinkMod fun l => { l with down := l.down ++ [i] }).meshResp i 0 0

/-- FLOOD items (R442, R444). -/
def Mach.meshFloodItem (m : Mach) : Mach :=
  m.mboxCommand 250 0x91 (fun _ => true) fun x i =>
    (x.mlinkMod fun l => { l with floods := l.floods ++ [i] }).meshResp i 0 0

/-- Whether a channel takes items of a KIND (R444, R446). -/
def kindKnown (ch kind op : Nat) : Bool :=
  if ch = 248 then (0x81 ≤ kind && kind ≤ 0x87) && (kind != 0x85 || op ≤ 1)
  else if ch = 249 then kind == 0x90
  else ch == 250 && kind == 0x91

/-- An item that no rule takes is refused BAD_KIND (R444, R446). -/
def Mach.mboxBad (m : Mach) (ch : Nat) : Mach :=
  match m.itemPeek ch with
  | some i =>
    if ch < 248 ∨ 251 < ch ∨ kindKnown ch i.kind (tplB i.data 2) ∨ !m.lanternOn then m
    else if !m.mlink.open_ then (if ch = 248 then (m.itemTake ch).1.meshResp i 6 0 else m)
    else (m.itemTake ch).1.meshResp i 5 0
  | none => m

/-- Save the delivery pointer to the next of 16 rotating slots (R450). -/
def Mach.pointerSave (m : Mach) : Mach :=
  m.mlinkMod fun l => { l with savedPtr := tabSet 0 l.savedPtr (l.saveSlot % 16) l.delivered, saveSlot := (l.saveSlot + 1) % 16 }

/-- The mailbox closes: outstanding and waiting items go to the log with AT_LOSS (R38, R448). -/
def Mach.mboxClose (m : Mach) : Mach :=
  let pend := ([252, 253, 254, 255].map fun ch =>
    ((match tabGet none m.mlink.out ch with | some i => [i] | none => []) ++ tabGet [] m.mlink.waiting ch).map fun i => (ch, i)).flatten
  let m1 := (m.wr SYS_DOMSTAT fSYS_DOMSTAT_MBOX_UP 0).mlinkMod fun l => { l with open_ := false, out := [], waiting := [] }
  m1.forEach pend fun x p => x.logAppend 0 4 p.1 p.2

/-- The lantern's part of a loss of the main supply (R38, R448): interrupt 7, the mailbox closed, the MAIN_LOSS record, BACKUP
at the next superframe boundary. -/
def Mach.mainLost (m : Mach) : Mach :=
  if !m.lanternOn then m
  else
    let m1 := ((m.lcRaise 7).mboxClose).mlinkMod fun l => { l with swapTo := if l.backup = [] then l.swapTo else 2 }
    ((m1.logAppend 1 0 255 (m1.itemNow 0x04 0 0 0 [])).count SYS_DOMSTAT fSYS_DOMSTAT_MAIN_LOSS_CNT).wr SYS_DOMSTAT
      fSYS_DOMSTAT_MAIN_LOSS_SEEN 1

/-! ### The link controller (R453) -/

/-- The slot timer in µs. -/
def Mach.lkNow (m : Mach) : Nat := m.mlink.timer / 2000 % 2 ^ 32

/-- Queue a command at LK_AT: eight at most. -/
def Mach.lkQueue (m : Mach) (op profile buf len : Nat) : Mach :=
  let at_ := numLE ((List.range 4).map fun k => tabGet 0 m.mlink.ports (0xF304 + k))
  if 8 ≤ m.mlink.queue.length then m
  else m.mlinkMod fun l => { l with queue := l.queue ++ [⟨at_, op, profile, buf, len⟩] }

/-- A command ends with a status: LK_STAT shows it, and the link controller interrupts LC (R140, R398, R410). -/
def Mach.lkDone (m : Mach) (st : Nat) : Mach :=
  (m.mlinkMod fun l => { l with busy := none, ports := tabSet 0 l.ports 0xF30D (BitVec.ofNat 8 st) }).lcRaise 2

/-- The head command runs at its instant, or completes LATE_SYNTH when that has passed (R453); with the radio OFF or in
SLEEP it ends RADIO_OFF (R376). -/
def Mach.lkStart (m : Mach) : Mach :=
  match m.mlink.queue with
  | c :: r =>
    let m1 := m.mlinkMod fun l => { l with queue := r, busy := some c }
    let gone := (m.lkNow + 2 ^ 32 - c.at_) % 2 ^ 32
    if gone ≠ 0 ∧ gone < 2 ^ 31 then m1.lkDone 0x10
    else if gone ≠ 0 then m
    else if m.rd MSH_MCTL fMSH_MCTL_MODE ≠ 2 then m1.lkDone 0x12
    else
      let chan := m.rd MSH_MCHAN fMSH_MCHAN_N
      match c.op with
      | 1 => (m1.mlinkMod fun l =>
          { l with window := some ⟨none, 0, 0, false, false, some c.buf, c.profile, some (m.tb4 + c.len * 1000000)⟩ }).mradSlot 3
      | 2 => m1.airQueue ⟨0, true, c.profile, chan, memRead m.lc.sram (0xC000 + 256 * c.buf) c.len, false⟩
      | 3 => m1.airQueue ⟨max 1 c.len, true, c.profile, m.rd MSH_WAKECTL fMSH_WAKECTL_CHAN, [], false⟩
      | 4 => m1.meshCal c.profile
      | _ => m1.mlinkMod fun l => { l with busy := none }
  | [] => m

/-- The cipher unit runs on an SRAM buffer: bytes 0 to 16 are associated data, what follows is the payload, with its MIC
behind it (R419, R428, R453). -/
def Mach.ccmRun (m : Mach) (decrypt mic8 : Bool) (buf len : Nat) : Mach :=
  let a := 0xC000 + 256 * buf
  let l := memRead m.lc.sram a len
  let nonce := linkNonce (m.reg MSH_NETID).toNat (tplW l 4) (tplW l 6 + 65536 * tplW l 8) (if mic8 then 2 else 1)
  let body := l.drop 17
  let mic := if mic8 then 8 else 4
  let m1 := m.mlinkMod fun x => { x with ccBusy := some (if decrypt then 1 else 0), ports := tabSet 0 x.ports 0xF3C3 0x80 }
  if decrypt then
    match ccmOpen mic m.mlink.key nonce (l.take 17) body with
    | some p =>
      (m1.lcMod fun x => { x with sram := memWrite x.sram (a + 17) p }).mlinkMod
        fun x => { x with ports := tabSet 0 x.ports 0xF3C4 0 }
    | none => m1.mlinkMod fun x => { x with ports := tabSet 0 x.ports 0xF3C4 1 }
  else
    m1.lcMod fun x => { x with sram := memWrite x.sram (a + 17) (ccmSeal mic m.mlink.key nonce (l.take 17) body) }

/-- The cipher unit finishes (R453). -/
def Mach.ccmDone (m : Mach) : Mach :=
  m.mlinkMod fun x =>
    let ctl := tabGet 0 x.ports 0xF3C0 &&& 0xFE
    { x with ccBusy := none, ports := tabSet 0 (tabSet 0 x.ports 0xF3C3 0) 0xF3C0 ctl }

end Sys2Proof.Machine
end

