-- ==== Sys2Proof/Machine/AschQueue.lean ====
section
/-! DEFINITION. The queues and home pools of the air scheduler (R339 to R346): what a run's commit and void need. -/

namespace Sys2Proof.Machine

open Sys2Proof

/-! ### Queues (R339 to R342) -/

/-- A queue. -/
def Mach.queue (m : Mach) (q : Nat) : AQueue := tabGet AQueue.zero m.asch.queues q

/-- Change a queue; ASCH_STAT shows how many hold downlink frames (R372); one of a run that has not committed counts for none. -/
def Mach.setQueue (m : Mach) (q : Nat) (x : AQueue) : Mach :=
  let m1 := m.aschMod fun a => { a with queues := tabSet AQueue.zero a.queues q x }
  m1.wr ASCH_STAT fASCH_STAT_BACKLOGGED (m1.asch.queues.filter fun e => e.2.frames.any fun f => f.prov == 0).length

/-- A station's entry. -/
def Mach.sta (m : Mach) (s : Nat) : Option Sta := tabGet none m.wmac.stas s

/-- A byte of a station's record (R597). -/
def Sta.byte (s : Sta) (o : Nat) : Nat := (s.record.getD o 0).toNat

/-- Whether a queue is served on a radio (R340). -/
def Mach.servedOn (m : Mach) (q x : Nat) : Bool :=
  if q < 16384 then match m.sta (q / 8) with | some s => (s.byte 4).testBit x | none => false
  else if q < 16432 then (q - 16384) / 16 == x
  else (m.queue q).attr.radio == x

/-- The counted length of a frame of a class (R362). -/
def Mach.counted (m : Mach) (cls len : Nat) : Nat :=
  len + (m.reg (if cls < 4 then ASCH_OVHD0 else ASCH_OVHD1)).toNat / 256 ^ (cls % 4) % 256

/-- The increment of a tag (R355). -/
def tagInc (l w : Nat) : BitVec 64 := BitVec.ofNat 64 ((l * 65536 + max 1 w - 1) / max 1 w)

/-- A class's system virtual time. -/
def Mach.vTime (m : Mach) (c : Nat) : BitVec 64 := tabGet 0 m.asch.v c

/-- Give the head of a queue its tag where it has none: it came into an empty queue (R355). -/
def Mach.headTag (m : Mach) (q : AQueue) : AQueue :=
  match q.frames with
  | [] => { q with tag := none }
  | f :: _ =>
    if q.tag.isSome ∨ f.prov ≠ 0 then q
    else { q with tag := some (m.vTime q.attr.cls + tagInc (m.counted q.attr.cls f.len) q.attr.weight) }

/-! ### Home pools (R344 to R346) -/

/-- The base of a pool. -/
def Mach.hpBase (m : Mach) (k : Nat) : Nat := m.reg64 (ASCH_HPk_BASE_LO k) (ASCH_HPk_BASE_HI k)

/-- The buffers of a pool. -/
def Mach.hpCount (m : Mach) (k : Nat) : Nat := min 1048576 (m.rd (ASCH_HPk_COUNT k) fASCH_HPk_COUNT_COUNT)

/-- The size of a pool's buffers. -/
def hpSize (k : Nat) : Nat := if k = 0 then 2048 else 12288

/-- The allocated buffers of a pool. -/
def Asch.pool (a : Asch) (k : Nat) : Tab (Option RunId) := if k = 0 then a.pool0 else a.pool1

/-- Change a pool. -/
def Mach.setPool (m : Mach) (k : Nat) (t : Tab (Option RunId)) : Mach :=
  m.aschMod fun a => if k = 0 then { a with pool0 := t } else { a with pool1 := t }

/-- The `k`-th index that a rising list of taken indexes leaves free. -/
def nthFree : List Nat → Nat → Nat
  | [], k => k
  | a :: r, k => if a ≤ k then nthFree r (k + 1) else k

/-- The journal's word for a frame: home address, length and ENTRY (R673, log 18). -/
def frameId (home len : Nat) (entry : BitVec 60) : Code :=
  encodeCode (datumOf (bytesLE 5 home ++ bytesLE 3 len ++ bytesLE 8 entry.toNat))

/-- Send the home copy of an enqueued frame to the standby in mode FULL; not while the standby lags (R635, R636). The first
payload word bears address and length (log 33). -/
def Mach.mirrorHome (m : Mach) (home len : Nat) : Mach :=
  if !m.mirrors ∨ !m.bit CHN_MIRCTL fCHN_MIRCTL_MODE then m
  else if m.chn.degraded then m.count CHN_MIRSTAT fCHN_MIRSTAT_UNMIRRORED
  else
    let r := m.dramReads (home / 16 * 16) ((home % 16 + len + 15) / 16)
    let go (k : Nat) (x : Mach) (l : List Code) : Mach :=
      x.toStandby ⟨9, false, false, 0, encodeCode (datumOf (bytesLE 8 (home / 16 * 16 + 1008 * k) ++ bytesLE 4 (16 * l.length))) :: l⟩
    let l := r.2.map Read.code
    r.1.forEach (List.range ((l.length + 62) / 63)) fun x k => go k x ((l.drop (63 * k)).take 63)

/-- A run's frees, allocations and queued frames become final (R346, R662). -/
def Mach.aschCommit (m : Mach) (run : RunId) : Mach :=
  let mine := m.asch.freeing.filter fun f => f.1 == run
  let m1 := (m.aschMod fun a =>
    { a with freeing := a.freeing.filter fun f => f.1 != run
             pool0 := a.pool0.map fun e => (e.1, if e.2 = some run then some 0 else e.2)
             pool1 := a.pool1.map fun e => (e.1, if e.2 = some run then some 0 else e.2) }).forEach mine
    fun x f => x.setPool f.2.1 (tabSet none (x.asch.pool f.2.1) f.2.2 none)
  m1.forEach (m1.asch.queues.filter fun e => e.2.frames.any fun f => f.prov == run) fun x e =>
    (x.setQueue e.1 (x.headTag { e.2 with frames := e.2.frames.map fun f => if f.prov = run then { f with prov := 0 } else f }))
      |>.forEach (e.2.frames.filter fun f => f.prov == run) fun y f =>
        (y.journal 0x06 portASCH 0 0 e.1 [frameId f.home f.len f.entry]).mirrorHome f.home f.len

/-- A run's frees and queued frames are discarded, and its allocations return when `ins` is set (R346, R663, R665). -/
def Mach.aschVoid (m : Mach) (run : RunId) (ins : Bool) : Mach :=
  let drop (t : Tab (Option RunId)) : Tab (Option RunId) := if ins then t.filter fun e => e.2 != some run else t
  let m1 := ((m.aschMod fun a => { a with freeing := a.freeing.filter fun f => f.1 != run }).setPool 0 (drop m.asch.pool0)).setPool
    1 (drop m.asch.pool1)
  m1.forEach (m1.asch.queues.filter fun e => e.2.frames.any fun f => f.prov == run) fun x e =>
    x.setQueue e.1 (x.headTag { e.2 with frames := e.2.frames.filter fun f => f.prov != run })

/-- Count lost opportunities of a frame by its home copy (R309, R310, R364). -/
def Mach.lostOne (m : Mach) (home : Nat) : Mach :=
  match m.asch.picked.find? fun p => p.f.home == home with
  | some p =>
    let a := m.queue p.queue
    (m.setQueue p.queue { a with lostNow := a.lostNow + 1 }).aschMod fun y =>
      { y with picked := y.picked.map fun z => if z.f.home = home then { z with f := { z.f with lost := z.f.lost + 1 } } else z }
  | none => m

/-- The pool and index of a buffer that starts at an address. -/
def Mach.hpFind (m : Mach) (a : Nat) : Option (Nat × Nat) :=
  [0, 1].findSome? fun k =>
    if m.hpBase k ≤ a ∧ (a - m.hpBase k) % hpSize k = 0 ∧ (a - m.hpBase k) / hpSize k < m.hpCount k then
      some (k, (a - m.hpBase k) / hpSize k) else none

/-- A buffer returns to its pool (R346). -/
def Mach.homeRelease (m : Mach) (a : Nat) : Mach :=
  match m.hpFind a with
  | some (k, i) => m.setPool k (tabSet none (m.asch.pool k) i none)
  | none => m

/-! ### Bounds (R363 to R367) -/

/-- The flow of a station, TID and direction under a bank. -/
def Bank.boundOf (b : Bank) (sta tid : Nat) (up : Bool) : Option Bound :=
  b.bounds.find? fun x => x.sta == sta && x.tid == tid && x.up == up

/-- Report a violation (R365, R366). -/
def Mach.violation (m : Mach) (b : Bound) (cause lost delay : Nat) (pending : Bool) : Mach :=
  let v0 := BitVec.ofNat 32 (b.flow * 2 ^ 16 + b.sta * 32 + b.tid % 8 * 4 + (if b.up then 2 else 0) + if pending then 1 else 0)
  let v1 := BitVec.ofNat 32 (cause * 2 ^ 28 + min 255 lost * 2 ^ 20 + min 0xFFFFF delay)
  let f := match cause with
    | 1 => fASCH_VIOLCNT_IN_ALLOW
    | 2 => fASCH_VIOLCNT_OVER_ALLOW
    | 3 => fASCH_VIOLCNT_DROPPED
    | _ => fASCH_VIOLCNT_SWAP
  (((m.count ASCH_VIOLCNT f).setReg ASCH_VLAST0 v0).setReg ASCH_VLAST1 v1).event 0x0C02 0 [(4, v0.toNat), (4, v1.toNat)]

/-- The cause that a lost count gives. -/
def Bound.cause (b : Bound) (lost : Nat) : Nat := if lost ≤ b.slips then 1 else 2

/-- The age of an instant in µs. -/
def Mach.ageUs (m : Mach) (t : BitVec 60) : Nat := (m.timePayload - t).toNat / 1000

/-- A bounded downlink frame is acknowledged, by the response to a PPDU that ended at `t`, or dropped (R364, R365). -/
def Mach.boundDone (m : Mach) (p : Picked) (dropped : Bool) (t : BitVec 60) : Mach :=
  if !m.bit ASCH_CTL fASCH_CTL_BND_EN ∨ 16384 ≤ p.queue then m
  else match m.act.boundOf (p.queue / 8) (p.queue % 8) false with
    | some b =>
      let d := (t - p.f.entry).toNat / 1000
      if p.f.reported then m
      else if dropped then m.violation b 3 p.f.lost d false
      else if b.boundUs < d then m.violation b (b.cause p.f.lost) p.f.lost d false
      else m
    | none => m

/-- A frame's home copy is released by WMAC: acknowledged, sent to a group, or dropped, with the end of its PPDU (R310, R346, R364). -/
def Mach.frameDone (m : Mach) (home : Nat) (dropped : Bool) (t : BitVec 60) : Mach :=
  let m1 := match m.asch.picked.find? fun p => p.f.home == home with
    | some p => ((m.boundDone p dropped t).journal 0x0A portWMAC 0 0 p.queue [frameId home p.f.len p.f.entry]).holdOn p.queue
    | none => m
  (m1.aschMod fun y => { y with picked := y.picked.filter fun z => z.f.home != home }).homeRelease home

end Sys2Proof.Machine
end

