-- ==== Sys2Proof/Machine/StageOps.lean ====
section
/-! DEFINITION. The staging buffers of the Wi-Fi MAC (R323 to R327, R333): writing, the rewind mark, and what a run's commit
and void need. -/

namespace Sys2Proof.Machine

open Sys2Proof

/-- The size of a staging buffer (R323). -/
def stgCap (x : Nat) : Nat := match x with | 0 => 262144 | 1 => 1048576 | _ => 2097152

/-- A radio's staging buffer. -/
def Mach.stg (m : Mach) (x : Nat) : Stg := tabGet ⟨0, []⟩ m.wmac.stg x

/-- Whether a subframe stands in staging. -/
def Sub.staged (u : Sub) : Bool := u.prov == 0 && u.lost.isNone && !u.wait

/-- The rewind mark (R323, R324). -/
def Stg.mark (s : Stg) : Nat := match s.subs.find? Sub.staged with | some u => u.off | none => s.w

/-- Change a staging buffer; PENDING follows (R338). -/
def Mach.setStg (m : Mach) (x : Nat) (s : Stg) : Mach :=
  (m.wmacMod fun w => { w with stg := tabSet ⟨0, []⟩ w.stg x s }).wr (WMAC_STGx_STAT x) fWMAC_STGx_STAT_PENDING
    ((s.w - s.mark + 1023) / 1024)

/-- A key entry. -/
def Mach.keyE (m : Mach) (k : Nat) : KeyE := tabGet KeyE.zero m.wmac.keys k

/-- Change a key entry. -/
def Mach.setKeyE (m : Mach) (k : Nat) (e : KeyE) : Mach := m.wmacMod fun w => { w with keys := tabSet KeyE.zero w.keys k e }

/-- Whether a subframe's key still is the one it was given (R332). -/
def Mach.keyLive (m : Mach) (u : Sub) : Bool :=
  match u.key with
  | some (k, g) => (m.keyE k).used && (m.keyE k).gen == g
  | none => true

/-- Write a subframe at the write pointer (R323, R324): subframes with an overwritten byte are lost, and one on the air
counts a failed attempt (R325). -/
def Mach.stagePlace (m : Mach) (x : Nat) (u : Sub) : Mach :=
  let s := m.stg x
  let top := s.w + u.len
  let hit (y : Sub) : Bool := y.staged && y.id != u.id && decide (y.off + stgCap x < top)
  let gone := s.subs.filter hit
  let back := (m.getBase 0).nsTotal + m.beatNs
  let subs := (s.subs.filter fun y => y.id != u.id).map fun y =>
    if hit y then { y with lost := some m.beat, nulled := y.air, ready := back } else y
  ((m.setStg x ⟨top, subs ++ [{ u with off := s.w, lost := none, prov := 0, wait := false }]⟩).count (WMAC_STGx_STAT x)
    fWMAC_STGx_STAT_REWIND_LOST gone.length).forEach (gone.filter fun y => y.air) fun y v => y.lostOne v.home

/-- Take a subframe out of staging. -/
def Mach.stageDrop (m : Mach) (x id : Nat) : Mach :=
  m.setStg x { m.stg x with subs := (m.stg x).subs.filter fun u => u.id != id }

/-- Encrypt a subframe from its home copy and stage it (R326, R333). A poisoned home copy ends the MPDU as RETRY_EXCEEDED
(R668). -/
def Mach.stageWrite (m : Mach) (x : Nat) (u : Sub) : Mach :=
  let r := m.dramReads (u.home / 16 * 16) ((u.home % 16 + u.bytes + 15) / 16)
  match readBytes r.2 with
  | some l =>
    let plain := slice 0 l (u.home % 16) u.bytes
    let body := match u.key with
      | some (k, _) => Config.wifiSeal (m.keyE k).suite (m.keyE k).key u.pn plain
      | none => plain
    r.1.stagePlace x { u with body := body }
  | none => ((r.1.unitEnds portWMAC (u.home / 16 * 16) r.2).stageDrop x u.id).frameDone u.home true r.1.timePayload

/-- The subframes of a run in a buffer. -/
def Stg.ofRun (s : Stg) (run : RunId) : List Sub := s.subs.filter fun u => u.prov == run

/-- A run's subframes are staged (R333, R662); one that waits for a reservation waits on. -/
def Mach.stgCommit (m : Mach) (run : RunId) : Mach :=
  m.forEach [0, 1, 2] fun y x => y.forEach ((y.stg x).ofRun run) fun z u =>
    if u.wait then z.setStg x { z.stg x with subs := (z.stg x).subs.map fun v => if v.id = u.id then { v with prov := 0 } else v }
    else z.stageWrite x u

/-- A run's subframes are discarded; their numbers are skipped (R333). -/
def Mach.stgVoid (m : Mach) (run : RunId) : Mach :=
  m.forEach [0, 1, 2] fun y x =>
    if (y.stg x).ofRun run = [] then y else y.setStg x { y.stg x with subs := (y.stg x).subs.filter fun u => u.prov != run }

end Sys2Proof.Machine
end

