-- ==== Sys2Proof/Machine/RteBase.lean ====
section
/-! DEFINITION. Packet SRAM (R474 to R477): cells, frame records, handles, references, and the bytes of frames. -/

namespace Sys2Proof.Machine

open Sys2Proof

/-! ### Cells and records (R475, R477) -/

/-- A frame's record. -/
def Mach.head (m : Mach) (h : Nat) : Head := tabGet Head.zero m.rte.heads h

/-- Change a frame's record. -/
def Mach.setHead (m : Mach) (h : Nat) (x : Head) : Mach := m.rteMod fun r => { r with heads := tabSet Head.zero r.heads h x }

/-- The cells of packet SRAM (R474). -/
def cellCount : Nat := 98304

/-- Change the cells in use; RTE_STAT.FREE follows. -/
def Mach.setCells (m : Mach) (u : Tab Bool) : Mach :=
  (m.rteMod fun r => { r with used := u }).wr RTE_STAT fRTE_STAT_FREE (cellCount - u.length)

/-- The free cells. -/
def Mach.cellsFree (m : Mach) : Nat := cellCount - m.rte.used.length

/-- Take `k` free cells, in no fixed order. -/
def Mach.takeCells : Nat → Mach → Mach × List Nat
  | 0, m => (m, [])
  | k + 1, m =>
    let d := m.drawBelow (max 1 m.cellsFree)
    let c := nthFree (m.rte.used.map fun e => e.1) d.1
    let r := Mach.takeCells k (d.2.setCells (tabSet false m.rte.used c true))
    (r.1, c :: r.2)

/-- Free cells. -/
def Mach.freeCells (m : Mach) (l : List Nat) : Mach := m.setCells (m.rte.used.filter fun e => !l.contains e.1)

/-! ### Bytes (R506) -/

/-- A code word with its first bytes replaced: a partial write of a word that is poisoned stays poison (R506). -/
def mergeWord (old : Read) (l : List Byte) : Code :=
  if 16 ≤ l.length then encodeCode (datumOf (l.take 16))
  else
    let d := datumOf (l ++ (datumBytes (codeData old.code)).drop l.length)
    if old.poison.isSome then encodePoison d else encodeCode d

/-- Write bytes into class SRAM from an address that is a multiple of 16. -/
def Mach.sramBytes : Nat → Mach → Nat → List Byte → Mach
  | 0, m, _, _ => m
  | k + 1, m, a, l =>
    if l = [] then m
    else
      let r := if 16 ≤ l.length then (m, ⟨0, none⟩) else m.sramRead a
      Mach.sramBytes k (r.1.sramWrite a (mergeWord r.2 l)) (a + 16) (l.drop 16)

/-- Write bytes into DRAM from an address that is a multiple of 16. -/
def Mach.dramBytes : Nat → Mach → Nat → List Byte → Mach
  | 0, m, _, _ => m
  | k + 1, m, a, l =>
    if l = [] then m
    else
      let r := if 16 ≤ l.length then (m, ⟨0, none⟩) else m.dramRead a
      Mach.dramBytes k (r.1.dramWrite a (mergeWord r.2 l)) (a + 16) (l.drop 16)

/-- Bytes replaced inside a word; a word that is poisoned stays poison (R506). -/
def mergeAt (old : Read) (o : Nat) (l : List Byte) : Code :=
  let b := datumBytes (codeData old.code)
  let d := datumOf (b.take o ++ l ++ b.drop (o + l.length))
  if old.poison.isSome then encodePoison d else encodeCode d

/-- Write bytes into DRAM from any address. -/
def Mach.dramPut (m : Mach) (a : Nat) (l : List Byte) : Mach :=
  let o := a % 16
  if o = 0 then Mach.dramBytes (l.length / 16 + 1) m a l
  else
    let r := m.dramRead (a - o)
    let x := r.1.dramWrite (a - o) (mergeAt r.2 o (l.take (16 - o)))
    Mach.dramBytes (l.length / 16 + 1) x (a - o + 16) (l.drop (16 - o))

/-- The stretches of a frame: (class SRAM address, length), from its head cell's OFFSET through its further cells. -/
def cellSpans : Nat → Nat → List Nat → List (Nat × Nat)
  | _, _, [] => []
  | len, off, c :: r =>
    if len = 0 then []
    else let k := min len (256 - off); (256 * c + off, k) :: cellSpans (len - k) 0 r

/-- Write a frame's bytes into its cells. -/
def Mach.putSpans (m : Mach) : List (Nat × Nat) → List Byte → Mach
  | [], _ => m
  | (a, k) :: r, l => (Mach.sramBytes 17 m a (l.take k)).putSpans r (l.drop k)

/-- Read stretches; none where a word is poisoned (R33). A stretch may begin inside a word. -/
def Mach.getSpans (m : Mach) : List (Nat × Nat) → Mach × Option (List Byte)
  | [] => (m, some [])
  | (a, k) :: r =>
    let x := m.sramReads (a / 16 * 16) ((a % 16 + k + 15) / 16)
    let y := x.1.getSpans r
    (y.1, match readBytes x.2, y.2 with
      | some l, some t => some ((l.drop (a % 16)).take k ++ t)
      | _, _ => none)

/-- HEADROOM in bytes (R475, R499). -/
def Mach.headroom (m : Mach) : Nat := 16 * min 8 (m.rd RTE_BUFCFG fRTE_BUFCFG_HEADROOM)

/-! ### Pause frames sent (R466) -/

/-- The bytes that a port's frames hold in packet SRAM, of one PCP where `k` names one; spilled frames do not count (R494). -/
def Mach.heldBytes (m : Mach) (p : Nat) (k : Option Nat) : Nat :=
  (m.rte.heads.filter fun e => e.2.ref != 0 && e.2.port == p && e.2.spill.isNone && (k == none || k == some e.2.pcp)).foldl
    (fun a e => a + e.2.len) 0

/-- Whether a port pauses a priority by its level: above XOFF, or already in pause and above XON (R466). -/
def Mach.pauseWanted (m : Mach) (p q : Nat) : Bool :=
  let md := m.rd (UPL_Pp_FC p) fUPL_Pp_FC_TX_MODE
  let xoff := m.rd (UPL_Pp_FC p) fUPL_Pp_FC_XOFF
  let level := m.heldBytes p (if md = 2 ∧ p ≠ 4 then some q else none)
  let edge := if (m.getPort p).pauseSent.getLsbD q then min xoff (m.rd (UPL_Pp_FC p) fUPL_Pp_FC_XON) else xoff
  (md == 1 || md == 2) && decide (65536 * edge < level)

/-- The priorities of a test, as bits. -/
def bits8 (f : Nat → Bool) : BitVec 8 := BitVec.ofNat 8 (((List.range 8).map fun q => if f q then 2 ^ q else 0).sum)

/-- A pause frame goes out where the port is idle (R466). -/
def Mach.pauseGo (m : Mach) (p : Nat) : Mach :=
  let t := m.getPort p
  if t.pauseDue && t.busy == 0 && t.lpi == 0 && m.bit (UPL_Pp_STAT p) fUPL_Pp_STAT_LINK then
    m.portMod p fun t => { t with busy := 2, pauseDue := false, pauseAt := (m.getBase 0).nsTotal }
  else m

/-- The level of a port has changed (R466). -/
def Mach.pauseCheck (m : Mach) (p : Nat) : Mach :=
  if 4 < p then m
  else
    let want := bits8 fun q => m.pauseWanted p q
    if want = (m.getPort p).pauseSent then m
    else (m.portMod p fun t => { t with pauseSent := want, pauseDue := true }).pauseGo p

/-! ### Spill (R494, R495) -/

/-- Where a frame stands in a transmit queue: its position from the head. -/
def Mach.txPlace (m : Mach) (h : Nat) : Option Nat :=
  m.upl.findSome? fun e => e.2.queues.findSome? fun q => (List.range q.2.length).find? fun i =>
    (q.2.map fun t => t.head).getD i cellCount == h

/-- UNSPILL. -/
def Mach.unspill (m : Mach) : Nat := m.rd RTE_BUFCFG fRTE_BUFCFG_UNSPILL

/-- The packet SRAM bytes of a transmit queue. -/
def Mach.queueBytes (m : Mach) (l : List TxEnt) : Nat :=
  ((l.filter fun t => (m.head t.head).spill.isNone).map fun t => (m.head t.head).len).sum

/-- The frame to spill (R494): of the fullest queue, nearest the tail, of more than one cell, past UNSPILL. -/
def Mach.spillPick (m : Mach) : Option Nat :=
  let qs := (m.upl.map fun e => e.2.queues.map fun q => q.2).flatten
  let best := qs.foldl (fun (b : List TxEnt) q => if m.queueBytes b < m.queueBytes q then q else b) []
  ((best.drop (m.unspill + 1)).reverse.find? fun t =>
    let x := m.head t.head
    x.cells != [] && x.spill.isNone && x.copying.isNone).map fun t => t.head

/-- The slots of the spill area. -/
def Mach.spillSlots (m : Mach) : Nat := m.rd RTE_SPLEN fRTE_SPLEN_LEN * 1024

/-- Start or stop spilling by the free cells, and start the next copy (R494). -/
def Mach.spillCheck (m : Mach) : Mach :=
  let on := 16 * m.rd RTE_SPILL fRTE_SPILL_ON
  let off := max on (16 * m.rd RTE_SPILL fRTE_SPILL_OFF)
  let full := decide (m.spillSlots ≤ m.rte.slots.length)
  let go := !full && (decide (m.cellsFree < on) || (m.rte.spilling && decide (m.cellsFree < off)))
  let m1 := m.rteMod fun r => { r with spilling := go }
  if !go ∨ m.rte.heads.any (fun e => e.2.copying.isSome) then m1
  else match m1.spillPick with
    | some h =>
      let s := nthFree (m1.rte.slots.map fun e => e.1) 0
      (m1.rteMod fun r => { r with slots := tabSet false r.slots s true }).setHead h { m1.head h with copying := some s }
    | none => m1

/-- Store a frame (R475): its head cell; none, counted, where the cells do not suffice. REFCNT starts at 1. -/
def Mach.storeFrame (m : Mach) (l : List Byte) (port pcp : Nat) : Mach × Option Nat :=
  let off := m.headroom
  let need := max 1 ((off + l.length + 255) / 256)
  if m.cellsFree < need then (m.count RTE_CNT0 fRTE_CNT0_NOCELL, none)
  else
    let t := Mach.takeCells need m
    let h := t.2.headD 0
    let x : Head := { t.1.head h with ref := 1, off := off, len := l.length, cells := t.2.drop 1, spill := none,
                                      copying := none, port := port, pcp := pcp }
    ((((t.1.setHead h x).putSpans (cellSpans l.length off t.2) l).pauseCheck port).spillCheck, some h)

/-- The base of a spill slot (R494). -/
def Mach.spillAddr (m : Mach) (s : Nat) : Nat := m.reg64 RTE_SPBASE_LO RTE_SPBASE_HI + 16384 * s

/-- A frame's bytes, from its cells or from its spill slot; none where one is poisoned. -/
def Mach.frameBytes (m : Mach) (h : Nat) : Mach × Option (List Byte) :=
  let x := m.head h
  match x.spill with
  | some s =>
    let r := m.dramReads (m.spillAddr s) ((x.len + 15) / 16)
    (r.1, (readBytes r.2).map fun l => l.take x.len)
  | none => m.getSpans (cellSpans x.len x.off (h :: x.cells))

/-! ### Handles (R476, R477) -/

/-- The PKT word of a frame. -/
def Mach.pktOf (m : Mach) (h : Nat) : TWord :=
  let x := m.head h
  let p : BitVec 48 := BitVec.ofNat 48 (((h * 256 + x.off) * 32768 + x.len) * 256 + x.gen % 256)
  mkWord tagPKT (p ++ Config.handleCheck p)

/-- References that are spoken for: consumed by queued transmits and by runs not yet committed, less those they add. -/
def Mach.refHeld (m : Mach) (h : Nat) : Int :=
  let acts := m.rte.acts.filter fun a => a.head == h
  let queued := m.upl.map fun e => ((e.2.queues.map fun q => (q.2.filter fun t => t.head == h).length).sum +
    (if (e.2.cur.map fun t => t.head) = some h then 1 else 0))
  let host := m.hif.frames.filter fun f => f.handle == some (m.pktOf h)
  ((queued.sum + host.length : Nat) : Int) + ((acts.filter fun a => a.add == 0).length : Int) -
    ((acts.map RefAct.add).sum : Nat)

/-- The frame that a handle names; none where it is stale (R477). -/
def Mach.handle (m : Mach) (w : TWord) : Option Nat :=
  let h := (wPay w).toNat / 2 ^ 43
  if wTag w = tagPKT ∧ h < cellCount ∧ m.pktOf h = w ∧ m.refHeld h < (m.head h).ref then some h else none

/-- A frame's cells are freed and its GEN advances (R477). -/
def Mach.frameFree (m : Mach) (h : Nat) : Mach :=
  let x := m.head h
  let m1 := m.freeCells (h :: x.cells)
  let m2 := match x.spill with
    | some s => (m1.rteMod fun r => { r with slots := tabSet false r.slots s false }).wr RTE_STAT fRTE_STAT_SPILLED
        (m.rd RTE_STAT fRTE_STAT_SPILLED - 1)
    | none => m1
  let m3 := match x.copying with
    | some s => m2.rteMod fun r => { r with slots := tabSet false r.slots s false }
    | none => m2
  (m3.setHead h { Head.zero with gen := (x.gen + 1) % 256 }).pauseCheck x.port |>.spillCheck

/-- A handle is consumed (R477). -/
def Mach.consume (m : Mach) (h : Nat) : Mach :=
  let x := m.head h
  if x.ref ≤ 1 then m.frameFree h else m.setHead h { x with ref := x.ref - 1 }

/-- A reference change of a run waits for its commit; one of no run is applied at once (R661). -/
def Mach.refAct (m : Mach) (run : RunId) (h add : Nat) : Mach :=
  if run ≠ 0 then m.rteMod fun r => { r with acts := r.acts ++ [⟨run, h, add⟩] }
  else if add = 0 then m.consume h
  else m.setHead h { m.head h with ref := (m.head h).ref + add }

/-! ### Commit and void (R662, R663, R665) -/

/-- A run's reference changes and pulls become final. -/
def Mach.rteCommit (m : Mach) (run : RunId) : Mach :=
  let mine := m.rte.acts.filter fun a => a.run == run
  (m.rteMod fun r => { r with acts := r.acts.filter fun a => a.run != run, pulled := r.pulled.filter fun p => p.1 != run }).forEach
    mine fun x a => x.refAct 0 a.head a.add

/-- A run's reference changes are discarded; its pulled frames return to the head of their queues when `ins` is set. -/
def Mach.rteVoid (m : Mach) (run : RunId) (ins : Bool) : Mach :=
  let m1 := m.rteMod fun r => { r with acts := r.acts.filter fun a => a.run != run }
  if ins then
    let mine := m.rte.pulled.filter fun p => p.1 == run
    (m1.rteMod fun r => { r with pulled := r.pulled.filter fun p => p.1 != run }).forEach mine.reverse fun x p =>
      x.rteMod fun r => { r with intake := tabMod [] r.intake p.2.1 fun l => p.2.2 :: l }
  else m1

end Sys2Proof.Machine
end

