-- ==== Sys2Proof/Machine/UplOps.lean ====
section
/-! DEFINITION. The Ethernet uplinks (R454 to R473): gates, shapers, the choice of the next frame, pause, low-power idle,
time-stamps, reception. -/

namespace Sys2Proof.Machine

open Sys2Proof

/-- Whether a mode is one of a port's (R454). -/
def modeOk (p v : Nat) : Bool := v == 0 || (if p = 4 then decide (3 ≤ v ∧ v ≤ 5) else decide (v = 1 ∨ v = 2))

/-- MAXLEN (R455, R473). -/
def Mach.maxLen (m : Mach) (p : Nat) : Nat :=
  let v := m.rd (UPL_Pp_CFG p) fUPL_Pp_CFG_MAXLEN
  if 1518 ≤ v ∧ v ≤ 9600 then v else 9600

/-- The rate of a port in Mb/s (R454). -/
def Mach.portRate (m : Mach) (p : Nat) : Nat :=
  match m.rd (UPL_Pp_CFG p) fUPL_Pp_CFG_MODE with
  | 1 => 10000
  | 2 => 25000
  | 4 => match m.rd (UPL_Pp_STAT p) fUPL_Pp_STAT_SPEED with | 0 => 10 | 1 => 100 | _ => 1000
  | 5 => 2500
  | _ => 1000

/-- The time of a number of bytes in ns, rounded up. -/
def Mach.bytesNs (m : Mach) (p n : Nat) : Nat := (8000 * n + m.portRate p - 1) / m.portRate p

/-! ### Gates (R467 to R469) -/

/-- The segments of a cycle as (end, state): the cycle cuts the list, or its last state holds. -/
def gateSegs (cycle : Nat) : Nat → List (Nat × Nat) → List (Nat × Nat)
  | _, [] => [(cycle, 255)]
  | _, [(s, _)] => [(cycle, s)]
  | a, (s, iv) :: r => if cycle ≤ a + iv then [(cycle, s)] else (a + iv, s) :: gateSegs cycle (a + iv) r

/-- The position in a list's cycle. -/
def Gates.pos (g : Gates) (t : Nat) : Nat := (t - g.start) % max 1 g.cycle

/-- The segments of a list from its current one through the next cycle. -/
def Gates.ahead (g : Gates) (t : Nat) : List (Nat × Nat) :=
  let l := gateSegs g.cycle 0 g.list
  (l.filter fun e => decide (g.pos t < e.1)) ++ l.map fun e => (e.1 + g.cycle, e.2)

/-- When queue `q`'s gate next closes, counted from the start of the cycle: 0 where it is closed, none where it stays open. -/
def gateClose (q : Nat) : Nat → List (Nat × Nat) → Option Nat
  | _, [] => none
  | from_, (e, s) :: r => if s.testBit q then gateClose q e r else some from_

/-- Whether a queue's gate lets a frame of `n` bytes go (R460). -/
def Mach.gateOk (m : Mach) (p q n : Nat) : Bool :=
  match (if m.bit (UPL_Pp_GCTL p) fUPL_Pp_GCTL_EN then (m.getPort p).oper else none) with
  | none => true
  | some g =>
    let t := (m.getBase 0).nsTotal
    match gateClose q 0 (g.ahead t) with
    | none => true
    | some c => c != 0 && (!m.bit (UPL_Pp_GCTL p) fUPL_Pp_GCTL_GUARD || decide (g.pos t + m.bytesNs p (n + 4 + 20) < c))

/-- The entries of the administrative list (R467); none where R473 calls the list bad. -/
def Mach.gateAdmin (m : Mach) (p : Nat) : Option (List (Nat × Nat)) :=
  let n := m.rd (UPL_Pp_GCTL p) fUPL_Pp_GCTL_LEN
  let c := m.rd (UPL_Pp_GCYCLE p) fUPL_Pp_GCYCLE_CYCLE
  let l := (List.range n).map fun e => (m.rd (UPL_Pp_GCLe_GS p e) fUPL_Pp_GCLe_GS_GATES, m.rd (UPL_Pp_GCLe_IV p e) fUPL_Pp_GCLe_IV_IV)
  if 1 ≤ n ∧ n ≤ 256 ∧ 1000 ≤ c ∧ c ≤ 1000000000 ∧ l.all (fun e => decide (1 ≤ e.2 ∧ e.2 ≤ 1000000000)) then some l else none

/-- GCTL.CHANGE (R468, R469). -/
def Mach.gclChange (m : Mach) (p : Nat) : Mach :=
  match m.gateAdmin p with
  | none => m.wr (UPL_Pp_GCTL p) fUPL_Pp_GCTL_STATUS 3
  | some _ => (m.wr (UPL_Pp_GCTL p) fUPL_Pp_GCTL_CHANGE 1).portMod p fun t => { t with change := true }

/-- A port takes its change at a beat start (R468). -/
def Mach.gclTake (m : Mach) (p : Nat) : Mach :=
  if !(m.getPort p).change then m
  else match m.gateAdmin p with
    | none => ((m.wr (UPL_Pp_GCTL p) fUPL_Pp_GCTL_STATUS 3).wr (UPL_Pp_GCTL p) fUPL_Pp_GCTL_CHANGE
        (if (m.getPort p).next.isSome then 1 else 0)).portMod p fun t => { t with change := false }
    | some l =>
      let cyc := m.rd (UPL_Pp_GCYCLE p) fUPL_Pp_GCYCLE_CYCLE
      let base := m.reg64 (UPL_Pp_GBASE_SLO p) (UPL_Pp_GBASE_SHI p) * 1000000000 + (m.reg (UPL_Pp_GBASE_NS p)).toNat
      let t2 := m.tim.beatTime.toNat + 2 * m.beatNs
      let s := if t2 ≤ base then base else base + (t2 - base + cyc - 1) / cyc * cyc
      (((((m.setReg (UPL_Pp_GSTART_NS p) (BitVec.ofNat 32 (s % 1000000000))).setReg64 (UPL_Pp_GSTART_SLO p) (UPL_Pp_GSTART_SHI p)
        (s / 1000000000)).wr (UPL_Pp_GCTL p) fUPL_Pp_GCTL_STATUS 1).portMod p fun t =>
          { t with change := false, next := some ⟨l, cyc, s⟩ })).event 0x0E02 p [(4, s % 1000000000)]

/-! ### Shapers and the choice (R460, R461) -/

/-- The RATE and BND words of a queue's shaper that are in force (R358, R461). -/
def Mach.shpWords (m : Mach) (p q : Nat) : W32 × W32 := tabGet (0, 0x06000600) (m.getPort p).shp q

/-- IDLE of a queue's shaper. -/
def Mach.shpIdle (m : Mach) (p q : Nat) : Nat := max 1 (getFld (m.shpWords p q).1 fUPL_Pp_SHPq_RATE_IDLE)

/-- Whether a queue is shaped. -/
def Mach.shpOn (m : Mach) (p q : Nat) : Bool := getFld (m.shpWords p q).1 fUPL_Pp_SHPq_RATE_EN == 1

/-- The bounds of a queue's shaper in mB. -/
def Mach.shpHi (m : Mach) (p q : Nat) : Nat := 1000 * getFld (m.shpWords p q).2 fUPL_Pp_SHPq_BND_HI
def Mach.shpLo (m : Mach) (p q : Nat) : Int := -(1000 * getFld (m.shpWords p q).2 fUPL_Pp_SHPq_BND_LO : Nat)

/-- A queue of a port. -/
def Mach.txq (m : Mach) (p q : Nat) : List TxEnt := tabGet [] (m.getPort p).queues q

/-- A queue's credit. -/
def Mach.shpCredit (m : Mach) (p q : Nat) : Int := tabGet 0 (m.getPort p).credit q

/-- Accrual at a tick (R357, R461). -/
def Mach.uplAccrue (m : Mach) (us : Nat) : Mach :=
  m.forEach [0, 1, 2, 3, 4] fun x p => x.forEach ((List.range 8).filter fun q => x.shpOn p q) fun y q =>
    let c := y.shpCredit p q
    let bl := (y.txq p q).any fun e => e.prov == 0
    let c1 := if bl ∨ c < 0 then min (c + (y.shpIdle p q * us / 8 : Nat)) (y.shpHi p q) else c
    y.portMod p fun t => { t with credit := tabSet 0 t.credit q (if !bl ∧ 0 < c1 then 0 else c1) }

/-- Changed shapers take effect at a beat start, their credit clamped to the new bounds (R358, R461). -/
def Mach.uplApply (m : Mach) : Mach :=
  m.forEach [0, 1, 2, 3, 4] fun x p => x.forEach (List.range 8) fun y q =>
    let v := (y.reg (UPL_Pp_SHPq_RATE p q), y.reg (UPL_Pp_SHPq_BND p q))
    if v = y.shpWords p q then y
    else
      let z := y.portMod p fun t => { t with shp := tabSet (0, 0x06000600) t.shp q v }
      z.portMod p fun t => { t with credit := tabMod 0 t.credit q fun c => min (max c (z.shpLo p q)) (z.shpHi p q) }

/-- Whether a queue is eligible (R460); its head where it is. -/
def Mach.txEligible (m : Mach) (p q : Nat) : Option TxEnt :=
  match m.txq p q with
  | [] => none
  | e :: _ =>
    if e.prov = 0 ∧ !((m.reg (UPL_Pp_STAT p)).getLsbD (8 + q)) ∧ m.gateOk p q e.len ∧ (!m.shpOn p q ∨ 0 ≤ m.shpCredit p q) ∧
        (!e.tsreq ∨ (m.getPort p).stamps.length < 16) then some e else none

/-- Whether a port holds anything to send; a frame of a run that has not committed is not there yet (R661). -/
def UPort.waiting (t : UPort) : Bool := t.pauseDue || t.queues.any fun q => q.2.any fun e => e.prov == 0

/-- The wake time of a port in ns (R470). -/
def Mach.wakeNs (m : Mach) (p : Nat) : Nat := if m.rd (UPL_Pp_CFG p) fUPL_Pp_CFG_MODE = 2 then 3000 else 5000

/-- The port chooses its next frame where it is idle (R460, R466, R470). A port without link sends nothing. -/
def Mach.txChoose (m : Mach) (p : Nat) : Mach :=
  let t := m.getPort p
  if t.busy ≠ 0 ∨ m.chn.portsOff ∨ !m.bit (UPL_Pp_STAT p) fUPL_Pp_STAT_LINK ∨ m.rd (UPL_Pp_CFG p) fUPL_Pp_CFG_MODE = 0 then m
  else if t.lpi = 1 then (if t.waiting then m.portMod p fun t => { t with lpi := 2, wakeAt := (m.getBase 0).nsTotal + m.wakeNs p } else m)
  else if t.lpi = 2 then m
  else if t.pauseDue then m.pauseGo p
  else match [7, 6, 5, 4, 3, 2, 1, 0].findSome? fun q => (m.txEligible p q).map fun e => (q, e) with
    | none => m
    | some (q, e) =>
      let m1 := if m.shpOn p q then m.portMod p fun t =>
          { t with credit := tabMod 0 t.credit q fun c => max (c - (1000 * (e.len + 24) : Nat)) (m.shpLo p q) } else m
      m1.portMod p fun t => { t with queues := tabMod [] t.queues q (·.drop 1), busy := 1, cur := some e, emptyAt := (m.getBase 0).nsTotal }

/-- Every port chooses. -/
def Mach.txChooseAll (m : Mach) : Mach := m.forEach [0, 1, 2, 3, 4] fun x p => x.txChoose p

/-- Queue a frame on a port (R459); false, counted, where its queue is full. -/
def Mach.txQueue (m : Mach) (p q : Nat) (e : TxEnt) : Mach × Bool :=
  if 512 ≤ (m.txq p q).length then (m.count (UPL_Pp_CNT1 p) fUPL_Pp_CNT1_QFULL, false)
  else (((m.portMod p fun t => { t with queues := tabMod [] t.queues q (· ++ [e]) }).txChoose p).spillCheck, true)

/-- A run's frames may be chosen (R661, R662). -/
def Mach.uplCommit (m : Mach) (run : RunId) : Mach :=
  m.forEach (m.upl.filter fun e => e.2.queues.any fun q => q.2.any fun t => t.prov == run) fun x e =>
    (x.portMod e.1 fun t =>
      { t with queues := t.queues.map fun q => (q.1, q.2.map fun y => if y.prov = run then { y with prov := 0 } else y) }).txChoose e.1

/-- A run's frames are discarded. -/
def Mach.uplVoid (m : Mach) (run : RunId) : Mach :=
  m.forEach (m.upl.filter fun e => e.2.queues.any fun q => q.2.any fun t => t.prov == run) fun x e =>
    (x.portMod e.1 fun t =>
      { t with queues := (t.queues.map fun q => (q.1, q.2.filter fun y => y.prov != run)).filter fun q => q.2 != [],
               emptyAt := (m.getBase 0).nsTotal }).txChoose e.1

/-! ### Ends, stamps, links (R459, R471, R493) -/

/-- Show the transmit stamps (R471, R473). -/
def Mach.stampShow (m : Mach) (p : Nat) : Mach :=
  let l := (m.getPort p).stamps
  let m1 := m.wr (UPL_Pp_STAT p) fUPL_Pp_STAT_TSFILL l.length
  match l with
  | [] => ((m1.setReg (UPL_Pp_TXTS0 p) 0).setReg (UPL_Pp_TXTS1 p) 0).setReg (UPL_Pp_TXTS2 p) 0
  | (t, tag) :: _ =>
    ((m1.setReg (UPL_Pp_TXTS0 p) (BitVec.ofNat 32 (t % 1000000000))).setReg (UPL_Pp_TXTS1 p) (BitVec.ofNat 32 (t / 1000000000))).setReg
      (UPL_Pp_TXTS2 p) (BitVec.ofNat 32 (2 ^ 31 + tag % 256 * 65536 + t / 1000000000 / 2 ^ 32 % 65536))

/-- What a port sent is out (R459, R471): `age` ns ago the first bit of the frame crossed the pins. -/
def Mach.ethTxEnd (m : Mach) (p age : Nat) : Mach :=
  let t := m.getPort p
  if t.busy = 0 then m
  else
    let m1 := m.portMod p fun t => { t with busy := 0, cur := none }
    let m2 := match t.cur with
      | some e =>
        let m2 := if e.tsreq then
            let at_ := (m.getBase 0).nsTotal - age + m.rd (UPL_Pp_TSDLY p) fUPL_Pp_TSDLY_TX / 10
            ((m1.portMod p fun t => { t with stamps := t.stamps ++ [(at_, e.tstag)] }).stampShow p).event 0x0E04 p [(1, e.tstag)]
          else m1
        m2.consume e.head
      | none => m1
    m2.txChoose p

/-- A read of UPL_Pp_TXTS2 removes the oldest stamp (R473). -/
def Mach.stampRead (m : Mach) (p : Nat) : Mach :=
  (((m.setAnswer (m.reg (UPL_Pp_TXTS2 p))).portMod p fun t => { t with stamps := t.stamps.drop 1 }).stampShow p).txChoose p

/-- A port's link changes; the LAG groups show it (R493). -/
def Mach.ethLink (m : Mach) (p speed : Nat) (up : Bool) : Mach :=
  if up && m.rd (UPL_Pp_CFG p) fUPL_Pp_CFG_MODE == 0 then m
  else
    let m1 := (m.wr (UPL_Pp_STAT p) fUPL_Pp_STAT_LINK (if up then 1 else 0)).wr (UPL_Pp_STAT p) fUPL_Pp_STAT_SPEED
      (if up ∧ m.rd (UPL_Pp_CFG p) fUPL_Pp_CFG_MODE = 4 then speed else 0)
    let m2 := m1.forEach [0, 1] fun x g =>
      let u := x.rd (RTE_LAGg_CFG g) fRTE_LAGg_CFG_UP
      let v := (List.range 4).map fun k => if k = p then (if up ∧ (x.rd (RTE_LAGg_CFG g) fRTE_LAGg_CFG_MEMBERS).testBit k then 2 ^ k
        else 0) else if u.testBit k then 2 ^ k else 0
      x.wr (RTE_LAGg_CFG g) fRTE_LAGg_CFG_UP v.sum
    m2.txChoose p

/-! ### Reception (R455 to R457) -/

/-- The PCP of a frame and whether it bears a VLAN tag. -/
def frameTag (l : List Byte) : Nat × Bool :=
  if l.getD 12 0 = 0x81 ∧ l.getD 13 0 = 0x00 then ((l.getD 14 0).toNat / 32, true) else (0, false)

/-- The items of a frame in form DATA (R456). -/
def dataItems (w : Nat) : Nat → Bool → List Byte → List QWord
  | 0, _, _ => []
  | k + 1, first, l =>
    let last := l.length ≤ 16 * w
    let part := l.take (16 * w)
    sideWords first last (if part.length % 16 = 0 then 16 else part.length % 16) 0 true 0 true (codesOf part) ++
      if last then [] else dataItems w k false (l.drop (16 * w))

/-- The descriptor of a received frame (R456). -/
def Mach.rxDesc (m : Mach) (h p stamp : Nat) (l : List Byte) : Code :=
  let t := frameTag l
  encodeCode (datumOf (bytesLE 4 (256 * h + (m.head h).off) ++
    bytesLE 4 (l.length % 2 ^ 14 + t.1 * 2 ^ 14 + (if t.2 then 2 ^ 17 else 0) + p * 2 ^ 18) ++
    bytesLE 4 stamp ++ bytesLE 4 (stamp / 2 ^ 32 % 2 ^ 28)))

/-- Whether the channel answered the last item with FLUSHED (R206, R457). -/
def Mach.chFlushed (m : Mach) (ch : Nat) : Bool := (m.getChan ch).lastFlushed && (m.getChan ch).waiting == []

/-- A frame has been received, FCS excluded from its bytes; a frame whose descriptor the channel refuses is freed (R193, log 65); `age` ns ago its first bit crossed the pins (R455 to R457). -/
def Mach.ethRx (m : Mach) (p : Nat) (l : List Byte) (fcsOk : Bool) (age : Nat) : Mach :=
  let n := l.length + 4
  let ch := m.rd (UPL_Pp_RXCH p) fUPL_Pp_RXCH_CH
  if m.rd (UPL_Pp_CFG p) fUPL_Pp_CFG_MODE = 0 ∨ !m.bit (UPL_Pp_STAT p) fUPL_Pp_STAT_LINK then m
  else if !fcsOk then m.count (UPL_Pp_CNT0 p) fUPL_Pp_CNT0_RX_FCS
  else if m.maxLen p < n then m.count (UPL_Pp_CNT0 p) fUPL_Pp_CNT0_RX_LONG
  else if n < 64 then m
  else if Config.rxData p then
    let m1 := m.chFrom portUPL ch (dataItems (max 1 (m.rd (UPL_Pp_RXCH p) fUPL_Pp_RXCH_ITEMW)) 700 true l)
    if m1.chFlushed ch then m1.count (UPL_Pp_CNT1 p) fUPL_Pp_CNT1_RX_FLUSHED else m1
  else
    let r := m.storeFrame l p (frameTag l).1
    match r.2 with
    | none => r.1
    | some h =>
      let stamp := ((m.getBase 0).nsTotal - age + m.rd (UPL_Pp_TSDLY p) fUPL_Pp_TSDLY_RX / 10) % 2 ^ 60
      let m1 := r.1.chFrom portUPL ch (sideWords true true 16 0 true 0 true [r.1.rxDesc h p stamp l])
      if !r.1.chTakes portUPL ch then m1.consume h
      else if m1.chFlushed ch then (m1.count (UPL_Pp_CNT1 p) fUPL_Pp_CNT1_RX_FLUSHED).consume h else m1

end Sys2Proof.Machine
end

