-- ==== Sys2Proof/Machine/RunEnd.lean ====
section
/-! DEFINITION. How a task run ends: commit, abandon, and the stop at a beat end (R134, R661 to R670, R770). -/

namespace Sys2Proof.Machine

/-- A run's frames in HIF may be written to their rings (R661, R662). -/
def Mach.hifCommit (m : Mach) (run : RunId) : Mach :=
  m.hifMod fun h => { h with frames := h.frames.map fun f => if f.prov = run then { f with prov := 0 } else f }

/-- A run's frames in HIF are discarded. -/
def Mach.hifVoid (m : Mach) (run : RunId) : Mach :=
  m.hifMod fun h => { h with frames := h.frames.filter fun f => f.prov != run }

/-- Make every provisional effect and consumption of a run final (R662). -/
def Mach.blocksCommit (m : Mach) (run : RunId) : Mach :=
  ((((((m.forEach (m.chansOf run) fun x ch => x.chCommit run ch).sigCommit run).aschCommit run).stgCommit run).rteCommit
    run).uplCommit run).hifCommit run

/-- Discard a run's provisional outputs, and return its consumption when `ins` is set (R663, R665). -/
def Mach.blocksVoid (m : Mach) (run : RunId) (ins : Bool) : Mach :=
  ((((((m.forEach (m.chansOf run) fun x ch => x.chVoid run true ins ch).sigVoid run).aschVoid run ins).stgVoid run).rteVoid run
    ins).uplVoid run).hifVoid run

/-- The commit of the run of a task slot (R662); its record is marked LATE where its END lost to a beat start (R78, R672). -/
def Mach.commitRun (m : Mach) (n slot : Nat) : Mach :=
  let t := m.getTe n
  (m.journal 0x04 n ((if allLocal t.outs then 1 else 0) + if t.late then 2 else 0) slot t.outs.length []).blocksCommit
    (runOf n slot)

/-- Void the run of a task slot with the outputs `outs` (R665). -/
def Mach.voidRun (m : Mach) (n slot : Nat) (outs : List Output) (ins : Bool) : Mach :=
  (m.journal 0x05 n (if allLocal outs then 1 else 0) slot outs.length []).blocksVoid (runOf n slot) ins

/-- Mark a selected task as dispatched, skipped or not to run in this beat (R183, R184, R665). -/
def DspTe.markRan (d : DspTe) (slot : Nat) : DspTe :=
  { d with sel := d.sel.map (fun x => if x.slot = slot then { x with ran := true } else x),
           delay := d.delay.filter (fun e => e.2 != slot) }

/-- The accesses of a task slot whose run is over: their landings are no longer logged (R664). -/
def Te.runOver (t : Te) (slot : Nat) : Te :=
  { t with accs := t.accs.map fun a => if a.tslot = slot ∨ a.tslot = 63 then { a with live := false } else a }

/-- The end of a task: it commits and the engine is idle; a replayed run counts (R69, R183, R662, R666). -/
def Mach.endTask (m : Mach) (n : Nat) : Mach :=
  let slot := (m.getTe n).tslot
  ((m.commitRun n slot).when (m.getTe n).replay fun x => x.count FLT_RPLCNT fFLT_RPLCNT_REPLAYED).teMod n fun t =>
    { t.runOver slot with st := .idle, outs := [], undo := [], undoFull := false, wait := none, replay := false, late := false,
                          task := none, ctx := { t.ctx with ending := 0 } }

/-- The flags of accesses, as a mask. -/
def accMask : List Acc → BitVec 32
  | [] => 0
  | a :: r => (if a.flag < 32 then 1#32 <<< a.flag else 0) ||| accMask r

/-- Detach the outstanding far accesses of a task slot and free their flags; outputs not yet at their target are
discarded (R770). -/
def Mach.detach (m : Mach) (n slot : Nat) : Mach :=
  let t := m.getTe n
  let mask := accMask (t.accs.filter fun a => a.tslot == slot && !a.detached)
  (m.setTe n { t with accs := (t.accs.filter fun a => !(a.tslot == slot && a.out.isSome)).map fun a =>
      if a.tslot = slot then { a with detached := true, flag := 32 } else a }).dspMod n
    fun d => (d.clear slot mask).unlate slot mask

/-- Write an undo log back in reverse order: its newest entry stands first (R664). -/
def Te.undoApply (t : Te) : List (Nat × Code) → Te
  | [] => t
  | (ix, w) :: r => { t with lmem := storeSet t.lmem ix w }.undoApply r

/-- Count a run that is not replayed, with its record and event (R659, R665, R684). -/
def Mach.noReplay (m : Mach) (n slot : Nat) : Mach :=
  ((m.count FLT_RPLCNT fFLT_RPLCNT_NOREPLAY).faultRecord ⟨7, n, 0, 0, slot, 0, 0, 0, 0⟩).event 0x1505 n [(1, n), (1, slot)]

/-- The context of a task at its ENTRY: t1 the beat, t2 the TIME of the beat start (R101). -/
def entryCtx (entry beat : Nat) (time : BitVec 60) : Ctx :=
  ⟨tabSet 0 (tabSet 0 [] 1 (intWord beat)) 2 (mkWord tagTIME time), 0, 1, entry, none, 0, 0⟩

/-- The engine after its run is abandoned: local memory undone unless the run is marked UNDO_FULL (R664, R665). -/
def Te.abandoned' (t : Te) : Te :=
  let u := if t.undoFull then t else t.undoApply t.undo
  { u with st := .idle, outs := [], undo := [], undoFull := false, wait := none, pend := [], ctx := Ctx.zero,
           late := false, task := none, abandoned := t.tslot :: t.abandoned }

/-- Abandon the run in force (R132, R664, R665, R770): outputs discarded, inputs returned, local memory undone; then a
replay from ENTRY, or none in this beat. -/
def Mach.abandon (m : Mach) (n : Nat) : Mach :=
  let t := m.getTe n
  let slot := t.tslot
  let again := t.undoFull || t.abandoned.contains slot
  let m1 := ((((m.detach n 63).detach n slot).voidRun n slot t.outs true).teMod n Te.abandoned')
  if again then (m1.dspMod n fun d => d.markRan slot).noReplay n slot
  else match t.task with
    | some k =>
      (m1.teMod n fun x =>
        let f : StopFrame := ⟨entryCtx k.entry x.first x.firstTime, none, [], [], false, x.first, x.firstTime⟩
        { x with stops := tabSet none x.stops slot (some f) }).dspMod n
        fun d => { d with replay := k :: d.replay }
    | none => m1

/-- Whether the engine is in its fault task. -/
def Te.inFault (t : Te) : Bool := t.st = .fault || t.st = .waitF

/-- Stop the running task at a beat end and save its stop frame (R134, R665); its outputs are discarded at their targets
and kept for re-issue, its inputs stay provisional. Outputs of a fault task that runs are discarded only. -/
def Mach.stopTask (m : Mach) (n : Nat) : Mach :=
  let t := m.getTe n
  let slot := t.tslot
  let l := t.landAll
  let ctx := if t.inFault then t.entered else l.ctx
  let dz := if t.st = .run ∨ t.st = .wait then findDz t.pend else none
  let outs := if t.inFault then t.outs.take t.outMark else t.outs
  ((m.when t.inFault fun x => x.detach n 63).blocksVoid (runOf n slot) false).teMod n fun x =>
    { x with st := .idle, wait := none, pend := [], outs := [], undo := [], undoFull := false, ctx := Ctx.zero,
             late := false, task := none, stops := tabSet none x.stops slot (some ⟨ctx, dz, outs, t.undo, t.undoFull, t.first, t.firstTime⟩) }

/-! ### Faults of a TE -/

/-- Record an engine fault: ENG_TEn_FAULT, FINSN and FCNT, the fault record and its events (R130, R659, R684). -/
def Mach.engineFault (m : Mach) (n code tslot fpc finsn fopnd place : Nat) (undoFull : Bool) : Mach :=
  let m1 := (((m.wr (ENG_TEn_FAULT n) fENG_TEn_FAULT_CODE code).wr (ENG_TEn_FAULT n) fENG_TEn_FAULT_TSLOT tslot).wr
    (ENG_TEn_FAULT n) fENG_TEn_FAULT_FPC fpc).setReg (ENG_TEn_FINSN n) (BitVec.ofNat 32 finsn)
  let m2 := (m1.count (ENG_TEn_FCNT n) fENG_TEn_FCNT_FAULTS).faultRecord
    ⟨1, n, code, if undoFull then 2 else 0, tslot, fpc, fopnd, finsn, 0⟩
  (m2.when (code = 2) fun x => x.event 0x1502 n [(1, place), (4, 0)]).event 0x1501 n [(1, n), (1, tslot), (1, code)]

/-- Raise a fault with what fault entry will freeze (R129, R130): the instruction is suppressed. In the fault task it is
DOUBLE, and the interrupted task is abandoned at once (R129, R133). -/
def Mach.raise (m : Mach) (n : Nat) (f : Frozen) : Mach :=
  let t := m.getTe n
  if t.inFault then (m.engineFault n 0x0B 63 f.fpc f.finsn f.fopnd f.place t.undoFull).abandon n
  else m.setTe n { t with st := .faulting, wait := none, frozen := f }

/-- Raise a division trap with the pc and transfer state of its DIV (R124). -/
def Mach.raiseDz (m : Mach) (n : Nat) : PTgt → Mach
  | .dz fpc finsn bt btc ending =>
    (m.teMod n fun t =>
      { t with pend := t.pend.filter (fun p => match p.tgt with | .dz .. => false | _ => true),
               ctx := { t.ctx with pc := fpc, bt := bt, btc := btc, ending := ending } }).raise n
      ⟨0x07, fpc, finsn, 0, bt, btc - 1, 0, 0, false⟩
  | _ => m

/-- The fault task ends by FRET (R132): 2 RETRY, 3 SKIP, 4 ABANDON. -/
def Mach.faultReturn (m : Mach) (n mode : Nat) : Mach :=
  let t := m.getTe n
  let back := { t.saved with fl := t.frozen.ffl }
  if mode = 2 then m.setTe n { t with st := .run, wait := none, pend := [], ctx := back }
  else if mode = 3 then
    m.setTe n { t with st := .run, wait := none, pend := [], ctx := back.next (if t.frozen.rep then 2 else 1) }
  else m.abandon n

/-- What follows the delay slots of an END or a FRET, once every result has landed (R96, R99, R132, R173). -/
def Mach.finish (m : Mach) (n : Nat) : Mach :=
  let t := m.getTe n
  let k := t.ctx.ending
  let m1 := m.setTe n t.landAll
  match findDz t.pend with
  | some d => m1.raiseDz n d
  | none => if k = 1 then m1.endTask n else m1.faultReturn n k

/-- The TE whose SIG a full event queue holds issues nothing, and no END of it takes effect (R189). -/
def Mach.sigHeld (m : Mach) (n : Nat) : Bool :=
  m.dsp.any fun e => e.2.held.any fun x => x.prov != 0 && (x.prov - 1) / 64 == n

/-- Whether the delay slots of an END or FRET have all issued. -/
def Te.mustFinish (t : Te) : Bool := (t.st = .run || t.st = .fault) && t.ctx.ending != 0 && t.ctx.btc == 0

/-- Finish the task, and the task a SKIP returned to, where their delay slots have all issued and no SIG is held. -/
def Mach.settle (m : Mach) (n : Nat) : Mach :=
  if m.sigHeld n then m
  else
    let m1 := if (m.getTe n).mustFinish then m.finish n else m
    if (m1.getTe n).mustFinish then m1.finish n else m1

end Sys2Proof.Machine
end

