-- ==== Sys2Proof/Machine/TimOps.lean ====
section
/-! DEFINITION. The time bases (R549 to R571): their advance, loads, steps and slews, capture, the pulse per second, and
time over the guy lines. -/

namespace Sys2Proof.Machine

/-! ### Advance (R549 to R552, R556, R557) -/

/-- The nominal increment of a base in units of 2^-32 ns (R549). -/
def tbNominal (k : Nat) : Nat := if k = 4 then 31 * 2 ^ 32 + 0x40000000 else 2 * 2 ^ 32 + 0x80000000

/-- How far an increment may lie from the nominal one (R550). -/
def tbTolerance (k : Nat) : Nat := if k = 4 then 67108864 else 5368709

/-- Whether a rate satisfies R550. -/
def tbRateOk (k : Nat) (r : Int) : Bool := decide ((r - tbNominal k).natAbs ≤ tbTolerance k)

/-- The increment in force. -/
def Mach.tbInc (m : Mach) (k : Nat) : Nat := (m.reg (TIM_TBk_INC_NS k)).toNat % 256 * 2 ^ 32 + (m.reg (TIM_TBk_INC_FRAC k)).toNat

/-- The base whose increment and slew a base uses: TB0's for TB5 and for a linked TSF base (R549, R557). -/
def Mach.tbSource (m : Mach) (k : Nat) : Nat :=
  if k = 5 ∨ (1 ≤ k ∧ k ≤ 3 ∧ m.bit (TIM_TBk_CTL k) fTIM_TBk_CTL_LINK) then 0 else k

/-- The slew in force, in units of 2^-32 ns a step. -/
def Mach.tbSlew (m : Mach) (k : Nat) : Int := (m.reg (TIM_TBk_SLEW k)).toInt

/-- The advance of a source base over `n` steps (R552). -/
def Mach.tbAdvance (m : Mach) (k n : Nat) : Int :=
  (n * m.tbInc k : Nat) + m.tbSlew k * (min n (m.reg (TIM_TBk_SLEWCNT k)).toNat : Nat)

/-- A base at a number of 2^-32 ns since its epoch. -/
def Base.at_ (b : Base) (t : Int) : Base :=
  let x := (t % (2 ^ 64 * 1000000000 * 2 ^ 32 : Nat)).toNat
  { b with s := BitVec.ofNat 64 (x / 2 ^ 32 / 1000000000), ns := x / 2 ^ 32 % 1000000000, frac := BitVec.ofNat 32 x }

/-- A load's value (R552). -/
def Mach.tbSet (m : Mach) (k : Nat) : Nat :=
  (m.reg64 (TIM_TBk_SET_S_LO k) (TIM_TBk_SET_S_HI k) * 1000000000 + (m.reg (TIM_TBk_SET_NS k)).toNat % 1000000000) * 2 ^ 32

/-- The reference steps of base `k` in `n` steps of 2.5 ns: the lantern's crystal makes two in 25 (R549). -/
def Mach.tbSteps (m : Mach) (k n : Nat) : Nat := if k = 4 then (m.tim.ref + 2 * n) / 25 else n

/-- An increment pair takes effect at the next step (R552). -/
def Mach.tbPair (m : Mach) (k : Nat) : Mach :=
  match (m.getBase k).incPair with
  | some (ns, fr) =>
    ((m.setReg (TIM_TBk_INC_NS k) (BitVec.ofNat 32 ns)).setReg (TIM_TBk_INC_FRAC k) (BitVec.ofNat 32 fr)).setBase k
      { m.getBase k with incPair := none }
  | none => m

/-- Base `k` after `n` steps of its reference, its rate taken from `r` before those steps (R549, R552, R556). -/
def Mach.tbMove (r m : Mach) (k n : Nat) : Mach :=
  if n = 0 then m
  else
    let b := m.getBase k
    let src := r.tbSource k
    let d := r.tbAdvance src n
    let t : Int := if b.load then (r.tbSet k : Int) + d - r.tbAdvance src 1 else (b.total : Int) + d
    let c := { b.at_ (t + b.step * (2 ^ 32 : Nat)) with load := false, step := 0 }
    (m.setBase k c).when b.load fun x => x.wr (TIM_TBk_CTL k) fTIM_TBk_CTL_LOAD 0

/-- A slew's count falls with the steps (R552). -/
def Mach.tbCount (m : Mach) (k n : Nat) : Mach :=
  m.setReg (TIM_TBk_SLEWCNT k) (BitVec.ofNat 32 ((m.reg (TIM_TBk_SLEWCNT k)).toNat - n))

/-- `n` steps of 2.5 ns pass on every base; the lantern's crystal runs while the lantern is powered. -/
def Mach.elapse (m : Mach) (n : Nat) : Mach :=
  if n = 0 then m
  else
    let l := if m.rd SYS_DOMSTAT fSYS_DOMSTAT_LANT_STATE = 0 then 0 else m.tbSteps 4 n
    let r := [0, 1, 2, 3].foldl Mach.tbPair (if l = 0 then m else m.tbPair 4)
    let m1 := (r.forEach [0, 1, 2, 3, 5] fun x k => Mach.tbMove r x k n) |> fun x => Mach.tbMove r x 4 l
    let m2 := (((m1.tbCount 0 n).tbCount 1 n).tbCount 2 n).tbCount 3 n
    (m2.tbCount 4 l).timMod (fun t => { t with ref := (t.ref + 2 * n) % 25, up := t.up + n, run := t.run + n }) |>.mlinkMod fun y =>
      { y with timer := if m.rd SYS_DOMSTAT fSYS_DOMSTAT_LANT_STATE = 0 then y.timer else y.timer + 5 * n }

/-- The steps of its reference until base `k` has advanced by `d` units of 2^-32 ns, at its rate in force. -/
def Mach.tbUntil (m : Mach) (k d : Nat) : Nat :=
  let m1 := m.tbPair k
  let inc := max 1 (m1.tbInc k)
  let c := (m1.reg (TIM_TBk_SLEWCNT k)).toNat
  let fast := max 1 ((inc : Int) + m1.tbSlew k).toNat
  if d ≤ c * fast then (d + fast - 1) / fast else c + (d - c * fast + inc - 1) / inc

/-- Time passes until TB0 has reached an instant in ns since its epoch; nothing where it already has. -/
def Mach.reach (m : Mach) (ns : Nat) : Mach :=
  let now := (m.getBase 0).total
  if now < ns * 2 ^ 32 then m.elapse (m.tbUntil 0 (ns * 2 ^ 32 - now)) else m

/-- Time passes until TB5, which takes TB0's rate, has reached an instant in ns (R559). -/
def Mach.reachFine (m : Mach) (ns : Nat) : Mach :=
  let now := (m.getBase 5).total
  if now < ns * 2 ^ 32 then m.elapse (m.tbUntil 0 (ns * 2 ^ 32 - now)) else m

/-- Time passes until the main domain has run for a number of quarters of a ns. -/
def Mach.reachQuarter (m : Mach) (q : Nat) : Mach := m.elapse ((q + 9) / 10 - m.tim.run)

/-- The quarters of a ns for which the main domain has run. -/
def Mach.quarters (m : Mach) : Nat := 10 * m.tim.run

/-- Fine step `f` of beat `b`, as TB5 reckons it (R559). -/
def Mach.fineAt (m : Mach) (b f : Nat) : Nat := b * m.beatNs + f * m.beatNs / 256

/-- Time passes until TB4 has reached an instant in ns since its epoch, while the lantern's crystal runs. -/
def Mach.reachLantern (m : Mach) (ns : Nat) : Mach :=
  let now := (m.getBase 4).total
  if now < ns * 2 ^ 32 ∧ m.rd SYS_DOMSTAT fSYS_DOMSTAT_LANT_STATE ≠ 0 then
    m.elapse ((25 * m.tbUntil 4 (ns * 2 ^ 32 - now) + 1 - m.tim.ref) / 2)
  else m

/-! ### Loads, steps, slews (R552 to R555) -/

/-- Whether base `k`'s radio is in mode ON (R223, R554). -/
def Mach.tsfOn (m : Mach) (k : Nat) : Bool := decide (1 ≤ k ∧ k ≤ 3) && m.rd (RFx_CTL (k - 1)) fRFx_CTL_MODE == 2

/-- Report a refusal in the block of a register: INFO is the number of the unit or port concerned (R763). Where the refusing rule
names none, the model takes the base of a time base's register, the guy port, the key slot, or 0 (DESIGN CHOICE, log 64). -/
def Mach.refused (m : Mach) (a n : Nat) : Mach := m.report (a / 0x10000) kRefused n

/-- Whether a load of a base is refused (R553 to R555). -/
def Mach.tbLoadBad (m : Mach) (k : Nat) : Bool :=
  (k == 0 && m.bit ARM_PLINTH fARM_PLINTH_RUN) || m.tsfOn k || (k == 4 && m.bit MSH_LCTL fMSH_LCTL_RUN)

/-- TIM_TBk_CTL.LOAD (R552); TB0 then takes its time from software (R726). TB5 takes no writes (R570). -/
def Mach.tbLoad (m : Mach) (k : Nat) : Mach :=
  if 5 ≤ k then m
  else if m.tbLoadBad k then m.refused (TIM_TBk_CTL k) k
  else ((m.wr (TIM_TBk_CTL k) fTIM_TBk_CTL_LOAD 1).setBase k { m.getBase k with load := true }).when (k == 0) fun x =>
    x.wr SYS_BOOTSTAT fSYS_BOOTSTAT_TSRC 3

/-- Whether a step of a base is refused (R553 to R555). -/
def Mach.tbStepBad (m : Mach) (k : Nat) (v : Int) : Bool :=
  (k == 0 && m.bit ARM_PLINTH fARM_PLINTH_RUN && decide (min 2000 (m.rd TIM_CTL fTIM_CTL_MAXSTEP_NS) < v.natAbs)) ||
    (m.tsfOn k && decide (v < 0)) ||
    (k == 4 && m.bit MSH_LCTL fMSH_LCTL_RUN && decide (m.rd MSH_GUARD fMSH_GUARD_GMIN_US * 1000 < 2 * v.natAbs))

/-- A write of TIM_TBk_STEP (R552 to R555): forward steps of a TSF base wait for the beat start. -/
def Mach.tbStep (m : Mach) (k : Nat) (v : W32) : Mach :=
  if 5 ≤ k then m
  else if m.tbStepBad k v.toInt then m.refused (TIM_TBk_STEP k) k
  else
    let b := m.getBase k
    (m.setReg (TIM_TBk_STEP k) v).setBase k
      (if 1 ≤ k ∧ k ≤ 3 ∧ 0 < v.toInt then { b with fwd := b.fwd + v.toNat } else { b with step := b.step + v.toInt })

/-- A write of TIM_TBk_SLEWCNT (R552): the sum of increment and slew must satisfy R550. -/
def Mach.tbSlewStart (m : Mach) (k : Nat) (v : W32) : Mach :=
  if 5 ≤ k then m
  else if tbRateOk k (m.tbInc k + m.tbSlew k) then m.setReg (TIM_TBk_SLEWCNT k) v
  else m.ignored (TIM_TBk_SLEWCNT k)

/-- The rest of a slew passes (R552). -/
def Mach.tbSlewEnd (m : Mach) (k : Nat) : Mach :=
  let c := (m.reg (TIM_TBk_SLEWCNT k)).toNat
  if k = 4 then m.elapse ((25 * c + 1) / 2) else m.elapse c

/-- A write of TIM_TBk_INC_NS is held (R552). -/
def Mach.tbIncNs (m : Mach) (k : Nat) (v : W32) : Mach :=
  if 5 ≤ k then m else m.setBase k { m.getBase k with incNs := some (v.toNat % 256) }

/-- A write of TIM_TBk_INC_FRAC applies the pair at the base's next step, or is ignored whole (R550, R552). -/
def Mach.tbIncSet (m : Mach) (k : Nat) (v : W32) : Mach :=
  if 5 ≤ k then m
  else
    let b := m.getBase k
    let ns := b.incNs.getD ((m.reg (TIM_TBk_INC_NS k)).toNat % 256)
    let m1 := m.setBase k { b with incNs := none }
    if tbRateOk k (ns * 2 ^ 32 + v.toNat : Nat) then m1.setBase k { b with incNs := none, incPair := some (ns, v.toNat) }
    else m1.ignored (TIM_TBk_INC_FRAC k)

/-- The forward steps of the TSF bases take effect (R554). -/
def Mach.tbForward (m : Mach) : Mach :=
  m.forEach [1, 2, 3] fun x k =>
    let b := x.getBase k
    if b.fwd = 0 then x else x.setBase k { b.at_ ((b.total : Int) + (b.fwd * 2 ^ 32 : Nat)) with fwd := 0 }

/-- TB5 is set to an instant in ns, FRAC 0 (R559). -/
def Mach.tb5Align (m : Mach) (ns : Nat) : Mach := m.setBase 5 ((m.getBase 5).at_ (ns * 2 ^ 32 : Nat))

/-- A read of TIM_TBk_NS latches the other three (R570). -/
def Mach.tbRead (m : Mach) (k : Nat) : Mach :=
  let b := m.getBase k
  (m.setBase k { b with latS := b.s, latFrac := b.frac }).setAnswer (BitVec.ofNat 32 b.ns)

/-- The TSF of radio `x` in µs (R561). -/
def Mach.tsf (m : Mach) (x : Nat) : Nat := (m.getBase (x + 1)).nsTotal / 1000 % 2 ^ 64

/-- TB5 in ns since its epoch. -/
def Mach.tb5 (m : Mach) : Nat := (m.getBase 5).nsTotal

/-! ### Capture and PPS (R564, R565) -/

/-- Latch all six bases; TB4 only while the lantern is powered (R564). -/
def Mach.capture (m : Mach) : Mach :=
  let on := m.rd SYS_DOMSTAT fSYS_DOMSTAT_LANT_STATE != 0
  let m1 := m.forEach (if on then [0, 1, 2, 3, 4, 5] else [0, 1, 2, 3, 5]) fun x k =>
    let b := m.getBase k
    (((x.setReg (TIM_CAPk_NS k) (BitVec.ofNat 32 b.ns)).setReg (TIM_CAPk_S_LO k) (b.s.setWidth 32)).setReg (TIM_CAPk_S_HI k)
      (b.s.extractLsb' 32 32)).setReg (TIM_CAPk_FRAC k) b.frac
  m1.wr TIM_CAPCTL fTIM_CAPCTL_VALID (if on then 0x3F else 0x2F)

/-- A rising edge on TSCAP (R564). -/
def Mach.capturePin (m : Mach) : Mach := if m.bit TIM_CAPCTL fTIM_CAPCTL_PIN_EN then m.capture else m

/-- Time passes until TB0's NS has crossed 0, within the step of the crossing (R565). -/
def Mach.reachSecond (m : Mach) : Mach :=
  let now := (m.getBase 0).nsTotal
  if now % 1000000000 < 3 then m else m.reach ((now / 1000000000 + 1) * 1000000000)

/-- TB0's NS crosses 0 (R565). -/
def Mach.ppsStart (m : Mach) : Mach := if m.bit TIM_PPSCTL fTIM_PPSCTL_EN then m.timMod fun t => { t with pps := true } else m

/-- The width of the pulse in ms: 0 acts as 1, above 999 as 999 (R571). -/
def Mach.ppsWidth (m : Mach) : Nat := max 1 (min 999 (m.rd TIM_PPSCTL fTIM_PPSCTL_WIDTH_MS))

/-- WIDTH_MS has passed (R565). -/
def Mach.ppsEnd (m : Mach) : Mach := m.timMod fun t => { t with pps := false }

/-! ### Time over the guy lines (R566 to R569) -/

/-- A guy port's exchange. -/
def Mach.guyTime (m : Mach) (p : Nat) : GuyTime := tabGet GuyTime.zero m.tim.guy p

/-- Change a guy port's exchange. -/
def Mach.setGuyTime (m : Mach) (p : Nat) (g : GuyTime) : Mach :=
  m.timMod fun t => { t with guy := tabSet GuyTime.zero t.guy p g }

/-- TB0 in sixteenths of a ns. -/
def Mach.stamp (m : Mach) : Nat := (m.getBase 0).sixteenths

/-- A schedule frame starts: a port with EN sends TIME_REQ, stamped t1; an open exchange is missed, which
ends a run of frames inside ±100 ns (R566 to R569). -/
def Mach.guyFrame (m : Mach) : Mach :=
  m.forEach [0, 1] fun x p =>
    let g := x.guyTime p
    if x.bit (TIM_GUYp_CTL p) fTIM_GUYp_CTL_EN then
      (x.setGuyTime p { g with
        t1 := some x.stamp, t1old := g.t1, missed := if g.t1.isSome then g.missed + 1 else g.missed,
        inside := if g.t1.isSome then 0 else g.inside }).guySend p ⟨2, false, false, 0, []⟩
    else x.setGuyTime p { g with t1 := none, t1old := none }

/-- A TIME_REQ arrives: t2 is stamped, and an answer is owed while EN is 1 (R566, R628). -/
def Mach.timeReq (m : Mach) (p : Nat) : Mach :=
  if m.bit (TIM_GUYp_CTL p) fTIM_GUYp_CTL_EN then m.setGuyTime p { m.guyTime p with t2 := some m.stamp } else m

/-- A time stamp in sixteenths of a ns as a word of TIME_RSP (R624). -/
def stampWord (t : Nat) : Code :=
  encodeCode (BitVec.ofNat 64 (t / 16 / 1000000000) ++ BitVec.ofNat 32 (t / 16 % 1000000000) ++ BitVec.ofNat 4 t ++ 0#28)

/-- The answer to a TIME_REQ leaves 800 ns after t2, with t2 and that instant as t3 (R628). -/
def Mach.timeRspSend (m : Mach) (p : Nat) : Mach :=
  match (m.guyTime p).t2 with
  | some t =>
    ((m.reach (t / 16 + 800)).setGuyTime p { m.guyTime p with t2 := none }).guySend p
      ⟨3, false, false, 0, [stampWord t, stampWord (t + 12800)]⟩
  | none => m

/-- The integer nearest to a quotient, halves away from zero (R567). -/
def roundDiv (a : Int) (d : Nat) : Int := if 0 ≤ a then (2 * a + d) / (2 * d) else -((2 * -a + d) / (2 * d))

/-- A value held in a range. -/
def clampInt (lo hi x : Int) : Int := max lo (min hi x)

/-- FOLLOW's correction of TB0, each result clamped so that R550 holds (R567). -/
def Mach.guyFollow (m : Mach) (p : Nat) (offset : Int) : Mach :=
  if 50000 * 16 < offset.natAbs then
    ((m.setGuyTime p { m.guyTime p with inside := 0 }).wr (TIM_GUYp_STAT p) fTIM_GUYp_STAT_FAR 1).event 0x1201 0 [(1, p)]
  else
    let n := 204800 * 2 ^ m.rd ARM_PLINTH fARM_PLINTH_PERIOD
    let nom : Int := tbNominal 0
    let tol : Int := tbTolerance 0
    let inc := clampInt (nom - tol) (nom + tol) (m.tbInc 0 + roundDiv (offset * 2 ^ 32) (16 * 8 * n))
    let slew := clampInt (nom - tol - inc) (nom + tol - inc) (roundDiv (offset * 2 ^ 32) (16 * n))
    let g := m.guyTime p
    let k := if offset.natAbs ≤ 1600 then g.inside + 1 else 0
    (((((m.setGuyTime p { g with inside := min 16 k }).wr (TIM_GUYp_STAT p) fTIM_GUYp_STAT_FAR 0).when (16 ≤ k)
      fun x => x.wr (TIM_GUYp_STAT p) fTIM_GUYp_STAT_LOCKED 1).setBase 0
        { m.getBase 0 with incPair := some (inc.toNat / 2 ^ 32, inc.toNat % 2 ^ 32) }).setReg (TIM_TBk_SLEW 0)
          (BitVec.ofInt 32 slew)).setReg (TIM_TBk_SLEWCNT 0) (BitVec.ofNat 32 n)

/-- A TIME_RSP arrives with t2 and t3 in sixteenths of a ns (R566 to R569); `late` when the frame boundary won against it. -/
def Mach.timeRsp (m : Mach) (p t2 t3 : Nat) (late : Bool) : Mach :=
  let g := m.guyTime p
  match (if late then g.t1old else g.t1) with
  | none => m
  | some t1 =>
    let t4 := m.stamp
    let asym := (m.reg (TIM_GUYp_ASYM p)).toInt
    let d1 := (t2 : Int) - t1
    let d2 := (t4 : Int) - t3
    let offset := Int.tdiv (d1 - d2) 2 - asym
    let delay := Int.tdiv (d1 + d2) 2
    let g1 := if late then { g with t1old := none } else { g with t1 := none, t1old := none, missed := 0 }
    let m1 := ((((((m.setGuyTime p g1).setReg (TIM_GUYp_OFFSET p) (BitVec.ofInt 32 offset)).setReg (TIM_GUYp_DELAY p)
      (BitVec.ofInt 32 delay)).count (TIM_GUYp_STAT p) fTIM_GUYp_STAT_EXCH).wr (TIM_GUYp_STAT p) fTIM_GUYp_STAT_LATE
        (if late then 1 else 0)).wr (TIM_GUYp_STAT p) fTIM_GUYp_STAT_LOST 0)
    if m.bit (TIM_GUYp_CTL p) fTIM_GUYp_CTL_FOLLOW then m1.guyFollow p offset else m1

/-- Four frames without a completed exchange (R568). -/
def Mach.guyTimeLoss (m : Mach) (p : Nat) : Mach :=
  if 4 ≤ (m.guyTime p).missed && !m.bit (TIM_GUYp_STAT p) fTIM_GUYp_STAT_LOST then
    (m.wr (TIM_GUYp_STAT p) fTIM_GUYp_STAT_LOST 1).event 0x1202 0 [(1, p)]
  else m

/-- A write of TIM_GUYp_CTL (R567): FOLLOW is refused on both ports at once and under HOST_SERVO. -/
def Mach.guyCtl (m : Mach) (p : Nat) (v : W32) : Mach :=
  let m1 := m.wr (TIM_GUYp_CTL p) fTIM_GUYp_CTL_EN (getFld v fTIM_GUYp_CTL_EN)
  if getFld v fTIM_GUYp_CTL_FOLLOW = 0 then
    ((m1.wr (TIM_GUYp_CTL p) fTIM_GUYp_CTL_FOLLOW 0).wr (TIM_GUYp_STAT p) fTIM_GUYp_STAT_LOCKED 0).setGuyTime p
      { m.guyTime p with inside := 0 }
  else if m.bit (TIM_GUYp_CTL (1 - p)) fTIM_GUYp_CTL_FOLLOW || m.bit TIM_CTL fTIM_CTL_HOST_SERVO then m1.refused (TIM_GUYp_CTL p) p
  else m1.wr (TIM_GUYp_CTL p) fTIM_GUYp_CTL_FOLLOW 1

/-- A write of TIM_CTL (R567): HOST_SERVO is refused while FOLLOW is set. -/
def Mach.timCtl (m : Mach) (v : W32) : Mach :=
  let m1 := m.wr TIM_CTL fTIM_CTL_MAXSTEP_NS (getFld v fTIM_CTL_MAXSTEP_NS)
  if getFld v fTIM_CTL_HOST_SERVO = 1 ∧
      (m.bit (TIM_GUYp_CTL 0) fTIM_GUYp_CTL_FOLLOW || m.bit (TIM_GUYp_CTL 1) fTIM_GUYp_CTL_FOLLOW) then m1.refused TIM_CTL 0
  else m1.wr TIM_CTL fTIM_CTL_HOST_SERVO (getFld v fTIM_CTL_HOST_SERVO)

end Sys2Proof.Machine
end

