-- ==== Sys2Proof/Machine/RegBase.lean ====
section
/-! DEFINITION. Register access as R11 to R13 and R651 give it, without the rules of single registers; the registers of the
lantern's block MSH with theirs (R417, R418, R451, R452, R570). -/

namespace Sys2Proof.Machine

/-- A bit vector of 32 bits from a mask. -/
def maskOf (n : Nat) : W32 := BitVec.ofNat 32 n

/-- `old` with the bits of a mask taken from `v`. -/
def mergeMask (old v : W32) (mask : Nat) : W32 := (old &&& ~~~maskOf mask) ||| (v &&& maskOf mask)

/-- Whether the locked settings are locked (R12, R547). -/
def Mach.locked (m : Mach) : Bool := m.bit NVM_STAT fNVM_STAT_LOCKED

/-- Whether the blocks are staged, and whether staged values act at once, as they do until the first armature runs (R651). -/
def Mach.staged (m : Mach) : Bool := m.bit CHN_CFGSTAT fCHN_CFGSTAT_STAGING
def Mach.stagedLive (m : Mach) : Bool := m.staged && !m.arm.ran

/-- A write of the bits that a register's row lets software write (R11, R12, R651): RW bits always; RWL bits until the lock;
RWS bits while staged, to the staged copy, which acts at once before the first armature; W1C and W1S bits as they say. A
write that would change a locked field, or an RWS field outside staging, is reported once, and the other fields take it. -/
def Mach.plainWrite (m : Mach) (a : Nat) (v : W32) : Mach :=
  match regRow a with
  | none => m
  | some r =>
    let old := m.reg a
    let lockHit := m.locked && ((old ^^^ v) &&& maskOf r.rwl) != 0
    let stageHit := !m.staged && ((old ^^^ v) &&& maskOf r.rws) != 0
    let v1 := mergeMask old v r.rw
    let v2 := if m.locked then v1 else mergeMask v1 v r.rwl
    let v3 := if m.stagedLive then mergeMask v2 v r.rws else v2
    let v4 := (v3 &&& ~~~(v &&& maskOf r.w1c)) ||| (v &&& maskOf r.w1s)
    let m1 := m.setReg a v4
    let m2 := if m.staged && !m.stagedLive && r.rws != 0 then
      m1.stageMod fun t => tabSet 0 t a ((old ^^^ v) &&& maskOf r.rws) else m1
    m2.when (lockHit || stageHit) fun x => x.report (a / 0x10000) kLocked (a % 0x10000)

/-- What a register with no rule of its own reads as: the staged copy reads back; WO bits read 0 (R11, R651). -/
def Mach.plainRead (m : Mach) (a : Nat) : W32 :=
  match regRow a with
  | none => 0
  | some r => (m.reg a ^^^ tabGet 0 m.stage a) &&& ~~~maskOf r.wo

/-! ### Time bases (R552 to R557, R570) -/

/-- The registers of base `k` by their offset in its bank (R570). -/
def Mach.tbWrite (m : Mach) (k off : Nat) (v : W32) : Mach :=
  match off with
  | 0x10 => m.tbIncNs k v
  | 0x14 => m.tbIncSet k v
  | 0x24 => m.tbStep k v
  | 0x2C => m.tbSlewStart k v
  | 0x30 =>
    let m1 := if 1 ≤ k ∧ k ≤ 3 then m.wr (TIM_TBk_CTL k) fTIM_TBk_CTL_LINK (getFld v fTIM_TBk_CTL_LINK) else m
    if getFld v fTIM_TBk_CTL_LOAD = 1 then m1.tbLoad k else m1
  | _ => if 5 ≤ k then m else m.plainWrite (tbBase k + off) v

/-- The latched words of a base (R570); the rest as stored, TB0's for TB5. -/
def Mach.tbView (m : Mach) (k off : Nat) : W32 :=
  let b := m.getBase k
  match off with
  | 0x00 => BitVec.ofNat 32 b.ns
  | 0x04 => b.latS.setWidth 32
  | 0x08 => b.latS.extractLsb' 32 32
  | 0x0C => b.latFrac
  | _ => m.plainRead (tbBase (if k = 5 then 0 else k) + off)

/-! ### Block MSH -/

/-- MSH_NBR0 to MSH_NBR2 show the entry that MSH_NBRSEL selects (R452). -/
def Mach.nbrView (m : Mach) (w : Nat) : W32 :=
  let n := tabGet Nbr.zero m.mlink.nbrs (m.rd MSH_NBRSEL fMSH_NBRSEL_ENTRY)
  match w with
  | 0 => BitVec.ofNat 32 (n.addr * 2 ^ 16 + n.state * 2 ^ 12 + min 15 n.misses * 2 ^ 8 + min 255 n.resyncs)
  | 1 => BitVec.ofNat 32 (wrapInt 16 n.d * 2 ^ 16 + min 0xFFFF n.r)
  | _ => BitVec.ofNat 32 n.hi

/-- A register of block MSH as it reads. -/
def Mach.mshView (m : Mach) (off : Nat) : W32 :=
  if 0x200 ≤ off ∧ off < 0x234 then m.tbView 4 (off - 0x200)
  else if off = 0x124 then m.nbrView 0
  else if off = 0x128 then m.nbrView 1
  else if off = 0x12C then m.nbrView 2
  else m.plainRead (0x10000 * blkMSH + off)

/-- Whether some PHY profile lets the mesh radio use a channel (R373; which profile counts is DEDUCED, log 22). -/
def Mach.mchanOk (m : Mach) (chan : Nat) : Bool :=
  [0, 1, 2, 3].any fun k => bandOk chan (phyWidth (m.reg (MSH_MPHYk k)))

/-- The RWL settings of the mesh radio that the lantern keeps a copy of (R405). -/
def meshLockedRegs : List Nat := [MSH_MTXCFG, MSH_MFIR0, MSH_MFIR1, MSH_MFIR2, MSH_MFIR3]

/-- The lantern refreshes its copy of the RWL settings at each write before the lock (R405). -/
def Mach.copyRefresh (m : Mach) : Mach :=
  let t := meshLockedRegs.foldl (fun t a => tabSet (regReset a) t a (m.reg a)) m.mrad.copyRegs
  if m.locked then m else m.mradMod fun r => { r with copyRegs := t }

/-- A write of a register of block MSH. -/
def Mach.mshWrite (m : Mach) (off : Nat) (v : W32) : Mach :=
  if 0x200 ≤ off ∧ off < 0x234 then m.tbWrite 4 (off - 0x200) v
  else if off = 0x00 then
    let x := m.plainWrite MSH_MCTL v
    x.mradRelax
  else if off = 0x1C then if m.mchanOk (getFld v fMSH_MCHAN_N) then (m.plainWrite MSH_MCHAN v).mradRetune else m.ignored MSH_MCHAN
  else if 0x24 ≤ off ∧ off ≤ 0x34 then (m.plainWrite (0x10000 * blkMSH + off) v).copyRefresh
  else if off = 0x50 then
    let x := (m.wr MSH_MRCAL fMSH_MRCAL_DT (getFld v fMSH_MRCAL_DT)).wr MSH_MRCAL fMSH_MRCAL_KIND (getFld v fMSH_MRCAL_KIND)
    if getFld v fMSH_MRCAL_GO = 1 then x.meshCal (getFld v fMSH_MRCAL_KIND) else x
  else if off = 0x70 then m.wakeWrite v
  else m.plainWrite (0x10000 * blkMSH + off) v

/-- Whether a register takes a write of software at all. -/
def RegRow.writable (r : RegRow) : Bool := r.rw != 0 || r.rwl != 0 || r.rws != 0 || r.w1c != 0 || r.w1s != 0 || r.wo != 0

end Sys2Proof.Machine
end

