-- ==== Sys2Proof/Machine/MemOps.lean ====
section
/-! DEFINITION. Block MEM (R508 to R526): the bank queues, refresh, training, calibration windows and the scrubber. -/

namespace Sys2Proof.Machine

/-! ### Banks and requests (R511 to R513) -/

/-- A bank of a channel. -/
def Mach.dbank (m : Mach) (c b : Nat) : DBank := tabGet DBank.zero m.mem.banks (16 * c + b)

/-- Change a bank. -/
def Mach.dbankMod (m : Mach) (c b : Nat) (f : DBank → DBank) : Mach :=
  m.memMod fun x => { x with banks := tabMod DBank.zero x.banks (16 * c + b) f }

/-- The channel of a physical address (R511). -/
def dramChan (p : Nat) : Nat := p / 1024 % 4

/-- The channel address of a physical address (R511). -/
def dramCh (p : Nat) : Nat := p / 4096 * 1024 + p % 1024

/-- Bits of a channel address that the installed size gives; at 12 GiB no whole number, and MAP 1 is refused (R511). -/
def dramBits (gib : Nat) : Nat := if gib = 4 then 30 else if gib = 8 then 31 else 32

/-- The bank and the row of a channel address under an address map (R511). -/
def dramBankRow (map gib a : Nat) : Nat × Nat :=
  match map with
  | 0 => (a / 2 ^ 11 % 16, a / 2 ^ 15)
  | 1 => let t := dramBits gib; (a / 2 ^ (t - 4) % 16, a % 2 ^ (t - 4) / 2 ^ 11)
  | _ => (Nat.xor (a / 2 ^ 11 % 16) (a / 2 ^ 15 % 16), a / 2 ^ 15)

/-- The channel, bank and row of a device DRAM address. -/
def Mach.dramPlace (m : Mach) (a : Nat) : Nat × Nat × Nat :=
  let p := dramPhys a
  let r := dramBankRow m.mem.map (m.rd MEM_CFG fMEM_CFG_SIZE_GIB) (dramCh p)
  (dramChan p, r.1, r.2)

/-- A request's length in words. -/
def DramReq.words' (r : DramReq) : Nat := if r.write then r.words.length else r.len

/-- A request enters a bank's queue, behind all that have arrived at the controller (R513). -/
def Mach.bankEnter (m : Mach) (c b : Nat) (r : DramReq) : Mach :=
  (m.dbankMod c b fun x => { x with queue := x.queue ++ [{ r with seq := m.mem.arrivals }] }).memMod fun x =>
    { x with arrivals := x.arrivals + 1 }

/-- A request reaches its bank's queue of 16; its sender is held while that is full (R22, R512). A request beyond the usable
capacity reaches no bank (R510). -/
def Mach.dramRequest (m : Mach) (r : DramReq) : Mach :=
  if m.dramTop < r.addr + 16 * r.words' then m
  else
    let p := m.dramPlace r.addr
    let b := m.dbank p.1 p.2.1
    let m1 := if b.queue.length < 16 then m.bankEnter p.1 p.2.1 r
      else m.dbankMod p.1 p.2.1 fun x => { x with held := x.held ++ [r] }
    let f : Fld := ⟨8 * p.1 + 4, 8 * p.1⟩
    m1.wr MEM_QSTAT f (max (m1.rd MEM_QSTAT f) (m1.dbank p.1 p.2.1).queue.length)

/-- Perform a request: words are stored as they came, or read under the code, a TE seeing what was read (R507, R512). -/
def Mach.dramServe (m : Mach) (r : DramReq) : Mach :=
  if r.write then m.dramWrites r.addr r.words
  else
    let x := m.dramReads r.addr r.len
    x.1.memMod fun y => { y with lastRead := x.2.map fun w => w.code }

/-- Whether the controller serves in ROTATE order (R513). -/
def Mach.rotates (m : Mach) : Bool := m.actValid && !m.inHold && !m.arm.fbLoad

/-- Take the oldest request of a bank, the first held sender coming in behind it. -/
def Mach.bankTake (m : Mach) (c b : Nat) (i : Nat) : Mach × Option DramReq :=
  let x := m.dbank c b
  match x.queue.drop i with
  | r :: rest =>
    let m1 := m.dbankMod c b fun y =>
      { y with queue := x.queue.take i ++ rest, held := y.held.drop 1, row := some (m.dramPlace r.addr).2.2 }
    (match x.held with | h :: _ => m1.bankEnter c b h | [] => m1, some r)
  | [] => (m, none)

/-- The next bank of a channel in rotation that has a request and is not blocked by forced refresh (R513, R518). -/
def Mach.rotNext (m : Mach) (c : Nat) : Option Nat :=
  ((List.range 16).map fun k => (tabGet 0 m.mem.ptr c + k) % 16).find? fun b =>
    (m.dbank c b).queue != [] && !(m.dbank c b).forced

/-- The requests that wait at a channel's banks, those blocked by forced refresh apart: bank, place in its queue, request. -/
def Mach.chanReqs (m : Mach) (c : Nat) : List (Nat × Nat × DramReq) :=
  ((List.range 16).map fun b => if (m.dbank c b).forced then [] else (m.dbank c b).queue.zipIdx.map fun e => (b, e.2, e.1)).flatten

/-- The oldest of a list of waiting requests. -/
def oldestReq (l : List (Nat × Nat × DramReq)) : Option (Nat × Nat × DramReq) :=
  l.find? fun e => l.all fun f => decide (e.2.2.seq ≤ f.2.2.seq)

/-- The oldest request of a channel that hits an open row, and otherwise the oldest: bank and place in its queue (R513). -/
def Mach.hitNext (m : Mach) (c : Nat) : Option (Nat × Nat) :=
  let l := m.chanReqs c
  let hits := l.filter fun e => (m.dbank c e.1).row == some (m.dramPlace e.2.2.addr).2.2
  (oldestReq (if hits.isEmpty then l else hits)).map fun e => (e.1, e.2.1)

/-- One channel serves one request. -/
def Mach.chanServe (m : Mach) (c : Nat) : Mach :=
  if m.rotates then
    match m.rotNext c with
    | some b =>
      let r := m.bankTake c b 0
      let m1 := r.1.memMod fun x => { x with ptr := tabSet 0 x.ptr c ((b + 1) % 16) }
      match r.2 with | some q => m1.dramServe q | none => m1
    | none => m
  else
    match m.hitNext c with
    | some (b, i) =>
      let r := m.bankTake c b i
      match r.2 with | some q => r.1.dramServe q | none => r.1
    | none => m

/-- Every channel serves one request. -/
def Mach.memServe (m : Mach) : Mach := m.forEach [0, 1, 2, 3] fun x c => x.chanServe c

/-! ### Refresh (R515 to R520) -/

/-- The highest debt seen. -/
def Mach.debtSeen (m : Mach) (d : Nat) : Mach :=
  m.wr MEM_REFSTAT fMEM_REFSTAT_MAXDEBT (max (m.rd MEM_REFSTAT fMEM_REFSTAT_MAXDEBT) (min 255 d))

/-- Forced refresh begins where the debt exceeds 8 (R518). -/
def Mach.forceCheck (m : Mach) (c b : Nat) : Mach :=
  if 8 < (m.dbank c b).debt ∧ !(m.dbank c b).forced then
    (m.dbankMod c b fun x => { x with forced := true, freeAt := m.quarters }).count MEM_REFSTAT fMEM_REFSTAT_FORCED
  else m

/-- The multiplier field of a channel in MEM_TEMP. -/
def memMult (c : Nat) : Fld := ⟨8 * c + 7, 8 * c + 6⟩

/-- How many times the 1× rate a MULT value refreshes (R519). -/
def multRate (k : Nat) : Nat := if k = 0 then 1 else if k = 1 then 2 else 4

/-- The refresh interval at a rate, in quarters of a ns: TREFI_NS at 1×, half of it at 2×, a quarter at 4× (R515, R519). -/
def Mach.refInterval (m : Mach) (rate : Nat) : Nat := 4 / rate * m.rd MEM_REFCTL fMEM_REFCTL_TREFI_NS

/-- A refresh interval of a bank elapses, and the next begins (R515). -/
def Mach.refreshOwed (m : Mach) (c b : Nat) : Mach :=
  let t := (m.dbank c b).since + m.refInterval (multRate (m.rd MEM_TEMP (memMult c)))
  let d := (m.dbank c b).debt + 1
  (((m.reachQuarter t).dbankMod c b fun x => { x with debt := d, since := t }).debtSeen d).forceCheck c b

/-- Whether a MEMWIN window of a kind is open on a channel at an instant of TB5 in the beat under way (R58, R559). -/
def Mach.winOpen (m : Mach) (kind c t : Nat) : Bool :=
  m.actValid && m.act.memwin.any fun w => w.kind == kind && w.beat == m.bidx && w.mask.testBit c &&
    decide (m.fineAt m.beat w.start ≤ t ∧ t < m.fineAt m.beat (w.start + w.len))

/-- Time passes until the next refresh of a bank may have completed: TRFCPB_NS after its issue, which comes TPBR_NS after the channel's
last one at the earliest and, in forced refresh, right after the bank's last one (R516, R518). -/
def Mach.refreshWait (m : Mach) (c b : Nat) : Mach :=
  m.reachQuarter (max (tabGet 0 m.mem.issued c + 4 * m.rd MEM_REFCTL fMEM_REFCTL_TPBR_NS) (m.dbank c b).freeAt +
    4 * m.rd MEM_REFCTL fMEM_REFCTL_TRFCPB_NS)

/-- A per-bank refresh completes (R516, R518): it was forced, or owed and issued inside a refresh window; no other is ever issued.
Forced refresh ends at a debt of 4. -/
def Mach.refreshDone (m : Mach) (c b : Nat) : Mach :=
  let y := m.refreshWait c b
  let k := m.rd MEM_REFCTL fMEM_REFCTL_TRFCPB_NS
  let x := m.dbank c b
  if x.debt ≠ 0 ∧ (x.forced ∨ y.winOpen 0 c (y.tb5 - k)) then
    (y.dbankMod c b fun x =>
      { x with debt := x.debt - 1, forced := x.forced && decide (4 < x.debt - 1), row := none, freeAt := y.quarters }).memMod fun z =>
        { z with issued := tabSet 0 z.issued c (y.quarters - 4 * k) }
  else m

/-- The debt in the new interval, rounded up, where `e` of the old interval `i` has elapsed (R517). -/
def debtRecount (debt e i old new : Nat) : Nat := ((debt * i + min e i) * new + old * i - 1) / (old * i)

/-- Recompute the debts of a channel's banks; their intervals begin anew (R517). -/
def Mach.recount (m : Mach) (c old new : Nat) : Mach :=
  m.forEach (List.range 16) fun x b =>
    let k := x.dbank c b
    let d := debtRecount k.debt (x.quarters - k.since) (x.refInterval old) old new
    ((x.dbankMod c b fun y => { y with debt := d, since := x.quarters }).debtSeen d).forceCheck c b

/-- Time passes until a channel's MR4 is due, 16 ms after its last reading; its DQS oscillator count is read with it (R515, R523). -/
def Mach.mr4Due (m : Mach) (c osc : Nat) : Mach :=
  let y := match tabGet none m.mem.mr4At c with
    | some t => m.reachQuarter (t + 64000000)
    | none => m
  y.memMod fun x => { x with mr4At := tabSet none x.mr4At c (some y.quarters), osc := tabSet 0 x.osc c osc }

/-- MR4 of a channel is read, with its measured drift in ps (R515, R517, R519, R523). -/
def Mach.mr4Read (m0 : Mach) (c : Nat) (rr : BitVec 5) (osc drift : Nat) : Mach :=
  let m := m0.mr4Due c osc
  let k := min 2 (Config.mr4Mult rr)
  let old := m.rd MEM_TEMP (memMult c)
  let m1 := (m.wr MEM_TEMP (memMult c) k).wr MEM_TEMP ⟨8 * c + 4, 8 * c⟩ rr.toNat
  let m2 := if k = old then m1 else m1.recount c (multRate old) (multRate k)
  let m3 := if k = 2 then (m2.count MEM_REFSTAT fMEM_REFSTAT_OVERTEMP).event 0x1001 c [(1, c)] else m2
  if m.rd MEM_RTCTL fMEM_RTCTL_THRESH_PS < drift then
    let n := tabGet 0 m3.mem.drift c + 1
    (m3.memMod fun x => { x with drift := tabSet 0 x.drift c n }).when (n == 2) fun x => x.event 0x1002 c [(1, c)]
  else m3.memMod fun x => { x with drift := tabSet 0 x.drift c 0 }

/-! ### Windows and training (R509, R511, R516, R522, R523) -/

/-- A MEMWIN window opens at its fine step on TB5: refresh and scrub work is allowed inside it, and a retraining window adjusts each channel
of its mask from the count last read (R516, R523, R524, R559). -/
def Mach.memWindow (m : Mach) (i : Nat) : Mach :=
  match m.act.memwin[i]? with
  | some w =>
    if m.actValid ∧ w.beat = m.bidx then
      let y := m.reachFine (m.fineAt m.beat w.start)
      if w.kind = 3 then
        y.forEach ((List.range 4).filter fun c => w.mask.testBit c) fun x c =>
          (x.count MEM_RTCTL fMEM_RTCTL_RETRAINS).memMod fun z => { z with
            drift := tabSet 0 z.drift c 0, trim := tabSet 0 z.trim c (tabGet 0 z.osc c) }
      else y
    else m
  | none => m

/-- The rate in force in a profile (R508): 6400 in HOT and TWIN and for LPDDR5. -/
def Mach.dramRate (m : Mach) (profile : Nat) : Nat :=
  if 2 ≤ profile ∨ m.rd MEM_CFG fMEM_CFG_TYPE = 0 ∨ m.rd MEM_CFG fMEM_CFG_RATE = 3 then 0 else m.rd MEM_CFG fMEM_CFG_RATE

/-- A swap switches the frequency set point (R509). -/
def Mach.rateSwitch (m : Mach) (profile : Nat) : Mach := m.wr MEM_STAT fMEM_STAT_RATE_NOW (m.dramRate profile)

/-- MEM_CTL.TRAIN (R522, R544). -/
def Mach.memTrain (m : Mach) : Mach :=
  if m.actValid then m.ignored MEM_CTL
  else (((m.wr MEM_CTL fMEM_CTL_TRAIN 1).wr MEM_STAT fMEM_STAT_TRAINED 0).wr MEM_STAT fMEM_STAT_TRAIN_FAIL 0).wr MEM_STAT
    fMEM_STAT_FAILCH 0

/-- Whether the size and the map can be trained at all (R511, R544). -/
def Mach.trainable (m : Mach) : Bool :=
  let g := m.rd MEM_CFG fMEM_CFG_SIZE_GIB
  (g == 4 || g == 8 || g == 12 || g == 16) && !(g == 12 && m.rd MEM_CTL fMEM_CTL_MAP == 1)

/-- Training ends; `fail` marks the channels that failed (R522). The map in MEM_CTL takes effect (R544). -/
def Mach.trainDone (m : Mach) (fail : BitVec 4) : Mach :=
  if m.bit MEM_CTL fMEM_CTL_TRAIN then
    let m1 := (m.wr MEM_CTL fMEM_CTL_TRAIN 0).wr MEM_STAT fMEM_STAT_FAILCH fail.toNat
    if m.trainable ∧ fail = 0 then
      ((m1.wr MEM_STAT fMEM_STAT_TRAINED 1).rateSwitch (m.rd ARM_STAT fARM_STAT_ACT_PROFILE)).memMod
        fun x => { x with map := m.rd MEM_CTL fMEM_CTL_MAP }
    else m1.wr MEM_STAT fMEM_STAT_TRAIN_FAIL 1
  else m

/-! ### The scrubber (R524 to R526); a write-back that a write of the word meets is dropped -/

/-- Whether a scrub pass that began at a step takes longer than its hours or minutes, 0 acting as 1; `unit` is one of them in steps
(R524, R525, R544). -/
def Mach.passLate (m : Mach) (since n unit : Nat) : Bool := decide (since + max 1 n * unit < m.tim.run)

/-- Scrub one DRAM word, in a window of kind 1: a corrected word is written back, the others stay (R524). -/
def Mach.scrubDram (m : Mach) (met : Bool) : Mach :=
  let a := m.mem.scrubAt
  if !m.winOpen 1 (m.dramPlace a).1 m.tb5 then m
  else
    let r := m.dramRead a
    let m1 := match classify (dramWord m.mem.dram a) with
      | .corrected v => if met then r.1 else r.1.dramWrite a v
      | _ => r.1
    if m.dramTop ≤ a + 16 then
      ((m1.memMod fun x => { x with scrubAt := 0, scrubSince := m.tim.run }).count MEM_SCRSTAT fMEM_SCRSTAT_PASSES).when
        (m.passLate m.mem.scrubSince (m.rd MEM_SCRUB fMEM_SCRUB_DRAM_H) 1440000000000)
          fun x => x.count MEM_SCRSTAT fMEM_SCRSTAT_LATE
    else m1.memMod fun x => { x with scrubAt := a + 16 }

/-- Scrub one word of class SRAM (R525). -/
def Mach.scrubSram (m : Mach) (met : Bool) : Mach :=
  let a := m.mem.scrubSram
  let r := m.sramRead a
  let m1 := match classify (storeGet m.mem.sram (a / 16)) with
    | .corrected v => if met then r.1 else r.1.sramWrite a v
    | _ => r.1
  if 0x1C00000 ≤ a + 16 then
    (m1.memMod fun x => { x with scrubSram := 0, sramSince := m.tim.run }).when
      (m.passLate m.mem.sramSince (m.rd MEM_SCRUB fMEM_SCRUB_SRAM_MIN) 24000000000)
        fun x => x.count MEM_SCRSTAT fMEM_SCRSTAT_SRAM_LATE
  else m1.memMod fun x => { x with scrubSram := a + 16 }

/-- Scrub one code word of a TE's local memory, between its tasks only (R525). -/
def Mach.scrubLmem (m : Mach) (n i : Nat) (met : Bool) : Mach :=
  if (m.getTe n).st = .idle then
    let r := m.lmRead n (2 * i)
    let ix := lmIndex m.actBank (2 * i)
    match classify (storeGet (m.getTe n).lmem ix) with
    | .corrected v => if met then r.1 else r.1.teMod n fun t => { t with lmem := storeSet t.lmem ix v }
    | _ => r.1
  else m

/-- Scrub one stored word of a queue channel (R525). -/
def Mach.scrubQueue (m : Mach) (ch i : Nat) (met : Bool) : Mach :=
  let c := m.getChan ch
  match c.q[i]? with
  | some w =>
    (match classify w.code with
     | .corrected v => if met then m else m.setChan ch { c with q := c.q.set i { w with code := v } }
     | .uncorrectable => m.note portFQ 5 w.code (ch * 2 ^ 32 + i)
     | _ => m)
  | none => m

/-- The capacity shown in MEM_CAP (R510, R544). -/
def Mach.capView (m : Mach) : W32 := BitVec.ofNat 32 (m.rd MEM_CFG fMEM_CFG_SIZE_GIB * 896)

/-- MEM_CTL as it reads: ORDER shows the order in force (R513). -/
def Mach.memCtlView (m : Mach) : W32 :=
  putFld (m.plainRead MEM_CTL) fMEM_CTL_ORDER (if m.rotates then 0 else 1)

/-- A write of MEM_REFCTL: a TREFI_NS of 0 is ignored and reported (R544); outside staging R12 alone acts. -/
def Mach.refCtlWrite (m : Mach) (v : W32) : Mach :=
  if m.staged ∧ getFld v fMEM_REFCTL_TREFI_NS = 0 then
    (m.plainWrite MEM_REFCTL (putFld v fMEM_REFCTL_TREFI_NS (getFld (m.plainRead MEM_REFCTL) fMEM_REFCTL_TREFI_NS))).ignored MEM_REFCTL
  else m.plainWrite MEM_REFCTL v

end Sys2Proof.Machine
end

