-- ==== Sys2Proof/Machine/RfBase.lean ====
section
/-! DEFINITION. The Wi-Fi transceivers (R217 to R262): channels, identity, the regulatory record, transmit power and refusals. -/

namespace Sys2Proof.Machine

/-! ### Channels (R217, R240, R253, R254) -/

/-- The number of chains of a radio (R217). -/
def chainCount (x : Nat) : Nat := 4 * 2 ^ x

/-- The chains that a radio has, as a mask (R261). -/
def chainMask (x : Nat) : BitVec 16 := BitVec.ofNat 16 (2 ^ chainCount x - 1)

/-- The channels of a radio, lowest first (R240, R253). -/
def chanAll (x : Nat) : List Nat :=
  match x with
  | 0 => (List.range 14).map (· + 1)
  | 1 => (List.range 8).map (36 + 4 * ·) ++ (List.range 12).map (100 + 4 * ·) ++ (List.range 8).map (149 + 4 * ·)
  | _ => (List.range 59).map (4 * · + 1)

/-- The position of a channel in its radio's list. -/
def chanIdx (x c : Nat) : Option Nat := (List.range (chanAll x).length).find? fun k => (chanAll x).getD k 0 == c

/-- `2^w` channels of a run of `len` from `base` on that hold position `i`, counted from `base + skip`. -/
def chanGroup (base len skip w i : Nat) : Option (List Nat) :=
  if i < base + skip then none
  else
    let b := (i - base - skip) / 2 ^ w * 2 ^ w + skip
    if b + 2 ^ w ≤ len then some ((List.range (2 ^ w)).map (base + b + ·)) else none

/-- The 20 MHz subchannels, as channel numbers, of the wide channel that a value of RFx_CHAN names; none where R240 does not
accept it. -/
def chanSubs (x : Nat) (v : W32) : Option (List Nat) :=
  let p := getFld v fRFx_CHAN_PRIMARY
  let w := getFld v fRFx_CHAN_BW
  let alt := getFld v fRFx_CHAN_ALT
  match chanIdx x p with
  | none => none
  | some i =>
    let nums (l : Option (List Nat)) : Option (List Nat) := l.map fun ks => ks.map fun k => (chanAll x).getD k 0
    match x with
    | 0 => if w = 0 then some [p] else if w ≠ 1 then none
      else if alt = 1 then (if 5 ≤ p ∧ p ≤ 13 then some [p - 4, p] else none)
      else if p + 4 ≤ 13 then some [p, p + 4] else none
    | 1 => if 3 < w ∨ alt = 1 then none
      else nums (if i < 8 then chanGroup 0 8 0 w i else if i < 20 then chanGroup 8 12 0 w i else chanGroup 20 8 0 w i)
    | _ => if 4 < w then none else nums (chanGroup 0 59 (if w = 4 ∧ alt = 1 then 8 else 0) w i)

/-- The centre of a channel in MHz. -/
def chanMHz (x c : Nat) : Nat :=
  match x with
  | 0 => if c = 14 then 2484 else 2407 + 5 * c
  | 1 => 5000 + 5 * c
  | _ => 5950 + 5 * c

/-- The value of RFx_CHAN in force. -/
def Mach.radioChan (m : Mach) (x : Nat) : W32 := if (m.getRadio x).chan = 0 then regReset (RFx_CHAN x) else (m.getRadio x).chan

/-- The subchannels in force, lowest first. -/
def Mach.radioSubs (m : Mach) (x : Nat) : List Nat := (chanSubs x (m.radioChan x)).getD []

/-- The centre frequency of the wide channel in force in MHz. -/
def Mach.radioCentre (m : Mach) (x : Nat) : Nat :=
  let l := m.radioSubs x
  (chanMHz x (l.headD 0) + chanMHz x (l.getLast?.getD 0)) / 2

/-- The channel group of R254. -/
def regGroup (x c : Nat) : Nat :=
  match x with
  | 0 => if c = 14 then 1 else 0
  | 1 => if c ≤ 48 then 2 else if c ≤ 64 then 3 else if c ≤ 144 then 4 else if c ≤ 165 then 5 else 6
  | _ => if c ≤ 93 then 7 else if c ≤ 113 then 8 else if c ≤ 181 then 9 else 10

/-! ### The regulatory record (R253, R255, R256) -/

/-- A byte of the regulatory record. -/
def Mach.regByte (m : Mach) (o : Nat) : Nat := (m.reg (NVM_REGRECj (o / 4))).toNat / 256 ^ (o % 4) % 256

/-- A 16-bit field of the record. -/
def Mach.regWord (m : Mach) (o : Nat) : Nat := m.regByte o + 256 * m.regByte (o + 1)

/-- Whether MAGIC and VERSION hold (R253). -/
def Mach.regOk (m : Mach) : Bool := m.reg (NVM_REGRECj 0) == 0x47524A46#32 && m.regWord 4 == 1

/-- Whether the mask allows a channel; DFS channels of M never (R243, R253). -/
def Mach.regAllows (m : Mach) (x c : Nat) : Bool :=
  match chanIdx x c with
  | none => false
  | some i =>
    let bit (o : Nat) : Bool := (m.regByte (o + i / 8)).testBit (i % 8)
    match x with
    | 0 => bit 0x08
    | 1 => bit 0x0C && !(decide (4 ≤ i ∧ i < 20))
    | _ => bit 0x10

/-- The channels of M on which revision A1 never transmits, punctured or not (R243, R760). -/
def dfsChan (c : Nat) : Bool := decide (52 ≤ c ∧ c ≤ 144)

/-! ### Identity records (R248 to R252) -/

/-- The entries of a record's tag-length-value area; none where they do not fit. -/
def tlvParse : Nat → List Byte → Option (List (Nat × List Byte))
  | 0, [] => some []
  | 0, _ => none
  | _ + 1, [] => some []
  | _ + 1, [_] => none
  | k + 1, t :: n :: r =>
    if r.length < n.toNat then none else (tlvParse k (r.drop n.toNat)).map fun l => (t.toNat, r.take n.toNat) :: l

/-- The entries of a record. -/
def idEntries (l : List Byte) : List (Nat × List Byte) :=
  (tlvParse 256 (slice 0 l 0x10 (tplW' l 6))).getD []
where
  /-- LENGTH of the record. -/
  tplW' (l : List Byte) (o : Nat) : Nat := (l.getD o 0).toNat + 256 * (l.getD (o + 1) 0).toNat

/-- The value of a tag. -/
def idTag (l : List Byte) (t : Nat) : Option (List Byte) := ((idEntries l).find? fun e => e.1 == t).map fun e => e.2

/-- A 16-bit value in a tag's bytes. -/
def idW (l : List Byte) (i : Nat) : Nat := (l.getD (2 * i) 0).toNat + 256 * (l.getD (2 * i + 1) 0).toNat

/-- The points of a curve: (first value, signed second value). -/
def idPoints (l : List Byte) : List (Nat × Int) :=
  (List.range (l.length / 4)).map fun i => (idW l (2 * i), signedOf 16 (idW l (2 * i + 1)))

/-- Whether values rise strictly. -/
def rising : List Int → Bool
  | x :: y :: r => decide (x < y) && rising (y :: r)
  | _ => true

/-- Whether a tag's value has the length and order of R249; `n` is CHAINS. -/
def idRangeOk (n : Nat) (e : Nat × List Byte) : Bool :=
  let k := e.2.length
  let pts := idPoints e.2
  match e.1 with
  | 1 => k == 1
  | 2 => k == 1 && decide (1 ≤ n ∧ n ≤ 4)
  | 4 | 5 => decide (8 ≤ k ∧ k ≤ 32) && k % 4 == 0 && rising (pts.map fun p => (p.1 : Int))
  | 6 => decide (8 ≤ k ∧ k ≤ 32) && k % 4 == 0 && rising (pts.map fun p => (p.1 : Int)) && rising (pts.map fun p => p.2)
  | 9 => k == 8
  | 11 | 12 => decide (1 ≤ k ∧ k ≤ 32) && e.2.all fun b => b.toNat < 128
  | 3 | 7 | 8 | 10 => k == 2 * n
  | _ => true

/-- The CRC-16/CCITT of R248. -/
def idCrc : CrcParams := ⟨16, 0x1021, 0xFFFF, false, 0⟩

/-- Whether tags repeat. -/
def tagsRepeat : List Nat → Bool
  | [] => false
  | t :: r => r.contains t || tagsRepeat r

/-- The validation of R250 from MAGIC on, for radio `x` and address index `a`. -/
def idValidate (x a : Nat) (l : List Byte) : Nat :=
  let len := idEntries.tplW' l 6
  let type := (l.getD 5 0).toNat
  let tags := (idEntries l).map fun e => e.1
  let need := if type = 1 then [1, 2, 3, 4, 5, 6, 7, 8, 9, 11] else [1, 2, 7, 8, 10, 11]
  let n := (((idTag l 2).getD []).getD 0 0).toNat
  let tm := (idTag l 9).getD []
  if slice 0 l 0 4 ≠ [0x46, 0x4A, 0x49, 0x44] then 3
  else if crcOf idCrc (slice 0 l 0 0xFE) ≠ 256 * (l.getD 0xFE 0).toNat + (l.getD 0xFF 0).toNat then 4
  else if l.getD 4 0 ≠ 1 then 5
  else if type ≠ (if a < 4 then 1 else 2) then 6
  else if 238 < len ∨ (tlvParse 256 (slice 0 l 0x10 len)).isNone ∨ tagsRepeat tags ∨ tags.any (fun t => t == 0 || t == 255) ∨
      (slice 0 l (0x10 + len) (0xFE - 0x10 - len)).any (fun b => b != 0) then 7
  else if need.any (fun t => !tags.contains t) then 8
  else if (((idTag l 1).getD []).getD 0 0).toNat ≠ x then 9
  else if (idEntries l).any (fun e => !idRangeOk n e) then 10
  else if type = 1 ∧ (1800 < 100 + idW tm 0 + idW tm 1 ∨ 1900 < idW tm 2 + idW tm 0 + idW tm 3) then 11
  else 0

/-- The record read at an address index of a bus. -/
def Mach.idRec (m : Mach) (k a : Nat) : List Byte := tabGet [] (m.getBus k).recs a

/-- CHAINS of a record. -/
def Mach.idChains (m : Mach) (k a : Nat) : Nat := (((idTag (m.idRec k a) 2).getD []).getD 0 0).toNat

/-- Whether the record at an address index is OK. -/
def Mach.idOk (m : Mach) (k a : Nat) : Bool := m.rd (IDM_BUSk_ERR k) (fIDM_BUSk_ERR_CODEa a) == 0

/-- Whether chain `c` is valid for transmit (R251). -/
def Mach.chainValid (m : Mach) (x c : Nat) : Bool :=
  decide (c < chainCount x) && m.idOk x (c / 4) && m.idOk x (4 + c / 4) && decide (c % 4 < m.idChains x (c / 4)) &&
    decide (c % 4 < m.idChains x (4 + c / 4)) && !(m.reg (RFx_OVPWR x)).getLsbD c

/-- A number from the bits of a list. -/
def bitsOf (n : Nat) (p : Nat → Bool) : Nat := ((List.range n).map fun i => if p i then 2 ^ i else 0).sum

/-- Compute RFx_TXVALID anew (R251). -/
def Mach.txValid (m : Mach) (x : Nat) : Mach := m.setReg (RFx_TXVALID x) (BitVec.ofNat 32 (bitsOf 16 fun c => m.chainValid x c))

/-- Linear interpolation between points, rounded up (R257: against the transmitter); none outside the points. -/
def curveAt (f : Nat) : List (Nat × Int) → Option Int
  | [] => none
  | [p] => if f = p.1 then some p.2 else none
  | p :: q :: r =>
    if f < p.1 then none
    else if f ≤ q.1 then
      let d : Nat := q.1 - p.1
      some (p.2 - ((p.2 - q.2) * (f - p.1 : Nat)) / (d : Int))
    else curveAt f (q :: r)

/-- GAIN_TX of a chain at a frequency (R249). -/
def Mach.gainTx (m : Mach) (x c f : Nat) : Option Int := curveAt f (idPoints ((idTag (m.idRec x (c / 4)) 4).getD []))

/-! ### Transmit power and refusals (R242, R256 to R260) -/

/-- floor(40 × log10 n). -/
def log40Floor (n : Nat) : Nat := ((List.range 129).filter fun t => decide (10 ^ t ≤ n ^ 40)).length - 1

/-- ceil(40 × log10 n). -/
def log40Ceil (n : Nat) : Nat := if 10 ^ log40Floor n = n ^ 40 then log40Floor n else log40Floor n + 1

/-- The chains of a set. -/
def chainList (c : BitVec 16) : List Nat := (List.range 16).filter fun i => c.getLsbD i

/-- The subchannels that a transmit does not puncture (R256, R271, R272). -/
def Mach.txSubs (m : Mach) (x : Nat) (t : RfTx) : List Nat :=
  let l := m.radioSubs x
  let p := t.punct ||| (m.getRadio x).punct
  ((List.range l.length).filter fun k => !p.getLsbD k).map fun k => l.getD k 0

/-- The least of a list of integers from a start. -/
def minInt : Int → List Int → Int
  | a, [] => a
  | a, b :: r => minInt (min a b) r

/-- The greatest of a list of integers. -/
def maxInt : Int → List Int → Int
  | a, [] => a
  | a, b :: r => maxInt (max a b) r

/-- The least of a chain set's limits and of what is asked for, in quarter-dBm: the power p of R257 before the drive of each chain. -/
def Mach.txLimit (m : Mach) (x : Nat) (t : RfTx) : Int :=
  let cs := chainList t.chains
  let subs := m.txSubs x t
  let psd := log40Floor (20 * subs.length)
  let one (g : Nat) : Int :=
    let e := signedOf 16 (m.regWord (0x18 + 4 * g))
    let d := m.regWord (0x1A + 4 * g)
    if d = 0x7FFF then e else min e (signedOf 16 d + psd)
  let limit := minInt 0x7FFF (subs.map fun c => one (regGroup x c))
  let ant := maxInt (-32768) (cs.map fun c => signedOf 16 (idW ((idTag (m.idRec x (4 + c / 4)) 0x0A).getD []) (c % 4)))
  let n : Int := log40Ceil cs.length
  let p := min t.req (limit - ant - n - if t.steered then n else 0)
  minInt p (cs.map fun c => signedOf 16 (idW ((idTag (m.idRec x (c / 4)) 3).getD []) (c % 4)))

/-- The highest drive of a chain in quarter-dBm (R222). -/
def driveTop (x : Nat) : Int := if x = 0 then 24 else 16

/-- The drive of a chain at a power: gain taken off, held under the chip's highest, then corrected by the power guard and held again
(R257, R258). -/
def Mach.chainDrive (m : Mach) (x : Nat) (p : Int) (c : Nat) : Int :=
  min (driveTop x) (min (driveTop x) (p - (m.gainTx x c (m.radioCentre x)).getD 0) + (tabGet (0, 0) (m.getRadio x).pd c).1)

/-- The power set on a chain: p, or what its highest drive gives (R257). -/
def Mach.chainSet (m : Mach) (x : Nat) (p : Int) (c : Nat) : Int := min p (driveTop x + (m.gainTx x c (m.radioCentre x)).getD 0)

/-- A transmit with its powers set: its drives, and CLAMPED where a chain goes out below what was asked for (R257). -/
def Mach.txPower (m : Mach) (x : Nat) (t : RfTx) : RfTx :=
  let p := m.txLimit x t
  let sets := (chainList t.chains).map fun c => (c, m.chainSet x p c)
  { t with clamped := decide (p < t.req) || sets.any fun e => decide (e.2 < t.req)
           drives := (chainList t.chains).map fun c => (c, m.chainDrive x p c)
           sets := sets }

/-! ### Chains in use (R5, R242, R266) -/

/-- The profile in force. -/
def Mach.profile (m : Mach) : Nat := m.rd ARM_STAT fARM_STAT_ACT_PROFILE

/-- Whether radio H runs its 320 MHz channel at HOT, and so on chains 0 to 7 alone (R5, R266). -/
def Mach.halfChains (m : Mach) (x : Nat) : Bool := x == 2 && m.profile == 2 && getFld (m.radioChan 2) fRFx_CHAN_BW == 4

/-- The chains that a radio receives on (R5, R217, R266). -/
def Mach.rxChains (m : Mach) (x : Nat) : List Nat := List.range (if m.halfChains x then 8 else chainCount x)

/-! ### Path delays (R249, R252) -/

/-- The delay of a chain's path in tenths of a ns, front-end and antenna added: tag 7 for transmit, 8 for receive (R249); zero for a
chain that is not valid (R252). -/
def Mach.pathDelay (m : Mach) (x c tag : Nat) : Nat :=
  let part (a : Nat) : Nat := idW ((idTag (m.idRec x (a + c / 4)) tag).getD []) (c % 4)
  if (m.reg (RFx_TXVALID x)).getLsbD c then part 0 + part 4 else 0

/-- A figure of TR_TIMING of a chain's front-end module in ns: 0 TR_SWITCH, 1 PA_ON, 2 PA_OFF, 3 LNA_ON (R249). -/
def Mach.trTiming (m : Mach) (x c k : Nat) : Nat := idW ((idTag (m.idRec x (c / 4)) 9).getD []) k

/-- Whether every Wi-Fi transmit enable is forced to 0 (R221, R629, R631, R745). -/
def Mach.txForced (m : Mach) : Bool := m.sys.fencePin || m.role == 6 || m.bit SYS_THSTAT fSYS_THSTAT_FORCED

/-- The first refusal that applies to a transmit, in the order of R260 (R243, R760). PROFILE also meets a transmit of radio H at HOT and
320 MHz on fewer than 9 chains that names one of chains 8 to 15, which R266 leaves in Sleep (DEDUCED, log 73). -/
def Mach.txRefusal (m : Mach) (x : Nat) (t : RfTx) : Option Nat :=
  let prof := m.profile
  let cs := chainList t.chains
  if m.txForced then some 0x14
  else if prof = 3 then some 0x13
  else if (m.getRadio x).mode ≠ 2 ∨ m.rd (RFx_STAT x) fRFx_STAT_STATE < 2 then some 0x12
  else if !m.regOk then some 0x17
  else if m.txSubs x t = [] ∨ (m.txSubs x t).any (fun c => !m.regAllows x c) ∨ (x = 1 ∧ (m.radioSubs x).any dfsChan) then some 0x16
  else if m.halfChains x ∧ cs.any (fun c => decide (8 ≤ c)) then some 0x18
  else if cs = [] ∨ cs.any (fun c => !(m.reg (RFx_TXVALID x)).getLsbD c || (m.gainTx x c (m.radioCentre x)).isNone) then some 0x15
  else none

end Sys2Proof.Machine
end

