-- ==== Sys2Proof/Machine/Feature.lean ====
section
/-! DEFINITION. What a baseband sends and decodes: formats, rates, streams, users and resource units (R265 to R268), and puncturing
patterns (R271, R272). -/

namespace Sys2Proof.Machine

open Sys2Proof

/-! ### Puncturing (R271, R272) -/

/-- Whether a pattern is allowed on a width of `2^w` subchannels: per 80 MHz segment one of the patterns of IEEE 802.11be. -/
def punctOk (x w : Nat) (p : BitVec 16) : Bool :=
  if x = 0 ∨ w < 2 then p == 0
  else decide (p.toNat < 2 ^ 2 ^ w) && (List.range (2 ^ w / 4)).all fun s =>
    [0, 1, 2, 4, 8, 3, 12, 6, 15].contains (p.toNat / 16 ^ s % 16)

/-- The position of the primary among the subchannels of a channel. -/
def primAt (x : Nat) (chan : W32) : Nat :=
  let l := (chanSubs x chan).getD []
  ((List.range l.length).find? fun k => l.getD k 0 == getFld chan fRFx_CHAN_PRIMARY).getD 0

/-- The subchannels of the channel `2^w` wide that contains position `p`. -/
def blockOf (w p : Nat) : BitVec 16 := BitVec.ofNat 16 ((2 ^ 2 ^ w - 1) * 2 ^ (p / 2 ^ w * 2 ^ w))

/-- A pattern as it stands on that channel alone. -/
def blockPat (w p : Nat) (s : BitVec 16) : BitVec 16 := (s &&& blockOf w p) >>> (p / 2 ^ w * 2 ^ w)

/-- The widest channel of at most `2^w` that contains the primary, whose non-punctured subchannels are idle and whose static pattern is
allowed (R271, R305). -/
def narrowTo (x prim : Nat) (static busy : BitVec 16) : Nat → Nat
  | 0 => 0
  | w + 1 =>
    if busy &&& ~~~static &&& blockOf (w + 1) prim = 0 ∧ punctOk x (w + 1) (blockPat (w + 1) prim static) then w + 1
    else narrowTo x prim static busy w

/-- The width of a PPDU and the subchannels of the wide channel that carry nothing (R305): an EHT MU PPDU (format 8) is punctured where it
may be, any other is narrowed. -/
def ppduShape (x prim f bw : Nat) (static busy : BitVec 16) : Nat × BitVec 16 :=
  if f = 8 ∧ punctOk x bw (blockPat bw prim (static ||| busy)) then (bw, ~~~blockOf bw prim ||| static ||| busy)
  else
    let w := narrowTo x prim static busy bw
    (w, ~~~blockOf w prim ||| static)

/-- Whether a static pattern fits the staged channel (R272). -/
def staticOk (x : Nat) (chan : W32) (p : BitVec 16) : Bool :=
  punctOk x (getFld chan fRFx_CHAN_BW) p && !p.getLsbD (primAt x chan)

/-! ### Features (R265) -/

/-- The formats of R288 that a radio sends and decodes. -/
def formatOk (x f : Nat) : Bool :=
  match x with
  | 0 => [0, 1, 2, 4, 5, 6, 7, 8, 9].contains f
  | 1 => decide (1 ≤ f ∧ f ≤ 9)
  | _ => f == 1 || decide (4 ≤ f ∧ f ≤ 9)

/-- The widest width of a radio, coded as RFx_CHAN.BW. -/
def bwTop (x : Nat) : Nat := match x with | 0 => 1 | 1 => 3 | _ => 4

/-- The widest width of a format on a radio; non-HT is duplicated on H alone, and the rest is as IEEE 802.11 defines each format
(PRESUMED, log 74). -/
def formatBw (x f : Nat) : Nat :=
  min (bwTop x) (match f with | 0 => 0 | 1 => if x = 2 then 4 else 0 | 2 => 1 | 5 => 0 | 3 | 4 | 6 | 7 => 3 | _ => 4)

/-- The most streams of a user. -/
def streamsTop (x f : Nat) : Nat :=
  match f with | 0 | 1 | 5 => 1 | 2 => 4 | _ => if x = 0 then 4 else 8

/-- The rates of a format: its MCS range, EHT MCS 14 and 15 on one stream. -/
def mcsOk (f mcs n : Nat) : Bool :=
  match f with
  | 0 => decide (mcs < 4)
  | 1 | 2 => decide (mcs < 8)
  | 3 => decide (mcs ≤ 9)
  | 5 => decide (mcs ≤ 2)
  | 4 | 6 | 7 => decide (mcs ≤ 11)
  | _ => decide (mcs ≤ 13) || n == 1

/-- Whether the guard interval (0 0.4, 1 0.8, 2 1.6, 3 3.2 µs) goes with a format. -/
def giOk (f gi : Nat) : Bool :=
  match f with | 0 | 1 => gi == 1 | 2 | 3 => decide (gi ≤ 1) | _ => decide (1 ≤ gi)

/-- Whether R265 lists one user's coding: streams, rate, STBC, DCM, and BCC where LDPC is not used. -/
def userOk (x f : Nat) (u : TxUser) : Bool :=
  decide (1 ≤ u.streams ∧ u.streams ≤ streamsTop x f) && mcsOk f u.mcs u.streams &&
    (!u.stbc || (u.streams == 1 && decide (2 ≤ f ∧ f ≤ 7) && !u.dcm)) &&
    (!u.dcm || (decide (4 ≤ f ∧ f ≤ 7) && [0, 1, 3, 4].contains u.mcs && decide (u.streams ≤ 2))) &&
    (if u.ldpc then decide (2 ≤ f) else decide (f ≤ 3) || decide (u.tones ≤ 242 ∧ u.streams ≤ 4))

/-- The most resource units of a PPDU. -/
def ruTop (x : Nat) : Nat := match x with | 0 => 18 | 1 => 74 | _ => 148

/-- The most users of a downlink PPDU in multi-user MIMO, and of an uplink resource unit. -/
def dlUsersTop (x : Nat) : Nat := match x with | 0 => 4 | 1 => 8 | _ => 16
def ulUsersTop (x : Nat) : Nat := if x = 0 then 4 else 8

/-- The resource units that users name. -/
def rusOf (l : List TxUser) : List Nat := (l.map fun u => u.ru).eraseDups

/-- The users of a resource unit, and a sum of streams. -/
def onRu (l : List TxUser) (r : Nat) : List TxUser := l.filter fun u => u.ru == r
def streamSum (l : List TxUser) : Nat := (l.map fun u => u.streams).sum

/-- Whether R265 lists a PPDU: format, width, guard interval, every user, and as many resource units as a PPDU carries. -/
def ppduOk (x f bw gi : Nat) (l : List TxUser) : Bool :=
  formatOk x f && decide (bw ≤ formatBw x f) && giOk f gi && l.all (userOk x f) && decide ((rusOf l).length ≤ ruTop x)

/-- Whether a downlink PPDU on `n` chains keeps R267: the streams of all users, 8 streams and 8 users on a resource unit, multi-user
MIMO on units of 242 tones and more, and as many users as R265 allows. -/
def dlOk (x n : Nat) (l : List TxUser) : Bool :=
  let shared := (rusOf l).filter fun r => decide (1 < (onRu l r).length)
  decide (streamSum l ≤ n) && (rusOf l).all (fun r => decide (streamSum (onRu l r) ≤ 8 ∧ (onRu l r).length ≤ 8)) &&
    shared.all (fun r => (onRu l r).all fun u => decide (242 ≤ u.tones)) &&
    decide ((shared.map fun r => (onRu l r).length).sum ≤ dlUsersTop x)

/-- Whether a user of an uplink trigger-based PPDU stays within R268 beside the users before it, on `n` receive chains. -/
def ulFits (x n : Nat) (before : List TxUser) (u : TxUser) : Bool :=
  decide (streamSum (onRu before u.ru) + u.streams ≤ 8 ∧ streamSum before + u.streams ≤ n ∧
    (onRu before u.ru).length < ulUsersTop x)

/-- The users of an uplink trigger-based PPDU that stay within R268, in their order: one answer for each. -/
def ulWithin (x n : Nat) : List TxUser → List TxUser → List Bool
  | _, [] => []
  | before, u :: r => if ulFits x n before u then true :: ulWithin x n (before ++ [u]) r else false :: ulWithin x n before r

/-- The tones of a width. -/
def toneTop (w : Nat) : Nat := match w with | 0 => 242 | 1 => 484 | 2 => 996 | 3 => 1992 | _ => 3984

/-! ### Received users (R265, R268, R288) -/

/-- A received user's coding as its vector shows it. -/
def rxUser (v : RxVec) : TxUser :=
  ⟨none, v.ru.toNat % 512, v.tones, v.rate.toNat / 16 % 8 + 1, v.rate.toNat % 16, v.phy.getLsbD 3, v.phy.getLsbD 4, v.phy.getLsbD 5⟩

/-- Whether R265 lists what a vector shows of its PPDU, puncturing included. -/
def rxListed (x : Nat) (v : RxVec) : Bool :=
  let f := v.format.toNat % 16
  let bw := v.phy.toNat % 8
  ppduOk x f bw v.gi.toNat [rxUser v] && (v.punct == 0 || ((f == 6 || f == 8) && punctOk x bw v.punct))

/-- The statuses of the users of a PPDU that was received to its end (R265, R268, R289): those beyond a limit are UNSUPPORTED. -/
def rxStatuses (x chains : Nat) (l : List RxVec) : List Nat :=
  let tb := l.any fun v => v.format.toNat % 16 == 7 || v.format.toNat % 16 == 9
  let within := if tb then ulWithin x chains [] (l.map rxUser) else l.map fun v => decide ((rxUser v).streams ≤ chains)
  let rus := decide ((rusOf (l.map rxUser)).length ≤ ruTop x)
  (l.zip within).map fun e => if rxListed x e.1 && e.2 && rus then 0x00 else 0x13

end Sys2Proof.Machine
end

