-- ==== Sys2Proof/Machine/RxBase.lean ====
section
/-! DEFINITION. What both halves of a radio need of a reception: STR and overlaps (R284 to R287), time-stamps (R291, R292), receive
vectors and the delivery of a reception (R288, R289), busy subchannels (R274). -/

namespace Sys2Proof.Machine

open Sys2Proof

/-- A signed dBm field. -/
def dbmOf (v : Nat) : Int := signedOf 8 v

/-! ### Busy subchannels (R274) -/

/-- The subchannels that a detected PPDU is known to hold: the primary, and its width once its signal fields have passed. -/
def Mach.rxSubs (m : Mach) (x : Nat) : BitVec 16 :=
  let r := (m.getBb x).rx
  let p := primAt x (m.radioChan x)
  if r.state = 0 then 0
  else match r.users with
    | v :: _ => blockOf (v.phy.toNat % 8) p &&& ~~~v.punct
    | [] => BitVec.ofNat 16 (2 ^ p)

/-- The busy subchannels: those whose energy reaches ED_THR and those of a detected PPDU. -/
def Mach.busyMask (m : Mach) (x : Nat) : BitVec 16 := (m.getBb x).energy ||| m.rxSubs x

/-- BBx_STAT.BUSY shows the busy subchannels. -/
def Mach.busyShow (m : Mach) (x : Nat) : Mach := m.wr (BBx_STAT x) fBBx_STAT_BUSY (m.busyMask x).toNat

/-- Change a reception; BBx_STAT shows its state and the subchannels it holds. -/
def Mach.setRx (m : Mach) (x : Nat) (r : Rx) : Mach :=
  ((m.bbMod x fun b => { b with rx := r }).wr (BBx_STAT x) fBBx_STAT_RXSTATE r.state).busyShow x

/-! ### STR (R284 to R287) -/

/-- Whether STR_OK holds in the current beat. -/
def Mach.strOk (m : Mach) : Bool := m.bit (BBx_STRSTAT 1) fBBx_STRSTAT_STR_OK

/-- Set a field of BBx_STRSTAT in both blocks. -/
def Mach.strWr (m : Mach) (f : Fld) (n : Nat) : Mach := (m.wr (BBx_STRSTAT 1) f n).wr (BBx_STRSTAT 2) f n

/-- Whether a reception of radio `x` overlaps the other radio's transmit without STR (R287). -/
def Mach.xbNow (m : Mach) (x : Nat) : Bool := x != 0 && (m.getRadio (3 - x)).txOn && !m.strOk

/-- A reception of M or H that overlaps the other's transmit without STR carries XB_OVERLAP from here on (R287): latched whenever
either begins or ends, and before STR_OK changes. -/
def Mach.xbLatch (m : Mach) : Mach :=
  m.forEach [1, 2] fun y x =>
    if y.xbNow x ∧ (y.getBb x).rx.state ≠ 0 then y.bbMod x fun b => { b with rx := { b.rx with xb := true } } else y

/-- The cancellation measured on the other radio's chains during a transmit of M or H (R286); cancellers that are off measure
nothing. -/
def Mach.strMeasure (m : Mach) (x : Nat) (dbs : List (Nat × Nat)) : Mach :=
  if x = 0 ∨ dbs = [] ∨ !m.bit (BBx_CTL (3 - x)) fBBx_CTL_CANC_EN then m
  else
    let y := 3 - x
    let lowest := dbs.foldl (fun a e => min a e.2) 255
    let lim := m.rd (BBx_STRCTL y) fBBx_STRCTL_MIN_DB
    let need := max 1 (m.rd (BBx_STRCTL y) fBBx_STRCTL_COUNT)
    let low := dbs.foldl (fun t e => tabSet 0 t e.1 (if e.2 < lim then tabGet 0 t e.1 + 1 else 0)) (m.getBb y).low
    let bad := dbs.any fun e => decide (need ≤ tabGet 0 low e.1)
    let m1 := (m.strWr fBBx_STRSTAT_CANC_DB lowest).bbMod y fun b => { b with low := low, degraded := b.degraded || bad }
    if bad ∧ !(m.getBb y).degraded then m1.event 0x0801 y [(4, (m1.reg (BBx_STRSTAT y)).toNat)] else m1

/-- Measurements of chains that the spec does not state: a free value each (log 5). -/
def Mach.freeChains (m : Mach) : List Nat → Mach × List (Nat × Nat)
  | [] => (m, [])
  | c :: r =>
    let v := m.freeVal
    let q := v.2.freeChains r
    (q.1, (c, v.1.toNat % 256) :: q.2)

/-- A transmit that was cut: what its cancellers measured comes with no command, so it is free (R286, log 5). -/
def Mach.strCut (m : Mach) (x : Nat) : Mach :=
  if x = 0 then m
  else
    let q := m.freeChains (List.range (chainCount (3 - x)))
    q.1.strMeasure x q.2

/-! ### Time-stamps (R291, R292) -/

/-- A chain's estimate with its on-chip and path delays taken off, in eightieths of a ns (R292): delays are in tenths. -/
def Mach.estAt (m : Mach) (x : Nat) (e : Nat × Nat) : Nat :=
  e.2 - 8 * ((Config.tsDelay x (getFld (m.radioChan x) fRFx_CHAN_BW)).toNat % 65536 + m.pathDelay x e.1 8)

/-- The earliest of the corrected estimates, with its chain. -/
def Mach.earliest (m : Mach) (x : Nat) : List (Nat × Nat) → Option (Nat × Nat)
  | [] => none
  | e :: r => match m.earliest x r with
    | some b => if b.2 < m.estAt x e then some b else some (e.1, m.estAt x e)
    | none => some (e.1, m.estAt x e)

/-- TS and TS_UNCORR of a receive vector (R288, R292); what is below a sixteenth of a ns is dropped (DESIGN CHOICE, log 73). -/
def Mach.wifiStamp (m : Mach) (x : Nat) (v : RxVec) : BitVec 64 × Bool :=
  match m.earliest x v.ests with
  | some (c, t) => (BitVec.ofNat 4 (t / 5) ++ BitVec.ofNat 60 (t / 80), !(m.reg (RFx_TXVALID x)).getLsbD c)
  | none => (0, false)

/-- From the turn to a PPDU to its first sample at the antenna of a chain, in eightieths of a ns: the turnaround of 2 µs, the on-chip
delay and the path's (R228, R291, R292). -/
def Mach.txLag (m : Mach) (x c : Nat) : Nat :=
  160000 + 8 * ((Config.tsDelay x (getFld (m.radioChan x) fRFx_CHAN_BW)).toNat / 65536 + m.pathDelay x c 7)

/-- The stamps of a PPDU that the radio turns to send now, by chain in eightieths of a ns (R291). -/
def Mach.txStamps (m : Mach) (x : Nat) (t : RfTx) : List (Nat × Nat) :=
  (chainList t.chains).map fun c => (c, 5 * m.stamp + m.txLag x c)

/-! ### Vectors and endings (R288, R289) -/

/-- The 32 bytes of a receive vector (R288); an UNSUPPORTED user's PSDU is not delivered, so its LEN is 0 (R289). -/
def Mach.vecBytes (m : Mach) (x st : Nat) (r : Rx) (v : RxVec) : List Byte :=
  let s := m.wifiStamp x v
  bytesLE 1 st ++ bytesLE 1 v.format.toNat ++ bytesLE 1 v.phy.toNat ++ bytesLE 1 v.rate.toNat ++ bytesLE 2 v.punct.toNat ++
    bytesLE 2 v.ru.toNat ++ bytesLE 1 (BitVec.ofInt 8 r.power).toNat ++ bytesLE 1 v.snr.toNat ++ bytesLE 2 v.cfo.toNat ++
    bytesLE 4 (if st = 0x13 then 0 else v.len.toNat) ++ bytesLE 8 s.1.toNat ++ bytesLE 4 r.tsf ++ bytesLE 2 (min 0xFFFF r.cwFail) ++
    bytesLE 1 ((if s.2 then 1 else 0) + (if r.xb ∨ m.xbNow x then 2 else 0) +
      (if r.restarted then 4 else 0) + (if r.late then 8 else 0)) ++ bytesLE 1 (min v.chains.toNat (m.rxChains x).length)

/-- The count of an ending (R289, R295). -/
def Mach.rxCount (m : Mach) (x st : Nat) (late : Bool) : Mach :=
  let m1 := match st with
    | 0x00 => m.count (BBx_RXCNT0 x) fBBx_RXCNT0_OK
    | 0x10 => m.count (BBx_RXCNT1 x) fBBx_RXCNT1_SUPERSEDED
    | 0x11 => m.count (BBx_RXCNT1 x) fBBx_RXCNT1_TRUNCATED
    | 0x12 => m.count (BBx_RXCNT2 x) fBBx_RXCNT2_OVERLOAD
    | 0x13 => m.count (BBx_RXCNT2 x) fBBx_RXCNT2_UNSUPPORTED
    | 0x14 => m.count (BBx_RXCNT2 x) fBBx_RXCNT2_CUT_BY_TX
    | _ => m.count (BBx_RXCNT0 x) fBBx_RXCNT0_SIG_FAIL
  m1.when late fun y => y.count (BBx_RXCNT2 x) fBBx_RXCNT2_LATE

/-- The powers of a PPDU's receiving chains shown in BBx_RSSIc; a chain that did not receive reads -128 (R266, R295). -/
def Mach.rssiShow (m : Mach) (x : Nat) (rssi : List (Nat × BitVec 8)) : Mach :=
  m.forEach (List.range (chainCount x)) fun y c => y.wr (BBx_RSSIc x c) fBBx_RSSIc_RSSI
    (if (m.rxChains x).contains c then ((rssi.find? fun e => e.1 == c).map fun e => e.2.toNat).getD 0x80 else 0x80)

/-- Deliver the vectors of a reception that ends with status `st`, each user with a status of its own (R268, R281, R288, R289); `rssi`
gives the receiving chains' powers, where they came. -/
def Mach.rxDeliverAs (m : Mach) (x st : Nat) (users : List (Nat × RxVec)) (rssi : Option (List (Nat × BitVec 8))) : Mach :=
  let r := (m.getBb x).rx
  let vs := users.map fun e => m.vecBytes x e.1 r e.2
  let m1 := ((m.rxCount x st r.late).count (BBx_CWFAIL x) fBBx_CWFAIL_CWFAIL r.cwFail).bbMod x fun b => { b with vecs := vs }
  let m2 := match vs.getLast? with
    | some b => m1.forEach (List.range 8) fun y j => y.setReg (BBx_LASTRXj x j) (BitVec.ofNat 32 (numLE (slice 0 b (4 * j) 4)))
    | none => m1
  match rssi with
  | some l => m2.rssiShow x l
  | none => m2

/-- Deliver a reception whose users all end alike. -/
def Mach.rxDeliver (m : Mach) (x st : Nat) (users : List RxVec) (rssi : List (Nat × BitVec 8)) : Mach :=
  m.rxDeliverAs x st (users.map fun v => (st, v)) (some rssi)

/-- Deliver a reception that ends where no command brings the powers of its chains: they are free (log 5), and its users are those
decoded so far. -/
def Mach.rxDeliverFree (m : Mach) (x st : Nat) : Mach :=
  let q := m.freeChains (m.rxChains x)
  q.1.rxDeliver x st (m.getBb x).rx.users (q.2.map fun e => (e.1, BitVec.ofNat 8 e.2))

/-- The radio goes to Tx on a command of the MAC during a reception (R289): one past its signal fields is delivered with its users as
far as they are decoded. -/
def Mach.rxCutByTx (m : Mach) (x : Nat) : Mach :=
  let r := (m.getBb x).rx
  if r.state = 0 then m
  else if r.state = 3 ∧ !r.cut then (m.rxDeliverFree x 0x14).setRx x Rx.zero
  else (m.when (!r.cut) fun y => y.rxCount x 0x14 false).setRx x Rx.zero

end Sys2Proof.Machine
end

