-- ==== Sys2Proof/Machine/RfOps.lean ====
section
/-! DEFINITION. The Wi-Fi transceivers' behaviour (R218 to R260): states and front-end lines, transmits, the synthesiser, the power
guard, calibrations, identity buses. -/

namespace Sys2Proof.Machine

open Sys2Proof

/-! ### States (R219, R223 to R227) -/

/-- The state a radio is in. -/
def Mach.radioState (m : Mach) (x : Nat) : Nat := m.rd (RFx_STAT x) fRFx_STAT_STATE

/-- The state that the mode in force and RET ask for (R223). -/
def Mach.radioRest (m : Mach) (x : Nat) : Nat :=
  match (m.getRadio x).mode with
  | 2 => if m.bit (RFx_CTL x) fRFx_CTL_RET then 3 else 2
  | k => min k 1

/-- The next state on the way from `s` to `t` by the transitions of R224. -/
def radioHop (s t : Nat) : Nat :=
  if s = 0 then (if t = 0 then 0 else 1)
  else if s = 1 then (if t ≤ 1 then t else 2)
  else if t = 0 then (if s = 2 then 1 else 2)
  else if t = 1 ∧ s ≠ 2 then 2
  else t

/-- Begin a transition, or hold the command behind the one under way and those that wait (R226). -/
def Mach.radioGo (m : Mach) (x t : Nat) : Mach :=
  let s := m.radioState x
  if (m.getRadio x).moving.isSome then m.radioMod x fun r => { r with next := r.next ++ [t] }
  else if s = t then m
  else
    let h := radioHop s t
    m.radioMod x fun r => { r with moving := some h, next := if h = t then r.next else t :: r.next }

/-- Whether a radio sends or receives a PPDU. -/
def Mach.radioBusy (m : Mach) (x : Nat) : Bool := (m.getRadio x).tx.isSome || (m.getBb x).rx.state != 0

/-- A radio that neither sends, receives nor calibrates goes to its rest state (R223, R225). -/
def Mach.radioRelax (m : Mach) (x : Nat) : Mach :=
  if m.radioBusy x || (m.getRadio x).cal.isSome then m else m.radioGo x (m.radioRest x)

/-- Whether what the armature has opened on a radio still needs it to listen: a slot waits for the medium, the span of a CONT slot has not
passed, or a response is awaited (R303, R304, R312). -/
def Mach.slotRuns (m : Mach) (x : Nat) : Bool :=
  (m.getSq x).await.isSome || match (m.getSq x).slot with
  | some r => r.waiting || (r.slot.kind == 4 &&
      decide (m.tb5 ≤ m.fineAt r.beat (r.slot.start + r.slot.len)))
  | none => false

/-- The MAC's work in mode ON brings a radio that neither sends nor calibrates to Rx (R223), once a return that is under way has ended
(R226). -/
def Mach.radioListen (m : Mach) (x : Nat) : Mach :=
  if (m.getRadio x).mode = 2 ∧ (m.getRadio x).tx = none ∧ (m.getRadio x).cal = none then m.radioGo x 3 else m

/-- The radio returns on its own to the state that RET names (R225); what the armature has opened takes it back to Rx (R223; DEDUCED,
log 75). -/
def Mach.radioBack (m : Mach) (x : Nat) : Mach :=
  let m1 := m.radioGo x (m.radioRest x)
  if m.slotRuns x then m1.radioListen x else m1

/-- The modes written take effect at a beat start (R223, R236). A radio that sends, receives, calibrates or serves a slot moves when that
has ended (R225; DESIGN CHOICE, log 75). -/
def Mach.radioModes (m : Mach) : Mach :=
  m.forEach [0, 1, 2] fun x k =>
    let md := x.rd (RFx_CTL k) fRFx_CTL_MODE
    if md = 3 then x
    else
      let y := x.radioMod k fun r => { r with mode := md }
      if md = 2 ∧ y.slotRuns k then y else y.radioRelax k

/-! ### Front-end lines (R218 to R221, R228, R235) -/

/-- Whether a chain's transmit lines may rise: it is set in RFx_CHAINEN and in RFx_TXVALID (R220). -/
def Mach.chainOn (m : Mach) (x c : Nat) : Bool := (m.reg (RFx_CHAINEN x)).getLsbD c && (m.reg (RFx_TXVALID x)).getLsbD c

/-- The state of one chain: chains 8 to 15 of H sleep at HOT with a 320 MHz channel (R266). -/
def Mach.chainState (m : Mach) (x c : Nat) : Nat := if m.halfChains x ∧ 8 ≤ c then min 1 (m.radioState x) else m.radioState x

/-- The lines that the radio logic drives on a chain: xTXENc, xPAENc, xLNABYPc (R219, R220, R228). Between states they stand as the
first edge of the turnaround leaves them. -/
def Mach.feLines (m : Mach) (x c : Nat) : Bool × Bool × Bool :=
  let on := m.chainOn x c
  let r := m.getRadio x
  match m.chainState x c with
  | 0 | 1 => (false, false, false)
  | 2 => (false, false, true)
  | 3 => (false, false, if r.moving = some 4 then true else r.bypass.getLsbD c)
  | 4 => (on, on && r.moving.isNone, true)
  | _ => (false, false, true)

/-- The pins xTXENc, xPAENc, xLNABYPc: the pad ring forces the first two to 0 while the fence stands (R221). -/
def Mach.fePins (m : Mach) (x c : Nat) : Bool × Bool × Bool :=
  let l := m.feLines x c
  (l.1 && !m.txForced, l.2.1 && !m.txForced, l.2.2)

/-- The edges of a turnaround to Tx, in ns from the decision (R228); a chain that is off keeps its transmit lines at 0 (R220). -/
def Mach.edgesToTx (m : Mach) (x : Nat) : List FeEdge :=
  ((List.range (chainCount x)).map fun c =>
    (⟨0, c, .lnabyp, some true⟩ : FeEdge) ::
      if m.chainOn x c then [⟨100, c, .txen, some true⟩, ⟨100 + m.trTiming x c 0, c, .paen, some true⟩] else []).flatten

/-- The edges of a turnaround from Tx, in ns from the last sample (R228): gain control takes xLNABYPc back where the radio goes to Rx. -/
def Mach.edgesFromTx (m : Mach) (x : Nat) (toRx : Bool) : List FeEdge :=
  ((List.range (chainCount x)).map fun c =>
    (if m.chainOn x c then [(⟨0, c, .paen, some false⟩ : FeEdge), ⟨m.trTiming x c 2, c, .txen, some false⟩] else []) ++
      if toRx then [⟨m.trTiming x c 2 + m.trTiming x c 0, c, .lnabyp, none⟩] else []).flatten

/-! ### Transmits (R225, R228 to R232, R257 to R260) -/

/-- How a transmit ended: the command and its status. -/
abbrev TxEnd := Option (RfTx × Nat)

/-- A transmit command ends with a status: RFx_TXCNT and RFx_TXLAST, and TX_DONE for an immediate transmit (R259, R592). -/
def Mach.txReport (m : Mach) (x : Nat) (t : RfTx) (st : Nat) : Mach :=
  let m1 := if st = 0 then m
    else ((m.count (RFx_TXCNT x) (if st = 1 then fRFx_TXCNT_CLAMPED else fRFx_TXCNT_REFUSED)).wr (RFx_TXLAST x)
      fRFx_TXLAST_STATUS st).wr (RFx_TXLAST x) fRFx_TXLAST_CHAINS (t.chains &&& chainMask x).toNat
  match t.tag with
  | some (ring, tag) => m1.notice ring 0x1302 0 [(1, st), (1, 0), (4, tag.toNat)]
  | none => m1

/-- The transmit that a radio holds or sends ends with a status (R259). -/
def Mach.radioTxDone (m : Mach) (x : Nat) (t : RfTx) (st : Nat) : Mach × TxEnd :=
  ((m.xbLatch.txReport x t st).radioMod x fun r => { r with tx := none, txOn := false }, some (t, st))

/-- A PPDU on its way is cut with a status (R221, R232): the measurement of its overlap counts (R286), and the radio returns. -/
def Mach.radioCut (m : Mach) (x : Nat) (t : RfTx) (st : Nat) : Mach × TxEnd :=
  let r := (m.strCut x).radioTxDone x t st
  ((r.1.radioMod x fun q => { q with edges := m.edgesFromTx x (m.radioRest x == 3) }).radioBack x, r.2)

/-- Whether a transmit that reaches the radio has to wait: for a transition (R226), for a settling synthesiser or a calibration (R229).
A RETUNE that has its lock holds nothing back. -/
def Mach.txWaits (m : Mach) (x : Nat) : Bool :=
  let r := m.getRadio x
  r.moving.isSome || r.settling || r.cal.any fun k => k != 1

/-- The turn to Tx begins: a reception is cut, powers and stamps are set, the lines turn (R228, R257, R289, R291). -/
def Mach.txStart (m : Mach) (x : Nat) (t : RfTx) : Mach :=
  let m1 := m.rxCutByTx x
  ((m1.radioMod x fun r => { r with tx := some { m1.txPower x t with start := m1.tb5 }, txOn := true, edges := m1.edgesToTx x,
                                    stamps := m1.txStamps x t }).xbLatch).radioGo x 4

/-- A transmit reaches the radio (R226, R229 to R232, R260): refused, held, behind the one the radio has already, or started. -/
def Mach.radioTx (m : Mach) (x : Nat) (t : RfTx) : Mach × TxEnd :=
  let r := m.getRadio x
  match m.txRefusal x t with
  | some st => (m.txReport x t st, some (t, st))
  | none =>
    if r.relock then (m.txReport x t 0x11, some (t, 0x11))
    else if r.tx.isSome then (m.radioMod x fun r => { r with waitTx := r.waitTx ++ [t] }, none)
    else if m.txWaits x then (m.radioMod x fun r => { r with tx := some t, txOn := false }, none)
    else (m.txStart x t, none)

/-- The transmit that the radio holds, or the next that waits, starts where nothing holds it any more (R226, R229). -/
def Mach.txNext (m : Mach) (x : Nat) : Mach × TxEnd :=
  let r := m.getRadio x
  if r.txOn ∨ (m.txWaits x ∧ !r.relock) then (m, none)
  else match r.tx, r.waitTx with
    | some t, _ => (m.radioMod x fun r => { r with tx := none }).radioTx x t
    | none, t :: l => (m.radioMod x fun r => { r with waitTx := l }).radioTx x t
    | none, [] => (m, none)

/-- A transition ends: the commands that waited for it act in turn (R224, R226). -/
def Mach.radioArrive (m : Mach) (x : Nat) : Mach × TxEnd :=
  let r := m.getRadio x
  match r.moving with
  | none => (m, none)
  | some s =>
    let m1 := (m.wr (RFx_STAT x) fRFx_STAT_STATE s).radioMod x fun r => { r with moving := none, next := (dropSame s r.next).drop 1 }
    let m2 := if s ≤ 1 then m1.wr (RFx_STAT x) fRFx_STAT_LOCK 0
      else if r.settling || r.relock then m1 else m1.wr (RFx_STAT x) fRFx_STAT_LOCK 1
    match dropSame s r.next with
    | t :: _ => (m2.radioGo x t, none)
    | [] => m2.txNext x

/-- A write of RFx_CTL (R223): the mode waits for the next beat start. -/
def Mach.modeWrite (m : Mach) (x : Nat) (v : W32) : Mach :=
  ((m.wr (RFx_CTL x) fRFx_CTL_STALE_DT (getFld v fRFx_CTL_STALE_DT)).wr (RFx_CTL x) fRFx_CTL_RET (getFld v fRFx_CTL_RET)).wr
    (RFx_CTL x) fRFx_CTL_MODE (getFld v fRFx_CTL_MODE)

/-- The synthesiser reports lock, and a held transmit starts (R229, R231, R232). -/
def Mach.synthLock (m : Mach) (x : Nat) : Mach × TxEnd :=
  ((m.wr (RFx_STAT x) fRFx_STAT_LOCK 1).radioMod x fun r => { r with settling := false, relock := false }).txNext x

/-- Start plus tolerance passes: a held transmit is cancelled where lock has not come (R230). -/
def Mach.synthDeadline (m : Mach) (x : Nat) : Mach × TxEnd :=
  match (m.getRadio x).tx with
  | some t => if (m.getRadio x).txOn ∨ m.bit (RFx_STAT x) fRFx_STAT_LOCK then (m, none) else m.radioTxDone x t 0x10
  | none => (m, none)

/-- A locked synthesiser loses lock (R232): what the radio sends or holds ends LOCK_LOST. -/
def Mach.synthLoss (m : Mach) (x : Nat) : Mach × TxEnd :=
  if m.bit (RFx_STAT x) fRFx_STAT_LOCK then
    let m1 := ((m.wr (RFx_STAT x) fRFx_STAT_LOCK 0).radioMod x fun r => { r with relock := true }).event 0x0501 x []
    match (m.getRadio x).tx with
    | some t => if (m.getRadio x).txOn then m1.radioCut x t 0x11 else m1.radioTxDone x t 0x11
    | none => (m1, none)
  else (m, none)

/-- The pad ring cuts a transmission (R221); a transmit that the radio only holds goes on waiting. -/
def Mach.radioFence (m : Mach) (x : Nat) : Mach × TxEnd :=
  match (m.getRadio x).tx with
  | some t => if (m.getRadio x).txOn then m.radioCut x t 0x14 else (m, none)
  | none => (m, none)

/-- The power at the antenna port that a detector reading in mV gives (R258); a reading outside the curve has no stated
power (log 5). -/
def Mach.pdetPower (m : Mach) (x c mv : Nat) : Mach × Int :=
  match curveAt mv (idPoints ((idTag (m.idRec x (c / 4)) 6).getD [])) with
  | some p => (m, p)
  | none => let v := m.freeVal; (v.2, (v.1.extractLsb' 0 16 : BitVec 16).toInt)

/-- The power guard on one chain (R258): the difference from the power set corrects the drive of the next PPDU, within 1 dB. -/
def Mach.powerGuard (m : Mach) (x : Nat) (set : Int) (e : Nat × Nat) : Mach :=
  let c := e.1
  let q := m.pdetPower x c e.2
  let k := if set + 8 ≤ q.2 then tabGet 0 (m.getRadio x).highs c + 1 else 0
  let corr := (tabGet (0, 0) (m.getRadio x).pd c).1 + max (-4) (min 4 (set - q.2))
  let m1 := q.1.radioMod x fun r => { r with highs := tabSet 0 r.highs c (k % 3), pd := tabSet (0, 0) r.pd c (corr, q.2) }
  if 3 ≤ k then
    ((m1.setReg (RFx_OVPWR x) (m1.reg (RFx_OVPWR x) ||| (1#32 <<< c))).setReg (RFx_TXVALID x)
      (m1.reg (RFx_TXVALID x) &&& ~~~(1#32 <<< c))).event 0x0504 x [(2, 2 ^ c)]
  else m1

/-- The power set on a chain of a transmit. -/
def RfTx.setOf (t : RfTx) (c : Nat) : Int := ((t.sets.find? fun e => e.1 == c).map fun e => e.2).getD t.req

/-- The last sample of a PPDU is sent (R225, R258): `pd` gives the detector readings of the active chains in mV. -/
def Mach.radioTxEnd (m : Mach) (x : Nat) (pd : List (Nat × Nat)) : Mach × TxEnd :=
  let r := m.getRadio x
  match r.tx with
  | some t =>
    if r.txOn ∧ m.radioState x = 4 ∧ r.moving = none then
      let m1 := m.forEach (pd.filter fun e => t.chains.getLsbD e.1 && m.chainOn x e.1) fun y e => y.powerGuard x (t.setOf e.1) e
      let d := m1.radioTxDone x t (if t.clamped then 1 else 0)
      ((d.1.radioMod x fun q => { q with edges := m.edgesFromTx x (m.radioRest x == 3) }).radioBack x, d.2)
    else (m, none)
  | none => (m, none)

/-- A write of RFx_OVPWR re-enables chains (R251, R258). -/
def Mach.ovpwrClear (m : Mach) (x : Nat) (v : W32) : Mach :=
  let m1 := m.setReg (RFx_OVPWR x) (m.reg (RFx_OVPWR x) &&& ~~~v)
  if m.bit (RFx_STAT x) fRFx_STAT_ID_READING then m1 else m1.txValid x

/-! ### Slots of a radio (R79, R311, R771) -/

/-- Whether a slot occurs in the beat of number `b` (R57, R771). -/
def slotOccurs (a : Bank) (s : Slot) (b : Nat) : Bool :=
  if s.every ≤ 1 then s.beat == b % (4 * a.cycle)
  else s.beat == b % 4 && b / 4 % s.every == s.phase

/-- The slots of a radio in table order. -/
def Mach.slotsOf (m : Mach) (x : Nat) : List Slot := m.act.slots.filter fun s => s.radio == x

/-- Whether a slot's DEP names a task that overran (R79). -/
def Mach.depOverrun (m : Mach) (s : Slot) : Bool :=
  s.dep.getLsbD 15 && m.arm.overran.contains (s.dep.toNat / 64 % 16, s.dep.toNat % 64)

/-- Whether a status counts as a slip (R311). -/
def slipStatus (st : Nat) : Bool := st == 1 || decide (3 ≤ st ∧ st ≤ 8)

/-- A slot of beat `b` ends with a status: WMAC_SEQx_SLOTLAST and WMAC_SEQx_SLOTCNT (R311, R338). -/
def Mach.slotMark (m : Mach) (x st b : Nat) (s : Slot) : Mach :=
  let a := WMAC_SEQx_SLOTLAST x
  let m1 := (((m.wr a fWMAC_SEQx_SLOTLAST_STATUS st).wr a fWMAC_SEQx_SLOTLAST_KIND s.kind).wr a
    fWMAC_SEQx_SLOTLAST_BEAT (b % (4 * m.act.cycle))).wr a fWMAC_SEQx_SLOTLAST_START s.start
  if st = 0 then m1.count (WMAC_SEQx_SLOTCNT x) fWMAC_SEQx_SLOTCNT_STARTED
  else if slipStatus st then m1.count (WMAC_SEQx_SLOTCNT x) fWMAC_SEQx_SLOTCNT_SLIPPED
  else m1

/-- Whether a radio is on its way to its rest state (R227). -/
def Mach.radioReturns (m : Mach) (x : Nat) : Bool := (m.getRadio x).moving.isSome && (m.getRadio x).tx.isNone

/-- Whether a slot falls while its radio is OFF, in SLEEP, or on its way to its rest state (R227). -/
def Mach.radioOff (m : Mach) (x : Nat) : Bool := (m.getRadio x).mode != 2 || decide (m.radioState x < 2) || m.radioReturns x

/-! ### Calibrations (R233 to R241, R285) -/

/-- A CAL slot at place `i` of the radio's table ends with a status, as every slot does (R311; SLIPPED where it is skipped, DEDUCED,
log 75). -/
def Mach.calSlotMark (m : Mach) (x st i : Nat) : Mach :=
  match (m.slotsOf x)[i]? with
  | some s => m.slotMark x st m.beat s
  | none => m

/-- A staged channel takes effect at the start of a RETUNE whose slot began in frame `f`, with the static puncturing (R241, R272,
R285). -/
def Mach.chanApply (m : Mach) (x f : Nat) : Mach :=
  if m.bit (RFx_STAT x) fRFx_STAT_CHAN_PENDING ∧ m.reg64 (RFx_CHANF_LO x) (RFx_CHANF_HI x) % 2 ^ 46 ≤ f then
    let m1 := (m.wr (RFx_STAT x) fRFx_STAT_CHAN_PENDING 0).radioMod x fun r =>
      { r with chan := m.reg (RFx_CHAN x), punct := (m.reg (BBx_PUNCT x)).setWidth 16 }
    if x = 0 then m1 else (m1.wr (BBx_STRSTAT 1) fBBx_STRSTAT_CONV 0).wr (BBx_STRSTAT 2) fBBx_STRSTAT_CONV 0
  else m

/-- Begin the calibration of a CAL slot. -/
def Mach.calBegin (m : Mach) (x : Nat) (w : CalWait) : Mach :=
  let m1 := if w.kind = 1 then (m.chanApply x w.frame).wr (RFx_STAT x) fRFx_STAT_LOCK 0 else m
  (((m1.calSlotMark x 0 w.ix).wr (RFx_STAT x) fRFx_STAT_CAL_KIND w.kind).radioMod x fun r =>
    { r with cal := some w.kind, calWait := none, settling := r.settling || w.kind == 1 }).radioGo x 5

/-- Begin a calibration that waits, where its radios are free (R238): XBAND needs M and H at once. -/
def Mach.calTry (m : Mach) (x : Nat) : Mach :=
  match (m.getRadio x).calWait with
  | some w =>
    if w.kind = 7 then
      match (m.getRadio 1).calWait, (m.getRadio 2).calWait with
      | some a, some b =>
        if a.kind = 7 ∧ b.kind = 7 ∧ !m.radioBusy 1 ∧ !m.radioBusy 2 then (m.calBegin 1 a).calBegin 2 b else m
      | _, _ => m
    else if m.radioBusy x then m else m.calBegin x w
  | none => m

/-- A CAL slot reaches START (R227, R238): slot `i` of the radio's table. -/
def Mach.calSlot (m : Mach) (x i : Nat) : Mach :=
  match (m.slotsOf x)[i]? with
  | some s =>
    if s.kind ≠ 5 ∨ !m.actValid ∨ !slotOccurs m.act s m.beat ∨ (m.getRadio x).cal.isSome then m
    else if m.depOverrun s then m.calSlotMark x 3 i
    else if m.inHold then m.calSlotMark x 4 i
    else if m.radioOff x then m.calSlotMark x 5 i
    else (m.radioMod x fun r => { r with calWait := some ⟨s.param, i, m.frame⟩ }).calTry x
  | none => m

/-- START + LATEST passes with the radio busy (R238): XBAND is skipped on both radios. -/
def Mach.calSkip (m : Mach) (x : Nat) : Mach :=
  let y := m.calTry x
  match (y.getRadio x).calWait with
  | some w =>
    y.forEach (if w.kind = 7 then [1, 2] else [x]) fun z r =>
      ((z.radioMod r fun q => { q with calWait := none }).count (RFx_CALk r w.kind) fRFx_CALk_SKIPS).calSlotMark r 1
        (((z.getRadio r).calWait.map fun v => v.ix).getD w.ix)
  | none => y

/-- The next calibration of the start sequence (R236). -/
def calNext (x kind : Nat) : Option Nat := if kind < 6 then some (kind + 1) else if kind = 6 ∧ x ≠ 0 then some 7 else none

/-- The start sequence ends: the radio is left in Sleep, or follows the mode where a beat has started already (R236). -/
def Mach.calLeave (m : Mach) (x : Nat) : Mach :=
  let m1 := ((m.radioMod x fun r => { r with startCal := false, moving := none, next := [] }).wr (RFx_STAT x) fRFx_STAT_STATE 1).wr
    (RFx_STAT x) fRFx_STAT_LOCK 0
  if m.tim.started then m1.radioRelax x else m1

/-- One radio's calibration completes: age and temperature change start anew (R234, R239), and a radio that has not turned to Tx since
its lock returns to rest. -/
def Mach.calMark (m : Mach) (x kind : Nat) : Mach :=
  let m1 := ((m.wr (RFx_CALk x kind) fRFx_CALk_AGE 0).wr (RFx_CALk x kind) fRFx_CALk_DT 0).radioMod x fun r =>
    { r with calTemp := tabSet 0 r.calTemp kind r.temp, cal := none, stale := r.stale.filter fun k => k != kind,
             settling := if kind = 1 then false else r.settling }
  let m2 := if kind = 1 then m1.wr (RFx_STAT x) fRFx_STAT_LOCK 1 else m1
  if (m.getRadio x).startCal then
    match calNext x kind with
    | some k => (m2.wr (RFx_STAT x) fRFx_STAT_CAL_KIND k).radioMod x fun r => { r with cal := some k }
    | none => m2.calLeave x
  else if (m.getRadio x).txOn then m2
  else m2.radioGo x (m2.radioRest x)

/-- The radios that a radio's calibration runs on: XBAND on M and H together (R233). -/
def Mach.calRadios (m : Mach) (x : Nat) : List Nat := if (m.getRadio x).cal = some 7 then [1, 2] else [x]

/-- A calibration completes (R234, R236, R285). -/
def Mach.calDone (m : Mach) (x : Nat) : Mach :=
  match (m.getRadio x).cal with
  | some 7 =>
    if ((m.getRadio 1).cal, (m.getRadio 2).cal) = (some 7, some 7) then
      let m1 := ((m.calMark 1 7).calMark 2 7)
      (((m1.wr (BBx_STRSTAT 1) fBBx_STRSTAT_CONV 1).wr (BBx_STRSTAT 2) fBBx_STRSTAT_CONV 1).bbMod 1
        (fun b => { b with degraded := false })).bbMod 2 (fun b => { b with degraded := false })
    else m
  | some k => m.calMark x k
  | none => m

/-- The start sequence begins on a radio, on the channel in RFx_CHAN with its static puncturing (R236, R241, R272). -/
def Mach.calStart (m : Mach) (x : Nat) : Mach :=
  ((((m.wr (RFx_STAT x) fRFx_STAT_STATE 5).wr (RFx_STAT x) fRFx_STAT_CAL_KIND 0).wr (RFx_STAT x) fRFx_STAT_LOCK 1).wr (RFx_STAT x)
    fRFx_STAT_CHAN_PENDING 0).radioMod x fun r =>
      { r with cal := some 0, startCal := true, chan := m.reg (RFx_CHAN x), punct := (m.reg (BBx_PUNCT x)).setWidth 16 }

/-- Calibration ages grow at a frame start (R239). -/
def Mach.calAge (m : Mach) : Mach :=
  m.forEach [0, 1, 2] fun x r => x.forEach (List.range 8) fun y k => y.count (RFx_CALk r k) fRFx_CALk_AGE

/-- CAL_STALE for a kind whose temperature change exceeds STALE_DT, once until it no longer does or the calibration completes (R239). -/
def Mach.staleCheck (m : Mach) (x : Nat) : Mach :=
  m.forEach [2, 4, 5] fun y k =>
    if y.rd (RFx_CTL x) fRFx_CTL_STALE_DT < y.rd (RFx_CALk x k) fRFx_CALk_DT then
      if (y.getRadio x).stale.contains k then y
      else (y.radioMod x fun r => { r with stale := k :: r.stale }).event 0x0502 x [(1, k)]
    else y.radioMod x fun r => { r with stale := r.stale.filter fun j => j != k }

/-- The radio's die temperature (R239). -/
def Mach.radioTemp (m : Mach) (x : Nat) (t : Int) : Mach :=
  ((m.radioMod x fun r => { r with temp := t }).forEach (List.range 8) fun y k =>
    y.wr (RFx_CALk x k) fRFx_CALk_DT (min 255 (t - tabGet 0 (m.getRadio x).calTemp k).natAbs)).staleCheck x

/-- A write of RFx_CTL (R223, R239). -/
def Mach.radioCtl (m : Mach) (x : Nat) (v : W32) : Mach := (m.modeWrite x v).staleCheck x

/-! ### Identity buses (R244 to R247) -/

/-- The address indexes that a radio's bus uses (R244). -/
def busAddrs (k : Nat) : List Nat :=
  match k with
  | 0 => [0, 4]
  | 1 => [0, 1, 4, 5]
  | _ => [0, 1, 2, 3, 4, 5, 6, 7]

/-- A read of the bus begins with its first memory (R247, step 2 on). -/
def Mach.idBegin (m : Mach) (k : Nat) : Mach :=
  (((m.setReg (RFx_TXVALID k) 0).wr (IDM_BUSk_STAT k) fIDM_BUSk_STAT_READING 1).wr (RFx_STAT k) fRFx_STAT_ID_READING 1).busMod k
    fun b => { b with reading := some 0, wait := false, stuck := false }

/-- A read of the bus is asked for: a PPDU in progress finishes first (R247, step 1). -/
def Mach.idStart (m : Mach) (k : Nat) : Mach :=
  if m.radioBusy k then m.busMod k fun b => { b with wait := true } else m.idBegin k

/-- The radio becomes free: what waited for it begins (R238, R247). -/
def Mach.radioFree (m : Mach) (x : Nat) : Mach :=
  let m1 := if (m.getBus x).wait ∧ !m.radioBusy x then m.idBegin x else m
  m1.calTry x

/-- IDM_BUSk_CTL.RESCAN (R246). -/
def Mach.idRescan (m : Mach) (k : Nat) : Mach := (m.wr (IDM_BUSk_CTL k) fIDM_BUSk_CTL_RESCAN 1).idStart k

/-- An edge on IDxHP_N starts its 1 ms, or ends one that has gone back (R246). -/
def Mach.hpEdge (m : Mach) (k : Nat) (level : Bool) : Mach :=
  m.busMod k fun b => { b with edge := if level = m.bit (IDM_BUSk_STAT k) fIDM_BUSk_STAT_HP then none else some level }

/-- The toggle is accepted (R246, R247). -/
def Mach.hpAccept (m : Mach) (k : Nat) : Mach :=
  match (m.getBus k).edge with
  | some l =>
    let m1 := ((m.wr (IDM_BUSk_STAT k) fIDM_BUSk_STAT_HP (if l then 1 else 0)).count (IDM_BUSk_CNT k)
      fIDM_BUSk_CNT_HPTOGGLES).busMod k fun b => { b with edge := none }
    if (m1.getBus k).reading.isSome then m1.idBegin k else m1.idStart k
  | none => m

/-- A memory's read ends (R245, R247, R250, R251): `ack` whether the address acknowledged, `bytes` what was read. -/
def Mach.idRead (m : Mach) (k : Nat) (ack : Bool) (bytes : List Byte) : Mach :=
  let b := m.getBus k
  match b.reading with
  | none => m
  | some i =>
    let a := (busAddrs k).getD i 0
    let rec_ := if ack then slice 0 bytes 0 256 else []
    let code := if !ack then 1 else if b.stuck then 2 else idValidate k a rec_
    let flag (r : W32) (lo : Nat) (v : Bool) : W32 := if v then r ||| (1#32 <<< (lo + a)) else r &&& ~~~(1#32 <<< (lo + a))
    let m1 := (m.setReg (IDM_BUSk_STAT k) (flag (flag (m.reg (IDM_BUSk_STAT k)) 0 ack) 8 (code == 0))).wr (IDM_BUSk_ERR k)
      (fIDM_BUSk_ERR_CODEa a) code
    let m2 := (m1.count (IDM_BUSk_CNT k) fIDM_BUSk_CNT_READS).count (IDM_BUSk_CNT k) fIDM_BUSk_CNT_FAILS
      (if code = 0 then 0 else 1)
    let last := decide ((busAddrs k).length ≤ i + 1)
    let m3 := m2.busMod k fun b => { b with reading := if last then none else some (i + 1), stuck := false,
                                            recs := tabSet [] b.recs a rec_ }
    if last then
      ((((m3.wr (IDM_BUSk_STAT k) fIDM_BUSk_STAT_READING 0).wr (RFx_STAT k) fRFx_STAT_ID_READING 0).wr (IDM_BUSk_CTL k)
        fIDM_BUSk_CTL_RESCAN 0).txValid k).event 0x0503 k []
    else m3

/-- A bus held low for 1 ms is freed: a bus error for the memory being read (R245). -/
def Mach.idStuck (m : Mach) (k : Nat) : Mach := m.busMod k fun b => { b with stuck := b.reading.isSome }

end Sys2Proof.Machine
end

