-- ==== Sys2Proof/Machine/NvmOps.lean ====
section
/-! DEFINITION. Block NVM (R527 to R535) with the lantern's copy of the settings (R405), and the check channels of block CHK
(R536 to R541). -/

namespace Sys2Proof.Machine

/-! ### The armature pool (R527, R529) -/

/-- A pool slot: 0 to 3 store, 4 fallback, 5 pending fallback. -/
def NvSlot.zero : NvSlot := ⟨[], 0⟩
def Mach.nvSlot (m : Mach) (k : Nat) : NvSlot := tabGet NvSlot.zero m.nvm.slots k

/-- The address of a pool unit of 64 KiB (R527). -/
def unitAddr (u : Nat) : Nat := 0x100000 + 0x10000 * u

/-- The pool units in use. -/
def Mach.poolUsed (m : Mach) : List Nat := (m.nvm.slots.map fun e => e.2.units).flatten

/-- Show the pool and the slots (R548). -/
def Mach.poolShow (m : Mach) : Mach :=
  let u := m.poolUsed.length
  let bits := ((List.range 6).map fun k => if (m.nvSlot k).units = [] then 0 else 2 ^ k).sum
  ((m.wr NVM_POOL fNVM_POOL_USED u).wr NVM_POOL fNVM_POOL_FREE (176 - u)).wr NVM_STAT fNVM_STAT_SLOTS bits

/-- Free a slot. -/
def Mach.nvFree (m : Mach) (k : Nat) : Mach :=
  (m.nvmMod fun x => { x with slots := tabSet NvSlot.zero x.slots k NvSlot.zero }).poolShow

/-- The units an image of a length takes. -/
def poolNeeds (len : Nat) : Nat := (len + 0xFFFF) / 0x10000

/-- Whether the pool has room for an image once a slot's previous image is freed (R529). -/
def Mach.poolRoom (m : Mach) (k len : Nat) : Bool :=
  poolNeeds len + (m.poolUsed.length - (m.nvSlot k).units.length) ≤ 176

/-- Write the chunks of an image to pool units. -/
def Mach.unitWrites (m : Mach) : List Nat → List Byte → Mach
  | [], _ => m
  | u :: r, l => (m.nvmBytes (unitAddr u) (codesOf (l.take 0x10000))).unitWrites r (l.drop 0x10000)

/-- Store an image in a slot, freeing its previous one; the lowest free units are taken (DESIGN CHOICE, log 25). -/
def Mach.nvStore (m : Mach) (k : Nat) (l : List Byte) : Mach :=
  let m1 := m.nvFree k
  let us := ((List.range 176).filter fun u => !(m1.poolUsed.contains u)).take (poolNeeds l.length)
  ((m1.unitWrites us l).nvmMod fun x => { x with slots := tabSet NvSlot.zero x.slots k ⟨us, l.length⟩ }).poolShow

/-- The data bytes of words read: a poisoned word gives its data bits as they stand. -/
def rawBytes : List Read → List Byte
  | [] => []
  | x :: r => datumBytes (codeData x.code) ++ rawBytes r

/-- Read `n` bytes of non-volatile memory from a word boundary. -/
def Mach.nvBytes (m : Mach) (a n : Nat) : Mach × List Byte :=
  let r := m.nvmReads a ((n + 15) / 16)
  (r.1, (rawBytes r.2).take n)

/-- Read pool units up to a length. -/
def Mach.unitReads (m : Mach) : List Nat → Nat → Mach × List Byte
  | [], _ => (m, [])
  | u :: r, n =>
    let x := m.nvBytes (unitAddr u) (min n 0x10000)
    let y := x.1.unitReads r (n - 0x10000)
    (y.1, x.2 ++ y.2)

/-- Read a slot's image. -/
def Mach.nvLoad (m : Mach) (k : Nat) : Mach × List Byte := m.unitReads (m.nvSlot k).units (m.nvSlot k).len

/-- Move the image of one slot to another, freeing what that held (R77). -/
def Mach.nvMove (m : Mach) (src dst : Nat) : Mach :=
  let s := m.nvSlot src
  (m.nvmMod fun x => { x with slots := tabSet NvSlot.zero (tabSet NvSlot.zero x.slots dst s) src NvSlot.zero }).poolShow

/-- The indexes of the code words that a byte store lists. -/
def listedWords : List Host.Cell → List Nat
  | [] => []
  | (a, _) :: r => let l := listedWords r; if l.contains (a / 18) then l else a / 18 :: l

/-- Scrub non-volatile memory: corrected words are written back (R530). Words not listed hold zero, a clean word. -/
def Mach.nvmScrub (m : Mach) : Mach :=
  m.forEach (listedWords m.nvm.cells) fun x i =>
    let r := x.nvmRead (16 * i)
    match classify (storeGet x.nvm.cells i) with
    | .corrected v => r.1.nvmWrite (16 * i) v
    | _ => r.1

/-! ### The regulatory record and the settings lock (R405, R531 to R535) -/

/-- The regulatory record's 128 bytes. -/
def Mach.regRecord (m : Mach) : List Byte :=
  ((List.range 32).map fun j => bytesLE 4 (m.reg (NVM_REGRECj j)).toNat).flatten

/-- NVM_STAT.REG_OK shows whether MAGIC and VERSION are right (R548). -/
def Mach.regShow (m : Mach) : Mach := m.wr NVM_STAT fNVM_STAT_REG_OK (if m.regOk then 1 else 0)

/-- The lantern takes its copy of the record's MESH part and of the mesh RWL registers (R405). -/
def Mach.copyTake (m : Mach) : Mach :=
  let c := slice 0 m.regRecord 0x44 28
  let t := meshLockedRegs.foldl (fun t a => tabSet (regReset a) t a (m.reg a)) []
  m.mradMod fun r => { r with copy := c, copyOk := m.regOk, copyRegs := t }

/-- The start of the settings image (R527). -/
def nvmSettings : Nat := 0xF00000

/-- A write of NVM_REGRECj: RWL; before the lock it reaches non-volatile memory, where the record opens the settings image
(DEDUCED, log 26), and the lantern refreshes its copy (R405, R532). -/
def Mach.regrecWrite (m : Mach) (j : Nat) (v : W32) : Mach :=
  let m1 := (m.plainWrite (NVM_REGRECj j) v).regShow
  if m.locked then m1
  else
    let w := slice 0 m1.regRecord (j / 4 * 16) 16
    let m2 := m1.nvmBytes (nvmSettings + j / 4 * 16) (codesOf w)
    if m2.lanternOn then m2.copyTake else m2

/-- The offsets of a register row's copies. -/
def dimOffs : List (Nat × Nat) → List Nat
  | [] => [0]
  | (st, n) :: r => ((List.range n).map fun i => (dimOffs r).map fun o => st * i + o).flatten

/-- The addresses of the registers of a block that a test on rows picks, in rising offset. -/
def blockRegs (b : Nat) (p : RegRow → Bool) : List Nat :=
  (((blockRows b ++ rowsTail).filter p).map fun r => (dimOffs r.dims).map fun o => 0x10000 * b + r.off + o).flatten

/-- Every RWL register, in BAR0 order (R531). -/
def lockedRegs : List Nat := ((List.range 24).map fun b => blockRegs b fun r => r.rwl != 0).flatten

/-- The settings image without its seal: record, entries (address, value), entry count (R531). -/
def Mach.settingsBody (m : Mach) : List Byte :=
  let e := lockedRegs.map fun a => bytesLE 4 a ++ bytesLE 4 (m.reg a).toNat
  let l := m.regRecord ++ e.flatten ++ bytesLE 4 e.length
  l ++ List.replicate ((16 - l.length % 16) % 16) 0

/-- The lock steps (R531). -/
def Mach.settingsLock (m : Mach) : Mach :=
  if !m.regOk ∨ !m.bit SYS_DOMSTAT fSYS_DOMSTAT_VBAK_GOOD ∨ !m.lanternOn then m.event 0x1602 0 []
  else
    let b := m.settingsBody
    let m1 := m.nvmBytes nvmSettings (codesOf (b ++ sealBlock b))
    let r := m1.nvBytes nvmSettings (b.length + 16)
    if r.2 ≠ b ++ sealBlock b then r.1.event 0x1602 0 []
    else ((r.1.wr NVM_STAT fNVM_STAT_LOCKED 1).copyTake).event 0x1601 0 []

/-- A write of NVM_LOCKKEY: the key twice within one beat locks the settings (R531). -/
def Mach.lockKey (m : Mach) (v : W32) : Mach :=
  if v ≠ 0x4C4F434B ∨ m.locked then m.nvmMod fun x => { x with keyOnce := false }
  else if m.nvm.keyOnce then (m.nvmMod fun x => { x with keyOnce := false }).settingsLock
  else m.nvmMod fun x => { x with keyOnce := true }

/-- The entries of a settings image: address and value. -/
def settingsEntries (l : List Byte) : Nat → List (Nat × W32)
  | 0 => []
  | k + 1 => (numLE (slice 0 l 0 4), BitVec.ofNat 32 (numLE (slice 0 l 4 4))) :: settingsEntries (l.drop 8) k

/-- The length of the settings image without its seal. -/
def settingsLen : Nat := (128 + 8 * lockedRegs.length + 4 + 15) / 16 * 16

/-- At a start the record, and on a locked device every RWL field, come from non-volatile memory while the seal holds; when
it fails the record reads 0 and RWL fields keep their reset values (R532, R533). -/
def Mach.settingsStart (m : Mach) : Mach :=
  if !m.locked then
    let r := m.nvBytes nvmSettings 128
    (r.1.forEach (List.range 32) fun x j =>
      x.setReg (NVM_REGRECj j) (BitVec.ofNat 32 (numLE (slice 0 r.2 (4 * j) 4)))).regShow
  else
    let r := m.nvBytes nvmSettings (settingsLen + 16)
    let b := r.2.take settingsLen
    if r.2 = b ++ sealBlock b then
      ((r.1.wr NVM_STAT fNVM_STAT_SETTINGS_OK 1).forEach (settingsEntries (b.drop 128) lockedRegs.length)
        fun x e => x.setReg e.1 (mergeMask (x.reg e.1) e.2 ((regRow e.1).map (·.rwl) |>.getD 0))).regShow
    else ((r.1.wr NVM_STAT fNVM_STAT_SETTINGS_OK 0).forEach (List.range 32) fun x j => x.setReg (NVM_REGRECj j) 0).regShow

/-- The copy is compared with the locked image and rewritten where it differs (R535). -/
def Mach.copyRepair (m : Mach) : Mach :=
  if m.locked && m.bit NVM_STAT fNVM_STAT_SETTINGS_OK && m.lanternOn then m.copyTake else m

/-- VBAK_GOOD rises (R535, R735). -/
def Mach.vbakRise (m : Mach) : Mach :=
  let m1 := m.wr SYS_DOMSTAT fSYS_DOMSTAT_VBAK_GOOD 1
  (if m.sys.powerGood && m.sys.porst then m1.copyRepair else m1).when m.lanternOn fun x => x.lcRaise 7

/-- VBAK_GOOD falls (R735): the radio refuses transmits from then on. -/
def Mach.vbakFall (m : Mach) : Mach := (m.wr SYS_DOMSTAT fSYS_DOMSTAT_VBAK_GOOD 0).when m.lanternOn fun x => x.lcRaise 7

/-! ### Check channels (R536 to R541) -/

/-- A word of a space; none outside it. `host` gives the host's bytes from the channel's address. -/
def Mach.chkWord (m : Mach) (space a : Nat) : Option (Mach × Read) :=
  match space with
  | 0 => if a + 16 ≤ m.dramTop then some (m.dramRead a) else none
  | 1 => if a + 16 ≤ 0x1C00000 then some (m.sramRead a) else none
  | _ => if a + 16 ≤ 0x1000000 then some (m.nvmRead a) else none

/-- The result of a scan: the device, the bytes, and the status it ends with: 2 DONE, 3 POISON, 4 REFUSED. -/
def Mach.chkScan (space a n : Nat) (acc : List Byte) : Nat → Mach → Mach × List Byte × Nat
  | 0, m => (m, acc, 2)
  | k + 1, m =>
    if n = 0 then (m, acc, 2)
    else match m.chkWord space (a / 16 * 16) with
      | none => (m, acc, 4)
      | some (x, r) =>
        match r.poison with
        | some _ => (x, acc, 3)
        | none =>
          let t := min n (16 - a % 16)
          Mach.chkScan space (a + t) (n - t) (acc ++ slice 0 (datumBytes (codeData r.code)) (a % 16) t) k x

/-- End a scan of channel `c` with bytes and a status: registers, event, flag (R541). -/
def Mach.chkEnd (m : Mach) (c : Nat) (bytes : List Byte) (st : Nat) : Mach :=
  let ctl := m.reg (CHK_Cc_CTL c)
  let res := match crcPoly (getFld ctl fCHK_Cc_CTL_POLY) with
    | some p => if getFld ctl fCHK_Cc_CTL_CHAIN = 1 then
        crcChain p (m.reg64 (CHK_Cc_SEED_LO c) (CHK_Cc_SEED_HI c) % 2 ^ p.width) bytes else crcOf p bytes
    | none => 0
  let m1 := ((((m.setReg64 (CHK_Cc_RES_LO c) (CHK_Cc_RES_HI c) res).wr (CHK_Cc_STAT c) fCHK_Cc_STAT_STATUS st).setReg
    (CHK_Cc_DONE c) (BitVec.ofNat 32 bytes.length)).wr (CHK_Cc_CTL c) fCHK_Cc_CTL_GO 0).wr (CHK_Cc_CTL c) fCHK_Cc_CTL_ABORT 0
  let m2 := m1.event 0x1101 c [(4, (m1.reg (CHK_Cc_STAT c)).toNat), (4, bytes.length)]
  if getFld ctl fCHK_Cc_CTL_EV_EN = 1 then
    m2.sendEvent (getFld ctl fCHK_Cc_CTL_ENGINE) (getFld ctl fCHK_Cc_CTL_TSLOT) (getFld ctl fCHK_Cc_CTL_FLAG) 0
  else m2

/-- A write of CHK_Cc_CTL with GO (R536, R537, R540): channel 7 is BUSY for software. -/
def Mach.chkGo (m : Mach) (c : Nat) (v : W32) : Mach :=
  let m1 := m.setReg (CHK_Cc_CTL c) (mergeMask (m.reg (CHK_Cc_CTL c)) v 0x3BFFFF80)
  if c = 7 then (m.wr (CHK_Cc_STAT c) fCHK_Cc_STAT_STATUS 6)
  else if m.bit (CHK_Cc_CTL c) fCHK_Cc_CTL_GO then m
  else if (crcPoly (getFld v fCHK_Cc_CTL_POLY)).isNone then m1.chkEnd c [] 4
  else if m.reg (CHK_Cc_LEN c) = 0 then m1.chkEnd c [] 2
  else (m1.wr (CHK_Cc_CTL c) fCHK_Cc_CTL_GO 1).wr (CHK_Cc_STAT c) fCHK_Cc_STAT_STATUS 1

/-- What a scan of the first `n` bytes of channel `c` gives; `host` gives the host's bytes where the space is the host's.
Memory is read as it stands when the scan ends (log 27). -/
def Mach.chkRead (m : Mach) (c n : Nat) (host : List Byte) : Mach × List Byte × Nat :=
  let a := m.reg64 (CHK_Cc_ADDR_LO c) (CHK_Cc_ADDR_HI c)
  let space := m.rd (CHK_Cc_CTL c) fCHK_Cc_CTL_SPACE
  if space = 3 then (m, slice 0 host 0 n, 2) else Mach.chkScan space a n [] (n / 16 + 2) m

/-- CHK_Cc_CTL.ABORT: the scan ends at the next word, `n` bytes in (R539). -/
def Mach.chkAbort (m : Mach) (c n : Nat) (host : List Byte) : Mach :=
  if m.rd (CHK_Cc_STAT c) fCHK_Cc_STAT_STATUS = 1 ∧ c < 7 then
    let r := m.chkRead c (min n (m.reg (CHK_Cc_LEN c)).toNat) host
    r.1.chkEnd c r.2.1 (if r.2.2 = 2 then 5 else r.2.2)
  else m

/-- A scan ends (R541). -/
def Mach.chkDone (m : Mach) (c : Nat) (host : List Byte) : Mach :=
  if m.rd (CHK_Cc_STAT c) fCHK_Cc_STAT_STATUS = 1 ∧ c < 7 then
    let r := m.chkRead c (m.reg (CHK_Cc_LEN c)).toNat host
    r.1.chkEnd c r.2.1 r.2.2
  else m

end Sys2Proof.Machine
end

