-- ==== Sys2Proof/Machine/Image.lean ====
section
/-! DEFINITION. The armature image (R50 to R60, R771) and the loader's checks, stage by stage (R63, R64, R66, R68, R237, R318,
R521, R764). -/

namespace Sys2Proof.Machine

/-- Bytes `o` to `o + k - 1` of an image as a little-endian number. -/
def imgLE (l : List Byte) (o k : Nat) : Nat := numLE (slice 0 l o k)

/-- One byte of an image. -/
def imgB (l : List Byte) (o : Nat) : Nat := (l.getD o 0).toNat

/-- A failure: its stage, its code and what INDEX holds (R63, R764). -/
abbrev LoadFail := Nat × Nat × Nat

/-- The first failure of a list of checks. -/
def firstFail : List (Option LoadFail) → Option LoadFail
  | [] => none
  | some f :: _ => some f
  | none :: r => firstFail r

/-- A check that fails with a code and an index. -/
def failIf (c : Bool) (st code ix : Nat) : Option LoadFail := if c then some (st, code, ix) else none

/-- The least offset of a list, as a failure. -/
def failAt (st code : Nat) : List Nat → Option LoadFail
  | [] => none
  | o :: r => some (st, code, r.foldl min o)

/-! ### Stages 1 to 3 (R51, R59, R60) -/

/-- Stage 1: the header (R63). `len` is the length requested. -/
def loadHeader (l : List Byte) (len : Nat) : Option LoadFail :=
  let n := imgLE l 0x08 4
  firstFail [
    failIf (slice 0 l 0 4 != [0x46#8, 0x4A#8, 0x41#8, 0x52#8]) 1 0x10 0x00,
    failIf (imgLE l 0x04 2 != 1) 1 0x11 0x04,
    failIf (imgLE l 0x06 2 != 128) 1 0x11 0x06,
    failIf (imgLE l 0x30 4 != 128) 1 0x11 0x30,
    failIf (n != len || l.length != n || n % 16 != 0 || decide (n < 368) || decide (2 ^ 22 < n) ||
      ((imgB l 0x13).testBit 0 && decide (0xC0000 < n))) 1 0x12 0x08,
    failIf (imgLE l 0x38 4 != n - 240) 1 0x12 0x38,
    failIf (imgLE l 0x3C 4 != n - 224) 1 0x12 0x3C,
    failIf (imgLE l 0x0C 2 != 0x38A8) 1 0x13 0x0C,
    failIf (decide (0xA1 < imgB l 0x0E)) 1 0x14 0x0E,
    failIf (decide (imgB l 0x0F < 0xA1)) 1 0x14 0x0F]

/-- Stage 2: the seal over the bytes before it (R59). -/
def loadSeal (l : List Byte) (sealAt : Nat) : Option LoadFail :=
  failIf (slice 0 l sealAt 16 != sealBlock (l.take sealAt)) 2 0x20 0

/-- Stage 3: the signature block (R60, R61). -/
def Mach.loadSign (m : Mach) (l : List Byte) (sigAt : Nat) : Option LoadFail :=
  let k := imgB l sigAt
  let st := m.reg ARM_KEYSTAT
  let prog := if k = 0 then getFld st fARM_KEYSTAT_PROG0 else getFld st fARM_KEYSTAT_PROG1
  let rev := if k = 0 then getFld st fARM_KEYSTAT_REV0 else getFld st fARM_KEYSTAT_REV1
  let digest := if k = 0 then m.arm.key0 else m.arm.key1
  let pub := slice 0 l (sigAt + 0x10) 97
  firstFail [
    failIf (decide (1 < k) || prog == 0) 3 0x30 0,
    failIf (rev == 1) 3 0x31 0,
    failIf (sha384 pub != digest) 3 0x32 0,
    failIf (!ecdsaP384 pub (sha384 (l.take sigAt)) (slice 0 l (sigAt + 0x80) 48) (slice 0 l (sigAt + 0xB0) 48))
      3 0x33 0]

/-! ### The directory (R52, R53) -/

/-- A directory entry: its number, type, index, offset, length and items. -/
structure Dir where
  no : Nat
  type : Nat
  index : Nat
  off : Nat
  len : Nat
  items : Nat
  deriving DecidableEq, Repr

/-- The directory entries of an image. -/
def dirOf (l : List Byte) : List Dir :=
  (List.range (imgLE l 0x34 2)).map fun i =>
    let o := 128 + 16 * i
    ⟨i, imgLE l o 2, imgLE l (o + 2) 2, imgLE l (o + 4) 4, imgLE l (o + 8) 4, imgLE l (o + 12) 4⟩

/-- The section of a type and index. -/
def dirFind (d : List Dir) (type index : Nat) : Option Dir := d.find? fun e => e.type == type && e.index == index

/-- Whether a type takes a TE as its index. -/
def dirTe (t : Nat) : Bool := t == 1 || t == 2 || t == 3 || t == 9

/-- Whether TYPE and INDEX are allowed (R53). -/
def dirKnown (e : Dir) : Bool :=
  decide (1 ≤ e.type ∧ e.type ≤ 9) && (if dirTe e.type then decide (e.index < 16)
    else if e.type == 4 then decide (e.index < 3) else e.index == 0)

/-- The entry size of a type in bytes (R53). -/
def dirSize (t : Nat) : Nat :=
  match t with
  | 1 => 4 | 2 => 8 | 3 => 32 | 4 => 16 | 5 => 8 | 7 => 16 | 8 => 16 | 9 => 16 | _ => 1

/-- Whether LENGTH and ITEMS are as R53 requires. -/
def dirLens (cyc : Nat) (e : Dir) : Bool :=
  if e.type = 6 then decide (1 ≤ e.len ∧ e.len ≤ 4096)
  else e.len == e.items * dirSize e.type && (match e.type with
    | 1 => decide (e.items ≤ 8192)
    | 2 => e.items == 1024
    | 7 => e.items == 1
    | 9 => e.items == 4 * cyc
    | _ => true)

/-- Whether two sections overlap. -/
def dirOverlap (a b : Dir) : Bool := decide (a.off < b.off + b.len) && decide (b.off < a.off + a.len) && a.len != 0 && b.len != 0

/-- Whether a section is aligned, in bounds, of the right length, and clear of earlier sections. -/
def dirPlaced (l : List Byte) (d : List Dir) (e : Dir) : Bool :=
  e.off % 16 == 0 && decide (128 + 16 * d.length ≤ e.off) && decide (e.off + e.len ≤ imgLE l 0x38 4) && dirLens (imgB l 0x12) e &&
    !(d.any fun x => decide (x.no < e.no) && dirOverlap x e)

/-- The required sections that are missing (R53). -/
def dirMissing (d : List Dir) : List (Nat × Nat) :=
  (if d.any (fun e => e.type == 1) then [] else [(1, 0)]) ++
    ((List.range 16).filter fun n => (dirFind d 1 n).isSome && (dirFind d 3 n).isNone).map (fun n => (3, n)) ++
    ((List.range 3).filter fun r => (dirFind d 4 r).isNone).map (fun r => (4, r)) ++
    (if (dirFind d 5 0).isNone then [(5, 0)] else []) ++ (if (dirFind d 7 0).isNone then [(7, 0)] else []) ++
    ((List.range 16).filter fun n => (dirFind d 3 n).isSome && (dirFind d 9 n).isNone).map (fun n => (9, n))

/-! ### Entries (R56 to R58) -/

/-- A TASKSET entry at an offset. -/
def taskOf (l : List Byte) (te o : Nat) : Task :=
  ⟨te, imgB l o, imgB l (o + 1), imgB l (o + 2), imgB l (o + 3), imgLE l (o + 4) 2, imgB l (o + 6) / 16, imgB l (o + 6) % 16,
   BitVec.ofNat 32 (imgLE l (o + 8) 4), imgLE l (o + 0xC) 4, imgLE l (o + 0x10) 2, imgLE l (o + 0x12) 2, imgLE l (o + 0x14) 2,
   imgLE l (o + 0x16) 2, imgLE l (o + 0x18) 4, imgLE l (o + 0x1C) 4, o⟩

/-- A SLOTTAB entry at an offset. -/
def slotOf (l : List Byte) (r o : Nat) : Slot :=
  ⟨r, imgB l o, imgB l (o + 1) / 16, imgB l (o + 2), imgB l (o + 3), imgLE l (o + 4) 2, imgLE l (o + 6) 2, imgLE l (o + 8) 2,
   imgLE l (o + 0xA) 2, BitVec.ofNat 16 (imgLE l (o + 0xC) 2), imgLE l (o + 0xE) 2, o⟩

/-- The offsets of a section's entries. -/
def Dir.offs (e : Dir) : List Nat := (List.range e.items).map fun i => e.off + i * dirSize e.type

/-- The armature that an image describes. -/
def bankOfImage (l : List Byte) : Bank :=
  let d := dirOf l
  let of (t : Nat) : List Dir := d.filter fun e => e.type == t
  { profile := imgB l 0x10, period := imgB l 0x11, cycle := imgB l 0x12, flags := imgB l 0x13, armId := imgLE l 0x18 8,
    rporder := match dirFind d 7 0 with | some e => imgB l e.off | none => 0x1B
    tasks := ((of 3).map fun e => e.offs.map (taskOf l e.index)).flatten
    slots := ((of 4).map fun e => e.offs.map (slotOf l e.index)).flatten
    memwin := ((of 5).map fun e => e.offs.map fun o =>
      (⟨imgB l o, imgB l (o + 1) / 16, imgB l (o + 1) % 16, imgB l (o + 2), imgLE l (o + 4) 2, o⟩ : MemWin)).flatten
    bounds := ((of 8).map fun e => e.offs.map fun o =>
      (⟨imgLE l o 2, imgB l (o + 2), imgB l (o + 3) == 1, imgLE l (o + 4) 4, imgB l (o + 8), imgB l (o + 9),
        imgLE l (o + 10) 2, imgLE l (o + 12) 4, o⟩ : Bound)).flatten
    budgets := ((of 9).map fun e => (List.range e.items).map fun i =>
      (⟨e.index, i, imgLE l (e.off + 16 * i) 4, imgLE l (e.off + 16 * i + 4) 4, e.off + 16 * i⟩ : Budget)).flatten
    meshTpl := match dirFind d 6 0 with | some e => slice 0 l e.off e.len | none => []
    engs := (of 1).map fun e => e.index
    img := l }

/-! ### Stage 4 (R53, R237, R318, R363, R771) -/

/-- Whether a number is a power of two from 1 to a bound. -/
def powTwo (n top : Nat) : Bool := ([0, 1, 2, 3, 4, 5, 6, 7, 8].any fun k => n == 2 ^ k) && decide (n ≤ top)

/-- The offsets of nonzero bytes among `k` bytes that must be 0. -/
def nonZeros (l : List Byte) (o k : Nat) : List Nat := ((List.range k).map fun i => o + i).filter fun j => imgB l j != 0

/-- Bytes after the end of the text that are not 0. -/
def tailZeros (l : List Byte) : Nat → Nat → List Nat
  | _, 0 => []
  | o, k + 1 => if imgB l o = 0 then nonZeros l (o + 1) k else tailZeros l (o + 1) k

/-- Header fields out of range, reserved bytes included. -/
def rangeHeader (l : List Byte) : List Nat :=
  (if 3 < imgB l 0x10 then [0x10] else []) ++ (if 2 < imgB l 0x11 then [0x11] else []) ++
    (if powTwo (imgB l 0x12) 64 then [] else [0x12]) ++ (if 3 < imgB l 0x13 then [0x13] else []) ++ nonZeros l 0x36 2 ++
    tailZeros l 0x40 64

/-- TASKSET fields out of range (R56). -/
def rangeTask (l : List Byte) (cyc : Nat) (t : Task) : List Nat :=
  (if powTwo t.period (4 * cyc) then [] else [t.place]) ++ (if t.phase < t.period then [] else [t.place + 1]) ++
    (if t.tslot < 64 then [] else [t.place + 2]) ++ (if t.prio < 64 then [] else [t.place + 3]) ++
    (if t.entry < 8192 then [] else [t.place + 4]) ++ nonZeros l (t.place + 7) 1

/-- The duration of a calibration kind in ns (R233). -/
def calNs (k : Nat) : Nat :=
  match k with
  | 0 => 30000 | 1 => 60000 | 2 => 20000 | 3 => 40000 | 4 => 80000 | 5 => 80000 | 6 => 50000 | _ => 120000

/-- The beat period of an image in ns (R51). -/
def periodNs (p : Nat) : Nat := 128000 * 2 ^ p

/-- A slot's period in frames (R771). -/
def Slot.frames (s : Slot) (cyc : Nat) : Nat := if s.every ≤ 1 then cyc else s.every

/-- SLOTTAB fields out of range, and the checks that judge an entry as a whole (R57, R237, R318); templates are numbered 0
to 63 (R347). -/
def rangeSlot (l : List Byte) (b : Bank) (s : Slot) : List Nat :=
  let fine := periodNs b.period / 256
  (if s.beat < (if s.every ≤ 1 then 4 * b.cycle else 4) then [] else [s.place]) ++
    (if s.kind ≤ 5 ∧ imgB l (s.place + 1) % 16 = 0 then [] else [s.place + 1]) ++
    (if s.param ≤ (match s.kind with | 0 => 47 | 4 => 0 | 5 => 255 | _ => 63) then [] else [s.place + 3]) ++
    (if 1 ≤ s.len ∧ s.len ≤ 1024 then [] else [s.place + 4]) ++ (if s.latest ≤ s.len then [] else [s.place + 6]) ++
    (if 1 ≤ s.every ∧ s.every ≤ 4096 then [] else [s.place + 8]) ++ (if s.phase < s.every then [] else [s.place + 10]) ++
    (if s.dep.toNat / 2 ^ 10 % 16 = 0 then [] else [s.place + 12]) ++
    (if s.kind = 5 ∧ (7 < s.param ∨ (s.param = 7 ∧ s.radio = 0) ∨ (s.len - s.latest) * fine < calNs s.param ∨
        (s.param = 7 ∧ !(b.slots.any fun o => o.kind == 5 && o.param == 7 && o.radio + s.radio == 3 && o.beat == s.beat &&
          o.start == s.start && o.len == s.len && o.every == s.every && o.phase == s.phase))) then [s.place] else []) ++
    (if s.kind = 0 ∧ 4 * s.frames b.cycle * periodNs b.period % 1024000 ≠ 0 then [s.place] else [])

/-- MEMWIN, RPORDER, BOUNDS and BUDGETS fields out of range (R58, R363). -/
def rangeRest (l : List Byte) (b : Bank) (d : List Dir) : List Nat :=
  (b.memwin.map fun w =>
    (if w.beat < 4 * b.cycle then [] else [w.place]) ++ (if w.kind ≤ 3 then [] else [w.place + 1]) ++ nonZeros l (w.place + 3) 1 ++
      nonZeros l (w.place + 6) 2).flatten ++
    (match dirFind d 7 0 with | some e => nonZeros l (e.off + 1) 15 | none => []) ++
    (b.bounds.map fun x =>
      (if x.sta < 2048 then [] else [x.place]) ++ (if x.tid < 8 then [] else [x.place + 2]) ++
        (if imgB l (x.place + 3) ≤ 1 then [] else [x.place + 3]) ++ (if x.radio < 3 then [] else [x.place + 9])).flatten ++
    ((d.filter fun e => e.type == 8 && decide (4096 < e.items)).map fun e => e.off) ++
    (b.budgets.map fun x => nonZeros l (x.place + 8) 8).flatten

/-- Padding that is not 0: bytes from the directory's end to the seal that no section covers, and the signature block's. -/
def rangePad (l : List Byte) (d : List Dir) : List Nat :=
  let o := 128 + 16 * d.length
  let sealAt := imgLE l 0x38 4
  let sig := imgLE l 0x3C 4
  (((List.range (sealAt - o)).map fun i => o + i).filter fun j =>
    imgB l j != 0 && !(d.any fun e => decide (e.off ≤ j ∧ j < e.off + e.len))) ++ nonZeros l (sig + 1) 15 ++ nonZeros l (sig + 0x71) 15

/-- A slot's first fine step in its period (R771). -/
def Slot.fine (s : Slot) : Nat := (if s.every ≤ 1 then s.beat else 4 * s.phase + s.beat) * 256 + s.start

/-- Whether two slots of one radio overlap in continuous time, each recurring with its period (R771). -/
def slotsClash (cyc : Nat) (a b : Slot) : Bool :=
  let g := 1024 * Nat.gcd (a.frames cyc) (b.frames cyc)
  let d := (b.fine + g - a.fine % g) % g
  decide (d < a.len) || decide (g - d < b.len)

/-- The later entries of pairs that clash. -/
def laterOf {α : Type} (place : α → Nat) (clash : α → α → Bool) : List α → List Nat
  | [] => []
  | x :: r => ((r.filter fun y => clash x y).map fun y => max (place x) (place y)) ++ laterOf place clash r

/-- Whether two tasks of one TE run in a common beat with one task slot or one priority (R63). -/
def tasksClash (a b : Task) : Bool :=
  a.te == b.te && (a.tslot == b.tslot || a.prio == b.prio) &&
    (let p := max 1 (min a.period b.period); a.phase % p == b.phase % p)

/-- Whether a task runs at a beat index (R56). -/
def Task.runs (t : Task) (b : Nat) : Bool := b % max 1 t.period == t.phase

/-- The beat indexes of the tasks that a slot's DEP names. -/
def Slot.depBeats (s : Slot) (cyc : Nat) : List Nat :=
  let back := if s.dep.getLsbD 14 then 4 * cyc - 1 else 0
  if s.every ≤ 1 then [(s.beat + back) % (4 * cyc)]
  else
    let g := max 1 (Nat.gcd s.every cyc)
    ((List.range cyc).filter fun f => f % g == s.phase % g).map fun f => (4 * f + s.beat + back) % (4 * cyc)

/-- The task a DEP names. -/
def Bank.depTask (b : Bank) (s : Slot) (beat : Nat) : Option Task :=
  b.tasks.find? fun t => t.te == s.dep.toNat / 64 % 16 && t.tslot == s.dep.toNat % 64 && t.tslot != 63 && t.runs beat

/-- ENGDATA words tagged KEY, reserved or POISON (R63). -/
def badWords (l : List Byte) (e : Dir) : List Nat :=
  (List.range 1024).filterMap fun i =>
    let t := imgB l (e.off + 8 * i + 7) / 16
    if t = 5 ∨ 7 ≤ t then some (e.off + 8 * i) else none

/-- Stage 4 (R63). A DIR_COUNT out of range fails before the directory is read (DESIGN CHOICE, log 71). -/
def loadStructure (l : List Byte) : Option LoadFail :=
  let n := imgLE l 0x34 2
  if imgLE l 0x38 4 < 128 + 16 * n then some (4, 0x40, 0x3FFFFF)
  else if n = 0 ∨ 64 < n then some (4, 0x43, 0x34)
  else
    let d := dirOf l
    let b := bankOfImage l
    firstFail [
      failAt 4 0x40 ((d.filter fun e => !dirKnown e || d.any fun x => decide (x.no < e.no) && x.type == e.type && x.index == e.index).map
        fun e => e.no),
      failAt 4 0x41 ((d.filter fun e => !dirPlaced l d e).map fun e => e.no),
      (match dirMissing d with | (t, i) :: _ => some (4, 0x42, i * 65536 + t) | [] => none),
      failAt 4 0x43 (rangeHeader l ++ (b.tasks.map (rangeTask l b.cycle)).flatten ++ (b.slots.map (rangeSlot l b)).flatten ++
        rangeRest l b d ++ rangePad l d),
      failAt 4 0x44 (laterOf (fun s => s.place) (fun x y => x.radio == y.radio && slotsClash b.cycle x y) b.slots),
      failAt 4 0x45 (laterOf (fun t => t.place) tasksClash b.tasks),
      failAt 4 0x46 ((b.slots.filter fun s => s.dep.getLsbD 15 && !((s.depBeats b.cycle).all fun x => (b.depTask s x).isSome)).map
        fun s => s.place),
      failAt 4 0x47 (((d.filter fun e => e.type == 2).map (badWords l)).flatten)]

/-! ### Stage 5 (R63, R77) -/

/-- Whether a class order is a permutation of 0 to 3. -/
def orderOk (o : Nat) : Bool := [0, 1, 2, 3].all fun c => [o % 4, o / 4 % 4, o / 16 % 4, o / 64 % 4].contains c

/-- Stage 5: `fb` when destination or source is a fallback slot, `any` when every valid period passes (R63, R77). -/
def Mach.loadContract (m : Mach) (l : List Byte) (fb any : Bool) : Option LoadFail :=
  firstFail [
    failIf (imgLE l 0x14 4 != (m.reg ARM_CORNERREV).toNat) 5 0x50 0x14,
    failIf (!any && imgB l 0x11 != m.rd ARM_PLINTH fARM_PLINTH_PERIOD) 5 0x51 0x11,
    failIf ((imgB l 0x13).testBit 0 != fb) 5 0x52 0x13,
    failIf (fb && imgB l 0x10 != 2) 5 0x52 0x10,
    (match dirFind (dirOf l) 7 0 with | some e => failIf (!orderOk (imgB l e.off)) 5 0x53 e.off | none => none)]

/-! ### Stage 6 (R64, R66, R68, R521) -/

/-- The slower corner of a profile (R66, R68): issue rate, LDPC rates of H, M and L in hundredths of G per second; latencies
in ns; the cipher in hundredths of ns per block. -/
structure Corner where
  rate : Nat
  disp : Nat
  sram : Nat
  dram : Nat
  hash : Nat
  lpm : Nat
  ciph : Nat
  ldpcH : Nat
  ldpcM : Nat
  ldpcL : Nat
  deriving DecidableEq, Repr

/-- The corner table, revision 0x0000_0103 (R66). -/
def cornerOf (profile : Nat) : Corner :=
  match profile with
  | 0 => ⟨200, 200, 40, 160, 30, 60, 100, 2800, 1800, 240⟩
  | 1 => ⟨170, 235, 47, 175, 35, 71, 118, 2380, 1530, 204⟩
  | 2 => ⟨130, 310, 62, 220, 46, 92, 154, 1820, 1170, 156⟩
  | _ => ⟨60, 670, 133, 300, 100, 200, 333, 840, 540, 72⟩

/-- A quotient rounded up. -/
def ceilDiv (a b : Nat) : Nat := (a + b - 1) / b

/-- A task's worst time in ns (R64, R69). -/
def Corner.taskNs (c : Corner) (t : Task) : Nat :=
  ceilDiv ((t.issue + 6) * 100) c.rate + t.nSram * c.sram + t.nDram * c.dram + t.nHash * c.hash + t.nLpm * c.lpm +
    ceilDiv (t.nCiph * c.ciph) 100

/-- The tasks of a TE that run at a beat index. -/
def Bank.tasksAt (b : Bank) (e beat : Nat) : List Task := b.tasks.filter fun t => t.te == e && t.runs beat

/-- The sum of the claimed budgets. -/
def budgetSum (l : List Task) : Nat := (l.map fun t => t.budget).sum

/-- When a task is done, in ns from the beat start (R64). -/
def Bank.doneNs (b : Bank) (c : Corner) (t : Task) (beat : Nat) : Nat :=
  let s := b.tasksAt t.te beat
  let res := match b.budgets.find? fun x => x.te == t.te && x.bidx == beat with | some x => x.reserve | none => 0
  let block := ((s.filter fun u => u.tslot != 63 && decide (t.prio < u.prio ∧ u.release < t.release)).map fun u => u.budget).foldl max 0
  t.release * (periodNs b.period / 16) + c.disp + res + block + budgetSum (s.filter fun u => u.tslot == 63 || decide (u.prio ≤ t.prio))

/-- The failures of one engine and beat index in stage 6, in the order of R64: a code and a byte offset for each. -/
def Bank.checkBeat (b : Bank) (c : Corner) (x : Budget) : List (Nat × Nat) :=
  let ns := periodNs b.period
  let s := b.tasksAt x.te x.bidx
  (if budgetSum s ≠ x.claim then [(0x61, x.place)] else []) ++ (if x.reserve < ns / 16 then [(0x62, x.place)] else []) ++
    (if ns < c.disp + x.reserve + budgetSum s then [(0x63, x.place)] else []) ++
    (s.filter fun t => t.tslot != 63 && decide ((t.deadline + 1) * (ns / 16) < b.doneNs c t x.bidx)).map fun t => (0x64, t.place)

/-- The failure of the engines' beats in stage 6: the code that comes first by engine, beat index and the order of R64, at the first
place in image order where that check fails (R64, R764). -/
def Bank.beatsFail (b : Bank) (c : Corner) : Option LoadFail :=
  let all := ((List.range 16).map fun e => ((b.budgets.filter fun x => x.te == e).map (b.checkBeat c)).flatten).flatten
  match all with
  | [] => none
  | (k, _) :: _ => failAt 6 k ((all.filter fun f => f.1 == k).map fun f => f.2)

/-- Whether the dependency of a slot is done in time (R64). -/
def Bank.depOk (b : Bank) (c : Corner) (s : Slot) : Bool :=
  (s.depBeats b.cycle).all fun x => match b.depTask s x with
    | some t => decide (b.doneNs c t x ≤ s.start * (periodNs b.period / 256) + if s.dep.getLsbD 14 then periodNs b.period else 0)
    | none => true

/-- A slot's coded bits that start in a beat of a frame. -/
def Bank.bitsAt (b : Bank) (r f k : Nat) : Nat :=
  ((b.slots.filter fun s => s.radio == r &&
    (if s.every ≤ 1 then (4 * f + k) % (4 * b.cycle) == s.beat else f % s.every == s.phase && s.beat == k)).map fun s => s.kbits * 1024).sum

/-- The lowest beat whose decode does not fit on a radio, and the lowest such radio (R64, R277, R764); `rate` gives the radios' rates. -/
def Bank.decodeFail (b : Bank) (rate : Nat → Nat) : Option LoadFail :=
  let frames := b.slots.foldl (fun n s => Nat.lcm n (max 1 (s.frames b.cycle))) (max 1 b.cycle)
  (List.range (4 * frames)).findSome? fun n =>
    ([0, 1, 2].find? fun r => decide (periodNs b.period * rate r < b.bitsAt r (n / 4) (n % 4) * 100)).map
      fun r => (6, 0x66, r * 2 ^ 20 + n % 2 ^ 20)

/-- The LDPC rate of a radio (R66). -/
def Corner.ldpc (c : Corner) (r : Nat) : Nat := match r with | 0 => c.ldpcL | 1 => c.ldpcM | _ => c.ldpcH

/-- The refresh windows of a channel as (start, end) in fine steps of the cycle, by start. -/
def Bank.windows (b : Bank) (c : Nat) : List (Nat × Nat) :=
  ((b.memwin.filter fun w => w.kind == 0 && w.mask.testBit c).map fun w => (256 * w.beat + w.start, 256 * w.beat + w.start + w.len)).mergeSort
    fun x y => decide (x.1 ≤ y.1)

/-- The gaps between windows walked in order from an end, in fine steps. -/
def gapsFrom : Nat → List (Nat × Nat) → List Nat
  | _, [] => []
  | e, (s, t) :: r => (s - e) :: gapsFrom (max e t) r

/-- The gaps of a channel around the cycle. -/
def Bank.gaps (b : Bank) (c : Nat) : List Nat :=
  let w := b.windows c
  let whole := 1024 * b.cycle
  match w with
  | [] => [whole]
  | (s, _) :: _ => gapsFrom ((w.map fun x => x.2).foldl max 0 - whole) (w ++ [(whole + s, whole + s)])

/-- MEMWIN of a channel (R521). -/
def Mach.memwinFail (m : Mach) (b : Bank) (c : Nat) : Option LoadFail :=
  let fine := periodNs b.period / 256
  let trefi := max 1 (m.rd MEM_REFCTL fMEM_REFCTL_TREFI_NS)
  let whole := 1024 * b.cycle
  let g := b.gaps c
  firstFail [
    failIf (decide ((whole - g.sum) * fine < ceilDiv (32 * whole * fine) trefi * m.rd MEM_REFCTL fMEM_REFCTL_TPBR_NS)) 6 0x67 c,
    failIf (decide (4 * trefi < g.foldl max 0 * fine)) 6 0x67 (c + 4)]

/-- Stage 6 (R64). -/
def Mach.loadBudgets (m : Mach) (b : Bank) : Option LoadFail :=
  let c := cornerOf b.profile
  firstFail (
    failAt 6 0x60 ((b.tasks.filter fun t => decide (t.budget < c.taskNs t)).map fun t => t.place) ::
    b.beatsFail c ::
    [failAt 6 0x65 ((b.slots.filter fun s => s.dep.getLsbD 15 && !b.depOk c s).map fun s => s.place),
     b.decodeFail c.ldpc,
     m.memwinFail b 0, m.memwinFail b 1, m.memwinFail b 2, m.memwinFail b 3])

/-! ### All stages -/

/-- The stages of a load that `want` picks, in order (R63, R76). -/
def Mach.loadCheck (m : Mach) (l : List Byte) (len : Nat) (fb any : Bool) (want : Nat → Bool) : Option LoadFail :=
  let on (k : Nat) (f : Unit → Option LoadFail) : Unit → Option LoadFail := fun u => if want k then f u else none
  let rec go : List (Unit → Option LoadFail) → Option LoadFail
    | [] => none
    | f :: r => match f () with | some x => some x | none => go r
  go [on 1 fun _ => loadHeader l len, on 2 fun _ => loadSeal l (imgLE l 0x38 4), on 3 fun _ => m.loadSign l (imgLE l 0x3C 4),
      on 4 fun _ => loadStructure l, on 5 fun _ => m.loadContract l fb any, on 6 fun _ => m.loadBudgets (bankOfImage l)]

/-! ### Into a bank (R54, R55, R129) -/

/-- An engine's instruction store for a bank: its code from instruction 0, and 0 past it. -/
def placeCode (l : List Byte) (e : Option Dir) (bank : Nat) (t : Tab W32) : Tab W32 :=
  let keep := t.filter fun x => x.1 / 8192 != bank
  match e with
  | some s => (List.range s.items).foldl (fun u i => tabSet 0 u (8192 * bank + i) (BitVec.ofNat 32 (imgLE l (s.off + 4 * i) 4))) keep
  | none => keep

/-- The banked words of an engine from its ENGDATA, encoded (R54). -/
def placeData (l : List Byte) (e : Dir) (bank : Nat) (t : List Host.Cell) : List Host.Cell :=
  (List.range 512).foldl (fun u i => storeSet u (3584 + 512 * bank + i)
    (encodeCode (datumOf (slice 0 l (e.off + 16 * i) 16)))) t

/-- Place a checked image in a bank. An engine without an ENGDATA section keeps what its banked words held: the spec gives them no
content (DESIGN CHOICE, log 70). -/
def Mach.placeImage (m : Mach) (bank : Nat) (l : List Byte) : Mach :=
  let d := dirOf l
  (m.setBank bank (bankOfImage l)).forEach (List.range 16) fun x n => x.teMod n fun t =>
    { t with
      istore := placeCode l (dirFind d 1 n) bank t.istore
      lmem := match dirFind d 2 n with | some e => placeData l e bank t.lmem | none => t.lmem }

/-- Discard a bank's content. -/
def Mach.clearBank (m : Mach) (bank : Nat) : Mach := m.setBank bank Bank.zero

end Sys2Proof.Machine
end

