-- ==== Sys2Proof/Machine/Encoding.lean ====
section
/-! DEFINITION. The encodings of the engine instructions (R146 to R150, R172, R174, R175) and which words are defined
encodings for an engine class (R147, R149, R157 to R159, R163, R168, R177). -/

namespace Sys2Proof.Machine

/-- A number in `k` bits from bit `lo` up of a word. -/
def wordFld (w : W32) (lo k : Nat) : Nat := w.toNat / 2 ^ lo % 2 ^ k

/-- A number read as signed in `k` bits. -/
def sext (k n : Nat) : Int := signedOf k n

/-! ### Formats (R148) -/

def encReg (op : BitVec 6) (rd ra rb : BitVec 5) (fn : BitVec 6) : W32 := op ++ rd ++ ra ++ rb ++ 0#5 ++ fn
def encDiv (rd rr ra rb : BitVec 5) : W32 := 0x02#6 ++ rd ++ ra ++ rb ++ rr ++ 0#6
def encImm (op : BitVec 6) (rd ra : BitVec 5) (imm : BitVec 16) : W32 := op ++ rd ++ ra ++ imm
def encWide (rd : BitVec 5) (imm : BitVec 21) : W32 := 0x0D#6 ++ rd ++ imm
def encHalf (rd : BitVec 5) (hw : BitVec 2) (imm : BitVec 16) : W32 := 0x0E#6 ++ rd ++ 0#3 ++ hw ++ imm
def encField (op : BitVec 6) (rd ra : BitVec 5) (pos len1 : BitVec 6) : W32 := op ++ rd ++ ra ++ pos ++ len1 ++ 0#4
def encFar (op : BitVec 6) (rl rf : BitVec 5) (len1 : BitVec 6) (flag : BitVec 5) (mode : Bool) : W32 :=
  op ++ rl ++ rf ++ len1 ++ flag ++ (if mode then 1#1 else 0#1) ++ 0#4
def encBranch (cond : BitVec 4) (off : BitVec 22) : W32 := 0x20#6 ++ cond ++ off
def encCall (rd : BitVec 5) (off : BitVec 21) : W32 := 0x21#6 ++ rd ++ off
def encTagbr (ra : BitVec 5) (tag : BitVec 4) (neg : Bool) (off : BitVec 16) : W32 :=
  0x23#6 ++ ra ++ tag ++ (if neg then 1#1 else 0#1) ++ off

/-! ### Defined encodings -/

/-- The width of an LC register by its field value; 0 where the field names none (R149). -/
def lcWidth (r : Nat) : Nat := if r < 8 then 8 else if r < 12 then 16 else 0

/-- Registers of one width, on LC (R177). -/
def lcSame : List Nat → Bool
  | [] => true
  | r :: l => lcWidth r != 0 && l.all fun x => lcWidth x == lcWidth r

/-- The ALU group (R152, R177): the unused fields are 0, and on LC the widths fit. -/
def aluDefined (te : Bool) (fn rd ra rb : Nat) : Bool :=
  if fn ≤ 5 ∨ fn = 0xB ∨ fn = 0xC then te || lcSame [rd, ra, rb]
  else if fn ≤ 8 then te || (lcSame [rd, ra] && lcWidth rb != 0)
  else if fn = 9 ∨ fn = 0xA then rb == 0 && (te || lcSame [rd, ra])
  else if fn = 0xD ∨ fn = 0xE then rd == 0 && (te || lcSame [ra, rb])
  else if fn = 0xF then rb == 0 && (te || (lcWidth rd != 0 && lcWidth ra != 0))
  else fn == 0x10 && rb == 0 && te

/-- Whether a word is a defined encoding for the engine class (R147, R150). A REP's place and its successor are judged
where it issues (R174). -/
def defined (te : Bool) (w : W32) : Bool :=
  let op := wordFld w 26 6
  let rd := wordFld w 21 5
  let ra := wordFld w 16 5
  let rb := wordFld w 11 5
  let z5 := wordFld w 6 5
  let fn := wordFld w 0 6
  let imm := wordFld w 0 16
  match op with
  | 0x01 => z5 == 0 && aluDefined te fn rd ra rb
  | 0x02 => fn == 0 && (te || lcSame [rd, ra, rb, z5])
  | 0x04 => te || lcSame [rd, ra]
  | 0x05 => te || lcSame [rd, ra]
  | 0x06 => te || lcSame [rd, ra]
  | 0x07 => te || lcSame [rd, ra]
  | 0x08 => te || lcSame [rd, ra]
  | 0x09 => te || lcSame [rd, ra]
  | 0x0A => te || lcSame [rd, ra]
  | 0x0B => rd == 0 && (te || lcWidth ra != 0)
  | 0x0D => te || lcWidth rd != 0
  | 0x0E => te && wordFld w 18 3 == 0 && !(wordFld w 16 2 == 3 && imm / 4096 != 0)
  | 0x0F => te && imm / 16 == 0 && (imm ≤ 3 || imm == 6)
  | 0x10 => te || (lcWidth rd != 0 && lcWidth ra == 16)
  | 0x11 => te || (lcWidth rd != 0 && lcWidth ra == 16)
  | 0x12 => wordFld w 0 4 == 0 && fieldFits rd ra w
  | 0x13 => wordFld w 0 4 == 0 && fieldFits rd ra w
  | 0x14 => te && wordFld w 0 4 == 0
  | 0x15 => te && wordFld w 0 4 == 0
  | 0x16 => z5 == 0 && fn == 0 && (if te then decide (rd ≤ 1) else rd == 0 && ra == 0 && rb == 0)
  | 0x17 => te && z5 == 0 && (match fn with
      | 0 => ra == 0
      | 1 => rd == 0 && rb == 0
      | 2 => rd == 0
      | _ => false)
  | 0x18 => z5 == 0 && (match fn with
      | 0 => ra == 0 && (te || lcWidth rd == 8)
      | 1 => rd == 0 && (te || lcWidth ra == 8)
      | 2 => te && ra == 0
      | 3 => te && rd == 0
      | _ => false)
  | 0x20 => decide (wordFld w 22 4 ≤ if te then 14 else 12)
  | 0x21 => te || lcWidth rd == 16
  | 0x22 => rb == 0 && z5 == 0 && fn == 0 && (te || (lcWidth rd == 16 && lcWidth ra == 16))
  | 0x23 => te
  | 0x24 => rd == 0 && ra == 0 && z5 == 0 && (match fn with
      | 0 => rb == 0
      | 1 => te && rb == 0
      | 2 => te && decide (rb ≤ 2)
      | 3 => rb == 0
      | 4 => !te && rb == 0
      | _ => false)
  | 0x28 => wordFld w 0 26 == 0
  | 0x29 => rd == 0 && rb == 0 && z5 == 0 && (match fn with
      | 0 => ra == 0
      | 1 => te || lcWidth ra == 8
      | 2 => te || lcWidth ra == 8
      | 3 => ra == 0
      | _ => false)
  | _ => false
where
  /-- The field of EXT and INS lies within the width, 60 on TE (R159). -/
  fieldFits (rd ra : Nat) (w : W32) : Bool :=
    let top := wordFld w 10 6 + wordFld w 4 6 + 1
    if te then decide (top ≤ 60) else lcSame [rd, ra] && decide (top ≤ lcWidth rd)

/-- Whether a word may follow REP: a string instruction or a register MOV, defined for the class (R125, R174). -/
def repeatable (te : Bool) (w : W32) : Bool :=
  defined te w && (wordFld w 26 6 == 0x29 || (wordFld w 26 6 == 0x01 && wordFld w 0 6 == 0xF))

end Sys2Proof.Machine
end

