-- ==== Sys2Proof/Machine/LcOps.lean ====
section
/-! DEFINITION. The lantern core (R138 to R143, R177): its memory, its I/O page (R451, R453), how it issues an instruction, its
faults and interrupts, and its WAIT (R143, R703, R704). -/

namespace Sys2Proof.Machine

/-! ### Power (R143, R703) -/

/-- µs until the earliest LK_AT of the link controller's queue; none where it is empty. -/
def Mach.lkAhead (m : Mach) : Option Nat :=
  m.mlink.queue.foldl (fun b c =>
    let d := (c.at_ + 2 ^ 32 - m.lkNow) % 2 ^ 32
    some (match b with | some x => min x d | none => d)) none

/-! ### The I/O page (R138, R451, R453) -/

/-- The ports that take a write: LK_AT, LK_CMD, MB_SEL, MB_DATA, MB_CTL, LG_DATA, LG_CTL, CC_CTL (R453). -/
def ioPort (a : Nat) : Bool :=
  [0xF304, 0xF308, 0xF340, 0xF344, 0xF348, 0xF380, 0xF384, 0xF3C0].any fun b => b ≤ a && a < b + 4

/-- The offset in block MSH that an I/O address reaches: 0x0000 to 0x02FF, and the tail at 0xFFF0 (R451, R453). -/
def ioOff (a : Nat) : Option Nat :=
  if 0xF000 ≤ a ∧ a < 0xF300 then some (a - 0xF000)
  else if 0xFFF0 ≤ a then some (a - 0xF0F0 + 0xF000)
  else none

/-- Whether LC may read a byte: 0xF400 to 0xFFEF is unmapped (R138, R453). -/
def lcReadable (a : Nat) : Bool := !(decide (0xF400 ≤ a) && decide (a ≤ 0xFFEF))

/-- Whether LC may store a byte: the SRAM and the writable I/O registers (R138). -/
def lcWritable (a : Nat) : Bool :=
  (decide (0xC000 ≤ a) && decide (a < 0xF000)) || ioPort a ||
    (match ioOff a with
     | some o => match regRow (0x10000 * blkMSH + o / 4 * 4) with | some r => r.writable | none => false
     | none => false)

/-- Byte `k` of a register's word. -/
def byteOf (v : W32) (k : Nat) : Byte := BitVec.ofNat 8 (v.toNat / 256 ^ k)

/-- The bytes of the item at the head of a channel (R445). -/
def Mach.itemBytes (m : Mach) (ch : Nat) : List Byte :=
  match (m.getChan ch).visible with
  | it :: _ => (it.map fun w => datumBytes (codeData w.code)).flatten
  | [] => []

/-- The channel that MB_SEL selects. -/
def Mach.mbSel (m : Mach) : Nat := (tabGet 0 m.mlink.ports 0xF340).toNat

/-- A byte of the I/O page as it reads, with what the read does (R453). -/
def Mach.ioRead (m : Mach) (a : Nat) : Mach × Byte :=
  if a = 0xF300 then
    (m.mlinkMod fun l => { l with nowLatch := m.lkNow }, BitVec.ofNat 8 m.lkNow)
  else if 0xF301 ≤ a ∧ a ≤ 0xF303 then (m, BitVec.ofNat 8 (m.mlink.nowLatch / 256 ^ (a - 0xF300)))
  else if 0xF308 ≤ a ∧ a ≤ 0xF30B then (m, 0)
  else if a = 0xF30C then (m, BitVec.ofNat 8 m.mlink.queue.length)
  else if a = 0xF344 then
    (m.mlinkMod fun l => { l with mbPos := l.mbPos + 1 }, (m.itemBytes m.mbSel).getD m.mlink.mbPos 0)
  else if a = 0xF349 then
    (m, BitVec.ofNat 8 ((if m.itemBytes m.mbSel = [] then 0 else 1) +
      if (m.getChan m.mbSel).stored < m.chCap m.mbSel then 2 else 0))
  else if a = 0xF380 then (m, 0)
  else if a = 0xF386 then (m, BitVec.ofNat 8 m.mlink.lseq)
  else if a = 0xF387 then (m, BitVec.ofNat 8 (m.mlink.lseq / 256))
  else if 0xF300 ≤ a ∧ a < 0xF400 then (m, tabGet 0 m.mlink.ports a)
  else match ioOff a with
    | some o =>
      if 0x200 ≤ o ∧ o ≤ 0x203 then
        let m1 := if o = 0x200 then (m.tbRead 4).setReg (TIM_TBk_NS 4) (m.tbView 4 0) else m
        (m1, byteOf (m1.reg (TIM_TBk_NS 4)) (o % 4))
      else (m, byteOf (m.mshView (o / 4 * 4)) (o % 4))
    | none => (m, 0)

/-- MB_CTL.END: on 248 to 251 the item shown is taken, on 252 to 255 the item written is sent (R453). -/
def Mach.mbEnd (m : Mach) : Mach :=
  let ch := m.mbSel
  if 252 ≤ ch then
    (m.chFrom portLC ch (itemWords m.mlink.mbOut)).mlinkMod fun l => { l with mbOut := [] }
  else if 248 ≤ ch then
    (if m.itemBytes ch = [] then m else (m.itemTake ch).1).mlinkMod fun l => { l with mbPos := 0 }
  else m

/-- LG_CTL.COMMIT: the bytes written become a record of the log (R449, R453). -/
def Mach.lgCommit (m : Mach) : Mach :=
  let b := m.mlink.lgBuf
  let i : MItem := ⟨tplB b 3, 0, 0, tplW b 4, 0, tplW b 6, tplW b 8, tplW b 10 + 65536 * tplW b 12, slice 0 b 16 (tplB b 2)⟩
  (m.mlinkMod fun l => { l with lgBuf := [] }).logAppend (tplB b 0 % 16) (tplB b 0 / 16) (tplB b 1) i

/-- A byte written to a port; the side effect comes with the highest byte (R453). -/
def Mach.portWrite (m : Mach) (a : Nat) (v : Byte) : Mach :=
  let p (x : Nat) : Nat := if x = a then v.toNat else (tabGet 0 m.mlink.ports x).toNat
  let keep := m.mlinkMod fun l => { l with ports := tabSet 0 l.ports a v }
  match a with
  | 0xF30B => keep.lkQueue (p 0xF308) (p 0xF309 % 4) (p 0xF30A) (p 0xF30B)
  | 0xF340 => keep.mlinkMod fun l => { l with mbPos := 0, mbOut := [] }
  | 0xF344 => m.mlinkMod fun l => { l with mbOut := l.mbOut ++ [v] }
  | 0xF34B => if p 0xF348 % 2 = 1 then m.mbEnd else m
  | 0xF380 => m.mlinkMod fun l => { l with lgBuf := l.lgBuf ++ [v] }
  | 0xF387 => if p 0xF384 % 2 = 1 then m.lgCommit else m
  | 0xF3C3 =>
    if p 0xF3C0 % 2 = 1 ∧ m.mlink.ccBusy.isNone then
      m.ccmRun (p 0xF3C0 / 2 % 2 == 1) (p 0xF3C0 / 4 % 2 == 1) (p 0xF3C1) (p 0xF3C2)
    else m
  | _ => keep

/-- The byte of a register that LC writes next: the byte held, or the register's own (R453). -/
def Mach.ioHeld (m : Mach) (a : Nat) (now : W32) : Nat :=
  if tabGet 0 m.mlink.ports (0x10000 + a) = 1 then (tabGet 0 m.mlink.ports a).toNat else (byteOf now (a % 4)).toNat

/-- A byte LC stores to the I/O page: a register takes its four bytes with the highest (R453). -/
def Mach.ioWrite (m : Mach) (a : Nat) (v : Byte) : Mach :=
  if ioPort a then m.portWrite a v
  else match ioOff a with
    | some o =>
      if a % 4 = 3 then
        let now := m.mshView (o / 4 * 4)
        let w := m.ioHeld (a - 3) now + 256 * m.ioHeld (a - 2) now + 65536 * m.ioHeld (a - 1) now + 2 ^ 24 * v.toNat
        let m1 := m.mlinkMod fun l =>
          { l with ports := tabErase (tabErase (tabErase l.ports (0x10000 + a - 3)) (0x10000 + a - 2)) (0x10000 + a - 1) }
        m1.mshWrite (o / 4 * 4) (BitVec.ofNat 32 w)
      else m.mlinkMod fun l => { l with ports := tabSet 0 (tabSet 0 l.ports a v) (0x10000 + a) 1 }
    | none => m

/-! ### Memory (R138) -/

/-- Read a byte LC may read. -/
def Mach.lcByte (m : Mach) (a : Nat) : Mach × Byte :=
  if a < 0xC000 then (m, memGet m.lc.code a)
  else if a < 0xF000 then (m, memGet m.lc.sram a)
  else m.ioRead a

/-- Store a byte where LC may store. -/
def Mach.lcStore (m : Mach) (a : Nat) (v : Byte) : Mach :=
  if a < 0xF000 then m.lcMod fun l => { l with sram := memSet l.sram a v } else m.ioWrite a v

/-- The instruction word at a byte address of the code window (R146). -/
def Lc.fetch (l : Lc) (pc : Nat) : W32 := BitVec.ofNat 32 (numLE (memRead l.code pc 4))

/-! ### Faults and interrupts (R141, R142) -/

/-- A fault of LC (R142): pending results land, vector 1 is entered regardless of IE; inside the fault vector LC restarts at
vector 0, counted and logged. A transfer pending at the fault is dropped (DESIGN CHOICE, log 23). -/
def Mach.lcFault (m : Mach) (code : Nat) : Mach :=
  let l := m.lc.landAll
  let m1 := (m.wr ENG_LC_FAULT fENG_LC_FAULT_CODE code).wr ENG_LC_FAULT fENG_LC_FAULT_FPC l.pc
  if l.inFault then
    ((m1.lcMod fun _ => l.restart).count ENG_LC_FAULT fENG_LC_FAULT_RESTARTS).logAppend 3 0 255
      (m1.itemNow 0x04 0 0 0 [BitVec.ofNat 8 code])
  else m1.lcMod fun _ => { l.enter 1 l.pc with st := 1 }

/-- LC_INTERRUPT: an interrupt source fires (R140, R141). -/
def Mach.lcInterrupt (m : Mach) (n : Nat) : Mach :=
  if m.lanternOn && decide (2 ≤ n ∧ n ≤ 7) then (m.lcRaise n).lcTake else m

/-! ### Issue (R92, R96, R147, R177) -/

/-- What an LC instruction does: a fault, or effects with pending writes (distance, target, value), a transfer (taken target
or none), a return from interrupt, or a WAIT. -/
inductive LcRes where
  | bad (code : Nat)
  | good (m : Mach) (ws : List (Nat × PTgt × Nat)) (xfer : Option (Option Nat)) (ret : Bool)
  | sleep
  deriving DecidableEq, Repr

/-- Writes as pending entries. -/
def Lc.pendOf (l : Lc) : Nat → List (Nat × PTgt × Nat) → List Pend
  | _, [] => []
  | k, (d, g, v) :: r => ⟨l.slotNo + d, k, g, BitVec.ofNat 64 v⟩ :: l.pendOf (k + 1) r

/-- The state after a delay slot or an ordinary instruction: the next pc, a transfer, a return (R96, R141). -/
def Lc.next (l : Lc) : Lc :=
  if l.btc = 1 then
    if l.ending = 1 then
      { l with pc := l.savedPc, st := 0, btc := 0, bt := none, ending := 0 }
    else { l with pc := l.bt.getD (l.pc + 4), btc := 0, bt := none }
  else { l with pc := l.pc + 4, btc := l.btc - 1 }

/-- The writes of an instruction; a return from interrupt restores FL for the instruction at its target (R94, R141; DEDUCED,
log 66). -/
def Lc.writes (l : Lc) (ret : Bool) (ws : List (Nat × PTgt × Nat)) : List (Nat × PTgt × Nat) :=
  if ret then ws ++ (List.range 7).map fun k => (3, .flag k, if l.savedFl.getLsbD k then 1 else 0) else ws

/-- The advance after an instruction that issued without fault. -/
def Mach.lcAdvance (m : Mach) (isXfer : Bool) (ws0 : List (Nat × PTgt × Nat)) (xfer : Option (Option Nat)) (ret : Bool) : Mach :=
  (m.lcMod fun l =>
    let ws := l.writes ret ws0
    let x := { l with pend := l.pend ++ l.pendOf l.seq ws, seq := l.seq + ws.length, slotNo := l.slotNo + 1, restarting := false }
    if isXfer then { x with pc := x.pc + 4, btc := 2, bt := xfer.join, ending := if ret then 1 else 0 } else x.next).lcTake

/-- LC enters WAIT in the state MODE.PM names; Bivouac only when no command is queued or the earliest lies 2 ms ahead (R143,
R704). A WAIT with an enabled interrupt pending ends at once (R136). -/
def Mach.lcWait (m : Mach) : Mach :=
  let m1 := m.lcMod fun l => { l.landAll with slotNo := l.slotNo + 1 }
  let m2 := m1.lcMod Lc.next
  if m2.lc.nextIrq.isSome && m2.lc.fl.getLsbD 6 then m2.lcTake
  else
    let ahead := match m.lkAhead with | some d => decide (2000 ≤ d) | none => true
    let eff := if m.lc.pm = 2 && !ahead then 1 else m.lc.pm
    let m3 := (m2.lcMod fun l => { l with st := l.st % 2 + 2 * (eff + 1) }).lanternState (eff + 1)
    m3.when (m.lc.pm != eff) fun x => x.count ENG_LC_STAT fENG_LC_STAT_BIV_REFUSED

/-- Issue the word `w` on LC: nothing happens unless LC issues and `w` is the word at its program counter. LC checks ILLEGAL,
then DSLOT, then LADDR (R151). An interrupt that is due at the boundary comes first (R141). -/
def Mach.lcIssue (m : Mach) (w : W32) (isXfer : Bool) (body : Mach → Lc → LcRes) : Mach :=
  let m0 := m.lcTake.lcMod Lc.landDue
  let l := m0.lc
  if m0.lcIssues && l.pc < 0xC000 && l.fetch l.pc == w then
    if !defined false w then m0.lcFault 8
    else if isXfer ∧ l.btc ≠ 0 then m0.lcFault 9
    else match body m0 l with
      | .bad c => m0.lcFault c
      | .good x ws t ret => x.lcAdvance isXfer ws t ret
      | .sleep => m0.lcWait
  else if m0.lcIssues ∧ 0xC000 ≤ l.pc then m0.lcFault 8
  else m0

/-! ### Instructions (R152 to R177) -/

/-- A register of LC by its field value: b0 to b7 at 0 to 7, p0 to p3 at 8 to 11 (R149). -/
def Lc.get (l : Lc) (r : BitVec 5) : Nat := tabGet 0 l.regs r.toNat

/-- The width of the register a field names. -/
def lcW (r : BitVec 5) : Nat := lcWidth r.toNat

/-- A register write after a distance, at the register's width. -/
def lcReg (d : Nat) (r : BitVec 5) (v : Nat) : Nat × PTgt × Nat := (d, .reg r.toNat, v % 2 ^ lcW r)

/-- Flag writes after a distance. -/
def lcFlags (d : Nat) (l : List (Nat × Bool)) : List (Nat × PTgt × Nat) := l.map fun f => (d, .flag f.1, if f.2 then 1 else 0)

/-- An ALU result as effects. -/
def lcAlu (d : Nat) (rd : Option (BitVec 5)) (r : Alu) (m : Mach) : LcRes :=
  .good m ((match rd with | some x => [lcReg d x r.val] | none => []) ++ lcFlags d r.flags) none false

/-- DIV on LC never traps (R124, R160, R177). -/
def lcDiv (rd rr ra rb : BitVec 5) (m : Mach) (l : Lc) : LcRes :=
  let r := aluDiv (lcW rd) (l.get ra) (l.get rb)
  .good m (lcFlags 12 r.2.2 ++ [lcReg 12 rr r.2.1, lcReg 12 rd r.1]) none false

/-- The addresses an access of a register's width touches (R177). -/
def lcAddrs (r : BitVec 5) (a : Nat) : List Nat := if lcW r = 8 then [a] else [a, (a + 1) % 65536]

/-- Read bytes in order. -/
def Mach.lcBytes (m : Mach) : List Nat → Mach × List Byte
  | [] => (m, [])
  | a :: r => let x := m.lcByte a; let y := x.1.lcBytes r; (y.1, x.2 :: y.2)

/-- LD (R161, R177). -/
def lcLd (rd ra : BitVec 5) (imm : BitVec 16) (m : Mach) (l : Lc) : LcRes :=
  let as := lcAddrs rd ((l.get ra + imm.toNat) % 65536)
  if !as.all lcReadable then .bad 5
  else
    let r := m.lcBytes as
    .good r.1 [lcReg 3 rd (numLE r.2)] none false

/-- ST (R161, R177). -/
def lcSt (rd ra : BitVec 5) (imm : BitVec 16) (m : Mach) (l : Lc) : LcRes :=
  let as := lcAddrs rd ((l.get ra + imm.toNat) % 65536)
  if !as.all lcWritable then .bad 5
  else .good (m.forEach (as.zip (bytesLE 2 (l.get rd))) fun x p => x.lcStore p.1 p.2) [] none false

/-- A string pointer stepped (R175). -/
def lcStep (l : Lc) (a : Nat) : Nat := if l.fl.getLsbD flD then (a + 65535) % 65536 else (a + 1) % 65536

/-- One execution of a string instruction or of a repeated MOV on LC (R175, R177): ps = p1, pd = p2, nc = p3. -/
def lcString (w : W32) (m : Mach) (l : Lc) : LcRes :=
  let ra := BitVec.ofNat 5 (wordFld w 16 5)
  let rd := BitVec.ofNat 5 (wordFld w 21 5)
  let ps := l.get 9
  let pd := l.get 10
  let sps : Nat × PTgt × Nat := (1, .reg 9, lcStep l ps)
  let spd : Nat × PTgt × Nat := (1, .reg 10, lcStep l pd)
  let one : Nat × PTgt × Nat := (1, .reg 11, 1)
  let z (b : Bool) : Nat × PTgt × Nat := (1, .flag flZ, if b then 1 else 0)
  if wordFld w 26 6 = 0x01 then .good m [lcReg 1 rd (l.get ra)] none false
  else match wordFld w 0 6 with
    | 0 =>
      if !lcReadable ps || !lcWritable pd then .bad 5
      else
        let r := m.lcByte ps
        .good (r.1.lcStore pd r.2) [sps, spd] none false
    | 1 => if !lcWritable pd then .bad 5 else .good (m.lcStore pd (BitVec.ofNat 8 (l.get ra))) [spd] none false
    | 2 =>
      if !lcReadable ps then .bad 5
      else
        let r := m.lcByte ps
        if r.2.toNat = l.get ra then .good r.1 [z true, one] none false else .good r.1 [z false, sps] none false
    | _ =>
      if !lcReadable ps || !lcReadable pd then .bad 5
      else
        let r := m.lcByte ps
        let t := r.1.lcByte pd
        if r.2 = t.2 then .good t.1 [z true, sps, spd] none false else .good t.1 [z false, one] none false

/-- The core with an iteration's writes in it: what the repeat step of REP reads nc from (R125, R126). -/
def Lc.applyNow (l : Lc) : List (Nat × PTgt × Nat) → Lc
  | [] => l
  | (_, g, v) :: r => (l.landOne ⟨0, 0, g, BitVec.ofNat 64 v⟩).applyNow r

/-- The core after an iteration: its writes and nc land with the next slot, behind what is pending (R93, R95, R126). -/
def Lc.iterated (l : Lc) (ws : List (Nat × PTgt × Nat)) : Lc :=
  { l with pend := l.pend ++ l.pendOf l.seq ws, seq := l.seq + ws.length, slotNo := l.slotNo + 1, restarting := false }

/-- Up to `k` iterations of a REP's loop; an enabled interrupt is taken between iterations (R125 to R128, R141). -/
def Mach.lcRepLoop (w : W32) : Nat → Mach → Mach
  | 0, m => m
  | k + 1, m =>
    let m0 := m.lcMod Lc.landDue
    match lcString w m0 m0.lc with
    | .bad c => m0.lcFault c
    | .sleep => m0
    | .good x ws _ _ =>
      let nc := ((x.lc.applyNow ws).get 11 + 65535) % 65536
      let y := x.lcMod fun l => l.iterated (ws ++ [(1, .reg 11, nc)])
      if nc = 0 then (y.lcMod fun l => { l with pc := l.pc + 8 }).lcTake
      else if y.lcDue.isSome then y.lcTake
      else Mach.lcRepLoop w k y

/-- REP on LC (R125, R174, R177). -/
def Mach.lcRep (m : Mach) (k : Nat) : Mach :=
  let m0 := m.lcTake.lcMod Lc.landDue
  let l := m0.lc
  let w := l.fetch (l.pc + 4)
  if m0.lcIssues && l.pc < 0xC000 && l.fetch l.pc == 0xA0000000#32 then
    if l.btc ≠ 0 ∨ !repeatable false w then m0.lcFault 8
    else if l.get 11 = 0 then (m0.lcMod fun x => { x with slotNo := x.slotNo + 2, pc := x.pc + 8 }).lcTake
    else Mach.lcRepLoop w k (m0.lcMod fun x => { x with slotNo := x.slotNo + 1 })
  else m0

/-- A transfer to a target, checked when taken (R171). -/
def lcJump (m : Mach) (taken : Bool) (target : Int) (ws : List (Nat × PTgt × Nat)) : LcRes :=
  if !taken then .good m ws (some none) false
  else if 0 ≤ target ∧ target < 0xC000 ∧ target % 4 = 0 then .good m ws (some (some target.toNat)) false
  else .bad 8

/-- B*cond* on LC: offsets count instructions of 4 bytes (R168, R177). -/
def lcBcond (cond : BitVec 4) (off : BitVec 22) (m : Mach) (l : Lc) : LcRes :=
  lcJump m ((condHolds false l.fl cond.toNat).getD false) (l.pc + 4 * off.toInt) []

/-- CALL on LC (R169, R177). -/
def lcCall (rd : BitVec 5) (off : BitVec 21) (m : Mach) (l : Lc) : LcRes :=
  lcJump m true (l.pc + 4 * off.toInt) [lcReg 1 rd (l.pc + 12)]

/-- JR on LC (R169). -/
def lcJr (rd ra : BitVec 5) (m : Mach) (l : Lc) : LcRes := lcJump m true (l.get ra) [lcReg 1 rd (l.pc + 12)]

/-- RDS on LC: FL and MODE (R166, R177). -/
def lcRds (rd i : BitVec 5) (m : Mach) (l : Lc) : LcRes :=
  if i = 0 then .good m [lcReg 1 rd l.fl.toNat] none false
  else if i = 1 then .good m [lcReg 1 rd l.pm] none false
  else .bad 8

/-- WRS on LC (R166, R177). -/
def lcWrs (i ra : BitVec 5) (m : Mach) (l : Lc) : LcRes :=
  if i = 0 then .good m (lcFlags 1 ((List.range 7).map fun k => (k, (l.get ra).testBit k))) none false
  else if i = 1 then .good (m.lcMod fun x => { x with pm := l.get ra % 4 }) [] none false
  else .bad 8

/-- WAIT on LC (R143, R177); PM = 3 is ILLEGAL (R135). -/
def lcWaitRes (l : Lc) : LcRes := if l.pm = 3 then .bad 8 else .sleep

/-- BRK on LC (R129, R145). -/
def lcBrk (m : Mach) : LcRes := if m.bit ENG_LC_CTL fENG_LC_CTL_BRK_EN then .bad 0xA else .good m [] none false

/-- ENG_LC_STAT as it reads: state, power mode and program counter from the core (R145). -/
def Mach.lcStatView (m : Mach) : W32 :=
  let st := if m.lc.restarting then 3 else if m.lc.inFault then 2 else if m.lc.st / 2 = 0 then 0 else 1
  putFld (putFld (putFld (m.reg ENG_LC_STAT) fENG_LC_STAT_STATE st) fENG_LC_STAT_PM (m.lc.st / 2 - 1)) fENG_LC_STAT_PC m.lc.pc

end Sys2Proof.Machine
end

