-- ==== Sys2Proof/Machine/PwrOps.lean ====
section
/-! DEFINITION. Power control of blocks and units (R689 to R700). -/

namespace Sys2Proof.Machine

/-- The 32.768 kHz timer wakes the lantern 2 ms before the earliest LK_AT; with no command queued it wakes nothing (R704). -/
def Mach.bivouacWake (m : Mach) : Mach :=
  if m.rd SYS_DOMSTAT fSYS_DOMSTAT_LANT_STATE = 3 then
    match m.lkAhead with
    | some d =>
      let x := m.elapse (((m.mlink.timer / 2000 + d - 2000) * 2000 - m.mlink.timer + 4) / 5)
      ((x.lanternState 2).count (PWRSTAT blkMSH) fPWRSTAT_WAKES).lcMod fun l => { l with st := l.st % 2 + 4 }
    | none => m
  else m

/-- The units of a block; 0 for a block without units (R693). -/
def pwrUnits (b : Nat) : Nat :=
  if b = blkENG then 16 else if b = blkUPL then 5 else if b = blkCHK then 7 else if b = blkCHN then 2
  else if b = blkIDM then 3 else 0

/-- Whether a block ignores REQ: its state follows a radio's mode or the lantern (R693). -/
def pwrFollows (b : Nat) : Bool := decide (blkRFL ≤ b ∧ b ≤ blkBBH) || b == blkMSH

/-- A power unit of block `b`. -/
def Mach.pwrUnit (m : Mach) (b u : Nat) : PwrUnit := tabGet PwrUnit.zero m.sys.pwr (16 * b + u)

/-- Replace a power unit, and show the block's states in PWRSTAT (R692). -/
def Mach.setPwr (m : Mach) (b u : Nat) (x : PwrUnit) : Mach :=
  let m1 := m.sysMod fun s => { s with pwr := tabSet PwrUnit.zero s.pwr (16 * b + u) x }
  let us := (List.range (pwrUnits b)).map (m1.pwrUnit b)
  let awake := us.foldl (fun k y => min k (if y.gate = 0 then 1 else y.gate)) 3
  ((m1.wr (PWRSTAT b) fPWRSTAT_STATE awake).wr (PWRSTAT b) fPWRSTAT_PENDING (if us.any fun y => y.want.isSome then 1 else 0)).wr
    (PWRSTAT b) fPWRSTAT_GATED (bitsOf (pwrUnits b) fun k => (m1.pwrUnit b k).gate != 0)

/-- Set PWRSTAT.LAST (R692). -/
def Mach.pwrLast (m : Mach) (b k : Nat) : Mach := m.wr (PWRSTAT b) fPWRSTAT_LAST k

/-- Whether a bank gives an engine a task (R694). -/
def Bank.gives (b : Bank) (n : Nat) : Bool := b.tasks.any fun t => t.te == n

/-- Why a unit's entry into Retain (2) or Off (3) is refused (R693, R694). -/
def Mach.pwrBar (m : Mach) (b u req : Nat) : Option Nat :=
  let ok :=
    if b = blkENG ∨ b = blkCHK then true
    else if b = blkUPL then req == 3 && m.rd (UPL_Pp_CFG u) fUPL_Pp_CFG_MODE == 0
    else if b = blkCHN then req == 3 && !m.bit (TIM_GUYp_CTL u) fTIM_GUYp_CTL_EN && !m.bit (CHN_GUYp_STAT u) fCHN_GUYp_STAT_PAIR
    else b == blkIDM && req == 2
  if !ok then some 2
  else if b = blkENG ∧ m.actValid ∧ m.act.gives u then some 1
  else none

/-- The units that a UNITS field selects (R691). -/
def pwrSel (b units : Nat) : List Nat := (List.range (pwrUnits b)).filter fun u => units / 2 ^ u % 2 == 1

/-- Begin a wake: a gated unit starts to wake; one whose entry is under way wakes after it; an ungated one does nothing
(R696, R698). -/
def Mach.pwrWake (m : Mach) (b u : Nat) : Mach :=
  let x := m.pwrUnit b u
  if x.entering.isSome then m.setPwr b u { x with wakeDue := true }
  else if x.gate ≠ 0 then m.setPwr b u { x with waking := true }
  else m

/-- GO with REQ RETAIN (2) or OFF (3): every unit named must allow it, or the request changes nothing (R693 to R695). -/
def Mach.pwrRequest (m : Mach) (b req units : Nat) : Mach :=
  let us := if pwrUnits b = 0 then [0] else pwrSel b units
  match us.findSome? fun u => m.pwrBar b u req with
  | some k => m.pwrLast b k
  | none => m.forEach us fun y u =>
      let x := y.pwrUnit b u
      if x.gate = req then y.pwrLast b 0 else y.setPwr b u { x with want := some req }

/-- GO with REQ ACTIVE wakes the units named (R691, R696). -/
def Mach.pwrActive (m : Mach) (b units : Nat) : Mach := (m.pwrLast b 0).forEach (pwrSel b units) fun x u => x.pwrWake b u

/-- CANCEL withdraws the pending entries (R691). -/
def Mach.pwrCancel (m : Mach) (b : Nat) : Mach :=
  let us := (List.range (pwrUnits b)).filter fun u => (m.pwrUnit b u).want.isSome
  if us.isEmpty then m
  else (m.forEach us fun x u => x.setPwr b u { x.pwrUnit b u with want := none }).pwrLast b 3

/-- Whether a unit's own state shows work under way (R689). -/
def Mach.unitBusy (m : Mach) (b u : Nat) : Bool :=
  if b = blkENG then (m.getTe u).st != .idle || !(m.getTe u).accs.isEmpty
  else if b = blkCHK then m.rd (CHK_Cc_STAT u) fCHK_Cc_STAT_STATUS == 1
  else if b = blkIDM then m.bit (IDM_BUSk_STAT u) fIDM_BUSk_STAT_READING
  else false

/-- A unit with a pending entry reaches Idle: entry begins (R695). -/
def Mach.unitIdle (m : Mach) (b u : Nat) : Mach :=
  let x := m.pwrUnit b u
  match x.want with
  | some g => if m.unitBusy b u then m else m.setPwr b u { x with want := none, entering := some g }
  | none => m

/-- What Off takes from a unit: an engine's local words 0 to 7167 hold NIL at wake, its counters and those of a port 0, its
committed configuration back (R689, R700). -/
def Mach.unitLost (m : Mach) (b u : Nat) : Mach :=
  if b = blkENG then
    (m.teMod u fun t => { Te.zero with istore := t.istore, lmem := t.lmem.filter fun c => 3584 * 18 ≤ c.1 }).setReg
      (ENG_TEn_FCNT u) 0
  else if b = blkUPL then (m.setReg (UPL_Pp_CNT0 u) 0).setReg (UPL_Pp_CNT1 u) 0
  else if b = blkCHN then m.setReg (CHN_GUYp_CNT u) 0
  else m

/-- Entry completes; a wake that met it follows at once (R698, R699). -/
def Mach.entryDone (m : Mach) (b u : Nat) : Mach :=
  let x := m.pwrUnit b u
  match x.entering with
  | some g => (m.setPwr b u { x with gate := g, entering := none, waking := x.wakeDue, wakeDue := false }).pwrLast b
      (if x.wakeDue then 4 else 0)
  | none => m

/-- A link request, or external wake source `src` where WAKEEN enables it, wakes a unit (R692, R696). -/
def Mach.pwrExternal (m : Mach) (b u : Nat) (src : Option Nat) : Mach :=
  match src with
  | none => m.pwrWake b u
  | some k => if m.rd (PWRCTL b) fPWRCTL_WAKEEN / 2 ^ k % 2 = 1 then m.pwrWake b u else m

/-- The wake completes (R699, R700). -/
def Mach.wakeDone (m : Mach) (b u : Nat) : Mach :=
  let x := m.pwrUnit b u
  if x.waking then
    ((m.when (x.gate == 3) fun y => y.unitLost b u).setPwr b u { x with gate := 0, waking := false }).count (PWRSTAT b) fPWRSTAT_WAKES
  else m

/-- Arming a swap wakes every gated engine that the shadow armature gives a task (R694). -/
def Mach.gateWake (m : Mach) : Mach :=
  m.forEach ((List.range 16).filter fun n => m.shd.gives n) fun x n => x.pwrWake blkENG n

/-- A write of PWRCTL (R691); REQ is ignored where the block's state follows another (R693). -/
def Mach.pwrCtl (m : Mach) (b : Nat) (v : W32) : Mach :=
  let a := PWRCTL b
  let m1 := ((m.wr a fPWRCTL_REQ (getFld v fPWRCTL_REQ)).wr a fPWRCTL_WAKEEN (getFld v fPWRCTL_WAKEEN)).wr a fPWRCTL_UNITS
    (getFld v fPWRCTL_UNITS)
  let m2 := if getFld v fPWRCTL_CANCEL = 1 then m1.pwrCancel b else m1
  if getFld v fPWRCTL_GO = 0 ∨ pwrFollows b then m2
  else match getFld v fPWRCTL_REQ with
    | 0 => m2.pwrActive b (getFld v fPWRCTL_UNITS)
    | 3 => m2.pwrLast b 2
    | q => m2.pwrRequest b (q + 1) (getFld v fPWRCTL_UNITS)

/-- The unit that a register access through the ridge pole reaches (R696). -/
def regUnit (a : Nat) : Option (Nat × Nat) :=
  let b := a / 0x10000
  let o := a % 0x10000
  if b = blkENG ∧ o < 0x400 then some (b, o / 0x40)
  else if b = blkUPL ∧ o < 0x500 then some (b, o / 0x100)
  else if b = blkUPL ∧ 0x4000 ≤ o ∧ o < 0x6800 then some (b, (o - 0x4000) / 0x800)
  else if b = blkCHK ∧ o < 0x1C0 then some (b, o / 0x40)
  else if b = blkCHN ∧ 0x60 ≤ o ∧ o < 0x70 then some (b, (o - 0x60) / 8)
  else if b = blkIDM ∧ o < 0x60 then some (b, o / 0x20)
  else if b = blkIDM ∧ 0x1000 ≤ o ∧ o < 0x2800 then some (b, (o - 0x1000) / 0x800)
  else none

/-- A register access wakes a gated unit (R696). -/
def Mach.accessWake (m : Mach) (a : Nat) : Mach :=
  match regUnit a with
  | some (b, u) => m.pwrWake b u
  | none => m

end Sys2Proof.Machine
end

