-- ==== Sys2Proof/Machine/BbOps.lean ====
section
/-! DEFINITION. The Wi-Fi basebands (R265 to R295): reception, its endings and vectors, the decoder budget, restart, STR,
the steering store. -/

namespace Sys2Proof.Machine

open Sys2Proof

/-! ### STR (R284 to R287) -/

/-- The separation of M and H in MHz (R284); 0 while either is not ON. -/
def Mach.strSep (m : Mach) : Int :=
  if (m.getRadio 1).mode = 2 ∧ (m.getRadio 2).mode = 2 then
    (chanMHz 2 ((m.radioSubs 2).headD 0) : Int) - 10 - ((chanMHz 1 ((m.radioSubs 1).getLast?.getD 0) : Int) + 10)
  else 0

/-- STR_OK for the beat that starts (R284, R286); an overlap with the transmit of the other radio before it stays flagged (R287). -/
def Mach.strUpdate (m0 : Mach) : Mach :=
  let m := m0.xbLatch
  let sep := m.strSep
  let on := [1, 2].all fun x => m.bit (BBx_CTL x) fBBx_CTL_STR_EN && m.bit (BBx_CTL x) fBBx_CTL_CANC_EN
  let ok := decide (400 ≤ sep) ||
    (decide (100 ≤ sep) && on && m.bit (BBx_STRSTAT 1) fBBx_STRSTAT_CONV && !(m.getBb 1).degraded && !(m.getBb 2).degraded)
  ((m.strWr fBBx_STRSTAT_SEP_MHZ sep.toNat).strWr fBBx_STRSTAT_STR_OK (if ok then 1 else 0)).wr WMAC_STAT fWMAC_STAT_NSTR
    (if ok then 0 else 1)

/-! ### The steering store (R270) -/

/-- The entries a store has room for. -/
def steerRoom (x : Nat) : Nat := match x with | 0 => 64 | 1 => 256 | _ => 512

/-- A sounding's steering matrices enter the store (R269, R270): in place of the station's, or of the oldest where the store is full. -/
def Mach.steerPut (m : Mach) (x : Nat) (e : Steer) : Mach :=
  let l := (m.getBb x).steer.filter fun o => o.sta != e.sta
  let l1 := (if l.length < steerRoom x then l else l.drop 1) ++ [e]
  (m.bbMod x fun b => { b with steer := l1 }).wr (BBx_SNDCTL x) fBBx_SNDCTL_FILL l1.length

/-- Whether a transmit towards stations may be steered. -/
def Mach.steerOk (m : Mach) (x : Nat) (stas : List Nat) : Bool :=
  let age := m.rd (BBx_SNDCTL x) fBBx_SNDCTL_MAXAGE
  stas != [] && age != 0 && stas.all fun s => (m.getBb x).steer.any fun e => e.sta == s && decide (m.frame ≤ e.frame + age)

/-! ### Reception (R273 to R283) -/

/-- The decoder budget of the beat under way (R277): none without an armature. -/
def Mach.decBudget (m : Mach) (x : Nat) : Option Nat :=
  if m.actValid then
    some (1024 * ((m.slotsOf x).filter fun s => slotOccurs m.act s m.beat).foldl (fun a s => a + s.kbits) 0)
  else none

/-- A reception that begins now (R273, R277, R288). -/
def Mach.rxFresh (m : Mach) (x : Nat) (restarted : Bool) : Rx :=
  { Rx.zero with state := 1, restarted := restarted, beat := m.beat, budget := m.decBudget x, tsf := m.tsf x, xb := m.xbNow x }

/-- Whether radio `x` listens: in Rx and not on its way out of it. -/
def Mach.listens (m : Mach) (x : Nat) : Bool := decide (m.radioState x = 3 ∧ (m.getRadio x).moving = none)

/-- A PPDU is detected on the primary (R273). -/
def Mach.ppduDetect (m : Mach) (x : Nat) (power : Int) : Mach :=
  if m.listens x ∧ (m.getBb x).rx.state = 0 ∧ dbmOf (m.rd (BBx_DETCTL x) fBBx_DETCTL_PD_THR) ≤ power then
    m.setRx x (m.rxFresh x false)
  else m

/-- Gain control settles (R273): it sets xLNABYPc and the on-chip gain of each chain, whose values are open (log 5), and the frame power
is latched. -/
def Mach.gainSettled (m : Mach) (x : Nat) (power : Int) : Mach :=
  let r := (m.getBb x).rx
  if r.state = 1 then
    let a := m.freeVal
    let b := a.2.freeVal
    (b.2.radioMod x fun q => { q with bypass := a.1.setWidth 16 &&& chainMask x, gain := b.1 }).setRx x { r with state := 2, power := power }
  else m

/-- The energies of 1 µs in dBm, by subchannel (R274), with the NAV of other BSSs as the sequencer sees it (R304). -/
def Mach.busyReport (m : Mach) (x : Nat) (energy : List (BitVec 8)) (nav : Bool) : Mach :=
  let thr := dbmOf (m.rd (BBx_DETCTL x) fBBx_DETCTL_ED_THR)
  let e := BitVec.ofNat 16 (bitsOf (m.radioSubs x).length fun k => energy[k]?.any fun v => decide (thr ≤ v.toInt))
  ((m.bbMod x fun b => { b with energy := e }).busyShow x).sqMod x fun s => { s with nav := nav }

/-- A reception is over: the radio goes to its rest state, and what waited for it begins (R225, R238, R247). -/
def Mach.rxOver (m : Mach) (x : Nat) : Mach :=
  let m1 := m.setRx x Rx.zero
  (if m1.radioState x = 3 then m1.radioBack x else m1).radioFree x

/-- The bits charged to a beat. -/
def Bb.charged (b : Bb) (n : Nat) : Nat := ((b.charge.find? fun e => e.1 == n).map fun e => e.2).getD 0

/-- Whether a codeword of `bits` would take a reception's beat above its budget (R277). -/
def Mach.overBudget (m : Mach) (x bits : Nat) : Bool :=
  let r := (m.getBb x).rx
  bits != 0 && r.budget.any fun k => decide (k < (m.getBb x).charged r.beat + bits)

/-- The signal fields are received and checked (R282): a failing one ends the reception SIG_FAIL. `own` says that the PPDU is
addressed to a BSS of the device, `foreign` that R313 lets a slot cut it, `sig` what the fields say of the
rest: the budget may not hold its first codeword (R277). -/
def Mach.signalFields (m : Mach) (x : Nat) (ok tb own foreign : Bool) (sig : SigFields) : Mach :=
  let r := (m.getBb x).rx
  if r.state ≠ 2 then m
  else if ok then
    let m1 := m.setRx x { r with state := 3, tb := tb, own := own, foreign := foreign, endAt := m.tb5 + sig.dur, users := sig.users }
    if m1.overBudget x sig.first then
      let m2 := m1.rxDeliverFree x 0x12
      m2.setRx x { (m2.getBb x).rx with cut := true }
    else m1
  else (m.rxCount x 0x20 false).rxOver x

/-- A codeword finishes (R276, R277): its coded bits are charged, and where the next would pass the budget the reception ends
OVERLOAD with the MPDUs completed. -/
def Mach.codewordDone (m : Mach) (x bits next : Nat) (failed : Bool) (users : List RxVec) (rssi : List (Nat × BitVec 8)) : Mach :=
  let r := (m.getBb x).rx
  if r.state ≠ 3 ∨ r.cut then m
  else
    let c := (m.getBb x).charged r.beat + bits
    let r1 := { r with cwFail := r.cwFail + if failed then 1 else 0, users := users }
    let m1 := (m.bbMod x fun b => { b with charge := (r.beat, c) :: (b.charge.filter fun e => e.1 != r.beat).take 3 }).setRx x r1
    if m1.overBudget x next then (m1.rxDeliver x 0x12 users rssi).setRx x { r1 with cut := true } else m1

/-- Whether a reception ended at its declared end at this very instant (R283, log 75). -/
def Mach.justEnded (m : Mach) (x : Nat) : Bool :=
  decide ((m.getBb x).rx.state = 0 ∧ (m.getBb x).rx.endAt = m.tb5 + 1) && m.listens x

/-- A restart on a stronger PPDU (R279 to R281); one that falls with the end of the PPDU, the end having won, acquires the new
PPDU in the same way (R283). -/
def Mach.rxRestart (m : Mach) (x : Nat) (power : Int) (users : List RxVec) (rssi : List (Nat × BitVec 8)) : Mach :=
  let r := (m.getBb x).rx
  let delta := min 31 (max 1 (m.rd (BBx_CTL x) fBBx_CTL_RESTART_DELTA))
  if (r.state < 2 ∧ !m.justEnded x) ∨ r.cut ∨ !m.bit (BBx_CTL x) fBBx_CTL_RESTART_EN ∨
      (r.tb ∧ !m.bit (BBx_CTL x) fBBx_CTL_RESTART_TB) ∨ power < r.power + delta then m
  else
    let m1 := if r.state = 3 then m.rxDeliver x 0x10 users rssi else if r.state = 2 then m.rxCount x 0x20 false else m
    m1.setRx x (m.rxFresh x true)

/-- The statuses of the users of a PPDU received to its declared end, and the reception's own: OK where some user's is (R268, R289; of
mixed users, DESIGN CHOICE, log 74). Where its signal fields hold a value that the chip does not know, which no vector shows, it is not
`supported` (R265). -/
def Mach.endStatus (m : Mach) (x : Nat) (supported : Bool) (users : List RxVec) : List Nat × Nat :=
  let l := if supported then rxStatuses x (m.rxChains x).length users else users.map fun _ => 0x13
  (l, if !supported || (l != [] && l.all fun s => s == 0x13) then 0x13 else 0)

/-- A reception ends at its declared end, each user with what R265 and R268 make of it (R289). Its frame power and kind stay for a restart
at the same instant (R283). -/
def Mach.ppduRxEnd (m : Mach) (x : Nat) (supported : Bool) (users : List RxVec) (rssi : List (Nat × BitVec 8)) : Mach :=
  let r := (m.getBb x).rx
  if r.state ≠ 3 ∨ r.cut then m
  else
    let s := m.endStatus x supported users
    ((m.rxDeliverAs x s.2 (s.1.zip users) (some rssi)).rxOver x).bbMod x fun b =>
      { b with rx := { Rx.zero with power := r.power, tb := r.tb, endAt := m.tb5 + 1 } }

/-- Power has fallen 20 dB for 4 µs (R289). -/
def Mach.rxTruncate (m : Mach) (x : Nat) (users : List RxVec) (rssi : List (Nat × BitVec 8)) : Mach :=
  let r := (m.getBb x).rx
  if r.state ≠ 3 ∨ r.cut then m else (m.rxDeliver x 0x11 users rssi).rxOver x

/-- The declared end of a PPDU cut OVERLOAD (R277). -/
def Mach.rxDeclaredEnd (m : Mach) (x : Nat) : Mach := if (m.getBb x).rx.cut then m.rxOver x else m

/-! ### Thresholds (R274) -/

/-- A write of BBx_DETCTL (R274): thresholds outside −95 to −40 dBm are ignored. -/
def Mach.detCtl (m : Mach) (x : Nat) (v : W32) : Mach :=
  let ok (f : Fld) : Bool := decide (-95 ≤ dbmOf (getFld v f) ∧ dbmOf (getFld v f) ≤ -40)
  if ok fBBx_DETCTL_ED_THR && ok fBBx_DETCTL_PD_THR then m.setReg (BBx_DETCTL x) (v &&& 0xFFFF) else m.ignored (BBx_DETCTL x)

end Sys2Proof.Machine
end

