-- ==== Sys2Proof/Machine/Issue.lean ====
section
/-! DEFINITION. How a TE issues an instruction (R92 to R103, R151, the reference model of issue): landing, encoding,
delay slots, the instruction's own part, and the advance. -/

namespace Sys2Proof.Machine

/-- What an instruction's own part asks of the issue: the device with its direct effects, the pending writes with their
distances, the taken target of a transfer, an ending (END or FRET), the slots it occupies. -/
structure Eff where
  m : Mach
  ws : List (Nat × PTgt × TWord) := []
  xfer : Option (Option Nat) := none
  ending : Nat := 0
  slots : Nat := 1
  deriving DecidableEq, Repr

/-- An operand fault: code, FOPND, and the PLACE of a POISON word. -/
structure OpFault where
  code : Nat
  opnd : Nat
  place : Nat
  deriving DecidableEq, Repr

/-- The outcome of an instruction's own part: a fault, an effect, or a WAIT that takes force. -/
inductive Res where
  | bad (f : OpFault)
  | good (e : Eff)
  | sleep (w : WaitRec)
  deriving DecidableEq, Repr

/-- A fault without an operand. -/
def Res.fault (code : Nat) : Res := .bad ⟨code, 0, 0⟩

/-- Check one operand: POISON_USE, then KEY_LEAK, then TAG (R107, R109, R151). -/
def opCheck (w : TWord) (opnd : Nat) (ok : Bool) : Option OpFault :=
  if wTag w = tagPOISON then some ⟨0x02, opnd, (w.extractLsb' 20 4).toNat⟩
  else if wTag w = tagKEY then some ⟨0x03, opnd, 0⟩
  else if ok then none
  else some ⟨0x01, opnd, 0⟩

/-- Go on unless an operand faults. -/
def Res.guard (f : Option OpFault) (r : Res) : Res :=
  match f with
  | some x => .bad x
  | none => r

/-- Whether a word has tag INT. -/
def isInt (w : TWord) : Bool := wTag w == tagINT

/-- The payload as a number. -/
def payN (w : TWord) : Nat := (wPay w).toNat

/-- The class of a PTR (R105). -/
def ptrClass (w : TWord) : Nat := payN w / 2 ^ 56

/-- The address of a PTR (R105). -/
def ptrAddr (w : TWord) : Nat := payN w % 2 ^ 56

/-- The PTR of a class and an address modulo 2^56. -/
def mkPtr (c a : Nat) : TWord := mkWord tagPTR (BitVec.ofNat 60 (c * 2 ^ 56 + a % 2 ^ 56))

/-- A register of a TE: t0 reads as NIL (R100). -/
def Ctx.get (c : Ctx) (r : BitVec 5) : TWord := if r = 0 then nilWord else tabGet 0 c.regs r.toNat

/-- The context with a register written at once; t0 ignores it (R100). -/
def Ctx.put (c : Ctx) (r : Nat) (v : TWord) : Ctx := if r = 0 then c else { c with regs := tabSet 0 c.regs r v }

/-- A write of a register after a distance. -/
def wReg (d : Nat) (rd : BitVec 5) (v : TWord) : List (Nat × PTgt × TWord) := [(d, .reg rd.toNat, v)]

/-- Writes of flags after a distance. -/
def wFlags (d : Nat) (l : List (Nat × Bool)) : List (Nat × PTgt × TWord) :=
  l.map fun f => (d, .flag f.1, if f.2 then 1 else 0)

/-- Writes as pending entries of the engine's current slot. -/
def Te.pendOf (t : Te) : Nat → List (Nat × PTgt × TWord) → List Pend
  | _, [] => []
  | k, (d, g, v) :: r => ⟨t.slotNo + d, k, g, v⟩ :: t.pendOf (k + 1) r

/-- The word at an index of the instruction store of a bank; 0 beyond index 8191 (R129, R146). -/
def Te.fetch (t : Te) (bank pc : Nat) : W32 := if pc < 8192 then tabGet 0 t.istore (8192 * bank + pc) else 0

/-- Whether the engine issues instructions now. -/
def Mach.teIssues (m : Mach) (n : Nat) : Bool :=
  ((m.getTe n).st = .run || (m.getTe n).st = .fault) && !m.sigHeld n && !(m.getTe n).mustFinish

/-- Raise a fault of the instruction at the program counter. -/
def Mach.teFault (m : Mach) (n : Nat) (w : W32) (f : OpFault) (rep : Bool) : Mach :=
  let c := (m.getTe n).ctx
  m.raise n ⟨f.code, c.pc, w.toNat, f.opnd, if c.btc = 0 then none else c.bt, c.btc - 1, 0, f.place, rep⟩

/-- The flags of a slot that outstanding far accesses name. -/
def Te.accFlags (t : Te) (slot : Nat) : BitVec 32 := accMask (t.accs.filter fun a => a.tslot == slot && !a.detached)

/-- Mark the flags that a WAIT named and whose accesses are still outstanding at its deadline, set by an event or not: their
completions carry LATE (R119, R121). -/
def Mach.markLate (m : Mach) (n slot : Nat) (w : WaitRec) : Mach :=
  m.dspMod n fun d =>
    { d with late := tabSet 0 d.late slot (tabGet 0 d.late slot ||| (w.mask &&& (m.getTe n).accFlags slot)) }

/-- Whether TB0 has reached a deadline, judged by the sign of the 60-bit difference (R120). -/
def Mach.deadlinePast (m : Mach) (d : BitVec 60) : Bool :=
  !decide (0 < (d - m.timePayload).toInt)

/-- A WAIT that does not hold at issue takes force: what is pending lands, a trapping division first (R99, R124); a
deadline already reached ends it at once (R120). -/
def Mach.enterWait (m : Mach) (n : Nat) (w : WaitRec) : Mach :=
  let t := m.getTe n
  let m1 := m.setTe n { t.landAll with slotNo := max t.slotNo (lastSlot t.pend) }
  match findDz t.pend with
  | some d => m1.raiseDz n d
  | none =>
    if (match w.deadline with | some d => m.deadlinePast d | none => false) then
      ((m1.markLate n t.curSlot w).teMod n fun x => x.endWait true).settle n
    else m1.teMod n fun x => { x with st := if x.st = .fault then .waitF else .wait, wait := some w }

/-- The advance after an instruction that issued without fault. -/
def Mach.advance (m : Mach) (n : Nat) (isXfer : Bool) (e : Eff) : Mach :=
  (m.teMod n fun t =>
    let c := t.ctx.next 1
    { t with
      pend := t.pend ++ t.pendOf t.seq e.ws
      seq := t.seq + e.ws.length
      slotNo := t.slotNo + e.slots
      ctx := if isXfer then { c with btc := 2, bt := e.xfer.join, ending := if e.ending = 0 then c.ending else e.ending }
             else c }).settle n

/-- Land what is due before the current slot, and take a trapping division that is due (R95, R124); finish a task whose
delay slots have all issued. -/
def Mach.landDue (m : Mach) (n : Nat) : Mach :=
  let t := m.getTe n
  if t.st = .run ∨ t.st = .fault then
    match t.dzDue with
    | some d => (m.setTe n t.landDue).raiseDz n d
    | none => (m.setTe n t.landDue).settle n
  else m

/-- Issue the instruction word `w` on TE `n` (R92, R151): nothing happens unless the engine issues and `w` is the word at
its program counter. -/
def Mach.teIssue (m : Mach) (n : Nat) (w : W32) (isXfer : Bool) (body : Mach → Te → Res) : Mach :=
  let m0 := m.landDue n
  let t := m0.getTe n
  if m0.teIssues n && t.fetch m0.actBank t.ctx.pc == w then
    if !defined true w then m0.teFault n w ⟨0x08, 0, 0⟩ false
    else if isXfer ∧ t.ctx.btc ≠ 0 then m0.teFault n w ⟨0x09, 0, 0⟩ false
    else match body m0 t with
      | .bad f => m0.teFault n w f false
      | .good e => e.m.advance n isXfer e
      | .sleep x => m0.enterWait n x
  else m0

end Sys2Proof.Machine
end

