-- ==== Sys2Proof/Machine/TeOps.lean ====
section
/-! DEFINITION. The TE's own part of each instruction (R104 to R177). -/

namespace Sys2Proof.Machine

/-! ### Arithmetic (R106, R122, R152 to R160) -/

/-- Two INT operands through the ALU at width 60. -/
def teAlu (d : Nat) (op : Nat → Nat → Alu) (rd : Option (BitVec 5)) (a b : TWord) (m : Mach) : Res :=
  .guard (opCheck a 1 (isInt a)) <| .guard (opCheck b 2 (isInt b)) <|
    let r := op (payN a) (payN b)
    .good { m, ws := (match rd with | some x => wReg d x (intWord r.val) | none => []) ++ wFlags d r.flags }

/-- ADD and SUB (R106, R154). -/
def teAddSub (sub : Bool) (rd : BitVec 5) (a b : TWord) (m : Mach) : Res :=
  if isInt a then teAlu 1 (if sub then aluSub 60 else aluAdd 60) (some rd) a b m
  else
    let okA := wTag a = tagPTR ∨ wTag a = tagTIME
    let same := sub && wTag b == wTag a && (wTag a == tagTIME || ptrClass a == ptrClass b)
    .guard (opCheck a 1 okA) <| .guard (opCheck b 2 (isInt b || same)) <|
      let x := if sub then wPay a - wPay b else wPay a + wPay b
      .good { m, ws := wReg 1 rd (
        if isInt b then (if wTag a = tagPTR then mkPtr (ptrClass a) x.toNat else mkWord tagTIME x) else mkWord tagINT x) }

/-- CMP (R106, R154). -/
def teCmp (a b : TWord) (m : Mach) : Res :=
  if isInt a then teAlu 1 (aluSub 60) none a b m
  else
    let okA := wTag a = tagPTR ∨ wTag a = tagTIME
    let same := wTag b == wTag a && (wTag a == tagTIME || ptrClass a == ptrClass b)
    .guard (opCheck a 1 okA) <| .guard (opCheck b 2 same) <|
      .good { m, ws := wFlags 1 (aluSub 60 (if wTag a = tagPTR then ptrAddr a else payN a)
                                   (if wTag b = tagPTR then ptrAddr b else payN b)).flags }

/-- Whether an equality compare takes a word (R106). -/
def ceqOk (w : TWord) : Bool := wTag w ≤ 4 || wTag w == tagTIME

/-- Equality of two words under CEQ (R155). -/
def ceqEq (a b : TWord) : Bool := wTag a == wTag b && wPay a == wPay b

/-- CEQ (R155). -/
def teCeq (a b : TWord) (m : Mach) : Res :=
  .guard (opCheck a 1 (ceqOk a)) <| .guard (opCheck b 2 (ceqOk b)) <| .good { m, ws := wFlags 1 [(flZ, ceqEq a b)] }

/-- One INT operand through the ALU. -/
def teUnary (op : Nat → Alu) (rd : BitVec 5) (a : TWord) (m : Mach) : Res :=
  .guard (opCheck a 1 (isInt a)) <|
    .good { m, ws := wReg 1 rd (intWord (op (payN a)).val) ++ wFlags 1 (op (payN a)).flags }

/-- DIV (R124, R160). -/
def teDiv (rd rr : BitVec 5) (a b : TWord) (trap : Bool) (w : W32) (c : Ctx) (m : Mach) : Res :=
  .guard (opCheck a 1 (isInt a)) <| .guard (opCheck b 2 (isInt b)) <|
    let r := aluDiv 60 (payN a) (payN b)
    .good { m, ws := wFlags 12 r.2.2 ++
      (if trap && payN b == 0 then
         [(12, .dz c.pc w.toNat (if c.btc = 0 then none else c.bt) c.btc c.ending, 0)]
       else wReg 12 rr (intWord r.2.1) ++ wReg 12 rd (intWord r.1)) }

/-- MOVK (R157). -/
def teMovk (rd : BitVec 5) (a : TWord) (imm : BitVec 16) (hw : BitVec 2) (m : Mach) : Res :=
  .guard (opCheck a 1 (isInt a)) <|
    .good { m, ws := wReg 1 rd (intWord (aluIns (payN a) imm.toNat (16 * hw.toNat) (if hw = 3 then 12 else 16))) }

/-- RETAG (R158). -/
def teRetag (rd : BitVec 5) (a : TWord) (tag : BitVec 4) (m : Mach) : Res :=
  let ok := isInt a || ((wTag a == tagPTR || wTag a == tagDESC || wTag a == tagTIME) && tag.toNat == tagINT)
  .guard (opCheck a 1 ok) <|
    if tag.toNat = tagPTR ∧ 8 ≤ ptrClass a then .fault 0x06
    else .good { m, ws := wReg 1 rd (if tag = 0 then nilWord else mkWord tag.toNat (wPay a)) }

/-- Whether EXT and INS take a word (R159). -/
def fieldOk (w : TWord) : Bool := isInt w || wTag w == tagDESC

/-- EXT (R159). -/
def teExt (rd : BitVec 5) (a : TWord) (pos len : Nat) (m : Mach) : Res :=
  .guard (opCheck a 1 (fieldOk a)) <|
    let r := aluExt (payN a) pos len
    .good { m, ws := wReg 1 rd (mkWord (wTag a) (BitVec.ofNat 60 r.val)) ++ wFlags 1 r.flags }

/-- INS (R159): rd is the first source. -/
def teIns (rd : BitVec 5) (d a : TWord) (pos len : Nat) (m : Mach) : Res :=
  .guard (opCheck d 1 (fieldOk d)) <| .guard (opCheck a 2 (fieldOk a)) <|
    .good { m, ws := wReg 1 rd (mkWord (wTag d) (BitVec.ofNat 60 (aluIns (payN d) (payN a) pos len))) }

/-! ### Local memory (R106, R110, R161) -/

/-- Whether a word is a local address: an INT, or a PTR of class LOCAL (R106). Any other PTR, of a reserved class too, is TAG here and REGION
as a far address: R105 and R106 leave that between them (DESIGN CHOICE, log 70). -/
def localOk (w : TWord) : Bool := isInt w || (wTag w == tagPTR && ptrClass w == 0)

/-- The local address a word names. -/
def localAddr (w : TWord) : Int := if isInt w then signedOf 60 (payN w) else (ptrAddr w : Int)

/-- A local word index, none where LADDR is raised (R110). -/
def localIndex (a : Int) : Option Nat := if 0 ≤ a ∧ a ≤ 8191 then some a.toNat else none

/-- Continue with a local index, or raise LADDR. -/
def Res.withIndex (a : Int) (opnd : Nat) (f : Nat → Res) : Res :=
  match localIndex a with
  | some i => f i
  | none => .bad ⟨0x05, opnd, 0⟩

/-- LD (R161). -/
def teLd (n : Nat) (rd : BitVec 5) (a : TWord) (imm : BitVec 16) (m : Mach) : Res :=
  .guard (opCheck a 1 (localOk a)) <| .withIndex (localAddr a + imm.toInt) 1 fun i =>
    let r := m.lmLoad n i
    .good { m := r.1, ws := wReg 3 rd r.2 }

/-- Whether stores are logged: those of a run, not of its fault task (R664). -/
def Te.logs (t : Te) : Bool := !t.inFault

/-- ST (R161). -/
def teSt (n : Nat) (v a : TWord) (imm : BitVec 16) (log : Bool) (m : Mach) : Res :=
  .guard (opCheck a 3 (localOk a)) <| .withIndex (localAddr a + imm.toInt) 3 fun i =>
    .good { m := m.lmStore n i v log }

/-! ### Strings (R175, R176) -/

/-- A string pointer stepped by the direction flag, its tag kept (R175). -/
def strStep (fl : BitVec 7) (w : TWord) : TWord :=
  let x := if fl.getLsbD flD then wPay w - 1 else wPay w + 1
  if isInt w then mkWord tagINT x else mkPtr 0 x.toNat

/-- MOVS. -/
def teMovs (n : Nat) (m : Mach) (t : Te) : Res :=
  let ps := t.ctx.get 30
  let pd := t.ctx.get 31
  .guard (opCheck ps 1 (localOk ps)) <| .guard (opCheck pd 3 (localOk pd)) <|
  .withIndex (localAddr ps) 1 fun i => .withIndex (localAddr pd) 3 fun j =>
    let r := m.lmLoad n i
    if wTag r.2 = tagKEY then .bad ⟨0x03, 1, 0⟩
    else .good { m := r.1.lmStore n j r.2 t.logs, ws := wReg 1 30 (strStep t.ctx.fl ps) ++ wReg 1 31 (strStep t.ctx.fl pd) }

/-- FILLS. -/
def teFills (n : Nat) (ra : BitVec 5) (m : Mach) (t : Te) : Res :=
  let pd := t.ctx.get 31
  .guard (opCheck pd 3 (localOk pd)) <| .withIndex (localAddr pd) 3 fun j =>
    .good { m := m.lmStore n j (t.ctx.get ra) t.logs, ws := wReg 1 31 (strStep t.ctx.fl pd) }

/-- SCANS. -/
def teScans (n : Nat) (ra : BitVec 5) (m : Mach) (t : Te) : Res :=
  let ps := t.ctx.get 30
  let a := t.ctx.get ra
  .guard (opCheck ps 1 (localOk ps)) <| .guard (opCheck a 2 (ceqOk a)) <| .withIndex (localAddr ps) 1 fun i =>
    let r := m.lmLoad n i
    .guard (opCheck r.2 1 (ceqOk r.2)) <|
      if ceqEq r.2 a then .good { m := r.1, ws := wFlags 1 [(flZ, true)] ++ wReg 1 29 (intWord 1) }
      else .good { m := r.1, ws := wFlags 1 [(flZ, false)] ++ wReg 1 30 (strStep t.ctx.fl ps) }

/-- CMPS. -/
def teCmps (n : Nat) (m : Mach) (t : Te) : Res :=
  let ps := t.ctx.get 30
  let pd := t.ctx.get 31
  .guard (opCheck ps 1 (localOk ps)) <| .guard (opCheck pd 3 (localOk pd)) <|
  .withIndex (localAddr ps) 1 fun i => .withIndex (localAddr pd) 3 fun j =>
    let x := m.lmLoad n i
    let y := x.1.lmLoad n j
    .guard (opCheck x.2 1 (ceqOk x.2)) <| .guard (opCheck y.2 3 (ceqOk y.2)) <|
      if ceqEq x.2 y.2 then
        .good { m := y.1, ws := wFlags 1 [(flZ, true)] ++ wReg 1 30 (strStep t.ctx.fl ps) ++ wReg 1 31 (strStep t.ctx.fl pd) }
      else .good { m := y.1, ws := wFlags 1 [(flZ, false)] ++ wReg 1 29 (intWord 1) }

/-- MOV. -/
def teMov (rd : BitVec 5) (a : TWord) (m : Mach) : Res := .good { m, ws := wReg 1 rd a }

/-- One execution of the instruction that follows a REP (R125). -/
def teRepeated (n : Nat) (w : W32) (m : Mach) (t : Te) : Res :=
  let ra := BitVec.ofNat 5 (wordFld w 16 5)
  if wordFld w 26 6 = 0x01 then teMov (BitVec.ofNat 5 (wordFld w 21 5)) (t.ctx.get ra) m
  else match wordFld w 0 6 with
    | 0 => teMovs n m t
    | 1 => teFills n ra m t
    | 2 => teScans n ra m t
    | _ => teCmps n m t

/-- The context with an iteration's writes in it: what the repeat step of REP reads nc from (R125, R126). -/
def Te.applyNow (t : Te) : List (Nat × PTgt × TWord) → Te
  | [] => t
  | (_, g, v) :: r => (t.landOne ⟨0, 0, g, v⟩).applyNow r

/-- The engine after an iteration: its writes, and nc where the repeat step ran, land with the next slot, in issue order behind
what is pending (R93, R95, R126). -/
def Te.iterated (t : Te) (ws : List (Nat × PTgt × TWord)) : Te :=
  { t with pend := t.pend ++ t.pendOf t.seq ws, seq := t.seq + ws.length, slotNo := t.slotNo + 1 }

/-- Up to `k` iterations of a REP's loop with the program counter on REP (R125 to R128). -/
def Mach.repLoop (n : Nat) (w : W32) : Nat → Mach → Mach
  | 0, m => m
  | k + 1, m =>
    let m0 := m.landDue n
    let t := m0.getTe n
    if !m0.teIssues n then m0
    else match teRepeated n w m0 t with
      | .bad f => m0.teFault n w f true
      | .sleep _ => m0
      | .good e =>
        let u := e.m.getTe n
        let nc := (u.applyNow e.ws).ctx.get 29
        match opCheck nc 4 (isInt nc) with
        | some f => (e.m.setTe n (u.iterated e.ws)).teFault n w f true
        | none =>
          let v := wPay nc - 1
          let x := u.iterated (e.ws ++ wReg 1 29 (mkWord tagINT v))
          if v = 0 then e.m.setTe n { x with ctx := { x.ctx with pc := x.ctx.pc + 2 } }
          else Mach.repLoop n w k (e.m.setTe n x)

/-- REP on a TE: the entry test, then up to `k` iterations (R125 to R128, R174). -/
def Mach.teRep (m : Mach) (n k : Nat) : Mach :=
  let m0 := m.landDue n
  let t := m0.getTe n
  let w := t.fetch m0.actBank (t.ctx.pc + 1)
  let nc := t.ctx.get 29
  if m0.teIssues n && t.fetch m0.actBank t.ctx.pc == 0xA0000000#32 then
    if t.ctx.btc ≠ 0 ∨ !repeatable true w then m0.teFault n w ⟨0x08, 0, 0⟩ true
    else match opCheck nc 4 (isInt nc) with
      | some f => m0.teFault n w f true
      | none =>
        if wPay nc = 0 then m0.teMod n fun x => { x with slotNo := x.slotNo + 2, ctx := { x.ctx with pc := x.ctx.pc + 2 } }
        else Mach.repLoop n w k (m0.teMod n fun x => { x with slotNo := x.slotNo + 1 })
  else m0

/-! ### Far access (R105, R112 to R119, R162, R197, R767) -/

/-- Whether a far access raises REGION (R105, R112 to R114, R197, R767). -/
def farRegion (put : Bool) (far : TWord) (mode : Bool) (len : Nat) : Bool :=
  let c := ptrClass far
  let a := ptrAddr far
  let kind := a / 256 % 4
  if 8 ≤ c then true
  else if mode && c != 5 then true
  else if c ≤ 5 then a % 16 != 0 || (c == 4 && put)
  else if c = 6 then
    a / 2 ^ 25 != 0 || kind == 3 ||
      (if put then kind == 1 || (kind == 0 && decide (16 < a / 2 ^ 12 % 32)) || (kind == 2 && len != 1)
       else a / 2 ^ 10 % 2 ^ 15 != 0 || kind == 2)
  else !put || a / 2 ^ 16 != 0 || !decide (0x30 ≤ a / 256 % 256 ∧ a / 256 % 256 ≤ 0x7F)

/-- The destination block of a far access (R105, R118, R767). -/
def farBlock (far : TWord) : Nat :=
  match ptrClass far with
  | 1 => portRTE
  | 2 => portMEM
  | 3 => portHIF
  | 4 => portNVM
  | 5 => portMEM
  | 6 => portFQ
  | _ => match ptrAddr far / 4096 % 16 with
    | 3 => portWMAC
    | 4 => portASCH
    | 5 => portUPL
    | 6 => portRTE
    | _ => portHIF

/-- Whether a flag of the slot is still named by an outstanding access (R117). -/
def Te.flagBusy (t : Te) (slot f : Nat) : Bool := t.accs.any fun a => a.tslot == slot && a.flag == f && !a.detached

/-- The words of `k` code words of local memory from word `i`, each code word read once (R111). -/
def Mach.lmPairs (m : Mach) (n i : Nat) : Nat → Mach × List TWord
  | 0 => (m, [])
  | k + 1 =>
    let r := m.lmRead n i
    let d := codeData r.2.code
    let s := r.1.lmPairs n (i + 2) k
    (s.1, r.2.poison.getD (getHalf d false) :: r.2.poison.getD (getHalf d true) :: s.2)

/-- Record an output of the run: its OUTPUT record and its entry for a re-issue (R661, R673). -/
def Mach.output (m : Mach) (n : Nat) (o : Output) (payload : List Code) : Mach :=
  let t := m.getTe n
  (m.setTe n { t with outs := t.outs ++ [o] }).journal 0x03 n (if o.kind = 1 ∧ localUnit o.target then 1 else 0) t.tslot
    (o.target + 256 * o.op + 65536 * (o.no % 65536)) payload

/-- The output that a PUT issues, if it is one (R661). -/
def putOutput (no : Nat) (far : TWord) (len : Nat) (src : List TWord) : Option Output :=
  let a := ptrAddr far
  if ptrClass far = 7 then some ⟨no, 1, a / 256 % 256, a % 256, far, len, src⟩
  else if ptrClass far = 6 ∧ a / 256 % 4 = 0 then some ⟨no, 0, a % 256, 0, far, len, src⟩
  else none

/-- Start a far access: its packet takes the next SEQ of the engine's port in class ENG (R26), its flag is cleared with its status (R117), and it is outstanding. -/
def Mach.startAcc (m : Mach) (n slot flag : Nat) (put : Bool) (far : TWord) (loc len : Nat) (mode : Bool)
    (src : List TWord) (out : Option Nat) : Mach :=
  ((m.rpSeqTake (rpPlace n) 1).2.teMod n fun t =>
    { t with accSeq := t.accSeq + 1,
             accs := t.accs ++ [⟨t.accSeq, slot, flag, put, far, loc, len, mode, src, out, false, 0, [], false, true⟩] }).dspMod n
    fun d => if flag < 32 then (d.clear slot (1#32 <<< flag)).unlate slot (1#32 <<< flag) else d

/-- Whether a target takes RAW32 words of every tag: the units that R331, R341, R458, R478 and R605 exempt from R113. -/
def rawExempt (far : TWord) : Bool :=
  let u := ptrAddr far / 256 % 256
  ptrClass far == 7 && ([0x30, 0x31, 0x32, 0x40, 0x41, 0x50, 0x51, 0x52, 0x53, 0x54, 0x60, 0x61, 0x62, 0x63].contains u || u / 16 == 7)

/-- The first source word of a PUT that faults: a KEY outside class UNIT, a tag that RAW32 does not take (R109, R113, R162). -/
def srcFault (unit exempt mode : Bool) : List TWord → Option OpFault
  | [] => none
  | w :: r =>
    if !unit ∧ wTag w = tagKEY then some ⟨0x03, 1, 0⟩
    else if !exempt ∧ !mode ∧ !isInt w ∧ wTag w ≠ tagPOISON then some ⟨0x01, 1, 0⟩
    else srcFault unit exempt mode r

/-- FETCH and PUT (R112, R117, R151, R162). -/
def teFar (n : Nat) (put : Bool) (rl far : TWord) (len1 : BitVec 6) (flag : BitVec 5) (mode : Bool) (m : Mach) (t : Te) : Res :=
  let len := len1.toNat + 1
  let base := localAddr rl
  let cnt : Nat := if mode then 2 * len else 4 * len
  .guard (opCheck rl 1 (localOk rl)) <| .guard (opCheck far 2 (wTag far == tagPTR && ptrClass far != 0)) <|
    if base % 2 ≠ 0 then .bad ⟨0x06, 1, 0⟩
    else if farRegion put far mode len then .bad ⟨0x06, 2, 0⟩
    else if base < 0 ∨ 8192 < base + cnt then .bad ⟨0x05, 1, 0⟩
    else if t.flagBusy t.curSlot flag.toNat then .fault 0x0C
    else if put then
      let r := m.lmPairs n base.toNat (cnt / 2)
      .guard (srcFault (ptrClass far == 7) (rawExempt far) mode r.2) <|
        let o := putOutput t.outs.length far len r.2
        let m1 := match o with
          | some x => r.1.output n x (rawCodes (r.2.length + 1) r.2)
          | none => r.1
        .good { m := m1.startAcc n t.curSlot flag.toNat true far base.toNat len mode r.2 (o.map fun x => x.no),
                slots := 1 + len }
    else .good { m := m.startAcc n t.curSlot flag.toNat false far base.toNat len mode [] none }

/-! ### Waiting and events (R120, R135, R136, R163 to R165) -/

/-- WAIT (R120, R136, R163). -/
def teWait (all : Bool) (a d : TWord) (m : Mach) (n : Nat) (t : Te) : Res :=
  if t.ctx.pm = 3 then .fault 0x08
  else .guard (opCheck a 1 (isInt a)) <| .guard (opCheck d 2 (wTag d == tagTIME || wTag d == tagNIL)) <|
    let w : WaitRec := ⟨BitVec.ofNat 32 (payN a), all, if wTag d = tagTIME then some (wPay d) else none⟩
    if w.holds (m.flagsOf n t.curSlot) then .good { m, ws := wFlags 1 [(flTO, false)] } else .sleep w

/-- ESTAT (R119, R164). -/
def teEstat (rd f : BitVec 5) (m : Mach) (n : Nat) (t : Te) : Res :=
  let st := m.statOf n t.curSlot f.toNat
  .good { m, ws := wReg 1 rd (intWord st) ++ wFlags 1 [(flZ, st == 0)] }

/-- CLRE (R164, R165). -/
def teClre (a : TWord) (m : Mach) (n : Nat) (t : Te) : Res :=
  .guard (opCheck a 1 (isInt a)) <| .good { m := m.dspMod n fun d => d.clear t.curSlot (BitVec.ofNat 32 (payN a)) }

/-- The header word of an EVENT packet of TE `n` (R26, R27): OP 4, class ENG, no payload (log 14). -/
def eventHeader (n e seq slot f : Nat) : Code := mkHeader (rpPlace (0x200 + e)) (rpPlace n) 1 0 4 seq (slot * 32 + f) 0

/-- SIG (R164, R187, R661): the EVENT packet enters the target's event queue, provisional until the run commits. -/
def teSig (a : TWord) (f : BitVec 5) (m : Mach) (n : Nat) (t : Te) : Res :=
  .guard (opCheck a 1 (isInt a)) <|
    let e := payN a / 64 % 16
    let slot := payN a % 64
    let q := m.rpSeqTake (rpPlace n) 1
    let m1 := q.2.output n ⟨t.outs.length, 2, e, 4, 0, slot * 32 + f.toNat, []⟩ [eventHeader n e q.1 slot f.toNat]
    .good { m := m1.sendEvent e slot f.toNat (runOf n t.tslot) }

/-! ### Special registers (R102, R166, R167) -/

/-- RDS. -/
def teRds (rd i : BitVec 5) (m : Mach) (n : Nat) (t : Te) : Res :=
  let give (w : TWord) : Res := .good { m, ws := wReg 1 rd w }
  let inF (w : TWord) : Res := if t.inFault then give w else .fault 0x08
  match i.toNat with
  | 0 => give (intWord t.ctx.fl.toNat)
  | 1 => give (intWord t.ctx.pm)
  | 2 => give (intWord (64 * n + t.curSlot))
  | 3 => give (intWord m.beat)
  | 4 => give (intWord m.tim.tick)
  | 5 => give (mkWord tagTIME m.timePayload)
  | 8 => inF (intWord t.frozen.code)
  | 9 => inF (intWord t.frozen.fpc)
  | 10 => inF (intWord t.frozen.finsn)
  | 11 => inF (intWord t.frozen.fopnd)
  | 12 => inF (match t.frozen.bt with | some x => intWord x | none => nilWord)
  | 13 => inF (intWord t.frozen.btc)
  | 14 => inF (intWord t.frozen.ffl.toNat)
  | _ => .fault 0x08

/-- WRS (R102, R166): reserved bits are ignored. -/
def teWrs (i : BitVec 5) (a : TWord) (m : Mach) (n : Nat) (t : Te) : Res :=
  if !(i == 0 || i == 1 || (i == 14 && t.inFault)) then .fault 0x08
  else .guard (opCheck a 1 (isInt a)) <|
    if i = 0 then .good { m, ws := wFlags 1 ((List.range 7).map fun k => (k, (payN a).testBit k)) }
    else if i = 1 then .good { m := m.teMod n fun x => { x with ctx := { x.ctx with pm := payN a % 4 } } }
    else .good { m := m.teMod n fun x => { x with frozen := { x.frozen with ffl := BitVec.ofNat 7 (payN a) } } }

/-- RDX (R166, R167). -/
def teRdx (rd r : BitVec 5) (m : Mach) (t : Te) : Res :=
  if t.inFault then .good { m, ws := wReg 1 rd (t.saved.get r) } else .fault 0x08

/-- WRX (R166, R167). -/
def teWrx (r : BitVec 5) (a : TWord) (m : Mach) (n : Nat) (t : Te) : Res :=
  if t.inFault then .good { m := m.teMod n fun x => { x with saved := x.saved.put r.toNat a } } else .fault 0x08

/-! ### Control transfer (R168 to R173) -/

/-- A transfer to a target: taken targets are checked at the transfer (R171). -/
def teJump (m : Mach) (taken : Bool) (target : Int) (ws : List (Nat × PTgt × TWord)) : Res :=
  if !taken then .good { m, ws }
  else match localIndex target with
    | some i => .good { m, ws, xfer := some (some i) }
    | none => .fault 0x08

/-- B*cond* (R168). -/
def teBcond (cond : BitVec 4) (off : BitVec 22) (m : Mach) (t : Te) : Res :=
  teJump m ((condHolds true t.ctx.fl cond.toNat).getD false) (t.ctx.pc + off.toInt) []

/-- CALL (R169). -/
def teCall (rd : BitVec 5) (off : BitVec 21) (m : Mach) (t : Te) : Res :=
  teJump m true (t.ctx.pc + off.toInt) (wReg 1 rd (intWord (t.ctx.pc + 3)))

/-- JR (R169). -/
def teJr (rd : BitVec 5) (a : TWord) (m : Mach) (t : Te) : Res :=
  .guard (opCheck a 1 (isInt a)) <| teJump m true (signedOf 60 (payN a)) (wReg 1 rd (intWord (t.ctx.pc + 3)))

/-- BTAG and BNTAG (R155, R170). -/
def teBtag (neg : Bool) (a : TWord) (tag : BitVec 4) (off : BitVec 16) (m : Mach) (t : Te) : Res :=
  teJump m ((wTag a == tag.toNat) != neg) (t.ctx.pc + off.toInt) []

/-- END (R172, R173): in the fault task it acts as FRET ABANDON. -/
def teEnd (m : Mach) (t : Te) : Res := .good { m, ending := if t.inFault then 4 else 1 }

/-- FRET (R132, R173): the modes 0, 1 and 2. -/
def teFret (mode : Nat) (m : Mach) (t : Te) : Res :=
  if t.inFault then .good { m, ending := 2 + mode } else .fault 0x08

/-- BRK (R129). -/
def teBrk (m : Mach) (n : Nat) : Res :=
  if m.bit (ENG_TEn_CTL n) fENG_TEn_CTL_BRK_EN then .fault 0x0A else .good { m }

end Sys2Proof.Machine
end

