-- ==== Sys2Proof/Machine/Tasks.lean ====
section
/-! DEFINITION. Landing, the start of the fault task, the completion of far accesses, and the dispatch of tasks (R95,
R101, R116 to R133, R180 to R190, R665). -/

namespace Sys2Proof.Machine

/-! ### Landing and the fault task -/

/-- Whether the dispatcher selected a task in slot 63 in the current beat (R133, R180). -/
def DspTe.faultTask (d : DspTe) : Option TaskSt := d.sel.find? fun x => x.slot == 63

/-- Fault entry once the instruction is suppressed (R99, R130, R133): results land, fault state is frozen, the record is
written, and the task in slot 63 starts, or the engine takes ABANDON itself. -/
def Mach.faultStart (m : Mach) (n : Nat) : Mach :=
  let t := m.getTe n
  if t.st = .faulting then
    let l := t.landAll
    let f := { l.frozen with ffl := l.ctx.fl }
    let u := { l with frozen := f, saved := l.ctx, entered := l.ctx, slotNo := max t.slotNo (lastSlot t.pend), outMark := l.outs.length }
    let m1 := (m.setTe n u).engineFault n f.code t.tslot f.fpc f.finsn f.fopnd f.place t.undoFull
    match (m.getDsp n).faultTask with
    | some k => m1.teMod n fun x =>
        { x with
          st := .fault
          slotNo := x.slotNo + 6
          ctx := ⟨tabSet 0 (tabSet 0 [] 1 (intWord f.code)) 2 (intWord f.fpc), 0, 1, k.entry, none, 0, 0⟩ }
    | none => m1.abandon n
  else m

/-! ### Completions (R116 to R121, R765, R770, R772) -/

/-- The outstanding access of a number. -/
def Te.acc (t : Te) (id : Nat) : Option Acc := t.accs.find? fun a => a.id == id

/-- Whether no earlier access of the same task to the same block is outstanding (R118). -/
def Te.inOrder (t : Te) (a : Acc) : Bool :=
  t.accs.all fun b => !(decide (b.id < a.id) && b.tslot == a.tslot && farBlock b.far == farBlock a.far && !b.detached)

/-- Replace an access. -/
def Te.accMod (t : Te) (id : Nat) (f : Acc → Acc) : Te :=
  { t with accs := t.accs.map fun a => if a.id = id then f a else a }

/-- Whether a class 1 to 5 access lies within its space (R765). -/
def Mach.farFits (m : Mach) (far : TWord) (len : Nat) : Bool :=
  let top := ptrAddr far + 16 * len
  match ptrClass far with
  | 1 => decide (top ≤ 0x1C00000)
  | 2 => decide (top ≤ m.dramTop)
  | 4 => decide (top ≤ 0x1000000)
  | 5 => decide (top ≤ m.rd ENG_TAGLEN fENG_TAGLEN_LEN * 2 ^ 24) && decide (m.reg64 ENG_TAGBASE_LO ENG_TAGBASE_HI + top ≤ m.dramTop)
  | _ => true

/-- The reads of a FETCH of class 1, 2, 4 or 5. -/
def Mach.farReads (m : Mach) (far : TWord) (len : Nat) : Mach × List Read :=
  match ptrClass far with
  | 1 => m.sramReads (ptrAddr far) len
  | 4 => m.nvmReads (ptrAddr far) len
  | 5 => m.dramReads (m.reg64 ENG_TAGBASE_LO ENG_TAGBASE_HI + ptrAddr far) len
  | _ => m.dramReads (ptrAddr far) len

/-- What a FETCH of class 1 to 5 lands and its status; `host` is what a HOST read returned, none when it ended in an
error (R113, R119, R765). -/
def Mach.farFetch (m : Mach) (a : Acc) (host : Option (List Byte)) : Mach × List TWord × Nat :=
  if !m.farFits a.far a.len then (m, [], 4)
  else
    let r : Mach × Option (List Read) := if ptrClass a.far = 3 then
        (m, host.map fun l => (datums a.len (slice 0 l 0 (16 * a.len))).map fun d => ⟨encodeCode d, none⟩)
      else let x := m.farReads a.far a.len; (x.1, some x.2)
    match r.2 with
    | none => (m, [], 4)
    | some l =>
      let ws := if a.tagMode then (l.map Read.tagged).flatten else (l.map Read.raw32).flatten
      (r.1, ws, if ws.any fun w => wTag w == tagPOISON then 2 else 0)

/-- Log the old content of a code word in the undo log of the run that issued the access (R664). -/
def Te.landLog (t : Te) (a : Acc) (ix : Nat) : Te :=
  if !a.live ∨ a.tslot = 63 then t
  else if t.tslot = a.tslot ∧ t.st ≠ .idle then t.undoLog ix
  else match tabGet none t.stops a.tslot with
    | some f =>
      let g : StopFrame :=
        if f.undo.any (fun e => e.1 == ix) then f
        else if f.undo.length < 256 then { f with undo := (ix, storeGet t.lmem ix) :: f.undo }
        else { f with undoFull := true }
      { t with stops := tabSet none t.stops a.tslot (some g) }
    | none => t

/-- Land words two to a code word from word `i` up (R116). -/
def Te.landPairs (bank : Nat) (a : Acc) : Nat → List TWord → Te → Te
  | i, x :: y :: r, t =>
    let u := t.landLog a (lmIndex bank i)
    Te.landPairs bank a (i + 2) r { u with lmem := storeSet u.lmem (lmIndex bank i) (encodeCode (putHalf (putHalf 0 false x) true y)) }
  | _, _, t => t

/-- Take an access off the list, and set its flag unless it has none (R119, R770). -/
def Mach.accDone (m : Mach) (n : Nat) (a : Acc) (st : Nat) : Mach :=
  let m1 := m.teMod n fun t => { t with accs := t.accs.filter fun b => b.id != a.id }
  if a.flag < 32 then (m1.completeFlag n a.tslot a.flag st).settle n else m1

/-- FETCH completion (R116, R119): all words and the flag, or nothing when it is detached or not served. -/
def Mach.fetchComplete (m : Mach) (n id : Nat) (host : Option (List Byte)) : Mach :=
  match (m.getTe n).acc id with
  | some a =>
    if a.put then m
    else if a.detached then m.accDone n a 0
    else if !(m.getTe n).inOrder a then m
    else if ptrClass a.far = 6 then
      if a.done then (m.teMod n (Te.landPairs m.actBank a a.loc (a.res.map fun p => p.2))).accDone n a a.status else m
    else
      let r := m.farFetch a host
      (r.1.teMod n (Te.landPairs m.actBank a a.loc r.2.1)).accDone n a r.2.2
  | none => m

/-- Code words go to the host (R772): a poisoned one as zeros in a write TLP of its own with EP set, which leaves host memory as it was
(DESIGN CHOICE, log 67). -/
def Mach.hostPut (m : Mach) (a : Nat) : List Code → Mach
  | [] => m
  | w :: r =>
    (if classifyCheck w = .storedPoison then m.hifMod fun h => { h with poisoned := a :: h.poisoned }
     else m.hostWrite a (datumBytes (codeData w))).hostPut (a + 16) r

/-- A PUT of class 1, 2, 3 or 5 takes effect at its target; `hostOk` is false when the transfer to the host ended in an
error (R113, R765, R772). -/
def Mach.farPut (m : Mach) (a : Acc) (hostOk : Bool) : Mach × Nat :=
  let codes := if a.tagMode then tagCodes (a.src.length + 1) a.src else rawCodes (a.src.length + 1) a.src
  let st := if !a.tagMode && a.src.any fun w => wTag w == tagPOISON then 2 else 0
  if !m.farFits a.far a.len ∨ (ptrClass a.far = 3 ∧ !hostOk) then (m, 4)
  else match ptrClass a.far with
    | 1 => (m.memMod fun x => { x with sram := (codes.foldl (fun p w => (p.1 + 1, storeSet p.2 p.1 w))
                                                 (ptrAddr a.far / 16, x.sram)).2 }, st)
    | 3 => (m.hostPut (ptrAddr a.far) codes, st)
    | 5 => (m.dramWrites (m.reg64 ENG_TAGBASE_LO ENG_TAGBASE_HI + ptrAddr a.far) codes, st)
    | _ => (m.dramWrites (ptrAddr a.far) codes, st)

/-- The unserved PUT access of a number, with what it names, while its run is not stopped: an output reaches its target
from the running task only (R661, R665, log 15). -/
def Mach.openAcc (m : Mach) (n id : Nat) : Option Acc :=
  let t := m.getTe n
  match t.acc id with
  | some a =>
    if a.done || !t.inOrder a || a.detached || (a.out.isSome && a.live && (t.st = .idle || (t.tslot != a.tslot && a.tslot != 63)))
    then none else some a
  | none => none

/-- Whether a unit of class UNIT lists an operation (R331, R341, R345, R458, R478, R605, R767). -/
def unitListed (unit op : Nat) : Bool :=
  if unit ≤ 0x32 then op == 1
  else match unit with
    | 0x40 => op == 1
    | 0x41 => op == 1 || op == 2
    | 0x60 => decide (1 ≤ op ∧ op ≤ 4)
    | 0x61 => decide (1 ≤ op ∧ op ≤ 3)
    | 0x62 => op == 1
    | 0x63 => op == 1
    | 0x70 => op == 1 || op == 2
    | _ => decide (0x50 ≤ unit ∧ unit ≤ 0x54) && op == 1

/-- The status of a PUT to a unit that met a POISON word has the POISON bit (R119, R767). -/
def Acc.metPoison (a : Acc) (st : Nat) : Nat :=
  if ptrClass a.far = 7 ∧ st / 2 % 2 = 0 ∧ a.src.any (fun w => wTag w == tagPOISON) then st + 2 else st

/-- A unit completes an operation that it does not list REFUSED (R767); RTE counts it (R478, R479). -/
def Mach.unitUnlisted (m : Mach) (n : Nat) (a : Acc) : Mach :=
  let u := ptrAddr a.far / 256 % 256
  if ptrClass a.far = 7 ∧ !unitListed u (ptrAddr a.far % 256) ∧ (m.openAcc n a.id).isSome then
    (m.when (u / 16 = 6) fun x => x.count RTE_CNT1 fRTE_CNT1_REFUSED).accDone n a (a.metPoison 4)
  else m

/-- PUT completion (R118, R119, R480): unit results land before the flag. -/
def Mach.putComplete (m : Mach) (n id : Nat) (hostOk : Bool) : Mach :=
  match (m.getTe n).acc id with
  | some a =>
    if !a.put ∨ !(m.getTe n).inOrder a then m
    else if 6 ≤ ptrClass a.far then
      if a.done then (m.lmPlace n false a.res).accDone n a (a.metPoison a.status) else m.unitUnlisted n a
    else let r := m.farPut a hostOk; r.1.accDone n a r.2
  | none => m

/-- A WAIT's deadline is reached: the WAIT ends with FL.TO = 1 (R120, R121). -/
def Mach.waitDeadline (m : Mach) (n : Nat) : Mach :=
  let t := m.getTe n
  match t.wait with
  | some w =>
    if t.waiting && (match w.deadline with | some d => m.deadlinePast d | none => false) then
      ((m.markLate n t.curSlot w).teMod n fun x => x.endWait true).settle n
    else m
  | none => m

/-! ### Serving an access at its target -/

/-- The run that an access's effect at its target stays provisional for: none once the run has committed (R661, R662). -/
def Mach.accRun (m : Mach) (n : Nat) (a : Acc) : RunId := if a.live then runOf n (m.getTe n).tslot else 0

/-- Keep what the target answered in the access: status and result words (R119, R480). -/
def Mach.serve (m : Mach) (n id st : Nat) (res : List (Nat × TWord)) : Mach :=
  m.teMod n fun t => t.accMod id fun a => { a with done := true, status := st, res := res }

/-! ### Dispatch (R180 to R190) -/

/-- Whether a released task is ready (R182). -/
def DspTe.ready (d : DspTe) (x : TaskSt) : Bool :=
  x.released && !x.ran && x.slot != 63 && (tabGet 0 d.flags x.slot &&& x.wmask == x.wmask)

/-- The task of lowest PRIO, the first in list order on a tie. -/
def lowestPrio : List TaskSt → Option TaskSt
  | [] => none
  | x :: r => match lowestPrio r with
    | some y => if y.prio < x.prio then some y else some x
    | none => some x

/-- Issue an output of a stopped run anew, without a new record (R665): an access still under way stands for it, with its
flag; any other goes out without a flag. -/
def Mach.reissue (m : Mach) (n slot : Nat) (o : Output) : Mach :=
  let t := m.getTe n
  let m1 := m.setTe n { t with outs := t.outs ++ [o] }
  if o.kind = 2 then (m1.rpSeqTake (rpPlace n) 1).2.sendEvent o.target (o.len / 32) (o.len % 32) (runOf n slot)
  else
    let old := t.accs.find? fun a => a.out == some o.no && a.tslot == slot && !a.done
    match old with
    | some a => m1.teMod n fun x =>
        { x with accSeq := x.accSeq + 1,
                 accs := x.accs.filter (fun b => b.id != a.id) ++ [{ a with id := x.accSeq, src := o.words, status := 0 }] }
    | none => m1.startAcc n slot 32 true o.far 0 o.len false o.words (some o.no)

/-- Start a replayed task: from its stop frame after its outputs went out again, or from ENTRY (R134, R186, R665). -/
def Mach.startReplay (m : Mach) (n : Nat) (k : TaskSt) : Mach :=
  let t := m.getTe n
  let m1 := m.dspMod n fun d => { d with replay := d.replay.erase k, last := k.slot }
  match tabGet none t.stops k.slot with
  | some f =>
    let m2 := m1.teMod n fun x =>
      { x with st := .run, tslot := k.slot, task := some k, ctx := f.ctx, undo := f.undo, undoFull := f.undoFull, outs := [],
               first := f.beat, firstTime := f.time, replay := true, stops := tabSet none x.stops k.slot none }
    let m3 := m2.forEach f.outs fun x o => x.reissue n k.slot o
    match f.dz with
    | some d => m3.raiseDz n d
    | none => m3.settle n
  | none => m1.teMod n fun x =>
      { x with st := .run, tslot := k.slot, task := some k, ctx := entryCtx k.entry m.beat m.tim.beatTime, undo := [],
               undoFull := false, outs := [], first := m.beat, firstTime := m.tim.beatTime, replay := true }

/-- The replay that goes next: one after an ABANDON in this beat before any other (R665), then by PRIO (R186). -/
def Mach.nextReplay (m : Mach) (n : Nat) : Option TaskSt :=
  match (m.getDsp n).replay.find? fun k => (m.getTe n).abandoned.contains k.slot with
  | some k => some k
  | none => lowestPrio (m.getDsp n).replay

/-- Dispatch on an idle engine (R69, R101, R182, R186). -/
def Mach.dispatchIdle (m : Mach) (n : Nat) : Mach :=
  let d := m.getDsp n
  if (m.getTe n).st ≠ .idle ∨ m.inHold ∨ !m.actValid then m
  else match m.nextReplay n with
    | some k => m.startReplay n k
    | none => match lowestPrio (d.sel.filter d.ready) with
      | some k =>
        (m.dspMod n fun x => { (x.clear k.slot k.wmask).markRan k.slot with last := k.slot }).teMod n fun x =>
          { x with st := .run, tslot := k.slot, task := some k, ctx := entryCtx k.entry m.beat m.tim.beatTime, undo := [],
                   undoFull := false, outs := [], first := m.beat, firstTime := m.tim.beatTime, replay := false }
      | none => m

/-- TASK_DISPATCH: an END that a held SIG kept from taking effect does so first (R189). -/
def Mach.dispatch (m : Mach) (n : Nat) : Mach := (m.settle n).dispatchIdle n

/-- Skip a released task that is not ready at the end of its DEADLINE tick (R184, R185). -/
def Mach.skipTask (m : Mach) (n slot : Nat) : Mach :=
  let d := m.getDsp n
  if d.sel.any fun x => x.slot == slot && x.released && !x.ran && slot != 63 && !d.ready x && decide (x.deadline ≤ m.tim.tick) then
    ((m.setDsp n (d.markRan slot)).count (DSP_TEn_SKIP n) fDSP_TEn_SKIP_SKIPPED).wr (DSP_TEn_SKIP n) fDSP_TEn_SKIP_LAST_TSLOT slot
  else m

/-- The tasks that a beat selects: b mod PERIOD = PHASE (R180), in slot order, the delay list by RELEASE (R181). -/
def selectTasks (l : List Task) (n b : Nat) : List TaskSt :=
  (l.filter fun x => x.te == n && b % max 1 x.period == x.phase).map fun x =>
    ⟨x.tslot, x.prio, x.entry, x.release, x.deadline, x.wmask, x.release == 0 && x.tslot != 63, false⟩

/-- Insert into a delay list sorted by tick, ties in slot order (R181). -/
def delayInsert (e : Nat × Nat) : List (Nat × Nat) → List (Nat × Nat)
  | [] => [e]
  | x :: r => if e.1 < x.1 ∨ (e.1 = x.1 ∧ e.2 < x.2) then e :: x :: r else x :: delayInsert e r

/-- The dispatcher at a beat start: the delay list emptied, the beat's tasks selected (R180, R181). -/
def DspTe.select (d : DspTe) (l : List TaskSt) : DspTe :=
  { d with sel := l, delay := (l.filter fun x => x.release != 0 && x.slot != 63).foldl (fun a x => delayInsert (x.release, x.slot) a) [] }

/-- A tick event: entries with RELEASE at most the tick are released and leave the delay list (R181). -/
def DspTe.release (d : DspTe) (tick : Nat) : DspTe :=
  { d with
    delay := d.delay.filter fun e => decide (tick < e.1)
    sel := d.sel.map fun x => if x.release ≤ tick ∧ x.slot ≠ 63 ∧ d.delay.any (fun e => e.2 == x.slot) then
        { x with released := true } else x }

end Sys2Proof.Machine
end

