-- ==== Sys2Proof/Machine/UnitOps.lean ====
section
/-! DEFINITION. Requests to the units of class UNIT (R479, R480): their header, items and results. -/

namespace Sys2Proof.Machine

/-- A request of R479: where results land, COUNT, table or queue, PIECES, TOUCH, and the item words. -/
structure UnitReq where
  result : Nat
  count : Nat
  sel : Nat
  pieces : Nat
  touch : Bool
  items : List TWord
  deriving DecidableEq, Repr

/-- The request in an access's words; none where its header breaks R479. Results must fit local memory. -/
def unitReq (src : List TWord) : Option UnitReq :=
  let w0 := src.getD 0 0
  let w1 := src.getD 1 0
  let a := payN w0
  let b := payN w1
  let r : UnitReq := ⟨a % 65536, a / 65536 % 64, a / 2 ^ 22 % 16, b % 16, b / 16 % 2 == 1, src.drop 4⟩
  if isInt w0 && isInt w1 && wTag (src.getD 2 0) == tagNIL && wTag (src.getD 3 0) == tagNIL && a / 2 ^ 26 == 0 && b / 32 == 0 &&
      r.result % 2 == 0 && decide (1 ≤ r.count ∧ r.count ≤ 32 ∧ r.result + r.count ≤ 8192) then some r
  else none

/-- The result words of a request, in order from RESULT. -/
def unitResults (r : UnitReq) (l : List TWord) : List (Nat × TWord) :=
  (List.range l.length).map fun i => (r.result + i, l.getD i 0)

/-- Serve an access at a unit of class UNIT: `unit` and `op` must be the ones it names, and its words fit. -/
def Mach.unitServe (m : Mach) (n id unit op : Nat) (f : Mach → Acc → RunId → Mach × Nat × List (Nat × TWord)) : Mach :=
  match m.openAcc n id with
  | some a =>
    if ptrClass a.far = 7 ∧ ptrAddr a.far / 256 % 256 = unit ∧ ptrAddr a.far % 256 = op then
      let r := f m a (m.accRun n a)
      r.1.serve n id r.2.1 r.2.2
    else m
  | none => m

/-- The status REFUSED of an access (R119). -/
def stREFUSED : Nat := 4

end Sys2Proof.Machine
end

