-- ==== Sys2Proof/Machine/AschOps.lean ====
section
/-! DEFINITION. Air scheduling (R339 to R372): queues, home pools, templates, picks, shapers, policers, bounds, samples. -/

namespace Sys2Proof.Machine

open Sys2Proof

/-- ENQ (R341, R342): the words, and the frame in its queue, provisional until the run commits. -/
def Mach.enq (m : Mach) (n id : Nat) : Mach :=
  m.unitServe n id 0x40 1 fun m a run =>
    let w (i : Nat) : TWord := a.src.getD i 0
    let q := payN (w 0) / 2 ^ 45
    let len := payN (w 2)
    if a.len ≠ 1 ∨ wTag (w 0) ≠ tagDESC ∨ payN (w 0) % 2 ^ 45 ≠ 0 ∨ 16447 < q ∨ wTag (w 1) ≠ tagPTR ∨ ptrClass (w 1) ≠ 2 ∨
        !isInt (w 2) ∨ len = 0 ∨ 11454 < len ∨ wTag (w 3) ≠ tagTIME then (m, stREFUSED, [])
    else
      let x := m.queue q
      if x.attr.limit * 1024 < (x.frames.map QFrame.len).sum + len then
        (m.count ASCH_ENQCNT fASCH_ENQCNT_TAILDROP, stREFUSED, [])
      else
        (m.setQueue q (m.headTag { x with frames := x.frames ++ [⟨ptrAddr (w 1), len, wPay (w 3), 0, false, run, none⟩] }), 0, [])

/-! ### Home pools (R344 to R346) -/

/-- Take a free buffer of a pool, in no fixed order (R344); none where the pool is empty. -/
def Mach.hpTake (m : Mach) (k : Nat) (run : RunId) : Mach × Option Nat :=
  let t := m.asch.pool k
  let free := m.hpCount k - t.length
  if free = 0 then (m.count (ASCH_HPk_STAT k) fASCH_HPk_STAT_EMPTY, none)
  else
    let d := m.drawBelow free
    let i := nthFree (t.map fun e => e.1) d.1
    (d.2.setPool k (tabSet none t i (some run)), some i)

/-- One ALLOC item (R345). -/
def Mach.allocOne (m : Mach) (w : TWord) (run : RunId) : Mach × TWord :=
  if !isInt w ∨ payN w = 0 ∨ 12288 < payN w then (m, nilWord)
  else
    let k := if payN w ≤ 2048 ∧ 0 < m.hpCount 0 then 0 else 1
    let r := m.hpTake k run
    (r.1, match r.2 with | some i => mkPtr 2 (m.hpBase k + i * hpSize k) | none => nilWord)

/-- One FREE item (R345): a run's frees take effect when it commits (R346). -/
def Mach.freeOne (m : Mach) (w : TWord) (run : RunId) : Mach × TWord :=
  match (if wTag w = tagPTR ∧ ptrClass w = 2 then m.hpFind (ptrAddr w) else none) with
  | some (k, i) =>
    if (tabGet none (m.asch.pool k) i).isNone ∨ m.asch.freeing.any (fun f => f.2 == (k, i)) then (m, intWord 1)
    else if run = 0 then (m.setPool k (tabSet none (m.asch.pool k) i none), intWord 0)
    else (m.aschMod fun a => { a with freeing := a.freeing ++ [(run, k, i)] }, intWord 0)
  | none => (m, intWord 1)

/-- The items of a request, one after another. -/
def unitFold (f : Mach → TWord → Mach × TWord) : Mach → List TWord → Mach × List TWord
  | m, [] => (m, [])
  | m, w :: r => let x := f m w; let y := unitFold f x.1 r; (y.1, x.2 :: y.2)

/-- A home-pool request (R345); an ALLOC item that is POISON refuses the request (R767). -/
def Mach.hpRequest (m : Mach) (a : Acc) (f : Mach → TWord → Mach × TWord) : Mach × Nat × List (Nat × TWord) :=
  match unitReq a.src with
  | some r =>
    if 9 < a.len ∨ r.items.length < r.count ∨
        (ptrAddr a.far % 256 = 1 ∧ (r.items.take r.count).any fun w => wTag w == tagPOISON) then (m, stREFUSED, [])
    else let x := unitFold f m (r.items.take r.count); (x.1, 0, unitResults r x.2)
  | none => (m, stREFUSED, [])

/-! ### Templates (R347 to R349) -/

/-- The template bank that goes with an armature bank. -/
def Asch.tpl (a : Asch) (b : Nat) : TplBank := if b = 0 then a.tpl0 else a.tpl1

/-- Change a template bank. -/
def Mach.setTpl (m : Mach) (b : Nat) (t : TplBank) : Mach :=
  m.aschMod fun a => if b = 0 then { a with tpl0 := t } else { a with tpl1 := t }

/-- SHD_STATE (R372). -/
def Mach.tplState (m : Mach) : Nat :=
  let t := m.asch.tpl m.shdBank
  match t.tag with
  | some i => if i = m.reg64 ARM_SHDID_LO ARM_SHDID_HI then 2 else 3
  | none => if t.written then 1 else 0

/-- Whether software may not change the shadow template bank (R348). -/
def Mach.tplArmed (m : Mach) : Bool := m.rd ARM_STAT fARM_STAT_SHADOW_STATE == 5

/-- SEAL (R348). -/
def Mach.tplSeal (m : Mach) : Mach :=
  if m.tplArmed then m.ignored ASCH_TPLCTL
  else m.setTpl m.shdBank { m.asch.tpl m.shdBank with tag := some (m.reg64 ARM_SHDID_LO ARM_SHDID_HI) }

/-- CLEAR (R372). -/
def Mach.tplClear (m : Mach) : Mach :=
  if m.tplArmed then m.ignored ASCH_TPLCTL else m.setTpl m.shdBank TplBank.zero

/-- A write of CAP (`i` = 0) or class word `i` − 1 of the selected template (R348): the active bank is read only. -/
def Mach.tplWrite (m : Mach) (i a : Nat) (v : W32) : Mach :=
  if m.bit ASCH_TPLSEL fASCH_TPLSEL_BANK then m
  else if m.tplArmed then m.ignored a
  else
    let t := m.asch.tpl m.shdBank
    let k := 16 * m.rd ASCH_TPLSEL fASCH_TPLSEL_TPL + i
    m.setTpl m.shdBank { words := tabSet 0 t.words k (if i = 0 then v &&& 0xFFFF else v &&& 0x8700FFFF), written := true, tag := none }

/-- Whether slots under bank `b` are served from the built-in template (R349): BUILTIN for the active bank; the bank that a swap brings
serves by its tag. -/
def Mach.tplBuiltin (m : Mach) (b : Nat) : Bool :=
  if b = m.actBank ∧ m.actValid then m.bit ASCH_STAT fASCH_STAT_BUILTIN else (m.asch.tpl b).tag != some (m.bankOf b).armId

/-- The template in force for a PARAM: the word of CAP or of a class (R349). -/
def Mach.tplWord (m : Mach) (b p i : Nat) : W32 :=
  if m.tplBuiltin b then (if i = 0 then 65535 else BitVec.ofNat 32 (65535 + (i - 1) * 2 ^ 24))
  else tabGet 0 (m.asch.tpl b).words (16 * p + i)

/-- At a swap: the incoming template bank must bear the incoming ARM_ID (R349). -/
def Mach.tplMatch (m : Mach) : Mach :=
  let fb := m.bit ARM_STAT fARM_STAT_FALLBACK
  if (m.asch.tpl m.actBank).tag = some m.act.armId ∧ !fb then
    (m.wr ASCH_STAT fASCH_STAT_BUILTIN 0).wr ASCH_TPLCTL fASCH_TPLCTL_ACT_STATE 1
  else ((m.wr ASCH_STAT fASCH_STAT_BUILTIN 1).wr ASCH_TPLCTL fASCH_TPLCTL_ACT_STATE 2).event 0x0C01 0 []

/-! ### Shapers and policers (R356 to R361) -/

def Mach.shaper (m : Mach) (i : Nat) : Shaper := tabGet Shaper.zero m.asch.shapers i
def Mach.setShaper (m : Mach) (i : Nat) (s : Shaper) : Mach :=
  m.aschMod fun a => { a with shapers := tabSet Shaper.zero a.shapers i s }
def Mach.policer (m : Mach) (i : Nat) : Shaper := tabGet Shaper.zero m.asch.policers i
def Mach.setPolicer (m : Mach) (i : Nat) (s : Shaper) : Mach :=
  m.aschMod fun a => { a with policers := tabSet Shaper.zero a.policers i s }

/-- The duration of a tick in µs (R46). -/
def Mach.tickUs (m : Mach) : Nat := 8 * 2 ^ m.rd ARM_PLINTH fARM_PLINTH_PERIOD

/-- A shaper's accrual at a tick (R357). -/
def Shaper.accrue (s : Shaper) (backlogged : Bool) (us : Nat) : Shaper :=
  let c := if backlogged ∨ s.credit < 0 then min (s.credit + (s.idle * us / 8 : Nat)) (s.hi * 1000 : Nat) else s.credit
  { s with credit := if !backlogged ∧ 0 < c then 0 else c }

/-- A policer's accrual at a tick (R360). -/
def Shaper.fill (s : Shaper) (us : Nat) : Shaper := { s with credit := min (s.credit + (s.idle * us / 8 : Nat)) (s.hi * 1000 : Nat) }

/-- A debit (R357, R360). -/
def Shaper.debit (s : Shaper) (l : Nat) : Shaper := { s with credit := max (s.credit - (l * 1000 : Nat)) (s.lo * 1000) }

/-- A pending change takes effect, the credit clamped (R358). -/
def Shaper.change (s : Shaper) : Shaper :=
  match s.pend with
  | some (i, h, l, a) => { idle := i, hi := h, lo := l, action := a, pend := none,
                           credit := min (max s.credit (l * 1000)) (h * 1000 : Nat) }
  | none => s

/-- Whether a shaper is backlogged (R356). -/
def Mach.backlogged (m : Mach) (i : Nat) : Bool := m.asch.queues.any fun e => e.2.attr.shaper == i && e.2.frames.any fun f => f.prov == 0

/-- The accrual of every shaper and policer at a tick (R357, R360). -/
def Mach.accrue (m : Mach) : Mach :=
  let us := m.tickUs
  let m1 := m.forEach m.asch.shapers fun x e => x.setShaper e.1 (e.2.accrue (m.backlogged e.1) us)
  m1.forEach m.asch.policers fun x e => x.setPolicer e.1 (e.2.fill us)

/-- Pending changes of shapers, policers and queue attributes (R340, R358). -/
def Mach.policyApply (m : Mach) : Mach :=
  let m1 := m.forEach (m.asch.shapers.filter fun e => e.2.pend.isSome) fun x e => x.setShaper e.1 e.2.change
  let m2 := m1.forEach (m.asch.policers.filter fun e => e.2.pend.isSome) fun x e => x.setPolicer e.1 e.2.change
  m2.forEach (m.asch.queues.filter fun e => e.2.pend.isSome) fun x e =>
    x.setQueue e.1 { e.2 with attr := e.2.pend.getD e.2.attr, pend := none }

/-- A policer judges an uplink frame of a queue (R360): 0 conforming, 1 marked, 2 dropped. -/
def Mach.police (m : Mach) (q len : Nat) : Mach × Nat :=
  let a := (m.queue q).attr
  if a.policer = 0xFFF then (m, 0)
  else
    let p := m.policer a.policer
    if 0 ≤ p.credit then (m.setPolicer a.policer (p.debit (m.counted a.cls len)), 0)
    else if p.action = 0 then (m.count ASCH_POLCNT fASCH_POLCNT_DROPPED, 2)
    else (m.count ASCH_POLCNT fASCH_POLCNT_MARKED, 1)

/-! ### Picks (R350 to R355) -/

/-- Whether a station is awake for a slot (R300, R316). -/
def Mach.awake (m : Mach) (s : Nat) (x : Slot) : Bool :=
  match m.sta s with
  | some e => e.power == 0 || (e.power == 2 && m.wmac.twts.any fun t =>
      !t.bcast && t.owner == s && t.radio == x.radio && t.beat == x.beat && t.start == x.start && t.every == x.every &&
        t.phase == x.phase)
  | none => false

/-- Whether the block-acknowledgement window has room for one more frame (R319, R352). -/
def Mach.baRoom (m : Mach) (q : Nat) : Bool :=
  match tabGet none m.wmac.baTx (16 * (q / 8) + q % 8) with
  | some b => decide ((m.asch.picked.filter fun p => p.queue == q).length < b.size)
  | none => true

/-- What stands at the head of a queue for a slot: its length, its tag, its frame (none for uplink). -/
def Mach.headOf (m : Mach) (x : Slot) (q : Nat) (a : AQueue) : Option (Nat × BitVec 64 × QFrame) :=
  if x.kind = 3 then
    if q < 16384 ∧ 0 < a.backlog ∧ m.servedOn q x.radio ∧ m.awake (q / 8) x then
      let l := m.counted a.attr.cls a.backlog
      some (l, m.vTime a.attr.cls + tagInc l a.attr.weight, ⟨a.backlog, 0, 0, 0, false, 0, none⟩)
    else none
  else match a.frames with
    | f :: _ =>
      if f.prov = 0 ∧ !m.held q ∧ m.servedOn q x.radio ∧ (16384 ≤ q ∨ (m.awake (q / 8) x ∧ m.baRoom q)) ∧
          (a.attr.shaper = 0xFFF ∨ 0 ≤ (m.shaper a.attr.shaper).credit) then
        a.tag.map fun t => (m.counted a.attr.cls f.len, t, f)
      else none
    | [] => none

/-- The eligible queue of a class with the lowest head tag, the lower number on a tie (R352, R355). -/
def Mach.bestQueue (m : Mach) (x : Slot) (c : Nat) : List (Nat × AQueue) → Option (Nat × Nat × BitVec 64 × QFrame)
  | [] => none
  | (q, a) :: r =>
    match (if a.attr.cls = c then m.headOf x q a else none), m.bestQueue x c r with
    | some (l, t, f), some (q2, l2, t2, f2) => if (t2 - t).toInt < 0 then some (q2, l2, t2, f2) else some (q, l, t, f)
    | some (l, t, f), none => some (q, l, t, f)
    | none, b => b

/-- Take the head of a queue (R352, R355, R357). -/
def Mach.takeHead (m : Mach) (x : Slot) (q l : Nat) (t : BitVec 64) : Mach :=
  let a := m.queue q
  let m1 := m.aschMod fun y => { y with v := tabSet 0 y.v a.attr.cls t }
  if x.kind = 3 then m1.setQueue q { a with backlog := 0 }
  else
    let m2 := if a.attr.shaper = 0xFFF then m1 else m1.setShaper a.attr.shaper ((m1.shaper a.attr.shaper).debit l)
    let r := a.frames.drop 1
    m2.setQueue q { a with frames := r, tag := match r with
      | f :: _ => if f.prov = 0 then some (t + tagInc (m.counted a.attr.cls f.len) a.attr.weight) else none
      | [] => none }

/-- One class's turn in one pass (R352): what is left of the total and of its room, and the frames taken. -/
def Mach.pickClass (x : Slot) (c : Nat) (share : Bool) : Nat → Mach → Nat → Nat → List Picked → Mach × Nat × Nat × List Picked
  | 0, m, total, room, l => (m, total, room, l)
  | k + 1, m, total, room, l =>
    match m.bestQueue x c m.asch.queues with
    | none => (m, total, room, l)
    | some (q, n, t, f) =>
      if (if share then min room total else total) < n then (m, total, room, l)
      else Mach.pickClass x c share k (m.takeHead x q n t) (total - n) (if share then room - n else room) (l ++ [⟨q, t, f⟩])

/-- Classes in the order of a template. -/
def Mach.classOrder (m : Mach) (b p : Nat) : List Nat :=
  ((List.range 8).map fun o => (List.range 8).filter fun c => getFld (m.tplWord b p (c + 1)) fASCH_TPLCLSc_ORDER == o).flatten

/-- Whether a template includes a class (R347). -/
def Mach.tplHas (m : Mach) (b p c : Nat) : Bool :=
  getFld (m.tplWord b p (c + 1)) fASCH_TPLCLSc_SHARE != 0 || getFld (m.tplWord b p (c + 1)) fASCH_TPLCLSc_FILL == 1

/-- Whether a slot is eligible for carried content: the same kind, its class included, the same radio or, under CROSS_LINK,
another link of the station (R309). -/
def Mach.carriedFor (m : Mach) (b : Nat) (x : Slot) (c : Carried) : Bool :=
  c.kind == x.kind && m.tplHas b x.param (m.queue c.p.queue).attr.cls && (c.radio == x.radio ||
    (m.bit WMAC_MLOCTL fWMAC_MLOCTL_CROSS_LINK && decide (c.p.queue < 16384) && m.servedOn c.p.queue x.radio))

/-- The counted length of a frame or grant that a slot of a kind carries. -/
def Mach.pickedLen (m : Mach) (kind : Nat) (p : Picked) : Nat :=
  m.counted (m.queue p.queue).attr.cls (if kind = 3 then p.f.home else p.f.len)

/-- The counted bytes of the content that goes along in a slot, in all or of a class (R353). -/
def Mach.carriedBytes (m : Mach) (kind : Nat) (l : List Picked) (c : Option Nat) : Nat :=
  ((l.filter fun p => c == none || c == some (m.queue p.queue).attr.cls).map fun p => m.pickedLen kind p).sum

/-- The content of a slot beside what goes along (R352, R353). -/
def Mach.pickSlot (m : Mach) (b : Nat) (x : Slot) (along : List Picked) : Mach × List Picked :=
  let p := x.param
  let fuel := (m.asch.queues.map fun e => e.2.frames.length + 1).sum
  let cs := m.classOrder b p
  let total := (getFld (m.tplWord b p 0) fASCH_TPLCAP_CAP) * 64 - m.carriedBytes x.kind along none
  let s := cs.foldl (fun (a : Mach × Nat × List Picked) c =>
    let r := Mach.pickClass x c true fuel a.1 a.2.1
      (getFld (m.tplWord b p (c + 1)) fASCH_TPLCLSc_SHARE * 64 - m.carriedBytes x.kind along (some c)) a.2.2
    (r.1, r.2.1, r.2.2.2)) (m, total, [])
  let f := cs.foldl (fun (a : Mach × Nat × List Picked) c =>
    if getFld (m.tplWord b p (c + 1)) fASCH_TPLCLSc_FILL = 1 then
      let r := Mach.pickClass x c false fuel a.1 a.2.1 0 a.2.2
      (r.1, r.2.1, r.2.2.2)
    else a) s
  (f.1, f.2.2)

/-- The words of a pick's packet (R351). -/
def Mach.pickWords (m : Mach) (x : Slot) (beat : Nat) (l : List Picked) : List Code :=
  let w (a b c d : Nat) : Code := encodeCode (datumOf (bytesLE 4 a ++ bytesLE 4 b ++ bytesLE 4 c ++ bytesLE 4 d))
  w beat (x.start * 2 ^ 24 + x.radio * 2 ^ 20 + x.kind * 2 ^ 16 + beat / 2 ^ 32 % 2 ^ 16) (l.length * 2 ^ 16 + x.param)
      ((l.map fun p => m.pickedLen x.kind p).sum) ::
    l.map fun p => w p.f.home (p.f.home / 2 ^ 32 % 4) (p.f.len % 2 ^ 14 * 2 ^ 16 + p.queue) 0

/-- A packet in items of at most 64 words. -/
def packetItems : Nat → Bool → List Code → List QWord
  | 0, _, _ => []
  | k + 1, first, l =>
    let last := l.length ≤ 64
    sideWords first last 16 0 true 0 true (l.take 64) ++ if last then [] else packetItems k false (l.drop 64)

/-- The channel of a radio's picks (R351). -/
def Mach.pickCh (m : Mach) (x : Nat) : Nat := (m.reg ASCH_PICKCH).toNat / 256 ^ x % 256

/-- The bank expected to be active in a beat (R350). -/
def Mach.bankFor (m : Mach) (b : Nat) : Nat := if m.arm.armed ∧ m.arm.swapFrame * 4 = b then m.shdBank else m.actBank

/-- Slots sorted by START, then by radio. -/
def slotInsert (s : Slot) : List Slot → List Slot
  | [] => [s]
  | x :: r => if s.start < x.start ∨ (s.start = x.start ∧ s.radio < x.radio) then s :: x :: r else x :: slotInsert s r

/-- The picks for every DLMU and ULTB slot of beat `b` (R350). -/
def Mach.pickBeat (m : Mach) (b : Nat) : Mach :=
  let k := m.bankFor b
  if (k = m.actBank ∧ !m.actValid) ∨ !m.bit ASCH_CTL fASCH_CTL_RUN then m
  else
    let bank := m.bankOf k
    let m := m.aschMod fun a => { a with expect := some bank.armId }
    let ss := (bank.slots.filter fun s => (s.kind == 2 || s.kind == 3) && slotOccurs bank s b).foldl (fun l s => slotInsert s l) []
    m.forEach ss fun x s =>
      if 64 ≤ s.param then x.report blkASCH kNoted s.param
      else
        let go := x.wmac.carried.filter fun c => x.carriedFor k s c
        let along := go.map fun c => c.p
        let r := x.pickSlot k s along
        let y := r.1.wmacMod fun w => { w with carried := w.carried.filter fun c => !go.contains c }
        if r.2 = [] ∧ along = [] then y
        else
          let z := y.aschMod fun a =>
            { a with picks := a.picks ++ [⟨s.radio, b, s.start, s.kind, bank.armId, r.2, along⟩]
                     picked := if s.kind = 2 then a.picked ++ r.2 else a.picked }
          if r.2 = [] then z else z.chFrom portASCH (x.pickCh s.radio)
              (packetItems (r.2.length + 2) true (x.pickWords s b r.2))

/-- A picked frame comes back to the head of its queue (R354). -/
def Mach.pickReturn (m : Mach) (p : Picked) : Mach :=
  let a := m.queue p.queue
  let m1 := m.setQueue p.queue { a with frames := p.f :: a.frames, tag := some p.tag }
  let m2 := if a.attr.shaper = 0xFFF then m1 else
    let s := m1.shaper a.attr.shaper
    m1.setShaper a.attr.shaper { s with credit := min (s.credit + (m.counted a.attr.cls p.f.len * 1000 : Nat)) (s.hi * 1000 : Nat) }
  (m2.aschMod fun y => { y with picked := y.picked.filter fun z => z.f.home != p.f.home }).count ASCH_ENQCNT fASCH_ENQCNT_RETURNED

/-- A grant comes back: its bytes are backlog again (R350, R354). -/
def Mach.grantReturn (m : Mach) (p : Picked) : Mach :=
  let a := m.queue p.queue
  (m.setQueue p.queue { a with backlog := a.backlog + p.f.home }).count ASCH_ENQCNT fASCH_ENQCNT_RETURNED

/-- Picks made against an armature that is not active at their beat's start come back, and the beat's slots go EMPTY (R350);
picks of past beats go. -/
def Mach.pickCheck (m : Mach) : Mach :=
  let bad := m.asch.picks.filter fun p => p.beat == m.beat && p.armId != m.act.armId
  let m1 := (m.aschMod fun a =>
    { a with picks := a.picks.filter fun p => decide (m.beat ≤ p.beat) && !(bad.contains p), expect := none
             voided := a.expect.any fun i => i != m.act.armId }).wmacMod fun w =>
      { w with carried := w.carried ++ (bad.map fun p => p.along.map fun f => ⟨p.kind, p.radio, f⟩).flatten }
  m1.forEach bad fun x p => x.forEach p.frames.reverse fun y f => if p.kind = 2 then y.pickReturn f else y.grantReturn f

/-! ### Bounds (R363 to R367, R89) -/

/-- The check of open frames and units at a beat start (R366). -/
def Mach.boundAge (m : Mach) : Mach :=
  if !m.bit ASCH_CTL fASCH_CTL_BND_EN ∨ !m.actValid then m
  else m.forEach m.act.bounds fun x b =>
    let q := 8 * b.sta + b.tid
    let a := x.queue q
    if b.up then
      match a.units with
      | u :: r =>
        let d := ((x.getBase 0).nsTotal - u.at_) / 1000
        if b.boundUs < d ∧ !u.reported then
          (x.setQueue q { a with units := { u with reported := true } :: r }).violation b (b.cause u.lost) u.lost d true
        else x
      | [] => x
    else
      match a.frames with
      | f :: r =>
        let d := x.ageUs f.entry
        if b.boundUs < d ∧ !f.reported ∧ f.prov = 0 then
          (x.setQueue q { a with frames := { f with reported := true } :: r }).violation b (b.cause f.lost) f.lost d true
        else x
      | [] => x

/-- At a swap: flows that the new armature does not bound, or bounds less tightly (R89, R349, R365). BND_EN 0 silences the report, and under
the built-in template it is made of every flow of the old armature's BOUNDS, and so of none at a first swap (DESIGN CHOICE, log 70). -/
def Mach.boundSwap (m : Mach) (old : Bank) : Mach :=
  if !m.bit ASCH_CTL fASCH_CTL_BND_EN then m
  else m.forEach old.bounds fun x b =>
    match x.act.boundOf b.sta b.tid b.up with
    | some c => if b.boundUs < c.boundUs ∨ m.bit ASCH_STAT fASCH_STAT_BUILTIN then x.violation b 4 0 0 false else x
    | none => x.violation b 4 0 0 false

/-! ### Samples (R368 to R370) -/

/-- The first and last queue sampled. -/
def Mach.smpFirst (m : Mach) : Nat := m.rd ASCH_SMPRANGE fASCH_SMPRANGE_FIRST
def Mach.smpLast (m : Mach) : Nat := max m.smpFirst (m.rd ASCH_SMPRANGE fASCH_SMPRANGE_LAST)

/-- The 8 bytes of a queue's sample (R369). -/
def Mach.sample (m : Mach) (q : Nat) : List Byte :=
  let a := m.queue q
  let fs := a.frames.filter fun f => f.prov == 0
  let depth := (fs.map fun f => m.counted a.attr.cls f.len).sum
  let hol := match fs with | f :: _ => m.ageUs f.entry | [] => 0
  bytesLE 4 (min 0xFFFFFFFF depth) ++ bytesLE 3 (min 0xFFFFFF hol) ++ bytesLE 1 (min 255 a.lostPrev)

/-- A frame boundary: the lost counts of the frame before stand still, and the queues are sampled (R368, R370). -/
def Mach.sampleRow (m : Mach) : Mach :=
  let m1 := m.aschMod fun a => { a with queues := a.queues.map fun e => (e.1, { e.2 with lostPrev := e.2.lostNow, lostNow := 0 }) }
  if m1.bit ASCH_CTL fASCH_CTL_SMP_EN then
    let f := m1.smpFirst
    let l := ((List.range (m1.smpLast - f + 1)).map fun j => m1.sample (f + j)).flatten
    m1.aschMod fun a => { a with rows := (a.rows.map fun r => (r.1, true, r.2.2)) ++
      [(m1.frame, false, bytesLE 2 f ++ bytesLE 2 (m1.smpLast - f + 1) ++ bytesLE 4 0 ++ l)] }
  else m1

/-- A row is complete in memory, its header last (R369, R370). -/
def Mach.sampleDone (m : Mach) : Mach :=
  match m.asch.rows with
  | (f, late, l) :: r =>
    let words := codesOf (bytesLE 8 (f % 2 ^ 46 + if late then 2 ^ 63 else 0) ++ l)
    let rows := 2 ^ min 8 (m.rd ASCH_SMPCTL fASCH_SMPCTL_DEPTH_LOG2)
    let m1 := (m.aschMod fun a => { a with rows := r }).dramWrites
      (m.reg64 ASCH_SMPBASE_LO ASCH_SMPBASE_HI + f % rows * (16 * words.length)) words
    ((m1.setReg64 ASCH_SMPLAST_LO ASCH_SMPLAST_HI (f % 2 ^ 46))).count ASCH_SMPSTAT fASCH_SMPSTAT_LATE (if late then 1 else 0)
  | [] => m

end Sys2Proof.Machine
end

