-- ==== Sys2Proof/Machine/RteTables.lean ====
section
/-! DEFINITION. The router's tables (R485 to R492): placement, hash, prefix and direct tables, the ager, wired policers. -/

namespace Sys2Proof.Machine

open Sys2Proof

/-! ### Placement (R485, R486) -/

/-- KIND of a table. -/
def Mach.tblKind (m : Mach) (t : Nat) : Nat := m.rd (RTE_TBLt_CFG t) fRTE_TBLt_CFG_KIND

/-- NLOG2 of a table. -/
def Mach.tblLog2 (m : Mach) (t : Nat) : Nat := m.rd (RTE_TBLt_CFG t) fRTE_TBLt_CFG_NLOG2

/-- The bytes of an entry. -/
def Mach.tblEsz (m : Mach) (t : Nat) : Nat :=
  match m.tblKind t with
  | 1 => if m.bit (RTE_TBLt_CFG t) fRTE_TBLt_CFG_ESZ then 64 else 32
  | 4 => if t = 9 then 64 else 16
  | _ => 4

/-- The bytes of a HASH or DIRECT table. -/
def Mach.tblBytes (m : Mach) (t : Nat) : Nat :=
  2 ^ m.tblLog2 t * m.tblEsz t * if m.tblKind t = 1 then 4 else 1

/-- The bytes of a table's range in the cache. -/
def Mach.tblCache (m : Mach) (t : Nat) : Nat := 65536 * m.rd (RTE_TBLt_PLACE t) fRTE_TBLt_PLACE_CSIZE

/-- Whether the bytes of a table at an offset lie in the cache: all of a HASH or DIRECT table that fits, and the leading part
of an LPM table (R485, R490). -/
def Mach.tblIn (m : Mach) (t off : Nat) : Bool :=
  if m.tblKind t = 1 ∨ m.tblKind t = 4 then decide (m.tblBytes t ≤ m.tblCache t) else decide (off < m.tblCache t)

/-- The class SRAM address of a table's cache range. -/
def Mach.tblCacheBase (m : Mach) (t : Nat) : Nat := 0x1800000 + 65536 * m.rd (RTE_TBLt_PLACE t) fRTE_TBLt_PLACE_CBASE

/-- A table's base in DRAM. -/
def Mach.tblBase (m : Mach) (t : Nat) : Nat := m.reg64 (RTE_TBLt_BASE_LO t) (RTE_TBLt_BASE_HI t)

/-- Read `n` words of a table from an offset. -/
def Mach.tblReads (m : Mach) (t off n : Nat) : Mach × List Read :=
  if m.tblIn t off then m.sramReads (m.tblCacheBase t + off) n else m.dramReads (m.tblBase t + off) n

/-- Write a word of a table. -/
def Mach.tblPut (m : Mach) (t off : Nat) (w : Code) : Mach :=
  if m.tblIn t off then m.sramWrite (m.tblCacheBase t + off) w else m.dramWrite (m.tblBase t + off) w

/-- Write words of a table from an offset. -/
def Mach.tblPuts (m : Mach) (t off : Nat) : List Code → Mach
  | [] => m
  | w :: r => (m.tblPut t off w).tblPuts t (off + 16) r

/-- DLVL (R485). -/
def Mach.tblDlvl (m : Mach) (t : Nat) : Nat :=
  match m.tblKind t with
  | 1 => if m.tblBytes t ≤ m.tblCache t then 0 else 1
  | 2 => 3 - min 3 (m.rd (RTE_TBLt_CFG t) fRTE_TBLt_CFG_CLVL)
  | 3 => 7 - m.rd (RTE_TBLt_CFG t) fRTE_TBLt_CFG_CLVL
  | _ => 0

/-- Whether a table's cache range would be refused (R486): it overlaps that of another enabled table, or ends beyond unit 63. -/
def Mach.tblClash (m : Mach) (t : Nat) : Bool :=
  let b (k : Nat) : Nat := m.rd (RTE_TBLt_PLACE k) fRTE_TBLt_PLACE_CBASE
  let s (k : Nat) : Nat := m.rd (RTE_TBLt_PLACE k) fRTE_TBLt_PLACE_CSIZE
  decide (64 < b t + s t) || (List.range 16).any fun k => k != t && m.tblKind k != 0 && decide (b k < b t + s t ∧ b t < b k + s k)

/-! ### Hash tables (R487 to R489) -/

/-- KEYW of a table. -/
def Mach.tblKeyw (m : Mach) (t : Nat) : Nat := m.rd (RTE_TBLt_CFG t) fRTE_TBLt_CFG_KEYW

/-- Whether a hash table can be used: KEYW 1 to 10, and entries of 64 B for more than 4 pieces. -/
def Mach.hashOk (m : Mach) (t : Nat) : Bool :=
  m.tblKind t == 1 && decide (1 ≤ m.tblKeyw t ∧ m.tblKeyw t ≤ 10) && (decide (m.tblKeyw t ≤ 4) || m.tblEsz t == 64)

/-- A key, padded with zero pieces to KEYW. -/
def Mach.keyPad (m : Mach) (t : Nat) (k : List Nat) : List Nat := slice 0 k 0 (m.tblKeyw t)

/-- The CRC-32C of a key's pieces (R487). -/
def keyHash (k : List Nat) : Nat := match crcPoly 1 with | some p => crcOf p ((k.map fun x => bytesLE 4 x).flatten) | none => 0

/-- The two buckets of a hash (R487). -/
def buckets (n h : Nat) : Nat × Nat :=
  let b1 := h % 2 ^ n
  (b1, Nat.xor b1 (Nat.lor (h / 2 ^ (32 - n)) 1) % 2 ^ n)

/-- SPREAD of a hash. -/
def spreadOf (h : Nat) : Nat := h / 2 ^ 24 % 256

/-- An entry's words as read: META, RESULT, key pieces; none where one is poisoned (R487). -/
structure HEntry where
  meta_ : Nat
  result : Nat
  key : List Nat
  deriving DecidableEq, Repr

/-- VALID of an entry. -/
def HEntry.valid (e : HEntry) : Bool := e.meta_.testBit 63

/-- Read the entry of an index (R487, R488). -/
def Mach.hashEntry (m : Mach) (t ix : Nat) : Mach × Option HEntry :=
  let r := m.tblReads t (m.tblEsz t * ix) (m.tblEsz t / 16)
  (r.1, (readBytes r.2).map fun l =>
    ⟨numLE (slice 0 l 0 8), numLE (slice 0 l 8 8), (List.range (m.tblKeyw t)).map fun i => numLE (slice 0 l (16 + 4 * i) 4)⟩)

/-- Write an entry. -/
def Mach.hashPut (m : Mach) (t ix : Nat) (e : HEntry) : Mach :=
  let l := bytesLE 8 e.meta_ ++ bytesLE 8 e.result ++ (e.key.map fun x => bytesLE 4 x).flatten
  m.tblPuts t (m.tblEsz t * ix) (codesOf (slice 0 l 0 (m.tblEsz t)))

/-- The entries of a bucket with their indexes. -/
def Mach.bucket (m : Mach) (t b : Nat) : Nat → Mach × Option (List (Nat × HEntry))
  | 0 => (m, some [])
  | k + 1 =>
    let r := m.bucket t b k
    let x := r.1.hashEntry t (4 * b + k)
    (x.1, match r.2, x.2 with
      | some l, some e => some (l ++ [(4 * b + k, e)])
      | _, _ => none)

/-- Both buckets of a key (R487). -/
def Mach.hashRead (m : Mach) (t : Nat) (key : List Nat) : Mach × Option (List (Nat × HEntry) × List (Nat × HEntry)) :=
  let b := buckets (m.tblLog2 t) (keyHash key)
  let r := m.bucket t b.1 4
  let s := r.1.bucket t b.2 4
  (s.1, match r.2, s.2 with
    | some x, some y => some (x, y)
    | _, _ => none)

/-- TB0 seconds [31:0]. -/
def Mach.tb0Sec (m : Mach) : Nat := (m.getBase 0).s.toNat % 2 ^ 32

/-- META with LAST set to now. -/
def Mach.metaNow (m : Mach) (v : Nat) : Nat := v / 2 ^ 32 * 2 ^ 32 + m.tb0Sec

/-- What a hash operation answers: STATUS, entry index, RESULT (R488). -/
structure HAns where
  st : Nat
  ix : Nat
  result : Nat
  deriving DecidableEq, Repr

/-- FIND (R488). -/
def Mach.hashFind (m : Mach) (t : Nat) (key : List Nat) (touch : Bool) : Mach × HAns :=
  let r := m.hashRead t key
  match r.2 with
  | none => (r.1, ⟨4, 0, 0⟩)
  | some (x, y) => match (x ++ y).find? fun e => e.2.valid && e.2.key == key with
    | some (ix, e) => (if touch then r.1.hashPut t ix { e with meta_ := r.1.metaNow e.meta_ } else r.1, ⟨0, ix, e.result⟩)
    | none => (r.1, ⟨1, 0, 0⟩)

/-- INSERT (R488): into the emptier bucket, b1 on a tie. -/
def Mach.hashInsert (m : Mach) (t : Nat) (key : List Nat) (result : Nat) (static : Bool) : Mach × HAns :=
  let r := m.hashRead t key
  match r.2 with
  | none => (r.1, ⟨4, 0, 0⟩)
  | some (x, y) => match (x ++ y).find? fun e => e.2.valid && e.2.key == key with
    | some (ix, e) => (r.1, ⟨2, ix, e.result⟩)
    | none =>
      let free (l : List (Nat × HEntry)) : List (Nat × HEntry) := l.filter fun e => !e.2.valid
      match (if (free x).length < (free y).length then free y else free x) with
      | (ix, _) :: _ => (r.1.hashPut t ix ⟨2 ^ 63 + (if static then 2 ^ 62 else 0) + r.1.tb0Sec, result, key⟩, ⟨0, ix, result⟩)
      | [] => (r.1, ⟨3, 0, 0⟩)

/-- DELETE (R488). -/
def Mach.hashDelete (m : Mach) (t : Nat) (key : List Nat) : Mach × HAns :=
  let r := m.hashRead t key
  match r.2 with
  | none => (r.1, ⟨4, 0, 0⟩)
  | some (x, y) => match (x ++ y).find? fun e => e.2.valid && e.2.key == key with
    | some (ix, e) => (r.1.hashPut t ix { e with meta_ := e.meta_ - 2 ^ 63 }, ⟨0, ix, e.result⟩)
    | none => (r.1, ⟨1, 0, 0⟩)

/-- Words A and B of an answer (R488). -/
def HAns.words (a : HAns) (spread : Nat) : List TWord :=
  [intWord (a.st * 2 ^ 56 + spread * 2 ^ 48 + a.ix), intWord (if a.st = 0 ∨ a.st = 2 then a.result % 2 ^ 60 else 0)]

/-- One step of the ager (R492). -/
def Mach.ageStep (m : Mach) : Mach :=
  let t := m.rte.ageTbl
  let i := m.rte.ageAt
  let n := 4 * 2 ^ m.tblLog2 t
  let age := m.rd (RTE_TBLt_PLACE t) fRTE_TBLt_PLACE_AGE_S
  let next : Mach → Mach := fun x => x.rteMod fun r =>
    if i + 1 < n then { r with ageAt := i + 1 } else { r with ageTbl := (t + 1) % 16, ageAt := 0 }
  let r := m.hashEntry t i
  next <| match r.2 with
    | some e =>
      if e.valid ∧ !e.meta_.testBit 62 ∧ age < r.1.tb0Sec - e.meta_ % 2 ^ 32 then
        r.1.hashPut t i { e with meta_ := e.meta_ - 2 ^ 63 }
      else r.1
    | none => r.1

/-- Whether the ager walks a table. -/
def Mach.aged (m : Mach) (t : Nat) : Bool := m.hashOk t && m.rd (RTE_TBLt_PLACE t) fRTE_TBLt_PLACE_AGE_S != 0

/-- The ager's work of a beat (R492): `k` entries. -/
def Mach.ageRun : Nat → Mach → Mach
  | 0, m => m
  | k + 1, m =>
    let t := (List.range 17).findSome? fun d => let u := (m.rte.ageTbl + d) % 16; if m.aged u then some (u, d) else none
    match t with
    | some (u, d) =>
      let m1 := if d = 0 then m else m.rteMod fun r => { r with ageTbl := u, ageAt := 0 }
      Mach.ageRun k m1.ageStep
    | none => m

/-- The ager at a beat start (R492). -/
def Mach.ageBeat (m : Mach) : Mach :=
  if m.bit RTE_AGECTL fRTE_AGECTL_EN then Mach.ageRun (max 1 (m.rd RTE_AGECTL fRTE_AGECTL_RATE)) m
  else m

/-! ### Prefix tables (R490) -/

/-- A four-byte entry of a table; the POISON word where its code word is poisoned. -/
def Mach.lpmEntry (m : Mach) (t off : Nat) : Mach × Except TWord Nat :=
  let r := m.tblReads t (off / 16 * 16) 1
  (r.1, match r.2 with
    | x :: _ => match x.poison with
      | some p => .error p
      | none => .ok ((codeData x.code).toNat / 2 ^ (8 * (off % 16)) % 2 ^ 32)
    | [] => .ok 0)

/-- A walk from an entry's offset over the levels left (R490). -/
def Mach.lpmWalk (t addr : Nat) : Nat → Mach → Nat → Nat → Mach × TWord
  | k, m, off, sh =>
    let r := m.lpmEntry t off
    match r.2 with
    | .error p => (r.1, p)
    | .ok e =>
      if e.testBit 31 then
        match k with
        | 0 => (r.1, intWord (2 ^ 56))
        | j + 1 => Mach.lpmWalk t addr j r.1 (262144 + 1024 * (e % 2 ^ 21) + 4 * (addr / 2 ^ (sh - 8) % 256)) (sh - 8)
      else if e.testBit 30 then (r.1, intWord (e % 2 ^ 24))
      else (r.1, intWord (2 ^ 56))

/-- LOOKUP (R490): 3 levels for IPv4, 7 for IPv6. -/
def Mach.lpmLookup (m : Mach) (t addr : Nat) : Mach × TWord :=
  if m.tblKind t = 2 then Mach.lpmWalk t addr 2 m (4 * (addr / 2 ^ 16 % 65536)) 16
  else Mach.lpmWalk t addr 6 m (4 * (addr / 2 ^ 112 % 65536)) 112

/-! ### Wired policers (R496) -/

/-- A wired policer. -/
def Mach.wpol (m : Mach) (i : Nat) : Shaper := tabGet Shaper.zero m.rte.pol i

/-- Change a wired policer. -/
def Mach.setWpol (m : Mach) (i : Nat) (s : Shaper) : Mach := m.rteMod fun r => { r with pol := tabSet Shaper.zero r.pol i s }

/-- JUDGE (R360, R496): 0 CONFORM, 1 DROP, 2 MARK. -/
def Mach.judge (m : Mach) (i len : Nat) : Mach × Nat :=
  let p := m.wpol i
  if 0 ≤ p.credit then (m.setWpol i (p.debit (len + 24)), 0)
  else (m, if p.action = 0 then 1 else 2)

/-- Accrual of the wired policers at a tick (R360). -/
def Mach.wpolAccrue (m : Mach) (us : Nat) : Mach := m.forEach m.rte.pol fun x e => x.setWpol e.1 (e.2.fill us)

/-- Pending changes of the wired policers take effect (R358). -/
def Mach.wpolApply (m : Mach) : Mach :=
  m.forEach (m.rte.pol.filter fun e => e.2.pend.isSome) fun x e => x.setWpol e.1 e.2.change

end Sys2Proof.Machine
end

