-- ==== Sys2Proof/Machine/Beacon.lean ====
section
/-! DEFINITION. Building beacons from their templates (R318): the TSF, the Beacon Interval, the DTIM count and the partial virtual bitmap.
Where these stand in a beacon is the frame format of IEEE 802.11 (PRESUMED, log 77). -/

namespace Sys2Proof.Machine

open Sys2Proof

/-- Offset and whole length of the first TIM element among the elements that `l` starts. -/
def timFind : Nat → List Byte → Nat → Option (Nat × Nat)
  | k + 1, t :: n :: r, o => if t = 5 then some (o, 2 + n.toNat) else timFind k (r.drop n.toNat) (o + 2 + n.toNat)
  | _, _, _ => none

/-- The stations of a radio that sleep while downlink frames wait for them, in a queue or in staging, by AID (R299, R300). -/
def Mach.timAids (m : Mach) (x : Nat) : List Nat :=
  m.wmac.stas.filterMap fun e => match e.2 with
    | some s =>
      let waits := (List.range 8).any (fun t => (m.queue (8 * e.1 + t)).frames != []) ||
        [0, 1, 2].any fun y => (m.stg y).subs.any fun u => u.sta == e.1 && !u.group
      if s.power ≠ 0 ∧ m.servedOn (8 * e.1) x ∧ waits then some (s.byte 2 + 256 * s.byte 3) else none
    | none => none

/-- Whether group-addressed frames of a BSS wait in staging. -/
def Mach.groupWaits (m : Mach) (b : Nat) : Bool := (m.stg (b / 16)).subs.any fun u => u.group && u.bss == b

/-- Bitmap control and partial virtual bitmap: whether group frames of the transmitted BSSID wait, and the bits that are set. -/
def timBitmap (group : Bool) (set : List Nat) : List Byte :=
  let bytes := (List.range 251).map fun i => bitsOf 8 fun j => set.contains (8 * i + j)
  let used := (List.range 251).filter fun i => bytes.getD i 0 != 0
  let lo := used.headD 0 / 2 * 2
  let hi := used.getLast?.getD 0
  bytesLE 1 (lo + if group then 1 else 0) ++ ((bytes.drop lo).take (hi + 1 - lo)).map (BitVec.ofNat 8)

/-- The TIM element of a BSS's beacon: the other BSSs of the radio have their group bit at their index. -/
def Mach.timElement (m : Mach) (b : Nat) : List Byte :=
  let x := b / 16
  let others := (List.range 16).filter fun j => 16 * x + j != b && m.groupWaits (16 * x + j)
  let map := timBitmap (m.groupWaits b) (others ++ m.timAids x)
  bytesLE 1 5 ++ bytesLE 1 (2 + map.length) ++ bytesLE 1 (tabGet 0 m.wmac.dtim b) ++
    bytesLE 1 (max 1 (m.rd (WMAC_BSSi_CFG b) fWMAC_BSSi_CFG_DTIM_PERIOD)) ++ map

/-- The Beacon Interval in TU: the period of the BCN slot of the BSS (R318, R771); none where the armature has no such slot. -/
def Mach.beaconTu (m : Mach) (b : Nat) : Option Nat :=
  (m.act.slots.find? fun s => s.kind == 0 && s.radio == b / 16 && s.param % 16 == b % 16).map fun s =>
    4 * s.frames m.act.cycle * m.beatNs / 1024000

/-- The beacon of a BSS that starts now with chain `c` the lowest of its chains; a BSS without a template has none. -/
def Mach.beaconBytes (m : Mach) (b c : Nat) : List Byte :=
  let l := tabGet [] m.wmac.beacons b
  if l.length < 36 then []
  else
    let tsf := ((m.getBase (b / 16 + 1)).nsTotal + m.txLag (b / 16) c / 80) / 1000
    let head := l.take 24 ++ bytesLE 8 tsf ++ (match m.beaconTu b with | some n => bytesLE 2 n | none => slice 0 l 32 2) ++ slice 0 l 34 2
    let rest := l.drop 36
    head ++ match timFind 256 rest 0 with
      | some (o, n) => rest.take o ++ m.timElement b ++ rest.drop (o + n)
      | none => rest

end Sys2Proof.Machine
end

