-- ==== Sys2Proof/Machine/WmacOps.lean ====
section
/-! DEFINITION. The Wi-Fi MAC (R296 to R338): slots, attempts, acknowledgements, reception and reorder, staging, packet
numbers. -/

namespace Sys2Proof.Machine

open Sys2Proof

/-! ### Shared parts -/

/-- Whether the unit is the standby of a pair (R302, R629, R635). -/
def Mach.isStandby (m : Mach) : Bool := m.rd CHN_STAT fCHN_STAT_ROLE == 4

/-- The medium condition of R304: the primary idle, and no NAV of another BSS; it is busy until the end of a response of the radio's own
(R302). -/
def Mach.mediumIdle (m : Mach) (x : Nat) : Bool :=
  !(m.getRadio x).tx.any (fun t => t.kind == 2) && !(m.busyMask x).getLsbD (primAt x (m.radioChan x)) && !(m.getSq x).nav

/-- Whether R314 holds a start on M or H back: the other radio receives a PPDU addressed to a BSS of the device. -/
def Mach.nstrHeld (m : Mach) (x : Nat) : Bool :=
  x != 0 && !m.strOk && (m.getBb (3 - x)).rx.state == 3 && (m.getBb (3 - x)).rx.own

/-- Whether a PPDU that starts now ends more than 4 µs before or after another (R314). -/
def Mach.endsApart (m : Mach) (p : TxPlan) (t : RfTx) : Bool :=
  decide (m.tb5 + p.ppdu + 4000 < t.start + t.len ∨ t.start + t.len + 4000 < m.tb5 + p.ppdu)

/-- Whether R314 lets a transmit wait: a start is held back, or the other radio sends what solicits a response and the two ends, the
plan's padding counted, lie too far apart. -/
def Mach.nstrWaits (m : Mach) (x : Nat) (p : TxPlan) : Bool :=
  m.nstrHeld x || (x != 0 && !m.strOk && (m.getRadio (3 - x)).tx.any fun t => t.solicits && m.endsApart p t)

/-- A subframe by its number, with its radio. -/
def Mach.subOf (m : Mach) (id : Nat) : Option (Nat × Sub) :=
  [0, 1, 2].findSome? fun x => ((m.stg x).subs.find? fun u => u.id == id).map fun u => (x, u)

/-- Change a subframe. -/
def Mach.subMod (m : Mach) (x id : Nat) (f : Sub → Sub) : Mach :=
  m.setStg x { m.stg x with subs := (m.stg x).subs.map fun u => if u.id = id then f u else u }

/-- RETRY_LIMIT. -/
def Mach.retryLimit (m : Mach) : Nat := m.rd WMAC_CTL fWMAC_CTL_RETRY_LIMIT

/-- An MPDU leaves the MAC: its subframe and its home copy, with the end of its last PPDU (R310, R323, R346, R364). -/
def Mach.subDone (m : Mach) (x : Nat) (u : Sub) (dropped : Bool) (t : BitVec 60) : Mach :=
  let m1 := (m.stageDrop x u.id).frameDone u.home dropped t
  m1.wmacMod fun w => { w with carried := w.carried.filter fun h => h.kind != 2 || h.p.f.home != u.home }

/-- A failed attempt of a subframe (R310, R325): counted once, and the MPDU is dropped after its last attempt. -/
def Mach.attemptFail (m : Mach) (x : Nat) (u : Sub) : Mach :=
  let m1 := if u.nulled then m else m.lostOne u.home
  if m.retryLimit < u.tries then m1.subDone x u true m.timePayload else m1.subMod x u.id fun v => { v with air := false, nulled := false }

/-! ### Slots (R304 to R311, R314) -/

/-- The pick for a slot. -/
def Mach.pickOf (m : Mach) (x beat start : Nat) : Option Pick :=
  m.asch.picks.find? fun p => p.radio == x && p.beat == beat && p.start == start

/-- The content of a missed slot is carried on, a slip for each queue it holds (R309, R310, R364). -/
def Mach.slipContent (m : Mach) (x : Nat) (r : SlotRun) : Mach :=
  match m.pickOf x r.beat r.slot.start with
  | none => m
  | some p =>
    let all := p.frames ++ p.along
    let qs := (all.map fun f => f.queue).eraseDups
    let m1 := m.forEach qs fun y q => let a := y.queue q; y.setQueue q { a with lostNow := a.lostNow + 1 }
    let m2 := (m1.wmacMod fun w => { w with carried := w.carried ++ all.map fun f => ⟨r.slot.kind, x, f⟩ }).aschMod fun a =>
      { a with picks := a.picks.filter fun z => z != p }
    if r.slot.kind = 2 then
      let more (z : Picked) : Picked :=
        if all.any fun f => f.f.home == z.f.home then { z with f := { z.f with lost := z.f.lost + 1 } } else z
      m2.aschMod fun a => { a with picked := a.picked.map more }
    else m2.forEach qs fun y q => let a := y.queue q; y.setQueue q { a with units := a.units.map fun u => { u with lost := u.lost + 1 } }

/-- A slot ends without starting (R311, R338), and the radio needs it no longer. -/
def Mach.slotEnds (m : Mach) (x st : Nat) (r : SlotRun) : Mach :=
  let m1 := (m.slotMark x st r.beat r.slot).sqMod x fun q => { q with slot := none }
  (if slipStatus st ∧ (r.slot.kind = 2 ∨ r.slot.kind = 3) then m1.slipContent x r else m1).radioRelax x

/-- A beacon goes out (R318): it is built and the DTIM count runs down; the first one ends step 11 of start-up (R707, R726). -/
def Mach.beaconSent (m : Mach) (b c : Nat) : Mach :=
  let per := max 1 (m.rd (WMAC_BSSi_CFG b) fWMAC_BSSi_CFG_DTIM_PERIOD)
  let m1 := if m.rd SYS_BOOTSTAT fSYS_BOOTSTAT_STEP = 11 then
      (m.wr SYS_BOOTSTAT fSYS_BOOTSTAT_STEP 12).wr SYS_BOOTTIME fSYS_BOOTTIME_BCN_MS (min 0xFFFF (m.tim.up / 400000))
    else m
  m1.wmacMod fun w => { w with built := tabSet [] w.built b (m.beaconBytes b c),
                               dtim := tabMod 0 w.dtim b fun c => if c = 0 then per - 1 else c - 1 }

/-- The transmitted BSSIDs of a radio, by their position among its BSSs (R337). -/
def Mach.beaconBss (m : Mach) (x : Nat) : List Nat :=
  (List.range 16).filter fun b => m.bit (WMAC_BSSi_CFG (16 * x + b)) fWMAC_BSSi_CFG_EN && m.bit (WMAC_BSSi_CFG (16 * x + b)) fWMAC_BSSi_CFG_TX_BSSID

/-- The first slot of a radio after a takeover's replay sends a beacon for each transmitted BSSID ahead of its content; with the
last radio's the unit is ACTIVE (R641). -/
def Mach.takeBeacons (m : Mach) (x : Nat) : Mach :=
  if m.chn.beacons.contains x then
    let m1 := (m.forEach (m.beaconBss x) fun y b => y.beaconSent (16 * x + b) 0).chnMod fun c => { c with beacons := c.beacons.filter fun y => y != x }
    if m1.chn.beacons = [] ∧ m1.role = 5 then
      (((m1.setRole 2).chnMod fun c => { c with since := m1.beat }).count CHN_TOKCNT fCHN_TOKCNT_TAKEOVERS).event 0x140A 0
        [(6, m1.beat)]
    else m1
  else m

/-- A slot has started (R311). -/
def Mach.slotStarted (m : Mach) (x : Nat) (r : SlotRun) : Mach :=
  ((m.takeBeacons x).slotMark x 0 r.beat r.slot).sqMod x fun q => { q with slot := some { r with waiting := false } }

/-- The status with which a slot ends at START, if one applies (R311); EMPTY where ASCH is off, where PARAM names no template, and
where the picks expected another armature (R349, R350, R372). DEP_OVERRUN comes before HOLD, which the spec does not order (DESIGN CHOICE,
log 70); among FENCED, RX_ONLY and RADIO_OFF the order is that of R260. -/
def Mach.slotBar (m : Mach) (x : Nat) (s : Slot) : Option Nat :=
  if m.depOverrun s then some 3
  else if m.inHold ∨ m.flt.restarting.any (fun b => b == 0x0B || b == 5 + x || b == 8 + x) then some 4
  else if m.txForced then some 7
  else if m.profile = 3 then some 6
  else if m.radioOff x then some 5
  else if (s.kind = 2 ∨ s.kind = 3) ∧ (64 ≤ s.param ∨ !m.bit ASCH_CTL fASCH_CTL_RUN ∨ m.asch.voided) then some 2
  else if s.kind = 2 ∧ (m.pickOf x m.beat s.start).isNone ∧ !(m.stg x).subs.any (fun u => u.staged && !u.air) then some 2
  else if s.kind = 3 ∧ (m.pickOf x m.beat s.start).isNone then some 2
  else none

/-- A slot's START is reached (R304): entry `i` of the radio's table. A slot that may run brings its radio to Rx (R223), and a CONT slot
starts at once and lets the counters that stayed at 0 go on (R312). -/
def Mach.slotOpen (m : Mach) (x i : Nat) : Mach :=
  match (m.slotsOf x)[i]? with
  | none => m
  | some s =>
    if s.kind = 5 ∨ !m.actValid ∨ !m.bit WMAC_CTL fWMAC_CTL_RUN ∨ !slotOccurs m.act s m.beat then m
    else
      let y := m.reachFine (m.fineAt m.beat s.start)
      let r : SlotRun := ⟨s, y.beat, y.tb5, true, false⟩
      match y.slotBar x s with
      | some st => y.slotEnds x st r
      | none => (if s.kind = 4 then (y.sqMod x fun q => { q with parked := [] }).slotStarted x r else y.sqMod x fun q => { q with slot := some r }).radioListen x

/-- Frames that do not fit go back to ASCH (R308, R354). -/
def Mach.handBack (m : Mach) (x : Nat) (homes : List Nat) : Mach :=
  m.forEach homes fun y h =>
    let y1 := y.forEach ((y.stg x).subs.filter fun u => u.home == h && u.tries == 0 && !u.air) fun z u => z.stageDrop x u.id
    match y1.asch.picked.find? fun p => p.f.home == h with
    | some p => y1.pickReturn p
    | none => y1

/-- The subframes of a plan as they stand on a radio: one staged on another link moves over when CROSS_LINK lets it (R315),
one whose key is gone is dropped (R332). -/
def Mach.planSubs (m : Mach) (x : Nat) : List Nat → Mach × List Nat
  | [] => (m, [])
  | id :: r =>
    match m.subOf id with
    | none => m.planSubs x r
    | some (y, u) =>
      if u.prov ≠ 0 ∨ u.wait ∨ u.air ∨ u.lost.isSome ∨ (m.getBase 0).nsTotal < u.ready then m.planSubs x r
      else if !m.keyLive u then (m.subDone y u true m.timePayload).planSubs x r
      else if y = x then let t := m.planSubs x r; (t.1, id :: t.2)
      else if m.bit WMAC_MLOCTL fWMAC_MLOCTL_CROSS_LINK ∧ 0 < u.tries ∧ m.servedOn (8 * u.sta) x then
        let t := ((m.stageDrop y id).stageWrite x u).planSubs x r
        (t.1, id :: t.2)
      else m.planSubs x r

/-- A transmit was not sent: its subframes wait on, a lost opportunity each (R310). -/
def Mach.unsent (m : Mach) (x : Nat) (ids : List Nat) : Mach :=
  m.forEach ids fun y id => match y.subOf id with
    | some (_, u) => (y.subMod x id fun v => { v with air := false }).lostOne u.home
    | none => y

/-- Whether a station's entry allows what a PPDU of a format and width sends it on radio `x`: width, streams, MCS, format (R300, R597);
a group has no entry. -/
def Mach.staTakes (m : Mach) (x f w : Nat) (u : TxUser) : Bool :=
  match u.sta with
  | none => true
  | some s => match m.sta s with
    | none => false
    | some e =>
      let c (i : Nat) : Nat := (e.record.getD (0x20 + 4 * x + i) 0).toNat
      let k := if f = 2 then 0 else if f = 3 then 1 else if f < 8 then 2 else 3
      decide (w ≤ c 0 ∧ u.streams ≤ c 1) && (decide (f < 2) || (decide (u.mcs ≤ c 2) && (c 3).testBit k))

/-- Whether the MAC may send what a PPDU is: a trigger within R268, the parts of a sounding in their order (R269). -/
def Mach.contentOk (m : Mach) (x : Nat) : Content → Bool
  | .frames => true
  | .trigger ask => (ulWithin x (m.rxChains x).length [] ask).all id && decide ((rusOf ask).length ≤ ruTop x)
  | .ndpa stas => stas != []
  | .ndp => (m.getSq x).sound.any fun s => decide (s.sent < s.need)
  | .bfTrigger => (m.getSq x).sound.any fun s => s.sent == s.need

/-- The chains of a PPDU: on a sounding of two NDPs each goes out on its group of 8 (R269). -/
def Mach.planChains (m : Mach) (x : Nat) (p : TxPlan) : BitVec 16 :=
  match p.content, (m.getSq x).sound with
  | .ndp, some s => if s.need = 2 then p.chains &&& (0xFF#16 <<< (8 * s.sent)) else p.chains
  | _, _ => p.chains

/-- The transmit that a plan makes: on the subchannels that R305 leaves it, `busy` among them; none where R265, R267, R268, R271, R300 or
the slot's `room` in coded bits does not let the MAC send it (DESIGN CHOICE, log 74). -/
def Mach.planForm (m : Mach) (x kind : Nat) (busy : BitVec 16) (room : Nat) (p : TxPlan) (subs : List Nat) : Option RfTx :=
  let prim := primAt x (m.radioChan x)
  let s := ppduShape x prim p.format (min p.bw (getFld (m.radioChan x) fRFx_CHAN_BW)) (m.getRadio x).punct
    (busy &&& ~~~BitVec.ofNat 16 (2 ^ prim))
  let users := p.users.map fun u => { u with tones := min u.tones (toneTop s.1) }
  if ppduOk x p.format s.1 p.gi.toNat users && dlOk x (chainList p.chains).length users && users.all (m.staTakes x p.format s.1) &&
      m.contentOk x p.content && decide (p.bits ≤ room) then
    some ⟨kind, m.planChains x p, s.2, s.1, p.format, p.content, m.steerOk x p.steer, p.power.toInt, m.tb5, p.ppdu, subs, p.solicits, false,
      none, [], []⟩
  else none

/-- Whether an exchange fits its slot: within LEN − LATEST (R308), or in a CONT slot by the slot's end (R312). -/
def Mach.slotFits (m : Mach) (r : SlotRun) (p : TxPlan) : Bool :=
  if r.slot.kind = 4 then decide (m.tb5 + p.whole ≤ m.fineAt r.beat (r.slot.start + r.slot.len))
  else decide (p.whole ≤ (r.slot.len - r.slot.latest) * m.beatNs / 256)

/-- The MAC forms a PPDU for a slot and gives it to the radio (R305, R308, R310, R673). -/
def Mach.macSend (m : Mach) (x : Nat) (r : SlotRun) (p : TxPlan) : Mach :=
  let m0 := m.handBack x p.back
  match (if m0.slotFits r p then m0.planForm x 0 (p.busy ||| m0.busyMask x) (1024 * r.slot.kbits) p [] else none) with
  | none => m0
  | some t0 =>
    let s := m0.planSubs x p.subs
    let m1 := s.1.forEach s.2 fun y id => match y.subOf id with
      | some (_, u) => (y.subMod x id fun v => { v with air := true }).journal 0x07 portWMAC 0 0 (x + 4 * (8 * u.sta + u.tid))
          [encodeCode (datumOf (bytesLE 2 u.seq ++ bytesLE 6 u.pn ++ bytesLE 6 y.beat))]
      | none => y
    let homes := s.2.filterMap fun id => (m1.subOf id).map fun e => e.2.home
    let m2 := (m1.sqMod x fun q => { q with lateSubs := q.lateSubs.filter fun i => !s.2.contains i }).wmacMod fun w =>
      { w with carried := w.carried.filter fun h => h.kind != 2 || !homes.contains h.p.f.home }
    let r := m2.radioTx x { t0 with subs := s.2 }
    match r.2 with
    | some (t, _) => r.1.unsent x t.subs
    | none => r.1

/-- The slot's content starts. -/
def Mach.slotGo (m : Mach) (x : Nat) (r : SlotRun) (p : TxPlan) : Mach :=
  let m1 := m.slotStarted x r
  let m2 := if r.slot.kind = 0 then m1.beaconSent (16 * x + r.slot.param % 16) ((chainList p.chains).headD 0) else m1
  m2.macSend x r p

/-- The medium condition holds and the slot starts (R304, R314). -/
def Mach.slotStart (m : Mach) (x : Nat) (p : TxPlan) : Mach :=
  match (m.getSq x).slot with
  | some r =>
    if !r.waiting then m
    else if m.nstrWaits x p then m.sqMod x fun q => { q with slot := some { r with nstr := true } }
    else if m.mediumIdle x then m.slotGo x r p
    else m
  | none => m

/-- START + LATEST passes (R306, R307, R313, R314): OBSS_CUT may cut a foreign reception. -/
def Mach.slotMiss (m : Mach) (x : Nat) (p : TxPlan) : Mach :=
  match (m.getSq x).slot with
  | some r =>
    if !r.waiting then m
    else
      let y := m.reachFine (m.fineAt r.beat (r.slot.start + r.slot.latest))
      let rx := (y.getBb x).rx
      if y.bit WMAC_CTL fWMAC_CTL_OBSS_CUT ∧ 1 ≤ r.slot.kind ∧ r.slot.kind ≤ 3 ∧ rx.state = 3 ∧ rx.foreign ∧ y.tb5 < rx.endAt ∧
          !y.nstrWaits x p then y.slotGo x r p
      else y.slotEnds x (if r.nstr ∨ y.nstrWaits x p then 8 else 1) r
  | none => m

/-! ### Attempts and responses (R302, R303, R310) -/

/-- A part of a sounding has gone out (R269): an NDP announcement opens it, on radio H with more than 8 chains in use for two NDPs. -/
def Mach.soundSent (m : Mach) (x : Nat) : Content → Mach
  | .ndpa stas => m.sqMod x fun q => { q with sound := some ⟨stas, if 8 < (m.rxChains x).length then 2 else 1, 0, m.frame, []⟩ }
  | .ndp => m.sqMod x fun q =>
      { q with sound := q.sound.map fun s => { s with sent := s.sent + 1, frame := if s.sent = 0 then m.frame else s.frame } }
  | _ => m

/-- A station's compressed feedback for NDP `k` of the sounding under way (R269, R270): with those of all its NDPs its matrices enter the
store, joined. -/
def Mach.feedbackIn (m : Mach) (x sta k : Nat) (bytes : List Byte) : Mach :=
  match (m.getSq x).sound with
  | none => m
  | some s =>
    if !s.stas.contains sta ∨ s.sent ≤ k then m
    else
      let parts := (sta, k, bytes) :: s.parts.filter fun e => e.1 != sta || e.2.1 != k
      let mats := (List.range s.need).filterMap fun j => (parts.find? fun e => e.1 == sta && e.2.1 == j).map fun e => e.2.2
      let m1 := m.sqMod x fun q => { q with sound := some { s with parts := parts } }
      if mats.length = s.need then m1.steerPut x ⟨sta, s.frame, mats⟩ else m1

/-- A transmit of the MAC has ended at the radio (R225, R303, R310). -/
def Mach.macTxEnd (m : Mach) (x : Nat) (t : RfTx) (st : Nat) : Mach :=
  if 1 < st then m.unsent x t.subs
  else
    let m1 := m.forEach t.subs fun y id => match y.subOf id with
      | some (_, u) =>
        if u.group then y.subDone x u false y.timePayload
        else y.subMod x id fun v => { v with tries := v.tries + 1, air := false }
      | none => y
    let m2 := m1.sqMod x fun q => if t.kind = 2 then { q with owe := false } else q
    let m3 := m2.soundSent x t.content
    if t.solicits then
      (m3.sqMod x fun q => { q with await := some (t.subs.filter fun id => (m1.subOf id).isSome), sentAt := m.timePayload }).radioListen x
    else m3

/-- What a radio's transmit end means for the MAC. -/
def Mach.macAfter (x : Nat) (r : Mach × TxEnd) : Mach :=
  match r.2 with
  | some (t, st) => r.1.macTxEnd x t st
  | none => r.1

/-- The transmits that wait at a radio go on in turn, until one holds the radio (R226, R229). -/
def Mach.txDrain (x : Nat) : Nat → Mach → Mach
  | 0, m => m
  | k + 1, m =>
    let r := m.txNext x
    match r.2 with
    | some (t, st) => Mach.txDrain x k (r.1.macTxEnd x t st)
    | none => r.1

/-- What an event of a radio leaves: the MAC takes a transmit's end, transmits that wait go on, and what waited for a free radio begins
(R226, R238, R247). -/
def Mach.afterRadio (x : Nat) (r : Mach × TxEnd) : Mach :=
  let m := Mach.macAfter x r
  (Mach.txDrain x ((m.getRadio x).waitTx.length + 2) m).radioFree x

/-- The last sample of a PPDU is sent (R225, R258, R286). -/
def Mach.ppduTxEnd (m : Mach) (x : Nat) (pd canc : List (Nat × Nat)) : Mach :=
  let r := m.radioTxEnd x pd
  match r.2 with
  | some e => Mach.afterRadio x (r.1.strMeasure x canc, some e)
  | none => r.1

/-- SIFS after a soliciting PPDU (R302): no response where the radio may not transmit, and none from a standby. Whatever is busy, it goes
out. -/
def Mach.responseSend (m : Mach) (x : Nat) (p : TxPlan) : Mach :=
  if !(m.getSq x).owe then m
  else
    let m1 := m.sqMod x fun q => { q with owe := false }
    match m1.planForm x 2 0 p.bits p [] with
    | some t => if m.isStandby ∨ (m1.txRefusal x t).isSome then m1 else Mach.macAfter x (m1.radioTx x t)
    | none => m1

/-- The response timeout (R303): a detected PPDU is no miss. A radio that listened for the response alone goes to its rest state. -/
def Mach.responseTimeout (m : Mach) (x : Nat) : Mach :=
  match (m.getSq x).await with
  | some ids =>
    if (m.getBb x).rx.state ≠ 0 then m
    else
      let m1 := m.sqMod x fun q => { q with await := none, lateSubs := ids }
      (m1.when (!m1.slotRuns x) fun y => y.radioRelax x).forEach ids fun y id =>
        match y.subOf id with
        | some (_, u) => y.attemptFail x u
        | none => y
  | none => m

/-- The starting sequence number of a transmit agreement after an acknowledgement (R319, R673). -/
def Mach.baAdvance (m : Mach) (sta tid : Nat) (seqs : List Nat) : Mach :=
  let k := 16 * sta + tid
  match tabGet none m.wmac.baTx k with
  | none => m
  | some b =>
    let left := [0, 1, 2].findSome? fun x => ((m.stg x).subs.find? fun u => u.sta == sta && u.tid == tid && u.prov == 0).map
      fun u => u.seq
    let s := left.getD (((seqs.getLast?.getD b.start) + 1) % 4096)
    if s = b.start then m
    else (m.wmacMod fun w => { w with baTx := tabSet none w.baTx k (some { b with start := s }) }).journal 0x08 portWMAC 0 0 k
      [encodeCode (datumOf (bytesLE 8 b.start ++ bytesLE 8 s))]

/-- An acknowledgement arrives (R303, R310, R323, R327): MPDUs of a station and TID by sequence number. -/
def Mach.blockAck (m : Mach) (x sta tid : Nat) (seqs : List Nat) : Mach :=
  let q := m.getSq x
  let named (u : Sub) : Bool := u.sta == sta && u.tid == tid && u.prov == 0 && seqs.contains u.seq && 0 < u.tries && !u.air
  let m1 := m.forEach [0, 1, 2] fun y r => y.forEach ((y.stg r).subs.filter named) fun z u => z.subDone r u false q.sentAt
  let m2 := match q.await with
    | some ids => (m1.sqMod x fun q => { q with await := none }).forEach ids fun y id =>
        match y.subOf id with
        | some (_, u) => if u.sta = sta ∧ u.tid = tid then y.attemptFail x u else y
        | none => y
    | none => if q.lateSubs = [] then m1 else (m1.sqMod x fun q => { q with lateSubs := [] }).count WMAC_RXCNT fWMAC_RXCNT_LATE_RESP
  m2.baAdvance sta tid seqs

/-! ### Contention (R312) -/

/-- A slot time passes for an access category in a CONT slot: a counter without a value draws one below `cw` + 1; at 0 a TXOP
that fits starts, and without one the counter stays at 0 until the next CONT slot. -/
def Mach.backoff (m : Mach) (x ac cw : Nat) (p : Option TxPlan) : Mach :=
  match (m.getSq x).slot with
  | some r =>
    if r.slot.kind ≠ 4 ∨ m.fineAt r.beat (r.slot.start + r.slot.len) < m.tb5 ∨ !m.mediumIdle x ∨ m.nstrHeld x ∨ p.any (fun q => m.nstrWaits x q) ∨ (m.getRadio x).tx.isSome ∨
        (m.getSq x).parked.contains ac then m
    else
      let set (y : Mach) (v : Option Nat) : Mach := y.sqMod x fun q => { q with backoff := tabSet none q.backoff ac v }
      let c : Mach × Nat := match tabGet none (m.getSq x).backoff ac with
        | none => let d := m.drawBelow (cw + 1); (d.2, d.1)
        | some k => (m, k - 1)
      if c.2 ≠ 0 then set c.1 (some c.2)
      else match p.filter (m.slotFits r) with
        | some p => (set c.1 none).macSend x r p
        | none => (set c.1 (some 0)).sqMod x fun q => { q with parked := ac :: q.parked }
  | none => m

/-! ### Reception (R321, R322, R336, R360, R364) -/

/-- An uplink queue's bytes are delivered: its backlog and open units fall (R364, R365). -/
def Mach.uplinkDone (m : Mach) (q len : Nat) : Mach :=
  let a := m.queue q
  let us := a.units.map fun u => { u with left := u.left - len }
  let m1 := m.setQueue q { a with backlog := a.backlog - len, units := us.filter fun u => u.left != 0 }
  if !m.bit ASCH_CTL fASCH_CTL_BND_EN then m1
  else match m.act.boundOf (q / 8) (q % 8) true with
    | none => m1
    | some b => m1.forEach (us.filter fun u => u.left == 0 && !u.reported) fun y u =>
        let d := (y.wmac.airEnd - u.at_) / 1000
        if b.boundUs < d then y.violation b (b.cause u.lost) u.lost d false else y

/-- A station reports the backlog of a TID: a rise opens a unit, from the end of the PPDU that carried the report (R364). -/
def Mach.backlogReport (m : Mach) (q r : Nat) : Mach :=
  let a := m.queue q
  m.setQueue q { a with backlog := r, units := if a.backlog < r then a.units ++ [⟨r, m.wmac.airEnd, 0, false⟩] else a.units }

/-- Hand an MSDU or MMPDU to RTE, judged by its policer: marked where that says so, late where it filled a passed hole
(R322, R360, R481). -/
def Mach.toIntake (m : Mach) (u : Mpdu) (late : Bool) : Mach :=
  let q := 8 * u.sta + u.tid % 8
  let p := if u.tid < 8 then m.police q u.bytes.length else (m, 0)
  let m1 := if u.tid < 8 then p.1.uplinkDone q u.bytes.length else p.1
  if p.2 = 2 then m1
  else
    let r := m1.storeFrame u.bytes 5 (u.tid % 8)
    match r.2 with
    | some h => r.1.rteMod fun s => { s with air := s.air ++ [⟨h, 1, u.sta, u.tid % 8, r.1.timePayload, 0, p.2 == 1, late⟩] }
    | none => r.1

/-- Deliver an MPDU after reorder: MIC, then replay (R322, R336). -/
def Mach.rxDeliverMpdu (m : Mach) (u : Mpdu) (late : Bool) : Mach :=
  if !u.mic then (m.count WMAC_SECCNT fWMAC_SECCNT_MICFAIL).event 0x0B03 u.radio [(2, u.sta)]
  else match u.key with
    | none => (if late then m.count WMAC_RXCNT fWMAC_RXCNT_LATE_DELIV else m).toIntake u late
    | some k =>
      let e := m.keyE k
      let last := tabGet 0 e.rx u.tid
      if late then (m.count WMAC_RXCNT fWMAC_RXCNT_LATE_DELIV).toIntake u late
      else if u.pn ≤ last then m.count WMAC_SECCNT fWMAC_SECCNT_REPLAY
      else ((m.setKeyE k { e with rx := tabSet 0 e.rx u.tid u.pn }).journal 0x08 portWMAC 0 0 (16 * u.sta + u.tid)
        [encodeCode (datumOf (bytesLE 8 last ++ bytesLE 8 u.pn))]).toIntake u late

/-- Insert a held MPDU by its distance from the window's start; a repeat is dropped. -/
def heldInsert (start : Nat) (u : Mpdu) : List Mpdu → List Mpdu
  | [] => [u]
  | v :: r =>
    let d (x : Mpdu) : Nat := (x.seq + 4096 - start % 4096) % 4096
    if d u < d v then u :: v :: r else if d u = d v then v :: r else v :: heldInsert start u r

/-- Change a receive agreement. -/
def Mach.setBaRx (m : Mach) (k : Nat) (b : BaRx) : Mach := m.wmacMod fun w => { w with baRx := tabSet none w.baRx k (some b) }

/-- Deliver the held MPDUs that stand at the window's start in turn. -/
def Mach.reorderRun (k : Nat) : Nat → Mach → Mach
  | 0, m => m
  | f + 1, m =>
    match tabGet none m.wmac.baRx k with
    | some b => match b.held with
      | u :: r =>
        if u.seq = b.start then
          Mach.reorderRun k f ((m.setBaRx k { b with held := r, start := (b.start + 1) % 4096, lastPn := u.pn }).rxDeliverMpdu u false)
        else m
      | [] => m
    | none => m

/-- The window of an agreement moves to `s`: what is held below it is delivered in order. -/
def Mach.reorderMove (k s : Nat) : Nat → Mach → Mach
  | 0, m => m
  | f + 1, m =>
    match tabGet none m.wmac.baRx k with
    | some b => match b.held with
      | u :: r =>
        if (u.seq + 4096 - b.start) % 4096 < (s + 4096 - b.start) % 4096 then
          Mach.reorderMove k s f ((m.setBaRx k { b with held := r, lastPn := u.pn }).rxDeliverMpdu u false)
        else m.setBaRx k { b with start := s }
      | [] => m.setBaRx k { b with start := s }
    | none => m

/-- Reorder an MPDU under its agreement (R321, R322). -/
def Mach.reorder (m : Mach) (k : Nat) (b : BaRx) (u : Mpdu) : Mach :=
  let d := (u.seq + 4096 - b.start % 4096) % 4096
  let put (y : Mach) : Mach :=
    match tabGet none y.wmac.baRx k with
    | some c => Mach.reorderRun k (c.held.length + 2) (y.setBaRx k { c with held := heldInsert c.start u c.held })
    | none => y
  if d < b.size then put m
  else if d < 2048 then put (Mach.reorderMove k ((u.seq + 4097 - b.size) % 4096) (b.held.length + 1) m)
  else match b.holes.find? fun h => h.1 == u.seq && (u.key.isNone || decide (h.2.1 < u.pn ∧ u.pn < h.2.2)) with
    | some h => (m.setBaRx k { b with holes := b.holes.filter fun x => x != h }).rxDeliverMpdu u true
    | none => m.count WMAC_SECCNT fWMAC_SECCNT_REPLAY

/-- The end of the PPDU under reception in TB0 ns (R364): its declared end, or now once it has ended. -/
def Mach.rxEndNs (m : Mach) (x : Nat) : Nat :=
  let r := (m.getBb x).rx
  (m.getBase 0).nsTotal + if r.state = 3 then r.endAt - m.tb5 else 0

/-- An MPDU is received (R300, R321, R336, R364): a standby delivers none (R302). -/
def Mach.mpduReceive (m : Mach) (x : Nat) (a : AirMpdu) : Mach :=
  if m.isStandby then m
  else
    let m0 := m.wmacMod fun w => { w with airEnd := m.rxEndNs x }
    let m1 := match a.power, m.sta a.sta with
      | some p, some s => m0.wmacMod fun w => { w with stas := tabSet none w.stas a.sta (some { s with power := p }) }
      | _, _ => m0
    let m2 := match a.backlog with
      | some r => if a.tid < 8 then m1.backlogReport (8 * a.sta + a.tid) r else m1
      | none => m1
    let m3 := match a.feedback with
      | some (k, b) => m2.feedbackIn x a.sta k b
      | none => m2
    if a.bytes = [] ∨ (m3.keyE (2 * a.sta + a.keyId.getD 0 % 2)).guard ∧ a.keyId.isSome then m3
    else
      let key := a.keyId.map fun k => 2 * a.sta + k % 2
      let live := match key with | some k => (m3.keyE k).used | none => true
      let u : Mpdu := ⟨a.seq % 4096, a.pn, a.sta, a.tid, key, a.mic && live, a.bytes, (m3.getBase 0).nsTotal, x⟩
      match (if a.tid < 8 then tabGet none m3.wmac.baRx (16 * a.sta + a.tid) else none) with
      | some b => m3.reorder (16 * a.sta + a.tid) b u
      | none => m3.rxDeliverMpdu u false

/-- REORDER_TO in µs (R338). -/
def Mach.reorderTo (m : Mach) : Nat := max 100 (m.rd WMAC_BACTL fWMAC_BACTL_REORDER_TO)

/-- The earliest arrival among held MPDUs. -/
def oldestAt : List Mpdu → Option Nat
  | [] => none
  | u :: r => match oldestAt r with | some t => some (min u.at_ t) | none => some u.at_

/-- The window moves past the first gap: the missing numbers are recorded as holes, and what is held up to the next gap is
delivered (R321). -/
def Mach.gapPass (m : Mach) (k : Nat) (b : BaRx) (u : Mpdu) : Mach :=
  let gap := (u.seq + 4096 - b.start) % 4096
  let all := b.holes ++ (List.range gap).map fun i => ((b.start + i) % 4096, b.lastPn, u.pn)
  Mach.reorderRun k (b.held.length + 1) (m.setBaRx k { b with start := u.seq, holes := all.drop (all.length - 64) })

/-- Gaps are passed until nothing that arrived at `t` or before is held. -/
def Mach.gapsPass (k t : Nat) : Nat → Mach → Mach
  | 0, m => m
  | f + 1, m =>
    match tabGet none m.wmac.baRx k with
    | some b => match b.held with
      | u :: r => if (u :: r).any fun v => decide (v.at_ ≤ t) then Mach.gapsPass k t f (m.gapPass k b u) else m
      | [] => m
    | none => m

/-- A held MPDU has waited REORDER_TO (R321). -/
def Mach.reorderTimeout (m : Mach) (sta tid : Nat) : Mach :=
  let k := 16 * sta + tid
  match tabGet none m.wmac.baRx k with
  | none => m
  | some b => match oldestAt b.held with
    | some t =>
      let y := m.reach (t + 1000 * m.reorderTo)
      Mach.gapsPass k t b.held.length ((y.wmacMod fun w => { w with airEnd := (y.getBase 0).nsTotal }).count WMAC_RXCNT fWMAC_RXCNT_REORDER_TO)
    | none => m

/-! ### Keys and staging (R330 to R336) -/

/-- The key entry that a KEY handle names; none where it is stale (R330). -/
def Mach.keyOf (m : Mach) (w : TWord) : Option Nat :=
  (m.wmac.keys.find? fun e => e.2.used && Config.keyHandle e.1 e.2.gen == wPay w).map fun e => e.1

/-- Reserve numbers for a key that is first used in the beat (R334). -/
def Mach.pnReserve (m : Mach) (k : Nat) : Mach :=
  let e := m.keyE k
  if e.busy then m
  else
    let mark := e.pn + 1024 * max 1 (m.rd WMAC_PNCTL fWMAC_PNCTL_BLOCK)
    let m1 := (m.setKeyE k { e with busy := true, mark := mark }).journal 0x09 portWMAC 0 0 k [encodeCode (datumOf (bytesLE 16 mark))]
    if m.mirrors then m1.setKeyE k { e with busy := true, mark := mark, sent := m1.chn.sentN } else m1

/-- The next packet number of a key (R333 to R335): none where its reservation has run out. -/
def Mach.pnTake (m : Mach) (k : Nat) : Mach × Option Nat :=
  let m1 := m.pnReserve k
  let e := m1.keyE k
  let pn := e.pn + 1
  if e.mark ≤ pn ∨ e.limit.any (fun l => decide (l ≤ pn)) ∨ (m1.mirrors ∧ m1.chn.ackN < e.sent) then (m1.count WMAC_SECCNT fWMAC_SECCNT_PN_WAIT, none)
  else
    let m2 := m1.setKeyE k { e with pn := pn }
    (if pn = 2 ^ 48 - 2 ^ 32 then m2.event 0x0B02 0 [(2, k)] else m2, some pn)

/-- The next sequence number of a station and TID, or of a BSS's group-addressed frames (R333). -/
def Mach.seqTake (m : Mach) (d : Nat) (group mgmt : Bool) : Mach × Nat :=
  let k := if group then 65536 + d / 2 ^ 40 % 64 else 16 * (d / 2 ^ 49 % 2048) + if mgmt then 8 else d / 2 ^ 46 % 8
  let s := tabGet 0 m.wmac.seqs k
  (m.wmacMod fun w => { w with seqs := tabSet 0 w.seqs k ((s + 1) % 4096) }, s)

/-- What a suite adds to a frame (R328): the header and MIC of CCMP and GCMP, the MMIE of BIP. -/
def suiteBytes : Option Nat → Nat
  | none => 0
  | some 0 => 16
  | some 3 => 18
  | some k => if k < 3 then 24 else 26

/-- The bytes of a staged subframe (R323): delimiter, header, QoS control in data frames, protected body and FCS, padded. -/
def subLen (len : Nat) (mgmt : Bool) (suite : Option Nat) : Nat :=
  alignUp (4 + (if mgmt then 24 else 26) + len + suiteBytes suite + 4) 4

/-- STAGE (R331 to R335): words, key, numbers; the subframe is staged when its run commits. -/
def Mach.stagePut (m : Mach) (n id x : Nat) : Mach :=
  m.unitServe n id (0x30 + x) 1 fun m a run =>
    let w (i : Nat) : TWord := a.src.getD i 0
    let d := payN (w 1)
    let len := payN (w 3)
    let bit (k : Nat) : Bool := d.testBit k
    if 2 < x ∨ a.len ≠ 4 ∨ (wTag (w 0) ≠ tagKEY ∧ wTag (w 0) ≠ tagNIL) ∨ wTag (w 1) ≠ tagDESC ∨ d % 2 ^ 37 ≠ 0 ∨ 47 < d / 2 ^ 40 % 64 ∨
        wTag (w 2) ≠ tagPTR ∨ ptrClass (w 2) ≠ 2 ∨ !isInt (w 3) ∨ len = 0 ∨ 11454 < len ∨
        (a.src.drop 4).any (fun v => payN v != 0) then (m, stREFUSED, [])
    else
      let key := if wTag (w 0) = tagKEY then some (m.keyOf (w 0)) else none
      match key with
      | some none => (m.count WMAC_SECCNT fWMAC_SECCNT_KEY_STALE, stREFUSED, [])
      | _ =>
        let k := key.join
        if (match k with | some k => decide (2 ^ 48 - 1 ≤ (m.keyE k).pn) | none => false) then (m, stREFUSED, [])
        else
          let old := (m.asch.picked.find? fun p => p.f.home == ptrAddr (w 2)).bind fun p => p.f.nums
          let s := match old with
            | some x => (m, x.1)
            | none => m.seqTake d (bit 39) (bit 38)
          let p : Mach × Option Nat := match old, k with
            | some x, _ => (s.1, some x.2)
            | none, some k => s.1.pnTake k
            | none, none => (s.1, some 0)
          let suite := k.map fun k => (m.keyE k).suite
          let u : Sub := ⟨p.1.wmac.nextSub, 0, subLen len (bit 38) suite, d / 2 ^ 49 % 2048, d / 2 ^ 46 % 8, d / 2 ^ 40 % 64, bit 39, bit 38,
            bit 37, ptrAddr (w 2), len, k.map fun k => (k, (m.keyE k).gen), s.2, p.2.getD 0, 0, false, none, false, p.2.isNone, 0,
            run, []⟩
          let m1 := p.1.wmacMod fun w => { w with nextSub := w.nextSub + 1 }
          (if run = 0 ∧ !u.wait then m1.stageWrite x u
           else m1.setStg x { m1.stg x with subs := (m1.stg x).subs ++ [u] }, 0, [])

/-- At a beat start (R334): reservations are made anew, and MPDUs that waited for one take their numbers. -/
def Mach.pnBeat (m : Mach) : Mach :=
  let m0 := m.wmacMod fun w => { w with keys := w.keys.map fun e => (e.1, { e.2 with busy := false }) }
  m0.forEach [0, 1, 2] fun y x => y.forEach ((y.stg x).subs.filter fun u => u.wait) fun z u =>
    match u.key with
    | none => z
    | some (k, _) =>
      let p := z.pnTake k
      match p.2 with
      | none => p.1
      | some pn =>
        let v := { u with pn := pn, wait := false }
        if u.prov = 0 then p.1.stageWrite x v else p.1.subMod x u.id fun _ => v

/-- A lost subframe is fetched again (R326, R327, R332): one acknowledged meanwhile is gone. -/
def Mach.restage (m : Mach) (x id : Nat) : Mach :=
  match (m.stg x).subs.find? fun u => u.id == id && u.lost.isSome with
  | some u => if m.keyLive u then m.stageWrite x u else m.subDone x u true m.timePayload
  | none => m

/-! ### TWT (R316, R317) -/

/-- The slot that a binding names in the active armature (R316). -/
def Mach.twtSlot (m : Mach) (t : Twt) : Option Slot :=
  if !m.actValid then none
  else m.act.slots.find? fun s => s.radio == t.radio && s.start == t.start && s.every == t.every && s.phase == t.phase &&
    s.beat == t.beat && decide (1 ≤ s.kind ∧ s.kind ≤ 4)

/-- Show how many bindings stand. -/
def Mach.twtShow (m : Mach) : Mach := m.wr WMAC_TWTCNT fWMAC_TWTCNT_ACTIVE m.wmac.twts.length

/-- Every binding is checked against the new armature (R317). -/
def Mach.twtCheck (m : Mach) : Mach :=
  let bad := m.wmac.twts.filter fun t => (m.twtSlot t).isNone
  ((m.wmacMod fun w => { w with twts := w.twts.filter fun t => !bad.contains t }).forEach bad fun y t =>
    (y.count WMAC_TWTCNT fWMAC_TWTCNT_UNBOUND).event 0x0B01 0 [(2, t.agr)]).twtShow

/-- Show which radios serve slots (R338). -/
def Mach.servingShow (m : Mach) : Mach :=
  m.wr WMAC_STAT fWMAC_STAT_SERVING (if m.bit WMAC_CTL fWMAC_CTL_RUN ∧ m.actValid then
    bitsOf 3 fun x => (m.getRadio x).mode == 2 else 0)

end Sys2Proof.Machine
end

