-- ==== Sys2Proof/Machine/ArmOps.lean ====
section
/-! DEFINITION. Block ARM: the plinth, the loader's requests, swaps, the fallback, Hold, and profile changes against the
regulator (R46 to R91, R671, R714, R769). -/

namespace Sys2Proof.Machine

/-! ### Plinth, keys, margin (R47, R61, R71, R90) -/

/-- Whether AUTO holds the armature registers: a software write is ignored and reported (R721). -/
def Mach.autoHolds (m : Mach) : Bool := m.bit SYS_BOOTSTAT fSYS_BOOTSTAT_AUTO_BUSY

/-- Apply a write unless AUTO holds the register (R721). -/
def Mach.unlessAuto (m : Mach) (a : Nat) (f : Mach → Mach) : Mach := if m.autoHolds then m.ignored a else f m

/-- The next beat is the boundary that TB0 reaches next, whatever beat ran before (R34, log 45). -/
def Mach.beatsAnew (m : Mach) : Mach := m.timMod fun t => { t with started := false }

/-- Set RUN or PERIOD; a changed PERIOD is ignored and reported while an armature is active (R47), and beats are counted anew from
TB0 in the new period (R34). The reserved code 3 is taken as written, and a beat then lasts 1024 µs: the spec gives it no effect
(DESIGN CHOICE, log 70). -/
def Mach.plinthSet (m : Mach) (v : W32) : Mach :=
  let m1 := (m.wr ARM_PLINTH fARM_PLINTH_RUN (getFld v fARM_PLINTH_RUN)).when (getFld v fARM_PLINTH_RUN == 0) Mach.beatsAnew
  let p := getFld v fARM_PLINTH_PERIOD
  if p = m.rd ARM_PLINTH fARM_PLINTH_PERIOD then m1
  else if m.actValid then m1.ignored ARM_PLINTH
  else ((m1.wr ARM_PLINTH fARM_PLINTH_PERIOD p).wr ARM_STAT fARM_STAT_PERIOD p).beatsAnew

/-- The fields of KEYSTAT of key slot `k`: programmed and revoked (R91). -/
def keyProg (k : Nat) : Fld := ⟨2 * k, 2 * k⟩
def keyRev (k : Nat) : Fld := ⟨2 * k + 1, 2 * k + 1⟩

/-- Whether key slot `k` is valid (R61). -/
def Mach.keyValid (m : Mach) (k : Nat) : Bool := m.bit ARM_KEYSTAT (keyProg k) && !m.bit ARM_KEYSTAT (keyRev k)

/-- A write of ARM_KEYREVOKE: the second of one slot within a beat blows its fuse, unless no other slot is valid (R61). A write of the
other slot in between starts the pair anew: the spec does not say whether the two writes must follow each other (DESIGN CHOICE,
log 70). -/
def Mach.keyRevoke (m : Mach) (k : Nat) : Mach :=
  if m.arm.revoke ≠ some k then m.armMod fun a => { a with revoke := some k }
  else if m.keyValid k ∧ !m.keyValid (1 - k) then (m.armMod fun a => { a with revoke := none }).refused ARM_KEYREVOKE k
  else (m.armMod fun a => { a with revoke := none }).wr ARM_KEYSTAT (keyRev k) 1

/-- MINCLR: every minimum reads 255 again (R91). -/
def Mach.minClear (m : Mach) : Mach :=
  (m.forEach (List.range 24) fun x k => x.wr (ARM_MMn k) fARM_MMn_MIN 255).setReg ARM_MMSTAT 255

/-- A read of ARM_BEAT_LO latches ARM_BEAT_HI (R90). -/
def Mach.beatRead (m : Mach) : Mach :=
  (m.setReg ARM_BEAT_HI (BitVec.ofNat 32 (m.beat / 2 ^ 32))).setAnswer (BitVec.ofNat 32 m.beat)

/-- One monitor's code of a beat start: NOW, MIN, the warning and, below CRIT for the second beat start running, the critical
event (R70, R71, R91). The answer says whether the fallback is called for. -/
def Mach.marginOne (m : Mach) (k c : Nat) : Mach × Bool :=
  let a := ARM_MMn k
  let m1 := (m.wr a fARM_MMn_NOW c).wr a fARM_MMn_MIN (min c (m.rd a fARM_MMn_MIN))
  let m2 := if c < m.rd ARM_MMSTAT fARM_MMSTAT_MIN_CODE then
    (m1.wr ARM_MMSTAT fARM_MMSTAT_MIN_CODE c).wr ARM_MMSTAT fARM_MMSTAT_MIN_MON k else m1
  let m3 := if c < m.rd ARM_MMCTL fARM_MMCTL_WARN then m2.event 0x0103 k [(1, k), (1, c)] else m2
  if c < m.rd ARM_MMCTL fARM_MMCTL_CRIT ∧ m.arm.crit.contains k then (m3.event 0x0104 k [(1, k), (1, c)], true) else (m3, false)

/-- The monitors' codes, from monitor `k` on. -/
def Mach.marginFrom (m : Mach) (k : Nat) : List Nat → Mach × Bool
  | [] => (m, false)
  | c :: r =>
    let x := m.marginOne k c
    let y := x.1.marginFrom (k + 1) r
    (y.1, x.2 || y.2)

/-- MARGIN_CHECK: a missing code stands for a monitor that reads 255 (R71). -/
def Mach.marginCheck (m : Mach) (codes : List (BitVec 8)) : Mach :=
  let l := slice 255 (codes.map BitVec.toNat) 0 24
  let crit := m.rd ARM_MMCTL fARM_MMCTL_CRIT
  let r := m.marginFrom 0 l
  let m1 := r.1.armMod fun a => { a with crit := (List.range 24).filter fun k => decide (l.getD k 255 < crit) }
  if r.2 ∧ m.bit ARM_MMCTL fARM_MMCTL_CRIT_ACT ∧ m1.arm.fbCause = 0 ∧ m.actValid then m1.armMod fun a => { a with fbCause := 2 } else m1

/-! ### The loader (R62, R63, R76, R77) -/

/-- The shadow bank's state (R91). -/
def Mach.shdState (m : Mach) : Nat := m.rd ARM_STAT fARM_STAT_SHADOW_STATE

/-- Set the shadow bank's state. -/
def Mach.setShd (m : Mach) (k : Nat) : Mach := m.wr ARM_STAT fARM_STAT_SHADOW_STATE k

/-- Show a bank's profile and identity as the shadow's (R90, R91). -/
def Mach.shdShow (m : Mach) : Mach :=
  (m.wr ARM_STAT fARM_STAT_SHD_PROFILE m.shd.profile).setReg64 ARM_SHDID_LO ARM_SHDID_HI m.shd.armId

/-- The state that a shadow bank with content has: FALLBACK where its image bears the flag, else VALID (R76, R77). -/
def Bank.mark (b : Bank) : Nat := if b.flags % 2 = 1 then 4 else 2

/-- Record the loader's result (R63). -/
def Mach.ldStat (m : Mach) (st code ix : Nat) : Mach :=
  ((m.wr ARM_LDSTAT fARM_LDSTAT_STAGE st).wr ARM_LDSTAT fARM_LDSTAT_CODE code).wr ARM_LDSTAT fARM_LDSTAT_INDEX ix

/-- The NVM slot that a load's destination names: the store slot, or the fallback's (R77). -/
def loadSlot (dest slot : Nat) : Nat := if dest = 2 then 4 else slot

/-- The length of the image that a load reads: IMAGE_LEN is held against it, whatever the source (R63). -/
def Mach.loadLen (m : Mach) : Nat := (m.reg ARM_LDLEN).toNat

/-- Stage 0: why a load is refused (R63, R529): BUSY whatever the destination, then REQUEST; a fallback that has started counts as a
swap armed on the shadow bank (DESIGN CHOICE, log 71). -/
def Mach.loadBar (m : Mach) (src slot dest : Nat) : Option Nat :=
  let len := m.loadLen
  if m.arm.load.isSome ∨ m.arm.fbLoad ∨ m.arm.armed ∨ m.arm.fbSwap then some 1
  else if 1 < src ∨ 2 < dest ∨ (src = 1 ∧ (dest ≠ 0 ∨ 5 < slot)) ∨ (dest = 1 ∧ 3 < slot) then some 2
  else if 2 ^ 22 < len ∨ (dest ≠ 0 ∧ !m.poolRoom (loadSlot dest slot) len) then some 2
  else none

/-- ARM_LDCTL.GO (R63): the destination is taken, or stage 0 refuses. A refused request leaves the shadow bank INVALID where it names
it; BUSY leaves the bank to the load or swap that holds it (DESIGN CHOICE, log 71). -/
def Mach.loadGo (m : Mach) : Mach :=
  let src := m.rd ARM_LDCTL fARM_LDCTL_SRC
  let slot := m.rd ARM_LDCTL fARM_LDCTL_NVM_SLOT
  let dest := m.rd ARM_LDCTL fARM_LDCTL_DEST
  match m.loadBar src slot dest with
  | some c => (m.ldStat 0 c 0).when (c == 2 && dest == 0) fun x => x.setShd 3
  | none =>
    let m1 := ((m.armMod fun a => { a with load := some (dest, slot, src) }).wr ARM_LDCTL fARM_LDCTL_GO 1).ldStat 1 0 0
    if dest = 0 then m1.setShd 1 else if dest = 1 then m1.nvFree slot else m1

/-- A write of ARM_LDCTL. -/
def Mach.ldCtlWrite (m : Mach) (v : W32) : Mach :=
  let m1 := m.setReg ARM_LDCTL (mergeMask (m.reg ARM_LDCTL) v 0x40000373)
  if getFld v fARM_LDCTL_GO = 1 then m1.loadGo else m1

/-- An image takes the shadow bank (R63, R76, R77). -/
def Mach.shdPlace (m : Mach) (l : List Byte) : Mach :=
  let m1 := m.placeImage m.shdBank l
  (m1.setShd m1.shd.mark).shdShow

/-- An image that passed every stage takes its destination (R63, R77). -/
def Mach.loadPlace (m : Mach) (dest slot : Nat) (l : List Byte) : Mach :=
  if dest = 0 then m.shdPlace l
  else if dest = 1 then m.nvStore slot l
  else if imgB l 0x11 = m.rd ARM_PLINTH fARM_PLINTH_PERIOD then (m.nvStore 4 l).wr SYS_BOOTSTAT fSYS_BOOTSTAT_FB_BAD 0
  else m.nvStore 5 l

/-- The load finishes: the stages run over the image, `host` giving the bytes of a load from host memory (R63, R76). -/
def Mach.loadDone (m : Mach) (host : List Byte) : Mach :=
  match m.arm.load with
  | none => m
  | some (dest, slot, src) =>
    let len := m.loadLen
    let r := if src = 1 then m.nvLoad slot else (m, slice 0 host 0 len)
    let m1 := (r.1.armMod fun a => { a with load := none }).wr ARM_LDCTL fARM_LDCTL_GO 0
    match m1.loadCheck r.2 len (dest == 2 || (src == 1 && decide (4 ≤ slot))) (dest == 2) (fun _ => true) with
    | some (st, code, ix) =>
      let m2 := m1.ldStat st code ix
      if dest = 0 then m2.setShd 3 else m2
    | none => (m1.loadPlace dest slot r.2).ldStat 7 0 0

/-- Whether the shadow bank holds nothing valid (R76). -/
def Mach.shdEmpty (m : Mach) : Bool := m.shdState == 0 || m.shdState == 3

/-- FALLBACK_RELOAD: the fallback load into the shadow bank starts (R76). -/
def Mach.fbReload (m : Mach) : Mach :=
  if m.shdEmpty && !m.arm.fbLoad && m.arm.load.isNone && decide (0 < (m.nvSlot 4).len) && !m.bit SYS_BOOTSTAT fSYS_BOOTSTAT_FB_BAD then
    (m.armMod fun a => { a with fbLoad := true }).setShd 1
  else m

/-- The fallback load ends: stages 1, 2, 4 and 5 (R76). -/
def Mach.fbLoadDone (m : Mach) : Mach :=
  if m.arm.fbLoad then
    let r := m.nvLoad 4
    let m1 := r.1.armMod fun a => { a with fbLoad := false }
    match m1.loadCheck r.2 (m.nvSlot 4).len true false (fun k => k == 1 || k == 2 || k == 4 || k == 5) with
    | some _ => m1.setShd 3
    | none => (m1.shdPlace r.2).setShd 4
  else m

/-! ### The regulator (R85 to R88) -/

/-- The VID code of a profile, and its voltage in mV (R85). -/
def vidCode : Nat → Nat
  | 0 => 0xA0 | 1 => 0x78 | 2 => 0x64 | _ => 0x50
def vidMv : Nat → Nat
  | 0 => 900 | 1 => 800 | 2 => 750 | _ => 700

/-- Whether the device drives the regulator (R85, R86). -/
def Mach.drives (m : Mach) : Bool := m.bit ARM_VRCTL fARM_VRCTL_ENABLE && !m.arm.undriven

/-- Drive the code of a profile (R85): the regulator is good again only once it has reported good at the new target (R86). -/
def Mach.drive (m : Mach) (p : Nat) : Mach :=
  if m.drives then (m.wr ARM_VRSTAT fARM_VRSTAT_VID_OUT (vidCode p)).wr ARM_VRSTAT fARM_VRSTAT_PGOOD 0 else m

/-- The profile whose code is driven, the active one where none is. -/
def Mach.driven (m : Mach) : Nat :=
  match m.rd ARM_VRSTAT fARM_VRSTAT_VID_OUT with
  | 0xA0 => 0 | 0x78 => 1 | 0x64 => 2 | 0x50 => 3
  | _ => m.rd ARM_STAT fARM_STAT_ACT_PROFILE

/-- A write of ARM_VRCTL: setting ENABLE starts driving the regulator at the active profile's code; `linear` is what
VOUT_MODE gave in PMBus mode (R85, R86). -/
def Mach.vrWrite (m : Mach) (v : W32) (linear : Bool) : Mach :=
  let m1 := (m.plainWrite ARM_VRCTL v).when (getFld v fARM_VRCTL_MODE == 0) fun x => x.wr ARM_VRSTAT fARM_VRSTAT_VOUT_MV 0
  if getFld v fARM_VRCTL_ENABLE = 0 then
    (m1.armMod fun a => { a with undriven := false }).wr ARM_VRSTAT fARM_VRSTAT_VID_OUT 0
  else if m.bit ARM_VRCTL fARM_VRCTL_ENABLE then m1
  else if getFld v fARM_VRCTL_MODE = 1 ∧ !linear then
    (m1.armMod fun a => { a with undriven := true }).wr ARM_PROFCTL fARM_PROFCTL_STATUS 13
  else m1.drive (m1.rd ARM_STAT fARM_STAT_ACT_PROFILE)

/-- PMBUS_POLL: STATUS_WORD and READ_VOUT in mV (R86). In VID mode the poll samples VR_PGOOD, low where bit 11 of the status is 1, and
reads no voltage (R91; DESIGN CHOICE, log 72). -/
def Mach.pmbusPoll (m : Mach) (status : BitVec 16) (mv : Nat) : Mach :=
  if !m.drives then m
  else if m.bit ARM_VRCTL fARM_VRCTL_MODE then
    let t := vidMv m.driven
    let ok := !status.getLsbD 11 && decide (99 * t ≤ 100 * mv) && decide (100 * mv ≤ 101 * t)
    (m.wr ARM_VRSTAT fARM_VRSTAT_VOUT_MV mv).wr ARM_VRSTAT fARM_VRSTAT_PGOOD (if ok then 1 else 0)
  else m.wr ARM_VRSTAT fARM_VRSTAT_PGOOD (if status.getLsbD 11 then 0 else 1)

/-- VR_GOOD: VR_PGOOD in VID mode, the last poll's result in PMBus mode; settling begins where a voltage is awaited (R86,
R87). -/
def Mach.vrGood (m : Mach) : Mach :=
  let m1 := if m.bit ARM_VRCTL fARM_VRCTL_MODE then m else m.wr ARM_VRSTAT fARM_VRSTAT_PGOOD 1
  if m.drives && m1.bit ARM_VRSTAT fARM_VRSTAT_PGOOD && decide (m.arm.change ≠ 0 ∧ m.arm.change ≠ 3) && !m.arm.confirmed then
    m1.armMod fun a => { a with settle := true }
  else m1

/-- A profile change ends with a status (R91). -/
def Mach.changeEnd (m : Mach) (st : Nat) : Mach :=
  ((m.armMod fun a => { a with change := 0, settle := false, confirmed := false, lateChg := false }).wr ARM_PROFCTL
    fARM_PROFCTL_STATUS st).wr ARM_STAT fARM_STAT_CHG_BUSY 0

/-- VR_SETTLE_END: the voltage is confirmed (R87). -/
def Mach.settleEnd (m : Mach) : Mach :=
  if m.arm.settle then
    let m1 := m.armMod fun a => { a with settle := false, confirmed := true }
    if m.arm.change = 4 then m1.changeEnd 4
    else if m.arm.change = 6 then m1.armMod fun a => { a with change := 0, confirmed := false }
    else if m.arm.change = 1 ∧ m.rd ARM_PROFCTL fARM_PROFCTL_STATUS = 1 then m1.wr ARM_PROFCTL fARM_PROFCTL_STATUS 2
    else m1
  else m

/-! ### Swaps (R72 to R75, R84) -/

/-- The frame that ARM_SWAPF names (R48). -/
def Mach.swapNamed (m : Mach) : Nat := m.reg64 ARM_SWAPF_LO ARM_SWAPF_HI % 2 ^ 46

/-- Whether arming is refused for state: a failed fallback (R714), no journal or untrained DRAM before the first armature
(R522, R671), a shadow bank that is not VALID, a fallback under way. -/
def Mach.armBar (m : Mach) : Bool :=
  m.bit SYS_BOOTSTAT fSYS_BOOTSTAT_FB_BAD || (!m.actValid && (!m.jrun || !m.bit MEM_STAT fMEM_STAT_TRAINED)) || m.shdState != 2 ||
    m.arm.fbSwap || m.arm.fbCause != 0

/-- Whether a named frame is less than two frames ahead (R73). -/
def Mach.framePast (m : Mach) : Bool := decide (m.swapNamed < m.frame + 2)

/-- Arm the swap at the named frame (R73, R694). -/
def Mach.armNow (m : Mach) : Mach :=
  let f := m.swapNamed
  (((m.armMod fun a => { a with armed := true, swapFrame := f }).setShd 5).setReg ARM_SWAPCTL (BitVec.ofNat 32 (2 ^ 24))).gateWake

/-- ARM_SWAPCTL.ARM (R73, R91). While a swap is armed already it does nothing and leaves the status: the spec gives that case no
effect (DESIGN CHOICE, log 70). -/
def Mach.swapArm (m : Mach) : Mach :=
  let st (k : Nat) : Mach := m.wr ARM_SWAPCTL fARM_SWAPCTL_STATUS k
  if m.arm.armed ∨ m.armBar then (if m.arm.armed then m else st 5)
  else if m.shd.profile ≠ m.rd ARM_STAT fARM_STAT_ACT_PROFILE then st 6
  else if m.framePast then st 4
  else m.armNow

/-- Take back the armed swap with a status; the shadow bank is VALID again (R82, R87, R91). -/
def Mach.disarm (m : Mach) (st : Nat) : Mach :=
  if m.arm.armed then
    ((m.armMod fun a => { a with armed := false }).setShd m.shd.mark).wr ARM_SWAPCTL fARM_SWAPCTL_STATUS st
  else m

/-- Abandon a change to a faster profile: the regulator returns to the active profile's code (R87). -/
def Mach.changeAbort (m : Mach) (st : Nat) : Mach :=
  if m.arm.change = 1 ∨ m.arm.change = 3 ∨ m.arm.change = 4 then
    (m.drive (m.rd ARM_STAT fARM_STAT_ACT_PROFILE)).changeEnd st
  else m

/-- ARM_SWAPCTL.CANCEL; a profile change that waits for the swap ends with it (R91). -/
def Mach.swapCancel (m : Mach) : Mach :=
  if m.arm.armed then (m.disarm 7).changeAbort 0 else m

/-- The case limit of a profile in quarter °C (R8, R66). -/
def caseLimit : Nat → Int
  | 0 => 340 | 1 => 420 | _ => 500

/-- Case temperature estimate in quarter °C (R742). -/
def Mach.caseEst (m : Mach) : Int := signedOf 16 (m.rd SYS_TEMP fSYS_TEMP_CASE_EST)

/-- ARM_PROFCTL.GO (R87, R91). A slower change shows WAIT_SWAP until its swap and LOWERING: the table of R87 gives it no status before
(DESIGN CHOICE, log 70). -/
def Mach.profileGo (m : Mach) (target : Nat) : Mach :=
  let m1 := m.wr ARM_PROFCTL fARM_PROFCTL_TARGET target
  let st (k : Nat) : Mach := m1.wr ARM_PROFCTL fARM_PROFCTL_STATUS k
  let act := m.rd ARM_STAT fARM_STAT_ACT_PROFILE
  if m.arm.change ≠ 0 then st 7
  else if target = act then m1.swapArm
  else if m.shd.profile ≠ target then st 8
  else if m.framePast then st 10
  else if caseLimit target < m.caseEst then st 9
  else if m.armBar ∨ m.arm.armed then st 14
  else
    let faster := decide (target < act)
    let m2 := (m1.armMod fun a => { a with change := if faster then 1 else 3, target := target, confirmed := false,
                                           settle := false, lateChg := false }).wr ARM_STAT fARM_STAT_CHG_BUSY 1
    let m3 := m2.wr ARM_PROFCTL fARM_PROFCTL_STATUS (if faster then 1 else 2)
    (if faster then m3.drive target else m3).armNow

/-- VR_TIMEOUT (R87, R88): `good` says that the regulator reports good at the same moment and the timeout won; once it has reported
good before the timeout, the change completes normally. The abandoned change disarms its swap, which shows CANCELLED: the spec names
no status for it (DESIGN CHOICE, log 70). -/
def Mach.vrTimeout (m : Mach) (good : Bool) : Mach :=
  if m.arm.change = 1 ∧ !m.arm.confirmed ∧ !m.arm.settle then
    if good then
      ((m.armMod fun a => { a with settle := true, lateChg := true }).wr ARM_VRSTAT fARM_VRSTAT_LATE 1)
    else (m.disarm 7).changeAbort 6
  else m

/-- The generation of a block (R10, R651). -/
def Mach.blkGens (m : Mach) (g : Nat) : Mach := m.forEach (List.range 24) fun x b => x.setReg (BLKGEN b) (BitVec.ofNat 32 g)

/-- Every block takes its staged values as live, the generation is committed, staging closes, the seal is pending (R652). -/
def Mach.stageCommit (m : Mach) (g : Nat) : Mach :=
  let m1 := m.forEach m.stage fun x e => x.setReg e.1 (x.reg e.1 ^^^ e.2)
  ((m1.stageMod fun _ => []).setReg CHN_CFGGEN (BitVec.ofNat 32 g)).wr CHN_CFGSTAT fCHN_CFGSTAT_STAGING 0
    |>.wr CHN_CFGSTAT fCHN_CFGSTAT_SEAL_PENDING 1 |>.event 0x140F 0 [(4, g)]

/-- An overrun task that is not replayed is abandoned (R665, R769, R770): its accesses detached, its outputs voided, its inputs
returned, its local memory undone. -/
def Mach.replayLost (m : Mach) (n slot : Nat) : Mach :=
  let f := tabGet none (m.getTe n).stops slot
  let m1 := (m.detach n slot).teMod n fun t =>
    { (match f with
        | some s => if s.undoFull then t else t.undoApply s.undo
        | none => t) with stops := tabSet none t.stops slot none }
  (m1.voidRun n slot ((f.map fun s => s.outs).getD []) true).noReplay n slot

/-- Abandon every overrun task that is not replayed yet (R769). -/
def Mach.replaysLost (m : Mach) : Mach :=
  m.forEach (List.range 16) fun x n =>
    (x.forEach (x.getDsp n).replay fun y k => y.replayLost n k.slot).dspMod n fun e => { e with replay := [] }

/-- The banks exchange their roles for engines, radios, memory windows and class order at once; `fb` for a fallback swap
(R72, R75, R76, R82, R84). -/
def Mach.swapNow (m : Mach) (fb : Bool) : Mach :=
  let old := m.act
  let was := m.actValid
  let keep := was && m.bit ARM_LDCTL fARM_LDCTL_KEEP_OLD
  let b := m.shdBank
  let m0 := if was then m else (m.armMod fun a => { a with ran := true }).stageCommit 0
  let m1 := ((m0.wr ARM_STAT fARM_STAT_ACTIVE_BANK b).wr ARM_STAT fARM_STAT_ACT_VALID 1).wr ARM_STAT fARM_STAT_ACT_PROFILE
    m.shd.profile
  let m2 := (m1.wr ARM_STAT fARM_STAT_FALLBACK (if fb then 1 else 0)).when fb fun x => x.wr ARM_STAT fARM_STAT_HOLD 0
  let m3 := if keep then m2.setShd old.mark else (m2.clearBank m2.shdBank).setShd 0
  let m4 := (m3.shdShow.setReg64 ARM_ACTID_LO ARM_ACTID_HI m.shd.armId).wr SYS_RPCLASS ⟨7, 0⟩
    (if fb then 0x1B else m.shd.rporder)
  let m5 := m4.armMod fun a => { a with armed := false, fbSwap := false }
  (((m5.rateSwitch m.shd.profile).tplMatch).twtCheck).boundSwap old

/-- The named swap is done: status DONE, and the profile change moves on (R87). -/
def Mach.swapDone (m : Mach) : Mach :=
  let m1 := (m.swapNow false).wr ARM_SWAPCTL fARM_SWAPCTL_STATUS 2
  if m.arm.change = 1 then m1.changeEnd (if m.arm.lateChg then 12 else 4)
  else if m.arm.change = 3 then m1.armMod fun a => { a with lowering := true }
  else if vidCode m.shd.profile < m.rd ARM_VRSTAT fARM_VRSTAT_VID_OUT ∧ m.drives then m1.armMod fun a => { a with lowering := true }
  else m1

/-- The swap of a beat start, if its frame is named: postponed after an overrun, or while the voltage is not confirmed (R73,
R74, R87). -/
def Mach.swapCheck (m : Mach) (ran : Bool) : Mach :=
  if m.arm.armed && decide (m.beat = 4 * m.arm.swapFrame) then
    let later := m.armMod fun a => { a with swapFrame := a.swapFrame + 1 }
    if ran then (later.count ARM_SWAPCTL fARM_SWAPCTL_DEFERS).wr ARM_SWAPCTL fARM_SWAPCTL_STATUS 3
    else if m.arm.change = 1 ∧ !m.arm.confirmed then later.wr ARM_PROFCTL fARM_PROFCTL_STATUS 5
    else m.swapDone
  else m

/-! ### Hold and the fallback (R82, R83, R769) -/

/-- The air slots of a radio end when Hold begins (R83): one that waits, and a calibration that waits, end HOLD; one that has started
sends nothing more. -/
def Mach.slotsHold (m : Mach) (x : Nat) : Mach :=
  let m1 := match (m.getSq x).slot with
    | some s => if s.waiting then m.slotEnds x 4 s else m.sqMod x fun q => { q with slot := none }
    | none => m
  match (m1.getRadio x).calWait with
  | some w => (m1.radioMod x fun r => { r with calWait := none }).calSlotMark x 4 w.ix
  | none => m1

/-- Hold begins: no task is selected, released or dispatched, every air slot ends HOLD, unreplayed tasks are abandoned (R83,
R769). -/
def Mach.enterHold (m : Mach) : Mach :=
  if m.inHold then m
  else
    let m1 := (m.wr ARM_STAT fARM_STAT_HOLD 1).replaysLost
    (m1.forEach (List.range 16) fun x n => x.dspMod n fun d =>
      { d with sel := d.sel.filter (fun t => t.ran || t.slot == 63), delay := [] }).forEach [0, 1, 2] Mach.slotsHold

/-- FALLBACK_START (R82): what CONSEC or the margin called for at this beat's start. -/
def Mach.fallbackStart (m : Mach) : Mach :=
  if m.arm.fbCause = 0 then m
  else
    let m1 := m.event 0x0102 0 [(1, m.arm.fbCause - 1)]
    let m2 := ((m1.disarm 8).changeAbort 11).armMod fun a => { a with fbCause := 0, lowering := false, fbSwap := true }
    let twin := decide (m.rd ARM_STAT fARM_STAT_ACT_PROFILE = 3)
    let m3 := if m2.shdState = 4 then m2
      else
        let cut := match m2.arm.load with
          | some (0, _, _) => (m2.armMod fun a => { a with load := none }).wr ARM_LDCTL fARM_LDCTL_GO 0
          | _ => m2
        if m2.arm.fbLoad then cut else ((cut.clearBank cut.shdBank).setShd 0).shdShow
    let m4 := if twin then (m3.armMod fun a => { a with change := 5, confirmed := false, settle := false }).drive 2 else m3
    if twin ∨ m2.shdState ≠ 4 then m4.enterHold else m4

/-- The fallback swap of a beat start, once the shadow bank is FALLBACK and, from TWIN, the voltage confirmed (R82, R769). -/
def Mach.fbSwapCheck (m : Mach) : Mach :=
  if m.arm.fbSwap && m.shdState == 4 && (m.arm.change != 5 || m.arm.confirmed) then
    let m1 := m.replaysLost.swapNow true
    m1.armMod fun a => { a with change := if a.change = 5 then 0 else a.change, confirmed := false, lowering := decide (m.arm.change ≠ 5) }
  else m

/-- At the end of the first beat without overrun after a swap to a slower profile, or under the fallback, the new code goes
to the regulator (R82, R87). -/
def Mach.lowerCheck (m : Mach) (ran : Bool) : Mach :=
  if m.arm.lowering ∧ !ran then
    let p := m.rd ARM_STAT fARM_STAT_ACT_PROFILE
    let m1 := m.armMod fun a => { a with lowering := false, confirmed := false, settle := false }
    if m.arm.change = 3 then
      ((m1.drive p).armMod fun a => { a with change := 4 }).wr ARM_PROFCTL fARM_PROFCTL_STATUS 3
    else if vidCode p < m.rd ARM_VRSTAT fARM_VRSTAT_VID_OUT ∧ m.drives then (m1.drive p).armMod fun a => { a with change := 6 }
    else m1
  else m

end Sys2Proof.Machine
end

