-- ==== Sys2Proof/Machine/FqOps.lean ====
section
/-! DEFINITION. What reaches a queue channel from outside it: items, FETCHes, PUTs and commands (R192 to R206, R210). -/

namespace Sys2Proof.Machine

open Sys2Proof

/-- The access of a number that a channel has still to serve, of a direction and kind (R197). -/
def Mach.qchAcc (m : Mach) (n id : Nat) (put : Bool) (kind : Nat) : Option Acc :=
  match m.openAcc n id with
  | some a => if a.put = put ∧ ptrClass a.far = 6 ∧ ptrAddr a.far / 256 % 4 = kind then some a else none
  | none => none

/-- Whether a channel refuses an engine at the end it uses (R202). -/
def Mach.chRefuses (m : Mach) (n ch : Nat) (put : Bool) : Bool :=
  !m.chOn ch || (if put then m.chProd ch else m.chCons ch) != n

/-- The words that a FETCH lands, filled with NIL up to its length (R198). -/
def nilFill (k : Nat) (l : List TWord) : List TWord := l ++ List.replicate (k - l.length) nilWord

/-- The status of delivered words: POISON where one is poisoned (R119). -/
def wordsStat (l : List TWord) : Nat := if l.any fun w => wTag w == tagPOISON then 2 else 0

/-- Landed words as an access keeps them. -/
def landed (l : List TWord) : List (Nat × TWord) := l.map fun w => (0, w)

/-- A FETCH of kind DATA takes words of the first visible item; none visible, it stays outstanding (R198). -/
def Mach.qchFetch (m : Mach) (n id : Nat) : Mach :=
  match m.qchAcc n id false 0 with
  | some a =>
    let ch := ptrAddr a.far % 256
    if m.chRefuses n ch false then m.serve n id 4 []
    else if (m.getChan ch).visible = [] then m
    else
      let r := m.chTake ch a.len (m.accRun n a)
      let x := r.1.chDelivers ch r.2
      let ws := nilFill (4 * a.len) (x.2.map Read.raw32).flatten
      x.1.serve n id (wordsStat ws) (landed ws)
  | none => m

/-- The four INT of the header word of a HEADED FETCH (R199). -/
def headedWord (taken : List QWord) (next : List QWord) (left : Nat) : List TWord :=
  [intWord taken.length,
   intWord (match taken, next with | w :: _, _ => w.eff.toNat | [], w :: _ => w.eff.toNat | [], [] => 0),
   intWord (match taken.getLast? with | some w => w.eff.toNat | none => 0),
   intWord left]

/-- A FETCH of kind HEADED: a header word, then words as for DATA (R199). -/
def Mach.qchHeaded (m : Mach) (n id : Nat) : Mach :=
  match m.qchAcc n id false 1 with
  | some a =>
    let ch := ptrAddr a.far % 256
    if m.chRefuses n ch false then m.serve n id 4 []
    else match (m.getChan ch).visible with
    | [] => m
    | it :: _ =>
      let r := if a.len ≤ 1 then (m, []) else m.chTake ch (a.len - 1) (m.accRun n a)
      let x := r.1.chDelivers ch r.2
      let ws := nilFill (4 * a.len) (headedWord r.2 it (it.length - r.2.length) ++ (x.2.map Read.raw32).flatten)
      x.1.serve n id (wordsStat ws) (landed ws)
  | none => m

/-- A PUT of kind DATA offers its item to the channel (R200); it is served once the end word is acknowledged. -/
def Mach.qchPut (m : Mach) (n id : Nat) : Mach :=
  match m.qchAcc n id true 0 with
  | some a =>
    let ad := ptrAddr a.far
    let ch := ad % 256
    if m.chRefuses n ch true then (m.chRefuse n ch).serve n id 4 []
    else if a.src = [] then m
    else
      let last := if ad / 4096 % 32 = 0 then 16 else ad / 4096 % 32
      let codes := rawCodes (a.src.length + 1) a.src
      (m.chReceive ch (sideWords (ad / 1024 % 2 == 1) (ad / 2048 % 2 == 1) last (ad / 131072 % 256) true (m.accRun n a) true
        codes)).teMod n fun t => t.accMod id fun b => { b with src := [], status := wordsStat a.src }
  | none => m

/-- A PUT of kind DATA whose end word the channel has acknowledged is served: FLUSHED where a flush voided it (R200, R206). -/
def Mach.qchAcked (m : Mach) (n id : Nat) : Mach :=
  match m.qchAcc n id true 0 with
  | some a =>
    let c := m.getChan (ptrAddr a.far % 256)
    if a.src = [] ∧ c.waiting = [] then m.serve n id (a.status + if c.lastFlushed then 8 else 0) [] else m
  | none => m

/-- The outstanding FETCHes of an engine on a channel. -/
def Te.fetchesOn (t : Te) (ch : Nat) : List Nat :=
  (t.accs.filter fun a => !a.put && !a.done && ptrClass a.far == 6 && ptrAddr a.far % 256 == ch).map fun a => a.id

/-- FLUSH (R206). A flush that voids an item is counted when that item ends. -/
def Mach.chFlush (m : Mach) (ch : Nat) : Mach :=
  let c := m.getChan ch
  let m1 := m.chPut ch c.flush
  let m2 := m1.when (!c.writing || c.voiding) fun x => x.count (FQ_CHn_CNT ch) fFQ_CHn_CNT_FLUSHES
  if m.chCons ch < 16 then
    m2.forEach ((m2.getTe (m.chCons ch)).fetchesOn ch) fun x id => x.serve (m.chCons ch) id 8 []
  else m2

/-- The access of a PUT of kind CTRL that has still to take effect: an abandon of its task does not change it (R201). -/
def Mach.ctrlAcc (m : Mach) (n id : Nat) : Option Acc :=
  match (m.getTe n).acc id with
  | some a => if a.put ∧ !a.done ∧ (m.getTe n).inOrder a ∧ ptrClass a.far = 6 ∧ ptrAddr a.far / 256 % 4 = 2 then some a else none
  | none => none

/-- The command word of a PUT of kind CTRL as the channel takes it: none where it refuses (R201, R202). -/
def Mach.ctrlWord (m : Mach) (n ch : Nat) (a : Acc) : Option Nat :=
  let w := a.src.getD 0 0
  if wTag w = tagPOISON ∨ !m.chOn ch ∨ (m.chProd ch ≠ n ∧ m.chCons ch ≠ n) then none else some (payN w % 4)

/-- A command reaches a channel: by software's write of FQ_CHn_CMD, or by the PUT of kind CTRL of an engine (R201,
R206, R216); with both bits set, FLUSH acts first. -/
def Mach.chCommand (m : Mach) (ch v : Nat) : Mach :=
  (m.when (v % 2 = 1) fun x => x.chFlush ch).when (v / 2 % 2 = 1) fun x => x.chDrop ch

/-- A PUT of kind CTRL takes effect, if it asks for a flush exactly when `flush` says so (R201). -/
def Mach.chCtrl (m : Mach) (n id : Nat) (flush : Bool) : Mach :=
  match m.ctrlAcc n id with
  | some a =>
    let ch := ptrAddr a.far % 256
    match m.ctrlWord n ch a with
    | none => if flush then m else m.serve n id 4 []
    | some v => if (v % 2 == 1) = flush then (m.chCommand ch v).serve n id 0 [] else m
  | none => m

/-- The depth of a channel's range in units, staged values counting (R211, R651). -/
def Mach.chDepth (m : Mach) (ch : Nat) : Nat :=
  if 248 ≤ ch then 4 else getFld (m.plainRead (FQ_CHn_STORE ch)) fFQ_CHn_STORE_DEPTH

/-- The first unit of a channel's range (R211). -/
def Mach.chBase (m : Mach) (ch : Nat) : Nat :=
  if 248 ≤ ch then 736 + 4 * (ch - 248) else getFld (m.plainRead (FQ_CHn_STORE ch)) fFQ_CHn_STORE_BASE

/-- Whether a channel is or will be enabled. -/
def Mach.chSet (m : Mach) (ch : Nat) : Bool := getFld (m.plainRead (FQ_CHn_CFG ch)) fFQ_CHn_CFG_ENABLE == 1

/-- Whether the store range of a channel overlaps an enabled channel, passes unit 767 or is empty (R210). -/
def Mach.chRangeBad (m : Mach) (ch : Nat) : Bool :=
  let b := m.chBase ch
  let d := m.chDepth ch
  d == 0 || decide (768 < b + d) || (List.range 256).any fun k =>
    k != ch && m.chSet k && decide (b < m.chBase k + m.chDepth k ∧ m.chBase k < b + d)
/-- FQ_CHn_STAT as it reads (R216). -/
def Mach.chStat (m : Mach) (ch : Nat) : W32 :=
  let c := m.getChan ch
  BitVec.ofNat 32 (c.stored * 65536 + min 255 (c.visible).length * 256 + (if c.dropping then 4 else 0) +
    (if c.voiding then 2 else 0) + (if m.chOn ch && decide (m.chCap ch ≤ c.stored) then 1 else 0))

/-- FQ_CHn_CFG as it reads: the LC end of a mailbox channel is port 0x10 (R211). -/
def Mach.chCfgView (m : Mach) (ch : Nat) : W32 :=
  let v := m.plainRead (FQ_CHn_CFG ch)
  if 252 ≤ ch then putFld v fFQ_CHn_CFG_PROD portLC
  else if 248 ≤ ch then putFld v fFQ_CHn_CFG_CONS portLC else v

/-- FQ_CHn_STORE as it reads: DEPTH and BASE of a mailbox channel are fixed (R211). -/
def Mach.chStoreView (m : Mach) (ch : Nat) : W32 :=
  putFld (putFld (m.plainRead (FQ_CHn_STORE ch)) fFQ_CHn_STORE_DEPTH (m.chDepth ch)) fFQ_CHn_STORE_BASE (m.chBase ch)

/-- Software's write of FQ_CHn_CFG (R210, R211, R216): staged like every RWS field, its ENABLE refused for a bad range where the
write could set it. The fixed end and threshold of a mailbox channel keep their values. -/
def Mach.chCfg (m : Mach) (ch : Nat) (v : W32) : Mach :=
  let old := m.plainRead (FQ_CHn_CFG ch)
  let v1 := if 252 ≤ ch then putFld v fFQ_CHn_CFG_PROD (getFld old fFQ_CHn_CFG_PROD)
    else if 248 ≤ ch then putFld v fFQ_CHn_CFG_CONS (getFld old fFQ_CHn_CFG_CONS) else v
  let v2 := if 248 ≤ ch then putFld v1 fFQ_CHn_CFG_CT_ITEMS (getFld old fFQ_CHn_CFG_CT_ITEMS) else v1
  if m.staged ∧ getFld v2 fFQ_CHn_CFG_ENABLE = 1 ∧ getFld old fFQ_CHn_CFG_ENABLE = 0 ∧ m.chRangeBad ch then
    (m.plainWrite (FQ_CHn_CFG ch) (putFld v2 fFQ_CHn_CFG_ENABLE 0)).report blkFQ kRefused ch
  else m.plainWrite (FQ_CHn_CFG ch) v2

end Sys2Proof.Machine
end

