-- ==== Sys2Proof/Machine/ChnBase.lean ====
section
/-! DEFINITION. Camp frames, the configuration image and its generations (R612 to R615, R650 to R652), and sending over the
pair link. -/

namespace Sys2Proof.Machine

/-- The camp address, 0 while unaddressed (R614). -/
def Mach.campAddr (m : Mach) : Nat := m.rd CHN_STAT fCHN_STAT_ADDR

/-- The unit identifier. -/
def Mach.uid (m : Mach) : Nat := m.reg64 CHN_UID_LO CHN_UID_HI

/-- A camp frame's bytes (R613). -/
def campFrame (dst src type seq : Nat) (payload : List Byte) : List Byte :=
  let l := bytesLE 1 dst ++ bytesLE 1 src ++ bytesLE 1 type ++ bytesLE 1 seq ++ bytesLE 2 payload.length ++ payload
  let b := l ++ List.replicate (60 - l.length) 0
  b ++ bytesLE 4 (match crcPoly 0 with | some p => crcOf p b | none => 0)

/-- Send a camp frame; an unaddressed unit sends PEG frames only (R612 to R614). -/
def Mach.campSend (m : Mach) (dst type : Nat) (payload : List Byte) : Mach :=
  if m.campAddr = 0 ∧ type ≠ 1 then m
  else
    let f := campFrame dst m.campAddr type m.chn.seq payload
    m.chnMod fun c => { c with seq := (c.seq + 1) % 256, camp := tabSet none c.camp c.seq (some ⟨f, 0, none⟩) }

/-- A received camp frame: source, type, payload; none where R613 or R614 drop it. -/
def Mach.campTake (m : Mach) (l : List Byte) : Option (Nat × Nat × List Byte) :=
  let n := l.length
  let len := numLE (slice 0 l 4 2)
  let dst := (l.getD 0 0).toNat
  let src := (l.getD 1 0).toNat
  let type := (l.getD 2 0).toNat
  if n < 64 ∨ 512 < n ∨ numLE (slice 0 l (n - 4) 4) ≠ (match crcPoly 0 with | some p => crcOf p (l.take (n - 4)) | none => 0) then none
  else if (dst ≠ 31 ∧ (dst = 0 ∨ dst ≠ m.campAddr)) ∨ 31 < src ∨ type = 0 ∨ 9 < type ∨ 502 < len ∨ n ≠ max 60 (6 + len) + 4 then none
  else some (src, type, slice 0 l 6 len)

/-- Whether a camp frame's CRC fails (R614). -/
def campBad (l : List Byte) : Bool :=
  numLE (slice 0 l (l.length - 4) 4) != (match crcPoly 0 with | some p => crcOf p (l.take (l.length - 4)) | none => 0)

/-! ### The configuration image (R650) -/

/-- Insert a number into a rising list. -/
def natInsert (a : Nat) : List Nat → List Nat
  | [] => [a]
  | b :: r => if a ≤ b then a :: b :: r else b :: natInsert a r

/-- The registers of the image: RWS or RWL, in rising BAR0 order, without CHN, HIF and MSH (R650). -/
def imageRegs : List Nat :=
  (((List.range 24).filter fun b => b != blkCHN && b != blkHIF && b != blkMSH).map fun b =>
    (blockRegs b fun r => r.rws != 0 || r.rwl != 0).foldr natInsert []).flatten

/-- The canonical configuration image of the committed values (R650). -/
def Mach.image (m : Mach) : List Byte :=
  (imageRegs.map fun a => bytesLE 4 a ++ bytesLE 4 (m.reg a).toNat).flatten ++
    bytesLE 8 (m.reg64 ARM_ACTID_LO ARM_ACTID_HI) ++ bytesLE 4 imageRegs.length

/-- The staged image: the values that a commit makes live. -/
def Mach.stagedImage (m : Mach) : List Byte :=
  (imageRegs.map fun a => bytesLE 4 a ++ bytesLE 4 (m.reg a ^^^ tabGet 0 m.stage a).toNat).flatten ++
    bytesLE 8 (m.reg64 ARM_ACTID_LO ARM_ACTID_HI) ++ bytesLE 4 imageRegs.length

/-- Send bytes to the standby in CFG frames of a kind, from byte offset `off` up (R625, R648). -/
def Mach.cfgSend (m : Mach) (kind : Nat) : Nat → Nat → List Byte → Mach
  | 0, _, _ => m
  | k + 1, off, l =>
    if l = [] then m
    else (m.toStandby ⟨8, false, false, kind + 16 * off, codesOf (l.take 1024)⟩).cfgSend kind k (off + 1024) (l.drop 1024)

/-- SEAL_DONE: the image stands at CHN_IMGBASE and its seal is known (R650, R652). -/
def Mach.sealDone (m : Mach) : Mach :=
  if m.bit CHN_CFGSTAT fCHN_CFGSTAT_SEAL_PENDING then
    let l := m.image
    ((m.dramWrites (m.reg64 CHN_IMGBASE_LO CHN_IMGBASE_HI) (codesOf l)).setReg64 CHN_SEAL_LO CHN_SEAL_HI (crcOf crc64 l)).wr CHN_CFGSTAT
      fCHN_CFGSTAT_SEAL_PENDING 0
  else m

/-- CFG_STAGE: its status (R651). -/
def Mach.cfgStage (m : Mach) (g : Nat) : Mach × Nat :=
  if m.staged then (m, if (m.reg CHN_STGGEN).toNat = g then 0 else 3)
  else if (m.reg CHN_CFGGEN).toNat = g then (m, 3)
  else (((m.stageMod fun _ => []).setReg CHN_STGGEN (BitVec.ofNat 32 g)).wr CHN_CFGSTAT fCHN_CFGSTAT_STAGING 1 |>.blkGens g, 0)

/-- A commit is scheduled: announced on the camp bus with SITE_COMMIT, sent with the staged image to a standby (R652). -/
def Mach.commitPlan (m : Mach) (g b : Nat) : Mach :=
  let m1 := m.chnMod fun c => { c with commit := some (g, b), announced := some (g, b) }
  let m2 := if m.bit CHN_CTL fCHN_CTL_SITE_COMMIT then m1.campSend 31 4 (bytesLE 4 g ++ bytesLE 6 b) else m1
  if m2.mirrors then
    let l := m2.stagedImage
    (m2.cfgSend 0 (l.length + 1) 0 l).toStandby ⟨8, false, false, 16 * (2 ^ 32 - 1), codesOf (bytesLE 4 g ++ bytesLE 6 b)⟩
  else m2

/-- CFG_COMMIT: its status (R645, R652). -/
def Mach.cfgCommit (m : Mach) (g b : Nat) : Mach × Nat :=
  let block := getFld (m.plainRead WMAC_PNCTL) fWMAC_PNCTL_BLOCK
  if !m.staged ∨ (m.reg CHN_STGGEN).toNat ≠ g ∨ b < m.beat + 2 ∨ (m.reg CHN_PNJUMP).toNat < block * 1024 then (m, 3)
  else (m.commitPlan g b, 0)

/-- CFG_COMMIT_APPLY: at the named beat the staged generation becomes the committed one (R652). -/
def Mach.commitBeat (m : Mach) : Mach :=
  match m.chn.commit with
  | some (g, b) =>
    if b ≤ m.beat then (m.chnMod fun c => { c with commit := none }).stageCommit g else m
  | none => m

end Sys2Proof.Machine
end

