-- ==== Sys2Proof/Machine/Sections.lean ====
section
/-! DEFINITION. The entries of stations, keys, agreements, queues, policies and bindings as checkpoints, snapshots and mirrored
state records carry them (R635, R648, R681). The spec gives the sizes; where it gives no places, they are the model's (log 32). -/

namespace Sys2Proof.Machine

/-- A station's 48 bytes: the STA_SET record without its zero bytes, and the power state (R681). -/
def Sta.entry (s : Sta) : List Byte := slice 0 s.record 0 44 ++ bytesLE 4 s.power

/-- A station put in from its 48 bytes. -/
def Mach.staPut (m : Mach) (l : List Byte) : Mach :=
  let k := numLE (slice 0 l 0 2)
  if 2048 ≤ k then m
  else m.wmacMod fun w => { w with stas := tabSet none w.stas k (some ⟨slice 0 l 0 44 ++ List.replicate 20 0, numLE (slice 0 l 44 4)⟩) }

/-- A key's 48 bytes, with `mark` for its packet-number mark (R681). -/
def KeyE.entry (e : KeyE) (k mark : Nat) : List Byte :=
  bytesLE 1 e.suite ++ bytesLE 1 (if k < 4096 then k % 2 else e.owner) ++ bytesLE 2 (if k < 4096 then k / 2 else k - 4096) ++
    bytesLE 1 (if k < 4096 then 0 else 1) ++ bytesLE 1 e.te ++ bytesLE 2 e.word ++ bytesLE 6 mark ++ bytesLE 2 0 ++
    slice 0 e.key 0 32

/-- The key table index that a record of suite, key ID, station or group entry and group flag names (R329). -/
def keyIndex (id who : Nat) (group : Bool) : Nat := if group then 4096 + who else 2 * who + id % 2

/-- A key entered anew: its generation advances, its transmit counter starts at `pn` (R330, R598). -/
def Mach.keyEnter (m : Mach) (k suite id te word pn : Nat) (key : List Byte) : Mach :=
  let e := m.keyE k
  m.setKeyE k { KeyE.zero with used := true, gen := e.gen + 1, suite := suite, key := key,
                               owner := if k < 4096 then k / 2 else id, pn := pn, te := te, word := word }

/-- The KEY handle of an entry written into the local word it names (R330). -/
def Mach.keyHandleWrite (m : Mach) (k : Nat) : Mach :=
  let e := m.keyE k
  m.lmStore e.te e.word (mkWord tagKEY (Config.keyHandle k e.gen)) false

/-- A key put in from its 48 bytes, its counter at the mark, its handle written (R683, R634). -/
def Mach.keyPut (m : Mach) (l : List Byte) (guard : Bool) : Mach :=
  let b (i k : Nat) : Nat := numLE (slice 0 l i k)
  let k := keyIndex (b 1 1) (b 2 2) (b 4 1 == 1)
  if 4608 ≤ k ∨ 6 < b 0 1 then m
  else
    let m1 := m.keyEnter k (b 0 1) (b 1 1) (b 5 1 % 16) (b 6 2 % 8192) (b 8 6) (slice 0 l 16 32)
    (m1.setKeyE k { m1.keyE k with guard := guard && decide (k < 4096) }).keyHandleWrite k

/-- Agreement buffer sizes by their code (R319). -/
def baSizes : List Nat := [64, 128, 256, 512, 1024]

/-- An agreement's 4 bytes: station, TID, direction (0 down, 1 up), size code, starting sequence number. -/
def baEntry (k : Nat) (up : Bool) (size start : Nat) : List Byte :=
  bytesLE 4 (k / 16 + k % 8 * 2 ^ 11 + (if up then 2 ^ 14 else 0) + (baSizes.findIdx fun s => s == size) * 2 ^ 15 + start * 2 ^ 18)

/-- Put in an agreement. -/
def Mach.baSet (m : Mach) (k : Nat) (up : Bool) (size start : Nat) : Mach :=
  m.wmacMod fun w => if up then { w with baRx := tabSet none w.baRx k (some ⟨size, start, [], [], 0⟩) }
    else { w with baTx := tabSet none w.baTx k (some ⟨size, start⟩) }

/-- An agreement put in from its 4 bytes. -/
def Mach.baPut (m : Mach) (l : List Byte) : Mach :=
  let v := numLE (slice 0 l 0 4)
  m.baSet (v % 2 ^ 11 * 16 + v / 2 ^ 11 % 8) (v / 2 ^ 14 % 2 == 1) (baSizes.getD (v / 2 ^ 15 % 8) 64) (v / 2 ^ 18 % 4096)

/-- A queue's 8 bytes: the QUEUE_SET attributes. -/
def QAttr.entry (a : QAttr) : List Byte :=
  bytesLE 8 (a.cls + a.radio * 2 ^ 3 + a.weight * 2 ^ 5 + a.shaper * 2 ^ 21 + a.policer * 2 ^ 33 + a.limit * 2 ^ 45)

/-- The attributes that 8 bytes hold. -/
def QAttr.ofEntry (l : List Byte) : QAttr :=
  let v := numLE (slice 0 l 0 8)
  ⟨v % 8, v / 2 ^ 5 % 2 ^ 16, v / 2 ^ 21 % 2 ^ 12, v / 2 ^ 33 % 2 ^ 12, v / 2 ^ 45, v / 2 ^ 3 % 4⟩

/-- A policy's 8 bytes: IDLE, ACTION, and the bounds in units of 4 KiB, rounded away from 0. -/
def Shaper.entry (s : Shaper) : List Byte :=
  bytesLE 8 (s.idle + s.action * 2 ^ 24 + (s.hi + 4095) / 4096 % 2 ^ 19 * 2 ^ 25 + ((-s.lo).toNat + 4095) / 4096 % 2 ^ 20 * 2 ^ 44)

/-- The policy that 8 bytes hold, its credit 0. -/
def Shaper.ofEntry (l : List Byte) : Shaper :=
  let v := numLE (slice 0 l 0 8)
  ⟨max 1 (v % 2 ^ 24), v / 2 ^ 25 % 2 ^ 19 * 4096, -((v / 2 ^ 44 % 2 ^ 20 * 4096 : Nat) : Int), v / 2 ^ 24 % 2, 0, none⟩

/-- A binding's 12 bytes. -/
def Twt.entry (t : Twt) : List Byte :=
  bytesLE 2 (2 ^ 15 + t.owner) ++ bytesLE 1 t.radio ++ bytesLE 1 t.beat ++ bytesLE 1 t.start ++ bytesLE 1 0 ++ bytesLE 2 t.every ++
    bytesLE 2 t.phase ++ bytesLE 2 0

/-- The binding that the 12 bytes at position `k` of the section hold. -/
def Twt.ofEntry (k : Nat) (l : List Byte) : Option Twt :=
  let b (i n : Nat) : Nat := numLE (slice 0 l i n)
  if b 0 2 < 2 ^ 15 then none
  else some ⟨if k < 4096 then k else k - 4096, decide (4096 ≤ k), b 0 2 % 2 ^ 15, b 2 1, b 3 1, b 4 1, b 6 2, b 8 2⟩

/-- Send a state record to the standby (R635). -/
def Mach.mirrorState (m : Mach) (sec arg : Nat) (l : List Byte) : Mach :=
  let c := codesOf l
  m.mirror (0x80 + sec) (encodeCode (jHeader (0x80 + sec) c.length portCHN 0 0 m.beat arg) :: c)

/-- The mirror key (R635). -/
def Mach.mkey (m : Mach) : List Byte := ((List.range 8).map fun k => bytesLE 4 (m.reg (CHN_MKEYk k)).toNat).flatten

/-- Send a key record to the standby, encrypted (R635). -/
def Mach.mirrorKey (m : Mach) (k : Nat) : Mach :=
  let e := m.keyE k
  if m.mirrors then
    m.toStandby ⟨7, true, false, k, codesOf (Config.mirrorSeal m.mkey (bytesLE 1 (if e.used then 1 else 0) ++ e.entry k e.pn))⟩
  else m

end Sys2Proof.Machine
end

