-- ==== Sys2Proof/Machine/HifRings.lean ====
section
/-! DEFINITION. Block HIF: rings, the doorbell read, event rings, progress and messages, function states (R572 to R592). -/

namespace Sys2Proof.Machine

/-- Change a ring. -/
def Mach.ringMod (m : Mach) (r : Nat) (f : Ring → Ring) : Mach := m.setRing r (f (m.getRing r))

/-- The kinds of ring by number (R578). -/
def isCmdRing (r : Nat) : Bool := decide (r < 64)
def isEventRing (r : Nat) : Bool := decide (64 ≤ r ∧ r < 128)

/-- RING_FAULT: the ring stands in FAULT until a new GEN is adopted (R582). -/
def Mach.ringFault (m : Mach) (r : Nat) : Mach :=
  let m1 := m.ringMod r fun x => { x with st := 3 }
  if isEventRing r then m1.putEvent ⟨64, 0x1303, r, false, m.beat % 2 ^ 32, pack [(1, r)]⟩ else m1.notice r 0x1303 r [(1, r)]

/-- The entries that stand between the device INDEX of a pickup and the doorbell's. -/
def Ring.waiting (x : Ring) : Nat := (x.db + 2 ^ 32 - x.taken) % 2 ^ 32

/-- Whether the doorbell INDEX is out of the ring's reach (R582). -/
def Ring.broken (x : Ring) (r : Nat) : Bool :=
  if isEventRing r then decide (2 ^ x.log2 < (x.idx + 2 ^ 32 - x.db) % 2 ^ 32)
  else decide (2 ^ x.log2 < (x.db + 2 ^ 32 - x.idx) % 2 ^ 32)

/-- A ring-table entry (R580): none where a field is out of range. -/
def ringEntry (r : Nat) (e : List Byte) : Option Ring :=
  let b (i n : Nat) : Nat := numLE (slice 0 e i n)
  let ev := isEventRing r
  let log2 := b 8 1
  let size := (if ev then 16 else 32) * 2 ^ log2
  let ok :=
    decide (6 ≤ log2 ∧ log2 ≤ 16 ∧ b 9 1 < 4) && (b 9 1 < 2 || 128 ≤ r) && decide (b 0 8 % min 4096 size = 0) &&
      (if ev then b 0xC 1 == 0 else decide (64 ≤ b 0xC 1 ∧ b 0xC 1 < 128)) &&
      decide (b 0xD 1 ≤ (if ev then 63 else 0)) && decide (b 0xE 2 ≤ (if ev then 1023 else 0)) &&
      decide (b 0x10 2 ≤ (if isCmdRing r then 256 else 0)) && (decide (160 ≤ r) || b 0x12 1 == 0) &&
      (slice 0 e 0x13 13).all fun x => x == 0
  if ok then some { Ring.zero with st := 1, gen := b 0xA 2, base := b 0 8, log2 := log2, progEv := b 9 1 / 2 % 2 == 1,
                                   evring := b 0xC 1, vector := b 0xD 1, mod := b 0xE 2, quota := max 1 (b 0x10 2), ch := b 0x12 1 }
  else none

/-- A command completes: the device INDEX advances, its record goes to the journal, and CMD_DONE for a status other than OK
or with EV (R595, R600, R676). -/
def Mach.cmdDone (m : Mach) (r : Nat) (c : Cmd) (st : Nat) : Mach :=
  if c.mute then m
  else
    let ix := (m.getRing r).idx
    let m1 := ((m.ringMod r fun x => { x with idx := (x.idx + 1) % 2 ^ 32, progress := true }).journal 0x0A portHIF 0 0 r
      [encodeCode (datumOf (bytesLE 16 ix))]).holdOn (ringKey r)
    if st ≠ 0 ∨ c.ev then m1.notice r 0x1301 r [(1, r), (1, st), (2, c.opcode), (4, c.tag.toNat)] else m1

/-- The commands that wait in a ring. -/
def Mach.cmdsOf (m : Mach) (r : Nat) : List Cmd := tabGet [] m.hif.cmds r
def Mach.setCmds (m : Mach) (r : Nat) (l : List Cmd) : Mach := m.hifMod fun h => { h with cmds := tabSet [] h.cmds r l }

/-- HIF lets go of a held frame: its handle is consumed (R477, R605). -/
def Mach.frameLet (m : Mach) (f : HFrame) : Mach :=
  match f.handle with
  | some w => (match m.handle w with | some h => m.consume h | none => m)
  | none => m

/-- Drop the frames held for a ring; each counts in RX_NOBUF (R576, R581, R606). -/
def Mach.dropHeld (m : Mach) (p : HFrame → Bool) : Mach :=
  let l := m.hif.frames.filter p
  let m1 := m.hifMod fun h => { h with frames := h.frames.filter fun f => !p f }
  m1.forEach l fun x f => (x.frameLet f).count HIF_CNT0 fHIF_CNT0_RX_NOBUF

/-- A ring instance retires: commands not yet executed complete ABANDONED, held frames are dropped (R581, R600). -/
def Mach.ringRetire (m : Mach) (r : Nat) : Mach :=
  let m1 := (m.setCmds r []).forEach (m.cmdsOf r) fun x c => x.cmdDone r c 7
  (m1.dropHeld fun f => f.ring == r && f.prov == 0).ringMod r fun x => { x with st := if x.st = 0 then 0 else 2, hold := none }

/-- A ring in FAULT abandons the commands it has not executed (R582, R600). -/
def Mach.ringBreak (m : Mach) (r : Nat) : Mach :=
  let m1 := (m.setCmds r []).forEach (m.cmdsOf r) fun x c => x.cmdDone r c 7
  m1.ringFault r

/-- The entry of ring `r` in the ring table. -/
def tableEntry (table : List Byte) (r : Nat) : List Byte := slice 0 table (32 * r) 32

/-- Adopt a ring from its entry with device INDEX 0 (R581). -/
def Mach.ringAdopt (m : Mach) (r : Nat) (e : List Byte) : Mach :=
  match ringEntry r e with
  | some x => m.setRing r x
  | none => (m.setRing r { Ring.zero with gen := numLE (slice 0 e 0xA 2), evring := numLE (slice 0 e 0xC 1) }).ringFault r

/-- One doorbell slot of a good read (R579, R581, R582). -/
def Mach.slotTake (m : Mach) (table : List Byte) (r ix gen : Nat) : Mach :=
  let x := m.getRing r
  let e := tableEntry table r
  if gen ≠ x.gen then
    if numLE (slice 0 e 9 1) % 2 = 0 then m.ringRetire r
    else if numLE (slice 0 e 0xA 2) ≠ gen then m.count HIF_DBSTAT fHIF_DBSTAT_GENMISS
    else
      let m1 := if x.st = 0 then m else (m.ringRetire r).notice r 0x1304 r [(1, r), (2, x.gen)]
      m1.hifMod fun h => { h with adopting := tabSet none h.adopting r (some { Ring.zero with base := r, gen := gen }) }
  else if x.st = 1 then
    let y := { x with db := ix }
    let m1 := m.setRing r { y with hold := x.hold.map fun k => k - 1 }
    if y.broken r then m1.ringBreak r else m1
  else m

/-- Events that wait in the on-chip store go to their rings while there is room, in order; then a ring's lost count goes out
in EV_LOST (R590). -/
def Mach.storePump (m : Mach) : Mach :=
  let l := m.hif.store
  let m1 := (m.hifMod fun h => { h with store := [] }).forEach l fun x e =>
    if x.ringOpen e.ring && (x.getRing e.ring).room && !(x.hif.store.any fun y => y.ring == e.ring) then x.writeEvent e
    else x.hifMod fun h => { h with store := h.store ++ [e] }
  m1.forEach m1.hif.lost fun x e =>
    if x.ringOpen e.1 && (x.getRing e.1).room && !(x.hif.store.any fun y => y.ring == e.1) then
      (x.hifMod fun h => { h with lost := tabSet 0 h.lost e.1 0 }).writeEvent ⟨e.1, 0x1305, 0, false, x.beat % 2 ^ 32, pack [(4, e.2)]⟩
    else x

/-- A doorbell read completes with the page and, where it is read, the ring table (R581 to R585): a read under way, or one whose
timeout had won and that no later read has overtaken. -/
def Mach.doorbellDone (m : Mach) (page table : List Byte) : Mach :=
  if !m.hif.reading ∧ !m.hif.late then m
  else
    let late := !m.hif.reading
    let m1 := m.hifMod fun h => { h with reading := false, late := false }
    let m2 := if late then m1.count HIF_DBSTAT fHIF_DBSTAT_LATE else m1
    let m3 := if m.hif.adopted then m2
      else (m2.hifMod fun h => { h with adopted := true }).forEach (List.range 192) fun x r =>
        if numLE (slice 0 (tableEntry table r) 9 1) % 2 = 1 then x.ringAdopt r (tableEntry table r) else x
    let m4 := m3.forEach (List.range 192) fun x r =>
      x.slotTake table r (numLE (slice 0 page (8 * r) 4)) (numLE (slice 0 page (8 * r + 4) 2))
    m4.storePump

/-- The read ends in an error: the last good values stand (R585); `timeout` keeps the tag for a late completion. -/
def Mach.doorbellError (m : Mach) (status : Nat) (timeout : Bool) : Mach :=
  if m.hif.reading then
    ((m.hifMod fun h => { h with reading := false, late := timeout }).count HIF_DBSTAT fHIF_DBSTAT_READ_ERR).event 0x1306 0 [(1, status)]
  else m

/-- Whether the doorbell page is read at a beat start (R576, R583). -/
def Mach.doorbells (m : Mach) : Bool := m.bit HIF_CTL fHIF_CTL_ENABLE && m.actValid && !m.bit HIF_STAT fHIF_STAT_D3

/-- DOORBELL_READ_START at a beat start: rings retired in the beat before are adopted anew, and the read begins (R581, R583,
R702). The instances adopted here take their entry from the table of the read that named them (log 30). -/
def Mach.doorbellStart (m : Mach) (table : List Byte) : Mach :=
  let m1 := (m.hifMod fun h => { h with adopting := [] }).forEach m.hif.adopting fun x e => x.ringAdopt e.1 (tableEntry table e.1)
  let m2 := m1.forEach m1.hif.rings fun x e =>
    x.ringMod e.1 fun y => { y with st := if y.st = 2 then 0 else y.st, beatTaken := 0 }
  if m.doorbells then (m2.hifMod fun h => { h with reading := true, l1 := false }).wr HIF_STAT fHIF_STAT_POLLING 1
  else m2.wr HIF_STAT fHIF_STAT_POLLING 0

/-! ### Messages and progress (R586, R591) -/

/-- Whether a vector is masked, as it is until software unmasks it (R576). -/
def Mach.msixMasked (m : Mach) (v : Nat) : Bool := !(memGet m.hif.msix (16 * v + 12)).getLsbD 0

/-- Send a vector's message: address and data of its table entry. -/
def Mach.msixSend (m : Mach) (v : Nat) : Mach :=
  let a := numLE (memRead m.hif.msix (16 * v) 8)
  let d := numLE (memRead m.hif.msix (16 * v + 8) 4)
  m.hifMod fun h => { h with msgs := ((a, d) :: h.msgs).take 64, pba := h.pba &&& ~~~BitVec.ofNat 64 (2 ^ v) }

/-- MSIX_SEND at the end of a beat (R591). -/
def Mach.msixBeat (m : Mach) : Mach :=
  if m.bit HIF_STAT fHIF_STAT_D3 then m
  else m.forEach (m.hif.rings.filter fun e => isEventRing e.1 && e.2.fresh && e.2.st == 1 && decide (e.2.msg + e.2.mod ≤ m.beat)) fun x e =>
    let y := x.ringMod e.1 fun r => { r with fresh := false, msg := x.beat }
    if y.msixMasked e.2.vector then y.hifMod fun h => { h with pba := h.pba ||| BitVec.ofNat 64 (2 ^ e.2.vector) }
    else y.msixSend e.2.vector

/-- MSIX_UNMASK: a pending message goes out (R591). -/
def Mach.msixUnmask (m : Mach) (v : Nat) : Mach :=
  let m1 := m.hifMod fun h => { h with msix := memSet h.msix (16 * v + 12) (memGet h.msix (16 * v + 12) ||| 1) }
  if m.hif.pba.getLsbD v then m1.msixSend v else m1

/-- A write of a word of the MSI-X table; clearing a mask bit unmasks the vector (R574, R591). -/
def Mach.msixWrite (m : Mach) (o : Nat) (v : W32) : Mach :=
  let v' := if o % 16 = 12 then v ^^^ 1 else v
  let m1 := m.hifMod fun h => { h with msix := memWrite h.msix o (bytesLE 4 v'.toNat) }
  if o % 16 = 12 ∧ v'.getLsbD 0 then m1.msixUnmask (o / 16) else m1

/-- A word of the MSI-X table or of the pending bit array; the offsets between them are reserved (R13, R574). -/
def Mach.msixRead (m : Mach) (o : Nat) : W32 :=
  if o < 0x400 then BitVec.ofNat 32 (numLE (memRead m.hif.msix o 4)) ^^^ (if o % 16 = 12 then 1 else 0)
  else if o < 0x1000 then 0
  else (m.hif.pba.extractLsb' (32 * ((o - 0x1000) / 4)) 32 : BitVec 32)

/-- PROGRESS_WRITE at the end of a beat: RING_PROGRESS for the packet rings that ask for it, then the slots that changed
(R579, R580, R586). -/
def Mach.progressBeat (m : Mach) : Mach :=
  if m.bit HIF_STAT fHIF_STAT_D3 ∨ !m.bit HIF_CTL fHIF_CTL_ENABLE then m
  else
    let m1 := m.forEach (m.hif.rings.filter fun e => e.2.progress && e.2.progEv) fun x e =>
      x.notice e.1 0x1307 e.1 [(1, e.1), (4, e.2.idx)]
    m1.forEach (m1.hif.rings.filter fun e => e.2.progress) fun x e =>
      (x.hostWrite (m.reg64 HIF_PROG_LO HIF_PROG_HI + 8 * e.1) (bytesLE 4 e.2.idx ++ bytesLE 2 e.2.gen ++ bytesLE 2 0)).ringMod e.1
        fun y => { y with progress := false, shown := y.idx }

/-! ### Function states (R576, R702) -/

/-- FLR: rings stop, held frames are dropped and counted, every register of HIF takes its reset value but HIF_SUBSYS, every
vector is masked; commands taken still take effect, unreported (R576, log 31). -/
def Mach.flr (m : Mach) : Mach :=
  let n := m.hif.frames.length
  let m1 := (m.hifMod fun h => { h with frames := [] }).forEach m.hif.frames fun x f => x.frameLet f
  let m2 := m1.keepRegs fun a => a / 0x10000 != blkHIF || a == HIF_SUBSYS
  (m2.hifMod fun h => { h with rings := [], adopting := [], adopted := false, reading := false, late := false, msix := [], pba := 0,
                               cmds := h.cmds.map fun e => (e.1, e.2.map fun c => { c with mute := true }) }).count HIF_CNT0
    fHIF_CNT0_RX_NOBUF n

/-- D3HOT_ENTER and D0_RETURN (R576). -/
def Mach.d3Enter (m : Mach) : Mach := (m.wr HIF_STAT fHIF_STAT_D3 1).wr HIF_STAT fHIF_STAT_POLLING 0
def Mach.d0Return (m : Mach) : Mach := m.wr HIF_STAT fHIF_STAT_D3 0

/-- The idle link enters L1 (R702). -/
def Mach.l1Enter (m : Mach) : Mach := if m.hif.reading then m else m.hifMod fun h => { h with l1 := true }

/-- A write of HIF_CTL (R581). -/
def Mach.hifCtl (m : Mach) (v : W32) : Mach :=
  let e := getFld v fHIF_CTL_ENABLE
  let m1 := m.wr HIF_CTL fHIF_CTL_ENABLE e
  if m.rd HIF_CTL fHIF_CTL_ENABLE = 0 ∧ e = 1 then m1.hifMod fun h => { h with adopted := false } else m1

/-- A write of a base register while the rings are enabled is ignored and reported (R577). -/
def Mach.hifBase (m : Mach) (a : Nat) (v : W32) : Mach :=
  if m.bit HIF_CTL fHIF_CTL_ENABLE then m.ignored a else m.plainWrite a v

end Sys2Proof.Machine
end

