-- ==== Sys2Proof/Machine/HifCmds.lean ====
section
/-! DEFINITION. Block HIF: the commands of the command rings, from pickup to completion (R593 to R600). -/

namespace Sys2Proof.Machine

open Sys2Proof

/-! ### A command's entry and operands -/

/-- A command as its entry gives it (R594). -/
def cmdOf (e : List Byte) (buf : Option (List Byte)) (data : List Byte) (beat : Nat) : Cmd :=
  let fl := numLE (slice 0 e 2 1)
  ⟨numLE (slice 0 e 0 2), fl % 2 == 1, fl / 2 % 2 == 1, BitVec.ofNat 32 (numLE (slice 0 e 4 4)), slice 0 e 8 24,
    if fl / 2 % 2 = 1 then buf else none, false, data, beat, false⟩

/-- The length of a command's indirect buffer. -/
def Cmd.bufLen (c : Cmd) : Nat := numLE (slice 0 c.ops 8 4)

/-- The operand bytes: inline, or those of the indirect buffer (R594). -/
def Cmd.args (c : Cmd) : List Byte := if c.indirect then (c.buf.getD []).take c.bufLen else c.ops

/-- An operand of `k` bytes at offset `i`. -/
def Cmd.arg (c : Cmd) (i k : Nat) : Nat := numLE (slice 0 c.args i k)

/-- Whether the device still waits for a command's indirect buffer. -/
def Cmd.unread (c : Cmd) : Bool := c.indirect && c.buf.isNone && !c.bad

/-- The opcodes of R596. -/
def cmdOpcodes : List Nat :=
  [0x00, 0x10, 0x11, 0x12, 0x18, 0x19, 0x20, 0x21, 0x22, 0x23, 0x24, 0x28, 0x30, 0x31, 0x32, 0x40, 0x50, 0x60, 0x61]

/-- The opcodes that take effect at the next beat start (R596). -/
def cmdDeferred : List Nat := [0x10, 0x11, 0x12, 0x20]

/-! ### Stations, agreements, keys -/

/-- Whether two stations share an AID on a radio (R299). -/
def aidClash (a b : List Byte) : Bool :=
  numLE (slice 0 a 2 2) == numLE (slice 0 b 2 2) && decide (Nat.land (numLE (slice 0 a 4 1)) (numLE (slice 0 b 4 1)) % 8 ≠ 0)

/-- STA_SET: the station takes every item but those that the device holds (R300, R597). -/
def Mach.staSet (m : Mach) (c : Cmd) : Mach × Nat :=
  let l := slice 0 c.args 0 64
  let k := c.arg 0 2
  let links := c.arg 4 1 % 8
  let one := decide (links = 1 ∨ links = 2 ∨ links = 4)
  if c.args.length < 64 ∨ 2047 < k ∨ c.arg 2 2 = 0 ∨ 2007 < c.arg 2 2 ∨ 15 < c.arg 4 1 ∨ links = 0 ∨
      (c.arg 4 1 < 8 ∧ !one) ∨ (List.range 3).any (fun x => links.testBit x && decide (47 < c.arg (5 + x) 1 ∨ 4 < c.arg (0x20 + 4 * x) 1))
  then (m, 2)
  else if m.wmac.stas.any fun e => e.1 != k && (match e.2 with | some s => aidClash l s.record | none => false) then (m, 3)
  else
    let s : Sta := ⟨l, match m.sta k with | some o => o.power | none => 0⟩
    ((m.wmacMod fun w => { w with stas := tabSet none w.stas k (some s) }).mirrorState 2 k s.entry, 0)

/-- Drop the frames of a queue and release their home copies (R596). -/
def Mach.queueDrop (m : Mach) (q : Nat) : Mach :=
  let x := m.queue q
  if x.frames = [] then m
  else (m.setQueue q { x with frames := [], tag := none }).forEach x.frames fun y f => y.homeRelease f.home

/-- A key entry is freed; its handles turn stale (R330). -/
def Mach.keyFree (m : Mach) (k : Nat) : Mach :=
  if (m.keyE k).used then (m.setKeyE k { KeyE.zero with gen := (m.keyE k).gen + 1 }).mirrorKey k else m

/-- STA_DEL: the station goes, with its agreements, keys and queued frames (R300, R596, log 34). -/
def Mach.staDel (m : Mach) (c : Cmd) : Mach × Nat :=
  let k := c.arg 0 2
  if 2047 < k then (m, 2)
  else if (m.sta k).isNone then (m, 5)
  else
    let m1 := m.wmacMod fun w => { w with
      stas := tabSet none w.stas k none
      baRx := w.baRx.filter fun e => e.1 / 16 != k
      baTx := w.baTx.filter fun e => e.1 / 16 != k }
    let m2 := (m1.keyFree (2 * k)).keyFree (2 * k + 1)
    ((m2.forEach (List.range 8) fun x i => x.queueDrop (8 * k + i)).mirrorState 2 k [], 0)

/-- BA_SET: an agreement of a station, TID and direction, 0 down and 1 up, is added or deleted (R319, R596). -/
def Mach.baSetCmd (m : Mach) (c : Cmd) : Mach × Nat :=
  let s := c.arg 0 2
  let tid := c.arg 2 1
  let up := c.arg 3 1 == 1
  let size := c.arg 4 2
  let start := c.arg 6 2
  let k := 16 * s + tid
  let del := c.arg 8 1 == 1
  if 2047 < s ∨ 7 < tid ∨ 1 < c.arg 3 1 ∨ 1 < c.arg 8 1 ∨ (!del ∧ (!baSizes.contains size ∨ 4095 < start)) then (m, 2)
  else if (m.sta s).isNone then (m, 5)
  else if del then
    if (if up then (tabGet none m.wmac.baRx k).isNone else (tabGet none m.wmac.baTx k).isNone) then (m, 5)
    else
      let m1 := m.wmacMod fun w =>
        if up then { w with baRx := tabSet none w.baRx k none } else { w with baTx := tabSet none w.baTx k none }
      ((m1.journal 8 portWMAC 0 0 k [encodeCode (datumOf (bytesLE 8 (if up then 1 else 0)))]).mirrorState 4 (k + 65536 * (if up then 2 else 1)) [], 0)
  else
    let m1 := m.baSet k up size start
    ((m1.journal 8 portWMAC 0 0 k [encodeCode (datumOf (bytesLE 1 (if up then 1 else 0) ++ bytesLE 7 0 ++ bytesLE 4 start ++
      bytesLE 4 size))]).mirrorState 4 k (baEntry k up size start), 0)

/-- The window of packet numbers that a checkpoint grants a key: 2 to this power (R682, R688). -/
def Mach.pnWindow (m : Mach) : Nat := max 32 (min 40 (m.rd FLT_CKCTL fFLT_CKCTL_PN_WINDOW))

/-- Whether a checkpoint has been sealed. -/
def Mach.sealedCk (m : Mach) : Bool := m.reg64 FLT_CKSEQ_LO FLT_CKSEQ_HI != 0

/-- KEY_INSTALL: the key, its handle, and the limit of a key newer than the newest checkpoint (R330, R598, R682). -/
def Mach.keyInstall (m : Mach) (c : Cmd) : Mach × Nat :=
  let suite := c.arg 0 1
  let id := c.arg 1 1
  let who := c.arg 2 2
  let grp := c.arg 4 1 % 2 == 1
  let pn := c.arg 8 6
  let k := keyIndex id who grp
  if c.args.length < 64 ∨ 6 < suite ∨ 15 < c.arg 5 1 ∨ 8191 < c.arg 6 2 ∨ (if grp then 511 < who ∨ 7 < id else 2047 < who ∨ 1 < id) then (m, 2)
  else if !grp ∧ (m.sta who).isNone then (m, 5)
  else
    let m1 := m.keyEnter k suite id (c.arg 5 1) (c.arg 6 2) pn (slice 0 c.args 16 32)
    let m2 := if m.sealedCk || m.flt.ckpt.isSome then m1.setKeyE k { m1.keyE k with limit := some (pn + 2 ^ m.pnWindow) } else m1
    ((m2.keyHandleWrite k).mirrorKey k, 0)

/-- KEY_DELETE (R330, R596). -/
def Mach.keyDelete (m : Mach) (c : Cmd) : Mach × Nat :=
  let who := c.arg 0 2
  let grp := c.arg 2 1 == 1
  let k := keyIndex (c.arg 3 1) who grp
  if 1 < c.arg 2 1 ∨ (if grp then 511 < who else 2047 < who ∨ 1 < c.arg 3 1) then (m, 2)
  else if (m.keyE k).used then (m.keyFree k, 0) else (m, 5)

/-! ### Queues and policies -/

/-- QUEUE_SET (R340). -/
def Mach.queueSet (m : Mach) (c : Cmd) : Mach × Nat :=
  let q := c.arg 0 2
  let a : QAttr := ⟨c.arg 2 1, max 1 (c.arg 4 2), c.arg 6 2, c.arg 8 2, c.arg 12 4, c.arg 3 1⟩
  if 16447 < q ∨ 7 < a.cls ∨ 2 < a.radio ∨ 4095 < a.shaper ∨ 4095 < a.policer ∨ a.limit < 4 ∨ 65536 < a.limit then (m, 2)
  else
    let x := m.queue q
    ((m.setQueue q { x with attr := a }).mirrorState 5 q a.entry, 0)

/-- The policy that a SHAPER_SET, POLICER_SET or WPOL_SET gives: IDLE, HI, LO, ACTION; none out of range (R356, R360). -/
def Cmd.policy (c : Cmd) (action : Bool) : Option (Nat × Nat × Int × Nat) :=
  let idle := c.arg 4 4
  let lo := signedOf 32 (c.arg 12 4)
  if 4095 < c.arg 0 2 ∨ idle = 0 ∨ 2 ^ 24 - 1 < idle ∨ 2 ^ 31 - 1 < c.arg 8 4 ∨ 0 < lo ∨ (action ∧ 1 < c.arg 2 1) then none
  else some (idle, c.arg 8 4, lo, if action then c.arg 2 1 else 0)

/-- The entry of a policy as it will stand. -/
def policyEntry (p : Nat × Nat × Int × Nat) : List Byte := (Shaper.mk p.1 p.2.1 p.2.2.1 p.2.2.2 0 none).entry

/-- SHAPER_SET (R358). -/
def Mach.shaperSet (m : Mach) (c : Cmd) : Mach × Nat :=
  match c.policy false with
  | none => (m, 2)
  | some p =>
    let i := c.arg 0 2
    ((m.setShaper i { m.shaper i with pend := some p }).mirrorState 6 i (policyEntry p), 0)

/-- POLICER_SET (R358, R360). -/
def Mach.policerSet (m : Mach) (c : Cmd) : Mach × Nat :=
  match c.policy true with
  | none => (m, 2)
  | some p =>
    let i := c.arg 0 2
    ((m.setPolicer i { m.policer i with pend := some p }).mirrorState 6 (4096 + i) (policyEntry p), 0)

/-- WPOL_SET (R358, R496). -/
def Mach.wpolSet (m : Mach) (c : Cmd) : Mach × Nat :=
  match c.policy true with
  | none => (m, 2)
  | some p =>
    let i := c.arg 0 2
    ((m.setWpol i { m.wpol i with pend := some p }).mirrorState 6 (8192 + i) (policyEntry p), 0)

/-! ### Target wake times and beacons -/

/-- The instant, in ns from now, of a slot's next START (R316). -/
def Mach.slotNext (m : Mach) (s : Slot) : Nat :=
  let now := (m.timePayload - m.tim.beatTime).toNat
  let at_ (b : Nat) : Nat := (b - m.beat) * m.beatNs + s.start * (m.beatNs / 256)
  let l := (List.range (4 * s.frames m.act.cycle + 1)).map fun i => m.beat + i
  match l.find? fun b => slotOccurs m.act s b && decide (now < at_ b) with
  | some b => at_ b - now
  | none => 0

/-- Whether an interval in µs fits the mantissa and exponent of a TWT element exactly (R316). -/
def twtFits (us : Nat) : Bool := (List.range 32).any fun e => us % 2 ^ e == 0 && decide (us / 2 ^ e < 65536)

/-- The number of a binding's place in the sections: agreements, then schedules. -/
def twtPlace (agr : Nat) (bcast : Bool) : Nat := if bcast then 4096 + agr else agr

/-- TWT_BIND: the binding, and the parameters that follow from its slot, written to the host (R316, R599). A duration that is no
whole number of µs has no stated value in µs (log 35). -/
def Mach.twtBind (m : Mach) (c : Cmd) : Mach × Nat :=
  let bc := c.arg 7 1 % 2 == 1
  let t : Twt := ⟨c.arg 0 2, bc, c.arg 2 2, c.arg 4 1, c.arg 5 1, c.arg 6 1, c.arg 8 2, c.arg 10 2⟩
  if (if bc then 383 < t.agr ∨ 47 < t.owner else 4095 < t.agr ∨ 2047 < t.owner) ∨ 2 < t.radio ∨ t.every = 0 ∨ t.every ≤ t.phase then (m, 2)
  else if !bc ∧ (m.sta t.owner).isNone then (m, 5)
  else match m.twtSlot t with
    | none => (m, 3)
    | some s =>
      let us := s.frames m.act.cycle * 4 * m.beatNs / 1000
      if !twtFits us then (m, 3)
      else
        let f := m.freeVal
        let ns := s.len * (m.beatNs / 256)
        let dur := if ns % 1000 = 0 then ns / 1000 else f.1.toNat % 2 ^ 32
        let wake := ((m.getBase (1 + t.radio)).nsTotal + m.slotNext s) / 1000
        let m1 := f.2.hostWrite (c.arg 16 8) (bytesLE 8 wake ++ bytesLE 4 us ++ bytesLE 4 dur)
        let m2 := m1.wmacMod fun w => { w with twts := t :: w.twts.filter fun u => !(u.agr == t.agr && u.bcast == t.bcast) }
        (m2.twtShow.mirrorState 7 (twtPlace t.agr bc) t.entry, 0)

/-- TWT_UNBIND (R596). -/
def Mach.twtUnbind (m : Mach) (c : Cmd) : Mach × Nat :=
  let bc := c.arg 2 1 % 2 == 1
  let k := c.arg 0 2
  if (if bc then 383 else 4095) < k then (m, 2)
  else if m.wmac.twts.any fun u => u.agr == k && u.bcast == bc then
    (((m.wmacMod fun w => { w with twts := w.twts.filter fun u => !(u.agr == k && u.bcast == bc) }).twtShow).mirrorState 7
      (twtPlace k bc) [], 0)
  else (m, 5)

/-- BCN_TEMPLATE: the template stands from the BSS's next BCN slot on (R318, R596). -/
def Mach.bcnTemplate (m : Mach) (c : Cmd) : Mach × Nat :=
  if 47 < c.arg 0 1 ∨ 2048 < c.arg 4 4 then (m, 2)
  else (m.wmacMod fun w => { w with beacons := tabSet [] w.beacons (c.arg 0 1) (slice 0 c.data 0 (c.arg 4 4)) }, 0)

/-! ### Tables -/

/-- A hash answer's status as a command's (R488, R600): POISON ends REFUSED. -/
def hashStatus (st : Nat) : Nat :=
  match st with
  | 0 => 0
  | 1 => 5
  | 3 => 4
  | _ => 3

/-- TBL_HASH: the hash unit serves it as it serves the engines; words A and B go to the result address (R488, R489, R596). -/
def Mach.tblHash (m : Mach) (c : Cmd) : Mach × Nat :=
  let t := c.arg 0 1
  let op := c.arg 1 1
  let p := c.arg 2 1
  if c.args.length < 64 ∨ 15 < t ∨ op = 0 ∨ 3 < op ∨ 10 < p then (m, 2)
  else if !m.hashOk t ∨ m.tblKeyw t < p then (m, 3)
  else
    let n := if p = 0 then m.tblKeyw t else p
    let key := m.keyPad t ((List.range n).map fun i => c.arg (16 + 4 * i) 4)
    let r := if op = 1 then m.hashFind t key false
      else if op = 2 then m.hashInsert t key (c.arg 8 8 % 2 ^ 60) (c.arg 3 1 % 2 == 1)
      else m.hashDelete t key
    let ws := (r.2.words (spreadOf (keyHash key))).map fun w => bytesLE 8 (payN w)
    (if c.arg 56 8 = 0 then r.1 else r.1.hostWrite (c.arg 56 8) ws.flatten, hashStatus r.2.st)

/-- TBL_WRITE: words of a table in rising address order (R596). -/
def Mach.tblWrite (m : Mach) (c : Cmd) : Mach × Nat :=
  let t := c.arg 0 1
  let off := c.arg 4 4
  let n := c.arg 16 4
  if 15 < t ∨ off % 16 ≠ 0 ∨ n % 16 ≠ 0 ∨ 4096 < n ∨ m.tblKind t = 0 ∨
      ((m.tblKind t = 1 ∨ m.tblKind t = 4) ∧ m.tblBytes t < off + n) then (m, 2)
  else (m.tblPuts t off (codesOf (slice 0 c.data 0 n)), 0)

/-! ### Transmits, the mailbox, generations -/

/-- The PPDU of a TX_IMM: its FORMAT, MCS, streams and BW on the primary's channel of that width, LDPC where the format has it; its power
request is not stated (R596, log 35). -/
def Mach.immForm (m : Mach) (r : Nat) (c : Cmd) : Mach × RfTx :=
  let x := c.arg 0 1
  let f := m.freeVal
  (f.2, ⟨1, BitVec.ofNat 16 (c.arg 6 2), ~~~blockOf (c.arg 19 1) (primAt x (m.radioChan x)) ||| (m.getRadio x).punct, c.arg 19 1,
    c.arg 16 1, .frames, false, (f.1.extractLsb' 0 16 : BitVec 16).toInt, m.tb5, 0, [], false, false, some (r, c.tag), [], []⟩)

/-- Whether R265 lists the PPDU of a TX_IMM, within its chains and the channel in force. -/
def Mach.immOk (m : Mach) (c : Cmd) : Bool :=
  let x := c.arg 0 1
  let f := c.arg 16 1
  let u : TxUser := ⟨none, 0x1FF, toneTop (c.arg 19 1), c.arg 18 1 + 1, c.arg 17 1, decide (2 ≤ f), false, false⟩
  decide (c.arg 19 1 ≤ getFld (m.radioChan x) fRFx_CHAN_BW) && ppduOk x f (c.arg 19 1) 1 [u] &&
    dlOk x (chainList (BitVec.ofNat 16 (c.arg 6 2))).length [u]

/-- TX_IMM (R230, R259, R596, R599): the radio takes or refuses the transmit, and TX_DONE bears its status either way. -/
def Mach.txImm (m : Mach) (r : Nat) (c : Cmd) : Mach × Nat :=
  let x := c.arg 0 1
  if 2 < x ∨ 47 < c.arg 1 1 ∨ c.arg 4 2 = 0 ∨ !m.immOk c then (m, 2)
  else
    let f := m.immForm r c
    let q := f.1.radioTx x f.2
    (Mach.macAfter x q, if q.2.isSome then 3 else 0)

/-- MESH_CMD: none while the channel has no room within the four beats (R596, R600). -/
def Mach.meshCmd (m : Mach) (c : Cmd) : Option (Mach × Nat) :=
  let ch := c.arg 0 1
  let n := c.arg 4 4
  if ch < 248 ∨ 250 < ch ∨ n < 16 ∨ 250 < n then some (m, 2)
  else
    let x := m.getChan ch
    let w := itemWords (slice 0 c.data 0 n)
    if m.chOn ch ∧ x.waiting = [] ∧ x.stored + w.length ≤ m.chCap ch then some (m.chReceive ch w, 0)
    else if c.beat + 4 ≤ m.beat then some (m, 4)
    else none

/-! ### Execution and completion -/

/-- Execute a command: its status, or none while it waits for its buffer, its beat or its channel (R594 to R600). -/
def Mach.cmdExec (m : Mach) (r : Nat) (c : Cmd) : Option (Mach × Nat) :=
  if !cmdOpcodes.contains c.opcode then some (m, 1)
  else if c.indirect && decide (4096 < c.bufLen) then some (m, 2)
  else if c.bad then some (m, 6)
  else if c.unread || (cmdDeferred.contains c.opcode && decide (m.beat ≤ c.beat)) then none
  else if c.opcode = 0x00 then some (m, 0)
  else if c.opcode = 0x10 then some (m.staSet c)
  else if c.opcode = 0x11 then some (m.staDel c)
  else if c.opcode = 0x12 then some (m.baSetCmd c)
  else if c.opcode = 0x18 then some (m.keyInstall c)
  else if c.opcode = 0x19 then some (m.keyDelete c)
  else if c.opcode = 0x20 then some (m.queueSet c)
  else if c.opcode = 0x21 then some (m.shaperSet c)
  else if c.opcode = 0x22 then some (m.policerSet c)
  else if c.opcode = 0x23 then some (m.twtBind c)
  else if c.opcode = 0x24 then some (m.twtUnbind c)
  else if c.opcode = 0x28 then some (m.bcnTemplate c)
  else if c.opcode = 0x30 then some (m.tblHash c)
  else if c.opcode = 0x31 then some (m.tblWrite c)
  else if c.opcode = 0x32 then some (m.wpolSet c)
  else if c.opcode = 0x40 then some (m.txImm r c)
  else if c.opcode = 0x50 then m.meshCmd c
  else if c.opcode = 0x60 then some (m.cfgStage (c.arg 0 4))
  else some (m.cfgCommit (c.arg 0 4) (c.arg 8 6))

/-- Execute the commands of a ring in ring order while the head can run (R595, R639). -/
def Mach.cmdPumpN : Nat → Mach → Nat → Mach
  | 0, m, _ => m
  | k + 1, m, r =>
    match m.cmdsOf r with
    | [] => m
    | c :: l =>
      if m.held (ringKey r) then m
      else match m.cmdExec r c with
        | none => m
        | some (m1, st) => ((m1.setCmds r l).cmdDone r c st).cmdPumpN k r

/-- The commands of a ring go on. -/
def Mach.cmdPump (m : Mach) (r : Nat) : Mach := m.cmdPumpN (m.cmdsOf r).length r

/-- The commands of every ring go on. -/
def Mach.hifPump (m : Mach) : Mach := m.forEach (m.hif.cmds.map fun e => e.1) fun x r => x.cmdPump r

/-- The most commands taken in a beat (R593). -/
def Mach.cmdTotal (m : Mach) : Nat := max 1 (min 256 (m.rd HIF_CMDQUOTA fHIF_CMDQUOTA_TOTAL))

/-- Whether a command ring has an entry that its quota lets HIF take (R582, R593). -/
def Mach.cmdWaits (m : Mach) (r : Nat) : Bool :=
  m.ringOpen r && decide (0 < (m.getRing r).waiting ∧ (m.getRing r).beatTaken < (m.getRing r).quota)

/-- Whether a ring's turn has come: the rings visited before it in this beat have nothing left to take (R593; one visit a ring and beat is
DEDUCED, log 78). -/
def Mach.cmdTurn (m : Mach) (r : Nat) : Bool :=
  (List.range ((r + 64 - m.hif.cmdStart) % 64)).all fun k => !m.cmdWaits ((m.hif.cmdStart + k) % 64)

/-- Whether HIF may take the next command of a ring now: an entry waits and its turn has come, the quotas leave room, and the store
holds room for its completion (R582, R583, R590, R593). -/
def Mach.cmdMay (m : Mach) (r : Nat) : Bool :=
  isCmdRing r && m.cmdWaits r && m.cmdTurn r &&
    decide (((m.hif.rings.filter fun e => isCmdRing e.1).map fun e => e.2.beatTaken).sum < m.cmdTotal) &&
    decide (m.hif.store.length + (m.hif.cmds.map fun e => e.2.length).sum < 1024)

/-- HIF takes a ring's next entry: an INPUT record, and the command joins its ring's order (R584, R593, R673). -/
def Mach.cmdTake (m : Mach) (r : Nat) (e : List Byte) (c : Cmd) : Mach :=
  let x := m.getRing r
  let m1 := (m.ringMod r fun y => { y with taken := (y.taken + 1) % 2 ^ 32, beatTaken := y.beatTaken + 1 }).journal 2 portHIF 0 0
    (r + 256 * (x.taken % 2 ^ 24)) (codesOf (slice 0 e 0 32))
  (m1.setCmds r (m1.cmdsOf r ++ [c])).cmdPump r

/-- A command of the opcode table reaches the head of a ring: HIF takes it when `fits` says the entry is that command. -/
def Mach.cmdArrive (m : Mach) (r : Nat) (e : List Byte) (buf : Option (List Byte)) (data : List Byte) (fits : Cmd → Bool) : Mach :=
  let c := cmdOf e buf data m.beat
  if m.cmdMay r && fits c then m.cmdTake r e c else m

/-- INDIRECT_READ_DONE: the read of the oldest unread buffer of a ring ends; none where it failed (R594, R600). -/
def fillFirst (b : Option (List Byte)) : List Cmd → List Cmd
  | [] => []
  | c :: r => if c.unread then { c with buf := b, bad := b.isNone } :: r else c :: fillFirst b r

/-- The buffer goes to its command, which may now run. -/
def Mach.indirectDone (m : Mach) (r : Nat) (b : Option (List Byte)) : Mach :=
  (m.setCmds r (fillFirst b (m.cmdsOf r))).cmdPump r

end Sys2Proof.Machine
end

