-- ==== Sys2Proof/Machine/FltOps.lean ====
section
/-! DEFINITION. Block FLT: poison notes, block restarts, fatal states, checkpoints (R659, R660, R668, R669, R680 to R685). -/

namespace Sys2Proof.Machine

open Sys2Proof

/-- POISON_NOTE_RECEIVE: FLT takes the oldest note on its way: a record of class 2, the event, the count (R685). -/
def Mach.noteTake (m : Mach) : Mach :=
  match m.flt.notes with
  | [] => m
  | n :: r =>
    let m1 := (m.fltMod fun f => { f with notes := r }).count FLT_POISCNT fFLT_POISCNT_NOTES
    let d := n.place * 2 ^ 20 + n.s1.toNat * 2 ^ 8 + n.s0.toNat
    (m1.faultRecord ⟨2, n.src, 0, 0, 0, 0, 0, d, n.addr⟩).event 0x1502 0 [(1, n.place), (4, n.addr)]

/-! ### Restarts and fatal states (R660, R669) -/

/-- The blocks that restart themselves (R669). -/
def restartBlocks : List Nat :=
  [blkWMAC, blkASCH, blkUPL, blkRTE, blkHIF, blkCHN, blkCHK, blkIDM, blkRFL, blkRFM, blkRFH, blkBBL, blkBBM, blkBBH]

/-- The core blocks, whose illegal state is fatal (R660). -/
def fatalBlocks : List Nat := [blkSYS, blkARM, blkDSP, blkFQ, blkMEM, blkFLT, blkTIM, blkNVM]

/-- The port code of a block (R212). -/
def blkPort (b : Nat) : Nat :=
  if b = blkWMAC then portWMAC else if b = blkASCH then portASCH else if b = blkUPL then portUPL else if b = blkRTE then portRTE
  else if b = blkHIF then portHIF else if b = blkCHN then portCHN else if b = blkFLT then portFLT else if b = blkFQ then portFQ
  else if b = blkMEM then portMEM else if b = blkNVM then portNVM else if b = blkBBL then 0x28 else if b = blkBBM then 0x29
  else if b = blkBBH then 0x2A else 0

/-- A block asks for its restart: it begins at the next beat start (R669). -/
def Mach.blockIllegal (m : Mach) (b : Nat) : Mach :=
  if restartBlocks.contains b && !m.flt.restarting.contains (100 + b) then
    m.fltMod fun f => { f with restarting := f.restarting ++ [100 + b] }
  else m

/-- The beats of pending work without a step after which a block restarts (R669, R688). -/
def Mach.stuckBeats (m : Mach) : Nat := max 1 (m.rd FLT_CTL fFLT_CTL_STUCK_BEATS)

/-- A block has held pending work for `n` beats with no step and no output held by back-pressure (R669). -/
def Mach.blockStuck (m : Mach) (b n : Nat) : Mach := if m.stuckBeats ≤ n then m.blockIllegal b else m

/-- One block restarts: open slots of the radio blocks and of WMAC end HOLD, a baseband's reception goes (R311, R669). What the
journal presents again stands as the block's state in memory and queues (log 37). -/
def Mach.restartOne (m : Mach) (b : Nat) : Mach :=
  let xs := [0, 1, 2].filter fun x => b == blkWMAC || b == 5 + x || b == 8 + x
  let m1 := m.forEach xs fun y x => match (y.getSq x).slot with
    | some s => y.slotEnds x 4 s
    | none => y
  let m2 := m1.forEach ([0, 1, 2].filter fun x => b == 8 + x) fun y x => y.bbMod x fun z => { z with rx := Rx.zero }
  let m3 := (m2.count FLT_RPLCNT fFLT_RPLCNT_RESTARTS).event 0x1504 0 [(1, b)]
  (m3.faultRecord ⟨4, blkPort b, 0, 0, 0, 0, 0, 0, 0⟩).journal 0x0D (blkPort b) 0 0 b []

/-- BLOCK_RESTART at a beat start: the restarts of the beat before have ended, those asked for begin (R669). -/
def Mach.restartBeat (m : Mach) : Mach :=
  let l := (m.flt.restarting.filter fun b => 100 ≤ b).map fun b => b - 100
  if m.flt.restarting = [] then m
  else (m.fltMod fun f => { f with restarting := l }).forEach l fun x b => x.restartOne b

/-- FATAL: an illegal state in a core block stops the unit in Hold (R660). -/
def Mach.fatal (m : Mach) (b : Nat) : Mach :=
  if fatalBlocks.contains b then
    ((m.enterHold.wr FLT_STAT fFLT_STAT_FATAL 1).faultRecord ⟨6, blkPort b, 0, 0, 0, 0, 0, 0, 0⟩).event 0x1506 0 [(1, b)]
  else m

/-! ### Checkpoints (R680 to R683) -/

/-- The first address of a checkpoint slot (R527). -/
def ckAddr (k : Nat) : Nat := 0xC00000 + 0xC0000 * k

/-- The wrapped number of a key's mark in a checkpoint (R682). -/
def Mach.ckMark (m : Mach) (e : KeyE) : Nat := e.pn + 2 ^ m.pnWindow

/-- The key entries in use. -/
def Mach.keysUsed (m : Mach) : List (Nat × KeyE) := m.wmac.keys.filter fun e => e.2.used

/-- The sections of the device's state but for the keys' bytes, which `keys` gives: TYPE, ITEMS, content (R681). -/
def Mach.stateSections (m : Mach) (keys : List Byte) : List (Nat × Nat × List Byte) :=
  let stas := m.wmac.stas.filterMap fun e => e.2.map Sta.entry
  let tx := m.wmac.baTx.filterMap fun e => e.2.map fun b => baEntry e.1 false b.size b.start
  let rx := m.wmac.baRx.filterMap fun e => e.2.map fun b => baEntry e.1 true b.size b.start
  let twt (i : Nat) : List Byte := match m.wmac.twts.find? fun t => twtPlace t.agr t.bcast == i with
    | some t => t.entry
    | none => List.replicate 12 0
  let img := m.image
  [(1, 1, img), (2, stas.length, stas.flatten), (3, m.keysUsed.length, keys), (4, tx.length + rx.length, (tx ++ rx).flatten),
   (5, 16448, ((List.range 16448).map fun q => (m.queue q).attr.entry).flatten),
   (6, 12288, ((List.range 4096).map fun i => (m.shaper i).entry).flatten ++ ((List.range 4096).map fun i => (m.policer i).entry).flatten ++
      ((List.range 4096).map fun i => (m.wpol i).entry).flatten),
   (7, 4480, ((List.range 4480).map twt).flatten),
   (8, 1, bytesLE 2 m.mlink.live.length ++ m.mlink.live ++ bytesLE 2 m.mlink.nodes.length ++
      (m.mlink.nodes.map fun e => bytesLE 2 e.1).flatten ++ ((List.range 8).map fun c => bytesLE 2 (tabGet 0 m.mlink.mseq (248 + c))).flatten)]

/-- Bytes filled with zeros to a multiple of 16. -/
def pad16 (l : List Byte) : List Byte := l ++ List.replicate ((16 - l.length % 16) % 16) 0

/-- Directory entries and section bytes from an offset up (R52, R681). -/
def ckLay : Nat → List (Nat × Nat × List Byte) → List Byte × List Byte
  | _, [] => ([], [])
  | off, (t, n, l) :: r =>
    let s := ckLay (off + (pad16 l).length) r
    (bytesLE 2 t ++ bytesLE 2 0 ++ bytesLE 4 off ++ bytesLE 4 l.length ++ bytesLE 4 n ++ s.1, pad16 l ++ s.2)

/-- The nonce of a checkpoint's KEYS section (R681). -/
def ckNonce (seq slot : Nat) : List Byte := bytesLE 8 seq ++ bytesLE 1 slot ++ bytesLE 3 0

/-- The bytes of a checkpoint without its seal (R681). -/
def Mach.ckBytes (m : Mach) (slot seq : Nat) : List Byte :=
  let plain := (m.keysUsed.map fun e => e.2.entry e.1 (m.ckMark e.2)).flatten
  let keys := ckNonce seq slot ++ bytesLE 4 0 ++ gcmSeal Config.deviceKey (ckNonce seq slot) plain
  let lay := ckLay 192 (m.stateSections keys)
  bytesLE 4 0x4B434A46 ++ bytesLE 2 1 ++ bytesLE 1 slot ++ bytesLE 1 0 ++ bytesLE 8 seq ++ bytesLE 8 m.beat ++
    bytesLE 8 (m.getBase 0).s.toNat ++ bytesLE 4 (m.reg CHN_CFGGEN).toNat ++ bytesLE 2 8 ++ bytesLE 2 0 ++
    bytesLE 8 (m.reg64 ARM_ACTID_LO ARM_ACTID_HI) ++ bytesLE 8 m.uid ++ bytesLE 8 0 ++ lay.1 ++ lay.2

/-- A section of a checkpoint: its bytes, empty where the directory has none. -/
def ckSection (l : List Byte) (t : Nat) : List Byte :=
  match (List.range 8).find? fun i => numLE (slice 0 l (64 + 16 * i) 2) == t with
  | some i => slice 0 l (numLE (slice 0 l (64 + 16 * i + 4) 4)) (numLE (slice 0 l (64 + 16 * i + 8) 4))
  | none => []

/-- The end of a checkpoint's sections, by its directory. -/
def ckEnd (l : List Byte) : Nat :=
  (List.range 8).foldl (fun a i => max a ((numLE (slice 0 l (64 + 16 * i + 4) 4) + numLE (slice 0 l (64 + 16 * i + 8) 4) + 15) / 16 * 16)) 192

/-- A slot's checkpoint: none unless its MAGIC and seal hold (R683). -/
def Mach.ckRead (m : Mach) (k : Nat) : Mach × Option (List Byte) :=
  let h := m.nvBytes (ckAddr k) 192
  let n := ckEnd h.2
  if numLE (slice 0 h.2 0 4) ≠ 0x4B434A46 ∨ 0xC0000 < n + 16 then (h.1, none)
  else
    let r := h.1.nvBytes (ckAddr k) (n + 16)
    (r.1, if r.2.drop n = sealBlock (r.2.take n) then some (r.2.take n) else none)

/-- The newest of the valid checkpoints of the four slots: slot, CKSEQ, bytes (R680, R683); `own` admits this unit's alone. -/
def Mach.ckNewest (own : Bool) : List Nat → Mach → Mach × Option (Nat × Nat × List Byte)
  | [], m => (m, none)
  | k :: r, m =>
    let x := m.ckRead k
    let y := Mach.ckNewest own r x.1
    match x.2 with
    | none => y
    | some l =>
      let seq := numLE (slice 0 l 8 8)
      if own && numLE (slice 0 l 0x30 8) != m.uid then y
      else match y.2 with
        | some o => if o.2.1 ≤ seq then (y.1, some (k, seq, l)) else y
        | none => (y.1, some (k, seq, l))

/-- The seconds between captures (R680, R688). -/
def Mach.ckPeriod (m : Mach) : Nat := max 60 (min 3600 (m.rd FLT_CKCTL fFLT_CKCTL_PERIOD_S))

/-- A write that has not finished is abandoned (R680). -/
def Mach.ckAbandon (m : Mach) : Mach :=
  match m.flt.ckpt with
  | some c => (((m.fltMod fun f => { f with ckpt := none }).count FLT_CKSTAT fFLT_CKSTAT_FAILS).wr FLT_CKSTAT fFLT_CKSTAT_STATUS 3).event 0x1508
      0 [(1, c.slot)]
  | none => m

/-- A beat start: a capture is due at the first one at which TB0 seconds have reached a multiple of PERIOD_S (R680). `first`: beats
begin here. -/
def Mach.ckBeat (m : Mach) (first : Bool) : Mach :=
  let s := (m.getBase 0).s.toNat
  let p := m.ckPeriod
  let hit := if first then s % p == 0 else decide (m.flt.beatSec / p < s / p)
  m.fltMod fun f => { f with beatSec := s, ckDue := f.ckDue || (m.bit FLT_CKCTL fFLT_CKCTL_EN && hit) }

/-- CHECKPOINT_CAPTURE, due since a beat start (R680). -/
def Mach.ckCapture (m : Mach) : Mach :=
  if !m.bit FLT_CKCTL fFLT_CKCTL_EN ∨ !m.flt.ckDue then m
  else
    let m1 := m.ckAbandon
    let n := Mach.ckNewest false [0, 1, 2, 3] m1
    let slot := match n.2 with | some x => (x.1 + 1) % 4 | none => 0
    let seq := match n.2 with | some x => x.2.1 + 1 | none => 1
    let marks := n.1.keysUsed.map fun e => (e.1, e.2.gen, n.1.ckMark e.2)
    (n.1.fltMod fun f => { f with ckDue := false, ckpt := some ⟨slot, seq, n.1.ckBytes slot seq, marks⟩ }).wr FLT_CKSTAT fFLT_CKSTAT_STATUS 1

/-- CHECKPOINT_DONE: the write ends with its seal, and the marks it holds bound the keys (R680, R682). -/
def Mach.ckDone (m : Mach) : Mach :=
  match m.flt.ckpt with
  | none => m
  | some c =>
    let m1 := (m.fltMod fun f => { f with ckpt := none }).nvmBytes (ckAddr c.slot) (codesOf (c.bytes ++ sealBlock c.bytes))
    let m2 := ((m1.setReg64 FLT_CKSEQ_LO FLT_CKSEQ_HI c.seq).wr FLT_CKSTAT fFLT_CKSTAT_STATUS 2).wr FLT_CKSTAT fFLT_CKSTAT_SLOT c.slot
    let m3 := m2.forEach c.marks fun x k =>
      let e := x.keyE k.1
      if e.used && e.gen == k.2.1 then x.setKeyE k.1 { e with limit := some k.2.2 } else x
    m3.event 0x1507 0 [(1, c.slot), (4, c.seq)]

/-- Cut bytes into entries of `n`. -/
def entriesOf (n : Nat) : Nat → List Byte → List (List Byte)
  | 0, _ => []
  | k + 1, l => if l.length < n ∨ n = 0 then [] else l.take n :: entriesOf n k (l.drop n)

/-- One entry of a configuration image restored: the RWS fields, and the RWL fields of an unlocked device (R650, R683). -/
def Mach.imagePut (m : Mach) (e : List Byte) : Mach :=
  let a := numLE (slice 0 e 0 4)
  let v := BitVec.ofNat 32 (numLE (slice 0 e 4 4))
  match regRow a with
  | some r => if imageRegs.contains a then
      m.setReg a (mergeMask (m.reg a) v (r.rws ||| if m.locked then 0 else r.rwl)) else m
  | none => m

/-- State sections put in: stations, keys, agreements, queues, policies, bindings (R648, R683). `keys` holds the key entries. -/
def Mach.sectionsPut (m : Mach) (l keys : List Byte) (guard : Bool) : Mach :=
  let es (t n : Nat) : List (List Byte) := let s := ckSection l t; entriesOf n (s.length + 1) s
  let m1 := m.forEach (es 2 48) fun x e => x.staPut e
  let m2 := m1.forEach (entriesOf 48 (keys.length + 1) keys) fun x e => x.keyPut e guard
  let m3 := m2.forEach (es 4 4) fun x e => x.baPut e
  let m4 := m3.forEach ((es 5 8).zip (List.range 16448)) fun x e => x.setQueue e.2 { x.queue e.2 with attr := QAttr.ofEntry e.1 }
  let m5 := m4.forEach ((es 6 8).zip (List.range 12288)) fun x e =>
    let s := Shaper.ofEntry e.1
    if s = Shaper.ofEntry Shaper.zero.entry then x
    else if e.2 < 4096 then x.setShaper e.2 s else if e.2 < 8192 then x.setPolicer (e.2 - 4096) s else x.setWpol (e.2 - 8192) s
  let tw := ((es 7 12).zip (List.range 4480)).filterMap fun e => Twt.ofEntry e.2 e.1
  (m5.wmacMod fun w => { w with twts := if tw = [] then w.twts else tw }).twtShow

/-- CHECKPOINT_RESTORE: the newest valid checkpoint of this unit is loaded, before any armature has run; a STANDBY ignores it
(R683). -/
def Mach.ckRestore (m : Mach) : Mach :=
  if !m.bit FLT_CKCTL fFLT_CKCTL_RESTORE then m
  else
    let m0 := m.wr FLT_CKCTL fFLT_CKCTL_RESTORE 0
    if m.arm.ran ∨ m.role = 4 then m0
    else
      let n := Mach.ckNewest true [0, 1, 2, 3] m0
      match n.2 with
      | none => n.1.wr FLT_CKSTAT fFLT_CKSTAT_STATUS 5
      | some (k, seq, l) =>
        let sec := ckSection l 3
        let keys := (gcmOpen Config.deviceKey (sec.take 12) (sec.drop 16)).getD []
        let img := ckSection l 1
        let m1 := n.1.forEach (entriesOf 8 imageRegs.length img) fun x e => x.imagePut e
        let m2 := m1.sectionsPut l keys (m.bit FLT_CKCTL fFLT_CKCTL_RX_GUARD)
        let m3 := m2.forEach m2.keysUsed fun x e => x.setKeyE e.1 { e.2 with limit := some e.2.pn }
        let m4 := (((m3.setReg64 FLT_CKSEQ_LO FLT_CKSEQ_HI seq).wr FLT_CKSTAT fFLT_CKSTAT_STATUS 4).wr FLT_CKSTAT fFLT_CKSTAT_SLOT k)
        m4.event 0x150A 0 [(1, k), (4, seq)]

end Sys2Proof.Machine
end

