-- ==== Sys2Proof/Machine/CampOps.lean ====
section
/-! DEFINITION. Block CHN: the camp bus, pegging, generations heard, the fence and its test, and the roles of a pair (R611 to R622,
R629 to R634, R641, R647, R653, R654). -/

namespace Sys2Proof.Machine

open Sys2Proof

/-! ### The transmitter (R612, R614) -/

/-- A camp frame with a bad CRC is dropped and counted (R614). -/
def Mach.campDrop (m : Mach) (l : List Byte) : Mach := if campBad l then m.count CHN_CAMPCNT fCHN_CAMPCNT_CRC_ERR else m

/-- CAMP_COLLISION: the frame of a SEQ meets another; it backs off by a multiple of 5.12 µs, or is dropped at its 16th attempt (R612). -/
def Mach.campCollision (m : Mach) (seq : Nat) : Mach :=
  match tabGet none m.chn.camp seq with
  | none => m
  | some f =>
    if f.wait.isSome then m
    else
      let n := f.tries + 1
      let d := m.drawBelow (2 ^ min n 10)
      let m1 := d.2.count CHN_CAMPCNT fCHN_CAMPCNT_COLLISIONS
      if 16 ≤ n then
        (m1.chnMod fun c => { c with camp := tabSet none c.camp seq none }).count CHN_CAMPCNT fCHN_CAMPCNT_DROPPED
      else m1.chnMod fun c => { c with camp := tabSet none c.camp seq (some { f with tries := n, wait := some (m1.tim.run + 2048 * d.1) }) }

/-- Time passes until the main domain has run for a number of steps of 2.5 ns. -/
def Mach.reachRun (m : Mach) (n : Nat) : Mach := m.elapse (n - m.tim.run)

/-- The end of the 1 ms wait after a PEG that goes out now, which takes 5.76 µs on a free line (R612, R618). -/
def Mach.pegWait (m : Mach) : Nat := m.tim.run + 2304 + 400000

/-- CAMP_BACKOFF_END: the frame is tried again; a PEG for the candidate begins its wait anew (R612, R618). -/
def Mach.campRetry (m : Mach) (seq : Nat) : Mach :=
  match tabGet none m.chn.camp seq with
  | some f =>
    match f.wait with
    | none => m
    | some t =>
      let m1 := m.reachRun t
      m1.chnMod fun c => { c with
        camp := tabSet none c.camp seq (some { f with wait := none })
        pegEnds := if f.bytes.getD 2 0 = 1 ∧ c.cand = some (f.bytes.getD 14 0).toNat then m1.pegWait else c.pegEnds }
  | none => m

/-! ### Pegging (R617 to R622) -/

/-- The address a unit tries next: WANT while it is free, else the lowest free one (R618). -/
def Mach.pegCandidate (m : Mach) : Option Nat :=
  let want := m.rd CHN_PEGCTL fCHN_PEGCTL_WANT
  if 1 ≤ want ∧ want ≤ 16 ∧ !m.chn.taken.contains want then some want
  else ((List.range 16).map fun i => i + 1).find? fun a => !m.chn.taken.contains a

/-- Peg: claim the next candidate, or fail when all are taken (R618). -/
def Mach.peg (m : Mach) : Mach :=
  match m.pegCandidate with
  | some a => (m.chnMod fun c => { c with cand := some a, pegEnds := m.pegWait }).campSend 31 1 (bytesLE 8 m.uid ++ bytesLE 1 a)
  | none =>
    let m1 := ((m.chnMod fun c => { c with cand := none, enumOut := true }).wr CHN_STAT fCHN_STAT_PEG_FAIL 1).event 0x1402 0 []
    if m.chn.forced then (m1.chnMod fun c => { c with forced := false }).event 0x1411 0 [(1, 0)] else m1

/-- Mark an address taken. -/
def Mach.pegTaken (m : Mach) (a : Nat) : Mach :=
  m.chnMod fun c => { c with taken := if c.taken.contains a then c.taken else c.taken ++ [a] }

/-- Whether a unit without an address may begin to peg: start-up has reached step 7, or does not run (R617, R618, R707). -/
def Mach.mayPeg (m : Mach) : Bool :=
  let s := m.rd SYS_BOOTSTAT fSYS_BOOTSTAT_STEP
  m.campAddr == 0 && m.chn.cand.isNone && !m.bit CHN_STAT fCHN_STAT_PEG_FAIL && (s == 0 || decide (7 ≤ s))

/-- Start-up's step 7 begins: a unit whose ENUM_IN is high pegs at once (R617, R618, R621). -/
def Mach.pegStart (m : Mach) : Mach :=
  let m1 := m.chnMod fun c => { c with pegStep := m.tim.run }
  if m.mayPeg ∧ m.chn.enumIn then m1.peg else m1

/-- ENUM_IN_RISE: an unaddressed unit starts pegging (R618, R622). -/
def Mach.enumRise (m : Mach) : Mach :=
  let m1 := m.chnMod fun c => { c with enumIn := true }
  if m.mayPeg ∧ !m.chn.enumIn then m1.peg else m1

/-- ENUM_TO in steps of 2.5 ns (R622, R658). -/
def Mach.enumTo (m : Mach) : Nat :=
  let t := m.rd CHN_PEGCTL fCHN_PEGCTL_ENUM_TO
  4000000 * if t = 0 then 20 else t

/-- ENUM_TIMEOUT: ENUM_IN is still low ENUM_TO after step 7 began, and the unit pegs anyway (R622). -/
def Mach.enumTimeout (m : Mach) : Mach :=
  if m.mayPeg ∧ !m.chn.enumIn then ((m.reachRun (m.chn.pegStep + m.enumTo)).chnMod fun c => { c with forced := true }).peg else m

/-- Whether start-up failed in a way that keeps the unit out of negotiation (R717). -/
def Mach.bootBad (m : Mach) : Bool :=
  m.bit SYS_BOOTSTAT fSYS_BOOTSTAT_BOOT_FAIL || m.bit SYS_BOOTSTAT fSYS_BOOTSTAT_FB_BAD || m.bit MEM_STAT fMEM_STAT_TRAIN_FAIL

/-- CHN_GUYp_STAT.PAIR: the peer that the port's last HELLO named is the partner (R629, R658). -/
def Mach.pairShow (m : Mach) (p : Nat) : Mach :=
  let a := m.rd (CHN_GUYp_STAT p) fCHN_GUYp_STAT_PEER_ADDR
  m.wr (CHN_GUYp_STAT p) fCHN_GUYp_STAT_PAIR
    (if m.bit CHN_PAIRCFG fCHN_PAIRCFG_EN ∧ a ≠ 0 ∧ a = m.rd CHN_PAIRCFG fCHN_PAIRCFG_PARTNER then 1 else 0)

/-- A unit in a pair negotiates from start-up's step 8 on, unless start-up failed; out of a pair it has no role (R629, R630,
R717). -/
def Mach.pairCheck (m : Mach) : Mach :=
  let s := m.rd SYS_BOOTSTAT fSYS_BOOTSTAT_STEP
  if m.bit CHN_PAIRCFG fCHN_PAIRCFG_EN then if m.role = 0 ∧ !m.bootBad ∧ (s = 0 ∨ 8 ≤ s) then m.setRole 1 else m
  else if m.role = 6 then m else m.setRole 0

/-- PEG_WAIT_END: 1 ms after the PEG's end the unit holds its candidate (R618, R622). -/
def Mach.pegEnd (m : Mach) : Mach :=
  match m.chn.cand with
  | none => m
  | some a =>
    let m1 := (((m.reachRun m.chn.pegEnds).wr CHN_STAT fCHN_STAT_ADDR a).chnMod fun c => { c with cand := none, enumOut := true, forced := false }).event 0x1401 0 [(1, a)]
    if m.chn.forced then m1.event 0x1411 0 [(1, a)] else m1

/-- PEG_RECEIVE (R618, R619). -/
def Mach.pegReceive (m : Mach) (l : List Byte) : Mach :=
  match m.campTake l with
  | some (_, 1, p) =>
    let u := numLE (slice 0 p 0 8)
    let a := numLE (slice 0 p 8 1)
    if m.campAddr ≠ 0 ∧ a = m.campAddr ∧ u ≠ m.uid then m.campSend 31 2 (bytesLE 8 u ++ bytesLE 1 a)
    else if m.chn.cand = some a ∧ u < m.uid then (m.pegTaken a).peg
    else m
  | _ => m

/-- PEG_NAK_RECEIVE (R618, R620): during the wait the candidate is taken; later the unit gives its address up and pegs again. -/
def Mach.pegNak (m : Mach) (l : List Byte) : Mach :=
  match m.campTake l with
  | some (_, 2, p) =>
    let a := numLE (slice 0 p 8 1)
    if m.chn.cand = some a then (m.pegTaken a).peg
    else if m.campAddr ≠ 0 ∧ a = m.campAddr then (((m.wr CHN_STAT fCHN_STAT_ADDR 0).event 0x1403 0 [(1, a)]).pegTaken a).peg
    else m
  | _ => m

/-! ### Generations (R615, R616, R653, R654) -/

/-- The flags of a GEN frame. -/
def Mach.genFlags (m : Mach) : Nat :=
  m.rd CHN_CFGSTAT fCHN_CFGSTAT_STAGING + 2 * m.rd CHN_CFGSTAT fCHN_CFGSTAT_SEAL_PENDING + 4 * m.rd CHN_CFGSTAT fCHN_CFGSTAT_MISMATCH

/-- Whether the unit stands still under R660. -/
def Mach.isFatal (m : Mach) : Bool := m.bit FLT_STAT fFLT_STAT_FATAL

/-- GEN_SEND: at its staggered instant an addressed unit whose plinth runs publishes its generation (R616). -/
def Mach.genSend (m : Mach) : Mach :=
  if m.campAddr = 0 ∨ !m.bit ARM_PLINTH fARM_PLINTH_RUN ∨ m.isFatal then m
  else
    let start := m.tim.beatTime.toNat - m.beat % 4 * m.beatNs
    (m.reach (if m.tim.started then start + (m.campAddr - 1) * (4 * m.beatNs) / 16 else 0)).campSend 31 3
      (bytesLE 4 (m.reg CHN_CFGGEN).toNat ++ bytesLE 8 (m.reg64 CHN_SEAL_LO CHN_SEAL_HI) ++ bytesLE 4 (m.reg CHN_STGGEN).toNat ++
        bytesLE 1 m.genFlags ++ bytesLE 1 m.role ++ bytesLE 1 (m.rd CHN_CFGSTAT fCHN_CFGSTAT_SEALGRP) ++ bytesLE 4 (m.frame % 2 ^ 32))

/-- A mismatch with another unit at its generation (R653, R654). -/
def Mach.cfgMismatch (m : Mach) (src g : Nat) : Mach :=
  (m.wr CHN_CFGSTAT fCHN_CFGSTAT_MISMATCH 1).event 0x1410 0 [(1, src), (4, g)]

/-- GEN_RECEIVE (R619, R654). -/
def Mach.genReceive (m : Mach) (l : List Byte) : Mach :=
  match m.campTake l with
  | some (src, 3, p) =>
    let b (i k : Nat) : Nat := numLE (slice 0 p i k)
    let q : Peer := ⟨b 0 4, b 4 8, b 12 4, b 16 1, b 17 1, b 18 1⟩
    let m1 := m.chnMod fun c => { c with peers := tabSet none c.peers src (some q) }
    let m2 := if m.campAddr ≠ 0 ∧ src = m.campAddr then m1.event 0x1403 0 [(1, src)] else m1
    let own := (m.reg CHN_CFGGEN).toNat
    let after := m.chn.announced.any fun e => decide (e.2 + 8 ≤ m.beat)
    if q.grp ≠ m.rd CHN_CFGSTAT fCHN_CFGSTAT_SEALGRP then m2
    else if q.gen = own then
      if q.sl ≠ m.reg64 CHN_SEAL_LO CHN_SEAL_HI ∧ q.flags / 2 % 2 = 0 ∧ !m.bit CHN_CFGSTAT fCHN_CFGSTAT_SEAL_PENDING then m2.cfgMismatch src q.gen
      else m2
    else if after then m2.cfgMismatch src q.gen
    else m2
  | _ => m

/-- CAMP_COMMIT_RECEIVE (R653, R655): a staged generation commits at the named beat, or at the next beat start where that has
passed. -/
def Mach.campCommit (m : Mach) (l : List Byte) : Mach :=
  match m.campTake l with
  | some (src, 4, p) =>
    let g := numLE (slice 0 p 0 4)
    let b := numLE (slice 0 p 4 6)
    let m1 := m.chnMod fun c => { c with announced := some (g, b) }
    if m.staged ∧ (m.reg CHN_STGGEN).toNat = g then
      let m2 := m1.chnMod fun c => { c with commit := some (g, b) }
      if b ≤ m.beat then (m2.wr CHN_CFGSTAT fCHN_CFGSTAT_LATE 1).cfgMismatch src g else m2
    else m1.cfgMismatch src g
  | _ => m

/-! ### The fence (R221, R632, R633, R647) -/

/-- TB0 in ns. -/
def Mach.now (m : Mach) : Nat := (m.getBase 0).nsTotal

/-- The partner's camp address. -/
def Mach.partnerAddr (m : Mach) : Nat := m.rd CHN_PAIRCFG fCHN_PAIRCFG_PARTNER

/-- Whether the unit is in a pair. -/
def Mach.paired (m : Mach) : Bool := m.bit CHN_PAIRCFG fCHN_PAIRCFG_EN

/-- Every PPDU on the air is cut (R221). -/
def Mach.airCut (m : Mach) : Mach := m.forEach [0, 1, 2] fun x r => Mach.afterRadio r (x.radioFence r)

/-- The unit becomes FENCED: event, Hold, and with FENCE_PORTS the uplink transmitters off (R632). -/
def Mach.fenced (m : Mach) : Mach :=
  let m1 := (m.setRole 6).airCut.event 0x140D 0 []
  let m2 := m1.enterHold
  if m.bit CHN_PAIRCFG fCHN_PAIRCFG_FENCE_PORTS then
    m2.chnMod fun c => { c with portsOff := true }
  else m2

/-- Whether an instant lies in the test window the unit named (R633). -/
def Mach.inWindow (m : Mach) : Bool := m.chn.window.any fun w => decide (w ≤ m.now ∧ m.now ≤ w + 10000)

/-- PAIR_FENCE_RISE (R221, R632, R740). -/
def Mach.fenceRise (m : Mach) : Mach :=
  let m1 := (m.sysMod fun s => { s with fencePin := true }).wr CHN_STAT fCHN_STAT_PAIR_FENCE 1
  let m2 := m1.airCut
  if m.inWindow then m2.chnMod fun c => { c with tested := true }
  else if m.role = 2 ∨ m.role = 3 then m2.fenced
  else m2

/-- PAIR_FENCE_FALL: the pad ring releases the transmit enables; a line that was high in a test window has been seen (R633, R740). -/
def Mach.fenceFall (m : Mach) : Mach :=
  let seen := m.sys.fencePin && m.inWindow
  ((m.sysMod fun s => { s with fencePin := false }).wr CHN_STAT fCHN_STAT_PAIR_FENCE 0).chnMod fun c => { c with tested := c.tested || seen }

/-- The active names an instant 2 ms ahead for a fence test (R633). -/
def Mach.fenceTest (m : Mach) : Mach :=
  let t := m.now + 2000000
  ((m.chnMod fun c => { c with window := some t, tested := false }).wr CHN_PAIRCTL fCHN_PAIRCTL_FTEST 1).campSend m.partnerAddr 8
    (bytesLE 4 (t / 1000000000 % 2 ^ 32) ++ bytesLE 4 (t % 1000000000))

/-- CHN_PAIRCTL.FTEST (R633): on the active alone. -/
def Mach.ftest (m : Mach) : Mach := if m.role = 2 then m.fenceTest else m

/-- FENCE_WINDOW_END: the active answers FENCE_SEEN; a line still high is acted on (R632, R633). -/
def Mach.windowEnd (m : Mach) : Mach :=
  match m.chn.window with
  | none => m
  | some w =>
    let m0 := m.reach (w + 10000)
    let ok := if m.chn.tested || m.sys.fencePin then 1 else 0
    let m1 := ((m0.chnMod fun c => { c with window := none, tested := false }).wr CHN_PAIRCTL fCHN_PAIRCTL_FTEST 0).wr CHN_PAIRSTAT
      fCHN_PAIRSTAT_FTEST_OK ok
    let m2 := m1.campSend m.partnerAddr 9 (bytesLE 1 ok)
    if m.sys.fencePin ∧ (m.role = 2 ∨ m.role = 3) then m2.fenced else m2

/-- FENCE_TEST_RECEIVE: a standby takes the named instant (R633). -/
def Mach.fenceTestReceive (m : Mach) (l : List Byte) : Mach :=
  match m.campTake l with
  | some (_, 8, p) =>
    let s := m.now / 1000000000 / 2 ^ 32 * 2 ^ 32 + numLE (slice 0 p 0 4)
    if m.role = 4 then m.chnMod fun c => { c with pulse := some (s * 1000000000 + numLE (slice 0 p 4 4)) } else m
  | _ => m

/-- FENCE_PULSE: at the named instant the standby drives FENCE_DRV high (R633). -/
def Mach.fencePulse (m : Mach) : Mach :=
  match m.chn.pulse with
  | some t => if m.role = 4 then (m.reach t).wr CHN_STAT fCHN_STAT_FENCE_DRV 1 else m
  | none => m

/-- FENCE_PULSE_END: 2 µs later it lowers it (R633). -/
def Mach.fencePulseEnd (m : Mach) : Mach :=
  match m.chn.pulse with
  | some t => if m.role = 4 then ((m.reach (t + 2000)).chnMod fun c => { c with pulse := none }).wr CHN_STAT fCHN_STAT_FENCE_DRV 0 else m
  | none => m

/-- The result of a fence test at the standby (R633, R640). -/
def Mach.fenceResult (m : Mach) (ok : Bool) : Mach :=
  (m.chnMod fun c => { c with fenceBar := !ok }).wr CHN_PAIRSTAT fCHN_PAIRSTAT_FTEST_OK (if ok then 1 else 0)

/-- FENCE_SEEN_RECEIVE (R633). -/
def Mach.fenceSeen (m : Mach) (l : List Byte) : Mach :=
  match m.campTake l with
  | some (_, 9, p) => if m.role = 4 then m.fenceResult (p.getD 0 0 == 1) else m
  | _ => m

/-- FENCE_SEEN_TIMEOUT (R633). -/
def Mach.fenceTimeout (m : Mach) : Mach := if m.role = 4 then m.fenceResult false else m

/-- CHN_PAIRCTL.UNFENCE (R647). -/
def Mach.unfence (m : Mach) : Mach := m.wr CHN_STAT fCHN_STAT_FENCE_DRV 0

/-! ### Queries (R641) -/

/-- PAIR_QUERY_RECEIVE: answered with PAIR_ALIVE (R615, R641). -/
def Mach.pairQuery (m : Mach) (l : List Byte) : Mach :=
  match m.campTake l with
  | some (src, 5, _) =>
    if m.isFatal then m
    else
      let ports := (if m.bit (CHN_GUYp_STAT 0) fCHN_GUYp_STAT_UP then 1 else 0) + if m.bit (CHN_GUYp_STAT 1) fCHN_GUYp_STAT_UP then 2 else 0
      m.campSend src 6 (bytesLE 6 m.beat ++ bytesLE 1 m.role ++ bytesLE 1 ports ++ bytesLE 1 (m.rd CHN_STAT fCHN_STAT_PAIR_FENCE))
  | _ => m

/-- PAIR_ALIVE_RECEIVE: before the deadline it abandons the takeover; later it counts as late (R641). -/
def Mach.pairAlive (m : Mach) (l : List Byte) : Mach :=
  match m.campTake l with
  | some (src, 6, p) =>
    if src ≠ m.partnerAddr then m
    else if m.chn.query.isSome then
      (m.chnMod fun c => { c with query := none, lagBar := true }).event 0x140B 0
        [(1, numLE (slice 0 p 6 1)), (1, numLE (slice 0 p 7 1)), (1, numLE (slice 0 p 8 1))]
    else if m.role = 5 then m.count CHN_TOKCNT fCHN_TOKCNT_LATE
    else m
  | _ => m

end Sys2Proof.Machine
end

