-- ==== Sys2Proof/Machine/GuyOps.lean ====
section
/-! DEFINITION. Block CHN: the guy-line frames, the mirror at the standby, snapshots and configuration frames (R623 to R628, R634 to
R640, R648, R672 to R677). -/

namespace Sys2Proof.Machine

open Sys2Proof

/-! ### Frames (R624, R626) -/

/-- Decode code words under the common code; none where one is uncorrectable. A word with stored poison is delivered as it is
(R626). -/
def decodeAll : List Code → Option (List Code)
  | [] => some []
  | w :: r =>
    match classify w, decodeAll r with
    | .clean, some l => some (w :: l)
    | .storedPoison, some l => some (w :: l)
    | .corrected v, some l => some (v :: l)
    | _, _ => none

/-- A received guy-line frame (R624). -/
structure GuyIn where
  type : Nat
  enc : Bool
  final : Bool
  seq : Nat
  ack : Nat
  arg : Nat
  payload : List Code
  deriving DecidableEq, Repr

/-- A frame from its code words, header to trailer; none where a word is uncorrectable or the CRC-32C fails (R624, R626). -/
def guyFrameOf (l : List Code) : Option GuyIn :=
  match decodeAll l with
  | none => none
  | some w =>
    let h := (codeData (w.headD 0)).toNat
    let n := h / 2 ^ 89 % 128
    let body := w.take (n + 1)
    let crc := match crcPoly 1 with
      | some p => crcOf p ((body.map fun x => datumBytes (codeData x)).flatten)
      | none => 0
    if 64 < n ∨ w.length ≠ n + 2 ∨ (codeData (w.getD (n + 1) 0)).toNat % 2 ^ 32 ≠ crc then none
    else some ⟨h / 2 ^ 124, h.testBit 123, h.testBit 122, h / 2 ^ 108 % 4096, h / 2 ^ 96 % 4096, h % 2 ^ 89, body.drop 1⟩

/-- The bytes of code words. -/
def codeBytes (l : List Code) : List Byte := (l.map fun w => datumBytes (codeData w)).flatten

/-- A port's frames up to SEQ `a` are acknowledged: progress ends a row of failures, waiting frames take their place (R626). -/
def Mach.guyAck (m : Mach) (p a : Nat) : Mach :=
  let g := m.getGuy p
  let k := match g.unacked.findIdx? fun f => f.1 == a with | some i => i + 1 | none => 0
  if k = 0 then m
  else
    let g1 : Guy := Guy.pump k { g with unacked := g.unacked.drop k, fails := 0, since := m.tim.run }
    (m.guyMod p fun _ => g1).chnMod fun c => { c with ackN := c.ackN + k }

/-- A header's ACKSEQ for a port. -/
def Mach.guyAckSeq (m : Mach) (p : Nat) : Nat := ((m.getGuy p).rx + 4095) % 4096

/-- Send an ACK or a NACK (R625, R626). -/
def Mach.guyAnswer (m : Mach) (p : Nat) (ok : Bool) : Mach :=
  if ok then m.guySend p ⟨0, false, false, 0, []⟩
  else (m.guySend p ⟨1, false, false, (m.getGuy p).rx, []⟩).count (CHN_GUYp_CNT p) fCHN_GUYp_CNT_NACKS

/-- A frame reaches a port that is up: an unsequenced one of the type, or a sequenced one in order, goes to `act`; a repeat is
discarded, anything else of a sequenced type draws a NACK (R626). -/
def Mach.guyTake (m : Mach) (p type : Nat) (l : List Code) (act : Mach → GuyIn → Mach) : Mach :=
  if 1 < p ∨ !m.bit (CHN_GUYp_STAT p) fCHN_GUYp_STAT_UP then m
  else match guyFrameOf l with
    | none => if sequenced type then m.guyAnswer p false else m
    | some f =>
      if f.type ≠ type then m
      else
        let m1 := m.guyAck p f.ack
        if !sequenced type then act m1 f
        else
          let d := (f.seq + 4096 - (m1.getGuy p).rx) % 4096
          if d = 0 then act ((m1.guyMod p fun g => { g with rx := (g.rx + 1) % 4096 }).guyAnswer p true) f
          else if 2048 ≤ d then m1.guyAnswer p true
          else m1.guyAnswer p false

/-! ### Links (R626, R627) -/

/-- HELLO (R625, R627). -/
def Mach.helloSend (m : Mach) (p : Nat) : Mach :=
  m.guySend p ⟨10, false, false, 0, [encodeCode (BitVec.ofNat 128 (m.uid * 2 ^ 64 + m.campAddr * 2 ^ 59 + p * 2 ^ 58))]⟩

/-- GUY_LINK_DOWN: the port raises GUY_LINK and discards its unacknowledged frames (R627). -/
def Mach.guyDown (m : Mach) (p : Nat) : Mach :=
  if 1 < p ∨ !m.bit (CHN_GUYp_STAT p) fCHN_GUYp_STAT_UP then m
  else
    let g := m.getGuy p
    let m1 := ((m.wr (CHN_GUYp_STAT p) fCHN_GUYp_STAT_UP 0).count (CHN_GUYp_CNT p) fCHN_GUYp_CNT_DOWNS).guyMod p fun _ => Guy.zero
    (m1.chnMod fun c => { c with ackN := c.ackN + g.unacked.length + g.waiting.length }).event 0x1404 p [(1, p), (1, 0)]

/-- GUY_LINK_UP: both SEQs start at 0, and HELLO goes out (R627). -/
def Mach.guyUp (m : Mach) (p : Nat) : Mach :=
  if 1 < p ∨ m.bit (CHN_GUYp_STAT p) fCHN_GUYp_STAT_UP then m
  else (((m.wr (CHN_GUYp_STAT p) fCHN_GUYp_STAT_UP 1).guyMod p fun _ => Guy.zero).event 0x1404 p [(1, p), (1, 1)]).helloSend p

/-- Frames of a port from the `k`-th unacknowledged on are sent again (R626). -/
def Mach.guyAgain (m : Mach) (p k : Nat) : Mach :=
  m.count (CHN_GUYp_CNT p) fCHN_GUYp_CNT_RETRIES ((m.getGuy p).unacked.length - k)

/-- The oldest unacknowledged frame of a port has failed: it and the ones after it are sent again, and the 16th failure in a row takes
the port down (R626, R627). -/
def Mach.guyFail (m : Mach) (p : Nat) : Mach :=
  let m1 := (m.guyAgain p 0).guyMod p fun g => { g with fails := g.fails + 1, since := m.tim.run }
  if 16 ≤ (m1.getGuy p).fails then m1.guyDown p else m1

/-- GUY_RETRY_TIMEOUT: 4 µs without progress (R626). -/
def Mach.guyTimeout (m : Mach) (p : Nat) : Mach :=
  if 1 < p ∨ (m.getGuy p).unacked = [] then m else (m.reachRun ((m.getGuy p).since + 1600)).guyFail p

/-- GUY_ACK_RECEIVE: the header's ACKSEQ is all it carries (R626). -/
def Mach.guyAckReceive (m : Mach) (p : Nat) (l : List Code) : Mach := m.guyTake p 0 l fun x _ => x

/-- GUY_NACK_RECEIVE: the frames from the named SEQ on are sent again; the ones before it have arrived (R626). -/
def Mach.guyNackReceive (m : Mach) (p : Nat) (l : List Code) : Mach :=
  m.guyTake p 1 l fun x f =>
    let s := f.arg % 4096
    let y := x.guyAck p ((s + 4095) % 4096)
    match (y.getGuy p).unacked.findIdx? fun e => e.1 == s with
    | some 0 => y.guyFail p
    | some i => y.guyAgain p i
    | none => y

/-- A standby that follows no port follows its first pair port (R567, R634). -/
def Mach.followPair (m : Mach) : Mach :=
  if m.role = 4 ∧ ([0, 1].all fun p => !m.bit (TIM_GUYp_CTL p) fTIM_GUYp_CTL_FOLLOW) then
    match m.pairPorts with
    | p :: _ => m.guyCtl p (putFld (putFld 0 fTIM_GUYp_CTL_EN 1) fTIM_GUYp_CTL_FOLLOW 1)
    | [] => m
  else m

/-- HELLO_RECEIVE (R627, R629, R634). -/
def Mach.helloReceive (m : Mach) (p : Nat) (l : List Code) : Mach :=
  m.guyTake p 10 l fun x f =>
    let a := (codeData (f.payload.headD 0)).toNat / 2 ^ 59 % 32
    ((x.wr (CHN_GUYp_STAT p) fCHN_GUYp_STAT_PEER_ADDR a).pairShow p).followPair

/-! ### Tokens (R637 to R640) -/

/-- The lag in beats of the standby's acknowledged position (R636). -/
def Mach.mirrorLag (m : Mach) : Nat := m.chn.marks.length

/-- The LAG limit (R658). -/
def Mach.lagLimit (m : Mach) : Nat := max 1 (m.rd CHN_MIRCTL fCHN_MIRCTL_LAG_BEATS)

/-- Whether two TSFs of 32 bits differ by more than 1 µs. -/
def tsfOff (a b : Nat) : Bool := let d := (a + 2 ^ 32 - b % 2 ^ 32) % 2 ^ 32; decide (1 < d ∧ d < 2 ^ 32 - 1)

/-- CHN_PAIRSTAT.INELIG (R640). -/
def Mach.inelig (m : Mach) : Nat :=
  let b (k : Nat) (c : Bool) : Nat := if c then 2 ^ k else 0
  let tok := m.chn.token
  b 0 (match tok with
      | some t => t.gen != (m.reg CHN_CFGGEN).toNat || t.sl != m.reg64 CHN_SEAL_LO CHN_SEAL_HI
      | none => true) +
    b 1 (match tok with | some t => m.shdState != 2 || m.shd.armId != t.armId | none => true) +
    b 2 m.chn.lagBar + b 3 (m.pairPorts.all fun p => !m.bit (TIM_GUYp_STAT p) fTIM_GUYp_STAT_LOCKED) +
    b 4 (match tok with | some t => (List.range 3).any fun x => tsfOff (t.tsf.getD x 0) (m.chn.tsfAt.getD x 0) | none => true) +
    b 5 m.chn.keysBar + b 6 m.chn.fenceBar +
    b 7 (decide ((m.reg CHN_PNJUMP).toNat < m.rd WMAC_PNCTL fWMAC_PNCTL_BLOCK * 1024))

/-- The payload of a TOKEN (R637). -/
def Mach.tokenWords (m : Mach) : List Code :=
  let tsf (x : Nat) : Nat := m.chn.tsfAt.getD x 0 % 2 ^ 32
  [BitVec.ofNat 128 (m.beat * 2 ^ 80 + (m.reg CHN_CFGGEN).toNat * 2 ^ 48 + m.rd ARM_STAT fARM_STAT_ACT_PROFILE * 2 ^ 46 +
      m.rd CHN_MIRCTL fCHN_MIRCTL_MODE * 2 ^ 45 + m.rd CHN_CFGSTAT fCHN_CFGSTAT_SEAL_PENDING * 2 ^ 44 + m.rd FLT_JPOS fFLT_JPOS_POS * 2 ^ 22),
   BitVec.ofNat 128 (m.reg64 CHN_SEAL_LO CHN_SEAL_HI * 2 ^ 64 + m.reg64 ARM_ACTID_LO ARM_ACTID_HI),
   BitVec.ofNat 128 (tsf 0 * 2 ^ 96 + tsf 1 * 2 ^ 64 + tsf 2 * 2 ^ 32)].map encodeCode

/-- Send a TOKEN on every pair port (R637, R649). -/
def Mach.tokenSend (m : Mach) (final : Bool) : Mach := m.forEach m.pairPorts fun x p => x.guySend p ⟨4, false, final, 0, m.tokenWords⟩

/-- Send a STOKEN on every pair port: the position acknowledged is that of the last TOKEN (R637, log 33). -/
def Mach.stokenSend (m : Mach) : Mach :=
  let pos := match m.chn.token with | some t => t.pos | none => 0
  let w := encodeCode (BitVec.ofNat 128 (m.beat * 2 ^ 80 + (m.reg CHN_CFGGEN).toNat * 2 ^ 48 + pos * 2 ^ 26 + m.inelig * 2 ^ 18))
  m.forEach m.pairPorts fun x p => x.guySend p ⟨5, false, false, 0, [w]⟩

/-- Set a TSF base to a TSF of 32 bits that held at this beat's start (R634). -/
def Mach.tsfAlign (m : Mach) (x v : Nat) : Mach :=
  let us := (m.now - m.tim.beatTime.toNat) / 1000
  let cur := m.tsf x
  m.setBase (x + 1) ((m.getBase (x + 1)).at_ ((((cur / 2 ^ 32 * 2 ^ 32 + v + us) * 1000 : Nat) : Int) * (2 ^ 32 : Nat)))

/-- What a TOKEN says (R637): a seal that is pending leaves the last one standing (R640). -/
def tokenOf (old : Option Token) (l : List Code) : Token :=
  let w (i : Nat) : Nat := (codeData (l.getD i 0)).toNat
  let pend := (w 0).testBit 44
  let gen := w 0 / 2 ^ 48 % 2 ^ 32
  let keep := match old with | some t => if pend then some (t.gen, t.sl) else none | none => none
  ⟨w 0 / 2 ^ 80, (keep.getD (gen, 0)).1, w 0 / 2 ^ 46 % 4, pend, (keep.getD (0, w 1 / 2 ^ 64)).2, w 1 % 2 ^ 64, w 0 / 2 ^ 22 % 2 ^ 22,
    [w 2 / 2 ^ 96, w 2 / 2 ^ 64 % 2 ^ 32, w 2 / 2 ^ 32 % 2 ^ 32]⟩

/-- The takeover's voltage raise begins: to the shadow armature's profile, as for a faster change (R641, R649). -/
def Mach.takeRaise (m : Mach) : Mach :=
  ((m.setRole 5).armMod fun a => { a with change := 7, target := m.shd.profile, confirmed := false, settle := false }).drive m.shd.profile

/-- TOKEN_RECEIVE (R634, R638, R649): a token of a beat already over counts as late; FINAL makes an eligible standby take over at
once. -/
def Mach.tokenReceive (m : Mach) (p : Nat) (l : List Code) : Mach :=
  m.guyTake p 4 l fun x f =>
    if x.role ≠ 4 then x
    else
      let t := tokenOf x.chn.token f.payload
      let y := x.chnMod fun c => { c with token := some t, lagBar := c.lagBar && x.chn.query.isSome }
      let y1 := if x.beat ≤ t.beat then y.chnMod fun c => { c with gotToken := true }
        else (y.count CHN_TOKCNT fCHN_TOKCNT_LATE).wr CHN_PAIRSTAT fCHN_PAIRSTAT_MISSING 0
      let y2 := y1.forEach ([0, 1, 2].filter fun r => !y1.tsfOn (r + 1)) fun z r => z.tsfAlign r (t.tsf.getD r 0)
      if f.final ∧ y2.inelig = 0 then y2.takeRaise else y2

/-- STOKEN_RECEIVE (R636, R638): the records up to the position are acknowledged. -/
def Mach.stokenReceive (m : Mach) (p : Nat) (l : List Code) : Mach :=
  m.guyTake p 5 l fun x f =>
    if x.role ≠ 2 then x
    else
      let w := (codeData (f.payload.headD 0)).toNat
      let pos := w / 2 ^ 26 % 2 ^ 22
      let cur := x.rd FLT_JPOS fFLT_JPOS_POS
      let back (q : Nat) : Nat := (cur + 2 ^ 22 - q) % 2 ^ 22
      let y := x.chnMod fun c => { c with gotStoken := true, peerInelig := w / 2 ^ 18 % 256, marks := c.marks.filter fun q => decide (back q < back pos) }
      (y.fltMod fun t => { t with ahead := back pos }).wr CHN_MIRSTAT fCHN_MIRSTAT_LAG (min 255 y.mirrorLag)

/-! ### What the standby holds (R634, R635, R674, R677) -/

/-- Put the numbers of a TX record to the oldest frame of its queue that has none, unless a frame of the queue bears them already
(R677). A frame's record keeps its numbers behind its 16 bytes. -/
def txNumber (q : Nat) (nums : List Byte) : List MRec → List MRec
  | [] => []
  | r :: l =>
    if r.type = 6 ∧ r.arg = q then
      if r.bytes.length = 16 then { r with bytes := r.bytes ++ nums } :: l
      else if slice 0 r.bytes 16 2 = slice 0 nums 0 2 then r :: l
      else r :: txNumber q nums l
    else r :: txNumber q nums l

/-- Remove the first record that fits. -/
def recErase (f : MRec → Bool) : List MRec → List MRec
  | [] => []
  | r :: l => if f r then l else r :: recErase f l

/-- A whole mirrored record takes effect: state records change the standby's state; FRAME and INPUT wait for their OUTCOMMIT; of
the OUTCOMMITs of a ring the last is kept; type 0x89 notes the place of a mirrored home copy (R635, R672, R673, R677). `src` is the record's port code. -/
def Mach.recTake (m : Mach) (r : MRec) (src : Nat) : Mach :=
  let b (i k : Nat) : Nat := numLE (slice 0 r.bytes i k)
  let keep (l : List MRec) : Mach := m.chnMod fun c => { c with recs := l }
  let l := m.chn.recs
  if r.type = 2 ∨ r.type = 6 then keep (l ++ [r])
  else if r.type = 7 then keep (txNumber (r.arg / 4 % 2 ^ 15) (slice 0 r.bytes 0 8) l)
  else if r.type = 9 then m.setKeyE r.arg { m.keyE r.arg with pn := max (m.keyE r.arg).pn (b 0 6) }
  else if r.type = 0x0A then
    if src = portHIF then
      keep ((recErase (fun x => x.type == 2 && x.arg == r.arg + 256 * (b 0 4 % 2 ^ 24)) (l.filter fun x => !(x.type == 0x0A && x.arg == r.arg))) ++ [r])
    else
      let gone (x : MRec) : Bool := x.type == 0x89 && decide (b 0 5 / 16 * 16 ≤ x.arg ∧ x.arg < b 0 5 + b 5 3)
      keep (recErase (fun x => x.type == 6 && x.arg == r.arg && x.bytes.take 16 == r.bytes) (l.filter fun x => !gone x))
  else if r.type = 0x82 then
    if r.bytes = [] then m.wmacMod fun w => { w with stas := tabSet none w.stas r.arg none } else m.staPut r.bytes
  else if r.type = 0x84 then
    if r.bytes = [] then m.wmacMod fun w =>
      if r.arg / 65536 = 2 then { w with baRx := tabSet none w.baRx (r.arg % 65536) none } else { w with baTx := tabSet none w.baTx (r.arg % 65536) none }
    else m.baPut r.bytes
  else if r.type = 0x85 then m.setQueue r.arg { m.queue r.arg with attr := QAttr.ofEntry r.bytes }
  else if r.type = 0x86 then
    let s := Shaper.ofEntry r.bytes
    let i := r.arg % 4096
    if r.arg < 4096 then m.setShaper i s else if r.arg < 8192 then m.setPolicer i s else m.setWpol i s
  else if r.type = 0x87 then
    m.wmacMod fun w =>
      let ts := w.twts.filter fun t => twtPlace t.agr t.bcast != r.arg
      { w with twts := match Twt.ofEntry r.arg r.bytes with | some t => t :: ts | none => ts }
  else m

/-- Words of COMMIT and MIRROR frames become records: a header word opens one, of TYPE + 256 × the payload words still to come
while it is open (R672, R674). -/
def Mach.recWord (m : Mach) (w : Code) : Mach :=
  let d := datumBytes (codeData w)
  let b (i k : Nat) : Nat := numLE (slice 0 d i k)
  match m.chn.recs.getLast? with
  | some r =>
    if 256 ≤ r.type then
      let m1 := m.chnMod fun c => { c with recs := c.recs.dropLast }
      let x : MRec := { r with type := r.type - 256, bytes := r.bytes ++ d }
      if 256 ≤ x.type then m1.chnMod fun c => { c with recs := c.recs ++ [x] }
      else m1.recTake { x with arg := x.arg % 2 ^ 32 } (x.arg / 2 ^ 32)
    else if b 1 1 = 0 then m.recTake ⟨b 0 1, b 12 4, []⟩ (b 2 1)
    else m.chnMod fun c => { c with recs := c.recs ++ [⟨b 0 1 + 256 * b 1 1, b 12 4 + 2 ^ 32 * b 2 1, []⟩] }
  | none =>
    if b 1 1 = 0 then m.recTake ⟨b 0 1, b 12 4, []⟩ (b 2 1)
    else m.chnMod fun c => { c with recs := c.recs ++ [⟨b 0 1 + 256 * b 1 1, b 12 4 + 2 ^ 32 * b 2 1, []⟩] }

/-- Records of a COMMIT or MIRROR frame (R674). -/
def Mach.recWords (m : Mach) (l : List Code) : Mach := m.forEach l fun x w => x.recWord w

/-- A key record under the mirror key: one whose tag fails is dropped and bars KEYS (R635). -/
def Mach.keyRecord (m : Mach) (k : Nat) (l : List Byte) : Mach :=
  match Config.mirrorOpen m.mkey l with
  | none => m.chnMod fun c => { c with keysBar := true }
  | some e =>
    if e.getD 0 0 = 0 then (if (m.keyE k).used then m.setKeyE k { KeyE.zero with gen := (m.keyE k).gen + 1 } else m)
    else m.keyPut (e.drop 1) false

/-- GUY_COMMIT_RECEIVE (R674). -/
def Mach.commitReceive (m : Mach) (p : Nat) (l : List Code) : Mach :=
  m.guyTake p 6 l fun x f => if x.role = 4 then x.recWords f.payload else x

/-- MIRROR_RECEIVE (R635, R674). -/
def Mach.mirrorReceive (m : Mach) (p : Nat) (l : List Code) : Mach :=
  m.guyTake p 7 l fun x f =>
    if x.role ≠ 4 then x
    else if f.enc then x.keyRecord (f.arg % 2 ^ 16) (codeBytes f.payload)
    else x.recWords f.payload

/-- PAYLOAD_RECEIVE: a mirrored home copy (R635). -/
def Mach.payloadReceive (m : Mach) (p : Nat) (l : List Code) : Mach :=
  m.guyTake p 9 l fun x f =>
    let a := (codeData (f.payload.headD 0)).toNat % 2 ^ 64
    if x.role = 4 then (x.dramWrites a (f.payload.drop 1)).chnMod fun c => { c with recs := ⟨0x89, a, []⟩ :: c.recs } else x

/-! ### Configuration, armature, snapshot (R634, R648, R653) -/

/-- The image received becomes the staged generation and commits with the active (R634, R653). -/
def Mach.cfgInstall (m : Mach) (g b : Nat) : Mach :=
  let buf := tabGet [] m.chn.cfgBuf 0
  let s := m.cfgStage g
  if s.2 ≠ 0 then m
  else
    let l := memRead buf 0 (8 * imageRegs.length)
    let m1 := s.1.forEach (entriesOf 8 imageRegs.length l) fun x e =>
      let a := numLE (slice 0 e 0 4)
      if imageRegs.contains a then x.stageMod fun t => tabSet 0 t a (x.reg a ^^^ BitVec.ofNat 32 (numLE (slice 0 e 4 4))) else x
    m1.chnMod fun c => { c with commit := some (g, b), cfgBuf := tabSet [] c.cfgBuf 0 [] }

/-- The armature received is whole: it goes through every stage into the shadow bank (R63, R634). -/
def Mach.armInstall (m : Mach) (l : List Byte) : Mach :=
  let m0 := m.chnMod fun c => { c with cfgBuf := tabSet [] c.cfgBuf 1 [] }
  if m.arm.armed ∨ m.arm.fbSwap then m0
  else match m0.loadCheck l l.length false false (fun _ => true) with
    | some (st, code, ix) => (m0.ldStat st code ix).setShd 3
    | none => (m0.shdPlace l).ldStat 7 0 0

/-- The snapshot received is whole: its sections are put in, KEYS and LAG no longer bar (R635, R648, R675). -/
def Mach.snapInstall (m : Mach) (l : List Byte) : Mach :=
  (m.sectionsPut l [] false).chnMod fun c => { c with keysBar := false, lagBar := false, cfgBuf := tabSet [] c.cfgBuf 2 [] }

/-- CFG_RECEIVE (R648). -/
def Mach.cfgReceive (m : Mach) (p : Nat) (l : List Code) : Mach :=
  m.guyTake p 8 l fun x f =>
    if x.role ≠ 4 then x
    else
      let kind := f.arg % 16
      let off := f.arg / 16 % 2 ^ 32
      let d := codeBytes f.payload
      if kind = 0 ∧ off = 2 ^ 32 - 1 then x.cfgInstall (numLE (slice 0 d 0 4)) (numLE (slice 0 d 4 6))
      else if 2 < kind then x
      else
        let buf := memWrite (if off = 0 then [] else tabGet [] x.chn.cfgBuf kind) off d
        let y := x.chnMod fun c => { c with cfgBuf := tabSet [] c.cfgBuf kind buf }
        let top := off + d.length
        if kind = 1 then
          let n := numLE (memRead buf 8 4)
          if 64 ≤ top ∧ n ≤ top then y.armInstall (memRead buf 0 n) else y
        else if kind = 2 then
          let n := ckEnd (memRead buf 0 192)
          if 192 ≤ top ∧ n ≤ top then y.snapInstall (memRead buf 0 n) else y
        else y

/-- The state snapshot's bytes: the layout of a checkpoint without its keys, which travel in MIRROR frames (R635, R648, log 33). -/
def Mach.snapBytes (m : Mach) : List Byte :=
  let lay := ckLay 192 (m.stateSections [])
  bytesLE 4 0x4B434A46 ++ bytesLE 2 1 ++ bytesLE 10 0 ++ bytesLE 8 m.beat ++ bytesLE 8 (m.getBase 0).s.toNat ++
    bytesLE 4 (m.reg CHN_CFGGEN).toNat ++ bytesLE 2 8 ++ bytesLE 2 0 ++ bytesLE 8 (m.reg64 ARM_ACTID_LO ARM_ACTID_HI) ++ bytesLE 8 m.uid ++
    bytesLE 8 0 ++ lay.1 ++ lay.2

/-- Send a state snapshot: every key record, then the sections (R635, R648, R675). -/
def Mach.snapSend (m : Mach) : Mach :=
  let m1 := m.forEach m.keysUsed fun x e => x.mirrorKey e.1
  let l := m1.snapBytes
  m1.cfgSend 2 (l.length + 1) 0 l

/-- A partner joins as STANDBY: configuration image, armature, snapshot, then the fence test (R633, R648). -/
def Mach.pairJoin (m : Mach) : Mach :=
  let m1 := m.chnMod fun c => { c with joined := true, partner := 4 }
  let img := m1.image
  let m2 := (m1.cfgSend 0 (img.length + 1) 0 img).toStandby
    ⟨8, false, false, 16 * (2 ^ 32 - 1), codesOf (bytesLE 4 (m.reg CHN_CFGGEN).toNat ++ bytesLE 6 (m.beat + 2))⟩
  let m3 := m2.cfgSend 1 (m2.act.img.length + 1) 0 m2.act.img
  m3.snapSend.fenceTest

end Sys2Proof.Machine
end

