-- ==== Sys2Proof/Machine/Packet.lean ====
section
/-! DEFINITION. Frames as bytes: what the router parses of them (R482) and the edits of SENDV (R483, R484). -/

namespace Sys2Proof.Machine

open Sys2Proof

/-- A byte of a frame; 0 beyond its end. -/
def byteAt (l : List Byte) (o : Nat) : Nat := (l.getD o 0).toNat

/-- A number of `k` bytes, most significant first, as network headers hold them. -/
def beAt (l : List Byte) (o : Nat) : Nat → Nat
  | 0 => 0
  | k + 1 => byteAt l o * 256 ^ k + beAt l (o + 1) k

/-- The bytes of a number, most significant first. -/
def bytesBE (k n : Nat) : List Byte := (bytesLE k n).reverse

/-- Bytes replaced from an offset. -/
def patch (l : List Byte) (o : Nat) (v : List Byte) : List Byte := l.take o ++ v ++ l.drop (o + v.length)

/-- The one's-complement sum of 16-bit words. -/
def onesSum : Nat → List Byte → Nat
  | 0, _ => 0
  | _ + 1, [] => 0
  | k + 1, l =>
    let s := onesSum k (l.drop 2) + beAt l 0 2
    s % 65536 + s / 65536

/-- A checksum after one 16-bit word of its data changed (R484). -/
def csumWord (c old new : Nat) : Nat :=
  let s := (65535 - c) + (65535 - old) + new
  let t := s % 65536 + s / 65536
  65535 - (t % 65536 + t / 65536)

/-- A checksum after a 32-bit field of its data changed. -/
def csumAddr (c old new : Nat) : Nat := csumWord (csumWord c (old / 65536) (new / 65536)) (old % 65536) (new % 65536)

/-- What a parse finds (R482): VLAN, L3 kind, protocol, offsets, and the flags of word 1. -/
structure Parse where
  vlan : Nat
  l3 : Nat
  proto : Nat
  l3off : Nat
  l4off : Nat
  bad : Bool
  frag : Bool
  later : Bool
  opts : Bool
  deriving DecidableEq, Repr

/-- The headers of IPv6 up to the upper layer: (protocol, offset, extensions, fragment, a later fragment). -/
def ip6Chain (l : List Byte) : Nat → Nat → Nat → Bool → Bool → Bool → Nat × Nat × Bool × Bool × Bool
  | 0, nh, o, e, f, g => (nh, o, e, f, g)
  | k + 1, nh, o, e, f, g =>
    if nh = 0 ∨ nh = 43 ∨ nh = 60 then ip6Chain l k (byteAt l o) (o + 8 * (byteAt l (o + 1) + 1)) true f g
    else if nh = 51 then ip6Chain l k (byteAt l o) (o + 4 * (byteAt l (o + 1) + 2)) true f g
    else if nh = 44 then ip6Chain l k (byteAt l o) (o + 8) true true (beAt l (o + 2) 2 / 8 != 0)
    else (nh, o, e, f, g)

/-- Parse a frame (R482). -/
def parse (l : List Byte) : Parse :=
  let tagged := beAt l 12 2 == 0x8100
  let o := if tagged then 18 else 14
  let vlan := if tagged then beAt l 14 2 % 4096 else 0
  let ty := beAt l (o - 2) 2
  if ty = 0x0800 then
    let ihl := byteAt l o % 16 * 4
    let fr := beAt l (o + 6) 2
    ⟨vlan, 1, byteAt l (o + 9), o, o + ihl, onesSum 32 ((l.drop o).take ihl) != 65535, fr % 16384 != 0, fr % 8192 != 0,
     decide (20 < ihl)⟩
  else if ty = 0x86DD then
    let c := ip6Chain l 8 (byteAt l (o + 6)) (o + 40) false false false
    ⟨vlan, 2, c.1, o, c.2.1, false, c.2.2.2.1, c.2.2.2.2, c.2.2.1⟩
  else ⟨vlan, if ty = 0x0806 then 3 else 0, 0, o, 0, false, false, false, false⟩

/-- Whether the L4 header with ports stands in the frame. -/
def Parse.ports (p : Parse) : Bool := (p.l3 == 1 || p.l3 == 2) && (p.proto == 6 || p.proto == 17) && !p.later

/-- Whether a frame is the outer one of a tunnel: UDP port 4789, or GRE (R482). -/
def tunnelled (l : List Byte) (p : Parse) : Bool :=
  (p.ports && p.proto == 17 && beAt l (p.l4off + 2) 2 == 4789) || ((p.l3 == 1 || p.l3 == 2) && p.proto == 47)

/-- Word 1 of the parse record (R482). -/
def parseWord1 (l : List Byte) (source port pcp : Nat) : Nat :=
  let p := parse l
  let b (v : Bool) (n : Nat) : Nat := if v then n else 0
  source * 2 ^ 57 + port % 2048 * 2 ^ 46 + pcp % 8 * 2 ^ 43 + p.vlan * 2 ^ 31 + p.l3 * 2 ^ 28 + p.proto * 2 ^ 20 +
    p.l3off % 256 * 2 ^ 12 + p.l4off % 256 * 2 ^ 4 + b p.bad 8 + b p.frag 4 + b p.opts 2 + b (tunnelled l p) 1

/-- Words 4 to 7 of the parse record (R482). -/
def parseKey (l : List Byte) : List Nat :=
  let p := parse l
  match p.l3 with
  | 1 => [beAt l (p.l3off + 12) 4, beAt l (p.l3off + 16) 4, if p.ports then beAt l p.l4off 4 else 0, p.proto * 2 ^ 24 + p.vlan]
  | 2 => [beAt l (p.l3off + 36) 4, beAt l (p.l3off + 32) 4, beAt l (p.l3off + 28) 4, beAt l (p.l3off + 24) 4]
  | _ => [0, 0, 0, 0]

/-! ### Edits (R484) -/

/-- The inner frame of a tunnelled one (R483, bit 7); a GRE payload that is no Ethernet frame keeps the outer addresses. -/
def decap (l : List Byte) : Option (List Byte) :=
  let p := parse l
  if !tunnelled l p then none
  else if p.proto = 17 then some (l.drop (p.l4off + 16))
  else
    let f := byteAt l p.l4off
    let n := 4 + (if f.testBit 7 then 4 else 0) + (if f.testBit 5 then 4 else 0) + (if f.testBit 4 then 4 else 0)
    let ty := beAt l (p.l4off + 2) 2
    let inner := l.drop (p.l4off + n)
    some (if ty = 0x6558 then inner else l.take (p.l3off - 2) ++ bytesBE 2 ty ++ inner)

/-- The L4 checksum's offset; none where there is none to update. -/
def csumOff (l : List Byte) (p : Parse) : Option Nat :=
  if !p.ports then none
  else if p.proto = 6 then some (p.l4off + 16)
  else if beAt l (p.l4off + 6) 2 = 0 then none
  else some (p.l4off + 6)

/-- One direction of a NAT edit (R483, bits 2 and 3): the address and port at their places, the checksums with them. -/
def natOne (l : List Byte) (dst : Bool) (addr port : Nat) : List Byte :=
  let p := parse l
  let ao := p.l3off + if dst then 16 else 12
  let po := p.l4off + if dst then 2 else 0
  let oldA := beAt l ao 4
  let ip := csumAddr (beAt l (p.l3off + 10) 2) oldA addr
  let l1 := patch (patch l ao (bytesBE 4 addr)) (p.l3off + 10) (bytesBE 2 ip)
  if !p.ports then l1
  else
    let l2 := match csumOff l p with
      | some c =>
        let s := csumWord (csumAddr (beAt l c 2) oldA addr) (beAt l po 2) port
        patch l1 c (bytesBE 2 (if s = 0 ∧ p.proto = 17 then 0xFFFF else s))
      | none => l1
    patch l2 po (bytesBE 2 port)

/-- NAT (R484); none for a frame that is not IPv4. -/
def natEdit (l : List Byte) (src dst : Bool) (addr port : Nat) : Option (List Byte) :=
  if (parse l).l3 ≠ 1 then none
  else
    let l1 := if src then natOne l false addr port else l
    some (if dst then natOne l1 true addr port else l1)

/-- TTL or hop limit decremented (R484); none where it would reach 0. Other frames are left as they are. -/
def ttlEdit (l : List Byte) : Option (List Byte) :=
  let p := parse l
  match p.l3 with
  | 1 =>
    let t := byteAt l (p.l3off + 8)
    if t ≤ 1 then none
    else
      let old := beAt l (p.l3off + 8) 2
      some (patch (patch l (p.l3off + 8) (bytesBE 1 (t - 1))) (p.l3off + 10) (bytesBE 2 (csumWord (beAt l (p.l3off + 10) 2) old
        (old - 256))))
  | 2 =>
    let t := byteAt l (p.l3off + 7)
    if t ≤ 1 then none else some (patch l (p.l3off + 7) (bytesBE 1 (t - 1)))
  | _ => some l

/-- A next hop's entry (R485): destination MAC, source-MAC index, VLAN, tunnel, VALID. -/
structure NextHop where
  dmac : Nat
  smac : Nat
  vlan : Nat
  tunnel : Nat
  valid : Bool
  deriving DecidableEq, Repr

/-- The next hop that 128 bits give. -/
def nextHop (d : Nat) : NextHop :=
  ⟨d % 2 ^ 48, d / 2 ^ 48 % 16, d / 2 ^ 52 % 4096, d / 2 ^ 64 % 4096, (d / 2 ^ 76) % 2 == 1⟩

/-- L2 rewrite: MAC addresses, byte 0 lowest (R483, bit 0). -/
def l2Edit (l : List Byte) (dmac smac : Nat) : List Byte := bytesLE 6 dmac ++ bytesLE 6 smac ++ l.drop 12

/-- VLAN push or replace (R483, bit 4). -/
def vlanEdit (l : List Byte) (v : Nat) : List Byte :=
  if beAt l 12 2 = 0x8100 then patch l 14 (bytesBE 2 (beAt l 14 2 / 4096 * 4096 + v))
  else l.take 12 ++ bytesBE 2 0x8100 ++ bytesBE 2 v ++ l.drop 12

/-- The checksum of a header. -/
def csumOf (l : List Byte) : Nat := 65535 - onesSum 64 l

/-- A tunnel's outer header before a frame (R483, bits 5 and 6, R485): `free` gives the header fields that the spec does not
state (traffic class, identification, flags, flow label, UDP checksum). -/
def encapHeader (gre v6 : Bool) (src dst : BitVec 128) (vni : BitVec 32) (ttl : Nat) (dmac smac spread len : Nat)
    (free : BitVec 64) : List Byte :=
  let f (k n : Nat) : Nat := free.toNat / 2 ^ k % 2 ^ n
  let inner := if gre then bytesBE 2 0x2000 ++ bytesBE 2 0x6558 ++ bytesBE 4 vni.toNat
    else bytesBE 4 0x08000000 ++ bytesBE 4 (vni.toNat % 2 ^ 24 * 256)
  let l4 := if gre then inner
    else bytesBE 2 (49152 + spread) ++ bytesBE 2 4789 ++ bytesBE 2 (len + 16) ++ bytesBE 2 (f 0 16) ++ inner
  let proto := if gre then 47 else 17
  let l3 := if v6 then
      bytesBE 4 (6 * 2 ^ 28 + f 16 28) ++ bytesBE 2 (l4.length + len) ++ bytesBE 1 proto ++ bytesBE 1 ttl ++
        bytesBE 16 src.toNat ++ bytesBE 16 dst.toNat
    else
      let h := bytesBE 1 0x45 ++ bytesBE 1 (f 16 8) ++ bytesBE 2 (20 + l4.length + len) ++ bytesBE 2 (f 24 16) ++
        bytesBE 2 (f 40 3 * 8192) ++ bytesBE 1 ttl ++ bytesBE 1 proto ++ bytesBE 2 0 ++ bytesBE 4 src.toNat ++ bytesBE 4 dst.toNat
      patch h 10 (bytesBE 2 (csumOf h))
  bytesLE 6 dmac ++ bytesLE 6 smac ++ bytesBE 2 (if v6 then 0x86DD else 0x0800) ++ l3 ++ l4

end Sys2Proof.Machine
end

