-- ==== Sys2Proof/Machine/RteOps.lean ====
section
/-! DEFINITION. The router's units, its intake, spill and LAG (R478 to R484, R488 to R496, R602, R603). -/

namespace Sys2Proof.Machine

open Sys2Proof

/-! ### Requests (R478 to R480) -/

/-- A unit refuses a request (R479). -/
def Mach.rteRefuse (m : Mach) : Mach × Nat × List (Nat × TWord) := (m.count RTE_CNT1 fRTE_CNT1_REFUSED, stREFUSED, [])

/-- The item words of `w` words each. -/
def itemsOf (w : Nat) : Nat → List TWord → List (List TWord)
  | 0, _ => []
  | k + 1, l => slice 0 l 0 w :: itemsOf w k (l.drop w)

/-- A request of items of `w` words with `n` result words each (R479): the header must hold, COUNT must not pass `top`, and
the items and results must fit. -/
def Mach.rteRequest (m : Mach) (a : Acc) (w n top : Nat) (f : Mach → UnitReq → List TWord → Mach × List TWord) :
    Mach × Nat × List (Nat × TWord) :=
  match unitReq a.src with
  | some r =>
    if !m.bit RTE_CTL fRTE_CTL_RUN ∨ r.items.length < r.count * w ∨ top < r.count ∨ 8192 < r.result + r.count * n then m.rteRefuse
    else
      let x := (itemsOf w r.count r.items).foldl (fun (s : Mach × List TWord) it => let y := f s.1 r it; (y.1, s.2 ++ y.2)) (m, [])
      (x.1, 0, unitResults r x.2)
  | none => m.rteRefuse

/-- An item is refused (R479): the status word. -/
def Mach.itemRefuse (m : Mach) (w : TWord) : Mach × TWord := (m.count RTE_CNT1 fRTE_CNT1_REFUSED, w)

/-- An item's handle is stale (R477). -/
def Mach.itemStale (m : Mach) : Mach × TWord := (m.count RTE_CNT1 fRTE_CNT1_STALE, intWord 1)

/-- REF (R478): references added while REFCNT stays at most 15. -/
def Mach.refItem (m : Mach) (run : RunId) (it : List TWord) : Mach × TWord :=
  let n := payN (it.getD 1 0)
  if wTag (it.getD 0 0) ≠ tagPKT ∨ !isInt (it.getD 1 0) ∨ n = 0 ∨ 14 < n then m.itemRefuse (intWord 6)
  else match m.handle (it.getD 0 0) with
    | none => m.itemStale
    | some h =>
      let more := ((m.rte.acts.filter fun a => a.head == h).map RefAct.add).sum
      if 15 < (m.head h).ref + more + n then m.itemRefuse (intWord 6) else (m.refAct run h n, intWord 0)

/-- FREE (R478). -/
def Mach.freeItem (m : Mach) (run : RunId) (it : List TWord) : Mach × TWord :=
  if wTag (it.getD 0 0) ≠ tagPKT then m.itemRefuse (intWord 6)
  else match m.handle (it.getD 0 0) with
    | none => m.itemStale
    | some h => (m.refAct run h 0, intWord 0)

/-- The words that an item of FIND, INSERT or DELETE gives: its key pieces. -/
def keyItem (p : Nat) (it : List TWord) : List Nat := (it.take p).map fun w => payN w % 2 ^ 32

/-- A hash operation (R488): 0 FIND, 1 INSERT, 2 DELETE. -/
def Mach.hashItem (m : Mach) (op t p : Nat) (touch : Bool) (it : List TWord) : Mach × List TWord :=
  if it.any fun w => !isInt w then let r := m.itemRefuse (intWord (6 * 2 ^ 56)); (r.1, [r.2, intWord 0])
  else
    let key := m.keyPad t (keyItem p it)
    let r := match op with
      | 0 => m.hashFind t key touch
      | 1 => m.hashInsert t key (payN (it.getD p 0)) false
      | _ => m.hashDelete t key
    (r.1, r.2.words (spreadOf (keyHash key)))

/-- The hash unit (R478, R480, R488). -/
def Mach.hashUnit (m : Mach) (n id op : Nat) : Mach :=
  m.unitServe n id 0x61 (op + 1) fun m a _ =>
    match unitReq a.src with
    | some r =>
      let p := if r.pieces = 0 then m.tblKeyw r.sel else r.pieces
      if !m.hashOk r.sel ∨ m.tblKeyw r.sel < p then m.rteRefuse
      else m.rteRequest a (p + if op = 1 then 1 else 0) 2 (if m.tblDlvl r.sel = 0 then 32 else 16)
        fun x r it => x.hashItem op r.sel p r.touch it
    | none => m.rteRefuse

/-- The prefix unit (R478, R490). -/
def Mach.lpmUnit (m : Mach) (n id : Nat) : Mach :=
  m.unitServe n id 0x62 1 fun m a _ =>
    match unitReq a.src with
    | some r =>
      let k := m.tblKind r.sel
      if k ≠ 2 ∧ k ≠ 3 then m.rteRefuse
      else m.rteRequest a (if k = 2 then 1 else 4) 1 32 fun x r it =>
        if it.any fun w => !isInt w then let y := x.itemRefuse (intWord (6 * 2 ^ 56)); (y.1, [y.2])
        else
          let addr := (it.map fun w => payN w % 2 ^ 32).reverse.foldl (fun s w => s * 2 ^ 32 + w) 0
          let y := x.lpmLookup r.sel addr
          (y.1, [y.2])
    | none => m.rteRefuse

/-- The policer unit (R478, R496). -/
def Mach.polUnit (m : Mach) (n id : Nat) : Mach :=
  m.unitServe n id 0x63 1 fun m a _ => m.rteRequest a 1 1 32 fun x _ it =>
    let w := it.getD 0 0
    if !isInt w then let y := x.itemRefuse (intWord 6); (y.1, [y.2])
    else let y := x.judge (payN w % 4096) (payN w / 2 ^ 14 % 2 ^ 14); (y.1, [intWord y.2])

/-- REF and FREE (R478). -/
def Mach.refUnit (m : Mach) (n id : Nat) : Mach :=
  m.unitServe n id 0x60 3 fun m a run => m.rteRequest a 2 1 32 fun x _ it => let y := x.refItem run it; (y.1, [y.2])
def Mach.freeUnit (m : Mach) (n id : Nat) : Mach :=
  m.unitServe n id 0x60 4 fun m a run => m.rteRequest a 1 1 32 fun x _ it => let y := x.freeItem run it; (y.1, [y.2])

/-- PULL (R482): the oldest frames of a queue, provisionally consumed (R663). -/
def Mach.pullUnit (m : Mach) (n id : Nat) : Mach :=
  m.unitServe n id 0x60 1 fun m a run =>
    match unitReq a.src with
    | some r =>
      if !m.bit RTE_CTL fRTE_CTL_RUN ∨ 8192 < r.result + 2 + 8 * r.count then m.rteRefuse
      else
        let q := tabGet [] m.rte.intake r.sel
        let l := q.take r.count
        let ws (x : Parsed × Nat) : List (Nat × TWord) :=
          (List.range 8).map fun i => (r.result + 2 + 8 * x.2 + i, if i = 0 then m.pktOf x.1.head else x.1.words.getD (i - 1) 0)
        (m.rteMod fun s => { s with intake := tabSet [] s.intake r.sel (q.drop r.count)
                                    pulled := if run = 0 then s.pulled else s.pulled ++ l.map fun p => (run, r.sel, p) },
         0, (r.result, intWord l.length) :: ((l.zip (List.range l.length)).map ws).flatten)
    | none => m.rteRefuse

/-! ### Sending (R483, R484) -/

/-- A next hop's entry (R485): none outside the table, poisoned, or not VALID. -/
def Mach.nextHopAt (m : Mach) (i : Nat) : Mach × Option NextHop :=
  if i = 0xFFFF ∨ m.tblKind 3 ≠ 4 ∨ 2 ^ m.tblLog2 3 ≤ i then (m, none)
  else
    let r := m.tblReads 3 (16 * i) 1
    (r.1, match readBytes r.2 with
      | some l => let x := nextHop (numLE l); if x.valid then some x else none
      | none => none)

/-- A tunnel's entry (R485). -/
def Mach.tunnelAt (m : Mach) (i : Nat) : Mach × Option (List Byte) :=
  if m.tblKind 9 ≠ 4 ∨ 2 ^ m.tblLog2 9 ≤ i then (m, none)
  else let r := m.tblReads 9 (64 * i) 4; (r.1, readBytes r.2)

/-- The source MAC of an index. -/
def Mach.smacOf (m : Mach) (k : Nat) : Nat := (m.reg (RTE_SMACk_LO k)).toNat + 2 ^ 32 * m.rd (RTE_SMACk_HI k) fRTE_SMACk_HI_ADDR

/-- What the edits of an entry give: the bytes to send, or the status that stops them: 4 TTL, 6 REFUSED (R484). -/
def Mach.sendEdit (m : Mach) (edit nh spread : Nat) (nat : Option Nat) (l : List Byte) : Mach × Except (Nat × List Byte) (List Byte) :=
  let b (k : Nat) : Bool := edit.testBit k
  match (if b 7 then decap l else some l) with
  | none => (m, .error (6, l))
  | some l1 =>
    match (if b 2 ∨ b 3 then (match nat with | some w => natEdit l1 (b 2) (b 3) (w % 2 ^ 32) (w / 2 ^ 32 % 2 ^ 16) | none => none)
           else some l1) with
    | none => (m, .error (6, l1))
    | some l2 =>
      match (if b 1 then ttlEdit l2 else some l2) with
      | none => (m, .error (4, l2))
      | some l3 =>
        if !(b 0 || b 4 || b 5 || b 6) then (m, .ok l3)
        else
          let r := m.nextHopAt nh
          match r.2 with
          | none => (r.1, .error (6, l3))
          | some x =>
            let l4 := if b 0 then l2Edit l3 x.dmac (m.smacOf x.smac) else l3
            let l5 := if b 4 then vlanEdit l4 x.vlan else l4
            if !(b 5 || b 6) then (r.1, .ok l5)
            else
              let t := r.1.tunnelAt x.tunnel
              match t.2 with
              | none => (t.1, .error (6, l5))
              | some e =>
                let (_, v6, src, dst, vni, ttl, oh) := Config.tunnelEntry e
                let o := t.1.nextHopAt oh.toNat
                match o.2 with
                | none => (o.1, .error (6, l5))
                | some y =>
                  let f := o.1.freeVal
                  (f.2, .ok (encapHeader (b 6) v6 src dst vni ttl.toNat y.dmac (m.smacOf y.smac) spread l5.length f.1 ++ l5))

/-- The member port of a group's bucket in the operative map (R493). -/
def Mach.lagPort (m : Mach) (g spread : Nat) : Nat :=
  (tabGet 0 m.rte.lag (16 * g + spread / 16)).toNat / 4 ^ (spread % 16) % 4

/-- Whether a group has a member up. -/
def Mach.lagUp (m : Mach) (g : Nat) : Bool :=
  m.bit (RTE_LAGg_CFG g) fRTE_LAGg_CFG_EN && Nat.land (m.rd (RTE_LAGg_CFG g) fRTE_LAGg_CFG_UP) (m.rd (RTE_LAGg_CFG g) fRTE_LAGg_CFG_MEMBERS) != 0

/-- The frames that HIF holds, and the bytes of POSTD data (R605). -/
def Mach.hifRoom (m : Mach) (extra : Nat) : Bool :=
  decide (m.hif.frames.length < 4096 ∧ ((m.hif.frames.filter fun f => f.posted).map fun f => f.bytes.length).sum + extra ≤ 262144)

/-- A frame goes to the host with a reason (R484, R491): REFUSED where HIF's hold is full. -/
def Mach.toHost (m : Mach) (h : Nat) (l : List Byte) (reason : Nat) (run : RunId) (st : Nat) : Mach × Nat :=
  if m.hifRoom 0 then
    let x := m.head h
    let f := m.freeVal
    let src := if x.port < 5 then x.port else 4 * 2 ^ 12
    (f.2.hifMod fun s => { s with frames := s.frames ++
      [⟨128 + (Config.hostRing reason).toNat, some (m.pktOf h), l, false, reason, src, f.1.toNat % 2 ^ 60, run⟩] }, st)
  else (m.count RTE_CNT1 fRTE_CNT1_REFUSED, 6)

/-- One entry of SENDV (R483, R484): its status. -/
def Mach.sendvItem (m : Mach) (run : RunId) (it : List TWord) : Mach × TWord :=
  let d := payN (it.getD 1 0)
  let w2 := payN (it.getD 2 0)
  let w3 := it.getD 3 0
  let kind := d / 2 ^ 57
  let to_ := d / 2 ^ 54 % 8
  let q := d / 2 ^ 51 % 8
  let nh := d / 2 ^ 35 % 2 ^ 16
  let edit := d % 2 ^ 12
  let spread := w2 / 2 ^ 8 % 256
  let nat := decide ((edit / 4) % 4 ≠ 0)
  let w3ok := if kind = 4 then wTag w3 == tagPTR && ptrClass w3 == 2 && !nat
    else if nat then isInt w3 else wTag w3 == tagNIL
  let refuse := m.itemRefuse (intWord 6)
  if wTag (it.getD 0 0) ≠ tagPKT ∨ wTag (it.getD 1 0) ≠ tagDESC ∨ !isInt (it.getD 2 0) ∨ !w3ok ∨ 4 < kind ∨
      (d / 2 ^ 12) % 2 ^ 23 ≠ 0 ∨ edit / 2 ^ 9 ≠ 0 ∨ (kind = 0 ∧ 4 < to_) ∨ (kind = 1 ∧ 1 < to_) then refuse
  else match m.handle (it.getD 0 0) with
    | none => m.itemStale
    | some h =>
      if kind = 2 then (m.refAct run h 0, intWord 0)
      else
        let r := m.frameBytes h
        match r.2 with
        | none => r.1.itemRefuse (intWord 6)
        | some l =>
          let e := r.1.sendEdit edit nh spread (if nat then some (payN w3) else none) l
          let send (x : Mach) (p : Nat) (b : List Byte) : Mach × TWord :=
            if x.maxLen p < b.length + 4 then
              let y := (x.count RTE_CNT1 fRTE_CNT1_TOO_BIG).toHost h b 2 run 3
              (y.1, intWord y.2)
            else if (x.head h).off + l.length < b.length then x.itemRefuse (intWord 6)
            else
              let y := x.txQueue p q ⟨h, b.length, edit.testBit 8, w2 % 256, if b = l then none else some b, run⟩
              if y.2 then (y.1, intWord 0) else (y.1.refAct run h 0, intWord 2)
          match e.2 with
          | .error (st, b) =>
            if st = 4 then let y := e.1.toHost h b 1 run 4; (y.1, intWord y.2) else e.1.itemRefuse (intWord 6)
          | .ok b =>
            if kind = 0 then send e.1 to_ b
            else if kind = 1 then
              if e.1.lagUp to_ then send e.1 (e.1.lagPort to_ spread) b
              else ((e.1.count RTE_CNT1 fRTE_CNT1_NO_MEMBER).refAct run h 0, intWord 5)
            else if kind = 3 then let y := e.1.toHost h b (w2 / 2 ^ 16 % 256) run 0; (y.1, intWord y.2)
            else if e.1.dramTop < ptrAddr w3 + b.length then e.1.itemRefuse (intWord 6)
            else ((e.1.dramPut (ptrAddr w3) b).refAct run h 0, intWord 0)

/-- SENDV (R478, R484). -/
def Mach.sendvUnit (m : Mach) (n id : Nat) : Mach :=
  m.unitServe n id 0x60 2 fun m a run => m.rteRequest a 4 1 32 fun x _ it => let y := x.sendvItem run it; (y.1, [y.2])

/-- SEND of an uplink port (R458, R459). -/
def Mach.sendUnit (m : Mach) (n id p : Nat) : Mach :=
  m.unitServe n id (0x50 + p) 1 fun m a run =>
    let w (i : Nat) : TWord := a.src.getD i 0
    let d := payN (w 1)
    let len := payN (w 2)
    if 4 < p ∨ a.len ≠ 1 ∨ wTag (w 0) ≠ tagPKT ∨ wTag (w 1) ≠ tagDESC ∨ d % 2 ^ 48 ≠ 0 ∨ !isInt (w 2) ∨ len < 64 ∨
        m.maxLen p < len + 4 ∨ wTag (w 3) ≠ tagNIL then (m, stREFUSED, [])
    else match m.handle (w 0) with
      | none => (m.count RTE_CNT1 fRTE_CNT1_STALE, stREFUSED, [])
      | some h =>
        let r := m.txQueue p (d / 2 ^ 57) ⟨h, len, d / 2 ^ 56 % 2 == 1, d / 2 ^ 48 % 256, none, run⟩
        (r.1, if r.2 then 0 else stREFUSED, [])

/-! ### Intake (R481, R482, R603) -/

/-- The words of a frame's stretches in class SRAM, each with the address of its first word. -/
def Mach.spanReads (m : Mach) : List (Nat × Nat) → List (Nat × List Read)
  | [] => []
  | (a, k) :: r => (a / 16 * 16, (m.sramReads (a / 16 * 16) ((a % 16 + k + 15) / 16)).2) :: m.spanReads r

/-- A frame that RTE cannot read ends, and is freed (R33, R668). -/
def Mach.frameEnds (m : Mach) (h : Nat) : Mach :=
  let x := m.head h
  let l := match x.spill with
    | some s => [(m.spillAddr s, (m.dramReads (m.spillAddr s) ((x.len + 15) / 16)).2)]
    | none => m.spanReads (cellSpans x.len x.off (h :: x.cells))
  match l.find? fun e => (badWord e.1 e.2).isSome with
  | some e => (m.unitEnds portRTE e.1 e.2).consume h
  | none => m.consume h

/-- Parse a frame into an intake queue (R481, R482); a poisoned frame is freed (R33, R668). -/
def Mach.parseInto (m : Mach) (q : Nat) (a : Arrive) : Mach :=
  let r := m.frameBytes a.head
  match r.2 with
  | none => r.1.frameEnds a.head
  | some l =>
    let words := [mkWord tagDESC (BitVec.ofNat 60 (parseWord1 l a.source a.port a.pcp)), mkWord tagTIME a.entry,
      intWord ((m.head a.head).len + a.ts * 2 ^ 15)] ++ (parseKey l).map intWord
    r.1.rteMod fun s => { s with intake := tabMod [] s.intake q (· ++ [⟨a.head, words, a.marked, a.late⟩]) }

/-- The frame that a descriptor item names (R456, R602); none where it names no frame. -/
def Mach.arriveOf (m : Mach) (host : Bool) (w : List TWord) : Option Arrive :=
  let v (i : Nat) : Nat := payN (w.getD i 0)
  let h := v 0 / 256
  let entry := BitVec.ofNat 60 (v 2 + v 3 % 2 ^ 28 * 2 ^ 32)
  if w.any (fun x => !isInt x) ∨ (m.head h).ref = 0 ∨ (m.head h).off ≠ v 0 % 256 then none
  else if host then some ⟨h, 2, v 1 / 2 ^ 15 % 32, 0, entry, v 1 / 2 ^ 21 % 256 + v 1 / 2 ^ 20 % 2 * 256, false, false⟩
  else some ⟨h, 0, v 1 / 2 ^ 18 % 8, v 1 / 2 ^ 14 % 8, entry, 0, false, false⟩

/-- Intake queue `q` takes its next frame and parses it (R481). -/
def Mach.intake (m : Mach) (q : Nat) : Mach :=
  if !m.bit RTE_CTL fRTE_CTL_RUN ∨ !m.bit (RTE_INq q) fRTE_INq_EN ∨ 2048 ≤ (tabGet [] m.rte.intake q).length then m
  else if m.bit (RTE_INq q) fRTE_INq_AIR then
    match m.rte.air with
    | a :: r => (m.rteMod fun s => { s with air := r }).parseInto q a
    | [] => m
  else
    let ch := m.rd (RTE_INq q) fRTE_INq_CH
    let host := m.rd (FQ_CHn_CFG ch) fFQ_CHn_CFG_PROD == portHIF
    if m.rd (FQ_CHn_CFG ch) fFQ_CHn_CFG_CONS ≠ portRTE then m
    else
      let t := m.chTake ch 64 0
      match t.2 with
      | [w] =>
        let r := t.1.chDeliver ch w
        match r.1.arriveOf host r.2.raw32 with
        | some a => r.1.parseInto q a
        | none => r.1
      | _ => t.1

/-! ### LAG (R493) -/

/-- The operative map of a group at a beat start: buckets of members that are down go to the members that are up, in turn. -/
def Mach.lagMap (m : Mach) (g : Nat) : Mach :=
  let up := (List.range 4).filter fun p => (Nat.land (m.rd (RTE_LAGg_CFG g) fRTE_LAGg_CFG_UP)
    (m.rd (RTE_LAGg_CFG g) fRTE_LAGg_CFG_MEMBERS)).testBit p
  let step (s : Nat × Tab W32) (k : Nat) : Nat × Tab W32 :=
    let w := m.reg (RTE_LAGg_MAPj g (k / 16))
    let p := w.toNat / 4 ^ (k % 16) % 4
    let ok := up == [] || up.contains p
    let v := if ok then p else up.getD (s.1 % up.length) 0
    (if ok then s.1 else s.1 + 1, tabMod 0 s.2 (16 * g + k / 16) fun x => x + BitVec.ofNat 32 (v * 4 ^ (k % 16)))
  let base := m.rte.lag.filter fun e => e.1 / 16 != g
  m.rteMod fun r => { r with lag := ((List.range 256).foldl step (0, base)).2 }

/-- The beat-start work of the groups in use. -/
def Mach.lagBeat (m : Mach) : Mach := m.forEach [0, 1] fun x g => if x.bit (RTE_LAGg_CFG g) fRTE_LAGg_CFG_EN then x.lagMap g else x

/-! ### Spill (R494, R495) -/

/-- The copy of a frame is written (R494), or was abandoned because the frame has advanced (R495). -/
def Mach.spillDone (m : Mach) (h : Nat) : Mach :=
  let x := m.head h
  match x.copying with
  | none => m
  | some s =>
    let near := match m.txPlace h with | some i => decide (i ≤ m.unspill) | none => true
    let r := m.frameBytes h
    match (if near then none else r.2) with
    | none => ((r.1.rteMod fun y => { y with slots := tabSet false y.slots s false }).setHead h { x with copying := none }).spillCheck
    | some l =>
      (((((Mach.dramBytes (l.length / 16 + 1) r.1 (m.spillAddr s) l).freeCells x.cells).setHead h
        { x with copying := none, spill := some s, cells := [] }).count RTE_CNT0 fRTE_CNT0_SPILLS).count RTE_STAT
          fRTE_STAT_SPILLED).pauseCheck x.port |>.spillCheck

/-- A spilled frame within UNSPILL of the head returns to packet SRAM (R495). -/
def Mach.unspillDone (m : Mach) (h : Nat) : Mach :=
  let x := m.head h
  match x.spill, m.txPlace h with
  | some s, some i =>
    let need := (x.off + x.len + 255) / 256 - 1
    if m.unspill < i ∨ m.cellsFree < need then m
    else
      let r := m.frameBytes h
      match r.2 with
      | none => r.1
      | some l =>
        let t := Mach.takeCells need r.1
        ((((t.1.rteMod fun y => { y with slots := tabSet false y.slots s false }).setHead h { x with spill := none, cells := t.2 }).wr
          RTE_STAT fRTE_STAT_SPILLED (m.rd RTE_STAT fRTE_STAT_SPILLED - 1)).putSpans (cellSpans x.len x.off (h :: t.2)) l)
            |>.pauseCheck x.port |>.spillCheck
  | _, _ => m

end Sys2Proof.Machine
end

