-- ==== Sys2Proof/Machine/HifFrames.lean ====
section
/-! DEFINITION. Block HIF: the packet rings in both directions and the diagnostic window (R601 to R608). -/

namespace Sys2Proof.Machine

open Sys2Proof

/-! ### From the host (R601 to R603) -/

/-- LEN, FLAGS and TSTAG of a packet-from-host entry. -/
def fhLen (e : List Byte) : Nat := numLE (slice 0 e 8 2)
def fhFlags (e : List Byte) : Nat := numLE (slice 0 e 0xA 1)
def fhTag (e : List Byte) : Nat := numLE (slice 0 e 0xB 1)

/-- The bytes a frame's entries name. -/
def fhTotal (l : List (List Byte)) : Nat := (l.map fhLen).sum

/-- Whether a frame's entries keep the limits of R601. -/
def fhGood (l : List (List Byte)) : Bool :=
  let n := l.length
  decide (1 ≤ n ∧ n ≤ 16 ∧ fhTotal l ≤ 16384) && l.all (fun e => decide (1 ≤ fhLen e ∧ fhLen e ≤ 16384)) &&
    (List.range n).all fun i =>
      let f := fhFlags (l.getD i [])
      (f % 2 == 1) == (i == 0) && (f / 2 % 2 == 1) == (i + 1 == n)

/-- Take entries of a from-host ring: its device INDEX passes them, an INPUT record each (R602, R673). -/
def Mach.fhTake (m : Mach) (r : Nat) (l : List (List Byte)) : Mach :=
  m.forEach l fun x e =>
    let i := (x.getRing r).idx
    (x.journal 2 portHIF 0 0 (r + 256 * (i % 2 ^ 24)) (codesOf (slice 0 e 0 32))).ringMod r fun y =>
      { y with idx := (y.idx + 1) % 2 ^ 32, taken := (y.idx + 1) % 2 ^ 32, progress := true }

/-- HOST_FRAME_TAKE: one frame, as its entries and buffers give it. It waits for cells, and a frame beyond the limits is dropped
and counted (R601, R602). -/
def Mach.hostFrame (m : Mach) (r : Nat) (l : List (List Byte)) (data : List Byte) : Mach :=
  let x := m.getRing r
  if r < 160 ∨ 191 < r ∨ !m.ringOpen r ∨ l = [] ∨ x.waiting < l.length then m
  else if !fhGood l then (m.fhTake r l).count HIF_CNT0 fHIF_CNT0_TX_BAD
  else
    let n := fhTotal l
    if m.cellsFree < max 1 ((m.headroom + n + 255) / 256) then m
    else
      let s := m.storeFrame (slice 0 data 0 n) 5 0
      match s.2 with
      | none => m
      | some h =>
        let e := l.headD []
        let t := s.1.timePayload.toNat
        let w := bytesLE 4 (256 * h + (s.1.head h).off) ++
          bytesLE 4 (n + (r - 160) * 2 ^ 15 + fhFlags e / 4 % 2 * 2 ^ 20 + fhTag e * 2 ^ 21) ++ bytesLE 4 (t % 2 ^ 32) ++ bytesLE 4 (t / 2 ^ 32)
        let y := (s.1.fhTake r l).chFrom portHIF x.ch (sideWords true true 16 0 true 0 true [encodeCode (datumOf w)])
        if s.1.chTakes portHIF x.ch then y else y.consume h

/-! ### To the host (R604 to R607) -/

/-- The DESC of a POST or POSTD: ring, REASON, SOURCE; none outside R605. -/
def postDesc (w : TWord) : Option (Nat × Nat × Nat) :=
  let d := payN w
  if wTag w ≠ tagDESC ∨ d % 2 ^ 33 ≠ 0 ∨ 4 < d / 2 ^ 44 % 8 then none
  else some (128 + d / 2 ^ 55, d / 2 ^ 47 % 256, d / 2 ^ 44 % 8 * 2 ^ 12 + d / 2 ^ 33 % 2 ^ 11)

/-- Put a frame into HIF's hold (R605). -/
def Mach.postFrame (m : Mach) (f : HFrame) : Mach := m.hifMod fun h => { h with frames := h.frames ++ [f] }

/-- POST (R605). -/
def Mach.postUnit (m : Mach) (n id : Nat) : Mach :=
  m.unitServe n id 0x70 1 fun m a run =>
    let w (i : Nat) : TWord := a.src.getD i 0
    match postDesc (w 1), (if wTag (w 0) = tagPKT then m.handle (w 0) else none) with
    | some (r, reason, source), some h =>
      if a.len ≠ 1 ∨ a.tagMode ∨ wTag (w 2) ≠ tagTIME ∨ wTag (w 3) ≠ tagNIL ∨ !m.hifRoom 0 then (m, stREFUSED, [])
      else
        let b := m.frameBytes h
        match b.2 with
        | some l => (b.1.postFrame ⟨r, some (w 0), l, false, reason, source, (wPay (w 2)).toNat, run⟩, 0, [])
        | none => (b.1, stREFUSED, [])
    | _, _ => (m, stREFUSED, [])

/-- POSTD (R605): the words after the first code word carry the bytes; one that is POISON refuses the PUT (R767). -/
def Mach.postdUnit (m : Mach) (n id : Nat) : Mach :=
  m.unitServe n id 0x70 2 fun m a run =>
    let w (i : Nat) : TWord := a.src.getD i 0
    let len := payN (w 0)
    match postDesc (w 1) with
    | some (r, reason, source) =>
      if a.len < 2 ∨ 64 < a.len ∨ a.tagMode ∨ !isInt (w 0) ∨ len = 0 ∨ 16 * (a.len - 1) < len ∨ wTag (w 2) ≠ tagTIME ∨ wTag (w 3) ≠ tagNIL ∨
          (a.src.drop 4).any (fun x => wTag x == tagPOISON) ∨ !m.hifRoom len then (m, stREFUSED, [])
      else
        let l := ((a.src.drop 4).map fun x => bytesLE 4 (payN x % 2 ^ 32)).flatten.take len
        (m.postFrame ⟨r, none, l, true, reason, source, (wPay (w 2)).toNat, run⟩, 0, [])
    | none => (m, stREFUSED, [])

/-- The buffers that a frame of `n` bytes fills, from posted buffers (address, BUFLEN); none where they are too few. -/
def bufFill : Nat → List (Nat × Nat) → Option (List (Nat × Nat))
  | n, [] => if n = 0 then some [] else none
  | n, (a, k) :: r =>
    if n = 0 then some []
    else match bufFill (n - k) r with
      | some l => some ((a, min n k) :: l)
      | none => none

/-- Write a frame's bytes and completed entries from device INDEX `ix` (R604, R607). -/
def Mach.frameOut (m : Mach) (x : Ring) (f : HFrame) : Nat → Bool → List Byte → List (Nat × Nat) → Mach
  | _, _, _, [] => m
  | ix, sop, l, (a, k) :: r =>
    let at_ := x.base + 32 * (ix % 2 ^ x.log2)
    let fl := (if sop then 1 else 0) + (if r.isEmpty then 2 else 0) + 0x80
    let m1 := m.hostWrite a (l.take k)
    let m2 := m1.hostWrite (at_ + 0xA) (bytesLE 2 k ++ bytesLE 1 fl ++ bytesLE 1 f.reason ++ bytesLE 2 f.source)
    let m3 := m2.hostWrite (at_ + 0x14) (bytesLE 4 (if sop then f.bytes.length else 0) ++ bytesLE 8 (if sop then f.time else 0))
    m3.frameOut x f (ix + 1) false (l.drop k) r

/-- The frame that a to-host ring writes next, in acceptance order: none while its run has not committed (R606, R661). -/
def Mach.nextFrame (m : Mach) (r : Nat) : Option HFrame :=
  match m.hif.frames.find? fun f => f.ring == r with
  | some f => if f.prov = 0 then some f else none
  | none => none

/-- The hold without the first frame of a ring. -/
def eraseFrame (r : Nat) : List HFrame → List HFrame
  | [] => []
  | f :: l => if f.ring = r then l else f :: eraseFrame r l

/-- The frame leaves HIF's hold, and its handle is consumed (R605). -/
def Mach.frameGone (m : Mach) (r : Nat) (f : HFrame) : Mach :=
  (m.hifMod fun h => { h with frames := eraseFrame r h.frames }).frameLet f

/-- RING_FRAME_WRITE: the next frame of a to-host ring goes into the buffers posted, `bufs`; a hold begins where they are too few
(R606, R607, R639, R676). -/
def Mach.ringWrite (m : Mach) (r : Nat) (bufs : List (Nat × Nat)) : Mach :=
  let x := m.getRing r
  if r < 128 ∨ 159 < r ∨ !m.ringOpen r ∨ x.waiting < bufs.length ∨ m.held (ringKey r) then m
  else match m.nextFrame r with
    | none => m
    | some f =>
      match bufFill f.bytes.length bufs with
      | some l =>
        let m1 := (m.frameOut x f x.idx true f.bytes l).frameGone r f
        let ix := (x.idx + l.length) % 2 ^ 32
        let m2 := m1.ringMod r fun y => { y with idx := ix, taken := ix, progress := true, hold := none }
        (m2.journal 0x0A portHIF 0 0 r [encodeCode (datumOf (bytesLE 16 x.idx))]).holdOn (ringKey r)
      | none =>
        if x.hold.isSome then m else m.ringMod r fun y => { y with hold := some (max 1 (m.rd HIF_RINGWAIT fHIF_RINGWAIT_BEATS)) }

/-- RINGWAIT_EXPIRY: the last doorbell read of the hold left too few buffers; the whole frame is dropped and counted (R606). -/
def Mach.ringExpiry (m : Mach) (r : Nat) (bufs : List (Nat × Nat)) : Mach :=
  let x := m.getRing r
  match m.nextFrame r with
  | some f =>
    if x.hold = some 0 ∧ x.st = 1 ∧ bufFill f.bytes.length bufs = none then
      ((m.frameGone r f).count HIF_CNT0 fHIF_CNT0_RX_NOBUF).ringMod r fun y => { y with hold := none }
    else m
  | none => m

/-! ### The diagnostic window (R608) -/

/-- The address that an offset of the window stands for. -/
def Mach.diagAddr (m : Mach) (off : Nat) : Nat := m.rd HIF_DIAG fHIF_DIAG_BASE * 2 ^ 28 + off

/-- Bytes of class SRAM: packet SRAM and the table cache (R105). -/
def sramTop : Nat := 0x1C00000

/-- Bytes of class NVM (R527). -/
def nvmTop : Nat := 0x1000000

/-- The word of the window's space that holds an address; none where nothing is mapped. -/
def Mach.diagWord (m : Mach) (a : Nat) : Mach × Option Read :=
  let s := m.rd HIF_DIAG fHIF_DIAG_SPACE
  let w := a / 16 * 16
  if s = 0 ∧ a < m.dramTop then let r := m.dramRead w; (r.1, some r.2)
  else if s = 1 ∧ a < sramTop then let r := m.sramRead w; (r.1, some r.2)
  else if s = 2 ∧ a < nvmTop then let r := m.nvmRead w; (r.1, some r.2)
  else (m, none)

/-- DIAG_READ of the four bytes at an offset: a poisoned word completes with EP and counts; a read that maps to nothing has no
stated data (log 36). -/
def Mach.diagRead (m : Mach) (off : Nat) : Mach :=
  let a := m.diagAddr (off / 4 * 4)
  let r := if m.bit HIF_DIAG fHIF_DIAG_EN then m.diagWord a else (m, none)
  match r.2 with
  | some x =>
    let m1 := (r.1.setAnswer (BitVec.ofNat 32 (numLE (slice 0 (datumBytes (codeData x.code)) (a % 16) 4)))).hifMod fun h =>
      { h with ep := x.poison.isSome }
    if x.poison.isSome then m1.count HIF_DIAGCNT fHIF_DIAGCNT_POISONED else m1
  | none =>
    let f := r.1.freeVal
    (f.2.setAnswer (f.1.extractLsb' 0 32)).hifMod fun h => { h with ep := false }

/-- A code word with four bytes at a place replaced; a poisoned word stays poison (R506). -/
def patchWord (old : Read) (o : Nat) (v : W32) : Code :=
  let l := datumBytes (codeData old.code)
  let d := datumOf (l.take o ++ bytesLE 4 v.toNat ++ l.drop (o + 4))
  if old.poison.isSome then encodePoison d else encodeCode d

/-- Whether a DRAM address lies in the tagged region (R114). -/
def Mach.inTagged (m : Mach) (a : Nat) : Bool :=
  let b := m.reg64 ENG_TAGBASE_LO ENG_TAGBASE_HI
  decide (b ≤ a ∧ a < b + m.rd ENG_TAGLEN fENG_TAGLEN_LEN * 2 ^ 24)

/-- DIAG_WRITE of four bytes at an offset: discarded and counted in non-volatile memory, in the tagged region and beyond usable
DRAM; without effect where nothing is mapped. -/
def Mach.diagWrite (m : Mach) (off : Nat) (v : W32) : Mach :=
  let a := m.diagAddr (off / 4 * 4)
  let s := m.rd HIF_DIAG fHIF_DIAG_SPACE
  if !m.bit HIF_DIAG fHIF_DIAG_EN then m
  else if s = 2 ∨ (s = 0 ∧ (m.inTagged a ∨ m.dramTop ≤ a)) then m.count HIF_DIAGCNT fHIF_DIAGCNT_DISCARDED
  else
    let r := m.diagWord a
    match r.2 with
    | some x =>
      let w := patchWord x (a % 16) v
      if s = 0 then r.1.dramWrite (a / 16 * 16) w else r.1.sramWrite (a / 16 * 16) w
    | none => m

end Sys2Proof.Machine
end

