-- ==== Sys2Proof/Machine/PairOps.lean ====
section
/-! DEFINITION. Block CHN: the roles of a pair, takeover and planned changeover, and CHN's work at a beat start (R629 to R631, R634,
R636 to R649, R675, R677). -/

namespace Sys2Proof.Machine

open Sys2Proof

/-! ### Roles (R629 to R631, R647) -/

/-- Send ROLE (R615). -/
def Mach.roleSend (m : Mach) (dst : Nat) : Mach :=
  let fl := (if m.bit CHN_PAIRCFG fCHN_PAIRCFG_PREFER then 1 else 0) + if m.role = 6 ∨ m.sys.fencePin then 2 else 0
  m.campSend dst 7 (bytesLE 1 m.role ++ bytesLE 1 fl ++ bytesLE 6 m.chn.since ++ bytesLE 8 (m.reg64 ARM_ACTID_LO ARM_ACTID_HI))

/-- The unit becomes STANDBY: it follows TB0 over a pair port, nothing mirrored stands yet, and it says so (R634, R640, R648). -/
def Mach.toStandbyRole (m : Mach) : Mach :=
  let m1 := (m.setRole 4).chnMod fun c => { c with
    token := none, gotToken := true, fenceBar := true, keysBar := true, lagBar := false, recs := [], cfgBuf := [], query := none, pulse := none }
  let m2 := (m1.wr CHN_PAIRSTAT fCHN_PAIRSTAT_MISSING 0).wr CHN_PAIRSTAT fCHN_PAIRSTAT_FTEST_OK 0
  m2.followPair.roleSend m.partnerAddr

/-- The unit becomes ACTIVE or ALONE, from this beat on. -/
def Mach.toServing (m : Mach) (r : Nat) : Mach := (m.setRole r).chnMod fun c => { c with since := m.beat }

/-- ROLE_SEND: every 10 ms a negotiating unit sends ROLE to its partner and HELLO on every guy port (R630). -/
def Mach.roleTick (m : Mach) : Mach :=
  if m.role = 1 then
    let m1 := (m.reachRun m.chn.roleAt).chnMod fun c => { c with roleAt := max m.tim.run c.roleAt + 4000000 }
    ([0, 1].filter fun p => m.bit (CHN_GUYp_STAT p) fCHN_GUYp_STAT_UP).foldl Mach.helloSend (m1.roleSend m.partnerAddr)
  else m

/-- WAIT_MS in steps of 2.5 ns (R658). -/
def Mach.waitSteps (m : Mach) : Nat := 400000 * max 1 (m.rd CHN_PAIRCFG fCHN_PAIRCFG_WAIT_MS)

/-- PAIR_WAIT_EXPIRE: WAIT_MS have passed without a ROLE (R630); the next wait begins. -/
def Mach.pairWait (m : Mach) : Mach :=
  let m0 := m.reachRun (m.chn.waitAt + m.waitSteps)
  let m1 := (m0.chnMod fun c => { c with waitAt := m0.tim.run }).wr CHN_PAIRSTAT fCHN_PAIRSTAT_PARTNER_SEEN 0
  if m.role ≠ 1 then m1
  else if m.bit CHN_PAIRCFG fCHN_PAIRCFG_ALONE_OK then m1.toServing 3
  else m1.event 0x1405 0 []

/-- Two units hold ACTIVE or ALONE and hear each other: the one active since the later beat, or of the higher address on a tie, is
FENCED, its transmit enables forced off (R631). -/
def Mach.resolveTwo (m : Mach) (since : Nat) : Mach :=
  if since < m.chn.since ∨ (since = m.chn.since ∧ m.partnerAddr < m.campAddr) then (m.setRole 6).airCut
  else if m.role = 2 then m.wr CHN_STAT fCHN_STAT_FENCE_DRV 1
  else m

/-- ROLE_RECEIVE from the partner (R630, R631, R647, R648). A serving unit answers a negotiating partner with its ROLE (log 40). -/
def Mach.roleReceive (m : Mach) (l : List Byte) : Mach :=
  match m.campTake l with
  | some (src, 7, p) =>
    if !m.paired ∨ src ≠ m.partnerAddr then m
    else
      let r := numLE (slice 0 p 0 1)
      let fl := numLE (slice 0 p 1 1)
      let since := numLE (slice 0 p 2 6)
      let was := m.chn.partner
      let m1 := (m.chnMod fun c => { c with partner := r, joined := c.joined && r == 4, waitAt := m.tim.run }).wr CHN_PAIRSTAT fCHN_PAIRSTAT_PARTNER_SEEN 1
      let mine := m.rd CHN_PAIRCFG fCHN_PAIRCFG_PREFER
      if m.role = 1 then
        if r = 2 ∨ r = 3 then m1.toStandbyRole
        else if r = 1 then
          let first := if 2 ≤ fl then true else if m.sys.fencePin then false
            else if mine ≠ fl % 2 then mine == 1 else decide (m.campAddr < m.partnerAddr)
          if first then (m1.toServing 2).roleSend src else m1.toStandbyRole
        else m1
      else if m.role = 2 ∨ m.role = 3 then
        if r = 2 ∨ r = 3 then m1.resolveTwo since
        else if r = 1 then (if m.role = 3 then m1.setRole 2 else m1).roleSend src
        else if r = 4 then
          let m2 := (if m.role = 3 then m1.setRole 2 else m1).unfence
          if m.chn.joined ∧ was = 4 then m2 else m2.pairJoin
        else if r = 6 then m1.wr CHN_STAT fCHN_STAT_FENCE_DRV 1
        else m1
      else m1
  | _ => m

/-! ### Takeover (R641 to R645, R649, R677) -/

/-- TOKMISS (R658). -/
def Mach.tokMiss (m : Mach) : Nat := max 2 (m.rd CHN_TOKCTL fCHN_TOKCTL_TOKMISS)

/-- TAKEOVER_QUERY: the missing count has reached TOKMISS (R641). -/
def Mach.takeQuery (m : Mach) : Mach :=
  if m.role ≠ 4 ∨ m.rd CHN_PAIRSTAT fCHN_PAIRSTAT_MISSING < m.tokMiss ∨ m.chn.query.isSome then m
  else if m.inelig ≠ 0 then m.event 0x1407 0 [(1, m.inelig)]
  else (m.chnMod fun c => { c with query := some m.now }).campSend m.partnerAddr 5 (bytesLE 6 m.beat)

/-- PAIR_QUERY_REPEAT: `half` is the number of half milliseconds since the first query (R641). -/
def Mach.queryRepeat (m : Mach) (half : Nat) : Mach :=
  match m.chn.query with
  | some t => if 1 ≤ half ∧ half ≤ 2 then let x := m.reach (t + 500000 * half); x.campSend m.partnerAddr 5 (bytesLE 6 x.beat) else m
  | none => m

/-- TAKEOVER_FENCE at +2 ms: fence, role, ROLE to all, the voltage raise (R641). -/
def Mach.takeFence (m : Mach) : Mach :=
  match m.chn.query with
  | some t =>
    let m1 := ((m.reach (t + 2000000)).chnMod fun c => { c with query := none }).wr CHN_STAT fCHN_STAT_FENCE_DRV 1
    (m1.takeRaise.roleSend 31).event 0x1409 0 [(6, m.beat)]
  | none => m

/-- The voltage of a takeover is not confirmed in time: Hold, TAKEOVER_VR_FAIL (R643). -/
def Mach.takeFail (m : Mach) : Mach :=
  if m.arm.change = 7 ∧ !m.arm.confirmed then
    (m.wr ARM_PROFCTL fARM_PROFCTL_STATUS 6).enterHold.event 0x140C 0 [(1, 6)]
  else m

/-- TAKEOVER_VR_RETRY: the raise is repeated (R643). -/
def Mach.takeRetry (m : Mach) : Mach :=
  if m.role = 5 ∧ m.arm.change = 7 ∧ !m.arm.confirmed then (m.armMod fun a => { a with settle := false }).drive m.arm.target else m

/-- TAKEOVER_SWAP at the beat start after the voltage is confirmed: the shadow bank runs, every key's counter jumps, receive-only
ends (R641, R644). -/
def Mach.takeSwap (m : Mach) : Mach :=
  if m.role = 5 ∧ m.arm.change = 7 ∧ m.arm.confirmed then
    let m1 := (m.wr ARM_STAT fARM_STAT_HOLD 0).swapNow false
    let m2 := m1.armMod fun a => { a with change := 0, confirmed := false, settle := false }
    let j := (m.reg CHN_PNJUMP).toNat
    (m2.wmacMod fun w => { w with keys := w.keys.map fun e => (e.1, if e.2.used then { e.2 with pn := e.2.pn + j, mark := 0 } else e.2) }).chnMod
      fun c => { c with grace := 16, beacons := [0, 1, 2].filter fun x => (m.getRadio x).mode == 2, partner := 0, joined := false }
  else m

/-- A frame re-created in its queue (R677). -/
def Mach.frameRedo (m : Mach) (r : MRec) : Mach :=
  let b (i k : Nat) : Nat := numLE (slice 0 r.bytes i k)
  let x := m.queue r.arg
  let nums := if 24 ≤ r.bytes.length then some (b 16 2, b 18 6) else none
  m.setQueue r.arg (m.headTag { x with frames := x.frames ++ [⟨b 0 5, b 5 3, BitVec.ofNat 60 (b 8 8), 0, false, 0, nums⟩] })

/-- A command taken again: `d` gives its buffer and the data it names, as the host holds them (R677). -/
def Mach.cmdRedo (m : Mach) (r : MRec) (d : List Byte × List Byte) : Mach :=
  let k := r.arg % 256
  let c := cmdOf r.bytes (some d.1) d.2 m.beat
  (m.setCmds k (m.cmdsOf k ++ [c])).cmdPump k

/-- TAKEOVER_REPLAY: rings resume at the last OUTCOMMIT, frames and commands without one come again, in that order of sources
(R677). `host` gives, command by command, the indirect buffer and the data. -/
def Mach.takeReplay (m : Mach) (host : List (List Byte × List Byte)) : Mach :=
  if m.chn.grace = 16 ∧ m.role = 5 then
    let l := m.chn.recs
    let m0 := m.chnMod fun c => { c with recs := [] }
    let home (r : MRec) : Nat := numLE (slice 0 r.bytes 0 5) / 16 * 16
    let m1 := m0.forEach (l.filter fun r => r.type == 6 && l.any fun x => x.type == 0x89 && x.arg == home r) fun x r => x.frameRedo r
    let m2 := m1.forEach (l.filter fun r => r.type == 0x0A) fun x r =>
      let ix := (numLE (slice 0 r.bytes 0 4) + 1) % 2 ^ 32
      x.ringMod r.arg fun y => { y with idx := ix, taken := ix }
    let cmds := l.filter fun r => r.type == 2 && isCmdRing (r.arg % 256)
    m2.forEach (cmds.zip ((List.range cmds.length).map fun i => host.getD i ([], []))) fun x e => x.cmdRedo e.1 e.2
  else m

/-- CHN_PAIRCTL.SWITCH (R649): at the frame boundary two frames ahead, or PAIR_LOST where the standby is not eligible. -/
def Mach.switch (m : Mach) : Mach :=
  if m.role ≠ 2 then m
  else if m.chn.partner = 4 ∧ m.chn.peerInelig = 0 ∧ m.chn.gotStoken then m.chnMod fun c => { c with switchAt := some (m.frame + 2) }
  else m.event 0x1407 0 [(1, m.chn.peerInelig)]

/-- The changeover's end: every commit record is acknowledged, so FINAL goes out and the unit lowers itself to TWIN as STANDBY
(R649). -/
def Mach.switchBeat (m : Mach) : Mach :=
  if m.switching ∧ m.chn.sentN ≤ m.chn.ackN then
    let m1 := ((m.tokenSend true).chnMod fun c => { c with switchAt := none }).toStandbyRole
    (m1.drive 3).wr ARM_STAT fARM_STAT_ACT_PROFILE 3
  else m

/-! ### At a beat start (R636 to R638, R644, R675) -/

/-- The TSFs of the three radios at this beat's start (R637). -/
def Mach.tsfMark (m : Mach) : Mach := m.chnMod fun c => { c with tsfAt := [0, 1, 2].map fun x => m.tsf x % 2 ^ 32 }

/-- The standby's lag: the journal position of each beat joins the ones not acknowledged; beyond LAG_BEATS no payload goes out until
the lag has fallen to half of it; a record overwritten before its acknowledgement draws a fresh snapshot (R636, R675). -/
def Mach.lagCheck (m : Mach) : Mach :=
  if !m.mirrors then m.chnMod fun c => { c with marks := [], degraded := false }
  else
    let m1 := m.chnMod fun c => { c with marks := (c.marks ++ [m.rd FLT_JPOS fFLT_JPOS_POS]).take 256 }
    let n := m1.mirrorLag
    let m2 := m1.wr CHN_MIRSTAT fCHN_MIRSTAT_LAG (min 255 n)
    let m3 := if m.lagLimit < n ∧ !m.chn.degraded then (m2.chnMod fun c => { c with degraded := true }).event 0x140E 0 [(1, min 255 n)]
      else if 2 * n ≤ m.lagLimit then m2.chnMod fun c => { c with degraded := false }
      else m2
    if 2 ^ 22 < m.flt.ahead then
      (((m3.fltMod fun f => { f with ahead := 0 }).count FLT_JSTAT fFLT_JSTAT_RESNAPS).event 0x1509 0 [(4, m.rd FLT_JPOS fFLT_JPOS_POS)]).snapSend
    else m3

/-- TOKEN_MISS_COUNT and TOKEN_SEND (R637, R638, R660): the count of the beat before, then this beat's token. -/
def Mach.tokenBeat (m : Mach) : Mach :=
  if m.isFatal then m
  else if m.role = 4 then
    let miss := !m.chn.gotToken
    let m1 := (if miss then (m.count CHN_PAIRSTAT fCHN_PAIRSTAT_MISSING).count CHN_TOKCNT fCHN_TOKCNT_MISSED
      else m.wr CHN_PAIRSTAT fCHN_PAIRSTAT_MISSING 0).chnMod fun c => { c with gotToken := false }
    m1.stokenSend
  else if m.role = 2 then
    let n := if m.chn.gotStoken ∨ m.chn.partner ≠ 4 then 0 else m.chn.stokMiss + 1
    let m1 := m.chnMod fun c => { c with gotStoken := false, stokMiss := min n 5 }
    let m2 := if n = 4 then m1.event 0x1408 0 [] else m1
    if m.switching then m2 else m2.tokenSend false
  else m

/-- CHN's own work at a beat start. -/
def Mach.chnBeat (m : Mach) : Mach :=
  (((m.tsfMark.lagCheck).tokenBeat).switchBeat).chnMod fun c => { c with grace := c.grace - 1 }

end Sys2Proof.Machine
end

