-- ==== Sys2Proof/Machine/SysOps.lean ====
section
/-! DEFINITION. What a switch node and a destination port do with a header word (R20 to R30). -/

namespace Sys2Proof.Machine

open Sys2Proof

/-- An engine whose packet was diverted takes the fault for uncorrectable data at its program counter (R29, R107, R659; where it
strikes is a DESIGN CHOICE, log 68); one without a run has nothing to fault. -/
def Mach.teDiverted (m : Mach) (n : Nat) : Mach :=
  let t := m.getTe n
  let c := t.ctx
  if t.st = .idle ∨ t.st = .faulting then m
  else m.raise n ⟨0x02, c.pc, (t.fetch m.actBank c.pc).toNat, 0, if c.btc = 0 then none else c.bt, c.btc - 1, 0, 7, false⟩

/-- A block whose packet was diverted records it and takes its unit of work again, once; a second diversion ends the unit, which
counts (R29, R659, R668). -/
def Mach.blockDiverted (m : Mach) (port src : Nat) : Mach :=
  let second := m.sys.again.contains src
  ((m.when second fun x => x.count FLT_POISCNT fFLT_POISCNT_BLOCK).sysMod fun x => { x with again := if second then x.again.erase src else x.again ++ [src] }).faultRecord
    ⟨2, port, 0, if second then 0 else 1, 0, 0, 0, 0, 0⟩

/-- The source block of a diverted packet handles it as uncorrectable data (R29, R659). -/
def Mach.sourceDiverted (m : Mach) (src : Nat) : Mach :=
  if Config.rpPort src < 16 then m.teDiverted (Config.rpPort src) else m.blockDiverted (Config.rpPort src) src

/-- Divert a packet to FLT (R29): recorded, counted, with its event. LAST_SNODE, the record's ADDR and the source are those of the
header as received: the spec does not say whether a corrected header gives them (DESIGN CHOICE, log 68). -/
def Mach.divert (m : Mach) (w : Code) : Mach :=
  (((((m.sysMod fun x => { x with hop := .divert, fwd := w }).count SYS_RPSTAT fSYS_RPSTAT_DIVERTED).wr SYS_RPSTAT
    fSYS_RPSTAT_LAST_SNODE (hdrSnode w)).faultRecord ⟨3, portFLT, 0, 0, 0, 0, 0, 0, hdrAddr w⟩).event 0x1503 0
    [(1, hdrSnode w)]).sourceDiverted (hdrSource w)

/-- The packet that an output is sending to a node under a header. -/
def Mach.rpComing (m : Mach) (node : Nat) (w : Code) : Option RpPkt :=
  m.sys.flight.find? fun p => p.going && p.hdr == w && p.out.leadsTo node

/-- A header that goes on from a node: a packet that comes from a neighbour keeps its number, one that enters the pole takes the
next, and its source has got its unit through (R20, R21, R668). -/
def Mach.rpForward (m : Mach) (node : Nat) (v w : Code) : Mach :=
  match m.rpComing node w with
  | some p => (m.rpLeave p).rpEnter node p.id v w
  | none => (m.sysMod fun x => { x with entered := x.entered + 1, again := x.again.erase (hdrSource v) }).rpEnter node m.sys.entered v w

/-- RIDGE_HEADER_ROUTE: a switch node routes a header by the corrected value and forwards the word as received; a packet waits while
its output sends another (R20, R22, R24, R28, R29). -/
def Mach.headerRoute (m : Mach) (node : Nat) (w : Code) : Mach :=
  match (classify w).word w with
  | some v =>
    if hdrReserved v then (match m.rpComing node w with | some p => m.rpLeave p | none => m).divert w else m.rpForward node v w
  | none => (match m.rpComing node w with | some p => m.rpLeave p | none => m).divert w

/-- The key of a destination port, source port and class (R30). -/
def seqKey (w : Code) : Nat := (hdrDest w * 72 + hdrSource w) * 4 + hdrClass w

/-- A destination port takes a header: a gap in SEQ is recorded in the block's BLKFAULT (R30, R763), and the packet's operation is
read (R27). -/
def Mach.seqCheck (m : Mach) (blk : Nat) (w : Code) : Mach :=
  let m1 := m.sysMod fun x => { x with seqs := tabSet none x.seqs (seqKey w) (some (hdrSeq w)), arrived := hdrOperation w }
  match tabGet none m.sys.seqs (seqKey w) with
  | some p => m1.when (hdrSeq w != (p + 1) % 4096) fun x =>
      x.report blk kSeqGap (hdrClass w * 128 + hdrSnode w * 4 + hdrSport w)
  | none => m1

/-- PACKET_ARRIVE: of the packets of a flow on their way, the one sent first arrives (R21). The port reads a header with one bad symbol
by its corrected value (DESIGN CHOICE, log 69); an uncorrectable one reaches no port (R29). -/
def Mach.packetArrive (m : Mach) (blk : Nat) (w : Code) : Mach :=
  match (classify w).word w with
  | none => m
  | some v => match oldestOf (hdrSource v) (hdrClass v) (hdrDest v) m.sys.flight with
    | some p => (m.rpLeave p).seqCheck blk (((classify p.hdr).word p.hdr).getD v)
    | none => m.seqCheck blk v

end Sys2Proof.Machine
end

