-- ==== Sys2Proof/Machine/RegWrite.lean ====
section
/-! DEFINITION. Software's write of any register (R10 to R13), block by block, with the rules of single registers. A register
that no rule names takes the write as its row says. `linear` is what a PMBus regulator answers to VOUT_MODE when the write
enables it (R86, log 12). -/

namespace Sys2Proof.Machine

open Sys2Proof

/-- The device with every staged value live, for the rules that judge what a write would make (R651). -/
def Mach.asStaged (m : Mach) : Mach := m.forEach m.stage fun x e => x.setReg e.1 (x.reg e.1 ^^^ e.2)

/-- AUTO ends at once; an armed swap stays (R721). -/
def Mach.autoCancel (m : Mach) : Mach :=
  if m.autoHolds then (m.sysMod fun s => { s with auto := 0 }).wr SYS_BOOTSTAT fSYS_BOOTSTAT_AUTO_BUSY 0 else m

/-- SYS: BOOTCTL holds the site flag and cancels AUTO (R726). -/
def Mach.sysWrite (m : Mach) (o : Nat) (v : W32) : Mach :=
  match o with
  | 0x1C => (m.wr SYS_BOOTCTL fSYS_BOOTCTL_TB4_SITE (getFld v fSYS_BOOTCTL_TB4_SITE)).when
      (getFld v fSYS_BOOTCTL_AUTO_CANCEL == 1) Mach.autoCancel
  | _ => m.plainWrite o v

/-- ARM (R91, R721). -/
def Mach.armWrite (m : Mach) (o : Nat) (v : W32) (linear : Bool) : Mach :=
  match o with
  | 0x04 => m.unlessAuto ARM_LDCTL fun x => x.ldCtlWrite v
  | 0x20 => m.unlessAuto ARM_SWAPCTL fun x =>
      (x.when (getFld v fARM_SWAPCTL_ARM == 1) Mach.swapArm).when (getFld v fARM_SWAPCTL_CANCEL == 1) Mach.swapCancel
  | 0x24 => m.unlessAuto ARM_PROFCTL fun x =>
      let t := getFld v fARM_PROFCTL_TARGET
      if getFld v fARM_PROFCTL_GO = 1 then x.profileGo t else x.wr ARM_PROFCTL fARM_PROFCTL_TARGET t
  | 0x28 => m.vrWrite v linear
  | 0x40 => (m.plainWrite ARM_MMCTL (putFld v fARM_MMCTL_MINCLR 0)).when (getFld v fARM_MMCTL_MINCLR == 1) Mach.minClear
  | 0x48 => m.unlessAuto ARM_PLINTH fun x => x.plinthSet v
  | 0x5C => m.keyRevoke (v.toNat % 2)
  | _ => m.plainWrite (0x10000 * blkARM + o) v

/-- FQ (R210, R211, R216). -/
def Mach.fqWrite (m : Mach) (o : Nat) (v : W32) : Mach :=
  let ch := o / 0x20
  if 256 ≤ ch then m.plainWrite (0x10000 * blkFQ + o) v
  else match o % 0x20 with
    | 0x00 => m.chCfg ch v
    | 0x04 => if 248 ≤ ch then m else m.plainWrite (FQ_CHn_STORE ch) v
    | 0x18 => m.chCommand ch (v.toNat % 4)
    | _ => m.plainWrite (0x10000 * blkFQ + o) v

/-- CHAN_PENDING: a staged channel or static puncturing is not yet in force (R241, R272). -/
def Mach.chanMark (m : Mach) (x : Nat) : Mach :=
  if m.reg (RFx_CHAN x) ≠ m.radioChan x ∨ (m.reg (BBx_PUNCT x)).setWidth 16 ≠ (m.getRadio x).punct then
    m.wr (RFx_STAT x) fRFx_STAT_CHAN_PENDING 1
  else m

/-- A write of RFx_CHAN: ignored and reported for a channel that R240 does not accept, and staged otherwise; outside staging R12
alone acts. -/
def Mach.chanStage (m : Mach) (x : Nat) (v : W32) : Mach :=
  if m.staged ∧ chanSubs x (v &&& 0xFFF) = none then m.ignored (RFx_CHAN x) else (m.plainWrite (RFx_CHAN x) v).chanMark x

/-- RFL, RFM and RFH (R261, R262). -/
def Mach.rfWrite (m : Mach) (x o : Nat) (v : W32) : Mach :=
  match o with
  | 0x00 => m.radioCtl x v
  | 0x08 => m.chanStage x v
  | 0x1C => m.ovpwrClear x v
  | _ => m.plainWrite (RFx_CTL x + o) v

/-- BBL, BBM and BBH (R272, R274, R295). -/
def Mach.bbWrite (m : Mach) (x o : Nat) (v : W32) : Mach :=
  match o with
  | 0x04 => m.detCtl x v
  | 0x08 => if m.staged ∧ staticOk x (m.plainRead (RFx_CHAN x)) (v.setWidth 16) = false then m.ignored (BBx_PUNCT x)
      else (m.plainWrite (BBx_PUNCT x) v).chanMark x
  | _ => m.plainWrite (BBx_CTL x + o) v

/-- IDM (R246, R264). -/
def Mach.idmWrite (m : Mach) (o : Nat) (v : W32) : Mach :=
  if o < 0x60 ∧ o % 0x20 = 0 then
    (m.wr (IDM_BUSk_CTL (o / 0x20)) fIDM_BUSk_CTL_FAST (getFld v fIDM_BUSk_CTL_FAST)).when
      (getFld v fIDM_BUSk_CTL_RESCAN == 1) fun x => x.idRescan (o / 0x20)
  else m.plainWrite (0x10000 * blkIDM + o) v

/-- The BSSs affiliated with an AP MLD. -/
def Mach.mldMembers (m : Mach) (d : Nat) : List Nat :=
  (List.range 48).filter fun i => m.bit (WMAC_BSSi_MLD i) fWMAC_BSSi_MLD_MEMBER && m.rd (WMAC_BSSi_MLD i) fWMAC_BSSi_MLD_MLD == d

/-- Whether an AP MLD breaks R298: two BSSs on one radio, a link ID twice, or link ID 15. -/
def Mach.mldBad (m : Mach) (d : Nat) : Bool :=
  let l := m.mldMembers d
  let link (i : Nat) : Nat := m.rd (WMAC_BSSi_MLD i) fWMAC_BSSi_MLD_LINK_ID
  l.any fun i => link i == 15 || l.any fun j => j != i && (j / 16 == i / 16 || link j == link i)

/-- Whether a radio in mode ON has enabled BSSs but not exactly one transmitted BSSID (R297). -/
def Mach.bssSetBad (m : Mach) (x : Nat) : Bool :=
  (m.getRadio x).mode == 2 && ((List.range 16).any fun b => m.bit (WMAC_BSSi_CFG (16 * x + b)) fWMAC_BSSi_CFG_EN) &&
    (m.beaconBss x).length != 1

/-- WMAC (R297, R298, R338). -/
def Mach.wmacWrite (m : Mach) (o : Nat) (v : W32) : Mach :=
  let a := 0x10000 * blkWMAC + o
  if o = 0 then
    let bad := getFld v fWMAC_CTL_RUN == 1 && !m.bit WMAC_CTL fWMAC_CTL_RUN && [0, 1, 2].any m.bssSetBad
    if bad then (m.plainWrite a (putFld v fWMAC_CTL_RUN 0)).report blkWMAC kRefused 0 else (m.plainWrite a v).servingShow
  else if 0x100 ≤ o ∧ o < 0x400 ∧ o % 0x10 = 0xC then
    let m1 := m.plainWrite a v
    if m.staged ∧ m1.asStaged.mldBad (getFld v fWMAC_BSSi_MLD_MLD) then m.ignored a else m1
  else m.plainWrite a v

/-- ASCH (R348, R372). -/
def Mach.aschWrite (m : Mach) (o : Nat) (v : W32) : Mach :=
  if o = 0x0C then (m.when (getFld v fASCH_TPLCTL_SEAL == 1) Mach.tplSeal).when (getFld v fASCH_TPLCTL_CLEAR == 1) Mach.tplClear
  else if o = 0x10 then m.tplWrite 0 ASCH_TPLCAP v
  else if 0x20 ≤ o ∧ o < 0x40 ∧ o % 4 = 0 then m.tplWrite (1 + (o - 0x20) / 4) (0x10000 * blkASCH + o) v
  else m.plainWrite (0x10000 * blkASCH + o) v

/-- UPL (R454, R468): a mode that the port lacks is ignored. -/
def Mach.uplWrite (m : Mach) (o : Nat) (v : W32) : Mach :=
  let a := 0x10000 * blkUPL + o
  let p := o / 0x100
  if o < 0x500 ∧ o % 0x100 = 0 then
    if !m.staged || modeOk p (getFld v fUPL_Pp_CFG_MODE) then m.plainWrite a v
    else (m.plainWrite a (putFld v fUPL_Pp_CFG_MODE (m.rd a fUPL_Pp_CFG_MODE))).ignored a
  else if o < 0x500 ∧ o % 0x100 = 0x18 then
    (m.plainWrite a (putFld v fUPL_Pp_GCTL_CHANGE 0)).when (getFld v fUPL_Pp_GCTL_CHANGE == 1) fun x => x.gclChange p
  else m.plainWrite a v

/-- RTE (R486, R493). -/
def Mach.rteWrite (m : Mach) (o : Nat) (v : W32) : Mach :=
  let a := 0x10000 * blkRTE + o
  if 0x100 ≤ o ∧ o < 0x200 ∧ o % 0x10 = 8 then
    let t := (o - 0x100) / 0x10
    let m1 := m.plainWrite a v
    if m.staged ∧ getFld v fRTE_TBLt_CFG_KIND ≠ 0 ∧ m1.asStaged.tblClash t then
      (m.plainWrite a (putFld v fRTE_TBLt_CFG_KIND (getFld (m.plainRead a) fRTE_TBLt_CFG_KIND))).report blkRTE kRefused t
    else m1
  else if o = 0x300 ∨ o = 0x304 then
    let m1 := m.plainWrite a v
    m1.wr a fRTE_LAGg_CFG_UP (bitsOf 4 fun p => (m1.rd a fRTE_LAGg_CFG_MEMBERS).testBit p && m1.bit (UPL_Pp_STAT p) fUPL_Pp_STAT_LINK)
  else m.plainWrite a v

/-- MEM (R522, R544). -/
def Mach.memWrite (m : Mach) (o : Nat) (v : W32) : Mach :=
  match o with
  | 0x00 => (m.plainWrite MEM_CTL (putFld v fMEM_CTL_TRAIN 0)).when (getFld v fMEM_CTL_TRAIN == 1) Mach.memTrain
  | 0x10 => m.refCtlWrite v
  | _ => m.plainWrite (0x10000 * blkMEM + o) v

/-- CHK (R536 to R543): GO starts a scan; ABORT is a command of its own. -/
def Mach.chkWrite (m : Mach) (o : Nat) (v : W32) : Mach :=
  let a := 0x10000 * blkCHK + o
  if o < 0x200 ∧ o % 0x40 = 0 then
    if getFld v fCHK_Cc_CTL_GO = 1 then m.chkGo (o / 0x40) v
    else m.plainWrite a (putFld v fCHK_Cc_CTL_ABORT 0)
  else m.plainWrite a v

/-- TIM (R552, R564, R567, R570). -/
def Mach.timWrite (m : Mach) (o : Nat) (v : W32) : Mach :=
  if o < 0x180 then (if o / 0x40 = 4 then m else m.tbWrite (o / 0x40) (o % 0x40) v)
  else if o = 0x200 then m.timCtl v
  else if o = 0x204 then
    (m.wr TIM_CAPCTL fTIM_CAPCTL_PIN_EN (getFld v fTIM_CAPCTL_PIN_EN)).when (getFld v fTIM_CAPCTL_GO == 1) Mach.capture
  else if o = 0x300 then m.guyCtl 0 v
  else if o = 0x320 then m.guyCtl 1 v
  else m.plainWrite (0x10000 * blkTIM + o) v

/-- HIF (R574, R577). -/
def Mach.hifWrite (m : Mach) (o : Nat) (v : W32) : Mach :=
  if 0x8000 ≤ o ∧ o < 0xA000 then m.msixWrite (o - 0x8000) v
  else if o = 0 then m.hifCtl v
  else if 8 ≤ o ∧ o ≤ 0x1C then m.hifBase (0x10000 * blkHIF + o) v
  else m.plainWrite (0x10000 * blkHIF + o) v

/-- A write of CHN_PNJUMP, refused below BLOCK × 1024 (R645). -/
def Mach.pnJump (m : Mach) (v : W32) : Mach :=
  if v.toNat < m.rd WMAC_PNCTL fWMAC_PNCTL_BLOCK * 1024 then m.refused CHN_PNJUMP 0 else m.plainWrite CHN_PNJUMP v

/-- A write of CHN_PAIRCFG: which peers are the partner, and the role (R629). -/
def Mach.pairCfg (m : Mach) (v : W32) : Mach := (((m.plainWrite CHN_PAIRCFG v).pairShow 0).pairShow 1).pairCheck

/-- CHN (R629, R633, R645, R647, R649). -/
def Mach.chnWrite (m : Mach) (o : Nat) (v : W32) : Mach :=
  match o with
  | 0x20 => m.pairCfg v
  | 0x24 => ((m.when (getFld v fCHN_PAIRCTL_FTEST == 1) Mach.ftest).when (getFld v fCHN_PAIRCTL_SWITCH == 1) Mach.switch).when
      (getFld v fCHN_PAIRCTL_UNFENCE == 1) Mach.unfence
  | 0x34 => m.pnJump v
  | _ => m.plainWrite (0x10000 * blkCHN + o) v

/-- FLT (R671, R683): JRUN stays set while an armature is active; RESTORE restores. -/
def Mach.fltWrite (m : Mach) (o : Nat) (v : W32) : Mach :=
  match o with
  | 0x00 =>
    if getFld v fFLT_CTL_JRUN = 0 ∧ m.jrun ∧ m.actValid then (m.plainWrite FLT_CTL (putFld v fFLT_CTL_JRUN 1)).ignored FLT_CTL
    else (m.plainWrite FLT_CTL v).wr FLT_STAT fFLT_STAT_JRUNNING (getFld v fFLT_CTL_JRUN)
  | _ =>
    let m1 := m.plainWrite (0x10000 * blkFLT + o) v
    if 0x10000 * blkFLT + o = FLT_CKCTL then m1.ckRestore else m1

/-- NVM (R531, R532). -/
def Mach.nvmRegWrite (m : Mach) (o : Nat) (v : W32) : Mach :=
  if o = 4 then m.lockKey v
  else if 0x100 ≤ o ∧ o < 0x180 ∧ o % 4 = 0 then m.regrecWrite ((o - 0x100) / 4) v
  else m.plainWrite (0x10000 * blkNVM + o) v

/-- Whether a register lies behind the MSH bridge: block MSH, and the lantern core's registers in ENG (R19, R144). -/
def bridged (b o : Nat) : Bool := b == blkMSH || (b == blkENG && decide (0x1000 ≤ o ∧ o < 0x100C))

/-- A write of a register of a block by its offset; the bridge discards one while the lantern is Off (R19). -/
def Mach.blockWrite (m : Mach) (b o : Nat) (v : W32) (linear : Bool) : Mach :=
  if bridged b o && !m.lanternOn then m.wr SYS_DOMSTAT fSYS_DOMSTAT_BRIDGE_ERR 1
  else if o = 0xFF00 then m.pwrCtl b v
  else if o = 0xFF08 then (if v = 0 then m.setReg (BLKFAULT b) 0 else m)
  else if 0xFF00 ≤ o then m.plainWrite (0x10000 * b + o) v
  else match b with
    | 0 => m.sysWrite o v
    | 1 => m.armWrite o v linear
    | 3 => if o = 0x400 then m.sendNamed v else m.plainWrite (0x10000 * blkDSP + o) v
    | 4 => m.fqWrite o v
    | 5 => m.rfWrite 0 o v
    | 6 => m.rfWrite 1 o v
    | 7 => m.rfWrite 2 o v
    | 8 => m.bbWrite 0 o v
    | 9 => m.bbWrite 1 o v
    | 10 => m.bbWrite 2 o v
    | 11 => m.wmacWrite o v
    | 12 => m.aschWrite o v
    | 13 => m.mshWrite o v
    | 14 => m.uplWrite o v
    | 15 => m.rteWrite o v
    | 16 => m.memWrite o v
    | 17 => m.chkWrite o v
    | 18 => m.timWrite o v
    | 19 => m.hifWrite o v
    | 20 => m.chnWrite o v
    | 21 => m.fltWrite o v
    | 22 => m.nvmRegWrite o v
    | 23 => m.idmWrite o v
    | _ => m.plainWrite (0x10000 * b + o) v

/-- Software writes the register at a BAR0 offset; a gated unit that the write reaches wakes (R10 to R13, R696). -/
def Mach.regWrite (m : Mach) (a : Nat) (v : W32) (linear : Bool) : Mach :=
  if a % 4 = 0 ∧ a < 0x180000 then (m.accessWake a).blockWrite (a / 0x10000) (a % 0x10000) v linear else m

end Sys2Proof.Machine
end

