-- ==== Sys2Proof/Machine/State.lean ====
section
/-! DEFINITION. The state of the block: the machine and the queue of the commands that wait, first in, first out. -/

namespace Sys2Proof.Machine

/-- Why a step stops with a fault. The spec gives every command of its table an effect in every state, so there is none
(log 13). -/
inductive Fault where
  deriving DecidableEq, Repr

/-- Why a step is refused. -/
inductive Refusal where
  /-- Raised by the dispatch alone, for a command that has no meaning yet. Safe: the step gives no next state. -/
  | notModelled (mnemonic : String)
  deriving DecidableEq, Repr

/-- The state: everything the spec gives the block, and the queue of waiting commands. -/
structure State where
  m : Mach
  pending : List Instr
  deriving DecidableEq, Repr

/-- The block right after reset, no command waiting. -/
def State.reset : State := ⟨Mach.reset, []⟩

/-- The outcome of a command whose whole effect is on the machine. -/
def State.run (s : State) (f : Mach → Mach) : Host.Outcome State Fault Refusal := .next { s with m := f s.m }

end Sys2Proof.Machine
end

