-- ==== Sys2Proof/Machine/AirRows.lean ====
section
/-! DEFINITION. The meanings of the rows of the Wi-Fi MAC and the air scheduler (R296 to R373). -/

namespace Sys2Proof.Machine

open Sys2Proof

/-! ### Slots, responses, contention (R301 to R317) -/

/-- SLOT_OPEN: the slot at place `i` of the radio's table. -/
def execSlotOpen (x : Fin 3) (i : Nat) (s : State) : Host.Outcome State Fault Refusal := s.run fun m => m.slotOpen x.val i

/-- SLOT_START: the transmit that the MAC forms (R305, R308, log 12). -/
def execSlotStart (x : Fin 3) (p : TxPlan) (s : State) : Host.Outcome State Fault Refusal := s.run fun m => m.slotStart x.val p

/-- SLOT_MISS: the transmit that OBSS_CUT may start instead (R313). -/
def execSlotMiss (x : Fin 3) (p : TxPlan) (s : State) : Host.Outcome State Fault Refusal := s.run fun m => m.slotMiss x.val p

/-- RESPONSE_SEND. -/
def execResponseSend (x : Fin 3) (p : TxPlan) (s : State) : Host.Outcome State Fault Refusal := s.run fun m => m.responseSend x.val p

/-- RESPONSE_TIMEOUT. -/
def execResponseTimeout (x : Fin 3) (s : State) : Host.Outcome State Fault Refusal := s.run fun m => m.responseTimeout x.val

/-- BACKOFF_COUNT: access category, contention window, and the transmit that fits should the counter reach 0. -/
def execBackoffCount (x : Fin 3) (ac cw : Nat) (p : Option TxPlan) (s : State) : Host.Outcome State Fault Refusal :=
  s.run fun m => m.backoff x.val ac cw p

/-! ### Reception and acknowledgement (R319 to R327, R336) -/

/-- MPDU_RECEIVE. -/
def execMpduReceive (x : Fin 3) (u : AirMpdu) (s : State) : Host.Outcome State Fault Refusal := s.run fun m => m.mpduReceive x.val u

/-- BLOCKACK_RECEIVE: the sequence numbers acknowledged for a station and TID. -/
def execBlockackReceive (x : Fin 3) (sta tid : Nat) (seqs : List Nat) (s : State) : Host.Outcome State Fault Refusal :=
  s.run fun m => m.blockAck x.val sta tid seqs

/-- REORDER_TIMEOUT. -/
def execReorderTimeout (sta tid : Nat) (s : State) : Host.Outcome State Fault Refusal := s.run fun m => m.reorderTimeout sta tid

/-! ### Staging (R326, R331 to R335) -/

/-- STAGE: access `id` of the TE, a PUT to unit 0x30 + radio. -/
def execStage (te : Fin 16) (id : Nat) (x : Fin 3) (s : State) : Host.Outcome State Fault Refusal :=
  s.run fun m => m.stagePut te.val id x.val

/-- RESTAGE_DONE: subframe `id` of the radio's staging. -/
def execRestageDone (x : Fin 3) (id : Nat) (s : State) : Host.Outcome State Fault Refusal := s.run fun m => m.restage x.val id

/-! ### The air scheduler (R341 to R373) -/

/-- ENQ. -/
def execEnq (te : Fin 16) (id : Nat) (s : State) : Host.Outcome State Fault Refusal := s.run fun m => m.enq te.val id

/-- ALLOC. -/
def execAlloc (te : Fin 16) (id : Nat) (s : State) : Host.Outcome State Fault Refusal :=
  s.run fun m => m.unitServe te.val id 0x41 1 fun y a run => y.hpRequest a fun z w => z.allocOne w run

/-- HOME_FREE. -/
def execHomeFree (te : Fin 16) (id : Nat) (s : State) : Host.Outcome State Fault Refusal :=
  s.run fun m => m.unitServe te.val id 0x41 2 fun y a run => y.hpRequest a fun z w => z.freeOne w run

/-- TPL_SEAL: a write of ASCH_TPLCTL with SEAL set. -/
def execTplSeal (s : State) : Host.Outcome State Fault Refusal :=
  s.run fun m => m.regWrite ASCH_TPLCTL (putFld 0 fASCH_TPLCTL_SEAL 1) false

/-- TPL_CLEAR: a write of ASCH_TPLCTL with CLEAR set. -/
def execTplClear (s : State) : Host.Outcome State Fault Refusal :=
  s.run fun m => m.regWrite ASCH_TPLCTL (putFld 0 fASCH_TPLCTL_CLEAR 1) false

/-- SAMPLE_ROW_DONE. -/
def execSampleRowDone (s : State) : Host.Outcome State Fault Refusal := s.run Mach.sampleDone

end Sys2Proof.Machine
end

