-- ==== Sys2Proof/Machine/StartOps.lean ====
section
/-! DEFINITION. Start-up of the main domain, AUTO, the loss and return of the main supply, the start and reset of the lantern, and
the die sensors (R16, R38 to R41, R76, R77, R707 to R726, R732 to R735, R741 to R747). -/

namespace Sys2Proof.Machine

open Sys2Proof

/-! ### Reset of the main domain (R16, R723, R734) -/

/-- Whether a register keeps its value through a reset of the main domain: block MSH, the fused key state, LC's own status (R16,
R91, R144, R417, R451). -/
def keptReg (a : Nat) : Bool :=
  a / 0x10000 == blkMSH || a == ARM_KEYSTAT || a == ENG_LC_STAT || a == ENG_LC_FAULT

/-- The channels 248 to 251 through a loss of the main domain: an item still being written is voided (R39). -/
def Chan.complete (c : Chan) : Chan := { Chan.zero with q := (wholeItems (c.q.length + 1) c.q).flatten }

/-- A reset of the main domain: everything at its reset value but the lantern domain, non-volatile memory, the fuses, the pins,
what the device has written to the host's memory, and the lantern-held bits (R16, R42, R43, R723, R726). -/
def Mach.mainReset (m : Mach) : Mach :=
  let r := Mach.reset
  let m1 : Mach := { r with
    regs := m.regs.filter fun e => keptReg e.1
    free := m.free
    lc := m.lc
    mrad := m.mrad
    mlink := m.mlink
    nvm := { m.nvm with keyOnce := false }
    hif := { r.hif with hostMem := m.hif.hostMem }
    chn := { r.chn with enumIn := m.chn.enumIn }
    tim := { r.tim with tb := tabSet Base.zero [] 4 (m.getBase 4), ref := m.tim.ref }
    arm := { r.arm with key0 := m.arm.key0, key1 := m.arm.key1 }
    sys := { r.sys with
      powerGood := m.sys.powerGood, porst := m.sys.porst, perst := m.sys.perst, fencePin := m.sys.fencePin }
    chans := (m.chans.filter fun e => decide (248 ≤ e.1 ∧ e.1 < 252)).foldl
      (fun t e => tabSet Chan.zero t e.1 e.2.complete) [] }
  ((((m1.setReg SYS_DOMSTAT (m.reg SYS_DOMSTAT &&& 0xFF7D)).wr SYS_BOOTCTL fSYS_BOOTCTL_TB4_SITE
    (m.rd SYS_BOOTCTL fSYS_BOOTCTL_TB4_SITE)).wr NVM_STAT fNVM_STAT_LOCKED (m.rd NVM_STAT fNVM_STAT_LOCKED)).poolShow).wr CHN_STAT
      fCHN_STAT_PAIR_FENCE (if m.sys.fencePin then 1 else 0)

/-! ### Verified boot (R710 to R714) -/

/-- The non-volatile memory address of image A (0) or B (1) (R527, R710). -/
def bootAddr (k : Nat) : Nat := 0x80000 * k

/-- The checks of a boot image's header: loader stage 1 over the layout of R711. -/
def bootHeader (l : List Byte) : Option LoadFail :=
  let n := imgLE l 0x08 4
  let end_ := (64 + 8 * imgLE l 0x18 4 + 15) / 16 * 16
  firstFail [
    failIf (slice 0 l 0 4 != [0x46#8, 0x4A#8, 0x42#8, 0x54#8]) 1 0x10 0,
    failIf (imgLE l 0x04 2 != 1 || imgLE l 0x06 2 != 64) 1 0x11 0,
    failIf (n % 16 != 0 || decide (2 ^ 19 < n) || imgLE l 0x20 4 != end_ || imgLE l 0x24 4 != end_ + 16 || n != end_ + 240) 1 0x12 0,
    failIf (imgLE l 0x0C 2 != 0x38A8) 1 0x13 0,
    failIf (decide (0xA1 < imgB l 0x0E) || decide (imgB l 0x0F < 0xA1)) 1 0x14 0]

/-- The init records of a boot image: BAR0 offset and value (R711). -/
def bootInits (l : List Byte) : List (Nat × W32) :=
  (List.range (imgLE l 0x18 4)).map fun i => (imgLE l (64 + 8 * i) 4, BitVec.ofNat 32 (imgLE l (68 + 8 * i) 4))

/-- Whether an init record breaks R712, or R711's multiple of 4. -/
def initBad (e : Nat × W32) : Bool := e.1 % 4 != 0 || decide (0x180000 ≤ e.1) || decide (0x138000 ≤ e.1 ∧ e.1 < 0x13A000)

/-- Check one boot image: its first failure, or its bytes (R712). -/
def Mach.bootCheck (m : Mach) (k : Nat) : Mach × Except Nat (List Byte) :=
  let h := m.nvBytes (bootAddr k) 64
  match bootHeader h.2 with
  | some f => (h.1, .error f.2.1)
  | none =>
    let r := h.1.nvBytes (bootAddr k) (imgLE h.2 0x08 4)
    let l := r.2
    match firstFail [loadSeal l (imgLE l 0x20 4), r.1.loadSign l (imgLE l 0x24 4),
        failIf (decide (65000 < imgLE l 0x18 4) || (bootInits l).any initBad) 1 0x43 0] with
    | some f => (r.1, .error f.2.1)
    | none => (r.1, .ok l)

/-- Check the images that BOOT_SEL names: the one that passes with the higher BOOTSEQ, A on a tie, and the first failure (R710,
R712). -/
def Mach.bootChoose (m : Mach) : Mach × Option (Nat × List Byte) × Option Nat :=
  let sel := m.rd SYS_STRAPS fSYS_STRAPS_BOOT_SEL
  let a : Mach × Option (Except Nat (List Byte)) :=
    if sel = 0 ∨ sel = 1 then let x := m.bootCheck 0; (x.1, some x.2) else (m, none)
  let b : Mach × Option (Except Nat (List Byte)) :=
    if sel = 0 ∨ sel = 2 then let x := a.1.bootCheck 1; (x.1, some x.2) else (a.1, none)
  let fail := match a.2, b.2 with
    | some (.error c), _ => some c
    | _, some (.error c) => some c
    | _, _ => none
  let pick := match a.2, b.2 with
    | some (.ok l), some (.ok r) => if imgLE l 0x10 8 < imgLE r 0x10 8 then some (1, r) else some (0, l)
    | some (.ok l), _ => some (0, l)
    | _, some (.ok r) => some (1, r)
    | _, _ => none
  (b.1, pick, fail)

/-- BOOT_VERIFY: the image chosen, its init records as register writes, its AUTO record (R710 to R713). `linear` answers VOUT_MODE
for a record that enables a PMBus regulator (R86). -/
def Mach.bootVerify (m : Mach) (linear : Bool) : Mach :=
  let c := m.bootChoose
  let m1 := match c.2.2 with
    | some f => (c.1.wr SYS_BOOTSTAT fSYS_BOOTSTAT_BOOT_FAIL 1).wr SYS_BOOTSTAT fSYS_BOOTSTAT_FAILCODE f
    | none => c.1
  match c.2.1 with
  | none => m1
  | some (k, l) =>
    ((m1.wr SYS_BOOTSTAT fSYS_BOOTSTAT_IMAGE k).forEach (bootInits l) fun x e => x.regWrite e.1 e.2 linear).sysMod fun s =>
      { s with autoFlags := BitVec.ofNat 8 (imgB l 0x1C), slotAct := imgB l 0x1D, slotStby := imgB l 0x1E }

/-- PENDING_FALLBACK_MOVE: a pending fallback for the period in force becomes the fallback (R77). -/
def Mach.pendingMove (m : Mach) : Mach :=
  let r := m.nvLoad 5
  if (m.nvSlot 5).units ≠ [] ∧ imgB r.2 0x11 = m.rd ARM_PLINTH fARM_PLINTH_PERIOD then r.1.nvMove 5 4 else r.1

/-- FALLBACK_START_CHECK: the installed fallback in full, or FB_BAD (R77, R714). -/
def Mach.fallbackCheck (m : Mach) : Mach :=
  let r := m.nvLoad 4
  match r.1.loadCheck r.2 (m.nvSlot 4).len true false (fun _ => true) with
  | some _ => r.1.wr SYS_BOOTSTAT fSYS_BOOTSTAT_FB_BAD 1
  | none => r.1

/-! ### The steps (R707, R715 to R718) -/

/-- The step that runs (R726). -/
def Mach.bootStep (m : Mach) : Nat := m.rd SYS_BOOTSTAT fSYS_BOOTSTAT_STEP

/-- Enter a step. -/
def Mach.setStep (m : Mach) (k : Nat) : Mach := m.wr SYS_BOOTSTAT fSYS_BOOTSTAT_STEP k

/-- Whole ms since PORST_N release, at most `top`. -/
def Mach.sinceRelease (m : Mach) : Nat := min 0xFFFF (m.tim.up / 400000)

/-- Step 9: Configuration Request Retry Status ends (R709, R718). -/
def Mach.bootReady (m : Mach) : Mach :=
  if m.sys.ready then m
  else (m.sysMod fun s => { s with ready := true }).wr SYS_BOOTTIME fSYS_BOOTTIME_READY_MS m.sinceRelease

/-- Go on to the next step where the step that runs has ended (R707, R715 to R718). -/
def Mach.bootOne (m : Mach) : Mach :=
  match m.bootStep with
  | 4 => if [0, 1, 2].all fun k => (m.getBus k).reading.isNone && !(m.getBus k).wait then
      ((m.setStep 5).calStart 0).calStart 1 |>.calStart 2 else m
  | 5 => if [0, 1, 2].all fun x => !(m.getRadio x).startCal then (m.setStep 6).memTrain else m
  | 6 => if m.bit MEM_CTL fMEM_CTL_TRAIN then m else (m.setStep 7).pegStart
  | 7 => if m.campAddr ≠ 0 ∨ m.bit CHN_STAT fCHN_STAT_PEG_FAIL then (m.setStep 8).pairCheck else m
  | 8 => if m.role = 1 ∧ m.campAddr ≠ 0 then m else m.setStep 9
  | 9 => m.bootReady.setStep 10
  | 10 => if m.actValid then m.setStep 11 else m
  | _ => m

/-- Go on as far as steps have ended. -/
def Mach.bootNext (m : Mach) : Mach := [(), (), (), (), (), (), (), ()].foldl (fun x _ => x.bootOne) m

/-- Steps 3 and 4: settings and the lantern's copy, the boot image, the fallback, then the identity buses (R533, R535, R707). -/
def Mach.startUp (m : Mach) (linear : Bool) : Mach :=
  let m1 := (m.setStep 3).settingsStart.copyRepair
  let m2 := ((m1.bootVerify linear).pendingMove).fallbackCheck
  (((m2.setStep 4).idStart 0).idStart 1).idStart 2 |>.bootNext

/-- PORST_RELEASE: the straps are latched, and the steps begin where main power-good holds (R707, R708, R732). -/
def Mach.porstRelease (m : Mach) (straps : BitVec 5) (linear : Bool) : Mach :=
  if m.sys.porst then m
  else
    let m1 := ((m.sysMod fun s => { s with porst := true }).setReg SYS_STRAPS (straps.setWidth 32)).timMod fun t => { t with up := 0 }
    if m.sys.powerGood then m1.startUp linear else m1.setStep 1

/-- MAIN_POWER_GOOD: PORST_N and main power-good have held together for 1 ms (R732). -/
def Mach.powerUp (m : Mach) (linear : Bool) : Mach :=
  if m.sys.powerGood then m
  else
    let m1 := m.sysMod fun s => { s with powerGood := true }
    if m.sys.porst then m1.startUp linear else m1

/-- MAIN_POWER_FAIL: the lantern takes the mailbox over, and the main domain resets (R38, R39, R734). The straps stay latched
while PORST_N stays high. -/
def Mach.powerFail (m : Mach) : Mach :=
  if m.sys.powerGood then
    ((m.mainLost.mainReset).setReg SYS_STRAPS (m.reg SYS_STRAPS)).sysMod fun s => { s with powerGood := false }
  else m

/-- PORST_ASSERT: the main domain resets, and start-up begins again at step 1 (R723). The mailbox closes (log 44). -/
def Mach.porstAssert (m : Mach) : Mach :=
  (((m.when m.lanternOn Mach.mboxClose).mainReset).sysMod fun s => { s with porst := false }).setStep 1

/-- PERST_RELEASE: with PCIE_EN the endpoint trains its link, to the speed and width that negotiation gives (R573, R709). -/
def Mach.perstRelease (m : Mach) (speed width : BitVec 4) : Mach :=
  let m1 := m.sysMod fun s => { s with perst := true }
  if m.bit SYS_STRAPS fSYS_STRAPS_PCIE_EN then
    (m1.wr HIF_STAT fHIF_STAT_SPEED speed.toNat).wr HIF_STAT fHIF_STAT_WIDTH width.toNat
  else m1

/-- PCIE_READY_CAP: 980 ms after release (R718). -/
def Mach.readyCap (m : Mach) : Mach :=
  if m.sys.ready ∨ !m.sys.porst then m else ((m.elapse (980 * 400000 - m.tim.up)).bootReady).bootNext

/-! ### AUTO (R719 to R721) -/

/-- AUTO ends. -/
def Mach.autoEnd (m : Mach) (fail : Bool) : Mach :=
  ((m.sysMod fun s => { s with auto := 0 }).wr SYS_BOOTSTAT fSYS_BOOTSTAT_AUTO_BUSY 0).when fail fun x =>
    x.wr SYS_BOOTSTAT fSYS_BOOTSTAT_AUTO_FAIL 1

/-- TB0 takes a number of 2^-32 ns since its epoch. -/
def Mach.tb0Set (m : Mach) (t : Int) : Mach := m.setBase 0 ((m.getBase 0).at_ t)

/-- With a time source found: TB1 to TB3, RUN, RESTORE, and the load of the slot for the unit's role (R720, steps 1 to 4). -/
def Mach.autoRun (m : Mach) (src : Nat) : Mach :=
  let t : Int := (m.getBase 0).total
  let m1 := (m.forEach [1, 2, 3] fun x k => x.setBase k ((x.getBase k).at_ t)).wr SYS_BOOTSTAT fSYS_BOOTSTAT_TSRC src
  let m2 := (m1.wr ARM_PLINTH fARM_PLINTH_RUN 1).when (m.sys.autoFlags.getLsbD 3) fun x =>
    (x.wr FLT_CKCTL fFLT_CKCTL_RESTORE 1).ckRestore
  let slot := if m.role = 4 then m.sys.slotStby else m.sys.slotAct
  if m.role = 4 ∧ slot = 0xFF then m2.autoEnd false
  else
    let m3 := (((m2.wr ARM_LDCTL fARM_LDCTL_SRC 1).wr ARM_LDCTL fARM_LDCTL_NVM_SLOT slot).wr ARM_LDCTL fARM_LDCTL_DEST 0).loadGo
    if 3 < slot ∨ m3.arm.load.isNone then m3.autoEnd true else m3.sysMod fun s => { s with auto := 2 }

/-- TB4 gives the time where the image allows it and TB4 holds site time; else AUTO waits for software (R719, items 2 and 3). -/
def Mach.autoTb4 (m : Mach) : Mach :=
  if m.sys.autoFlags.getLsbD 2 && m.bit SYS_BOOTCTL fSYS_BOOTCTL_TB4_SITE then
    if m.bit ARM_PLINTH fARM_PLINTH_RUN then m.autoEnd true
    else ((m.capture).tb0Set ((m.getBase 4).total : Int)).autoRun 2
  else m.autoEnd false

/-- AUTO_TIME_SEARCH: a pair port first as STANDBY, TIME_REQ going out on each, and again every 1 ms; TB4 otherwise (R719). -/
def Mach.autoSearch (m : Mach) : Mach :=
  let ok := m.bit SYS_STRAPS fSYS_STRAPS_AUTO_EN && m.sys.autoFlags.getLsbD 0 && decide (m.sys.auto ≤ 1) && !m.actValid &&
    (m.bootStep == 10) && m.role != 1 && !m.bit MEM_STAT fMEM_STAT_TRAIN_FAIL
  if !ok then m
  else
    let m0 := m.when (m.sys.auto == 1) fun x => x.reachRun x.sys.autoReq
    let now := m0.tim.run
    let m1 := (m0.wr SYS_BOOTSTAT fSYS_BOOTSTAT_AUTO_BUSY 1).sysMod fun s =>
      { s with auto := 1, autoAt := if m.sys.auto = 1 then s.autoAt else now, autoReq := now + 400000 }
    if m.role = 4 ∧ m.sys.autoFlags.getLsbD 1 ∧ m.pairPorts ≠ [] then
      m1.forEach m.pairPorts fun x p => x.setGuyTime p { x.guyTime p with t1 := some x.stamp, t1old := none }
    else m1.autoTb4

/-- AUTO_PAIR_TIMEOUT: no exchange within 4 ms, so on to TB4 (R719). -/
def Mach.autoTimeout (m : Mach) : Mach := if m.sys.auto = 1 then (m.reachRun (m.sys.autoAt + 1600000)).autoTb4 else m

/-- A TIME_RSP while AUTO searches: TB0 takes its own value plus the exchange's offset, and the port follows (R719, item 1). -/
def Mach.autoRsp (m : Mach) (p t2 t3 : Nat) (late : Bool) : Mach :=
  if m.sys.auto = 1 ∧ m.pairPorts.contains p ∧ (m.guyTime p).t1.isSome then
    let m1 := (m.wr (TIM_GUYp_CTL p) fTIM_GUYp_CTL_FOLLOW 0).timeRsp p t2 t3 late
    if m.bit ARM_PLINTH fARM_PLINTH_RUN then m1.autoEnd true
    else
      let off := (m1.reg (TIM_GUYp_OFFSET p)).toInt
      ((m1.tb0Set ((m.getBase 0).total + off * (2 ^ 28 : Nat))).wr (TIM_GUYp_CTL p) fTIM_GUYp_CTL_FOLLOW 1).autoRun 1
  else m.timeRsp p t2 t3 late

/-- AUTO_ARM: the slot is loaded, so AUTO names a frame and arms the swap, through a profile change where the slot is not HOT
(R720, step 5). -/
def Mach.autoArm (m : Mach) : Mach :=
  if m.sys.auto ≠ 2 ∨ m.arm.load.isSome then m
  else if m.rd ARM_LDSTAT fARM_LDSTAT_STAGE ≠ 7 ∨ m.rd ARM_LDSTAT fARM_LDSTAT_CODE ≠ 0 then m.autoEnd true
  else
    let k := max m.frame ((m.getBase 0).nsTotal / (4 * m.beatNs)) + 2
    let m1 := m.setReg64 ARM_SWAPF_LO ARM_SWAPF_HI k
    let m2 := if m.shd.profile = 2 then m1.swapArm else m1.profileGo m.shd.profile
    if m2.arm.armed then m2.sysMod fun s => { s with auto := 3 } else m2.autoEnd true

/-- AUTO at a beat start: its swap is done, or was refused on the way (R720). -/
def Mach.autoBeat (m : Mach) : Mach :=
  if m.sys.auto ≠ 3 then m
  else if m.actValid then m.autoEnd false
  else if m.arm.armed then m
  else m.autoEnd true

/-- LOAD_DONE with AUTO_ARM (R63, R720). -/
def Mach.loadEnd (m : Mach) (host : List Byte) : Mach := (m.loadDone host).autoArm

/-! ### The lantern's own start (R16, R401, R405, R409, R429, R450, R724, R735) -/

/-- The lantern resets: its registers, TB4, SRAM and mailbox go; its non-volatile memory stays (R16, R417, R420, R451). -/
def Mach.lanternReset (m : Mach) : Mach :=
  let l := m.mlink
  let m1 : Mach := { m with
    regs := m.regs.filter fun e => e.1 / 0x10000 != blkMSH && e.1 != ENG_LC_STAT && e.1 != ENG_LC_FAULT
    mrad := { MeshRadio.zero with saved := m.mrad.saved, copy := m.mrad.copy, copyOk := m.mrad.copyOk, copyRegs := m.mrad.copyRegs }
    mlink := { MeshLink.zero with
      live := l.live, backup := l.backup, staged := l.staged, nodes := l.nodes, mark := l.mark, key := l.key, log := l.log,
      lseq := l.lseq, savedPtr := l.savedPtr, saveSlot := l.saveSlot }
    lc := { Lc.zero with code := m.lc.code }
    chans := m.chans.filter fun e => e.1 < 248 }
  ((m1.setBase 4 Base.zero).wr SYS_BOOTCTL fSYS_BOOTCTL_TB4_SITE 0).setReg SYS_DOMSTAT
    (m.reg SYS_DOMSTAT &&& 0x80)

/-- LANTERN_START: the power-on detector releases and the lantern runs: TB4 from 0, LC at vector 0, buckets, counter mark and
delivery pointer restored, the copy in force, the calibrations begun, LIVE at the next superframe boundary (R724). -/
def Mach.lanternStart (m : Mach) : Mach :=
  if m.rd SYS_DOMSTAT fSYS_DOMSTAT_LANT_STATE ≠ 0 then m
  else
    let m1 := m.lanternReset.lanternState 1
    let m2 := m1.mradMod fun r => { r with buckets := r.saved, startCal := true }
    let m3 := m2.mlinkMod fun l => { l with
      fcnt := l.mark, delivered := tabGet 0 l.savedPtr ((l.saveSlot + 15) % 16), swapTo := if l.live = [] then 0 else 1 }
    let m4 := (m3.setReg MSH_FCNTOWN (BitVec.ofNat 32 m3.mlink.fcnt)).when m3.mrad.copyOk fun x =>
      x.forEach m3.mrad.copyRegs fun y e => y.setReg e.1 e.2
    (m4.logShow.dutyShow).meshCal 0

/-- LANTERN_RESET: VBAK falls below the detector's threshold, and the lantern is Off (R703, R735). -/
def Mach.lanternFall (m : Mach) : Mach := m.lanternReset

/-! ### The die sensors (R239, R741 to R747) -/

/-- The hottest of sensor readings in quarter °C, and the lowest sensor that gave it. -/
def hottest : Nat → List Int → Nat × Int
  | i, [] => (i, -32768)
  | i, x :: r => let y := hottest (i + 1) r; if y.2 ≤ x then (i, x) else y

/-- TEMP_SAMPLE: the twelve sensors in quarter °C, and the die temperature of the three radios in °C, of which the spec names no
sensor (R239, R741, log 12). -/
def Mach.tempSample (m : Mach) (sensors : List (BitVec 16)) (radios : List (BitVec 8)) : Mach :=
  let h := hottest 0 (slice 0 (sensors.map BitVec.toInt) 0 12)
  let t := h.2
  let est := t - (m.rd SYS_THCTL fSYS_THCTL_JC_DROP : Nat)
  let peak := max t (signedOf 16 (m.rd SYS_THSTAT fSYS_THSTAT_TJ_PEAK))
  let m1 := ((((m.wr SYS_TEMP fSYS_TEMP_TJ_MAX (wrapInt 16 t)).wr SYS_TEMP fSYS_TEMP_CASE_EST (wrapInt 16 est)).wr SYS_THSTAT
    fSYS_THSTAT_HOTTEST h.1).wr SYS_THSTAT fSYS_THSTAT_TJ_PEAK (wrapInt 16 peak))
  let lim := caseLimit (m.rd ARM_STAT fARM_STAT_ACT_PROFILE)
  let m2 := if m.sys.caseOver then m1.sysMod fun s => { s with caseOver := decide (lim - 8 < est) }
    else if lim < est then
      ((m1.sysMod fun s => { s with caseOver := true }).wr SYS_THSTAT fSYS_THSTAT_CASE_OVER 1).event 0x0001 0 [(2, wrapInt 16 est)]
    else m1
  let m3 := if 560 ≤ t ∧ !m.sys.therm then
      ((m2.sysMod fun s => { s with therm := true }).wr SYS_THSTAT fSYS_THSTAT_THERM 1).event 0x0002 0 [(2, wrapInt 16 t)]
    else if t < 540 then
      ((m2.sysMod fun s => { s with therm := false }).wr SYS_THSTAT fSYS_THSTAT_THERM 0).wr SYS_THSTAT fSYS_THSTAT_FORCED 0
    else m2
  let m4 := if 580 ≤ t ∧ !m.bit SYS_THSTAT fSYS_THSTAT_FORCED then (m3.wr SYS_THSTAT fSYS_THSTAT_FORCED 1).airCut else m3
  m4.forEach (radios.zip [0, 1, 2]) fun x e => x.radioTemp e.2 e.1.toInt

end Sys2Proof.Machine
end

