-- ==== Sys2Proof/Machine/ChainRows.lean ====
section
/-! DEFINITION. The meanings of the rows of block CHN: the camp bus, the guy lines, the pair, its fence and takeover (R609 to R658). -/

namespace Sys2Proof.Machine

open Sys2Proof

/-! ### The camp bus: a received frame is its bytes, destination to CRC (R611 to R619, R641, R653) -/

/-- CAMP_BAD_FRAME. -/
def execCampBadFrame (frame : List Byte) (s : State) : Host.Outcome State Fault Refusal := s.run fun m => m.campDrop frame

/-- CAMP_COLLISION of the unit's own frame of a SEQ. -/
def execCampCollision (seq : Fin 256) (s : State) : Host.Outcome State Fault Refusal := s.run fun m => m.campCollision seq.val

/-- CAMP_BACKOFF_END. -/
def execCampBackoffEnd (seq : Fin 256) (s : State) : Host.Outcome State Fault Refusal := s.run fun m => m.campRetry seq.val

/-- GEN_SEND. -/
def execGenSend (s : State) : Host.Outcome State Fault Refusal := s.run Mach.genSend

/-- PEG_RECEIVE: an address settled may end start-up's step 7 (R717). -/
def execPegReceive (frame : List Byte) (s : State) : Host.Outcome State Fault Refusal := s.run fun m => (m.pegReceive frame).bootNext

/-- PEG_NAK_RECEIVE. -/
def execPegNakReceive (frame : List Byte) (s : State) : Host.Outcome State Fault Refusal := s.run fun m => (m.pegNak frame).bootNext

/-- GEN_RECEIVE. -/
def execGenReceive (frame : List Byte) (s : State) : Host.Outcome State Fault Refusal := s.run fun m => m.genReceive frame

/-- CAMP_COMMIT_RECEIVE. -/
def execCampCommitReceive (frame : List Byte) (s : State) : Host.Outcome State Fault Refusal := s.run fun m => m.campCommit frame

/-- PAIR_QUERY_RECEIVE. -/
def execPairQueryReceive (frame : List Byte) (s : State) : Host.Outcome State Fault Refusal := s.run fun m => m.pairQuery frame

/-- PAIR_ALIVE_RECEIVE. -/
def execPairAliveReceive (frame : List Byte) (s : State) : Host.Outcome State Fault Refusal := s.run fun m => m.pairAlive frame

/-- ROLE_RECEIVE: a role settled may end start-up's step 8 (R717). -/
def execRoleReceive (frame : List Byte) (s : State) : Host.Outcome State Fault Refusal := s.run fun m => (m.roleReceive frame).bootNext

/-- FENCE_TEST_RECEIVE. -/
def execFenceTestReceive (frame : List Byte) (s : State) : Host.Outcome State Fault Refusal :=
  s.run fun m => m.fenceTestReceive frame

/-- FENCE_SEEN_RECEIVE. -/
def execFenceSeenReceive (frame : List Byte) (s : State) : Host.Outcome State Fault Refusal := s.run fun m => m.fenceSeen frame

/-! ### Pegging (R617 to R622) -/

/-- ENUM_IN_RISE. -/
def execEnumInRise (s : State) : Host.Outcome State Fault Refusal := s.run fun m => m.enumRise.bootNext

/-- PEG_WAIT_END. -/
def execPegWaitEnd (s : State) : Host.Outcome State Fault Refusal := s.run fun m => m.pegEnd.bootNext

/-- ENUM_TIMEOUT. -/
def execEnumTimeout (s : State) : Host.Outcome State Fault Refusal := s.run fun m => m.enumTimeout.bootNext

/-! ### Guy lines: a received frame is its code words, header to trailer (R623 to R628, R635 to R638, R648, R674) -/

/-- GUY_ACK_RECEIVE. -/
def execGuyAckReceive (p : Fin 2) (words : List (BitVec 144)) (s : State) : Host.Outcome State Fault Refusal :=
  s.run fun m => m.guyAckReceive p.val words

/-- GUY_NACK_RECEIVE. -/
def execGuyNackReceive (p : Fin 2) (words : List (BitVec 144)) (s : State) : Host.Outcome State Fault Refusal :=
  s.run fun m => m.guyNackReceive p.val words

/-- TOKEN_RECEIVE. -/
def execTokenReceive (p : Fin 2) (words : List (BitVec 144)) (s : State) : Host.Outcome State Fault Refusal :=
  s.run fun m => m.tokenReceive p.val words

/-- STOKEN_RECEIVE. -/
def execStokenReceive (p : Fin 2) (words : List (BitVec 144)) (s : State) : Host.Outcome State Fault Refusal :=
  s.run fun m => m.stokenReceive p.val words

/-- GUY_COMMIT_RECEIVE. -/
def execGuyCommitReceive (p : Fin 2) (words : List (BitVec 144)) (s : State) : Host.Outcome State Fault Refusal :=
  s.run fun m => m.commitReceive p.val words

/-- MIRROR_RECEIVE. -/
def execMirrorReceive (p : Fin 2) (words : List (BitVec 144)) (s : State) : Host.Outcome State Fault Refusal :=
  s.run fun m => m.mirrorReceive p.val words

/-- CFG_RECEIVE. -/
def execCfgReceive (p : Fin 2) (words : List (BitVec 144)) (s : State) : Host.Outcome State Fault Refusal :=
  s.run fun m => m.cfgReceive p.val words

/-- PAYLOAD_RECEIVE. -/
def execPayloadReceive (p : Fin 2) (words : List (BitVec 144)) (s : State) : Host.Outcome State Fault Refusal :=
  s.run fun m => m.payloadReceive p.val words

/-- HELLO_RECEIVE. -/
def execHelloReceive (p : Fin 2) (words : List (BitVec 144)) (s : State) : Host.Outcome State Fault Refusal :=
  s.run fun m => m.helloReceive p.val words

/-- GUY_RETRY_TIMEOUT. -/
def execGuyRetryTimeout (p : Fin 2) (s : State) : Host.Outcome State Fault Refusal := s.run fun m => m.guyTimeout p.val

/-- GUY_LINK_DOWN. -/
def execGuyLinkDown (p : Fin 2) (s : State) : Host.Outcome State Fault Refusal := s.run fun m => m.guyDown p.val

/-- GUY_LINK_UP. -/
def execGuyLinkUp (p : Fin 2) (s : State) : Host.Outcome State Fault Refusal := s.run fun m => m.guyUp p.val

/-! ### Roles and the fence (R629 to R633, R647, R740) -/

/-- ROLE_SEND. -/
def execRoleSend (s : State) : Host.Outcome State Fault Refusal := s.run Mach.roleTick

/-- PAIR_WAIT_EXPIRE. -/
def execPairWaitExpire (s : State) : Host.Outcome State Fault Refusal := s.run fun m => m.pairWait.bootNext

/-- PAIR_FENCE_RISE. -/
def execPairFenceRise (s : State) : Host.Outcome State Fault Refusal := s.run fun m => m.fenceRise.bootNext

/-- PAIR_FENCE_FALL. -/
def execPairFenceFall (s : State) : Host.Outcome State Fault Refusal := s.run Mach.fenceFall

/-- FENCE_WINDOW_END. -/
def execFenceWindowEnd (s : State) : Host.Outcome State Fault Refusal := s.run Mach.windowEnd

/-- FTEST: a write of CHN_PAIRCTL with FTEST set. -/
def execFtest (v : BitVec 32) (s : State) : Host.Outcome State Fault Refusal :=
  s.run fun m => m.regWrite CHN_PAIRCTL (putFld v fCHN_PAIRCTL_FTEST 1) false

/-- FENCE_PULSE. -/
def execFencePulse (s : State) : Host.Outcome State Fault Refusal := s.run Mach.fencePulse

/-- FENCE_PULSE_END. -/
def execFencePulseEnd (s : State) : Host.Outcome State Fault Refusal := s.run Mach.fencePulseEnd

/-- FENCE_SEEN_TIMEOUT. -/
def execFenceSeenTimeout (s : State) : Host.Outcome State Fault Refusal := s.run Mach.fenceTimeout

/-! ### Takeover and changeover (R641 to R649) -/

/-- TAKEOVER_QUERY. -/
def execTakeoverQuery (s : State) : Host.Outcome State Fault Refusal := s.run Mach.takeQuery

/-- PAIR_QUERY_REPEAT: the first repeat (1) or the second (2). -/
def execPairQueryRepeat (k : Fin 3) (s : State) : Host.Outcome State Fault Refusal := s.run fun m => m.queryRepeat k.val

/-- TAKEOVER_FENCE. -/
def execTakeoverFence (s : State) : Host.Outcome State Fault Refusal := s.run Mach.takeFence

/-- TAKEOVER_VR_RETRY. -/
def execTakeoverVrRetry (s : State) : Host.Outcome State Fault Refusal := s.run Mach.takeRetry

/-- SWITCH: a write of CHN_PAIRCTL with SWITCH set. -/
def execSwitch (v : BitVec 32) (s : State) : Host.Outcome State Fault Refusal :=
  s.run fun m => m.regWrite CHN_PAIRCTL (putFld v fCHN_PAIRCTL_SWITCH 1) false

/-- UNFENCE: a write of CHN_PAIRCTL with UNFENCE set. -/
def execUnfence (v : BitVec 32) (s : State) : Host.Outcome State Fault Refusal :=
  s.run fun m => m.regWrite CHN_PAIRCTL (putFld v fCHN_PAIRCTL_UNFENCE 1) false

/-- PNJUMP_WRITE. -/
def execPnjumpWrite (v : BitVec 32) (s : State) : Host.Outcome State Fault Refusal := s.run fun m => m.regWrite CHN_PNJUMP v false

/-- SEAL_DONE. -/
def execSealDone (s : State) : Host.Outcome State Fault Refusal := s.run Mach.sealDone

end Sys2Proof.Machine
end

