-- ==== Sys2Proof/Machine/BeatOps.lean ====
section
/-! DEFINITION. The beat start and the tick (R34, R78 to R83, R180, R181, R558, R559): what the plinth's events bring about in every
block, in one order. -/

namespace Sys2Proof.Machine

open Sys2Proof

/-! ### Beat overrun (R78 to R81, R134, R186, R644) -/

/-- What overran on engine `n`: its running task, the tasks waiting for replay, and the ready tasks not yet dispatched; a task in
Hold's shadow never ran (R79, R83, R769). `late` names an engine whose END lost to the beat start: its task is done (R78). -/
def Mach.overrunsOf (m : Mach) (n : Nat) (late : Bool) : List TaskSt :=
  let t := m.getTe n
  let d := m.getDsp n
  let run := if t.st = .idle ∨ late then [] else t.task.toList
  run ++ d.replay ++ if m.inHold then [] else d.sel.filter d.ready

/-- Stop the running task, and mark every overrun task of an engine for replay (R79, R186). -/
def Mach.overrunTe (m : Mach) (n : Nat) (late : Bool) : Mach :=
  let l := m.overrunsOf n late
  let m1 := if (m.getTe n).st = .idle then m else if late then m.teMod n fun t => { t with late := true } else m.stopTask n
  m1.dspMod n fun d => { d with replay := l, sel := d.sel.map fun x => { x with ran := true } }

/-- The sources that overran: engine and slot, 16 to 18 with slot 0 for a baseband; with what was marked LATE alone (R78, R79). -/
def Mach.overrunList (m : Mach) (late : List Nat) : List (Nat × Nat) :=
  ((List.range 16).map fun n =>
      (if late.contains n ∧ (m.getTe n).st ≠ .idle then [(n, (m.getTe n).tslot)] else []) ++
        (m.overrunsOf n (late.contains n)).map fun x => (n, x.slot)).flatten ++
    ([0, 1, 2].filter fun x => late.contains (16 + x) && (m.getBb x).rx.state == 3).map fun x => (16 + x, 0)

/-- A beat `b` that overran (R79, R80, R644, R684): counts, record, event. -/
def Mach.overrunCount (m : Mach) (b : Nat) (src : Nat × Nat) (late : Bool) : Mach :=
  let m1 := (((m.count ARM_OVRSTAT fARM_OVRSTAT_TOTAL).wr ARM_OVRSTAT fARM_OVRSTAT_LAST_SRC src.1).wr ARM_OVRSTAT
    fARM_OVRSTAT_LAST_TSLOT src.2).setReg64 ARM_OVRBEAT_LO ARM_OVRBEAT_HI b
  let m2 := if m.chn.grace = 0 then m1.count ARM_OVRCTL fARM_OVRCTL_CONSEC else m1
  let port := if src.1 < 16 then src.1 else blkPort (blkBBL + (src.1 - 16))
  ((m2.faultRecord ⟨5, port, 0, if late then 4 else 1, src.2, 0, 0, 0, 0⟩).journal 0x0C portFLT 0 0 (src.1 + 256 * src.2) []).event
    0x0101 0 [(4, b), (2, (m2.reg ARM_OVRSTAT).toNat)]

/-- The fallback is called for once CONSEC reaches LIMIT (R82). -/
def Mach.limitCheck (m : Mach) : Mach :=
  if m.bit ARM_OVRCTL fARM_OVRCTL_AUTO_FB && m.actValid && !m.arm.fbSwap && m.arm.fbCause == 0 &&
      decide (max 1 (m.rd ARM_OVRCTL fARM_OVRCTL_LIMIT) ≤ m.rd ARM_OVRCTL fARM_OVRCTL_CONSEC) then
    m.armMod fun a => { a with fbCause := 1 }
  else m

/-- BEAT_OVERRUN for the beat `b` that ends; the answer says whether it overran (R78 to R82). A released task that is not ready
is skipped at the end of its last tick (R184). -/
def Mach.overrunBeat (m : Mach) (b : Nat) (late : List Nat) : Mach × Bool :=
  let m0 := (m.timMod fun t => { t with tick := 16 }).forEach (List.range 16) fun x n =>
    (x.settle n).forEach (x.getDsp n).sel fun y k => if y.inHold then y else y.skipTask n k.slot
  let l := m0.overrunList late
  let m1 := (m0.forEach (List.range 16) fun x n => x.overrunTe n (late.contains n)).armMod fun a => { a with overran := l.filter fun e => e.1 < 16 }
  let m2 := m1.forEach ([0, 1, 2].filter fun x => late.contains (16 + x) && (m.getBb x).rx.state == 3) fun x r =>
    x.bbMod r fun y => { y with rx := { y.rx with late := true } }
  match l.getLast? with
  | some src => ((m2.overrunCount b src (late.contains src.1)).limitCheck, true)
  | none => (m2.wr ARM_OVRCTL fARM_OVRCTL_CONSEC 0, false)

/-! ### The dispatcher and the blocks at a beat start -/

/-- TASK_SELECT on every engine (R180, R181); none in Hold (R769) or without an armature. -/
def Mach.taskSelect (m : Mach) : Mach :=
  m.forEach (List.range 16) fun x n =>
    let l := if x.actValid && !x.inHold then selectTasks x.act.tasks n x.bidx else []
    (x.dspMod n fun d => d.select l).teMod n fun t => { t with abandoned := [] }

/-- What waits for its second write within one beat waits no longer (R61, R531), and the taking of commands starts anew, one
ring further on (R593). -/
def Mach.beatForget (m : Mach) : Mach :=
  (((m.armMod fun a => { a with revoke := none }).nvmMod fun x => { x with keyOnce := false })).hifMod fun h =>
    { h with rings := h.rings.map fun e => (e.1, { e.2 with beatTaken := 0 }), cmdStart := (h.cmdStart + 1) % 64 }

/-- The accrual of a tick on the wired side (R461, R496). -/
def Mach.wireAccrue (m : Mach) : Mach :=
  let us := m.tickUs
  ((m.uplAccrue us).wpolAccrue us).txChooseAll

/-- The accrual of a tick (R357, R360, R461, R496). -/
def Mach.tickAccrue (m : Mach) : Mach := m.accrue.wireAccrue

/-- The swap of a beat start, its staged values and role (R72, R82, R641, R652). -/
def Mach.beatSwap (m : Mach) (ran : Bool) (host : List (List Byte × List Byte)) : Mach :=
  let m1 := ((m.lowerCheck ran).commitBeat).forEach [0, 1, 2] Mach.chanMark
  let m2 := ((m1.swapCheck ran).fbSwapCheck).takeSwap
  (m2.takeReplay host).autoBeat.bootNext

/-- The blocks that serve the air (R223, R284, R317, R334, R349, R352, R358, R359, R366):
changes, then the accrual of tick 0, then the picks. -/
def Mach.beatAir (m : Mach) : Mach :=
  (((((((m.radioModes.strUpdate).pnBeat).policyApply).accrue).pickCheck).boundAge).pickBeat (m.beat + 1))

/-- The work of a schedule frame's start (R239, R368, R628). -/
def Mach.frameStart (m : Mach) : Mach := if m.beat % 4 = 0 then (m.sampleRow.calAge).guyFrame else m

/-- The wired side (R468, R492, R493, R496). -/
def Mach.beatWire (m : Mach) : Mach :=
  (((((m.forEach [0, 1, 2, 3, 4] Mach.gclTake).wpolApply).lagBeat).ageBeat).uplApply).wireAccrue

/-- The number of the next beat: the one after the beat that runs, or the next boundary of TB0 once the plinth starts (R34, R558;
log 45). -/
def Mach.nextBeat (m : Mach) : Nat :=
  if m.tim.started then m.beat + 1 else (m.getBase 0).nsTotal / m.beatNs + 1

/-- TB0 reaches the boundary of beat `n`: the beat number, its TIME, TB5, the TSF steps that waited, and whether a checkpoint is due
(R34, R554, R559, R680). -/
def Mach.beatBegin (m : Mach) (n : Nat) : Mach :=
  let x := m.reach (n * m.beatNs)
  ((x.timMod fun t => { t with beat := BitVec.ofNat 48 n, beatTime := x.timePayload, tick := 0, started := true }).tb5Align
    (n * x.beatNs)).tbForward.ckBeat (!m.tim.started)

/-- BEAT_START. `codes` are the margin monitors' codes, `late` the engines and basebands whose END or decode lost to the boundary
or runs on, `table` the ring table's bytes, `host` what a takeover's replay reads again (log 12). -/
def Mach.beatStart (m : Mach) (codes : List (BitVec 8)) (late : List Nat) (table : List Byte)
    (host : List (List Byte × List Byte)) : Mach :=
  if !m.bit ARM_PLINTH fARM_PLINTH_RUN then m
  else
    let n := m.nextBeat
    let o := ((m.progressBeat.msixBeat).reach (n * m.beatNs)).overrunBeat m.beat late
    let m1 := ((o.1.beatBegin n).beatForget).marginCheck codes
    let m2 := m1.beatSwap o.2 host
    let m3 := (m2.journal 0x01 portFLT 0 0 m2.bidx [encodeCode (datumOf (bytesLE 8 (m2.reg64 ARM_ACTID_LO ARM_ACTID_HI)))])
    let m4 := (((m3.hifPump.taskSelect).beatAir).frameStart).beatWire
    (((m4.doorbellStart table).chnBeat).restartBeat)

/-- TICK_EVENT: tick `t` of the beat begins; entries of the delay lists are released, and shapers accrue (R181, R357, R558). -/
def Mach.tickStart (m : Mach) : Mach :=
  let t := m.tim.tick + 1
  if !m.tim.started || decide (16 ≤ t) || !m.bit ARM_PLINTH fARM_PLINTH_RUN then m
  else
    let m1 := (m.reach (m.beat * m.beatNs + t * m.beatNs / 16)).timMod fun x => { x with tick := t }
    let m2 := if m1.inHold then m1 else m1.forEach (List.range 16) fun x n => x.dspMod n fun d => d.release t
    m2.tickAccrue

/-! ### Gate lists (R467, R468) -/

/-- GCL_START: TB0 reaches S and the new list operates. -/
def Mach.gclStart (m : Mach) (p : Nat) : Mach :=
  match (m.getPort p).next with
  | some g =>
    let x := m.reach g.start
    ((((x.portMod p fun t => { t with oper := some g, next := none }).wr (UPL_Pp_GCTL p) fUPL_Pp_GCTL_CHANGE 0).wr (UPL_Pp_GCTL p)
      fUPL_Pp_GCTL_STATUS 2).event 0x0E03 p [(4, g.start % 1000000000)]).txChoose p
  | none => m

/-- GATE_INTERVAL_END: TB0 reaches the end of the gate entry in force, and the port chooses under the next (R467). -/
def Mach.gateStep (m : Mach) (p : Nat) : Mach :=
  match (m.getPort p).oper with
  | some g =>
    let now := (m.getBase 0).nsTotal
    match g.ahead now with
    | (e, _) :: _ => (m.reach (now + (e - g.pos now))).txChoose p
    | [] => m
  | none => m

end Sys2Proof.Machine
end

