-- ==== Sys2Proof/Machine/RegView.lean ====
section
/-! DEFINITION. What a register reads as (R11, R13): its stored value, or, for a register that shows other state, that
state. -/

namespace Sys2Proof.Machine

open Sys2Proof

/-- SYS_GSTAT: the blocks whose BLKFAULT counts something (R42, R763). -/
def Mach.gstatView (m : Mach) : W32 := BitVec.ofNat 32 (bitsOf 24 fun b => m.rd (BLKFAULT b) fBLKFAULT_COUNT != 0)

/-- The power mode in force of an engine; the reset value 0 stands until an armature has run (R135, R145; DESIGN CHOICE, log 64). -/
def Mach.pmView (m : Mach) (n : Nat) : Nat :=
  let t := m.getTe n
  match t.st with
  | .wait | .waitF => t.ctx.pm
  | .idle => if !m.arm.ran then 0 else (match m.rd (ENG_TEn_CTL n) fENG_TEn_CTL_GAP_PM with
    | 0 => 0
    | 2 => if m.act.gives n then 1 else 2
    | _ => 1)
  | _ => 0

/-- ENG_TEn_STAT (R145). -/
def Mach.engStatView (m : Mach) (n : Nat) : W32 :=
  let t := m.getTe n
  let st := match t.st with | .idle => 0 | .run => 1 | .faulting => 2 | .fault => 2 | .wait => 3 | .waitF => 3
  BitVec.ofNat 32 (st * 2 ^ 30 + m.pmView n % 4 * 2 ^ 28 + t.curSlot * 2 ^ 16 + t.ctx.pc % 8192)

/-- DSP_TEn_STAT (R214). -/
def Mach.dspStatView (m : Mach) (n : Nat) : W32 :=
  let t := m.getTe n
  BitVec.ofNat 32 (m.bidx % 256 * 2 ^ 24 + (m.getDsp n).delay.length % 128 * 2 ^ 17 +
    (if t.st = .idle then 0 else 2 ^ 16) + t.curSlot * 2 ^ 8)

/-- The released tasks that are ready, as a mask over the 64 slots (R182, R213). -/
def Mach.readyMask (m : Mach) (n : Nat) : Nat :=
  bitsOf 64 fun s => (m.getDsp n).sel.any fun x => x.slot == s && (m.getDsp n).ready x

/-- The effective wait mask of a slot in this beat (R180). -/
def Mach.wmaskView (m : Mach) (n s : Nat) : W32 :=
  match (m.getDsp n).sel.find? fun x => x.slot == s with
  | some x => x.wmask
  | none => match m.act.tasks.find? fun k => k.te == n && k.tslot == s with
    | some k => k.wmask
    | none => 0

/-- The registers of block DSP. -/
def Mach.dspView (m : Mach) (o : Nat) : W32 :=
  let n := o / 0x20
  if 0x200 ≤ o then m.plainRead (0x10000 * blkDSP + o)
  else match o % 0x20 with
    | 0x00 => m.dspStatView n
    | 0x04 => BitVec.ofNat 32 (m.readyMask n)
    | 0x08 => BitVec.ofNat 32 (m.readyMask n / 2 ^ 32)
    | 0x18 => m.flagsOf n (m.rd (DSP_TEn_FSEL n) fDSP_TEn_FSEL_TSLOT)
    | 0x1C => m.wmaskView n (m.rd (DSP_TEn_FSEL n) fDSP_TEn_FSEL_TSLOT)
    | _ => m.plainRead (0x10000 * blkDSP + o)

/-- RFx_PDMEAS: drive correction and power of the selected chain (R258, R262). -/
def Mach.pdView (m : Mach) (x : Nat) : W32 :=
  let p := tabGet (0, 0) (m.getRadio x).pd (m.rd (RFx_PDSEL x) fRFx_PDSEL_CHAIN)
  BitVec.ofNat 32 (wrapInt 16 p.1 * 2 ^ 16 + wrapInt 16 p.2)

/-- WMAC_SEQx_CFG: SIFS and the slot time in force (R301, R338). -/
def Mach.seqView (m : Mach) (x : Nat) : W32 :=
  let v := putFld (m.plainRead (WMAC_SEQx_CFG x)) fWMAC_SEQx_CFG_SLOT_US
    (if x = 0 ∧ m.bit (WMAC_SEQx_CFG 0) fWMAC_SEQx_CFG_LONG_SLOT then 20 else 9)
  if x = 0 then v else putFld v fWMAC_SEQx_CFG_LONG_SLOT 0

/-- CAP or a class word of the selected template in the bank shown (R348, R372). -/
def Mach.tplView (m : Mach) (i : Nat) : W32 :=
  let b := if m.bit ASCH_TPLSEL fASCH_TPLSEL_BANK then m.actBank else m.shdBank
  tabGet 0 (m.asch.tpl b).words (16 * m.rd ASCH_TPLSEL fASCH_TPLSEL_TPL + i)

/-- The registers of block ASCH: SHD_STATE and the FREE counts stand by what they depend on (R344, R348, R372). -/
def Mach.aschView (m : Mach) (o : Nat) : W32 :=
  let v := m.plainRead (0x10000 * blkASCH + o)
  if o = 0x0C then putFld v fASCH_TPLCTL_SHD_STATE m.tplState
  else if o = 0x10 then m.tplView 0
  else if 0x20 ≤ o ∧ o < 0x40 then m.tplView (1 + (o - 0x20) / 4)
  else if o = 0x9C ∨ o = 0xAC then
    let k := (o - 0x9C) / 0x10
    putFld v fASCH_HPk_STAT_FREE (m.hpCount k - (m.asch.pool k).length)
  else v

/-- CHN_PAIRSTAT: INELIG and ELIGIBLE stand by what they depend on (R640). -/
def Mach.pairView (m : Mach) : W32 :=
  putFld (putFld (m.reg CHN_PAIRSTAT) fCHN_PAIRSTAT_INELIG m.inelig) fCHN_PAIRSTAT_ELIGIBLE
    (if m.role = 4 ∧ m.inelig = 0 then 1 else 0)

/-- The registers of block CHN. -/
def Mach.chnView (m : Mach) (o : Nat) : W32 :=
  let p := (tabGet none m.chn.peers (m.rd CHN_PEERSEL fCHN_PEERSEL_ADDR)).getD Peer.zero
  match o with
  | 0x28 => m.pairView
  | 0xA4 => BitVec.ofNat 32 p.gen
  | 0xA8 => BitVec.ofNat 32 p.sl
  | 0xAC => BitVec.ofNat 32 (p.sl / 2 ^ 32)
  | _ => if 0x40 ≤ o ∧ o < 0x60 then 0 else m.plainRead (0x10000 * blkCHN + o)

/-- The registers of block HIF, the MSI-X table among them (R574, R579, R607). -/
def Mach.hifView (m : Mach) (o : Nat) : W32 :=
  let r := m.getRing (m.rd HIF_RINGSEL fHIF_RINGSEL_RING)
  if 0x8000 ≤ o ∧ o < 0xA000 then m.msixRead (o - 0x8000)
  else match o with
    | 0x64 => BitVec.ofNat 32 (r.st % 4 * 2 ^ 30 + r.gen % 65536)
    | 0x68 => BitVec.ofNat 32 r.shown
    | _ => m.plainRead (0x10000 * blkHIF + o)

/-- The registers of block RTE: DLVL follows from the placement (R485). -/
def Mach.rteView (m : Mach) (o : Nat) : W32 :=
  let v := m.plainRead (0x10000 * blkRTE + o)
  if 0x100 ≤ o ∧ o < 0x200 ∧ o % 0x10 = 8 then putFld v fRTE_TBLt_CFG_DLVL (m.tblDlvl ((o - 0x100) / 0x10)) else v

/-- The registers of block IDM: the records as read, 0 where none was (R263). -/
def Mach.idmView (m : Mach) (o : Nat) : W32 :=
  if 0x1000 ≤ o ∧ o < 0x2800 then
    BitVec.ofNat 32 (numLE (slice 0 (m.idRec ((o - 0x1000) / 0x800) (o % 0x800 / 0x100)) (o % 0x100) 4))
  else m.plainRead (0x10000 * blkIDM + o)

/-- The registers of block FLT: a word of the selected fault record (R687). -/
def Mach.fltView (m : Mach) (o : Nat) : W32 :=
  if 0x34 ≤ o ∧ o < 0x54 then
    BitVec.ofNat 32 (numLE (slice 0 (m.flt.log.getD (m.rd FLT_LOGSEL fFLT_LOGSEL_ENTRY) []) (o - 0x34) 4))
  else m.plainRead (0x10000 * blkFLT + o)

/-- BLKGEN: the generation being staged, or the committed one (R763). -/
def Mach.genView (m : Mach) : W32 := if m.staged then m.reg CHN_STGGEN else m.reg CHN_CFGGEN

/-- The registers of block FQ: the fixed ends and ranges of the mailbox channels among them (R211, R216). -/
def Mach.fqView (m : Mach) (o : Nat) : W32 :=
  if 0x2000 ≤ o then m.plainRead (0x10000 * blkFQ + o)
  else match o % 0x20 with
    | 0x00 => m.chCfgView (o / 0x20)
    | 0x04 => m.chStoreView (o / 0x20)
    | 0x10 => m.chStat (o / 0x20)
    | _ => m.plainRead (0x10000 * blkFQ + o)

/-- The registers of a baseband: BBL has no cross-band fields; BBx_TSDELAY shows the delays at the width in force (R294, R295). -/
def Mach.bbView (m : Mach) (x o : Nat) : W32 :=
  if o = 0x2C then Config.tsDelay x (getFld (m.radioChan x) fRFx_CHAN_BW)
  else if x = 0 ∧ o = 0x24 then 0
  else m.plainRead (BBx_CTL x + o)

/-- What the register at a BAR0 offset reads as, effects of the read aside; behind the bridge 0 while the lantern is Off (R19). -/
def Mach.regView (m : Mach) (a : Nat) : W32 :=
  let b := a / 0x10000
  let o := a % 0x10000
  if bridged b o && !m.lanternOn then 0
  else if o = 0xFF0C then m.genView
  else if 0xFF00 ≤ o then m.plainRead a
  else match b with
    | 0 => if o = 8 then m.gstatView else m.plainRead a
    | 1 => if o = 0x50 then BitVec.ofNat 32 m.beat else m.plainRead a
    | 2 => if o < 0x400 ∧ o % 0x40 = 4 then m.engStatView (o / 0x40) else if o = 0x1004 then m.lcStatView else m.plainRead a
    | 3 => m.dspView o
    | 4 => m.fqView o
    | 5 => if o = 0x4C then m.pdView 0 else m.plainRead a
    | 6 => if o = 0x4C then m.pdView 1 else m.plainRead a
    | 7 => if o = 0x4C then m.pdView 2 else m.plainRead a
    | 8 => m.bbView 0 o
    | 9 => m.bbView 1 o
    | 10 => m.bbView 2 o
    | 11 => if o = 0x10 ∨ o = 0x20 ∨ o = 0x30 then m.seqView ((o - 0x10) / 0x10) else m.plainRead a
    | 12 => m.aschView o
    | 13 => m.mshView o
    | 15 => m.rteView o
    | 16 => if o = 0 then m.memCtlView else if o = 0x34 then m.capView else m.plainRead a
    | 18 => if o < 0x180 ∧ o / 0x40 ≠ 4 then m.tbView (o / 0x40) (o % 0x40) else m.plainRead a
    | 19 => m.hifView o
    | 20 => m.chnView o
    | 21 => m.fltView o
    | 23 => m.idmView o
    | _ => m.plainRead a

/-- The BAR0 offset that a bridge access names: an offset of block MSH, or the lantern core's registers by their own (R144, R417). -/
def bridgeAddr (off : Nat) : Nat := if off < 0x10000 then 0x10000 * blkMSH + off else off

/-- An access through the MSH bridge: while the lantern is Off a read answers 0, a write is discarded, and BRIDGE_ERR is set
(R19). Reading TB4's NS latches the rest (R570). -/
def Mach.bridge (m : Mach) (write : Bool) (off : Nat) (v : W32) : Mach :=
  let a := bridgeAddr off
  if !m.lanternOn then (m.wr SYS_DOMSTAT fSYS_DOMSTAT_BRIDGE_ERR 1).setAnswer (if write then m.answer else 0)
  else if write then m.blockWrite (a / 0x10000) (a % 0x10000) v false
  else if off = 0x200 then m.tbRead 4
  else m.setAnswer (m.regView a)

end Sys2Proof.Machine
end

