-- ==== Sys2Proof/Machine/ControlRows.lean ====
section
/-! DEFINITION. The meanings of the rows of software's register access, the ridge, the beat, main power and the armature (R10 to
R91, R558, R732 to R735). A command that is a register write passes through the write of that register, so that a sleeping unit,
a lock, staging and AUTO act on it too. -/

namespace Sys2Proof.Machine

open Sys2Proof

/-- A write of a register whose row this command is. -/
def State.write (s : State) (a : Nat) (v : W32) : Host.Outcome State Fault Refusal := s.run fun m => m.regWrite a v false

/-! ### Register access and the ridge (R10 to R30) -/

/-- REGISTER_WRITE: `linear` is what a PMBus regulator answers to VOUT_MODE, should the write enable it (R86, log 12). -/
def execRegisterWrite (addr : Nat) (v : BitVec 32) (linear : Bool) (s : State) : Host.Outcome State Fault Refusal :=
  s.run fun m => m.regWrite addr v linear

/-- BRIDGE_ACCESS (R19): a read leaves its value as the answer. -/
def execBridgeAccess (write : Bool) (off : Nat) (v : BitVec 32) (s : State) : Host.Outcome State Fault Refusal :=
  s.run fun m => m.bridge write off v

/-- RIDGE_HEADER_ROUTE (R28, R29). -/
def execRidgeHeaderRoute (node : Nat) (header : BitVec 144) (s : State) : Host.Outcome State Fault Refusal :=
  s.run fun m => m.headerRoute node header

/-- PACKET_ARRIVE (R30). -/
def execPacketArrive (blk : Nat) (header : BitVec 144) (s : State) : Host.Outcome State Fault Refusal :=
  s.run fun m => m.packetArrive blk header

/-! ### Beats and ticks (R34, R45, R79, R558) -/

/-- BEAT_START. -/
def execBeatStart (codes : List (BitVec 8)) (late : List Nat) (table : List Byte) (host : List (List Byte × List Byte)) (s : State) :
    Host.Outcome State Fault Refusal :=
  s.run fun m => m.beatStart codes late table host

/-- TICK_EVENT. -/
def execTickEvent (s : State) : Host.Outcome State Fault Refusal := s.run Mach.tickStart

/-! ### Main power (R38, R39, R732, R734) -/

/-- MAIN_POWER_FAIL. -/
def execMainPowerFail (s : State) : Host.Outcome State Fault Refusal := s.run Mach.powerFail

/-- MAIN_POWER_GOOD. -/
def execMainPowerGood (linear : Bool) (s : State) : Host.Outcome State Fault Refusal := s.run fun m => m.powerUp linear

/-! ### The armature (R46 to R91) -/

/-- PLINTH_WRITE. -/
def execPlinthWrite (v : BitVec 32) (s : State) : Host.Outcome State Fault Refusal := s.write ARM_PLINTH v

/-- LOAD_GO. -/
def execLoadGo (v : BitVec 32) (s : State) : Host.Outcome State Fault Refusal := s.write ARM_LDCTL (putFld v fARM_LDCTL_GO 1)

/-- LOAD_DONE: `host` are the bytes of an image loaded from host memory. -/
def execLoadDone (host : List Byte) (s : State) : Host.Outcome State Fault Refusal := s.run fun m => m.loadEnd host

/-- KEY_REVOKE: the two writes of slot `k` (R61). -/
def execKeyRevoke (k : BitVec 1) (s : State) : Host.Outcome State Fault Refusal :=
  s.run fun m => (m.regWrite ARM_KEYREVOKE (k.setWidth 32) false).regWrite ARM_KEYREVOKE (k.setWidth 32) false

/-- MARGIN_MINCLR. -/
def execMarginMinclr (v : BitVec 32) (s : State) : Host.Outcome State Fault Refusal := s.write ARM_MMCTL (putFld v fARM_MMCTL_MINCLR 1)

/-- BEAT_COUNTER_READ. -/
def execBeatCounterRead (s : State) : Host.Outcome State Fault Refusal := s.run Mach.beatRead

/-- SWAP_ARM. -/
def execSwapArm (s : State) : Host.Outcome State Fault Refusal := s.write ARM_SWAPCTL (putFld 0 fARM_SWAPCTL_ARM 1)

/-- SWAP_CANCEL. -/
def execSwapCancel (s : State) : Host.Outcome State Fault Refusal := s.write ARM_SWAPCTL (putFld 0 fARM_SWAPCTL_CANCEL 1)

/-- FALLBACK_RELOAD. -/
def execFallbackReload (s : State) : Host.Outcome State Fault Refusal := s.run Mach.fbReload

/-- FALLBACK_LOAD_DONE. -/
def execFallbackLoadDone (s : State) : Host.Outcome State Fault Refusal := s.run Mach.fbLoadDone

/-- FALLBACK_START. -/
def execFallbackStart (s : State) : Host.Outcome State Fault Refusal := s.run Mach.fallbackStart

/-- PROFILE_GO. -/
def execProfileGo (v : BitVec 32) (s : State) : Host.Outcome State Fault Refusal := s.write ARM_PROFCTL (putFld v fARM_PROFCTL_GO 1)

/-- VR_ENABLE: `linear` as in REGISTER_WRITE. -/
def execVrEnable (v : BitVec 32) (linear : Bool) (s : State) : Host.Outcome State Fault Refusal :=
  s.run fun m => m.regWrite ARM_VRCTL (putFld v fARM_VRCTL_ENABLE 1) linear

/-- PMBUS_POLL: STATUS_WORD and READ_VOUT in mV. -/
def execPmbusPoll (status : BitVec 16) (mv : Nat) (s : State) : Host.Outcome State Fault Refusal :=
  s.run fun m => m.pmbusPoll status mv

/-- VR_GOOD. -/
def execVrGood (s : State) : Host.Outcome State Fault Refusal := s.run Mach.vrGood

/-- VR_SETTLE_END. -/
def execVrSettleEnd (s : State) : Host.Outcome State Fault Refusal := s.run Mach.settleEnd

/-- VR_TIMEOUT: of a profile change, `good` says that the regulator reported good at the same moment (R87), or of a takeover
(R643). -/
def execVrTimeout (good : Bool) (s : State) : Host.Outcome State Fault Refusal := s.run fun m => (m.vrTimeout good).takeFail

end Sys2Proof.Machine
end

