-- ==== Sys2Proof/Machine/EngineRows.lean ====
section
/-! DEFINITION. The meanings of the engine instructions (R92 to R177): an instruction issues on the engine that the command
names when that engine issues and the word at its program counter is the instruction's encoding (log 50). -/

namespace Sys2Proof.Machine

open Sys2Proof

/-- Issue a word on an engine, with the part it has on a TE and the part it has on LC. -/
def Mach.issue (m : Mach) (e : Eng) (w : W32) (isXfer : Bool) (te : Nat → Mach → Te → Res) (lc : Mach → Lc → LcRes) : Mach :=
  match e with
  | .te n => m.teIssue n.val w isXfer (te n.val)
  | .lc => m.lcIssue w isXfer lc

/-- An instruction that LC has not: its word is undefined there (R147, R150). -/
def lcNone (_ : Mach) (_ : Lc) : LcRes := .bad 8

/-- A word that is no defined encoding for the engine raises ILLEGAL where it stands (R129, R147). -/
def Mach.undefined (m : Mach) (e : Eng) (w : W32) : Mach :=
  let te := match e with | .te _ => true | .lc => false
  if defined te w then m else m.issue e w false (fun _ _ _ => .fault 8) lcNone

/-- An ALU instruction on LC: the operands at the width of the registers named (R177). -/
def lcOp (d : Nat) (rd : Option (BitVec 5)) (wr : BitVec 5) (a b : Nat) (op : Nat → Nat → Nat → Alu) (m : Mach) : LcRes :=
  lcAlu d rd (op (lcW wr) a b) m

/-- A signed immediate at the width of an LC register (R177). -/
def lcImm (r : BitVec 5) (x : Int) : Nat := wrapInt (lcW r) x

/-- An unsigned immediate at the width of an LC register (R177). -/
def lcUimm (r : BitVec 5) (x : BitVec 16) : Nat := x.toNat % 2 ^ lcW r

/-- The INT of a signed immediate (R156). -/
def simm (x : Int) : TWord := intWord (wrapInt 60 x)

/-- A logic operation as an ALU operation (R152). -/
def logic (f : Nat → Nat → Nat) (w a b : Nat) : Alu := aluLogic w (f a b)

/-- `a & ~b` (R152). -/
def andnNat (w a b : Nat) : Nat := andNat a (notNat w b)

/-- ADD (R106, R152 to R154), and a word that is no defined encoding (R147). -/
def execAdd (e : Eng) (rd ra rb : BitVec 5) (undef : Option (BitVec 32)) (s : State) :
    Host.Outcome State Fault Refusal :=
  s.run fun m => match undef with
    | some w => m.undefined e w
    | none => m.issue e (encReg 1 rd ra rb 0x00) false
      (fun _ m t => teAddSub false rd (t.ctx.get ra) (t.ctx.get rb) m)
      (fun m l => lcOp 1 (some rd) rd (l.get ra) (l.get rb) aluAdd m)

/-- SUB (R106, R152 to R154). -/
def execSub (e : Eng) (rd ra rb : BitVec 5) (s : State) :
    Host.Outcome State Fault Refusal :=
  s.run fun m => m.issue e (encReg 1 rd ra rb 0x01) false
    (fun _ m t => teAddSub true rd (t.ctx.get ra) (t.ctx.get rb) m)
    (fun m l => lcOp 1 (some rd) rd (l.get ra) (l.get rb) aluSub m)

/-- AND (R152). -/
def execAnd (e : Eng) (rd ra rb : BitVec 5) (s : State) :
    Host.Outcome State Fault Refusal :=
  s.run fun m => m.issue e (encReg 1 rd ra rb 0x2) false
    (fun _ m t => teAlu 1 (logic andNat 60) (some rd) (t.ctx.get ra) (t.ctx.get rb) m)
    (fun m l => lcOp 1 (some rd) rd (l.get ra) (l.get rb) (logic andNat) m)

/-- OR (R152). -/
def execOr (e : Eng) (rd ra rb : BitVec 5) (s : State) :
    Host.Outcome State Fault Refusal :=
  s.run fun m => m.issue e (encReg 1 rd ra rb 0x3) false
    (fun _ m t => teAlu 1 (logic orNat 60) (some rd) (t.ctx.get ra) (t.ctx.get rb) m)
    (fun m l => lcOp 1 (some rd) rd (l.get ra) (l.get rb) (logic orNat) m)

/-- XOR (R152). -/
def execXor (e : Eng) (rd ra rb : BitVec 5) (s : State) :
    Host.Outcome State Fault Refusal :=
  s.run fun m => m.issue e (encReg 1 rd ra rb 0x4) false
    (fun _ m t => teAlu 1 (logic xorNat 60) (some rd) (t.ctx.get ra) (t.ctx.get rb) m)
    (fun m l => lcOp 1 (some rd) rd (l.get ra) (l.get rb) (logic xorNat) m)

/-- ANDN (R152). -/
def execAndn (e : Eng) (rd ra rb : BitVec 5) (s : State) :
    Host.Outcome State Fault Refusal :=
  s.run fun m => m.issue e (encReg 1 rd ra rb 0x5) false
    (fun _ m t => teAlu 1 (logic (andnNat 60) 60) (some rd) (t.ctx.get ra) (t.ctx.get rb) m)
    (fun m l => lcOp 1 (some rd) rd (l.get ra) (l.get rb) (fun w => logic (andnNat w) w) m)

/-- SHL (R122, R123, R152, R153). -/
def execShl (e : Eng) (rd ra rb : BitVec 5) (s : State) :
    Host.Outcome State Fault Refusal :=
  s.run fun m => m.issue e (encReg 1 rd ra rb 0x6) false
    (fun _ m t => teAlu 1 (aluShl 60) (some rd) (t.ctx.get ra) (t.ctx.get rb) m)
    (fun m l => lcOp 1 (some rd) rd (l.get ra) (l.get rb) aluShl m)

/-- SHR (R122, R123, R152, R153). -/
def execShr (e : Eng) (rd ra rb : BitVec 5) (s : State) :
    Host.Outcome State Fault Refusal :=
  s.run fun m => m.issue e (encReg 1 rd ra rb 0x7) false
    (fun _ m t => teAlu 1 (aluShr 60) (some rd) (t.ctx.get ra) (t.ctx.get rb) m)
    (fun m l => lcOp 1 (some rd) rd (l.get ra) (l.get rb) aluShr m)

/-- SAR (R122, R123, R152, R153). -/
def execSar (e : Eng) (rd ra rb : BitVec 5) (s : State) :
    Host.Outcome State Fault Refusal :=
  s.run fun m => m.issue e (encReg 1 rd ra rb 0x8) false
    (fun _ m t => teAlu 1 (aluSar 60) (some rd) (t.ctx.get ra) (t.ctx.get rb) m)
    (fun m l => lcOp 1 (some rd) rd (l.get ra) (l.get rb) aluSar m)

/-- NEG (R122, R152, R153). -/
def execNeg (e : Eng) (rd ra : BitVec 5) (s : State) :
    Host.Outcome State Fault Refusal :=
  s.run fun m => m.issue e (encReg 1 rd ra 0 0x09) false
    (fun _ m t => teUnary (aluNeg 60) rd (t.ctx.get ra) m)
    (fun m l => lcAlu 1 (some rd) (aluNeg (lcW rd) (l.get ra)) m)

/-- NOT (R152). -/
def execNot (e : Eng) (rd ra : BitVec 5) (s : State) :
    Host.Outcome State Fault Refusal :=
  s.run fun m => m.issue e (encReg 1 rd ra 0 0x0A) false
    (fun _ m t => teUnary (fun a => aluLogic 60 (notNat 60 a)) rd (t.ctx.get ra) m)
    (fun m l => lcAlu 1 (some rd) (aluLogic (lcW rd) (notNat (lcW rd) (l.get ra))) m)

/-- MUL (R97, R122, R152). -/
def execMul (e : Eng) (rd ra rb : BitVec 5) (s : State) :
    Host.Outcome State Fault Refusal :=
  s.run fun m => m.issue e (encReg 1 rd ra rb 0xB) false
    (fun _ m t => teAlu 4 (aluMul 60) (some rd) (t.ctx.get ra) (t.ctx.get rb) m)
    (fun m l => lcOp 2 (some rd) rd (l.get ra) (l.get rb) aluMul m)

/-- MULH (R97, R152). -/
def execMulh (e : Eng) (rd ra rb : BitVec 5) (s : State) :
    Host.Outcome State Fault Refusal :=
  s.run fun m => m.issue e (encReg 1 rd ra rb 0xC) false
    (fun _ m t => teAlu 4 (aluMulh 60) (some rd) (t.ctx.get ra) (t.ctx.get rb) m)
    (fun m l => lcOp 2 (some rd) rd (l.get ra) (l.get rb) aluMulh m)

/-- CMP (R106, R152 to R154). -/
def execCmp (e : Eng) (ra rb : BitVec 5) (s : State) :
    Host.Outcome State Fault Refusal :=
  s.run fun m => m.issue e (encReg 1 0 ra rb 0x0D) false
    (fun _ m t => teCmp (t.ctx.get ra) (t.ctx.get rb) m)
    (fun m l => lcOp 1 none ra (l.get ra) (l.get rb) aluSub m)

/-- CEQ (R106, R152, R155, R177). -/
def execCeq (e : Eng) (ra rb : BitVec 5) (s : State) :
    Host.Outcome State Fault Refusal :=
  s.run fun m => m.issue e (encReg 1 0 ra rb 0x0E) false
    (fun _ m t => teCeq (t.ctx.get ra) (t.ctx.get rb) m)
    (fun m l => .good m (lcFlags 1 [(flZ, l.get ra == l.get rb)]) none false)

/-- MOV (R107, R152, R177). -/
def execMov (e : Eng) (rd ra : BitVec 5) (s : State) :
    Host.Outcome State Fault Refusal :=
  s.run fun m => m.issue e (encReg 1 rd ra 0 0x0F) false
    (fun _ m t => teMov rd (t.ctx.get ra) m)
    (fun m l => .good m [lcReg 1 rd (l.get ra)] none false)

/-- TAGOF (R152, R155). -/
def execTagof (e : Eng) (rd ra : BitVec 5) (s : State) :
    Host.Outcome State Fault Refusal :=
  s.run fun m => m.issue e (encReg 1 rd ra 0 0x10) false
    (fun _ m t => .good { m, ws := wReg 1 rd (intWord (wTag (t.ctx.get ra))) }) lcNone

/-- DIV (R122, R124, R160). -/
def execDiv (e : Eng) (rd rr ra rb : BitVec 5) (s : State) :
    Host.Outcome State Fault Refusal :=
  s.run fun m => m.issue e (encDiv rd rr ra rb) false
    (fun n m t => teDiv rd rr (t.ctx.get ra) (t.ctx.get rb) (m.bit (ENG_TEn_CTL n) fENG_TEn_CTL_DZ_TRAP)
      (encDiv rd rr ra rb) t.ctx m)
    (lcDiv rd rr ra rb)

/-- ADDI (R156). -/
def execAddi (e : Eng) (rd ra : BitVec 5) (imm : BitVec 16) (s : State) :
    Host.Outcome State Fault Refusal :=
  s.run fun m => m.issue e (encImm 0x04 rd ra imm) false
    (fun _ m t => teAddSub false rd (t.ctx.get ra) (simm imm.toInt) m)
    (fun m l => lcOp 1 (some rd) rd (l.get ra) (lcImm rd imm.toInt) aluAdd m)

/-- ANDI (R156). -/
def execAndi (e : Eng) (rd ra : BitVec 5) (imm : BitVec 16) (s : State) :
    Host.Outcome State Fault Refusal :=
  s.run fun m => m.issue e (encImm 0x05 rd ra imm) false
    (fun _ m t => teAlu 1 (logic andNat 60) (some rd) (t.ctx.get ra) (intWord imm.toNat) m)
    (fun m l => lcOp 1 (some rd) rd (l.get ra) (lcUimm rd imm) (logic andNat) m)

/-- ORI (R156). -/
def execOri (e : Eng) (rd ra : BitVec 5) (imm : BitVec 16) (s : State) :
    Host.Outcome State Fault Refusal :=
  s.run fun m => m.issue e (encImm 0x06 rd ra imm) false
    (fun _ m t => teAlu 1 (logic orNat 60) (some rd) (t.ctx.get ra) (intWord imm.toNat) m)
    (fun m l => lcOp 1 (some rd) rd (l.get ra) (lcUimm rd imm) (logic orNat) m)

/-- XORI (R156). -/
def execXori (e : Eng) (rd ra : BitVec 5) (imm : BitVec 16) (s : State) :
    Host.Outcome State Fault Refusal :=
  s.run fun m => m.issue e (encImm 0x07 rd ra imm) false
    (fun _ m t => teAlu 1 (logic xorNat 60) (some rd) (t.ctx.get ra) (intWord imm.toNat) m)
    (fun m l => lcOp 1 (some rd) rd (l.get ra) (lcUimm rd imm) (logic xorNat) m)

/-- SHLI (R123, R156; the count on LC modulo its width in values, log 51). -/
def execShli (e : Eng) (rd ra : BitVec 5) (imm : BitVec 16) (s : State) :
    Host.Outcome State Fault Refusal :=
  s.run fun m => m.issue e (encImm 0x08 rd ra imm) false
    (fun _ m t => teAlu 1 (aluShl 60) (some rd) (t.ctx.get ra) (intWord imm.toNat) m)
    (fun m l => lcOp 1 (some rd) rd (l.get ra) (lcUimm rd imm) aluShl m)

/-- SHRI (R123, R156; the count on LC modulo its width in values, log 51). -/
def execShri (e : Eng) (rd ra : BitVec 5) (imm : BitVec 16) (s : State) :
    Host.Outcome State Fault Refusal :=
  s.run fun m => m.issue e (encImm 0x09 rd ra imm) false
    (fun _ m t => teAlu 1 (aluShr 60) (some rd) (t.ctx.get ra) (intWord imm.toNat) m)
    (fun m l => lcOp 1 (some rd) rd (l.get ra) (lcUimm rd imm) aluShr m)

/-- SARI (R123, R156; the count on LC modulo its width in values, log 51). -/
def execSari (e : Eng) (rd ra : BitVec 5) (imm : BitVec 16) (s : State) :
    Host.Outcome State Fault Refusal :=
  s.run fun m => m.issue e (encImm 0x0A rd ra imm) false
    (fun _ m t => teAlu 1 (aluSar 60) (some rd) (t.ctx.get ra) (intWord imm.toNat) m)
    (fun m l => lcOp 1 (some rd) rd (l.get ra) (lcUimm rd imm) aluSar m)

/-- CMPI (R156): ra must be INT on TE. -/
def execCmpi (e : Eng) (ra : BitVec 5) (imm : BitVec 16) (s : State) :
    Host.Outcome State Fault Refusal :=
  s.run fun m => m.issue e (encImm 0x0B 0 ra imm) false
    (fun _ m t => teAlu 1 (aluSub 60) none (t.ctx.get ra) (simm imm.toInt) m)
    (fun m l => lcOp 1 none ra (l.get ra) (lcImm ra imm.toInt) aluSub m)

/-- MOVI (R156, R177). -/
def execMovi (e : Eng) (rd : BitVec 5) (imm : BitVec 21) (s : State) :
    Host.Outcome State Fault Refusal :=
  s.run fun m => m.issue e (encWide rd imm) false
    (fun _ m _ => .good { m, ws := wReg 1 rd (simm imm.toInt) })
    (fun m _ => .good m [lcReg 1 rd (lcImm rd imm.toInt)] none false)

/-- MOVK (R157). -/
def execMovk (e : Eng) (rd : BitVec 5) (hw : BitVec 2) (imm : BitVec 16) (s : State) :
    Host.Outcome State Fault Refusal :=
  s.run fun m => m.issue e (encHalf rd hw imm) false
    (fun _ m t => teMovk rd (t.ctx.get rd) imm hw m) lcNone

/-- RETAG (R109, R158). -/
def execRetag (e : Eng) (rd ra : BitVec 5) (tag : BitVec 4) (s : State) :
    Host.Outcome State Fault Refusal :=
  s.run fun m => m.issue e (encImm 0x0F rd ra (tag.setWidth 16)) false
    (fun _ m t => teRetag rd (t.ctx.get ra) tag m) lcNone

/-- LD (R98, R106, R110, R111, R161, R177). -/
def execLd (e : Eng) (rd ra : BitVec 5) (imm : BitVec 16) (s : State) :
    Host.Outcome State Fault Refusal :=
  s.run fun m => m.issue e (encImm 0x10 rd ra imm) false
    (fun n m t => teLd n rd (t.ctx.get ra) imm m) (lcLd rd ra imm)

/-- ST (R98, R110, R161, R177, R664). -/
def execSt (e : Eng) (rd ra : BitVec 5) (imm : BitVec 16) (s : State) :
    Host.Outcome State Fault Refusal :=
  s.run fun m => m.issue e (encImm 0x11 rd ra imm) false
    (fun n m t => teSt n (t.ctx.get rd) (t.ctx.get ra) imm t.logs m) (lcSt rd ra imm)

/-- EXT (R159). -/
def execExt (e : Eng) (rd ra : BitVec 5) (pos len1 : BitVec 6) (s : State) :
    Host.Outcome State Fault Refusal :=
  s.run fun m => m.issue e (encField 0x12 rd ra pos len1) false
    (fun _ m t => teExt rd (t.ctx.get ra) pos.toNat (len1.toNat + 1) m)
    (fun m l => lcAlu 1 (some rd) (aluExt (l.get ra) pos.toNat (len1.toNat + 1)) m)

/-- INS (R159). -/
def execIns (e : Eng) (rd ra : BitVec 5) (pos len1 : BitVec 6) (s : State) :
    Host.Outcome State Fault Refusal :=
  s.run fun m => m.issue e (encField 0x13 rd ra pos len1) false
    (fun _ m t => teIns rd (t.ctx.get rd) (t.ctx.get ra) pos.toNat (len1.toNat + 1) m)
    (fun m l => .good m [lcReg 1 rd (aluIns (l.get rd) (l.get ra) pos.toNat (len1.toNat + 1))] none false)

/-- FETCH (R105, R112 to R119, R162). -/
def execFetch (e : Eng) (rl rf : BitVec 5) (len1 : BitVec 6) (flag : BitVec 5) (mode : Bool) (s : State) :
    Host.Outcome State Fault Refusal :=
  s.run fun m => m.issue e (encFar 0x14 rl rf len1 flag mode) false
    (fun n m t => teFar n false (t.ctx.get rl) (t.ctx.get rf) len1 flag mode m t) lcNone

/-- PUT (R105, R112 to R119, R162). -/
def execPut (e : Eng) (rl rf : BitVec 5) (len1 : BitVec 6) (flag : BitVec 5) (mode : Bool) (s : State) :
    Host.Outcome State Fault Refusal :=
  s.run fun m => m.issue e (encFar 0x15 rl rf len1 flag mode) false
    (fun n m t => teFar n true (t.ctx.get rl) (t.ctx.get rf) len1 flag mode m t) lcNone

/-- WAIT (R99, R120, R135, R136, R143, R163). -/
def execWait (e : Eng) (cond ra rb : BitVec 5) (s : State) :
    Host.Outcome State Fault Refusal :=
  s.run fun m => m.issue e (encReg 0x16 cond ra rb 0) false
    (fun n m t => teWait (cond == 1) (t.ctx.get ra) (t.ctx.get rb) m n t) (fun _ l => lcWaitRes l)

/-- ESTAT (R119, R164). -/
def execEstat (e : Eng) (rd f : BitVec 5) (s : State) :
    Host.Outcome State Fault Refusal :=
  s.run fun m => m.issue e (encReg 0x17 rd 0 f 0) false
    (fun n m t => teEstat rd f m n t) lcNone

/-- CLRE (R164, R165). -/
def execClre (e : Eng) (ra : BitVec 5) (s : State) :
    Host.Outcome State Fault Refusal :=
  s.run fun m => m.issue e (encReg 0x17 0 ra 0 1) false
    (fun n m t => teClre (t.ctx.get ra) m n t) lcNone

/-- SIG (R27, R164, R187, R189, R661). -/
def execSig (e : Eng) (ra f : BitVec 5) (s : State) :
    Host.Outcome State Fault Refusal :=
  s.run fun m => m.issue e (encReg 0x17 0 ra f 2) false
    (fun n m t => teSig (t.ctx.get ra) f m n t) lcNone

/-- RDS (R102, R166, R177). -/
def execRds (e : Eng) (rd i : BitVec 5) (s : State) :
    Host.Outcome State Fault Refusal :=
  s.run fun m => m.issue e (encReg 0x18 rd 0 i 0) false
    (fun n m t => teRds rd i m n t) (lcRds rd i)

/-- WRS (R102, R166, R177). -/
def execWrs (e : Eng) (i ra : BitVec 5) (s : State) :
    Host.Outcome State Fault Refusal :=
  s.run fun m => m.issue e (encReg 0x18 0 ra i 1) false
    (fun n m t => teWrs i (t.ctx.get ra) m n t) (lcWrs i ra)

/-- RDX (R131, R166, R167). -/
def execRdx (e : Eng) (rd r : BitVec 5) (s : State) :
    Host.Outcome State Fault Refusal :=
  s.run fun m => m.issue e (encReg 0x18 rd 0 r 2) false
    (fun _ m t => teRdx rd r m t) lcNone

/-- WRX (R131, R166, R167). -/
def execWrx (e : Eng) (r ra : BitVec 5) (s : State) :
    Host.Outcome State Fault Refusal :=
  s.run fun m => m.issue e (encReg 0x18 0 ra r 3) false
    (fun n m t => teWrx r (t.ctx.get ra) m n t) lcNone

/-- The conditional branches (R96, R168, R171). -/
def execBcond (e : Eng) (cond : BitVec 4) (off : BitVec 22) (s : State) :
    Host.Outcome State Fault Refusal :=
  s.run fun m => m.issue e (encBranch cond off) true
    (fun _ m t => teBcond cond off m t) (lcBcond cond off)

/-- CALL (R96, R169, R171). -/
def execCall (e : Eng) (rd : BitVec 5) (off : BitVec 21) (s : State) :
    Host.Outcome State Fault Refusal :=
  s.run fun m => m.issue e (encCall rd off) true
    (fun _ m t => teCall rd off m t) (lcCall rd off)

/-- JR (R96, R169, R171). -/
def execJr (e : Eng) (rd ra : BitVec 5) (s : State) :
    Host.Outcome State Fault Refusal :=
  s.run fun m => m.issue e (encReg 0x22 rd ra 0 0) true
    (fun _ m t => teJr rd (t.ctx.get ra) m t) (lcJr rd ra)

/-- BTAG (R96, R155, R170). -/
def execBtag (e : Eng) (ra : BitVec 5) (tag : BitVec 4) (off : BitVec 16) (s : State) :
    Host.Outcome State Fault Refusal :=
  s.run fun m => m.issue e (encTagbr ra tag false off) true
    (fun _ m t => teBtag false (t.ctx.get ra) tag off m t) lcNone

/-- BNTAG (R96, R155, R170). -/
def execBntag (e : Eng) (ra : BitVec 5) (tag : BitVec 4) (off : BitVec 16) (s : State) :
    Host.Outcome State Fault Refusal :=
  s.run fun m => m.issue e (encTagbr ra tag true off) true
    (fun _ m t => teBtag true (t.ctx.get ra) tag off m t) lcNone

/-- NOP (R172). -/
def execNop (e : Eng) (s : State) :
    Host.Outcome State Fault Refusal :=
  s.run fun m => m.issue e (encReg 0x24 0 0 0 0) false
    (fun _ m _ => .good { m }) (fun m _ => .good m [] none false)

/-- END (R96, R99, R172, R173). -/
def execEndTask (e : Eng) (s : State) :
    Host.Outcome State Fault Refusal :=
  s.run fun m => m.issue e (encReg 0x24 0 0 0 1) true
    (fun _ m t => teEnd m t) lcNone

/-- FRET with mode RETRY (R132, R172, R173). -/
def execFretRetry (e : Eng) (s : State) :
    Host.Outcome State Fault Refusal :=
  s.run fun m => m.issue e (encReg 0x24 0 0 0 2) true
    (fun _ m t => teFret 0 m t) lcNone

/-- FRET with mode SKIP (R132, R172, R173). -/
def execFretSkip (e : Eng) (s : State) :
    Host.Outcome State Fault Refusal :=
  s.run fun m => m.issue e (encReg 0x24 0 0 1 2) true
    (fun _ m t => teFret 1 m t) lcNone

/-- FRET with mode ABANDON (R132, R172, R173). -/
def execFretAbandon (e : Eng) (s : State) :
    Host.Outcome State Fault Refusal :=
  s.run fun m => m.issue e (encReg 0x24 0 0 2 2) true
    (fun _ m t => teFret 2 m t) lcNone

/-- BRK (R129, R145, R172). -/
def execBrk (e : Eng) (s : State) :
    Host.Outcome State Fault Refusal :=
  s.run fun m => m.issue e (encReg 0x24 0 0 0 3) false
    (fun n m _ => teBrk m n) (fun m _ => lcBrk m)

/-- RETI (R141, R172): LC only. -/
def execReti (e : Eng) (s : State) :
    Host.Outcome State Fault Refusal :=
  s.run fun m => m.issue e (encReg 0x24 0 0 0 4) true
    (fun _ _ _ => .fault 8) (fun m _ => .good m [] (some none) true)

/-- REP (R125 to R128, R174): up to `iters` of its iterations pass before the next command (log 52). -/
def execRep (e : Eng) (iters : Nat) (s : State) :
    Host.Outcome State Fault Refusal :=
  s.run fun m => match e with
    | .te n => m.teRep n.val iters
    | .lc => m.lcRep iters

/-- MOVS (R175 to R177). -/
def execMovs (e : Eng) (s : State) :
    Host.Outcome State Fault Refusal :=
  s.run fun m => m.issue e (encReg 0x29 0 0 0 0) false
    (fun n m t => teMovs n m t) (lcString (encReg 0x29 0 0 0 0))

/-- FILLS (R175 to R177). -/
def execFills (e : Eng) (ra : BitVec 5) (s : State) :
    Host.Outcome State Fault Refusal :=
  s.run fun m => m.issue e (encReg 0x29 0 ra 0 1) false
    (fun n m t => teFills n ra m t) (lcString (encReg 0x29 0 ra 0 1))

/-- SCANS (R175 to R177). -/
def execScans (e : Eng) (ra : BitVec 5) (s : State) :
    Host.Outcome State Fault Refusal :=
  s.run fun m => m.issue e (encReg 0x29 0 ra 0 2) false
    (fun n m t => teScans n ra m t) (lcString (encReg 0x29 0 ra 0 2))

/-- CMPS (R175 to R177). -/
def execCmps (e : Eng) (s : State) :
    Host.Outcome State Fault Refusal :=
  s.run fun m => m.issue e (encReg 0x29 0 0 0 3) false
    (fun n m t => teCmps n m t) (lcString (encReg 0x29 0 0 0 3))

end Sys2Proof.Machine
end

