-- ==== Sys2Proof/Machine/FaultRows.lean ====
section
/-! DEFINITION. The meanings of the rows of block FLT: restarts, fatal states, checkpoints (R659, R660, R669, R680 to R683). -/

namespace Sys2Proof.Machine

open Sys2Proof

/-- BLOCK_ILLEGAL_STATE of a block (R669). -/
def execBlockIllegalState (blk : Fin 24) (s : State) : Host.Outcome State Fault Refusal := s.run fun m => m.blockIllegal blk.val

/-- BLOCK_STUCK: a block has held work for `beats` beats without a step and without back-pressure (R669). -/
def execBlockStuck (blk : Fin 24) (beats : Nat) (s : State) : Host.Outcome State Fault Refusal :=
  s.run fun m => m.blockStuck blk.val beats

/-- FATAL in a block (R660). -/
def execFatal (blk : Fin 24) (s : State) : Host.Outcome State Fault Refusal := s.run fun m => m.fatal blk.val

/-- CHECKPOINT_CAPTURE (R680). -/
def execCheckpointCapture (s : State) : Host.Outcome State Fault Refusal := s.run Mach.ckCapture

/-- CHECKPOINT_DONE (R680). -/
def execCheckpointDone (s : State) : Host.Outcome State Fault Refusal := s.run Mach.ckDone

/-- CHECKPOINT_RESTORE: a write of FLT_CKCTL with RESTORE set (R683). -/
def execCheckpointRestore (v : BitVec 32) (s : State) : Host.Outcome State Fault Refusal :=
  s.run fun m => m.regWrite FLT_CKCTL (putFld v fFLT_CKCTL_RESTORE 1) false

end Sys2Proof.Machine
end

