-- ==== Sys2Proof/Machine/HifRows.lean ====
section
/-! DEFINITION. The meanings of the rows of block HIF (R572 to R608). -/

namespace Sys2Proof.Machine

open Sys2Proof

/-! ### The function and its doorbells (R576, R581 to R585, R702) -/

/-- FLR. -/
def execFlr (s : State) : Host.Outcome State Fault Refusal := s.run Mach.flr

/-- D3HOT_ENTER. -/
def execD3hotEnter (s : State) : Host.Outcome State Fault Refusal := s.run Mach.d3Enter

/-- D0_RETURN. -/
def execD0Return (s : State) : Host.Outcome State Fault Refusal := s.run Mach.d0Return

/-- PCIE_L1_ENTER. -/
def execPcieL1Enter (s : State) : Host.Outcome State Fault Refusal := s.run Mach.l1Enter

/-- DOORBELL_READ_DONE: the bytes of the doorbell page and of the ring table (log 12). -/
def execDoorbellReadDone (page table : List Byte) (s : State) : Host.Outcome State Fault Refusal :=
  s.run fun m => m.doorbellDone page table

/-- DOORBELL_READ_ERROR: the completion's status, and whether the timeout ended the read. -/
def execDoorbellReadError (status : Fin 8) (timeout : Bool) (s : State) : Host.Outcome State Fault Refusal :=
  s.run fun m => m.doorbellError status.val timeout

/-! ### The commands of the command rings (R593 to R600)

Each row is HIF's taking of the ring's next entry where that entry holds the row's command: `entry` are its 32 bytes, `buf` its
indirect buffer where that has been read already, `data` what the host's memory holds at the address that the operands name (log
12). The command executes as soon as its ring's order, its beat and its buffer let it. -/

/-- Whether a command has an opcode. -/
def Cmd.isOp (k : Nat) (c : Cmd) : Bool := c.opcode == k

/-- NOP_CMD. -/
def execNopCmd (ring : Fin 64) (entry : List Byte) (buf : Option (List Byte)) (data : List Byte) (s : State) :
    Host.Outcome State Fault Refusal :=
  s.run fun m => m.cmdArrive ring.val entry buf data (Cmd.isOp 0x00)

/-- STA_SET. -/
def execStaSet (ring : Fin 64) (entry : List Byte) (buf : Option (List Byte)) (data : List Byte) (s : State) :
    Host.Outcome State Fault Refusal :=
  s.run fun m => m.cmdArrive ring.val entry buf data (Cmd.isOp 0x10)

/-- STA_DEL. -/
def execStaDel (ring : Fin 64) (entry : List Byte) (buf : Option (List Byte)) (data : List Byte) (s : State) :
    Host.Outcome State Fault Refusal :=
  s.run fun m => m.cmdArrive ring.val entry buf data (Cmd.isOp 0x11)

/-- BA_SET_ADD: BA_SET with any other action than DELETE, or with operands not yet read. -/
def execBaSetAdd (ring : Fin 64) (entry : List Byte) (buf : Option (List Byte)) (data : List Byte) (s : State) :
    Host.Outcome State Fault Refusal :=
  s.run fun m => m.cmdArrive ring.val entry buf data fun c => c.isOp 0x12 && (c.unread || c.arg 8 1 != 1)

/-- BA_SET_DELETE: BA_SET with action DELETE, or with operands not yet read. -/
def execBaSetDelete (ring : Fin 64) (entry : List Byte) (buf : Option (List Byte)) (data : List Byte) (s : State) :
    Host.Outcome State Fault Refusal :=
  s.run fun m => m.cmdArrive ring.val entry buf data fun c => c.isOp 0x12 && (c.unread || c.arg 8 1 == 1)

/-- KEY_INSTALL. -/
def execKeyInstall (ring : Fin 64) (entry : List Byte) (buf : Option (List Byte)) (data : List Byte) (s : State) :
    Host.Outcome State Fault Refusal :=
  s.run fun m => m.cmdArrive ring.val entry buf data (Cmd.isOp 0x18)

/-- KEY_DELETE. -/
def execKeyDelete (ring : Fin 64) (entry : List Byte) (buf : Option (List Byte)) (data : List Byte) (s : State) :
    Host.Outcome State Fault Refusal :=
  s.run fun m => m.cmdArrive ring.val entry buf data (Cmd.isOp 0x19)

/-- QUEUE_SET. -/
def execQueueSet (ring : Fin 64) (entry : List Byte) (buf : Option (List Byte)) (data : List Byte) (s : State) :
    Host.Outcome State Fault Refusal :=
  s.run fun m => m.cmdArrive ring.val entry buf data (Cmd.isOp 0x20)

/-- SHAPER_SET. -/
def execShaperSet (ring : Fin 64) (entry : List Byte) (buf : Option (List Byte)) (data : List Byte) (s : State) :
    Host.Outcome State Fault Refusal :=
  s.run fun m => m.cmdArrive ring.val entry buf data (Cmd.isOp 0x21)

/-- POLICER_SET. -/
def execPolicerSet (ring : Fin 64) (entry : List Byte) (buf : Option (List Byte)) (data : List Byte) (s : State) :
    Host.Outcome State Fault Refusal :=
  s.run fun m => m.cmdArrive ring.val entry buf data (Cmd.isOp 0x22)

/-- TWT_BIND. -/
def execTwtBind (ring : Fin 64) (entry : List Byte) (buf : Option (List Byte)) (data : List Byte) (s : State) :
    Host.Outcome State Fault Refusal :=
  s.run fun m => m.cmdArrive ring.val entry buf data (Cmd.isOp 0x23)

/-- TWT_UNBIND. -/
def execTwtUnbind (ring : Fin 64) (entry : List Byte) (buf : Option (List Byte)) (data : List Byte) (s : State) :
    Host.Outcome State Fault Refusal :=
  s.run fun m => m.cmdArrive ring.val entry buf data (Cmd.isOp 0x24)

/-- BCN_TEMPLATE. -/
def execBcnTemplate (ring : Fin 64) (entry : List Byte) (buf : Option (List Byte)) (data : List Byte) (s : State) :
    Host.Outcome State Fault Refusal :=
  s.run fun m => m.cmdArrive ring.val entry buf data (Cmd.isOp 0x28)

/-- TBL_HASH_FIND: TBL_HASH with any other operation than INSERT and DELETE, or with operands not yet read. -/
def execTblHashFind (ring : Fin 64) (entry : List Byte) (buf : Option (List Byte)) (data : List Byte) (s : State) :
    Host.Outcome State Fault Refusal :=
  s.run fun m => m.cmdArrive ring.val entry buf data fun c => c.isOp 0x30 && (c.unread || (c.arg 1 1 != 2 && c.arg 1 1 != 3))

/-- TBL_HASH_INSERT. -/
def execTblHashInsert (ring : Fin 64) (entry : List Byte) (buf : Option (List Byte)) (data : List Byte) (s : State) :
    Host.Outcome State Fault Refusal :=
  s.run fun m => m.cmdArrive ring.val entry buf data fun c => c.isOp 0x30 && (c.unread || c.arg 1 1 == 2)

/-- TBL_HASH_DELETE. -/
def execTblHashDelete (ring : Fin 64) (entry : List Byte) (buf : Option (List Byte)) (data : List Byte) (s : State) :
    Host.Outcome State Fault Refusal :=
  s.run fun m => m.cmdArrive ring.val entry buf data fun c => c.isOp 0x30 && (c.unread || c.arg 1 1 == 3)

/-- TBL_WRITE. -/
def execTblWrite (ring : Fin 64) (entry : List Byte) (buf : Option (List Byte)) (data : List Byte) (s : State) :
    Host.Outcome State Fault Refusal :=
  s.run fun m => m.cmdArrive ring.val entry buf data (Cmd.isOp 0x31)

/-- WPOL_SET. -/
def execWpolSet (ring : Fin 64) (entry : List Byte) (buf : Option (List Byte)) (data : List Byte) (s : State) :
    Host.Outcome State Fault Refusal :=
  s.run fun m => m.cmdArrive ring.val entry buf data (Cmd.isOp 0x32)

/-- TX_IMM. -/
def execTxImm (ring : Fin 64) (entry : List Byte) (buf : Option (List Byte)) (data : List Byte) (s : State) :
    Host.Outcome State Fault Refusal :=
  s.run fun m => m.cmdArrive ring.val entry buf data (Cmd.isOp 0x40)

/-- MESH_CMD. -/
def execMeshCmd (ring : Fin 64) (entry : List Byte) (buf : Option (List Byte)) (data : List Byte) (s : State) :
    Host.Outcome State Fault Refusal :=
  s.run fun m => m.cmdArrive ring.val entry buf data (Cmd.isOp 0x50)

/-- CFG_STAGE. -/
def execCfgStage (ring : Fin 64) (entry : List Byte) (buf : Option (List Byte)) (data : List Byte) (s : State) :
    Host.Outcome State Fault Refusal :=
  s.run fun m => m.cmdArrive ring.val entry buf data (Cmd.isOp 0x60)

/-- CFG_COMMIT. -/
def execCfgCommit (ring : Fin 64) (entry : List Byte) (buf : Option (List Byte)) (data : List Byte) (s : State) :
    Host.Outcome State Fault Refusal :=
  s.run fun m => m.cmdArrive ring.val entry buf data (Cmd.isOp 0x61)

/-- BAD_OPCODE: any opcode that R596 does not list. -/
def execBadOpcode (ring : Fin 64) (entry : List Byte) (buf : Option (List Byte)) (data : List Byte) (s : State) :
    Host.Outcome State Fault Refusal :=
  s.run fun m => m.cmdArrive ring.val entry buf data fun c => !cmdOpcodes.contains c.opcode

/-- INDIRECT_READ_DONE: the bytes of the oldest unread buffer of a ring, none where the read failed. -/
def execIndirectReadDone (ring : Fin 64) (buf : Option (List Byte)) (s : State) : Host.Outcome State Fault Refusal :=
  s.run fun m => m.indirectDone ring.val buf

/-! ### Packet rings (R601 to R607) -/

/-- HOST_FRAME_TAKE: the entries of one frame of a from-host ring and the bytes of its buffers. -/
def execHostFrameTake (ring : Fin 192) (entries : List (List Byte)) (data : List Byte) (s : State) :
    Host.Outcome State Fault Refusal :=
  s.run fun m => m.hostFrame ring.val entries data

/-- POST. -/
def execPost (te : Fin 16) (id : Nat) (s : State) : Host.Outcome State Fault Refusal := s.run fun m => m.postUnit te.val id

/-- POSTD. -/
def execPostd (te : Fin 16) (id : Nat) (s : State) : Host.Outcome State Fault Refusal := s.run fun m => m.postdUnit te.val id

/-- RING_FRAME_WRITE: the address and BUFLEN of the buffers posted for the ring's next frame. -/
def execRingFrameWrite (ring : Fin 192) (bufs : List (Nat × Nat)) (s : State) : Host.Outcome State Fault Refusal :=
  s.run fun m => m.ringWrite ring.val bufs

/-- RINGWAIT_EXPIRY: the buffers posted, too few for the frame. -/
def execRingwaitExpiry (ring : Fin 192) (bufs : List (Nat × Nat)) (s : State) : Host.Outcome State Fault Refusal :=
  s.run fun m => m.ringExpiry ring.val bufs

/-! ### Messages and the diagnostic window (R591, R608) -/

/-- MSIX_UNMASK. -/
def execMsixUnmask (v : Fin 64) (s : State) : Host.Outcome State Fault Refusal := s.run fun m => m.msixUnmask v.val

/-- DIAG_READ of the four bytes at an offset of the window. -/
def execDiagRead (off : BitVec 28) (s : State) : Host.Outcome State Fault Refusal := s.run fun m => m.diagRead off.toNat

/-- DIAG_WRITE. -/
def execDiagWrite (off : BitVec 28) (v : BitVec 32) (s : State) : Host.Outcome State Fault Refusal :=
  s.run fun m => m.diagWrite off.toNat v

end Sys2Proof.Machine
end

