-- ==== Sys2Proof/Machine/MemRows.lean ====
section
/-! DEFINITION. The meanings of the rows of memory, the check channels and non-volatile memory (R498 to R545, R685, R735). -/

namespace Sys2Proof.Machine

open Sys2Proof

/-! ### DRAM (R505 to R523) -/

/-- DRAM_REQUEST: a write of the words, or a read of `len` code words. -/
def execDramRequest (addr : Nat) (write : Bool) (words : List (BitVec 144)) (len : Nat) (s : State) :
    Host.Outcome State Fault Refusal :=
  s.run fun m => m.dramRequest ⟨addr, write, words, len, 0⟩

/-- POISON_NOTE_RECEIVE (R685). -/
def execPoisonNoteReceive (s : State) : Host.Outcome State Fault Refusal := s.run Mach.noteTake

/-- MEMWIN_OPEN: window `i` of the active armature. -/
def execMemwinOpen (i : Nat) (s : State) : Host.Outcome State Fault Refusal := s.run fun m => m.memWindow i

/-- REFRESH_INTERVAL. -/
def execRefreshInterval (c : Fin 4) (b : Fin 16) (s : State) : Host.Outcome State Fault Refusal :=
  s.run fun m => m.refreshOwed c.val b.val

/-- REFRESH_DONE. -/
def execRefreshDone (c : Fin 4) (b : Fin 16) (s : State) : Host.Outcome State Fault Refusal :=
  s.run fun m => m.refreshDone c.val b.val

/-- MR4_READ: the refresh-rate code, the DQS oscillator count, and the drift in ps (log 12). -/
def execMr4Read (c : Fin 4) (rr : BitVec 5) (osc : Nat) (drift : Nat) (s : State) : Host.Outcome State Fault Refusal :=
  s.run fun m => m.mr4Read c.val rr osc drift

/-- MEM_TRAIN: a write of MEM_CTL with TRAIN set. -/
def execMemTrain (v : BitVec 32) (s : State) : Host.Outcome State Fault Refusal :=
  s.run fun m => m.regWrite MEM_CTL (putFld v fMEM_CTL_TRAIN 1) false

/-- TRAIN_DONE: the channels that failed; the start-up may go on (R707). -/
def execTrainDone (fail : BitVec 4) (s : State) : Host.Outcome State Fault Refusal := s.run fun m => (m.trainDone fail).bootNext

/-! ### Scrubbing (R524, R525, R530) -/

/-- SCRUB_READ: of DRAM, class SRAM, pair `i` of TE `n`'s local memory, or word `i` of channel `n`. `met` where a write
of the word arrives between the read and the write-back, which is then dropped (R526). With MEM_SCRUB.EN clear the scrubber does not run. -/
def execScrubRead (space : Fin 4) (n i : Nat) (met : Bool) (s : State) : Host.Outcome State Fault Refusal :=
  s.run fun m => if !m.bit MEM_SCRUB fMEM_SCRUB_EN then m else match space.val with
    | 0 => m.scrubDram met
    | 1 => m.scrubSram met
    | 2 => m.scrubLmem (n % 16) i met
    | _ => m.scrubQueue n i met

/-- NVM_SCRUB. -/
def execNvmScrub (s : State) : Host.Outcome State Fault Refusal := s.run Mach.nvmScrub

/-! ### Settings (R531 to R535, R735) -/

/-- SETTINGS_LOCK: the two writes of the key (R531). -/
def execSettingsLock (s : State) : Host.Outcome State Fault Refusal :=
  s.run fun m => (m.regWrite NVM_LOCKKEY 0x4C4F434B false).regWrite NVM_LOCKKEY 0x4C4F434B false

/-- REGREC_WRITE: word `j` of the regulatory record. -/
def execRegrecWrite (j : Fin 32) (v : BitVec 32) (s : State) : Host.Outcome State Fault Refusal :=
  s.run fun m => m.regWrite (NVM_REGRECj j.val) v false

/-- VBAK_GOOD_RISE. -/
def execVbakGoodRise (s : State) : Host.Outcome State Fault Refusal := s.run Mach.vbakRise

/-- VBAK_GOOD_FALL. -/
def execVbakGoodFall (s : State) : Host.Outcome State Fault Refusal := s.run Mach.vbakFall

/-! ### Check channels (R536 to R543) -/

/-- CHK_GO: a write of CHK_Cc_CTL with GO set. -/
def execChkGo (c : Fin 8) (v : BitVec 32) (s : State) : Host.Outcome State Fault Refusal :=
  s.run fun m => m.regWrite (CHK_Cc_CTL c.val) (putFld v fCHK_Cc_CTL_GO 1) false

/-- CHK_ABORT: the bytes scanned so far, and the host's bytes of a scan of host memory. -/
def execChkAbort (c : Fin 8) (n : Nat) (host : List Byte) (s : State) : Host.Outcome State Fault Refusal :=
  s.run fun m => m.chkAbort c.val n host

/-- CHK_DONE. -/
def execChkDone (c : Fin 8) (host : List Byte) (s : State) : Host.Outcome State Fault Refusal := s.run fun m => m.chkDone c.val host

end Sys2Proof.Machine
end

