-- ==== Sys2Proof/Machine/MeshRows.lean ====
section
/-! DEFINITION. The meanings of the rows of the mesh radio, the mesh link layer and the lantern's units (R374 to R453). -/

namespace Sys2Proof.Machine

open Sys2Proof

/-! ### The mesh radio (R374 to R414): powers in quarter-dBm, what the air carries as operands (log 12) -/

/-- MESH_TRANSITION_DONE. -/
def execMeshTransitionDone (s : State) : Host.Outcome State Fault Refusal := s.run Mach.mradArrive

/-- MESH_SYNTH_LOCK. -/
def execMeshSynthLock (s : State) : Host.Outcome State Fault Refusal := s.run fun m => m.meshLock.airNext

/-- MESH_TX_SYNTH_DEADLINE. -/
def execMeshTxSynthDeadline (s : State) : Host.Outcome State Fault Refusal := s.run fun m => m.meshDeadline.airNext

/-- MESH_LOCK_LOSS. -/
def execMeshLockLoss (s : State) : Host.Outcome State Fault Refusal := s.run fun m => m.meshLockLoss.airNext

/-- MESH_PREAMBLE_DETECT. -/
def execMeshPreambleDetect (power : Int) (snr cfo : Nat) (s : State) : Host.Outcome State Fault Refusal :=
  s.run fun m => m.meshDetect power snr cfo

/-- MESH_FALSE_LOCK. -/
def execMeshFalseLock (s : State) : Host.Outcome State Fault Refusal := s.run Mach.meshFalseLock

/-- MESH_SYNC_ACCEPT: the power and the errors in the sync word. -/
def execMeshSyncAccept (power : Int) (errs : Nat) (s : State) : Host.Outcome State Fault Refusal :=
  s.run fun m => m.meshSync power errs

/-- MESH_HEADER: the three bytes of the header block. -/
def execMeshHeader (b0 b1 b2 : Byte) (s : State) : Host.Outcome State Fault Refusal := s.run fun m => m.meshHeader b0 b1 b2

/-- MESH_RX_END: a reception that ended whole. -/
def execMeshRxEnd (snr cfo : Nat) (payload : List Byte) (s : State) : Host.Outcome State Fault Refusal :=
  s.run fun m => m.meshRxEnd true snr cfo payload

/-- MESH_RX_TRUNCATE. -/
def execMeshRxTruncate (snr cfo : Nat) (s : State) : Host.Outcome State Fault Refusal := s.run fun m => m.meshRxEnd false snr cfo []

/-- MESH_TX_END. -/
def execMeshTxEnd (s : State) : Host.Outcome State Fault Refusal := s.run fun m => m.meshTxEnd.airNext

/-- MESH_CAL_GO: a write of MSH_MRCAL with GO set. -/
def execMeshCalGo (v : BitVec 32) (s : State) : Host.Outcome State Fault Refusal :=
  s.run fun m => m.regWrite MSH_MRCAL (putFld v fMSH_MRCAL_GO 1) false

/-- MESH_CAL_DONE: the image rejection in dB that an IRR calibration measured. -/
def execMeshCalDone (db : Nat) (s : State) : Host.Outcome State Fault Refusal := s.run fun m => (m.meshCalDone db).airNext

/-- MESH_CAL_STALE: the die temperature's distance in °C from that of the last IRR. -/
def execMeshCalStale (dt : Nat) (s : State) : Host.Outcome State Fault Refusal := s.run fun m => m.meshTemp dt

/-- DUTY_BUCKET_END. -/
def execDutyBucketEnd (s : State) : Host.Outcome State Fault Refusal := s.run Mach.dutyEnd

/-- WAKE_MATCH. -/
def execWakeMatch (s : State) : Host.Outcome State Fault Refusal := s.run Mach.wakeMatch

/-- WAKE_ENABLE: a write of MSH_WAKECTL with EN set. -/
def execWakeEnable (v : BitVec 32) (s : State) : Host.Outcome State Fault Refusal :=
  s.run fun m => m.regWrite MSH_WAKECTL (putFld v fMSH_WAKECTL_EN 1) false

/-! ### The link (R415 to R443) -/

/-- The next superframe boundary: of the grid in force, or of a scheduled template's grid where that comes first and the template is to
be in force (R421, R425). -/
def Mach.sfNext (m : Mach) : Option Nat :=
  let l := m.mlink
  let t := if l.force ≠ [] then l.force else if l.swapTo = 1 then l.live else if l.swapTo = 2 then l.backup else []
  let own := if t = [] then none else some ((m.tb4 / max 1 (tplBi t) + 1) * tplBi t)
  match m.mlink.apply with
  | some (sec, slot) =>
    let a := applyAt m.mlink.staged sec
    if m.applyForces slot then
      match own with
      | some b => some (if m.tb4 < a ∧ a < b then a else b)
      | none => some a
    else own
  | none => own

/-- TB4 runs on to the next superframe boundary, where none has passed unseen (R421). -/
def Mach.toSuperframe (m : Mach) : Mach :=
  if m.mlink.force ≠ [] ∧ m.mlink.sfn < m.tb4 / max 1 (tplBi m.mlink.force) then m
  else match m.sfNext with
    | some t => m.reachLantern t
    | none => m

/-- SUPERFRAME_START. -/
def execSuperframeStart (s : State) : Host.Outcome State Fault Refusal := s.run fun m => m.toSuperframe.superframe

/-- MESH_SLOT_START: slot `j` of the superframe under way; TB4 runs on to its start, or to the opening of its window (R423, R434). -/
def execMeshSlotStart (j : Nat) (s : State) : Host.Outcome State Fault Refusal :=
  s.run fun m => (m.reachLantern (m.slotInstant j)).meshSlot j

/-- MESH_DATA_RECEIVE. -/
def execMeshDataReceive (s : State) : Host.Outcome State Fault Refusal := s.run Mach.dataReceive

/-- MESH_ACK_RECEIVE. -/
def execMeshAckReceive (s : State) : Host.Outcome State Fault Refusal := s.run Mach.ackReceive

/-- MESH_FLOOD_RECEIVE. -/
def execMeshFloodReceive (s : State) : Host.Outcome State Fault Refusal := s.run Mach.floodReceive

/-- MESH_PARENT_RECEIVE. -/
def execMeshParentReceive (s : State) : Host.Outcome State Fault Refusal := s.run Mach.parentReceive

/-- TB4 runs on to the instant at which the open window closes (R434, R453). -/
def Mach.toWindowEnd (m : Mach) : Mach :=
  match m.mlink.window with
  | some w => (match w.closes with | some t => if w.closed then m else m.reachLantern t | none => m)
  | none => m

/-- LK_WINDOW_CLOSE: TB4 runs on to the instant of its close (R434, R453). -/
def execLkWindowClose (s : State) : Host.Outcome State Fault Refusal := s.run fun m => m.toWindowEnd.windowClose

/-- RESYNC_BURST: TB4 runs on to N − U − 12 ms (R437). -/
def execResyncBurst (node : Nat) (s : State) : Host.Outcome State Fault Refusal :=
  s.run fun m => match m.burstPlan node with
    | some (i, t) => (m.reachLantern (t - m.resyncU (tabGet Nbr.zero m.mlink.nbrs i) t - 12000000)).resyncBurst i t
    | none => m

/-- TB4 runs on to 20 ms after the burst's end, where a node waits for its RESYNC and the burst has ended (R437). -/
def Mach.toResync (m : Mach) (node : Nat) : Mach :=
  match m.mlink.nbrOf node with
  | some i => m.when ((tabGet Nbr.zero m.mlink.nbrs i).resync = 1 ∧ m.mrad.tx = none ∧ m.mlink.air = []) fun x =>
      x.reachLantern (m.mlink.burstEnd + 20000000)
  | none => m

/-- RESYNC_SEND: TB4 runs on to 20 ms after the burst's end (R437). -/
def execResyncSend (node : Nat) (s : State) : Host.Outcome State Fault Refusal :=
  s.run fun m => (m.toResync node).resyncSend node

/-- MESH_ACK_SEND: TB4 runs on to 500 µs after the end of the frame it answers (R438). -/
def execMeshAckSend (s : State) : Host.Outcome State Fault Refusal :=
  s.run fun m => match m.mlink.acks with
    | (due, _) :: _ => (m.reachLantern due).ackSend
    | [] => m

/-- The instant a scheduled relay goes out at, or its delay's end where no FLOOD slot remains; 0 without one (R442). -/
def Mach.relayDue (m : Mach) (orig seq : Nat) : Nat :=
  match m.mlink.seen.find? fun e => e.orig == orig && e.seq == seq with
  | some e => (match e.relay with | some r => ((m.floodAt r.1).map fun g => g.1).getD r.1 | none => 0)
  | none => 0

/-- FLOOD_RELAY: TB4 runs on to the FLOOD-slot instant at or after the relay's delay (R442). -/
def execFloodRelay (orig seq : Nat) (s : State) : Host.Outcome State Fault Refusal :=
  s.run fun m => (m.reachLantern (m.relayDue orig seq)).floodRelay orig seq

/-- SEEN_AGE: TB4 runs on to 60 s after the entry entered (R443). -/
def execSeenAge (orig seq : Nat) (s : State) : Host.Outcome State Fault Refusal :=
  s.run fun m => match m.mlink.seen.find? fun e => e.orig == orig && e.seq == seq with
    | some e => (m.reachLantern (e.at_ + 60000000000)).seenAge orig seq
    | none => m

/-! ### The mailbox (R444 to R450): a command is the item at the head of its channel; a mesh command of the host that waited for
room goes on after it (R602) -/

/-- MBOX_OPEN. -/
def execMboxOpen (s : State) : Host.Outcome State Fault Refusal := s.run fun m => m.mboxOpen.hifPump

/-- MBOX_ACK. -/
def execMboxAck (s : State) : Host.Outcome State Fault Refusal := s.run fun m => m.mboxAck.hifPump

/-- TPL_DATA. -/
def execTplData (s : State) : Host.Outcome State Fault Refusal := s.run fun m => m.tplData.hifPump

/-- TPL_APPLY. -/
def execTplApply (s : State) : Host.Outcome State Fault Refusal := s.run fun m => m.tplApply.hifPump

/-- NODE_ADD. -/
def execNodeAdd (s : State) : Host.Outcome State Fault Refusal := s.run fun m => m.nodeAdd.hifPump

/-- NODE_DELETE. -/
def execNodeDelete (s : State) : Host.Outcome State Fault Refusal := s.run fun m => m.nodeDelete.hifPump

/-- MESH_KEY. -/
def execMeshKey (s : State) : Host.Outcome State Fault Refusal := s.run fun m => m.meshKey.hifPump

/-- NBR_DEL. -/
def execNbrDel (s : State) : Host.Outcome State Fault Refusal := s.run fun m => m.nbrDel.hifPump

/-- MESH_DOWN. -/
def execMeshDown (s : State) : Host.Outcome State Fault Refusal := s.run fun m => m.meshDown.hifPump

/-- MESH_FLOOD_ITEM. -/
def execMeshFloodItem (s : State) : Host.Outcome State Fault Refusal := s.run fun m => m.meshFloodItem.hifPump

/-- MBOX_BAD_ITEM: an item on channel `ch`. -/
def execMboxBadItem (ch : Nat) (s : State) : Host.Outcome State Fault Refusal := s.run fun m => (m.mboxBad ch).hifPump

/-- LOG_POINTER_SAVE. -/
def execLogPointerSave (s : State) : Host.Outcome State Fault Refusal := s.run Mach.pointerSave

/-! ### The I/O page of the lantern core (R453) -/

/-- The four bytes of LK_CMD, written in order by a core that is powered; LK_AT stands as it was written before. -/
def Mach.lkCommand (m : Mach) (op profile buf len : Nat) : Mach :=
  m.when m.lanternOn fun x =>
    (((x.portWrite 0xF308 (BitVec.ofNat 8 op)).portWrite 0xF309 (BitVec.ofNat 8 profile)).portWrite 0xF30A (BitVec.ofNat 8 buf)).portWrite
      0xF30B (BitVec.ofNat 8 len)

/-- LK_RX_WINDOW. -/
def execLkRxWindow (profile : BitVec 2) (buf len : Byte) (s : State) : Host.Outcome State Fault Refusal :=
  s.run fun m => m.lkCommand 1 profile.toNat buf.toNat len.toNat

/-- LK_TX. -/
def execLkTx (profile : BitVec 2) (buf len : Byte) (s : State) : Host.Outcome State Fault Refusal :=
  s.run fun m => m.lkCommand 2 profile.toNat buf.toNat len.toNat

/-- LK_WAKE_BURST: `len` repetitions. -/
def execLkWakeBurst (len : Byte) (s : State) : Host.Outcome State Fault Refusal := s.run fun m => m.lkCommand 3 0 0 len.toNat

/-- LK_CAL: the kind of calibration. -/
def execLkCal (kind : BitVec 2) (s : State) : Host.Outcome State Fault Refusal := s.run fun m => m.lkCommand 4 kind.toNat 0 0

/-- The lantern's timer runs on to the instant of the head command (R453). -/
def Mach.toLkAt (m : Mach) : Mach :=
  match m.mlink.queue with
  | c :: _ =>
    let d := (c.at_ + 2 ^ 32 - m.lkNow) % 2 ^ 32
    if d = 0 ∨ 2 ^ 31 ≤ d ∨ !m.lanternOn then m
    else m.elapse (((m.mlink.timer / 2000 + d) * 2000 - m.mlink.timer + 4) / 5)
  | [] => m

/-- LK_COMMAND_START. -/
def execLkCommandStart (s : State) : Host.Outcome State Fault Refusal := s.run fun m => m.toLkAt.lkStart

/-- LK_NOW_READ: byte 0, as the answer. -/
def execLkNowRead (s : State) : Host.Outcome State Fault Refusal :=
  s.run fun m => if m.lanternOn then
    let r := m.ioRead 0xF300
    r.1.setAnswer (r.2.setWidth 32) else m

/-- MB_END: MB_CTL written with END set. -/
def execMbEnd (s : State) : Host.Outcome State Fault Refusal :=
  s.run fun m => m.when m.lanternOn fun x => ((x.portWrite 0xF348 1).portWrite 0xF34B 0).hifPump

/-- LG_COMMIT: LG_CTL written with COMMIT set. -/
def execLgCommit (s : State) : Host.Outcome State Fault Refusal :=
  s.run fun m => m.when m.lanternOn fun x => (x.portWrite 0xF384 1).portWrite 0xF387 0

/-- CC_CTL written with GO set, by a core that is powered. -/
def Mach.ccmCommand (m : Mach) (decrypt mic8 : Bool) (buf len : Nat) : Mach :=
  m.when m.lanternOn fun x =>
    (((x.portWrite 0xF3C0 (BitVec.ofNat 8 (1 + (if decrypt then 2 else 0) + (if mic8 then 4 else 0)))).portWrite 0xF3C1
      (BitVec.ofNat 8 buf)).portWrite 0xF3C2 (BitVec.ofNat 8 len)).portWrite 0xF3C3 0

/-- CCM_ENCRYPT. -/
def execCcmEncrypt (mic8 : Bool) (buf len : Byte) (s : State) : Host.Outcome State Fault Refusal :=
  s.run fun m => m.ccmCommand false mic8 buf.toNat len.toNat

/-- CCM_DECRYPT. -/
def execCcmDecrypt (mic8 : Bool) (buf len : Byte) (s : State) : Host.Outcome State Fault Refusal :=
  s.run fun m => m.ccmCommand true mic8 buf.toNat len.toNat

/-- CCM_DONE. -/
def execCcmDone (s : State) : Host.Outcome State Fault Refusal := s.run Mach.ccmDone

end Sys2Proof.Machine
end

