-- ==== Sys2Proof/Machine/PowerRows.lean ====
section
/-! DEFINITION. The meanings of the rows of power control (R689 to R704). -/

namespace Sys2Proof.Machine

open Sys2Proof

/-- PWR_RETAIN: a write of a block's PWRCTL with GO and REQ RETAIN (R691, R693). -/
def execPwrRetain (blk : Fin 24) (v : BitVec 32) (s : State) : Host.Outcome State Fault Refusal :=
  s.run fun m => m.regWrite (PWRCTL blk.val) (putFld (putFld v fPWRCTL_REQ 1) fPWRCTL_GO 1) false

/-- PWR_OFF: a write with GO and REQ OFF. -/
def execPwrOff (blk : Fin 24) (v : BitVec 32) (s : State) : Host.Outcome State Fault Refusal :=
  s.run fun m => m.regWrite (PWRCTL blk.val) (putFld (putFld v fPWRCTL_REQ 2) fPWRCTL_GO 1) false

/-- PWR_ACTIVE: a write with GO and REQ ACTIVE (R696). -/
def execPwrActive (blk : Fin 24) (v : BitVec 32) (s : State) : Host.Outcome State Fault Refusal :=
  s.run fun m => m.regWrite (PWRCTL blk.val) (putFld (putFld v fPWRCTL_REQ 0) fPWRCTL_GO 1) false

/-- PWR_CANCEL: a write with CANCEL. -/
def execPwrCancel (blk : Fin 24) (v : BitVec 32) (s : State) : Host.Outcome State Fault Refusal :=
  s.run fun m => m.regWrite (PWRCTL blk.val) (putFld v fPWRCTL_CANCEL 1) false

/-- UNIT_IDLE of unit `u` of a block (R695). -/
def execUnitIdle (blk : Fin 24) (u : Fin 16) (s : State) : Host.Outcome State Fault Refusal := s.run fun m => m.unitIdle blk.val u.val

/-- PWR_ENTRY_DONE (R698, R699). -/
def execPwrEntryDone (blk : Fin 24) (u : Fin 16) (s : State) : Host.Outcome State Fault Refusal :=
  s.run fun m => m.entryDone blk.val u.val

/-- PWR_WAKE: by a link request, or by external source `src` of WAKEEN (R692, R696). -/
def execPwrWake (blk : Fin 24) (u : Fin 16) (src : Option (Fin 8)) (s : State) : Host.Outcome State Fault Refusal :=
  s.run fun m => m.pwrExternal blk.val u.val (src.map Fin.val)

/-- PWR_WAKE_DONE (R699, R700). -/
def execPwrWakeDone (blk : Fin 24) (u : Fin 16) (s : State) : Host.Outcome State Fault Refusal :=
  s.run fun m => m.wakeDone blk.val u.val

/-- BIVOUAC_TIMER_WAKE (R704). -/
def execBivouacTimerWake (s : State) : Host.Outcome State Fault Refusal := s.run Mach.bivouacWake

end Sys2Proof.Machine
end

