-- ==== Sys2Proof/Machine/RadioRows.lean ====
section
/-! DEFINITION. The meanings of the rows of the radios, the identity buses and the basebands (R223 to R295). A radio `x` is 0 L,
1 M or 2 H. -/

namespace Sys2Proof.Machine

open Sys2Proof

/-! ### Radios (R223 to R262) -/

/-- RADIO_MODE_SET: a write of RFx_CTL. -/
def execRadioModeSet (x : Fin 3) (v : BitVec 32) (s : State) : Host.Outcome State Fault Refusal :=
  s.run fun m => m.regWrite (RFx_CTL x.val) v false

/-- RADIO_TRANSITION_DONE. -/
def execRadioTransitionDone (x : Fin 3) (s : State) : Host.Outcome State Fault Refusal :=
  s.run fun m => Mach.afterRadio x.val (m.radioArrive x.val)

/-- SYNTH_LOCK. -/
def execSynthLock (x : Fin 3) (s : State) : Host.Outcome State Fault Refusal :=
  s.run fun m => Mach.afterRadio x.val (m.synthLock x.val)

/-- TX_SYNTH_DEADLINE. -/
def execTxSynthDeadline (x : Fin 3) (s : State) : Host.Outcome State Fault Refusal :=
  s.run fun m => Mach.afterRadio x.val (m.synthDeadline x.val)

/-- SYNTH_LOCK_LOSS. -/
def execSynthLockLoss (x : Fin 3) (s : State) : Host.Outcome State Fault Refusal :=
  s.run fun m => Mach.afterRadio x.val (m.synthLoss x.val)

/-- PPDU_TX_END: detector readings in mV by chain, and the cancellation measured in dB by chain (R258, R286, log 12). -/
def execPpduTxEnd (x : Fin 3) (pd canc : List (Nat × Nat)) (s : State) : Host.Outcome State Fault Refusal :=
  s.run fun m => m.ppduTxEnd x.val pd canc

/-- OVPWR_CLEAR: a write of RFx_OVPWR. -/
def execOvpwrClear (x : Fin 3) (v : BitVec 32) (s : State) : Host.Outcome State Fault Refusal :=
  s.run fun m => m.regWrite (RFx_OVPWR x.val) v false

/-- CAL_SLOT_START: the CAL slot at place `i` of the radio's table. -/
def execCalSlotStart (x : Fin 3) (i : Nat) (s : State) : Host.Outcome State Fault Refusal := s.run fun m => m.calSlot x.val i

/-- CAL_SKIP. -/
def execCalSkip (x : Fin 3) (s : State) : Host.Outcome State Fault Refusal := s.run fun m => m.calSkip x.val

/-- CAL_DONE: its radios go on, and so may the start-up (R707). -/
def execCalDone (x : Fin 3) (s : State) : Host.Outcome State Fault Refusal :=
  s.run fun m => ((m.calDone x.val).forEach (m.calRadios x.val) fun y r => Mach.afterRadio r (y, none)).bootNext

/-- CHANNEL_STAGE: a write of RFx_CHAN. -/
def execChannelStage (x : Fin 3) (v : BitVec 32) (s : State) : Host.Outcome State Fault Refusal :=
  s.run fun m => m.regWrite (RFx_CHAN x.val) v false

/-! ### Identity buses (R244 to R251) -/

/-- ID_RESCAN: a write of IDM_BUSk_CTL with RESCAN set. -/
def execIdRescan (k : Fin 3) (v : BitVec 32) (s : State) : Host.Outcome State Fault Refusal :=
  s.run fun m => m.regWrite (IDM_BUSk_CTL k.val) (putFld v fIDM_BUSk_CTL_RESCAN 1) false

/-- HP_EDGE. -/
def execHpEdge (k : Fin 3) (level : Bool) (s : State) : Host.Outcome State Fault Refusal := s.run fun m => m.hpEdge k.val level

/-- HP_ACCEPT. -/
def execHpAccept (k : Fin 3) (s : State) : Host.Outcome State Fault Refusal := s.run fun m => m.hpAccept k.val

/-- ID_RECORD_READ: whether the address acknowledged, and the bytes read; the start-up may go on (R707). -/
def execIdRecordRead (k : Fin 3) (ack : Bool) (bytes : List Byte) (s : State) : Host.Outcome State Fault Refusal :=
  s.run fun m => (m.idRead k.val ack bytes).bootNext

/-- ID_BUS_STUCK. -/
def execIdBusStuck (k : Fin 3) (s : State) : Host.Outcome State Fault Refusal := s.run fun m => m.idStuck k.val

/-! ### Basebands (R265 to R295): powers in dBm, what the air carries as operands (log 12) -/

/-- PPDU_DETECT. -/
def execPpduDetect (x : Fin 3) (power : Int) (s : State) : Host.Outcome State Fault Refusal := s.run fun m => m.ppduDetect x.val power

/-- GAIN_SETTLED. -/
def execGainSettled (x : Fin 3) (power : Int) (s : State) : Host.Outcome State Fault Refusal := s.run fun m => m.gainSettled x.val power

/-- BUSY_REPORT: the energy of each subchannel in dBm (R274), and the NAV of other BSSs. -/
def execBusyReport (x : Fin 3) (energy : List (BitVec 8)) (nav : Bool) (s : State) : Host.Outcome State Fault Refusal :=
  s.run fun m => m.busyReport x.val energy nav

/-- SIGNAL_FIELDS: whether they check, whether the PPDU is trigger-based, addressed to the device, cuttable by a slot (R313),
and what they say of the rest. -/
def execSignalFields (x : Fin 3) (ok tb own foreign : Bool) (sig : SigFields) (s : State) : Host.Outcome State Fault Refusal :=
  s.run fun m => m.signalFields x.val ok tb own foreign sig

/-- CODEWORD_DONE: the bits of the codeword, those of the next one, whether it failed; what a cut delivers (R277, R288). -/
def execCodewordDone (x : Fin 3) (bits next : Nat) (failed : Bool) (users : List RxVec) (rssi : List (Nat × BitVec 8)) (s : State) :
    Host.Outcome State Fault Refusal :=
  s.run fun m => m.codewordDone x.val bits next failed users rssi

/-- RX_RESTART. -/
def execRxRestart (x : Fin 3) (power : Int) (users : List RxVec) (rssi : List (Nat × BitVec 8)) (s : State) :
    Host.Outcome State Fault Refusal :=
  s.run fun m => m.rxRestart x.val power users rssi

/-- A reception ends with a response owed where it was a soliciting PPDU (R302). -/
def Mach.solicited (m : Mach) (x : Nat) (soliciting : Bool) : Mach := if soliciting then m.sqMod x fun q => { q with owe := true } else m

/-- PPDU_RX_END: whether its signal fields hold only what the chip knows, whether the PPDU asks for an immediate response, which one with an OK user gets (R302), its users and powers. -/
def execPpduRxEnd (x : Fin 3) (supported soliciting : Bool) (users : List RxVec) (rssi : List (Nat × BitVec 8)) (s : State) :
    Host.Outcome State Fault Refusal :=
  s.run fun m => if (m.getBb x.val).rx.state = 3 ∧ !(m.getBb x.val).rx.cut then
    (m.ppduRxEnd x.val supported users rssi).solicited x.val (soliciting && (m.endStatus x.val supported users).2 == 0) else m

/-- RX_TRUNCATE. -/
def execRxTruncate (x : Fin 3) (users : List RxVec) (rssi : List (Nat × BitVec 8)) (s : State) : Host.Outcome State Fault Refusal :=
  s.run fun m => m.rxTruncate x.val users rssi

/-- RX_DECLARED_END (R277). -/
def execRxDeclaredEnd (x : Fin 3) (s : State) : Host.Outcome State Fault Refusal := s.run fun m => m.rxDeclaredEnd x.val

end Sys2Proof.Machine
end

