-- ==== Sys2Proof/Machine/StartRows.lean ====
section
/-! DEFINITION. The meanings of the rows of start-up, AUTO, the lantern's own start and the die sensors (R707 to R747). -/

namespace Sys2Proof.Machine

open Sys2Proof

/-- PORST_RELEASE: the levels of the strap pins, as SYS_STRAPS lays them out, and the answer to VOUT_MODE of a PMBus regulator that
an init record enables (R86, R708, log 12). -/
def execPorstRelease (straps : BitVec 5) (linear : Bool) (s : State) : Host.Outcome State Fault Refusal :=
  s.run fun m => m.porstRelease straps linear

/-- PERST_RELEASE: the speed and width that the link comes up with (R573, R709). -/
def execPerstRelease (speed width : BitVec 4) (s : State) : Host.Outcome State Fault Refusal :=
  s.run fun m => m.perstRelease speed width

/-- PCIE_READY_CAP (R718). -/
def execPcieReadyCap (s : State) : Host.Outcome State Fault Refusal := s.run Mach.readyCap

/-- AUTO_TIME_SEARCH (R719). -/
def execAutoTimeSearch (s : State) : Host.Outcome State Fault Refusal := s.run Mach.autoSearch

/-- AUTO_PAIR_TIMEOUT (R719). -/
def execAutoPairTimeout (s : State) : Host.Outcome State Fault Refusal := s.run Mach.autoTimeout

/-- AUTO_CANCEL: a write of SYS_BOOTCTL with AUTO_CANCEL set (R721). -/
def execAutoCancel (v : BitVec 32) (s : State) : Host.Outcome State Fault Refusal :=
  s.run fun m => m.regWrite SYS_BOOTCTL (putFld v fSYS_BOOTCTL_AUTO_CANCEL 1) false

/-- LANTERN_START (R724). -/
def execLanternStart (s : State) : Host.Outcome State Fault Refusal := s.run Mach.lanternStart

/-- LANTERN_RESET (R735). -/
def execLanternReset (s : State) : Host.Outcome State Fault Refusal := s.run Mach.lanternFall

/-- TEMP_SAMPLE: the twelve sensors in quarter °C and the radios' die temperatures in °C (R239, R741, log 12). -/
def execTempSample (sensors : List (BitVec 16)) (radios : List (BitVec 8)) (s : State) : Host.Outcome State Fault Refusal :=
  s.run fun m => m.tempSample sensors radios

/-- PORST_ASSERT (R723). -/
def execPorstAssert (s : State) : Host.Outcome State Fault Refusal := s.run Mach.porstAssert

end Sys2Proof.Machine
end

