-- ==== Sys2Proof/Machine/TaskRows.lean ====
section
/-! DEFINITION. The meanings of the rows of landing, fault entry, completions, dispatch and the queue channels (R95 to R137, R180
to R216). -/

namespace Sys2Proof.Machine

open Sys2Proof

/-! ### Engine events -/

/-- RESULT_LAND (R95, R124): what is due before the current slot lands. -/
def execResultLand (e : Eng) (s : State) : Host.Outcome State Fault Refusal :=
  s.run fun m => match e with
    | .te n => m.landDue n.val
    | .lc => m.lcMod Lc.landDue

/-- FAULT_TASK_START (R99, R129 to R133). -/
def execFaultTaskStart (te : Fin 16) (s : State) : Host.Outcome State Fault Refusal := s.run fun m => m.faultStart te.val

/-- FETCH_COMPLETE (R116 to R119): `host` is what a read of host memory returned, none where it ended in an error. -/
def execFetchComplete (te : Fin 16) (id : Nat) (host : Option (List Byte)) (s : State) : Host.Outcome State Fault Refusal :=
  s.run fun m => m.fetchComplete te.val id host

/-- PUT_COMPLETE (R118, R119, R480): `hostOk` is false where a transfer to the host ended in an error. -/
def execPutComplete (te : Fin 16) (id : Nat) (hostOk : Bool) (s : State) : Host.Outcome State Fault Refusal :=
  s.run fun m => m.putComplete te.val id hostOk

/-- TB0 runs on to the deadline of an engine's WAIT (R120). -/
def Mach.toDeadline (m : Mach) (n : Nat) : Mach :=
  let t := m.getTe n
  match t.wait with
  | some w => match w.deadline with
    | some d =>
      let x := (d - m.timePayload).toInt
      if t.waiting && decide (0 < x) then m.reach ((m.getBase 0).nsTotal + x.toNat) else m
    | none => m
  | none => m

/-- WAIT_DEADLINE (R120, R121). -/
def execWaitDeadline (te : Fin 16) (s : State) : Host.Outcome State Fault Refusal :=
  s.run fun m => (m.toDeadline te.val).waitDeadline te.val

/-- LC_INTERRUPT (R140, R141, R143): source `n` fires. -/
def execLcInterrupt (n : Nat) (s : State) : Host.Outcome State Fault Refusal := s.run fun m => m.lcInterrupt n

/-! ### Dispatch (R180 to R190) -/

/-- TASK_DISPATCH. -/
def execTaskDispatch (te : Fin 16) (s : State) : Host.Outcome State Fault Refusal := s.run fun m => m.dispatch te.val

/-- TASK_SKIP. -/
def execTaskSkip (te : Fin 16) (slot : BitVec 6) (s : State) : Host.Outcome State Fault Refusal :=
  s.run fun m => m.skipTask te.val slot.toNat

/-- EVENT_PACKET (R187 to R189): an EVENT packet that no task sent. -/
def execEventPacket (te : Fin 16) (slot : BitVec 6) (flag : BitVec 5) (s : State) : Host.Outcome State Fault Refusal :=
  s.run fun m => m.sendEvent te.val slot.toNat flag.toNat 0

/-- HOST_SIG (R187). -/
def execHostSig (v : BitVec 32) (s : State) : Host.Outcome State Fault Refusal := s.run fun m => m.regWrite DSP_HOSTSIG v false

/-! ### Queue channels (R191 to R216) -/

/-- QITEM_RECEIVE: `arg` is ARG[23:8] of the header. -/
def execQitemReceive (src : Nat) (ch : Fin 256) (arg : BitVec 16) (words : List (BitVec 144)) (s : State) :
    Host.Outcome State Fault Refusal :=
  s.run fun m => m.qitem src ch.val arg words

/-- QCH_FETCH_DATA. -/
def execQchFetchData (te : Fin 16) (id : Nat) (s : State) : Host.Outcome State Fault Refusal := s.run fun m => m.qchFetch te.val id

/-- QCH_FETCH_HEADED. -/
def execQchFetchHeaded (te : Fin 16) (id : Nat) (s : State) : Host.Outcome State Fault Refusal := s.run fun m => m.qchHeaded te.val id

/-- QCH_PUT_DATA: `taken` false sends the item, `taken` true is its acceptance by a unit's block, which completes the PUT (R200). -/
def execQchPutData (te : Fin 16) (id : Nat) (taken : Bool) (s : State) : Host.Outcome State Fault Refusal :=
  s.run fun m => if taken then m.qchAcked te.val id else m.qchPut te.val id

/-- FLUSH: by software's write of the channel's command register, or by a PUT of kind CTRL (R201, R206, R216). -/
def execFlush (by_ : Nat ⊕ (Fin 16 × Nat)) (s : State) : Host.Outcome State Fault Refusal :=
  s.run fun m => match by_ with
    | .inl ch => m.regWrite (FQ_CHn_CMD ch) 1 false
    | .inr (n, id) => m.chCtrl n.val id true

/-- DROP_REM: by software's write, or by a PUT of kind CTRL (R201, R205, R216). -/
def execDropRem (by_ : Nat ⊕ (Fin 16 × Nat)) (s : State) : Host.Outcome State Fault Refusal :=
  s.run fun m => match by_ with
    | .inl ch => m.regWrite (FQ_CHn_CMD ch) 2 false
    | .inr (n, id) => m.chCtrl n.val id false

/-- CHANNEL_ENABLE (R210): a write of the channel's configuration with ENABLE set. -/
def execChannelEnable (ch : Fin 256) (v : BitVec 32) (s : State) : Host.Outcome State Fault Refusal :=
  s.run fun m => m.regWrite (FQ_CHn_CFG ch.val) (putFld v fFQ_CHn_CFG_ENABLE 1) false

end Sys2Proof.Machine
end

