-- ==== Sys2Proof/Machine/TimeRows.lean ====
section
/-! DEFINITION. The meanings of the rows of time (R546 to R571, R628). A base `k` is 0 to 4, 4 being the lantern's TB4, whose
registers lie behind the bridge. -/

namespace Sys2Proof.Machine

open Sys2Proof

/-- TB_LOAD: a write of TIM_TBk_CTL with LOAD set. -/
def execTbLoad (k : Fin 5) (v : BitVec 32) (s : State) : Host.Outcome State Fault Refusal :=
  s.run fun m => m.regWrite (TIM_TBk_CTL k.val) (putFld v fTIM_TBk_CTL_LOAD 1) false

/-- TB_STEP. -/
def execTbStep (k : Fin 5) (v : BitVec 32) (s : State) : Host.Outcome State Fault Refusal :=
  s.run fun m => m.regWrite (TIM_TBk_STEP k.val) v false

/-- TB_SLEW: a write of TIM_TBk_SLEWCNT. -/
def execTbSlew (k : Fin 5) (v : BitVec 32) (s : State) : Host.Outcome State Fault Refusal :=
  s.run fun m => m.regWrite (TIM_TBk_SLEWCNT k.val) v false

/-- SLEW_END: the base runs on until SLEWCNT is 0 (R552). -/
def execSlewEnd (k : Fin 5) (s : State) : Host.Outcome State Fault Refusal := s.run fun m => m.tbSlewEnd k.val

/-- TB_INC_SET: a write of TIM_TBk_INC_FRAC. -/
def execTbIncSet (k : Fin 5) (v : BitVec 32) (s : State) : Host.Outcome State Fault Refusal :=
  s.run fun m => m.regWrite (TIM_TBk_INC_FRAC k.val) v false

/-- CAPTURE_GO: a write of TIM_CAPCTL with GO set. -/
def execCaptureGo (v : BitVec 32) (s : State) : Host.Outcome State Fault Refusal :=
  s.run fun m => m.regWrite TIM_CAPCTL (putFld v fTIM_CAPCTL_GO 1) false

/-- TSCAP_EDGE. -/
def execTscapEdge (s : State) : Host.Outcome State Fault Refusal := s.run Mach.capturePin

/-- PPS_START: TB0 runs on to its next full second (R565). -/
def execPpsStart (s : State) : Host.Outcome State Fault Refusal :=
  s.run fun m => m.reachSecond.ppsStart

/-- PPS_END: TB0 runs on to WIDTH_MS after the second of a pulse that is high (R565). -/
def execPpsEnd (s : State) : Host.Outcome State Fault Refusal :=
  s.run fun m => if m.tim.pps then
    (m.reach ((m.getBase 0).nsTotal / 1000000000 * 1000000000 + 1000000 * m.ppsWidth)).ppsEnd else m

/-- TIME_REQ_RECEIVE. -/
def execTimeReqReceive (p : Fin 2) (s : State) : Host.Outcome State Fault Refusal := s.run fun m => m.timeReq p.val

/-- TIME_RSP_SEND. -/
def execTimeRspSend (p : Fin 2) (s : State) : Host.Outcome State Fault Refusal := s.run fun m => m.timeRspSend p.val

/-- TIME_RSP_RECEIVE: t2 and t3 in sixteenths of a ns, and whether a frame boundary came at the same moment and won (R569). -/
def execTimeRspReceive (p : Fin 2) (t2 t3 : Nat) (late : Bool) (s : State) : Host.Outcome State Fault Refusal :=
  s.run fun m => m.autoRsp p.val t2 t3 late

/-- GUY_TIME_LOSS. -/
def execGuyTimeLoss (p : Fin 2) (s : State) : Host.Outcome State Fault Refusal := s.run fun m => m.guyTimeLoss p.val

/-- GUY_FOLLOW_WRITE: a write of TIM_GUYp_CTL. -/
def execGuyFollowWrite (p : Fin 2) (v : BitVec 32) (s : State) : Host.Outcome State Fault Refusal :=
  s.run fun m => m.regWrite (TIM_GUYp_CTL p.val) v false

/-- HOST_SERVO_WRITE: a write of TIM_CTL. -/
def execHostServoWrite (v : BitVec 32) (s : State) : Host.Outcome State Fault Refusal := s.run fun m => m.regWrite TIM_CTL v false

/-- TB_NS_READ: the nanoseconds are the answer; TB4 is read through the bridge. -/
def execTbNsRead (k : Fin 6) (s : State) : Host.Outcome State Fault Refusal :=
  s.run fun m => if k.val = 4 then m.bridge false 0x200 0 else m.tbRead k.val

end Sys2Proof.Machine
end

