-- ==== Sys2Proof/Machine/UplTimers.lean ====
section
/-! DEFINITION. The uplinks' timed states (R462 to R466, R470): pause received and sent, its watchdog, low-power idle. -/

namespace Sys2Proof.Machine

open Sys2Proof

/-! ### Pause received (R462 to R465) -/

/-- Set or clear a priority's bit of STAT: PAUSED from bit 8, IGNORING from bit 16. -/
def Mach.statBit (m : Mach) (p lo q : Nat) (v : Bool) : Mach :=
  let b : W32 := 1#32 <<< (lo + q)
  m.setReg (UPL_Pp_STAT p) (if v then m.reg (UPL_Pp_STAT p) ||| b else m.reg (UPL_Pp_STAT p) &&& ~~~b)

/-- A pause time of quanta at a port's rate, in ns (R462). -/
def Mach.quantaNs (m : Mach) (p t : Nat) : Nat := 512000 * t / m.portRate p

/-- A pause of a priority ends. -/
def Mach.pauseClear (m : Mach) (p q : Nat) : Mach :=
  (m.statBit p 8 q false).portMod p fun u => { u with paused := tabSet (0, 0) u.paused q (0, 0) }

/-- A pause of a priority begins, or goes on with a new time without a break (R462, R464). -/
def Mach.pauseSet (m : Mach) (p q t : Nat) : Mach :=
  let now := (m.getBase 0).nsTotal
  let on := (m.reg (UPL_Pp_STAT p)).getLsbD (8 + q)
  (m.statBit p 8 q true).portMod p fun u =>
    { u with paused := tabMod (0, 0) u.paused q fun e => (if on then e.1 else now, now + m.quantaNs p t) }

/-- A pause frame is received (R462, R464): the quanta of each priority it names. -/
def Mach.pauseReceive (m : Mach) (p : Nat) (pfc : Bool) (en : BitVec 8) (quanta : List (BitVec 16)) : Mach :=
  if !m.bit (UPL_Pp_FC p) fUPL_Pp_FC_RX_HONOUR ∨ (p = 4 ∧ pfc) then m
  else
    let one (x : Mach) (q : Nat) : Mach :=
      let t := (quanta.getD (if pfc then q else 0) 0).toNat
      if (x.reg (UPL_Pp_STAT p)).getLsbD (16 + q) then x.portMod p fun u => { u with ignored := tabMod 0 u.ignored q (· + 1) }
      else if t = 0 then x.pauseClear p q
      else x.pauseSet p q t
    (m.forEach ((List.range 8).filter fun q => !pfc || en.getLsbD q) one).txChoose p

/-- A pause time runs out (R462): time runs on to its end. -/
def Mach.pauseExpire (m : Mach) (p q : Nat) : Mach :=
  if (m.reg (UPL_Pp_STAT p)).getLsbD (8 + q) then
    ((m.reach (tabGet (0, 0) (m.getPort p).paused q).2).pauseClear p q).txChoose p
  else m

/-- When the watchdog of a priority in pause expires, where the pause is in force until then (R464). -/
def Mach.stormAt (m : Mach) (p q : Nat) : Option Nat :=
  let e := tabGet (0, 0) (m.getPort p).paused q
  let t := e.1 + 1000000 * m.rd (UPL_Pp_PWDOG p) fUPL_Pp_PWDOG_PAUSE_MAX
  if (m.reg (UPL_Pp_STAT p)).getLsbD (8 + q) ∧ e.1 < t ∧ t ≤ e.2 then some t else none

/-- The watchdog of a priority expires (R464): time runs on to that instant. -/
def Mach.pauseStorm (m : Mach) (p q : Nat) : Mach :=
  match m.stormAt p q with
  | some t =>
    let x := m.reach t
    let y := (((x.statBit p 16 q true).count (UPL_Pp_CNT1 p) fUPL_Pp_CNT1_PAUSE_STORM).event 0x0E01 p [(1, q)]).portMod p fun u =>
      { u with ignoreTo := tabSet 0 u.ignoreTo q ((x.getBase 0).nsTotal + 1000000 * max 1 (m.rd (UPL_Pp_PWDOG p) fUPL_Pp_PWDOG_PAUSE_IGNORE)) }
    (y.pauseClear p q).txChoose p
  | none => m

/-- PAUSE_IGNORE has passed (R464): time runs on to its end. -/
def Mach.pauseIgnoreEnd (m : Mach) (p q : Nat) : Mach :=
  if (m.reg (UPL_Pp_STAT p)).getLsbD (16 + q) then (m.reach (tabGet 0 (m.getPort p).ignoreTo q)).statBit p 16 q false else m

/-- Half the time sent has passed above XON (R466). -/
def Mach.pauseResend (m : Mach) (p : Nat) : Mach :=
  let t := m.getPort p
  if t.pauseSent = 0 then m
  else ((m.reach (t.pauseAt + m.quantaNs p (max 1 (m.rd (UPL_Pp_PQUANTA p) fUPL_Pp_PQUANTA_QUANTA)) / 2)).portMod p fun t =>
    { t with pauseDue := true }).txChoose p

/-! ### Low-power idle (R470, R701) -/

/-- A port enters transmit low-power idle when its queues have been empty for IDLE_US (R470): time runs on to that instant. -/
def Mach.lpiEnter (m : Mach) (p : Nat) : Mach :=
  let t := m.getPort p
  if p < 4 ∧ m.bit (UPL_Pp_LPICTL p) fUPL_Pp_LPICTL_EN ∧ !t.waiting ∧ t.busy = 0 ∧ t.lpi = 0 ∧
      m.bit (UPL_Pp_STAT p) fUPL_Pp_STAT_LINK then
    ((m.reach (t.emptyAt + 1000 * m.rd (UPL_Pp_LPICTL p) fUPL_Pp_LPICTL_IDLE_US)).wr (UPL_Pp_STAT p) fUPL_Pp_STAT_LPI_TX 1).portMod p fun t =>
      { t with lpi := 1 }
  else m

/-- The wake time ends (R470): time runs on to its end. -/
def Mach.lpiWake (m : Mach) (p : Nat) : Mach :=
  if (m.getPort p).lpi = 2 then
    (((m.reach (m.getPort p).wakeAt).wr (UPL_Pp_STAT p) fUPL_Pp_STAT_LPI_TX 0).portMod p fun t => { t with lpi := 0 }).txChoose p
  else m

/-- The partner signals low-power idle or its end (R701). -/
def Mach.lpiRx (m : Mach) (p : Nat) (idle : Bool) : Mach :=
  if p < 4 then m.wr (UPL_Pp_STAT p) fUPL_Pp_STAT_LPI_RX (if idle then 1 else 0) else m

end Sys2Proof.Machine
end

