-- ==== Sys2Proof/Machine/WireRows.lean ====
section
/-! DEFINITION. The meanings of the rows of the uplinks and the router (R454 to R497). A port `p` is 0 to 4. -/

namespace Sys2Proof.Machine

open Sys2Proof

/-! ### Frames in and out (R455 to R461, R471, R473) -/

/-- ETH_RX_FRAME: the bytes without FCS, whether the FCS holds, and how many ns ago the first bit crossed the pins. -/
def execEthRxFrame (p : Fin 5) (bytes : List Byte) (fcsOk : Bool) (age : Nat) (s : State) : Host.Outcome State Fault Refusal :=
  s.run fun m => m.ethRx p.val bytes fcsOk age

/-- SEND. -/
def execSend (te : Fin 16) (id : Nat) (p : Fin 5) (s : State) : Host.Outcome State Fault Refusal :=
  s.run fun m => m.sendUnit te.val id p.val

/-- ETH_TX_END: how many ns ago the first bit of the frame crossed the pins. -/
def execEthTxEnd (p : Fin 5) (age : Nat) (s : State) : Host.Outcome State Fault Refusal := s.run fun m => m.ethTxEnd p.val age

/-- TXTS_READ: the value read is the answer. -/
def execTxtsRead (p : Fin 5) (s : State) : Host.Outcome State Fault Refusal := s.run fun m => m.stampRead p.val

/-! ### Pause (R462 to R466) -/

/-- PAUSE_RECEIVE: whether it is a PFC frame, its enable vector, and its quanta. -/
def execPauseReceive (p : Fin 5) (pfc : Bool) (en : BitVec 8) (quanta : List (BitVec 16)) (s : State) :
    Host.Outcome State Fault Refusal :=
  s.run fun m => m.pauseReceive p.val pfc en quanta

/-- PAUSE_EXPIRE. -/
def execPauseExpire (p : Fin 5) (q : Fin 8) (s : State) : Host.Outcome State Fault Refusal := s.run fun m => m.pauseExpire p.val q.val

/-- PAUSE_WATCHDOG. -/
def execPauseWatchdog (p : Fin 5) (q : Fin 8) (s : State) : Host.Outcome State Fault Refusal :=
  s.run fun m => m.pauseStorm p.val q.val

/-- PAUSE_IGNORE_END. -/
def execPauseIgnoreEnd (p : Fin 5) (q : Fin 8) (s : State) : Host.Outcome State Fault Refusal :=
  s.run fun m => m.pauseIgnoreEnd p.val q.val

/-- PAUSE_RESEND. -/
def execPauseResend (p : Fin 5) (s : State) : Host.Outcome State Fault Refusal := s.run fun m => m.pauseResend p.val

/-! ### Gates, low-power idle, links (R467 to R470, R493, R701) -/

/-- GCL_CHANGE: a write of UPL_Pp_GCTL with CHANGE set. -/
def execGclChange (p : Fin 5) (v : BitVec 32) (s : State) : Host.Outcome State Fault Refusal :=
  s.run fun m => m.regWrite (UPL_Pp_GCTL p.val) (putFld v fUPL_Pp_GCTL_CHANGE 1) false

/-- GCL_START. -/
def execGclStart (p : Fin 5) (s : State) : Host.Outcome State Fault Refusal := s.run fun m => m.gclStart p.val

/-- GATE_INTERVAL_END. -/
def execGateIntervalEnd (p : Fin 5) (s : State) : Host.Outcome State Fault Refusal := s.run fun m => m.gateStep p.val

/-- LPI_ENTER. -/
def execLpiEnter (p : Fin 5) (s : State) : Host.Outcome State Fault Refusal := s.run fun m => m.lpiEnter p.val

/-- LPI_WAKE_DONE. -/
def execLpiWakeDone (p : Fin 5) (s : State) : Host.Outcome State Fault Refusal := s.run fun m => m.lpiWake p.val

/-- LPI_RX_SIGNAL. -/
def execLpiRxSignal (p : Fin 5) (idle : Bool) (s : State) : Host.Outcome State Fault Refusal := s.run fun m => m.lpiRx p.val idle

/-- ETH_LINK_CHANGE: up or down, and the speed code that was agreed. -/
def execEthLinkChange (p : Fin 5) (speed : Nat) (up : Bool) (s : State) : Host.Outcome State Fault Refusal :=
  s.run fun m => m.ethLink p.val speed up

/-! ### The router's units (R476 to R496): access `id` of the TE -/

/-- PULL. -/
def execPull (te : Fin 16) (id : Nat) (s : State) : Host.Outcome State Fault Refusal := s.run fun m => m.pullUnit te.val id

/-- SENDV. -/
def execSendv (te : Fin 16) (id : Nat) (s : State) : Host.Outcome State Fault Refusal := s.run fun m => m.sendvUnit te.val id

/-- REF. -/
def execRef (te : Fin 16) (id : Nat) (s : State) : Host.Outcome State Fault Refusal := s.run fun m => m.refUnit te.val id

/-- BUF_FREE. -/
def execBufFree (te : Fin 16) (id : Nat) (s : State) : Host.Outcome State Fault Refusal := s.run fun m => m.freeUnit te.val id

/-- HASH_FIND. -/
def execHashFind (te : Fin 16) (id : Nat) (s : State) : Host.Outcome State Fault Refusal := s.run fun m => m.hashUnit te.val id 0

/-- HASH_INSERT. -/
def execHashInsert (te : Fin 16) (id : Nat) (s : State) : Host.Outcome State Fault Refusal := s.run fun m => m.hashUnit te.val id 1

/-- HASH_DELETE. -/
def execHashDelete (te : Fin 16) (id : Nat) (s : State) : Host.Outcome State Fault Refusal := s.run fun m => m.hashUnit te.val id 2

/-- LPM_LOOKUP. -/
def execLpmLookup (te : Fin 16) (id : Nat) (s : State) : Host.Outcome State Fault Refusal := s.run fun m => m.lpmUnit te.val id

/-- POL_JUDGE. -/
def execPolJudge (te : Fin 16) (id : Nat) (s : State) : Host.Outcome State Fault Refusal := s.run fun m => m.polUnit te.val id

/-- INTAKE_PARSE: an intake queue takes its next frame. -/
def execIntakeParse (q : Fin 16) (s : State) : Host.Outcome State Fault Refusal := s.run fun m => m.intake q.val

/-- SPILL_COPY_DONE: the frame of head `h`. -/
def execSpillCopyDone (h : Nat) (s : State) : Host.Outcome State Fault Refusal := s.run fun m => m.spillDone h

/-- UNSPILL_DONE: the frame of head `h`. -/
def execUnspillDone (h : Nat) (s : State) : Host.Outcome State Fault Refusal := s.run fun m => m.unspillDone h

end Sys2Proof.Machine
end

