-- ==== Sys2Proof/Machine/Dispatch.lean ====
section
/-! DEFINITION. One arm for every command of the opcode table: the meaning that it calls. -/

namespace Sys2Proof.Machine

open Sys2Proof

def exec (i : Instr) (s : State) : Host.Outcome State Fault Refusal :=
  match i with
  | .registerWrite addr v linear => Sys2Proof.Machine.execRegisterWrite addr v linear s
  | .bridgeAccess write off v => Sys2Proof.Machine.execBridgeAccess write off v s
  | .ridgeHeaderRoute node header => Sys2Proof.Machine.execRidgeHeaderRoute node header s
  | .packetArrive blk header => Sys2Proof.Machine.execPacketArrive blk header s
  | .beatStart codes late table host => Sys2Proof.Machine.execBeatStart codes late table host s
  | .tickEvent => Sys2Proof.Machine.execTickEvent s
  | .mainPowerFail => Sys2Proof.Machine.execMainPowerFail s
  | .mainPowerGood linear => Sys2Proof.Machine.execMainPowerGood linear s
  | .plinthWrite v => Sys2Proof.Machine.execPlinthWrite v s
  | .loadGo v => Sys2Proof.Machine.execLoadGo v s
  | .loadDone host => Sys2Proof.Machine.execLoadDone host s
  | .keyRevoke k => Sys2Proof.Machine.execKeyRevoke k s
  | .marginMinclr v => Sys2Proof.Machine.execMarginMinclr v s
  | .beatCounterRead => Sys2Proof.Machine.execBeatCounterRead s
  | .swapArm => Sys2Proof.Machine.execSwapArm s
  | .swapCancel => Sys2Proof.Machine.execSwapCancel s
  | .fallbackReload => Sys2Proof.Machine.execFallbackReload s
  | .fallbackLoadDone => Sys2Proof.Machine.execFallbackLoadDone s
  | .fallbackStart => Sys2Proof.Machine.execFallbackStart s
  | .profileGo v => Sys2Proof.Machine.execProfileGo v s
  | .vrEnable v linear => Sys2Proof.Machine.execVrEnable v linear s
  | .pmbusPoll status mv => Sys2Proof.Machine.execPmbusPoll status mv s
  | .vrGood => Sys2Proof.Machine.execVrGood s
  | .vrSettleEnd => Sys2Proof.Machine.execVrSettleEnd s
  | .vrTimeout good => Sys2Proof.Machine.execVrTimeout good s
  | .add e rd ra rb undef => Sys2Proof.Machine.execAdd e rd ra rb undef s
  | .sub e rd ra rb => Sys2Proof.Machine.execSub e rd ra rb s
  | .and e rd ra rb => Sys2Proof.Machine.execAnd e rd ra rb s
  | .or e rd ra rb => Sys2Proof.Machine.execOr e rd ra rb s
  | .xor e rd ra rb => Sys2Proof.Machine.execXor e rd ra rb s
  | .andn e rd ra rb => Sys2Proof.Machine.execAndn e rd ra rb s
  | .shl e rd ra rb => Sys2Proof.Machine.execShl e rd ra rb s
  | .shr e rd ra rb => Sys2Proof.Machine.execShr e rd ra rb s
  | .sar e rd ra rb => Sys2Proof.Machine.execSar e rd ra rb s
  | .neg e rd ra => Sys2Proof.Machine.execNeg e rd ra s
  | .not e rd ra => Sys2Proof.Machine.execNot e rd ra s
  | .mul e rd ra rb => Sys2Proof.Machine.execMul e rd ra rb s
  | .mulh e rd ra rb => Sys2Proof.Machine.execMulh e rd ra rb s
  | .cmp e ra rb => Sys2Proof.Machine.execCmp e ra rb s
  | .ceq e ra rb => Sys2Proof.Machine.execCeq e ra rb s
  | .mov e rd ra => Sys2Proof.Machine.execMov e rd ra s
  | .tagof e rd ra => Sys2Proof.Machine.execTagof e rd ra s
  | .div e rd rr ra rb => Sys2Proof.Machine.execDiv e rd rr ra rb s
  | .addi e rd ra imm => Sys2Proof.Machine.execAddi e rd ra imm s
  | .andi e rd ra imm => Sys2Proof.Machine.execAndi e rd ra imm s
  | .ori e rd ra imm => Sys2Proof.Machine.execOri e rd ra imm s
  | .xori e rd ra imm => Sys2Proof.Machine.execXori e rd ra imm s
  | .shli e rd ra imm => Sys2Proof.Machine.execShli e rd ra imm s
  | .shri e rd ra imm => Sys2Proof.Machine.execShri e rd ra imm s
  | .sari e rd ra imm => Sys2Proof.Machine.execSari e rd ra imm s
  | .cmpi e ra imm => Sys2Proof.Machine.execCmpi e ra imm s
  | .movi e rd imm => Sys2Proof.Machine.execMovi e rd imm s
  | .movk e rd hw imm => Sys2Proof.Machine.execMovk e rd hw imm s
  | .retag e rd ra tag => Sys2Proof.Machine.execRetag e rd ra tag s
  | .ld e rd ra imm => Sys2Proof.Machine.execLd e rd ra imm s
  | .st e rd ra imm => Sys2Proof.Machine.execSt e rd ra imm s
  | .ext e rd ra pos len1 => Sys2Proof.Machine.execExt e rd ra pos len1 s
  | .ins e rd ra pos len1 => Sys2Proof.Machine.execIns e rd ra pos len1 s
  | .fetch e rl rf len1 flag mode => Sys2Proof.Machine.execFetch e rl rf len1 flag mode s
  | .put e rl rf len1 flag mode => Sys2Proof.Machine.execPut e rl rf len1 flag mode s
  | .wait e cond ra rb => Sys2Proof.Machine.execWait e cond ra rb s
  | .estat e rd f => Sys2Proof.Machine.execEstat e rd f s
  | .clre e ra => Sys2Proof.Machine.execClre e ra s
  | .sig e ra f => Sys2Proof.Machine.execSig e ra f s
  | .rds e rd ix => Sys2Proof.Machine.execRds e rd ix s
  | .wrs e ix ra => Sys2Proof.Machine.execWrs e ix ra s
  | .rdx e rd r => Sys2Proof.Machine.execRdx e rd r s
  | .wrx e r ra => Sys2Proof.Machine.execWrx e r ra s
  | .bcond e cond off => Sys2Proof.Machine.execBcond e cond off s
  | .call e rd off => Sys2Proof.Machine.execCall e rd off s
  | .jr e rd ra => Sys2Proof.Machine.execJr e rd ra s
  | .btag e ra tag off => Sys2Proof.Machine.execBtag e ra tag off s
  | .bntag e ra tag off => Sys2Proof.Machine.execBntag e ra tag off s
  | .nop e => Sys2Proof.Machine.execNop e s
  | .endTask e => Sys2Proof.Machine.execEndTask e s
  | .fretRetry e => Sys2Proof.Machine.execFretRetry e s
  | .fretSkip e => Sys2Proof.Machine.execFretSkip e s
  | .fretAbandon e => Sys2Proof.Machine.execFretAbandon e s
  | .brk e => Sys2Proof.Machine.execBrk e s
  | .reti e => Sys2Proof.Machine.execReti e s
  | .rep e iters => Sys2Proof.Machine.execRep e iters s
  | .movs e => Sys2Proof.Machine.execMovs e s
  | .fills e ra => Sys2Proof.Machine.execFills e ra s
  | .scans e ra => Sys2Proof.Machine.execScans e ra s
  | .cmps e => Sys2Proof.Machine.execCmps e s
  | .resultLand e => Sys2Proof.Machine.execResultLand e s
  | .faultTaskStart te => Sys2Proof.Machine.execFaultTaskStart te s
  | .fetchComplete te id host => Sys2Proof.Machine.execFetchComplete te id host s
  | .putComplete te id hostOk => Sys2Proof.Machine.execPutComplete te id hostOk s
  | .waitDeadline te => Sys2Proof.Machine.execWaitDeadline te s
  | .lcInterrupt n => Sys2Proof.Machine.execLcInterrupt n s
  | .taskDispatch te => Sys2Proof.Machine.execTaskDispatch te s
  | .taskSkip te slot => Sys2Proof.Machine.execTaskSkip te slot s
  | .eventPacket te slot flag => Sys2Proof.Machine.execEventPacket te slot flag s
  | .hostSig v => Sys2Proof.Machine.execHostSig v s
  | .qitemReceive src ch arg words => Sys2Proof.Machine.execQitemReceive src ch arg words s
  | .qchFetchData te id => Sys2Proof.Machine.execQchFetchData te id s
  | .qchFetchHeaded te id => Sys2Proof.Machine.execQchFetchHeaded te id s
  | .qchPutData te id taken => Sys2Proof.Machine.execQchPutData te id taken s
  | .flush by_ => Sys2Proof.Machine.execFlush by_ s
  | .dropRem by_ => Sys2Proof.Machine.execDropRem by_ s
  | .channelEnable ch v => Sys2Proof.Machine.execChannelEnable ch v s
  | .radioModeSet x v => Sys2Proof.Machine.execRadioModeSet x v s
  | .radioTransitionDone x => Sys2Proof.Machine.execRadioTransitionDone x s
  | .synthLock x => Sys2Proof.Machine.execSynthLock x s
  | .txSynthDeadline x => Sys2Proof.Machine.execTxSynthDeadline x s
  | .synthLockLoss x => Sys2Proof.Machine.execSynthLockLoss x s
  | .ppduTxEnd x pd canc => Sys2Proof.Machine.execPpduTxEnd x pd canc s
  | .ovpwrClear x v => Sys2Proof.Machine.execOvpwrClear x v s
  | .calSlotStart x ix => Sys2Proof.Machine.execCalSlotStart x ix s
  | .calSkip x => Sys2Proof.Machine.execCalSkip x s
  | .calDone x => Sys2Proof.Machine.execCalDone x s
  | .channelStage x v => Sys2Proof.Machine.execChannelStage x v s
  | .idRescan k v => Sys2Proof.Machine.execIdRescan k v s
  | .hpEdge k level => Sys2Proof.Machine.execHpEdge k level s
  | .hpAccept k => Sys2Proof.Machine.execHpAccept k s
  | .idRecordRead k ack bytes => Sys2Proof.Machine.execIdRecordRead k ack bytes s
  | .idBusStuck k => Sys2Proof.Machine.execIdBusStuck k s
  | .ppduDetect x power => Sys2Proof.Machine.execPpduDetect x power s
  | .gainSettled x power => Sys2Proof.Machine.execGainSettled x power s
  | .busyReport x energy nav => Sys2Proof.Machine.execBusyReport x energy nav s
  | .signalFields x ok tb own foreign f => Sys2Proof.Machine.execSignalFields x ok tb own foreign f s
  | .codewordDone x bits next failed users rssi => Sys2Proof.Machine.execCodewordDone x bits next failed users rssi s
  | .rxRestart x power users rssi => Sys2Proof.Machine.execRxRestart x power users rssi s
  | .ppduRxEnd x supported soliciting users rssi => Sys2Proof.Machine.execPpduRxEnd x supported soliciting users rssi s
  | .rxTruncate x users rssi => Sys2Proof.Machine.execRxTruncate x users rssi s
  | .slotOpen x ix => Sys2Proof.Machine.execSlotOpen x ix s
  | .slotStart x p => Sys2Proof.Machine.execSlotStart x p s
  | .slotMiss x p => Sys2Proof.Machine.execSlotMiss x p s
  | .responseSend x p => Sys2Proof.Machine.execResponseSend x p s
  | .responseTimeout x => Sys2Proof.Machine.execResponseTimeout x s
  | .backoffCount x ac cw p => Sys2Proof.Machine.execBackoffCount x ac cw p s
  | .mpduReceive x u => Sys2Proof.Machine.execMpduReceive x u s
  | .blockackReceive x sta tid seqs => Sys2Proof.Machine.execBlockackReceive x sta tid seqs s
  | .reorderTimeout sta tid => Sys2Proof.Machine.execReorderTimeout sta tid s
  | .stage te id x => Sys2Proof.Machine.execStage te id x s
  | .restageDone x id => Sys2Proof.Machine.execRestageDone x id s
  | .enq te id => Sys2Proof.Machine.execEnq te id s
  | .alloc te id => Sys2Proof.Machine.execAlloc te id s
  | .homeFree te id => Sys2Proof.Machine.execHomeFree te id s
  | .tplSeal => Sys2Proof.Machine.execTplSeal s
  | .tplClear => Sys2Proof.Machine.execTplClear s
  | .meshTransitionDone => Sys2Proof.Machine.execMeshTransitionDone s
  | .meshSynthLock => Sys2Proof.Machine.execMeshSynthLock s
  | .meshTxSynthDeadline => Sys2Proof.Machine.execMeshTxSynthDeadline s
  | .meshLockLoss => Sys2Proof.Machine.execMeshLockLoss s
  | .meshPreambleDetect power snr cfo => Sys2Proof.Machine.execMeshPreambleDetect power snr cfo s
  | .meshFalseLock => Sys2Proof.Machine.execMeshFalseLock s
  | .meshSyncAccept power errs => Sys2Proof.Machine.execMeshSyncAccept power errs s
  | .meshHeader b0 b1 b2 => Sys2Proof.Machine.execMeshHeader b0 b1 b2 s
  | .meshRxEnd snr cfo payload => Sys2Proof.Machine.execMeshRxEnd snr cfo payload s
  | .meshRxTruncate snr cfo => Sys2Proof.Machine.execMeshRxTruncate snr cfo s
  | .meshTxEnd => Sys2Proof.Machine.execMeshTxEnd s
  | .meshCalGo v => Sys2Proof.Machine.execMeshCalGo v s
  | .meshCalDone db => Sys2Proof.Machine.execMeshCalDone db s
  | .meshCalStale dt => Sys2Proof.Machine.execMeshCalStale dt s
  | .dutyBucketEnd => Sys2Proof.Machine.execDutyBucketEnd s
  | .wakeMatch => Sys2Proof.Machine.execWakeMatch s
  | .wakeEnable v => Sys2Proof.Machine.execWakeEnable v s
  | .superframeStart => Sys2Proof.Machine.execSuperframeStart s
  | .meshSlotStart j => Sys2Proof.Machine.execMeshSlotStart j s
  | .meshDataReceive => Sys2Proof.Machine.execMeshDataReceive s
  | .meshAckReceive => Sys2Proof.Machine.execMeshAckReceive s
  | .meshFloodReceive => Sys2Proof.Machine.execMeshFloodReceive s
  | .meshParentReceive => Sys2Proof.Machine.execMeshParentReceive s
  | .lkWindowClose => Sys2Proof.Machine.execLkWindowClose s
  | .resyncBurst node => Sys2Proof.Machine.execResyncBurst node s
  | .resyncSend node => Sys2Proof.Machine.execResyncSend node s
  | .meshAckSend => Sys2Proof.Machine.execMeshAckSend s
  | .floodRelay orig seq => Sys2Proof.Machine.execFloodRelay orig seq s
  | .seenAge orig seq => Sys2Proof.Machine.execSeenAge orig seq s
  | .mboxOpen => Sys2Proof.Machine.execMboxOpen s
  | .mboxAck => Sys2Proof.Machine.execMboxAck s
  | .tplData => Sys2Proof.Machine.execTplData s
  | .tplApply => Sys2Proof.Machine.execTplApply s
  | .nodeAdd => Sys2Proof.Machine.execNodeAdd s
  | .nodeDelete => Sys2Proof.Machine.execNodeDelete s
  | .meshKey => Sys2Proof.Machine.execMeshKey s
  | .nbrDel => Sys2Proof.Machine.execNbrDel s
  | .meshDown => Sys2Proof.Machine.execMeshDown s
  | .meshFloodItem => Sys2Proof.Machine.execMeshFloodItem s
  | .mboxBadItem ch => Sys2Proof.Machine.execMboxBadItem ch s
  | .logPointerSave => Sys2Proof.Machine.execLogPointerSave s
  | .lkRxWindow profile buf len => Sys2Proof.Machine.execLkRxWindow profile buf len s
  | .lkTx profile buf len => Sys2Proof.Machine.execLkTx profile buf len s
  | .lkWakeBurst len => Sys2Proof.Machine.execLkWakeBurst len s
  | .lkCal kind => Sys2Proof.Machine.execLkCal kind s
  | .lkCommandStart => Sys2Proof.Machine.execLkCommandStart s
  | .lkNowRead => Sys2Proof.Machine.execLkNowRead s
  | .mbEnd => Sys2Proof.Machine.execMbEnd s
  | .lgCommit => Sys2Proof.Machine.execLgCommit s
  | .ccmEncrypt mic8 buf len => Sys2Proof.Machine.execCcmEncrypt mic8 buf len s
  | .ccmDecrypt mic8 buf len => Sys2Proof.Machine.execCcmDecrypt mic8 buf len s
  | .ccmDone => Sys2Proof.Machine.execCcmDone s
  | .ethRxFrame p bytes fcsOk age => Sys2Proof.Machine.execEthRxFrame p bytes fcsOk age s
  | .send te id p => Sys2Proof.Machine.execSend te id p s
  | .ethTxEnd p age => Sys2Proof.Machine.execEthTxEnd p age s
  | .txtsRead p => Sys2Proof.Machine.execTxtsRead p s
  | .pauseReceive p pfc en quanta => Sys2Proof.Machine.execPauseReceive p pfc en quanta s
  | .pauseExpire p q => Sys2Proof.Machine.execPauseExpire p q s
  | .pauseWatchdog p q => Sys2Proof.Machine.execPauseWatchdog p q s
  | .pauseIgnoreEnd p q => Sys2Proof.Machine.execPauseIgnoreEnd p q s
  | .pauseResend p => Sys2Proof.Machine.execPauseResend p s
  | .gclChange p v => Sys2Proof.Machine.execGclChange p v s
  | .gclStart p => Sys2Proof.Machine.execGclStart p s
  | .gateIntervalEnd p => Sys2Proof.Machine.execGateIntervalEnd p s
  | .lpiEnter p => Sys2Proof.Machine.execLpiEnter p s
  | .lpiWakeDone p => Sys2Proof.Machine.execLpiWakeDone p s
  | .lpiRxSignal p idle => Sys2Proof.Machine.execLpiRxSignal p idle s
  | .ethLinkChange p speed up => Sys2Proof.Machine.execEthLinkChange p speed up s
  | .pull te id => Sys2Proof.Machine.execPull te id s
  | .sendv te id => Sys2Proof.Machine.execSendv te id s
  | .ref te id => Sys2Proof.Machine.execRef te id s
  | .bufFree te id => Sys2Proof.Machine.execBufFree te id s
  | .hashFind te id => Sys2Proof.Machine.execHashFind te id s
  | .hashInsert te id => Sys2Proof.Machine.execHashInsert te id s
  | .hashDelete te id => Sys2Proof.Machine.execHashDelete te id s
  | .lpmLookup te id => Sys2Proof.Machine.execLpmLookup te id s
  | .polJudge te id => Sys2Proof.Machine.execPolJudge te id s
  | .intakeParse q => Sys2Proof.Machine.execIntakeParse q s
  | .spillCopyDone h => Sys2Proof.Machine.execSpillCopyDone h s
  | .unspillDone h => Sys2Proof.Machine.execUnspillDone h s
  | .dramRequest addr write words len => Sys2Proof.Machine.execDramRequest addr write words len s
  | .poisonNoteReceive => Sys2Proof.Machine.execPoisonNoteReceive s
  | .memwinOpen ix => Sys2Proof.Machine.execMemwinOpen ix s
  | .refreshInterval c b => Sys2Proof.Machine.execRefreshInterval c b s
  | .refreshDone c b => Sys2Proof.Machine.execRefreshDone c b s
  | .mr4Read c rr osc drift => Sys2Proof.Machine.execMr4Read c rr osc drift s
  | .memTrain v => Sys2Proof.Machine.execMemTrain v s
  | .trainDone fail => Sys2Proof.Machine.execTrainDone fail s
  | .scrubRead space n ix met => Sys2Proof.Machine.execScrubRead space n ix met s
  | .nvmScrub => Sys2Proof.Machine.execNvmScrub s
  | .settingsLock => Sys2Proof.Machine.execSettingsLock s
  | .regrecWrite j v => Sys2Proof.Machine.execRegrecWrite j v s
  | .vbakGoodRise => Sys2Proof.Machine.execVbakGoodRise s
  | .vbakGoodFall => Sys2Proof.Machine.execVbakGoodFall s
  | .chkGo c v => Sys2Proof.Machine.execChkGo c v s
  | .chkAbort c n host => Sys2Proof.Machine.execChkAbort c n host s
  | .chkDone c host => Sys2Proof.Machine.execChkDone c host s
  | .tbLoad k v => Sys2Proof.Machine.execTbLoad k v s
  | .tbStep k v => Sys2Proof.Machine.execTbStep k v s
  | .tbSlew k v => Sys2Proof.Machine.execTbSlew k v s
  | .slewEnd k => Sys2Proof.Machine.execSlewEnd k s
  | .tbIncSet k v => Sys2Proof.Machine.execTbIncSet k v s
  | .captureGo v => Sys2Proof.Machine.execCaptureGo v s
  | .tscapEdge => Sys2Proof.Machine.execTscapEdge s
  | .ppsStart => Sys2Proof.Machine.execPpsStart s
  | .ppsEnd => Sys2Proof.Machine.execPpsEnd s
  | .timeReqReceive p => Sys2Proof.Machine.execTimeReqReceive p s
  | .timeRspSend p => Sys2Proof.Machine.execTimeRspSend p s
  | .timeRspReceive p t2 t3 late => Sys2Proof.Machine.execTimeRspReceive p t2 t3 late s
  | .guyTimeLoss p => Sys2Proof.Machine.execGuyTimeLoss p s
  | .guyFollowWrite p v => Sys2Proof.Machine.execGuyFollowWrite p v s
  | .hostServoWrite v => Sys2Proof.Machine.execHostServoWrite v s
  | .flr => Sys2Proof.Machine.execFlr s
  | .d3hotEnter => Sys2Proof.Machine.execD3hotEnter s
  | .d0Return => Sys2Proof.Machine.execD0Return s
  | .pcieL1Enter => Sys2Proof.Machine.execPcieL1Enter s
  | .doorbellReadDone page table => Sys2Proof.Machine.execDoorbellReadDone page table s
  | .doorbellReadError status timeout => Sys2Proof.Machine.execDoorbellReadError status timeout s
  | .nopCmd ring entry buf data => Sys2Proof.Machine.execNopCmd ring entry buf data s
  | .staSet ring entry buf data => Sys2Proof.Machine.execStaSet ring entry buf data s
  | .staDel ring entry buf data => Sys2Proof.Machine.execStaDel ring entry buf data s
  | .baSetAdd ring entry buf data => Sys2Proof.Machine.execBaSetAdd ring entry buf data s
  | .baSetDelete ring entry buf data => Sys2Proof.Machine.execBaSetDelete ring entry buf data s
  | .keyInstall ring entry buf data => Sys2Proof.Machine.execKeyInstall ring entry buf data s
  | .keyDelete ring entry buf data => Sys2Proof.Machine.execKeyDelete ring entry buf data s
  | .queueSet ring entry buf data => Sys2Proof.Machine.execQueueSet ring entry buf data s
  | .shaperSet ring entry buf data => Sys2Proof.Machine.execShaperSet ring entry buf data s
  | .policerSet ring entry buf data => Sys2Proof.Machine.execPolicerSet ring entry buf data s
  | .twtBind ring entry buf data => Sys2Proof.Machine.execTwtBind ring entry buf data s
  | .twtUnbind ring entry buf data => Sys2Proof.Machine.execTwtUnbind ring entry buf data s
  | .bcnTemplate ring entry buf data => Sys2Proof.Machine.execBcnTemplate ring entry buf data s
  | .tblHashFind ring entry buf data => Sys2Proof.Machine.execTblHashFind ring entry buf data s
  | .tblHashInsert ring entry buf data => Sys2Proof.Machine.execTblHashInsert ring entry buf data s
  | .tblHashDelete ring entry buf data => Sys2Proof.Machine.execTblHashDelete ring entry buf data s
  | .tblWrite ring entry buf data => Sys2Proof.Machine.execTblWrite ring entry buf data s
  | .wpolSet ring entry buf data => Sys2Proof.Machine.execWpolSet ring entry buf data s
  | .txImm ring entry buf data => Sys2Proof.Machine.execTxImm ring entry buf data s
  | .meshCmd ring entry buf data => Sys2Proof.Machine.execMeshCmd ring entry buf data s
  | .cfgStage ring entry buf data => Sys2Proof.Machine.execCfgStage ring entry buf data s
  | .cfgCommit ring entry buf data => Sys2Proof.Machine.execCfgCommit ring entry buf data s
  | .badOpcode ring entry buf data => Sys2Proof.Machine.execBadOpcode ring entry buf data s
  | .indirectReadDone ring buf => Sys2Proof.Machine.execIndirectReadDone ring buf s
  | .hostFrameTake ring entries data => Sys2Proof.Machine.execHostFrameTake ring entries data s
  | .post te id => Sys2Proof.Machine.execPost te id s
  | .postd te id => Sys2Proof.Machine.execPostd te id s
  | .ringFrameWrite ring bufs => Sys2Proof.Machine.execRingFrameWrite ring bufs s
  | .ringwaitExpiry ring bufs => Sys2Proof.Machine.execRingwaitExpiry ring bufs s
  | .msixUnmask v => Sys2Proof.Machine.execMsixUnmask v s
  | .diagRead off => Sys2Proof.Machine.execDiagRead off s
  | .diagWrite off v => Sys2Proof.Machine.execDiagWrite off v s
  | .campBadFrame frame => Sys2Proof.Machine.execCampBadFrame frame s
  | .campCollision seq => Sys2Proof.Machine.execCampCollision seq s
  | .campBackoffEnd seq => Sys2Proof.Machine.execCampBackoffEnd seq s
  | .genSend => Sys2Proof.Machine.execGenSend s
  | .pegReceive frame => Sys2Proof.Machine.execPegReceive frame s
  | .pegNakReceive frame => Sys2Proof.Machine.execPegNakReceive frame s
  | .genReceive frame => Sys2Proof.Machine.execGenReceive frame s
  | .campCommitReceive frame => Sys2Proof.Machine.execCampCommitReceive frame s
  | .pairQueryReceive frame => Sys2Proof.Machine.execPairQueryReceive frame s
  | .pairAliveReceive frame => Sys2Proof.Machine.execPairAliveReceive frame s
  | .roleReceive frame => Sys2Proof.Machine.execRoleReceive frame s
  | .fenceTestReceive frame => Sys2Proof.Machine.execFenceTestReceive frame s
  | .fenceSeenReceive frame => Sys2Proof.Machine.execFenceSeenReceive frame s
  | .enumInRise => Sys2Proof.Machine.execEnumInRise s
  | .pegWaitEnd => Sys2Proof.Machine.execPegWaitEnd s
  | .enumTimeout => Sys2Proof.Machine.execEnumTimeout s
  | .guyAckReceive p words => Sys2Proof.Machine.execGuyAckReceive p words s
  | .guyNackReceive p words => Sys2Proof.Machine.execGuyNackReceive p words s
  | .tokenReceive p words => Sys2Proof.Machine.execTokenReceive p words s
  | .stokenReceive p words => Sys2Proof.Machine.execStokenReceive p words s
  | .guyCommitReceive p words => Sys2Proof.Machine.execGuyCommitReceive p words s
  | .mirrorReceive p words => Sys2Proof.Machine.execMirrorReceive p words s
  | .cfgReceive p words => Sys2Proof.Machine.execCfgReceive p words s
  | .payloadReceive p words => Sys2Proof.Machine.execPayloadReceive p words s
  | .helloReceive p words => Sys2Proof.Machine.execHelloReceive p words s
  | .guyRetryTimeout p => Sys2Proof.Machine.execGuyRetryTimeout p s
  | .guyLinkDown p => Sys2Proof.Machine.execGuyLinkDown p s
  | .guyLinkUp p => Sys2Proof.Machine.execGuyLinkUp p s
  | .roleSend => Sys2Proof.Machine.execRoleSend s
  | .pairWaitExpire => Sys2Proof.Machine.execPairWaitExpire s
  | .pairFenceRise => Sys2Proof.Machine.execPairFenceRise s
  | .pairFenceFall => Sys2Proof.Machine.execPairFenceFall s
  | .fenceWindowEnd => Sys2Proof.Machine.execFenceWindowEnd s
  | .ftest v => Sys2Proof.Machine.execFtest v s
  | .fencePulse => Sys2Proof.Machine.execFencePulse s
  | .fencePulseEnd => Sys2Proof.Machine.execFencePulseEnd s
  | .fenceSeenTimeout => Sys2Proof.Machine.execFenceSeenTimeout s
  | .takeoverQuery => Sys2Proof.Machine.execTakeoverQuery s
  | .pairQueryRepeat k => Sys2Proof.Machine.execPairQueryRepeat k s
  | .takeoverFence => Sys2Proof.Machine.execTakeoverFence s
  | .takeoverVrRetry => Sys2Proof.Machine.execTakeoverVrRetry s
  | .switch v => Sys2Proof.Machine.execSwitch v s
  | .unfence v => Sys2Proof.Machine.execUnfence v s
  | .pnjumpWrite v => Sys2Proof.Machine.execPnjumpWrite v s
  | .sealDone => Sys2Proof.Machine.execSealDone s
  | .blockIllegalState blk => Sys2Proof.Machine.execBlockIllegalState blk s
  | .blockStuck blk beats => Sys2Proof.Machine.execBlockStuck blk beats s
  | .fatal blk => Sys2Proof.Machine.execFatal blk s
  | .checkpointCapture => Sys2Proof.Machine.execCheckpointCapture s
  | .checkpointDone => Sys2Proof.Machine.execCheckpointDone s
  | .checkpointRestore v => Sys2Proof.Machine.execCheckpointRestore v s
  | .pwrRetain blk v => Sys2Proof.Machine.execPwrRetain blk v s
  | .pwrOff blk v => Sys2Proof.Machine.execPwrOff blk v s
  | .pwrActive blk v => Sys2Proof.Machine.execPwrActive blk v s
  | .pwrCancel blk v => Sys2Proof.Machine.execPwrCancel blk v s
  | .unitIdle blk u => Sys2Proof.Machine.execUnitIdle blk u s
  | .pwrEntryDone blk u => Sys2Proof.Machine.execPwrEntryDone blk u s
  | .pwrWake blk u src => Sys2Proof.Machine.execPwrWake blk u src s
  | .pwrWakeDone blk u => Sys2Proof.Machine.execPwrWakeDone blk u s
  | .bivouacTimerWake => Sys2Proof.Machine.execBivouacTimerWake s
  | .porstRelease straps linear => Sys2Proof.Machine.execPorstRelease straps linear s
  | .perstRelease speed width => Sys2Proof.Machine.execPerstRelease speed width s
  | .pcieReadyCap => Sys2Proof.Machine.execPcieReadyCap s
  | .autoTimeSearch => Sys2Proof.Machine.execAutoTimeSearch s
  | .autoPairTimeout => Sys2Proof.Machine.execAutoPairTimeout s
  | .autoCancel v => Sys2Proof.Machine.execAutoCancel v s
  | .lanternStart => Sys2Proof.Machine.execLanternStart s
  | .lanternReset => Sys2Proof.Machine.execLanternReset s
  | .tempSample sensors radios => Sys2Proof.Machine.execTempSample sensors radios s
  | .porstAssert => Sys2Proof.Machine.execPorstAssert s
  | .tbNsRead k => Sys2Proof.Machine.execTbNsRead k s
  | .rxDeclaredEnd x => Sys2Proof.Machine.execRxDeclaredEnd x s
  | .sampleRowDone => Sys2Proof.Machine.execSampleRowDone s

end Sys2Proof.Machine
end

