-- ==== Sys2Proof/Machine/Step.lean ====
section
/-! DEFINITION. One step of the block: the command at the front of the queue, or, with no command waiting, one
step of the 2.5 ns clock with the memory requests that are due (log 2). -/

namespace Sys2Proof.Machine

open Sys2Proof

/-- What the block does with no command waiting (log 2). -/
def Mach.idle (m : Mach) : Mach := (m.elapse 1).memServe

/-- One step: the front command's effect on the state with the queue's rest. -/
def step (s : State) : Host.Outcome State Fault Refusal :=
  match s.pending with
  | [] => .next { s with m := s.m.idle }
  | c :: r => exec c { s with pending := r }

/-- The state with the command that a table word spells in front of the queue; unchanged where it spells none. -/
def State.withFetchWord (s : State) (nbits w : Nat) : State :=
  match decodeTableWord nbits w with
  | none => s
  | some c => { s with pending := c :: s.pending }

end Sys2Proof.Machine
end

