-- ==== Sys2Proof/WellFormed.lean ====
section
/-! DEFINITION. Well-formed commands: operands that lie where the spec's own numbering puts them. A command from outside whose
operands do not is no command of this hardware; the meanings are total and give it an effect all the same (log 13). -/

namespace Sys2Proof

/-- A register's BAR0 offset (R9, R10). -/
def regOk (a : Nat) : Bool := decide (a % 4 = 0 ∧ a < 0x180000)

/-- A ring or command entry is 32 bytes (R594, R601). -/
def entryOk (l : List Byte) : Bool := decide (l.length = 32)

/-- The ring table: 192 entries of 32 bytes (R580). -/
def tableOk (l : List Byte) : Bool := decide (l.length = 6144)

/-- At most 64 code words travel in one transfer (R24, R624). -/
def wordsOk (l : List Code) : Bool := decide (l.length ≤ 66)

/-- A flush by software names a channel, one by an engine's access that access (R207, R208). -/
def byOk (b : Nat ⊕ (Fin 16 × Nat)) : Bool :=
  match b with
  | .inl ch => decide (ch < 256)
  | .inr _ => true

/-- Measured values of transmit chains (R233): sixteen at most. -/
def chainsOk (l : List (Nat × Nat)) : Bool := l.all fun e => decide (e.1 < 16)

/-- The users that one PPDU holds (R265, R288), each with an estimate of a receiving chain at least (R292). -/
def usersOk (l : List RxVec) : Bool := decide (l.length ≤ 256) && l.all fun v => v.ests != [] && chainsOk v.ests

/-- A station number (R299). -/
def staOk (n : Nat) : Bool := decide (n < 2048)

/-- A user of a plan is a station or a group. -/
def planUserOk (u : TxUser) : Bool := match u.sta with | some n => staOk n | none => true

/-- A transmit plan names stations: those it steers towards, its users and those a trigger or an announcement asks; its PPDU lasts no
longer than its exchange. -/
def planOk (p : TxPlan) : Bool :=
  decide (p.ppdu ≤ p.whole) && p.steer.all staOk && p.users.all planUserOk && match p.content with
    | .trigger ask => ask.all planUserOk
    | .ndpa stas => stas.all staOk
    | _ => true

/-- A mesh node address (R419). -/
def nodeOk (n : Nat) : Bool := decide (n < 65536)

/-- Whether a command is well-formed. -/
def Instr.wf : Instr → Bool
  | .registerWrite addr _ _ => regOk addr
  | .bridgeAccess _ off _ => decide (off % 4 = 0 ∧ (off < 0x10000 ∨ 0x21000 ≤ off ∧ off < 0x2100C))
  | .ridgeHeaderRoute node _ => decide (node < 24)
  | .packetArrive blk _ => decide (blk < 24)
  | .beatStart codes late table _ => decide (codes.length ≤ 16) && late.all (fun n => decide (n < 19)) && tableOk table
  | .tickEvent => true
  | .mainPowerFail => true
  | .mainPowerGood _ => true
  | .plinthWrite _ => true
  | .loadGo _ => true
  | .loadDone _ => true
  | .keyRevoke _ => true
  | .marginMinclr _ => true
  | .beatCounterRead => true
  | .swapArm => true
  | .swapCancel => true
  | .fallbackReload => true
  | .fallbackLoadDone => true
  | .fallbackStart => true
  | .profileGo _ => true
  | .vrEnable _ _ => true
  | .pmbusPoll _ _ => true
  | .vrGood => true
  | .vrSettleEnd => true
  | .vrTimeout _ => true
  | .add _ _ _ _ _ => true
  | .sub _ _ _ _ => true
  | .and _ _ _ _ => true
  | .or _ _ _ _ => true
  | .xor _ _ _ _ => true
  | .andn _ _ _ _ => true
  | .shl _ _ _ _ => true
  | .shr _ _ _ _ => true
  | .sar _ _ _ _ => true
  | .neg _ _ _ => true
  | .not _ _ _ => true
  | .mul _ _ _ _ => true
  | .mulh _ _ _ _ => true
  | .cmp _ _ _ => true
  | .ceq _ _ _ => true
  | .mov _ _ _ => true
  | .tagof _ _ _ => true
  | .div _ _ _ _ _ => true
  | .addi _ _ _ _ => true
  | .andi _ _ _ _ => true
  | .ori _ _ _ _ => true
  | .xori _ _ _ _ => true
  | .shli _ _ _ _ => true
  | .shri _ _ _ _ => true
  | .sari _ _ _ _ => true
  | .cmpi _ _ _ => true
  | .movi _ _ _ => true
  | .movk _ _ _ _ => true
  | .retag _ _ _ _ => true
  | .ld _ _ _ _ => true
  | .st _ _ _ _ => true
  | .ext _ _ _ _ _ => true
  | .ins _ _ _ _ _ => true
  | .fetch _ _ _ _ _ _ => true
  | .put _ _ _ _ _ _ => true
  | .wait _ _ _ _ => true
  | .estat _ _ _ => true
  | .clre _ _ => true
  | .sig _ _ _ => true
  | .rds _ _ _ => true
  | .wrs _ _ _ => true
  | .rdx _ _ _ => true
  | .wrx _ _ _ => true
  | .bcond _ _ _ => true
  | .call _ _ _ => true
  | .jr _ _ _ => true
  | .btag _ _ _ _ => true
  | .bntag _ _ _ _ => true
  | .nop _ => true
  | .endTask _ => true
  | .fretRetry _ => true
  | .fretSkip _ => true
  | .fretAbandon _ => true
  | .brk _ => true
  | .reti _ => true
  | .rep _ iters => decide (iters ≤ 65535)
  | .movs _ => true
  | .fills _ _ => true
  | .scans _ _ => true
  | .cmps _ => true
  | .resultLand _ => true
  | .faultTaskStart _ => true
  | .fetchComplete _ _ _ => true
  | .putComplete _ _ _ => true
  | .waitDeadline _ => true
  | .lcInterrupt n => decide (n < 8)
  | .taskDispatch _ => true
  | .taskSkip _ _ => true
  | .eventPacket _ _ _ => true
  | .hostSig _ => true
  | .qitemReceive src _ _ words => decide (src < 64) && wordsOk words
  | .qchFetchData _ _ => true
  | .qchFetchHeaded _ _ => true
  | .qchPutData _ _ _ => true
  | .flush by_ => byOk by_
  | .dropRem by_ => byOk by_
  | .channelEnable _ _ => true
  | .radioModeSet _ _ => true
  | .radioTransitionDone _ => true
  | .synthLock _ => true
  | .txSynthDeadline _ => true
  | .synthLockLoss _ => true
  | .ppduTxEnd _ pd canc => chainsOk pd && chainsOk canc
  | .ovpwrClear _ _ => true
  | .calSlotStart _ _ => true
  | .calSkip _ => true
  | .calDone _ => true
  | .channelStage _ _ => true
  | .idRescan _ _ => true
  | .hpEdge _ _ => true
  | .hpAccept _ => true
  | .idRecordRead _ _ bytes => decide (bytes.length ≤ 2048)
  | .idBusStuck _ => true
  | .ppduDetect _ _ => true
  | .gainSettled _ _ => true
  | .busyReport _ energy _ => decide (energy.length ≤ 16)
  | .signalFields _ _ _ _ _ f => usersOk f.users
  | .codewordDone _ _ _ _ users _ => usersOk users
  | .rxRestart _ _ users _ => usersOk users
  | .ppduRxEnd _ _ _ users _ => usersOk users
  | .rxTruncate _ users _ => usersOk users
  | .slotOpen _ _ => true
  | .slotStart _ p => planOk p
  | .slotMiss _ p => planOk p
  | .responseSend _ p => planOk p
  | .responseTimeout _ => true
  | .backoffCount _ ac _ p => decide (ac < 4) && (match p with | some q => planOk q | none => true)
  | .mpduReceive _ u => staOk u.sta && decide (u.tid ≤ 16 ∧ u.seq < 4096)
  | .blockackReceive _ sta tid seqs => staOk sta && decide (tid < 8) && seqs.all (fun n => decide (n < 4096))
  | .reorderTimeout sta tid => staOk sta && decide (tid < 8)
  | .stage _ _ _ => true
  | .restageDone _ _ => true
  | .enq _ _ => true
  | .alloc _ _ => true
  | .homeFree _ _ => true
  | .tplSeal => true
  | .tplClear => true
  | .meshTransitionDone => true
  | .meshSynthLock => true
  | .meshTxSynthDeadline => true
  | .meshLockLoss => true
  | .meshPreambleDetect _ _ _ => true
  | .meshFalseLock => true
  | .meshSyncAccept _ errs => decide (errs ≤ 32)
  | .meshHeader _ _ _ => true
  | .meshRxEnd snr cfo payload => decide (snr < 256 ∧ cfo < 65536 ∧ payload.length ≤ 255)
  | .meshRxTruncate snr cfo => decide (snr < 256 ∧ cfo < 65536)
  | .meshTxEnd => true
  | .meshCalGo _ => true
  | .meshCalDone _ => true
  | .meshCalStale _ => true
  | .dutyBucketEnd => true
  | .wakeMatch => true
  | .wakeEnable _ => true
  | .superframeStart => true
  | .meshSlotStart _ => true
  | .meshDataReceive => true
  | .meshAckReceive => true
  | .meshFloodReceive => true
  | .meshParentReceive => true
  | .lkWindowClose => true
  | .resyncBurst node => nodeOk node
  | .resyncSend node => nodeOk node
  | .meshAckSend => true
  | .floodRelay orig seq => nodeOk orig && decide (seq < 65536)
  | .seenAge orig seq => nodeOk orig && decide (seq < 65536)
  | .mboxOpen => true
  | .mboxAck => true
  | .tplData => true
  | .tplApply => true
  | .nodeAdd => true
  | .nodeDelete => true
  | .meshKey => true
  | .nbrDel => true
  | .meshDown => true
  | .meshFloodItem => true
  | .mboxBadItem ch => decide (248 ≤ ch ∧ ch < 251)
  | .logPointerSave => true
  | .lkRxWindow _ _ _ => true
  | .lkTx _ _ _ => true
  | .lkWakeBurst _ => true
  | .lkCal _ => true
  | .lkCommandStart => true
  | .lkNowRead => true
  | .mbEnd => true
  | .lgCommit => true
  | .ccmEncrypt _ _ _ => true
  | .ccmDecrypt _ _ _ => true
  | .ccmDone => true
  | .ethRxFrame _ bytes _ _ => decide (bytes.length ≤ 16384)
  | .send _ _ _ => true
  | .ethTxEnd _ _ => true
  | .txtsRead _ => true
  | .pauseReceive _ _ _ quanta => decide (quanta.length = 8)
  | .pauseExpire _ _ => true
  | .pauseWatchdog _ _ => true
  | .pauseIgnoreEnd _ _ => true
  | .pauseResend _ => true
  | .gclChange _ _ => true
  | .gclStart _ => true
  | .gateIntervalEnd _ => true
  | .lpiEnter _ => true
  | .lpiWakeDone _ => true
  | .lpiRxSignal _ _ => true
  | .ethLinkChange _ _ _ => true
  | .pull _ _ => true
  | .sendv _ _ => true
  | .ref _ _ => true
  | .bufFree _ _ => true
  | .hashFind _ _ => true
  | .hashInsert _ _ => true
  | .hashDelete _ _ => true
  | .lpmLookup _ _ => true
  | .polJudge _ _ => true
  | .intakeParse _ => true
  | .spillCopyDone h => decide (h < 65536)
  | .unspillDone h => decide (h < 65536)
  | .dramRequest addr write words len => decide (addr % 16 = 0 ∧ len ≤ 64) && wordsOk words && (!write || decide (words.length = len))
  | .poisonNoteReceive => true
  | .memwinOpen _ => true
  | .refreshInterval _ _ => true
  | .refreshDone _ _ => true
  | .mr4Read _ _ _ _ => true
  | .memTrain _ => true
  | .trainDone _ => true
  | .scrubRead space n _ _ => decide (space ≠ 2 ∨ n < 16)
  | .nvmScrub => true
  | .settingsLock => true
  | .regrecWrite _ _ => true
  | .vbakGoodRise => true
  | .vbakGoodFall => true
  | .chkGo _ _ => true
  | .chkAbort _ _ _ => true
  | .chkDone _ _ => true
  | .tbLoad _ _ => true
  | .tbStep _ _ => true
  | .tbSlew _ _ => true
  | .slewEnd _ => true
  | .tbIncSet _ _ => true
  | .captureGo _ => true
  | .tscapEdge => true
  | .ppsStart => true
  | .ppsEnd => true
  | .timeReqReceive _ => true
  | .timeRspSend _ => true
  | .timeRspReceive _ _ _ _ => true
  | .guyTimeLoss _ => true
  | .guyFollowWrite _ _ => true
  | .hostServoWrite _ => true
  | .flr => true
  | .d3hotEnter => true
  | .d0Return => true
  | .pcieL1Enter => true
  | .doorbellReadDone page table => decide (page.length = 1536) && tableOk table
  | .doorbellReadError _ _ => true
  | .nopCmd _ entry _ _ => entryOk entry
  | .staSet _ entry _ _ => entryOk entry
  | .staDel _ entry _ _ => entryOk entry
  | .baSetAdd _ entry _ _ => entryOk entry
  | .baSetDelete _ entry _ _ => entryOk entry
  | .keyInstall _ entry _ _ => entryOk entry
  | .keyDelete _ entry _ _ => entryOk entry
  | .queueSet _ entry _ _ => entryOk entry
  | .shaperSet _ entry _ _ => entryOk entry
  | .policerSet _ entry _ _ => entryOk entry
  | .twtBind _ entry _ _ => entryOk entry
  | .twtUnbind _ entry _ _ => entryOk entry
  | .bcnTemplate _ entry _ _ => entryOk entry
  | .tblHashFind _ entry _ _ => entryOk entry
  | .tblHashInsert _ entry _ _ => entryOk entry
  | .tblHashDelete _ entry _ _ => entryOk entry
  | .tblWrite _ entry _ _ => entryOk entry
  | .wpolSet _ entry _ _ => entryOk entry
  | .txImm _ entry _ _ => entryOk entry
  | .meshCmd _ entry _ _ => entryOk entry
  | .cfgStage _ entry _ _ => entryOk entry
  | .cfgCommit _ entry _ _ => entryOk entry
  | .badOpcode _ entry _ _ => entryOk entry
  | .indirectReadDone _ buf => (match buf with | some l => decide (l.length ≤ 4096) | none => true)
  | .hostFrameTake ring entries _ => decide (160 ≤ ring.val) && entries.all entryOk
  | .post _ _ => true
  | .postd _ _ => true
  | .ringFrameWrite ring _ => decide (128 ≤ ring.val ∧ ring.val < 160)
  | .ringwaitExpiry ring _ => decide (128 ≤ ring.val ∧ ring.val < 160)
  | .msixUnmask _ => true
  | .diagRead off => decide (off.toNat % 4 = 0)
  | .diagWrite off _ => decide (off.toNat % 4 = 0)
  | .campBadFrame frame => decide (frame.length ≤ 512)
  | .campCollision _ => true
  | .campBackoffEnd _ => true
  | .genSend => true
  | .pegReceive frame => decide (frame.length ≤ 512)
  | .pegNakReceive frame => decide (frame.length ≤ 512)
  | .genReceive frame => decide (frame.length ≤ 512)
  | .campCommitReceive frame => decide (frame.length ≤ 512)
  | .pairQueryReceive frame => decide (frame.length ≤ 512)
  | .pairAliveReceive frame => decide (frame.length ≤ 512)
  | .roleReceive frame => decide (frame.length ≤ 512)
  | .fenceTestReceive frame => decide (frame.length ≤ 512)
  | .fenceSeenReceive frame => decide (frame.length ≤ 512)
  | .enumInRise => true
  | .pegWaitEnd => true
  | .enumTimeout => true
  | .guyAckReceive _ words => wordsOk words
  | .guyNackReceive _ words => wordsOk words
  | .tokenReceive _ words => wordsOk words
  | .stokenReceive _ words => wordsOk words
  | .guyCommitReceive _ words => wordsOk words
  | .mirrorReceive _ words => wordsOk words
  | .cfgReceive _ words => wordsOk words
  | .payloadReceive _ words => wordsOk words
  | .helloReceive _ words => wordsOk words
  | .guyRetryTimeout _ => true
  | .guyLinkDown _ => true
  | .guyLinkUp _ => true
  | .roleSend => true
  | .pairWaitExpire => true
  | .pairFenceRise => true
  | .pairFenceFall => true
  | .fenceWindowEnd => true
  | .ftest _ => true
  | .fencePulse => true
  | .fencePulseEnd => true
  | .fenceSeenTimeout => true
  | .takeoverQuery => true
  | .pairQueryRepeat k => decide (1 ≤ k.val)
  | .takeoverFence => true
  | .takeoverVrRetry => true
  | .switch _ => true
  | .unfence _ => true
  | .pnjumpWrite _ => true
  | .sealDone => true
  | .blockIllegalState _ => true
  | .blockStuck _ _ => true
  | .fatal _ => true
  | .checkpointCapture => true
  | .checkpointDone => true
  | .checkpointRestore _ => true
  | .pwrRetain _ _ => true
  | .pwrOff _ _ => true
  | .pwrActive _ _ => true
  | .pwrCancel _ _ => true
  | .unitIdle _ _ => true
  | .pwrEntryDone _ _ => true
  | .pwrWake _ _ _ => true
  | .pwrWakeDone _ _ => true
  | .bivouacTimerWake => true
  | .porstRelease _ _ => true
  | .perstRelease _ _ => true
  | .pcieReadyCap => true
  | .autoTimeSearch => true
  | .autoPairTimeout => true
  | .autoCancel _ => true
  | .lanternStart => true
  | .lanternReset => true
  | .tempSample sensors radios => decide (sensors.length = 12 ∧ radios.length = 3)
  | .porstAssert => true
  | .tbNsRead _ => true
  | .rxDeclaredEnd _ => true
  | .sampleRowDone => true

end Sys2Proof
end

