-- ==== Sys2Proof/Safety.lean ====
section
/-! DEFINITION. What claims call safe: a step that goes on, and the canonical form of every memory the block holds (R510, R528). -/

namespace Sys2Proof.Machine

open Sys2Proof

/-- Whether an outcome is a next state. -/
def goesOn (o : Host.Outcome State Fault Refusal) : Bool :=
  match o with
  | .next _ => true
  | .fault _ => false
  | .refused _ => false

/-- The canonical form of the memories outside the engines: DRAM, class SRAM, non-volatile memory, and what the device has
written to the host's memory. -/
def Mach.memOk (m : Mach) : Bool :=
  Memory.wf m.mem.dram && Memory.wf m.mem.sram && Memory.wf m.nvm.cells && Memory.wf m.hif.hostMem

/-- The commands that wait are all well-formed. -/
def State.queueOk (s : State) : Bool := s.pending.all Instr.wf

/-! ### Completion -/

/-- The command `c` completes in `s`: exec answers a next state, the queue stands as it did, and `p` holds of the device. -/
def Does (c : Instr) (s : State) (p : Mach → Prop) : Prop :=
  ∃ t, exec c s = .next t ∧ t.pending = s.pending ∧ p t.m

/-- The command `c` completes in `s` with the device `x`; the queue stands as it did. -/
abbrev Ends (c : Instr) (s : State) (x : Mach) : Prop := exec c s = .next { s with m := x }

/-! ### Frames -/

/-- The parts of the device. -/
inductive Part where
  | regs
  | stage
  | free
  | answer
  | sys
  | arm
  | te
  | lc
  | dsp
  | chans
  | mem
  | nvm
  | tim
  | hif
  | flt
  | mrad
  | mlink
  | radios
  | idbus
  | bbs
  | wmac
  | asch
  | rte
  | upl
  | chn
  deriving DecidableEq, Repr

/-- Two devices agree in a part. -/
def Part.same (p : Part) (m k : Mach) : Prop :=
  match p with
  | .regs => m.regs = k.regs
  | .stage => m.stage = k.stage
  | .free => m.free = k.free
  | .answer => m.answer = k.answer
  | .sys => m.sys = k.sys
  | .arm => m.arm = k.arm
  | .te => m.te = k.te
  | .lc => m.lc = k.lc
  | .dsp => m.dsp = k.dsp
  | .chans => m.chans = k.chans
  | .mem => m.mem = k.mem
  | .nvm => m.nvm = k.nvm
  | .tim => m.tim = k.tim
  | .hif => m.hif = k.hif
  | .flt => m.flt = k.flt
  | .mrad => m.mrad = k.mrad
  | .mlink => m.mlink = k.mlink
  | .radios => m.radios = k.radios
  | .idbus => m.idbus = k.idbus
  | .bbs => m.bbs = k.bbs
  | .wmac => m.wmac = k.wmac
  | .asch => m.asch = k.asch
  | .rte => m.rte = k.rte
  | .upl => m.upl = k.upl
  | .chn => m.chn = k.chn

/-- Device `m` is device `k` but for the parts named. -/
def Mach.keepsBut (m : Mach) (ps : List Part) (k : Mach) : Prop := ∀ p, p ∉ ps → p.same m k

/-! ### Engines -/

/-- A TE as its next instruction finds it: what is due by its slot has landed (R93). -/
def Mach.tNow (m : Mach) (n : Nat) : Te := (m.landDue n).getTe n

/-- The value that TE `n`'s next instruction reads in register `r` (R93). -/
def Mach.tReg (m : Mach) (n : Nat) (r : BitVec 5) : TWord := (m.tNow n).ctx.get r

/-- TE `n` issues the word `w` next: it runs a task or its fault task, and `w` stands at its program counter. -/
abbrev Mach.tReady (m : Mach) (n : Nat) (w : W32) : Prop :=
  (m.landDue n).teIssues n = true ∧ (m.tNow n).fetch (m.landDue n).actBank (m.tNow n).ctx.pc = w

/-- Device `m` after an instruction of TE `n` that is no transfer: the results `ws`, each with its distance, are pending from
the instruction's slot on, the program counter moves on, `k` slots have passed; what must follow the delay slots of an END or
a FRET follows (R93, R96). -/
def Mach.tDone (m : Mach) (n k : Nat) (ws : List (Nat × PTgt × TWord)) : Mach :=
  (m.teMod n fun t =>
    { t with pend := t.pend ++ t.pendOf t.seq ws, seq := t.seq + ws.length, slotNo := t.slotNo + k, ctx := t.ctx.next 1 }).settle n

/-- Device `m` after a transfer of TE `n`: two delay slots are to come, then `dest` where the transfer is taken, or the end `fin`
of the task (R96, R172). -/
def Mach.tJumped (m : Mach) (n : Nat) (dest : Option Nat) (fin : Nat) (ws : List (Nat × PTgt × TWord)) : Mach :=
  (m.teMod n fun t =>
    { t with pend := t.pend ++ t.pendOf t.seq ws, seq := t.seq + ws.length, slotNo := t.slotNo + 1,
             ctx := { t.ctx.next 1 with btc := 2, bt := dest, ending := if fin = 0 then (t.ctx.next 1).ending else fin } }).settle n

/-- TE `n` is about to run its fault task: the fault is frozen with its code, operand and address, and nothing else has changed
(R129, R130). -/
def Mach.tFaulted (m : Mach) (n : Nat) (w : W32) (code opnd place : Nat) : Mach :=
  m.teFault n w ⟨code, opnd, place⟩ false

/-- A result of an instruction for register `rd`, seen from the given distance on. -/
def toReg (d : Nat) (rd : BitVec 5) (v : TWord) : Nat × PTgt × TWord := (d, .reg rd.toNat, v)

/-- A result of an instruction for a flag of FL. -/
def toFlag (d f : Nat) (v : Bool) : Nat × PTgt × TWord := (d, .flag f, if v then 1 else 0)

/-- N and Z of a result of 60 bits, written at a distance (R153). -/
def flagNZ (d r : Nat) : List (Nat × PTgt × TWord) := [toFlag d flN (decide (2 ^ 59 ≤ r)), toFlag d flZ (decide (r = 0))]

/-- Whether an exact integer lies outside the signed range of `w` bits (R122). -/
def overflows (w : Nat) (x : Int) : Bool := decide (x < -2 ^ (w - 1)) || decide (2 ^ (w - 1) ≤ x)

/-- LC as its next instruction finds it: an interrupt that is due comes first, and what is due has landed (R93, R141). -/
def Mach.lNow (m : Mach) : Mach := m.lcTake.lcMod Lc.landDue

/-- The value that LC's next instruction reads in register `r`. -/
def Mach.lReg (m : Mach) (r : BitVec 5) : Nat := m.lNow.lc.get r

/-- LC issues the word `w` next. -/
abbrev Mach.lReady (m : Mach) (w : W32) : Prop :=
  m.lNow.lcIssues = true ∧ m.lNow.lc.pc < 0xC000 ∧ m.lNow.lc.fetch m.lNow.lc.pc = w

/-- Device `m` after an instruction of LC that is no transfer: its results are pending, the program counter moves on; a pending
interrupt is then taken where the boundary allows it (R141). -/
def Mach.lDone (m : Mach) (ws : List (Nat × PTgt × Nat)) : Mach :=
  (m.lcMod fun l =>
    { l with pend := l.pend ++ l.pendOf l.seq ws, seq := l.seq + ws.length, slotNo := l.slotNo + 1, restarting := false }.next).lcTake

/-- Device `m` after a transfer of LC (R96, R141); a return from interrupt also brings FL back (log 66). -/
def Mach.lJumped (m : Mach) (dest : Option Nat) (ret : Bool) (ws : List (Nat × PTgt × Nat)) : Mach :=
  (m.lcMod fun l =>
    { l with pend := l.pend ++ l.pendOf l.seq (l.writes ret ws), seq := l.seq + (l.writes ret ws).length, slotNo := l.slotNo + 1,
             pc := l.pc + 4, btc := 2, bt := dest, ending := if ret then 1 else 0, restarting := false }).lcTake

/-- A result of an LC instruction for register `rd`, at the register's width. -/
def toLreg (d : Nat) (rd : BitVec 5) (v : Nat) : Nat × PTgt × Nat := (d, .reg rd.toNat, v % 2 ^ lcWidth rd.toNat)

/-- A result of an LC instruction for a flag. -/
def toLflag (d f : Nat) (v : Bool) : Nat × PTgt × Nat := (d, .flag f, if v then 1 else 0)

/-- N and Z of a result of `w` bits of LC, written at a distance (R153, R177). -/
def lflagNZ (w d r : Nat) : List (Nat × PTgt × Nat) := [toLflag d flN (decide (2 ^ (w - 1) ≤ r)), toLflag d flZ (decide (r = 0))]

/-! ### How an instruction completes -/

/-- Command `c` completes on TE `n`: one instruction issues in `k` slots, `x` is the device with its direct effects, `ws` are its
results, and nothing else changes. -/
def DoneT (c : Instr) (s : State) (n k : Nat) (x : Mach) (ws : List (Nat × PTgt × TWord)) : Prop :=
  exec c s = .next { s with m := x.tDone n k ws }

/-- Command `c` completes on TE `n` in one slot with no effect but its results. -/
def GivesT (c : Instr) (s : State) (n : Nat) (ws : List (Nat × PTgt × TWord)) : Prop := DoneT c s n 1 (s.m.landDue n) ws

/-- Command `c` completes on TE `n` as a transfer to `dest`, or with the end `fin` of the task, after two delay slots (R96). -/
def JumpsT (c : Instr) (s : State) (n : Nat) (dest : Option Nat) (fin : Nat) (ws : List (Nat × PTgt × TWord)) : Prop :=
  exec c s = .next { s with m := (s.m.landDue n).tJumped n dest fin ws }

/-- Command `c` on TE `n` raises a fault with the word `w`, a code of R129 and an operand of R102, and has no other effect. -/
def FaultsT (c : Instr) (s : State) (n : Nat) (w : W32) (code opnd place : Nat) : Prop :=
  exec c s = .next { s with m := (s.m.landDue n).tFaulted n w code opnd place }

/-- Command `c` completes on LC with no effect but its results. -/
def GivesL (c : Instr) (s : State) (ws : List (Nat × PTgt × Nat)) : Prop := exec c s = .next { s with m := s.m.lNow.lDone ws }

/-- Command `c` completes on LC as a transfer (R96, R141). -/
def JumpsL (c : Instr) (s : State) (dest : Option Nat) (ret : Bool) (ws : List (Nat × PTgt × Nat)) : Prop :=
  exec c s = .next { s with m := s.m.lNow.lJumped dest ret ws }

/-- Command `c` on LC raises a fault of R142 and has no other effect. -/
def FaultsL (c : Instr) (s : State) (code : Nat) : Prop := exec c s = .next { s with m := s.m.lNow.lcFault code }

end Sys2Proof.Machine
end

