-- ==== Sys2Proof/Certificates/Slice0/Obligations.lean ====
section
/-! DEFINITION. The statements about the model, family by family of the opcode table. -/

open Sys2Proof Sys2Proof.Machine

/-! ### Tagged engines: arithmetic, logic and compare (04_engine_instructions.md) -/

/-- ADD and SUB on a TE in every operand form of R106 and R152: two INTs write N, Z, C and V; PTR ± INT, TIME ± INT, PTR − PTR of one
class and TIME − TIME write no flag. -/
def Obligations.TeAddSubGiveSumAndFlags : Prop :=
  ∀ (s : State) (n : Fin 16) (rd ra rb : BitVec 5),
    let a := s.m.tReg n ra
    let b := s.m.tReg n rb
    (s.m.tReady n (encReg 1 rd ra rb 0x00) →
      (isInt a = true → isInt b = true → GivesT (.add (.te n) rd ra rb none) s n
        (toReg 1 rd (intWord ((payN a + payN b) % 2 ^ 60)) :: flagNZ 1 ((payN a + payN b) % 2 ^ 60) ++
          [toFlag 1 flC (decide (2 ^ 60 ≤ payN a + payN b)),
           toFlag 1 flV (overflows 60 (signedOf 60 (payN a) + signedOf 60 (payN b)))])) ∧
      (wTag a = tagPTR → isInt b = true → GivesT (.add (.te n) rd ra rb none) s n
        [toReg 1 rd (mkPtr (ptrClass a) (ptrAddr a + payN b))]) ∧
      (wTag a = tagTIME → isInt b = true → GivesT (.add (.te n) rd ra rb none) s n
        [toReg 1 rd (mkWord tagTIME (wPay a + wPay b))])) ∧
    (s.m.tReady n (encReg 1 rd ra rb 0x01) →
      (isInt a = true → isInt b = true → GivesT (.sub (.te n) rd ra rb) s n
        (toReg 1 rd (intWord ((payN a + 2 ^ 60 - payN b) % 2 ^ 60)) :: flagNZ 1 ((payN a + 2 ^ 60 - payN b) % 2 ^ 60) ++
          [toFlag 1 flC (decide (payN a < payN b)),
           toFlag 1 flV (overflows 60 (signedOf 60 (payN a) - signedOf 60 (payN b)))])) ∧
      (wTag a = tagPTR → isInt b = true → GivesT (.sub (.te n) rd ra rb) s n
        [toReg 1 rd (mkPtr (ptrClass a) (ptrAddr a + 2 ^ 60 - payN b))]) ∧
      (wTag a = tagTIME → isInt b = true → GivesT (.sub (.te n) rd ra rb) s n
        [toReg 1 rd (mkWord tagTIME (wPay a - wPay b))]) ∧
      (wTag a = tagPTR ∨ wTag a = tagTIME → wTag b = wTag a → (wTag a = tagPTR → ptrClass a = ptrClass b) →
        GivesT (.sub (.te n) rd ra rb) s n [toReg 1 rd (mkWord tagINT (wPay a - wPay b))]))

/-- AND, OR, XOR, ANDN and NOT on a TE: the bitwise result at distance 1, with N and Z. -/
def Obligations.TeLogicGivesBitsAndNZ : Prop :=
  ∀ (s : State) (n : Fin 16) (rd ra rb : BitVec 5),
    let a := s.m.tReg n ra
    let b := s.m.tReg n rb
    let gives (c : Instr) (v : BitVec 60) := GivesT c s n (toReg 1 rd (mkWord tagINT v) :: flagNZ 1 v.toNat)
    isInt a = true →
      (isInt b = true →
        (s.m.tReady n (encReg 1 rd ra rb 0x02) → gives (.and (.te n) rd ra rb) (wPay a &&& wPay b)) ∧
        (s.m.tReady n (encReg 1 rd ra rb 0x03) → gives (.or (.te n) rd ra rb) (wPay a ||| wPay b)) ∧
        (s.m.tReady n (encReg 1 rd ra rb 0x04) → gives (.xor (.te n) rd ra rb) (wPay a ^^^ wPay b)) ∧
        (s.m.tReady n (encReg 1 rd ra rb 0x05) → gives (.andn (.te n) rd ra rb) (wPay a &&& ~~~wPay b))) ∧
      (s.m.tReady n (encReg 1 rd ra 0 0x0A) → gives (.not (.te n) rd ra) (~~~wPay a))

/-- SHL, SHR and SAR on a TE: the count is the unsigned payload, never taken modulo the width; C is the last bit shifted out, left
alone by a count of 0; SHL writes V for a count below 60. -/
def Obligations.TeShiftsGiveEdges : Prop :=
  ∀ (s : State) (n : Fin 16) (rd ra rb : BitVec 5),
    let a := s.m.tReg n ra
    let k := payN (s.m.tReg n rb)
    let x := wPay a
    let gives (c : Instr) (v : BitVec 60) (fl : List (Nat × PTgt × TWord)) :=
      GivesT c s n (toReg 1 rd (mkWord tagINT v) :: flagNZ 1 v.toNat ++ fl)
    isInt a = true → isInt (s.m.tReg n rb) = true →
      (s.m.tReady n (encReg 1 rd ra rb 0x06) → gives (.shl (.te n) rd ra rb) (x <<< k)
        ((if k = 0 then [] else [toFlag 1 flC (decide (k < 60) && x.getLsbD (60 - k))]) ++
         (if k < 60 then [toFlag 1 flV (overflows 60 (signedOf 60 (payN a) * 2 ^ k))] else []))) ∧
      (s.m.tReady n (encReg 1 rd ra rb 0x07) → gives (.shr (.te n) rd ra rb) (x >>> k)
        (if k = 0 then [] else [toFlag 1 flC (decide (k < 60) && x.getLsbD (k - 1))])) ∧
      (s.m.tReady n (encReg 1 rd ra rb 0x08) → gives (.sar (.te n) rd ra rb) (x.sshiftRight k)
        (if k = 0 then [] else [toFlag 1 flC (if k < 60 then x.getLsbD (k - 1) else x.msb)]))

/-- NEG, MUL, MULH, CMP and CEQ on a TE: exact results narrowed to 60 bits with the flags R152 names, MUL and MULH at distance 4;
CMP takes two INTs, two TIMEs or two PTRs of one class, CEQ any two words of R106. -/
def Obligations.TeNegMulCompareGiveResults : Prop :=
  ∀ (s : State) (n : Fin 16) (rd ra rb : BitVec 5),
    let a := s.m.tReg n ra
    let b := s.m.tReg n rb
    let sa := signedOf 60 (payN a)
    let p := sa * signedOf 60 (payN b)
    let lo := (p % 2 ^ 60).toNat
    let hi := (p / 2 ^ 60 % 2 ^ 60).toNat
    let cmp (x y : Nat) (v : Int) := GivesT (.cmp (.te n) ra rb) s n (flagNZ 1 ((x + 2 ^ 60 - y) % 2 ^ 60) ++
      [toFlag 1 flC (decide (x < y)), toFlag 1 flV (overflows 60 v)])
    (s.m.tReady n (encReg 1 rd ra 0 0x09) → isInt a = true → GivesT (.neg (.te n) rd ra) s n
      (toReg 1 rd (intWord ((0 + 2 ^ 60 - payN a) % 2 ^ 60)) :: flagNZ 1 ((0 + 2 ^ 60 - payN a) % 2 ^ 60) ++
        [toFlag 1 flC (decide (0 < payN a)), toFlag 1 flV (overflows 60 (-sa))])) ∧
    (s.m.tReady n (encReg 1 rd ra rb 0x0B) → isInt a = true → isInt b = true → GivesT (.mul (.te n) rd ra rb) s n
      (toReg 4 rd (intWord lo) :: flagNZ 4 lo ++ [toFlag 4 flV (overflows 60 p)])) ∧
    (s.m.tReady n (encReg 1 rd ra rb 0x0C) → isInt a = true → isInt b = true → GivesT (.mulh (.te n) rd ra rb) s n
      (toReg 4 rd (intWord hi) :: (flagNZ 4 hi ++ [toFlag 4 flV false]))) ∧
    (s.m.tReady n (encReg 1 0 ra rb 0x0D) →
      (isInt a = true ∧ isInt b = true ∨ wTag a = tagTIME ∧ wTag b = tagTIME →
        cmp (payN a) (payN b) (sa - signedOf 60 (payN b))) ∧
      (wTag a = tagPTR → wTag b = tagPTR → ptrClass a = ptrClass b →
        cmp (ptrAddr a) (ptrAddr b) ((ptrAddr a : Int) - ptrAddr b))) ∧
    (s.m.tReady n (encReg 1 0 ra rb 0x0E) → (wTag a ≤ 4 ∨ wTag a = tagTIME) → (wTag b ≤ 4 ∨ wTag b = tagTIME) →
      GivesT (.ceq (.te n) ra rb) s n [toFlag 1 flZ (decide (wTag a = wTag b ∧ wPay a = wPay b))])

/-- DIV on a TE: quotient truncated toward zero and remainder with the sign of the dividend, V and DZ, all at distance 12; a zero
divisor gives quotient 0, the dividend, DZ = 1 and V = 0, or, with DZ_TRAP, the two flags and the trap of R124. -/
def Obligations.TeDivGivesQuotientRemainder : Prop :=
  ∀ (s : State) (n : Fin 16) (rd rr ra rb : BitVec 5),
    let a := s.m.tReg n ra
    let b := s.m.tReg n rb
    let c := (s.m.tNow n).ctx
    let trap := (s.m.landDue n).bit (ENG_TEn_CTL n) fENG_TEn_CTL_DZ_TRAP
    let q := Int.tdiv (signedOf 60 (payN a)) (signedOf 60 (payN b))
    let r := Int.tmod (signedOf 60 (payN a)) (signedOf 60 (payN b))
    s.m.tReady n (encDiv rd rr ra rb) → isInt a = true → isInt b = true →
      (payN b ≠ 0 → GivesT (.div (.te n) rd rr ra rb) s n
        [toFlag 12 flV (overflows 60 q), toReg 12 rr (intWord (r % 2 ^ 60).toNat), toReg 12 rd (intWord (q % 2 ^ 60).toNat)]) ∧
      (payN b = 0 → trap = false → GivesT (.div (.te n) rd rr ra rb) s n
        [toFlag 12 flV false, toFlag 12 flDZ true, toReg 12 rr (intWord (payN a)), toReg 12 rd (intWord 0)]) ∧
      (payN b = 0 → trap = true → GivesT (.div (.te n) rd rr ra rb) s n
        [toFlag 12 flV false, toFlag 12 flDZ true,
         (12, .dz c.pc (encDiv rd rr ra rb).toNat (if c.btc = 0 then none else c.bt) c.btc c.ending, 0)])

/-- The immediate instructions on a TE: ADDI and CMPI sign-extend, ANDI, ORI and XORI zero-extend, SHLI, SHRI and SARI take the
unsigned count, MOVI loads a sign-extended constant without flags. -/
def Obligations.TeImmediatesActAsRegisterForms : Prop :=
  ∀ (s : State) (n : Fin 16) (rd ra : BitVec 5) (imm : BitVec 16) (wide : BitVec 21),
    let a := s.m.tReg n ra
    let x := wPay a
    let k := imm.toNat
    let b := (imm.signExtend 60).toNat
    let bits (c : Instr) (v : BitVec 60) (fl : List (Nat × PTgt × TWord)) :=
      GivesT c s n (toReg 1 rd (mkWord tagINT v) :: flagNZ 1 v.toNat ++ fl)
    (s.m.tReady n (encImm 0x04 rd ra imm) →
      (isInt a = true → GivesT (.addi (.te n) rd ra imm) s n
        (toReg 1 rd (intWord ((payN a + b) % 2 ^ 60)) :: flagNZ 1 ((payN a + b) % 2 ^ 60) ++
          [toFlag 1 flC (decide (2 ^ 60 ≤ payN a + b)), toFlag 1 flV (overflows 60 (signedOf 60 (payN a) + imm.toInt))])) ∧
      (wTag a = tagPTR → GivesT (.addi (.te n) rd ra imm) s n [toReg 1 rd (mkPtr (ptrClass a) (ptrAddr a + b))]) ∧
      (wTag a = tagTIME → GivesT (.addi (.te n) rd ra imm) s n [toReg 1 rd (mkWord tagTIME (x + imm.signExtend 60))])) ∧
    (isInt a = true →
      (s.m.tReady n (encImm 0x05 rd ra imm) → bits (.andi (.te n) rd ra imm) (x &&& imm.setWidth 60) []) ∧
      (s.m.tReady n (encImm 0x06 rd ra imm) → bits (.ori (.te n) rd ra imm) (x ||| imm.setWidth 60) []) ∧
      (s.m.tReady n (encImm 0x07 rd ra imm) → bits (.xori (.te n) rd ra imm) (x ^^^ imm.setWidth 60) []) ∧
      (s.m.tReady n (encImm 0x08 rd ra imm) → bits (.shli (.te n) rd ra imm) (x <<< k)
        ((if k = 0 then [] else [toFlag 1 flC (decide (k < 60) && x.getLsbD (60 - k))]) ++
         (if k < 60 then [toFlag 1 flV (overflows 60 (signedOf 60 (payN a) * 2 ^ k))] else []))) ∧
      (s.m.tReady n (encImm 0x09 rd ra imm) → bits (.shri (.te n) rd ra imm) (x >>> k)
        (if k = 0 then [] else [toFlag 1 flC (decide (k < 60) && x.getLsbD (k - 1))])) ∧
      (s.m.tReady n (encImm 0x0A rd ra imm) → bits (.sari (.te n) rd ra imm) (x.sshiftRight k)
        (if k = 0 then [] else [toFlag 1 flC (if k < 60 then x.getLsbD (k - 1) else x.msb)])) ∧
      (s.m.tReady n (encImm 0x0B 0 ra imm) → GivesT (.cmpi (.te n) ra imm) s n (flagNZ 1 ((payN a + 2 ^ 60 - b) % 2 ^ 60) ++
        [toFlag 1 flC (decide (payN a < b)), toFlag 1 flV (overflows 60 (signedOf 60 (payN a) - imm.toInt))]))) ∧
    (s.m.tReady n (encWide rd wide) → GivesT (.movi (.te n) rd wide) s n [toReg 1 rd (mkWord tagINT (wide.signExtend 60))])

/-- MOV, TAGOF, MOVK, RETAG, EXT and INS on a TE: tags kept or changed as R155 to R159 say, no flag but EXT's Z. -/
def Obligations.TeMovesTagsAndFieldsGiveWords : Prop :=
  ∀ (s : State) (n : Fin 16) (rd ra : BitVec 5) (imm : BitVec 16) (hw : BitVec 2) (tag : BitVec 4) (pos len1 : BitVec 6),
    let a := s.m.tReg n ra
    let d := s.m.tReg n rd
    let lo := 16 * hw.toNat
    let p := pos.toNat
    let len := len1.toNat + 1
    let field (w : TWord) := isInt w = true ∨ wTag w = tagDESC
    (s.m.tReady n (encReg 1 rd ra 0 0x0F) → GivesT (.mov (.te n) rd ra) s n [toReg 1 rd a]) ∧
    (s.m.tReady n (encReg 1 rd ra 0 0x10) → GivesT (.tagof (.te n) rd ra) s n [toReg 1 rd (intWord (wTag a))]) ∧
    (s.m.tReady n (encHalf rd hw imm) → isInt d = true →
      (hw ≠ 3 → GivesT (.movk (.te n) rd hw imm) s n
        [toReg 1 rd (intWord (payN d / 2 ^ (lo + 16) * 2 ^ (lo + 16) + imm.toNat * 2 ^ lo + payN d % 2 ^ lo))]) ∧
      (hw = 3 → imm.toNat < 2 ^ 12 → GivesT (.movk (.te n) rd hw imm) s n
        [toReg 1 rd (intWord (imm.toNat * 2 ^ 48 + payN d % 2 ^ 48))])) ∧
    (s.m.tReady n (encImm 0x0F rd ra (tag.setWidth 16)) →
      (isInt a = true → tag = 0 → GivesT (.retag (.te n) rd ra tag) s n [toReg 1 rd nilWord]) ∧
      (isInt a = true → (tag = 1 ∨ tag = 3 ∨ tag = 6 ∨ tag = 2 ∧ ptrClass a < 8) →
        GivesT (.retag (.te n) rd ra tag) s n [toReg 1 rd (mkWord tag.toNat (wPay a))]) ∧
      (wTag a = tagPTR ∨ wTag a = tagDESC ∨ wTag a = tagTIME → tag = 1 →
        GivesT (.retag (.te n) rd ra tag) s n [toReg 1 rd (mkWord tagINT (wPay a))])) ∧
    (s.m.tReady n (encField 0x12 rd ra pos len1) → p + len ≤ 60 → field a →
      GivesT (.ext (.te n) rd ra pos len1) s n
        [toReg 1 rd (mkWord (wTag a) (BitVec.ofNat 60 (payN a / 2 ^ p % 2 ^ len))),
         toFlag 1 flZ (decide (payN a / 2 ^ p % 2 ^ len = 0))]) ∧
    (s.m.tReady n (encField 0x13 rd ra pos len1) → p + len ≤ 60 → field d → field a →
      GivesT (.ins (.te n) rd ra pos len1) s n
        [toReg 1 rd (mkWord (wTag d) (BitVec.ofNat 60
          (payN d / 2 ^ (p + len) * 2 ^ (p + len) + payN a % 2 ^ len * 2 ^ p + payN d % 2 ^ p)))])

/-! ### Tagged engines: memory, far access, events, special registers, control (03_engine_model.md, 04_engine_instructions.md) -/

/-- LD and ST on a TE: the word at ra + simm16 is loaded with its tag at distance 3, or stored with its tag; an index outside 0 to 8191
raises LADDR with FOPND 1 or 3, and neither writes a flag. -/
def Obligations.TeLoadAndStoreMoveLocalWords : Prop :=
  ∀ (s : State) (n : Fin 16) (rd ra : BitVec 5) (imm : BitVec 16),
    let m := s.m.landDue n
    let at_ := localAddr (s.m.tReg n ra) + imm.toInt
    localOk (s.m.tReg n ra) = true →
      (s.m.tReady n (encImm 0x10 rd ra imm) →
        (∀ i : Nat, at_ = i → i < 8192 →
          DoneT (.ld (.te n) rd ra imm) s n 1 (m.lmLoad n i).1 [toReg 3 rd (m.lmLoad n i).2]) ∧
        (at_ < 0 ∨ 8191 < at_ → FaultsT (.ld (.te n) rd ra imm) s n (encImm 0x10 rd ra imm) 0x05 1 0)) ∧
      (s.m.tReady n (encImm 0x11 rd ra imm) →
        (∀ i : Nat, at_ = i → i < 8192 →
          DoneT (.st (.te n) rd ra imm) s n 1 (m.lmStore n i (s.m.tReg n rd) (!(s.m.tNow n).inFault)) []) ∧
        (at_ < 0 ∨ 8191 < at_ → FaultsT (.st (.te n) rd ra imm) s n (encImm 0x11 rd ra imm) 0x05 3 0))

/-- A store to local memory changes the word it names and no other: any local word read after it gives the stored word at its own
index and the word it gave before at every other one, the other half of an uncorrectable code word as POISON included; of the
device, only the engine, its counters and the notes on their way to FLT change. -/
def Obligations.LocalStoreChangesOneWord : Prop :=
  ∀ (m : Mach) (n i j : Nat) (v : TWord) (log : Bool), i < 8192 → j < 8192 →
    ((m.lmStore n i v log).lmLoad n j).2 = (if j = i then v else (m.lmLoad n j).2) ∧
    (m.lmStore n i v log).keepsBut [.regs, .te, .flt] m

/-- FETCH and PUT on a TE: with an even local address in range, a far PTR that R105, R112 to R114, R197 and R767 allow and a free flag,
the access is issued, its flag and the flag's status are cleared; a PUT takes its source words in 1 + length slots, and one that a run
outputs is recorded. A busy flag raises FLAG_BUSY. -/
def Obligations.TeFarAccessesIssue : Prop :=
  ∀ (s : State) (n : Fin 16) (rl rf : BitVec 5) (len1 : BitVec 6) (flag : BitVec 5) (mode : Bool) (i : Nat),
    let m := s.m.landDue n
    let t := s.m.tNow n
    let far := s.m.tReg n rf
    let len := len1.toNat + 1
    let cnt := if mode then 2 * len else 4 * len
    localOk (s.m.tReg n rl) = true → localAddr (s.m.tReg n rl) = i → i % 2 = 0 → i + cnt ≤ 8192 →
      wTag far = tagPTR → ptrClass far ≠ 0 →
      (s.m.tReady n (encFar 0x14 rl rf len1 flag mode) → farRegion false far mode len = false →
        (t.flagBusy t.curSlot flag.toNat = false → DoneT (.fetch (.te n) rl rf len1 flag mode) s n 1
          (m.startAcc n t.curSlot flag.toNat false far i len mode [] none) []) ∧
        (t.flagBusy t.curSlot flag.toNat = true →
          FaultsT (.fetch (.te n) rl rf len1 flag mode) s n (encFar 0x14 rl rf len1 flag mode) 0x0C 0 0)) ∧
      (s.m.tReady n (encFar 0x15 rl rf len1 flag mode) → farRegion true far mode len = false →
        let src := m.lmPairs n i (cnt / 2)
        (t.flagBusy t.curSlot flag.toNat = false → srcFault (ptrClass far == 7) (rawExempt far) mode src.2 = none →
          DoneT (.put (.te n) rl rf len1 flag mode) s n (1 + len)
            ((match putOutput t.outs.length far len src.2 with
              | some x => src.1.output n x (rawCodes (src.2.length + 1) src.2)
              | none => src.1).startAcc n t.curSlot flag.toNat true far i len mode src.2
                ((putOutput t.outs.length far len src.2).map fun (x : Output) => x.no)) []) ∧
        (t.flagBusy t.curSlot flag.toNat = true →
          FaultsT (.put (.te n) rl rf len1 flag mode) s n (encFar 0x15 rl rf len1 flag mode) 0x0C 0 0))

/-- WAIT on a TE: it ends at once with TO = 0 when its condition holds; otherwise every pending result lands and the engine waits,
its flags left as they are, or, with the deadline already reached, ends with TO = 1; PM = 3 raises ILLEGAL. -/
def Obligations.TeWaitEndsOrWaits : Prop :=
  ∀ (s : State) (n : Fin 16) (cond ra rb : BitVec 5),
    let m := s.m.landDue n
    let t := s.m.tNow n
    let w : WaitRec := ⟨BitVec.ofNat 32 (payN (s.m.tReg n ra)), cond == 1,
      if wTag (s.m.tReg n rb) = tagTIME then some (wPay (s.m.tReg n rb)) else none⟩
    let landed : Te := { t.landAll with slotNo := max t.slotNo (lastSlot t.pend) }
    s.m.tReady n (encReg 0x16 cond ra rb 0) → cond.toNat ≤ 1 →
      (t.ctx.pm = 3 → FaultsT (.wait (.te n) cond ra rb) s n (encReg 0x16 cond ra rb 0) 0x08 0 0) ∧
      (t.ctx.pm ≠ 3 → isInt (s.m.tReg n ra) = true →
          (wTag (s.m.tReg n rb) = tagTIME ∨ wTag (s.m.tReg n rb) = tagNIL) →
        (w.holds (m.flagsOf n t.curSlot) = true → GivesT (.wait (.te n) cond ra rb) s n [toFlag 1 flTO false]) ∧
        (w.holds (m.flagsOf n t.curSlot) = false → findDz t.pend = none →
          ((∀ d, w.deadline = some d → m.deadlinePast d = false) →
            exec (.wait (.te n) cond ra rb) s = .next { s with m := (m.setTe n
              { landed with st := if landed.st = .fault then EngState.waitF else EngState.wait, wait := some w }) }) ∧
          (∀ d, w.deadline = some d → m.deadlinePast d = true →
            exec (.wait (.te n) cond ra rb) s = .next { s with m := (((m.setTe n landed).markLate n t.curSlot w).teMod n fun x => x.endWait true).settle n })))

/-- ESTAT, CLRE and SIG on a TE: the status of a flag with Z, the flags of a mask cleared with their status and no outstanding access
cancelled, an EVENT packet to the task slot and engine that ra names, recorded as an output of the run. -/
def Obligations.TeEventGroupActsOnFlags : Prop :=
  ∀ (s : State) (n : Fin 16) (rd ra f : BitVec 5),
    let m := s.m.landDue n
    let t := s.m.tNow n
    let st := m.statOf n t.curSlot f.toNat
    let p := payN (s.m.tReg n ra)
    let seq := m.rpSeqTake (rpPlace n) 1
    (s.m.tReady n (encReg 0x17 rd 0 f 0) →
      GivesT (.estat (.te n) rd f) s n [toReg 1 rd (intWord st), toFlag 1 flZ (decide (st = 0))]) ∧
    (s.m.tReady n (encReg 0x17 0 ra 0 1) → isInt (s.m.tReg n ra) = true →
      DoneT (.clre (.te n) ra) s n 1 (m.dspMod n fun d => d.clear t.curSlot (BitVec.ofNat 32 p)) []) ∧
    (s.m.tReady n (encReg 0x17 0 ra f 2) → isInt (s.m.tReg n ra) = true →
      DoneT (.sig (.te n) ra f) s n 1
        ((seq.2.output n ⟨t.outs.length, 2, p / 64 % 16, 4, 0, p % 64 * 32 + f.toNat, []⟩
          [eventHeader n (p / 64 % 16) seq.1 (p % 64) f.toNat]).sendEvent (p / 64 % 16) (p % 64) f.toNat (runOf n t.tslot)) [])

/-- RDS, WRS, RDX and WRX on a TE: the indexes of R102 with their content, 8 to 14 in the fault task alone; any other index, a write to a
read-only one, and RDX or WRX outside the fault task raise ILLEGAL. -/
def Obligations.TeSpecialRegistersReadAndWrite : Prop :=
  ∀ (s : State) (n : Fin 16) (rd ra r i : BitVec 5),
    let m := s.m.landDue n
    let t := s.m.tNow n
    let p := payN (s.m.tReg n ra)
    (s.m.tReady n (encReg 0x18 rd 0 i 0) →
      (i = 0 → GivesT (.rds (.te n) rd i) s n [toReg 1 rd (intWord t.ctx.fl.toNat)]) ∧
      (i = 1 → GivesT (.rds (.te n) rd i) s n [toReg 1 rd (intWord t.ctx.pm)]) ∧
      (i = 2 → GivesT (.rds (.te n) rd i) s n [toReg 1 rd (intWord (64 * n + t.curSlot))]) ∧
      (i = 3 → GivesT (.rds (.te n) rd i) s n [toReg 1 rd (intWord m.beat)]) ∧
      (i = 4 → GivesT (.rds (.te n) rd i) s n [toReg 1 rd (intWord m.tim.tick)]) ∧
      (i = 5 → GivesT (.rds (.te n) rd i) s n [toReg 1 rd (mkWord tagTIME m.timePayload)]) ∧
      (t.inFault = true →
        (i = 8 → GivesT (.rds (.te n) rd i) s n [toReg 1 rd (intWord t.frozen.code)]) ∧
        (i = 9 → GivesT (.rds (.te n) rd i) s n [toReg 1 rd (intWord t.frozen.fpc)]) ∧
        (i = 10 → GivesT (.rds (.te n) rd i) s n [toReg 1 rd (intWord t.frozen.finsn)]) ∧
        (i = 11 → GivesT (.rds (.te n) rd i) s n [toReg 1 rd (intWord t.frozen.fopnd)]) ∧
        (i = 12 → GivesT (.rds (.te n) rd i) s n
          [toReg 1 rd (match t.frozen.bt with | some x => intWord x | none => nilWord)]) ∧
        (i = 13 → GivesT (.rds (.te n) rd i) s n [toReg 1 rd (intWord t.frozen.btc)]) ∧
        (i = 14 → GivesT (.rds (.te n) rd i) s n [toReg 1 rd (intWord t.frozen.ffl.toNat)])) ∧
      (i.toNat ∈ [6, 7] ∨ 15 ≤ i.toNat ∨ 8 ≤ i.toNat ∧ t.inFault = false →
        FaultsT (.rds (.te n) rd i) s n (encReg 0x18 rd 0 i 0) 0x08 0 0)) ∧
    (s.m.tReady n (encReg 0x18 0 ra i 1) →
      (isInt (s.m.tReg n ra) = true →
        (i = 0 → GivesT (.wrs (.te n) i ra) s n ((List.range 7).map fun k => toFlag 1 k (p.testBit k))) ∧
        (i = 1 → DoneT (.wrs (.te n) i ra) s n 1 (m.teMod n fun x => { x with ctx := { x.ctx with pm := p % 4 } }) []) ∧
        (i = 14 → t.inFault = true →
          DoneT (.wrs (.te n) i ra) s n 1 (m.teMod n fun x => { x with frozen := { x.frozen with ffl := BitVec.ofNat 7 p } }) [])) ∧
      (i ≠ 0 → i ≠ 1 → ¬ (i = 14 ∧ t.inFault = true) →
        FaultsT (.wrs (.te n) i ra) s n (encReg 0x18 0 ra i 1) 0x08 0 0)) ∧
    (s.m.tReady n (encReg 0x18 rd 0 r 2) → t.inFault = true →
      GivesT (.rdx (.te n) rd r) s n [toReg 1 rd (if r = 0 then nilWord else tabGet 0 t.saved.regs r.toNat)]) ∧
    (s.m.tReady n (encReg 0x18 0 ra r 3) → t.inFault = true →
      DoneT (.wrx (.te n) r ra) s n 1 (m.teMod n fun x => { x with saved :=
        if r = 0 then x.saved else { x.saved with regs := tabSet 0 x.saved.regs r.toNat (s.m.tReg n ra) } }) [])

/-- RDX and WRX outside the fault task raise ILLEGAL (R167): the instruction is suppressed, the fault frozen with the instruction's
address and word, and nothing else changes. -/
def Obligations.TeRdxWrxOutsideFaultTaskRaiseIllegal : Prop :=
  ∀ (s : State) (n : Fin 16) (rd ra r : BitVec 5),
    let m := s.m.landDue n
    let t := s.m.tNow n
    let illegal (w : W32) := { t with st := EngState.faulting, wait := none, frozen :=
      ⟨0x08, t.ctx.pc, w.toNat, 0, if t.ctx.btc = 0 then none else t.ctx.bt, t.ctx.btc - 1, 0, 0, false⟩ }
    t.inFault = false →
      (s.m.tReady n (encReg 0x18 rd 0 r 2) →
        exec (.rdx (.te n) rd r) s = .next { s with m := m.setTe n (illegal (encReg 0x18 rd 0 r 2)) }) ∧
      (s.m.tReady n (encReg 0x18 0 ra r 3) →
        exec (.wrx (.te n) r ra) s = .next { s with m := m.setTe n (illegal (encReg 0x18 0 ra r 3)) })

/-- The transfers of a TE outside delay slots: B*cond* by FL as it stands, CALL and JR with the return address, BTAG and BNTAG by the
tag; the target is the transfer's address plus its offset, a taken one outside 0 to 8191 raises ILLEGAL, and any transfer in a delay
slot raises DSLOT. -/
def Obligations.TeTransfersGoToTheirTargets : Prop :=
  ∀ (s : State) (n : Fin 16) (rd ra : BitVec 5) (cond tag : BitVec 4) (off : BitVec 22) (coff : BitVec 21) (toff : BitVec 16),
    let t := s.m.tNow n
    let a := s.m.tReg n ra
    let fl := t.ctx.fl
    let N := fl.getLsbD 0
    let Z := fl.getLsbD 1
    let C := fl.getLsbD 2
    let V := fl.getLsbD 3
    let TO := fl.getLsbD 6
    let taken := [true, Z, !Z, N != V, N == V, Z || N != V, !Z && N == V, C, !C, N, !N, V, !V, TO, !TO].getD cond.toNat false
    let link := [toReg 1 rd (intWord (t.ctx.pc + 3))]
    let goes (c : Instr) (w : W32) (yes : Bool) (target : Int) (ws : List (Nat × PTgt × TWord)) : Prop :=
      (∀ i : Nat, yes = true → target = i → i < 8192 → JumpsT c s n (some i) 0 ws) ∧
      (yes = true → target < 0 ∨ 8191 < target → FaultsT c s n w 0x08 0 0) ∧
      (yes = false → JumpsT c s n none 0 ws)
    (t.ctx.btc = 0 →
      (cond ≠ 15 → s.m.tReady n (encBranch cond off) →
        goes (.bcond (.te n) cond off) (encBranch cond off) taken (t.ctx.pc + off.toInt) []) ∧
      (s.m.tReady n (encCall rd coff) → goes (.call (.te n) rd coff) (encCall rd coff) true (t.ctx.pc + coff.toInt) link) ∧
      (s.m.tReady n (encReg 0x22 rd ra 0 0) → isInt a = true →
        goes (.jr (.te n) rd ra) (encReg 0x22 rd ra 0 0) true (signedOf 60 (payN a)) link) ∧
      (s.m.tReady n (encTagbr ra tag false toff) →
        goes (.btag (.te n) ra tag toff) (encTagbr ra tag false toff) (decide (wTag a = tag.toNat)) (t.ctx.pc + toff.toInt) []) ∧
      (s.m.tReady n (encTagbr ra tag true toff) →
        goes (.bntag (.te n) ra tag toff) (encTagbr ra tag true toff) (decide (wTag a ≠ tag.toNat)) (t.ctx.pc + toff.toInt) [])) ∧
    (t.ctx.btc ≠ 0 →
      (cond ≠ 15 → s.m.tReady n (encBranch cond off) → FaultsT (.bcond (.te n) cond off) s n (encBranch cond off) 0x09 0 0) ∧
      (s.m.tReady n (encCall rd coff) → FaultsT (.call (.te n) rd coff) s n (encCall rd coff) 0x09 0 0) ∧
      (s.m.tReady n (encReg 0x22 rd ra 0 0) → FaultsT (.jr (.te n) rd ra) s n (encReg 0x22 rd ra 0 0) 0x09 0 0) ∧
      (s.m.tReady n (encTagbr ra tag false toff) →
        FaultsT (.btag (.te n) ra tag toff) s n (encTagbr ra tag false toff) 0x09 0 0) ∧
      (s.m.tReady n (encTagbr ra tag true toff) →
        FaultsT (.bntag (.te n) ra tag toff) s n (encTagbr ra tag true toff) 0x09 0 0))

/-- NOP, END, FRET in its three modes and BRK on a TE: NOP takes one slot; END ends the task after its delay slots, in the fault task as
FRET ABANDON; FRET runs in the fault task and raises ILLEGAL outside it; BRK acts as NOP unless BRK_EN is 1, then it raises BREAK. -/
def Obligations.TeSystemGroupActs : Prop :=
  ∀ (s : State) (n : Fin 16),
    let m := s.m.landDue n
    let t := s.m.tNow n
    let w (mode fn : Nat) := encReg 0x24 0 0 (BitVec.ofNat 5 mode) (BitVec.ofNat 6 fn)
    let fret (c : Instr) (mode : Nat) :=
      (t.inFault = true → JumpsT c s n none (2 + mode) []) ∧ (t.inFault = false → FaultsT c s n (w mode 2) 0x08 0 0)
    (s.m.tReady n (w 0 0) → GivesT (.nop (.te n)) s n []) ∧
    (t.ctx.btc = 0 →
      (s.m.tReady n (w 0 1) → JumpsT (.endTask (.te n)) s n none (if t.inFault then 4 else 1) []) ∧
      (s.m.tReady n (w 0 2) → fret (.fretRetry (.te n)) 0) ∧
      (s.m.tReady n (w 1 2) → fret (.fretSkip (.te n)) 1) ∧
      (s.m.tReady n (w 2 2) → fret (.fretAbandon (.te n)) 2)) ∧
    (s.m.tReady n (w 0 3) →
      (m.bit (ENG_TEn_CTL n) fENG_TEn_CTL_BRK_EN = false → GivesT (.brk (.te n)) s n []) ∧
      (m.bit (ENG_TEn_CTL n) fENG_TEn_CTL_BRK_EN = true → FaultsT (.brk (.te n)) s n (w 0 3) 0x0A 0 0))

/-- A word that is no defined encoding raises ILLEGAL on the engine at whose program counter it stands (R129, R147). -/
def Obligations.UndefinedWordsRaiseIllegal : Prop :=
  ∀ (s : State) (n : Fin 16) (rd ra rb : BitVec 5) (w : W32),
    (s.m.tReady n w → defined true w = false → FaultsT (.add (.te n) rd ra rb (some w)) s n w 0x08 0 0) ∧
    (s.m.lReady w → defined false w = false → FaultsL (.add .lc rd ra rb (some w)) s 0x08)

/-- An operand that R106 does not accept faults before any effect, first source before second: POISON raises POISON_USE with the PLACE of
its record, KEY raises KEY_LEAK, any other tag raises TAG, each with the operand's number (R106, R107, R109, R151). -/
def Obligations.TeOperandFaultsNameTheOperand : Prop :=
  ∀ (s : State) (n : Fin 16) (rd rr ra rb : BitVec 5) (p : Instr × W32),
    let a := s.m.tReg n ra
    let b := s.m.tReg n rb
    let fault (x : TWord) (k : Nat) :=
      (wTag x = tagPOISON → FaultsT p.1 s n p.2 0x02 k (x.extractLsb' 20 4).toNat) ∧
      (wTag x = tagKEY → FaultsT p.1 s n p.2 0x03 k 0) ∧
      (wTag x ≠ tagPOISON → wTag x ≠ tagKEY → FaultsT p.1 s n p.2 0x01 k 0)
    p ∈ [(.and (.te n) rd ra rb, encReg 1 rd ra rb 0x02), (.or (.te n) rd ra rb, encReg 1 rd ra rb 0x03),
         (.xor (.te n) rd ra rb, encReg 1 rd ra rb 0x04), (.andn (.te n) rd ra rb, encReg 1 rd ra rb 0x05),
         (.shl (.te n) rd ra rb, encReg 1 rd ra rb 0x06), (.shr (.te n) rd ra rb, encReg 1 rd ra rb 0x07),
         (.sar (.te n) rd ra rb, encReg 1 rd ra rb 0x08), (.mul (.te n) rd ra rb, encReg 1 rd ra rb 0x0B),
         (.mulh (.te n) rd ra rb, encReg 1 rd ra rb 0x0C), (.div (.te n) rd rr ra rb, encDiv rd rr ra rb)] →
    s.m.tReady n p.2 → (isInt a = false → fault a 1) ∧ (isInt a = true → isInt b = false → fault b 2)

/-! ### Strings and REP on a tagged engine, and the lantern core (R125 to R128, R138 to R143, R174 to R177) -/

/-- MOVS, FILLS, SCANS and CMPS once on a TE: ps and pd name local words, a step goes up or down with FL.D and keeps the tag; a find writes
Z and nc = 1 and steps nothing. -/
def Obligations.TeStringsRunOnce : Prop :=
  ∀ (s : State) (n : Fin 16) (ra : BitVec 5) (i j : Nat),
    let m := s.m.landDue n
    let t := s.m.tNow n
    let ps := s.m.tReg n 30
    let pd := s.m.tReg n 31
    let a := s.m.tReg n ra
    let comparable (x : TWord) := wTag x ≤ 4 ∨ wTag x = tagTIME
    let equal (x y : TWord) := wTag x = wTag y ∧ wPay x = wPay y
    let step (x : TWord) : TWord :=
      let p := if t.ctx.fl.getLsbD 5 then wPay x - 1 else wPay x + 1
      if isInt x then mkWord tagINT p else mkPtr 0 p.toNat
    let log := !t.inFault
    let x := m.lmLoad n i
    let y := x.1.lmLoad n j
    (s.m.tReady n (encReg 0x29 0 ra 0 1) → localOk pd = true → localAddr pd = j → j < 8192 →
      DoneT (.fills (.te n) ra) s n 1 (m.lmStore n j a log) [toReg 1 31 (step pd)]) ∧
    (localOk ps = true → localAddr ps = i → i < 8192 →
      (s.m.tReady n (encReg 0x29 0 ra 0 2) → comparable a → comparable x.2 →
        (equal x.2 a → DoneT (.scans (.te n) ra) s n 1 x.1 [toFlag 1 flZ true, toReg 1 29 (intWord 1)]) ∧
        (¬ equal x.2 a → DoneT (.scans (.te n) ra) s n 1 x.1 [toFlag 1 flZ false, toReg 1 30 (step ps)])) ∧
      (localOk pd = true → localAddr pd = j → j < 8192 →
        (s.m.tReady n (encReg 0x29 0 0 0 0) →
          (wTag x.2 ≠ tagKEY →
            DoneT (.movs (.te n)) s n 1 (x.1.lmStore n j x.2 log) [toReg 1 30 (step ps), toReg 1 31 (step pd)]) ∧
          (wTag x.2 = tagKEY → FaultsT (.movs (.te n)) s n (encReg 0x29 0 0 0 0) 0x03 1 0)) ∧
        (s.m.tReady n (encReg 0x29 0 0 0 3) → comparable x.2 → comparable y.2 →
          (equal x.2 y.2 →
            DoneT (.cmps (.te n)) s n 1 y.1 [toFlag 1 flZ true, toReg 1 30 (step ps), toReg 1 31 (step pd)]) ∧
          (¬ equal x.2 y.2 → DoneT (.cmps (.te n)) s n 1 y.1 [toFlag 1 flZ false, toReg 1 29 (intWord 1)]))))

/-- REP on a TE: with nc = 0 it takes two slots and skips its instruction; a nonzero nc takes the prefix's slot and runs the loop; a REP
MOV of registers other than nc leaves the next instruction nc = 0 and the register moved, 1 + nc slots passed and the program counter behind the pair; a REP in
a delay slot or before a word that R125 does not allow raises ILLEGAL, and an nc that is no INT raises TAG with FOPND 4. -/
def Obligations.TeRepRepeatsItsInstruction : Prop :=
  ∀ (s : State) (n : Fin 16) (k : Nat) (rd ra : BitVec 5),
    let m := s.m.landDue n
    let t := s.m.tNow n
    let nc := s.m.tReg n 29
    let w := t.fetch m.actBank (t.ctx.pc + 1)
    let faults (code opnd place : Nat) := exec (.rep (.te n) k) s =
      .next { s with m := m.teFault n w ⟨code, opnd, place⟩ true }
    s.m.tReady n 0xA0000000#32 →
      (t.ctx.btc ≠ 0 ∨ repeatable true w = false → faults 0x08 0 0) ∧
      (t.ctx.btc = 0 → repeatable true w = true →
        (wTag nc ≠ tagINT → wTag nc ≠ tagPOISON → wTag nc ≠ tagKEY → faults 0x01 4 0) ∧
        (isInt nc = true → wPay nc = 0 → exec (.rep (.te n) k) s = .next
          { s with m := m.teMod n fun x => { x with slotNo := x.slotNo + 2, ctx := { x.ctx with pc := x.ctx.pc + 2 } } }) ∧
        (isInt nc = true → wPay nc ≠ 0 → payN nc ≤ k → t.pend = [] → rd ≠ 29 → ra ≠ 29 → w = encReg 1 rd ra 0 0x0F →
          Does (.rep (.te n) k) s fun x => x.keepsBut [.te] m ∧ (∀ j, j ≠ n.val → x.getTe j = m.getTe j) ∧
            let u := x.tNow n
            u.slotNo = t.slotNo + 1 + payN nc ∧ u.ctx.pc = t.ctx.pc + 2 ∧ u.ctx.fl = t.ctx.fl ∧ u.lmem = t.lmem ∧
            ∀ r, u.ctx.get r = if r = 29 then intWord 0 else if r = rd ∧ r ≠ 0 then s.m.tReg n ra else t.ctx.get r))

/-- The arithmetic of LC at the width of the registers named, 8 or 16 bits: exact results narrowed, flags at bit 7 or bit 15, results at
distance 1, products at 2, quotients at 12 and never a trap. -/
def Obligations.LcArithmeticWorksAtRegisterWidth : Prop :=
  ∀ (s : State) (rd rr ra rb : BitVec 5),
    let w := lcWidth rd.toNat
    let a := s.m.lReg ra
    let b := s.m.lReg rb
    let sa := signedOf w a
    let sb := signedOf w b
    let nat (x : Int) : Nat := (x % (2 ^ w : Nat)).toNat
    let gives (c : Instr) (d v : Nat) (fl : List (Nat × PTgt × Nat)) := GivesL c s (toLreg d rd v :: lflagNZ w d v ++ fl)
    (lcSame [rd.toNat, ra.toNat, rb.toNat] = true →
      (s.m.lReady (encReg 1 rd ra rb 0x00) → gives (.add .lc rd ra rb none) 1 ((a + b) % 2 ^ w)
        [toLflag 1 flC (decide (2 ^ w ≤ a + b)), toLflag 1 flV (overflows w (sa + sb))]) ∧
      (s.m.lReady (encReg 1 rd ra rb 0x01) → gives (.sub .lc rd ra rb) 1 ((a + 2 ^ w - b) % 2 ^ w)
        [toLflag 1 flC (decide (a < b)), toLflag 1 flV (overflows w (sa - sb))]) ∧
      (s.m.lReady (encReg 1 rd ra rb 0x02) → gives (.and .lc rd ra rb) 1 ((a &&& b) % 2 ^ w) []) ∧
      (s.m.lReady (encReg 1 rd ra rb 0x03) → gives (.or .lc rd ra rb) 1 ((a ||| b) % 2 ^ w) []) ∧
      (s.m.lReady (encReg 1 rd ra rb 0x04) → gives (.xor .lc rd ra rb) 1 ((a ^^^ b) % 2 ^ w) []) ∧
      (s.m.lReady (encReg 1 rd ra rb 0x05) → gives (.andn .lc rd ra rb) 1 ((a &&& (2 ^ w - 1 - b)) % 2 ^ w) []) ∧
      (s.m.lReady (encReg 1 rd ra rb 0x0B) → gives (.mul .lc rd ra rb) 2 (nat (sa * sb)) [toLflag 2 flV (overflows w (sa * sb))]) ∧
      (s.m.lReady (encReg 1 rd ra rb 0x0C) → gives (.mulh .lc rd ra rb) 2 (nat (sa * sb / (2 ^ w : Nat))) [toLflag 2 flV false]) ∧
      (lcWidth rr.toNat = w → s.m.lReady (encDiv rd rr ra rb) →
        (b ≠ 0 → GivesL (.div .lc rd rr ra rb) s [toLflag 12 flV (overflows w (Int.tdiv sa sb)),
          toLreg 12 rr (nat (Int.tmod sa sb)), toLreg 12 rd (nat (Int.tdiv sa sb))]) ∧
        (b = 0 → GivesL (.div .lc rd rr ra rb) s [toLflag 12 flV false, toLflag 12 flDZ true, toLreg 12 rr a, toLreg 12 rd 0]))) ∧
    (lcSame [rd.toNat, ra.toNat] = true →
      (s.m.lReady (encReg 1 rd ra 0 0x09) → gives (.neg .lc rd ra) 1 ((0 + 2 ^ w - a) % 2 ^ w)
        [toLflag 1 flC (decide (0 < a)), toLflag 1 flV (overflows w (0 - sa))]) ∧
      (s.m.lReady (encReg 1 rd ra 0 0x0A) → gives (.not .lc rd ra) 1 ((2 ^ w - 1 - a) % 2 ^ w) [])) ∧
    (lcSame [ra.toNat, rb.toNat] = true → lcWidth ra.toNat = w →
      (s.m.lReady (encReg 1 0 ra rb 0x0D) → GivesL (.cmp .lc ra rb) s (lflagNZ w 1 ((a + 2 ^ w - b) % 2 ^ w) ++
        [toLflag 1 flC (decide (a < b)), toLflag 1 flV (overflows w (sa - sb))])) ∧
      (s.m.lReady (encReg 1 0 ra rb 0x0E) → GivesL (.ceq .lc ra rb) s [toLflag 1 flZ (decide (a = b))])) ∧
    (lcWidth rd.toNat ≠ 0 → lcWidth ra.toNat ≠ 0 → s.m.lReady (encReg 1 rd ra 0 0x0F) →
      GivesL (.mov .lc rd ra) s [toLreg 1 rd a])

/-- Shifts, immediates and fields of LC: a count is unsigned and never taken modulo the width; immediates are extended and taken modulo the
width, the shift counts of the immediate forms among them (log 51); EXT and INS lie within the width. -/
def Obligations.LcShiftsImmediatesAndFields : Prop :=
  ∀ (s : State) (rd ra rb : BitVec 5) (imm : BitVec 16) (wide : BitVec 21) (pos len1 : BitVec 6),
    let w := lcWidth rd.toNat
    let a := s.m.lReg ra
    let d := s.m.lReg rd
    let p := pos.toNat
    let len := len1.toNat + 1
    let si := (imm.toInt % (2 ^ w : Nat)).toNat
    let ui := imm.toNat % 2 ^ w
    let alu (x : Alu) := toLreg 1 rd x.val :: x.flags.map fun f => toLflag 1 f.1 f.2
    let bits (c : Instr) (v : Nat) := GivesL c s (toLreg 1 rd v :: lflagNZ w 1 v)
    lcSame [rd.toNat, ra.toNat] = true →
      (lcWidth rb.toNat ≠ 0 →
        (s.m.lReady (encReg 1 rd ra rb 0x06) → GivesL (.shl .lc rd ra rb) s (alu (aluShl w a (s.m.lReg rb)))) ∧
        (s.m.lReady (encReg 1 rd ra rb 0x07) → GivesL (.shr .lc rd ra rb) s (alu (aluShr w a (s.m.lReg rb)))) ∧
        (s.m.lReady (encReg 1 rd ra rb 0x08) → GivesL (.sar .lc rd ra rb) s (alu (aluSar w a (s.m.lReg rb))))) ∧
      (s.m.lReady (encImm 0x04 rd ra imm) → GivesL (.addi .lc rd ra imm) s (alu (aluAdd w a si))) ∧
      (s.m.lReady (encImm 0x05 rd ra imm) → bits (.andi .lc rd ra imm) ((a &&& ui) % 2 ^ w)) ∧
      (s.m.lReady (encImm 0x06 rd ra imm) → bits (.ori .lc rd ra imm) ((a ||| ui) % 2 ^ w)) ∧
      (s.m.lReady (encImm 0x07 rd ra imm) → bits (.xori .lc rd ra imm) ((a ^^^ ui) % 2 ^ w)) ∧
      (s.m.lReady (encImm 0x08 rd ra imm) → GivesL (.shli .lc rd ra imm) s (alu (aluShl w a ui))) ∧
      (s.m.lReady (encImm 0x09 rd ra imm) → GivesL (.shri .lc rd ra imm) s (alu (aluShr w a ui))) ∧
      (s.m.lReady (encImm 0x0A rd ra imm) → GivesL (.sari .lc rd ra imm) s (alu (aluSar w a ui))) ∧
      (s.m.lReady (encImm 0x0B 0 rd imm) → GivesL (.cmpi .lc rd imm) s ((aluSub w d si).flags.map fun f => toLflag 1 f.1 f.2)) ∧
      (s.m.lReady (encWide rd wide) → GivesL (.movi .lc rd wide) s [toLreg 1 rd (wide.toInt % (2 ^ w : Nat)).toNat]) ∧
      (p + len ≤ w →
        (s.m.lReady (encField 0x12 rd ra pos len1) → GivesL (.ext .lc rd ra pos len1) s
          [toLreg 1 rd (a / 2 ^ p % 2 ^ len), toLflag 1 flZ (decide (a / 2 ^ p % 2 ^ len = 0))]) ∧
        (s.m.lReady (encField 0x13 rd ra pos len1) → GivesL (.ins .lc rd ra pos len1) s
          [toLreg 1 rd (d - d / 2 ^ p % 2 ^ len * 2 ^ p + a % 2 ^ len * 2 ^ p)]))

/-- LD and ST of LC, its strings, special registers, transfers and system group: bytes little-endian at (ra + simm16) mod 2^16, LADDR where
a byte may not be read or stored, offsets of 4 bytes an instruction, RETI to the saved program counter once its two delay slots have
issued, with the saved FL from there on, WAIT for an interrupt; an interrupt's entry saves both and clears I; what LC lacks is undefined and raises ILLEGAL. -/
def Obligations.LcMemoryControlAndSystem : Prop :=
  ∀ (s : State) (rd ra i : BitVec 5) (imm : BitVec 16) (cond : BitVec 4) (off : BitVec 22) (coff : BitVec 21),
    let m := s.m.lNow
    let l := m.lc
    let at_ := (s.m.lReg ra + imm.toNat) % 65536
    let bytes := if lcWidth rd.toNat = 8 then [at_] else [at_, (at_ + 1) % 65536]
    let jump (c : Instr) (yes : Bool) (target : Int) (ws : List (Nat × PTgt × Nat)) : Prop :=
      (∀ k : Nat, yes = true → target = k → k < 0xC000 → k % 4 = 0 → JumpsL c s (some k) false ws) ∧
      (yes = true → target < 0 ∨ 0xC000 ≤ target ∨ target % 4 ≠ 0 → FaultsL c s 0x08) ∧
      (yes = false → JumpsL c s none false ws)
    (lcWidth rd.toNat ≠ 0 → lcWidth ra.toNat = 16 →
      (s.m.lReady (encImm 0x10 rd ra imm) →
        (bytes.all lcReadable = true → exec (.ld .lc rd ra imm) s =
          .next { s with m := (m.lcBytes bytes).1.lDone [toLreg 3 rd (numLE (m.lcBytes bytes).2)] }) ∧
        (bytes.all lcReadable = false → FaultsL (.ld .lc rd ra imm) s 0x05)) ∧
      (s.m.lReady (encImm 0x11 rd ra imm) →
        (bytes.all lcWritable = true → exec (.st .lc rd ra imm) s =
          .next { s with m := (m.forEach (bytes.zip (bytesLE 2 (s.m.lReg rd))) fun x p => x.lcStore p.1 p.2).lDone [] }) ∧
        (bytes.all lcWritable = false → FaultsL (.st .lc rd ra imm) s 0x05))) ∧
    (l.btc = 0 →
      (cond.toNat ≤ 12 → s.m.lReady (encBranch cond off) →
        jump (.bcond .lc cond off) ((condHolds false l.fl cond.toNat).getD false) (l.pc + 4 * off.toInt) []) ∧
      (lcWidth rd.toNat = 16 → s.m.lReady (encCall rd coff) →
        jump (.call .lc rd coff) true (l.pc + 4 * coff.toInt) [toLreg 1 rd (l.pc + 12)]) ∧
      (lcWidth rd.toNat = 16 → lcWidth ra.toNat = 16 → s.m.lReady (encReg 0x22 rd ra 0 0) →
        jump (.jr .lc rd ra) true (s.m.lReg ra) [toLreg 1 rd (l.pc + 12)]) ∧
      (s.m.lReady (encReg 0x24 0 0 0 4) → JumpsL (.reti .lc) s none true [])) ∧
    (lcWidth rd.toNat = 8 → s.m.lReady (encReg 0x18 rd 0 i 0) →
      (i = 0 → GivesL (.rds .lc rd i) s [toLreg 1 rd l.fl.toNat]) ∧ (i = 1 → GivesL (.rds .lc rd i) s [toLreg 1 rd l.pm]) ∧
      (i ≠ 0 → i ≠ 1 → FaultsL (.rds .lc rd i) s 0x08)) ∧
    (lcWidth ra.toNat = 8 → s.m.lReady (encReg 0x18 0 ra i 1) →
      (i = 0 → GivesL (.wrs .lc i ra) s ((List.range 7).map fun k => toLflag 1 k ((s.m.lReg ra).testBit k))) ∧
      (i = 1 → exec (.wrs .lc i ra) s =
        .next { s with m := (m.lcMod fun x => { x with pm := s.m.lReg ra % 4 }).lDone [] }) ∧
      (i ≠ 0 → i ≠ 1 → FaultsL (.wrs .lc i ra) s 0x08)) ∧
    (s.m.lReady (encReg 0x24 0 0 0 0) → GivesL (.nop .lc) s []) ∧
    (s.m.lReady (encReg 0x24 0 0 0 3) →
      (m.bit ENG_LC_CTL fENG_LC_CTL_BRK_EN = false → GivesL (.brk .lc) s []) ∧
      (m.bit ENG_LC_CTL fENG_LC_CTL_BRK_EN = true → FaultsL (.brk .lc) s 0x0A)) ∧
    (s.m.lReady (encReg 0x16 0 0 0 0) →
      (l.pm = 3 → FaultsL (.wait .lc 0 0 0) s 0x08) ∧
      (l.pm ≠ 3 → exec (.wait .lc 0 0 0) s = .next { s with m := m.lcWait })) ∧
    (∀ p ∈ [(Instr.tagof .lc rd ra, encReg 1 rd ra 0 0x10), (.estat .lc rd i, encReg 0x17 rd 0 i 0), (.clre .lc ra, encReg 0x17 0 ra 0 1),
            (.rdx .lc rd i, encReg 0x18 rd 0 i 2), (.wrx .lc i ra, encReg 0x18 0 ra i 3), (.endTask .lc, encReg 0x24 0 0 0 1),
            (.fretRetry .lc, encReg 0x24 0 0 0 2)], s.m.lReady p.2 → FaultsL p.1 s 0x08) ∧
    (∀ k : Lc, k.pend = [] → k.ending = 1 → k.btc = 2 →
      k.next.pc = k.pc + 4 ∧ k.next.btc = 1 ∧ k.next.fl = k.fl ∧ k.next.next.pc = k.savedPc ∧ k.next.next.fl = k.fl ∧
      k.next.next.btc = 0 ∧ k.next.next.regs = k.regs) ∧
    (∀ k : Lc, k.pend = [] →
      let r : Lc := { k with pend := k.pendOf k.seq (k.writes true []) }
      ({ r with slotNo := k.slotNo + 2 }.landDue).fl = k.fl ∧ ({ r with slotNo := k.slotNo + 3 }.landDue).fl = k.savedFl) ∧
    (∀ (k : Lc) (n back : Nat), (k.enter n back).savedPc = back ∧ (k.enter n back).savedFl = k.fl ∧ (k.enter n back).pc = 16 * n ∧
      (k.enter n back).fl.getLsbD 6 = false ∧ (k.enter n back).regs = k.regs)

/-- The strings and REP of LC, on bytes with ps = p1, pd = p2, nc = p3. -/
def Obligations.LcStringsAndRep : Prop :=
  ∀ (s : State) (ra : BitVec 5) (k : Nat),
    let m := s.m.lNow
    let l := m.lc
    let ps := s.m.lReg 9
    let pd := s.m.lReg 10
    let step (x : Nat) := if l.fl.getLsbD 5 then (x + 65535) % 65536 else (x + 1) % 65536
    let toP (r v : Nat) : Nat × PTgt × Nat := (1, .reg r, v)
    let x := m.lcByte ps
    let y := x.1.lcByte pd
    let w := l.fetch (l.pc + 4)
    (lcWidth ra.toNat = 8 →
      (s.m.lReady (encReg 0x29 0 ra 0 1) →
        (lcWritable pd = true → exec (.fills .lc ra) s =
          .next { s with m := (m.lcStore pd (BitVec.ofNat 8 (s.m.lReg ra))).lDone [toP 10 (step pd)] }) ∧
        (lcWritable pd = false → FaultsL (.fills .lc ra) s 0x05)) ∧
      (s.m.lReady (encReg 0x29 0 ra 0 2) →
        (lcReadable ps = true → exec (.scans .lc ra) s = .next { s with m := x.1.lDone (if x.2.toNat = s.m.lReg ra
          then [toLflag 1 flZ true, toP 11 1] else [toLflag 1 flZ false, toP 9 (step ps)]) }) ∧
        (lcReadable ps = false → FaultsL (.scans .lc ra) s 0x05))) ∧
    (s.m.lReady (encReg 0x29 0 0 0 0) →
      (lcReadable ps = true → lcWritable pd = true → exec (.movs .lc) s =
        .next { s with m := (x.1.lcStore pd x.2).lDone [toP 9 (step ps), toP 10 (step pd)] }) ∧
      (lcReadable ps = false ∨ lcWritable pd = false → FaultsL (.movs .lc) s 0x05)) ∧
    (s.m.lReady (encReg 0x29 0 0 0 3) →
      (lcReadable ps = true → lcReadable pd = true → exec (.cmps .lc) s = .next { s with m := y.1.lDone (if x.2 = y.2
        then [toLflag 1 flZ true, toP 9 (step ps), toP 10 (step pd)] else [toLflag 1 flZ false, toP 11 1]) }) ∧
      (lcReadable ps = false ∨ lcReadable pd = false → FaultsL (.cmps .lc) s 0x05)) ∧
    (s.m.lReady 0xA0000000#32 →
      (l.btc ≠ 0 ∨ repeatable false w = false → FaultsL (.rep .lc k) s 0x08) ∧
      (l.btc = 0 → repeatable false w = true →
        (s.m.lReg 11 = 0 → exec (.rep .lc k) s =
          .next { s with m := (m.lcMod fun z => { z with slotNo := z.slotNo + 2, pc := z.pc + 8 }).lcTake }) ∧
        (s.m.lReg 11 ≠ 0 → exec (.rep .lc k) s =
          .next { s with m := Mach.lcRepLoop w k (m.lcMod fun z => { z with slotNo := z.slotNo + 1 }) })))

/-! ### The block as a whole, registers and the common code (01_architecture.md, 14_memory.md) -/

/-- A step takes the command at the front of the queue and is exec of it on the state with the queue's rest; with no command waiting it is one
2.5 ns step of the clock with the memory requests that are due, the model's choice (log 2). -/
def Obligations.StepRunsFrontCommand : Prop :=
  ∀ (s : State),
    (∀ (c : Instr) (r : List Instr), step { s with pending := c :: r } = exec c { s with pending := r }) ∧
    step { s with pending := [] } = .next { m := (s.m.elapse 1).memServe, pending := [] }

/-- Every command answers a next state in every state and leaves the waiting commands alone: one whose precondition is not met changes
nothing that its rules do not name, the model's choice (log 13). -/
def Obligations.EveryCommandGoesOnAndKeepsTheQueue : Prop :=
  ∀ (c : Instr) (s : State), Does c s fun _ => True

/-- A reset device has its memories in canonical form, no command waiting, every engine and channel empty, and registers at the values the
spec's tables give. -/
def Obligations.ResetHoldsSpecValues : Prop :=
  let m := State.reset.m
  State.reset.pending = [] ∧ m.memOk = true ∧ State.reset.queueOk = true ∧
  (∀ a, m.reg a = regReset a) ∧ (∀ n, m.getTe n = Te.zero) ∧ (∀ ch, m.getChan ch = Chan.zero) ∧
  (∀ b : Fin 24, m.reg (PWRCTL b.val) = 0x00FF0000 ∧ m.reg (PWRSTAT b.val) = 0x40000000 ∧ m.reg (BLKFAULT b.val) = 0 ∧
    m.reg (BLKGEN b.val) = 0) ∧
  m.reg SYS_ID = 0x38A8A101 ∧ m.reg SYS_GSTAT = 0 ∧ m.reg SYS_RPSTAT = 0 ∧ m.reg SYS_RPCLASS = 0x1B

/-- Every step keeps the memories in canonical form: addresses strictly rising and no byte listed that reads as an unlisted one. -/
def Obligations.StepKeepsMemoryCanonical : Prop :=
  ∀ (s t : State), s.m.memOk = true → step s = .next t → t.m.memOk = true

/-- A register write bit by bit (R11, R12): RW bits take the value, RWL bits only before the lock, W1C and W1S bits as they say, RO bits
stay; a change of a locked field, or of an RWS field outside staging, is reported once in BLKFAULT with KIND LOCKED. -/
def Obligations.RegisterBitsFollowAccessCodes : Prop :=
  ∀ (s : State) (a : Nat) (v : W32) (linear : Bool) (r : RegRow),
    let m := s.m
    let old := m.reg a
    let x := m.plainWrite a v
    let rw := (maskOf r.rw).getLsbD
    let rwl := (maskOf r.rwl).getLsbD
    let rws := (maskOf r.rws).getLsbD
    let w1c := (maskOf r.w1c).getLsbD
    let w1s := (maskOf r.w1s).getLsbD
    let hit := m.locked = true ∧ (∃ i, rwl i = true ∧ old.getLsbD i ≠ v.getLsbD i) ∨
      m.staged = false ∧ ∃ i, rws i = true ∧ old.getLsbD i ≠ v.getLsbD i
    let fault := BLKFAULT (a / 0x10000)
    regRow a = some r → a ≠ fault →
      (a % 4 = 0 → a / 0x10000 = blkENG → 0x400 ≤ a % 0x10000 → a % 0x10000 < 0xFF00 →
        (0x1000 ≤ a % 0x10000 → a % 0x10000 < 0x100C → m.lanternOn = true) → exec (.registerWrite a v linear) s = .next { s with m := x }) ∧
      (∀ i,
        (rw i = true → rwl i = false → rws i = false → w1c i = false → w1s i = false → (x.reg a).getLsbD i = v.getLsbD i) ∧
        (rwl i = true → rws i = false → w1c i = false → w1s i = false → rw i = false →
          (x.reg a).getLsbD i = if m.locked then old.getLsbD i else v.getLsbD i) ∧
        (rws i = true → rwl i = false → w1c i = false → w1s i = false → rw i = false →
          (x.reg a).getLsbD i = if m.stagedLive then v.getLsbD i else old.getLsbD i) ∧
        (w1c i = true → rw i = false → rwl i = false → rws i = false → w1s i = false →
          (x.reg a).getLsbD i = (old.getLsbD i && !v.getLsbD i)) ∧
        (w1s i = true → rw i = false → rwl i = false → rws i = false → w1c i = false →
          (x.reg a).getLsbD i = (old.getLsbD i || v.getLsbD i)) ∧
        (rw i = false → rwl i = false → rws i = false → w1c i = false → w1s i = false → (x.reg a).getLsbD i = old.getLsbD i)) ∧
      (∀ b, b ≠ a → b ≠ fault → x.reg b = m.reg b) ∧ x.keepsBut [.regs, .stage] m ∧
      (hit → x.rd fault fBLKFAULT_KIND = 1 ∧ x.rd fault fBLKFAULT_INFO = a % 0x10000 ∧
        x.rd fault fBLKFAULT_COUNT = min 255 (m.rd fault fBLKFAULT_COUNT + 1)) ∧
      (¬ hit → x.reg fault = m.reg fault)

/-- The common code: a word as encoded is clean, any one bad symbol is corrected, a poisoned datum is stored with S0 = 0 and S1 = 0xEE, and
any two bad symbols give a nonzero syndrome. -/
def Obligations.CodeCorrectsOneAndDetectsTwoBadSymbols : Prop :=
  ∀ (d : BitVec 128) (p q : Nat) (e f : Byte), p < 18 → q < 18 → e ≠ 0 → f ≠ 0 →
    codeData (encodeCode d) = d ∧ classify (encodeCode d) = .clean ∧ classifyCheck (encodeCode d) = .clean ∧
    classify (addSym (encodeCode d) p e) = .corrected (encodeCode d) ∧
    codeData (encodePoison d) = d ∧ synd0 (encodePoison d) = 0 ∧ synd1 (encodePoison d) = 0xEE ∧
    classify (encodePoison d) = .storedPoison ∧
    (p ≠ q → synd0 (addSym (addSym (encodeCode d) p e) q f) ≠ 0 ∨ synd1 (addSym (addSym (encodeCode d) p e) q f) ≠ 0)

/-! ### Landing, fault entry, dispatch and events (03_engine_model.md, 05_dispatch_and_queues.md) -/

/-- RESULT_LAND: a result due by the engine's slot stands in its register or flag and is no longer pending, one due later stays pending; of
the writes due to one register or one flag, in whatever order they were issued, the one of the latest slot stands, and in one slot the later
issue (R93, R95). -/
def Obligations.DueResultsLandInOrder : Prop :=
  ∀ (s : State) (n : Fin 16) (p q e : Pend) (before behind : List Pend) (r f : Nat), r ≠ 0 → f < 7 → p.tgt = .reg r → q.tgt = .reg r →
    let t := s.m.getTe n
    let l := s.m.lc
    let lastOf (slot : Nat) (issued : List Pend) := issued = before ++ e :: behind ∧ e.slot ≤ slot ∧
      (∀ o ∈ before, o.tgt = e.tgt → o.slot ≤ slot → o.slot ≤ e.slot) ∧ ∀ o ∈ behind, o.tgt = e.tgt → o.slot ≤ slot → o.slot < e.slot
    let lands (v : TWord) := Does (.resultLand (.te n)) s fun x => x.keepsBut [.te] s.m ∧ (∀ j, j ≠ n.val → x.getTe j = s.m.getTe j) ∧
      x.getTe n = { t with pend := [], ctx := { t.ctx with regs := (x.getTe n).ctx.regs } } ∧
      tabGet 0 (x.getTe n).ctx.regs r = v ∧ ∀ j, j ≠ r → tabGet 0 (x.getTe n).ctx.regs j = tabGet 0 t.ctx.regs j
    (t.st = .run ∨ t.st = .fault → t.ctx.ending = 0 →
      (t.pend = [p] → p.slot ≤ t.slotNo → lands p.val) ∧
      (t.pend = [p] → t.slotNo < p.slot → Does (.resultLand (.te n)) s fun x => x.getTe n = t) ∧
      (t.pend = [p, q] → p.slot ≤ q.slot → q.slot ≤ t.slotNo → lands q.val) ∧
      (t.pend = [p, q] → q.slot < p.slot → p.slot ≤ t.slotNo → lands p.val) ∧
      (t.dzDue = none → lastOf t.slotNo t.pend →
        (e.tgt = .reg r → Does (.resultLand (.te n)) s fun x => tabGet 0 (x.getTe n).ctx.regs r = e.val) ∧
        (e.tgt = .flag f → Does (.resultLand (.te n)) s fun x => (x.getTe n).ctx.fl.getLsbD f = (e.val != 0)))) ∧
    (lastOf l.slotNo l.pend →
      (e.tgt = .reg r → Does (.resultLand .lc) s fun x => tabGet 0 x.lc.regs r = e.val.toNat) ∧
      (e.tgt = .flag f → Does (.resultLand .lc) s fun x => x.lc.fl.getLsbD f = (e.val != 0))) ∧
    (l.pend = [p] → p.slot ≤ l.slotNo →
      Ends (.resultLand .lc) s (s.m.lcMod fun x => { x with pend := [], regs := tabSet 0 x.regs r p.val.toNat }))

/-- FAULT_TASK_START (R99, R130, R133): after landing the fault state is frozen with FFL, the interrupted registers are kept, the engine's
fault registers take the fault, and six slots later the task in slot 63 runs at its ENTRY with t1 = FCODE and t2 = FPC; without a selected
fault task the run is abandoned. -/
def Obligations.FaultEntryFreezesAndStartsSlot63 : Prop :=
  ∀ (s : State) (n : Fin 16),
    let t := s.m.getTe n
    let f := t.frozen
    t.st = .faulting →
      (∀ k, (s.m.getDsp n).faultTask = some k → f.code < 256 → f.fpc < 8192 → Does (.faultTaskStart n) s fun x =>
        let u := x.getTe n
        u.st = .fault ∧ u.saved = t.landAll.ctx ∧ u.frozen = { f with ffl := t.landAll.ctx.fl } ∧
        u.slotNo = max t.slotNo (lastSlot t.pend) + 6 ∧ u.ctx.pc = k.entry ∧ u.ctx.fl = 0 ∧ u.ctx.btc = 0 ∧
        (∀ r, u.ctx.get r = if r = 1 then intWord f.code else if r = 2 then intWord f.fpc else nilWord) ∧
        u.lmem = t.lmem ∧ (∀ j, j ≠ n.val → x.getTe j = s.m.getTe j) ∧
        x.rd (ENG_TEn_FCNT n) fENG_TEn_FCNT_FAULTS = min fENG_TEn_FCNT_FAULTS.top (s.m.rd (ENG_TEn_FCNT n) fENG_TEn_FCNT_FAULTS + 1) ∧
        x.rd (ENG_TEn_FAULT n) fENG_TEn_FAULT_CODE = f.code ∧ x.rd (ENG_TEn_FAULT n) fENG_TEn_FAULT_FPC = f.fpc ∧
        x.reg (ENG_TEn_FINSN n) = BitVec.ofNat 32 f.finsn) ∧
      ((s.m.getDsp n).faultTask = none → Does (.faultTaskStart n) s fun x => (x.getTe n).st = .idle ∧ (x.getTe n).lmem =
        if t.undoFull then t.lmem else (t.undoApply t.undo).lmem)

/-- TASK_DISPATCH and TASK_SKIP: an idle engine runs the ready task of lowest PRIO at its ENTRY with t1 the beat and t2 the TIME of the beat
start, its wait mask's flags cleared; a released task still not ready at the end of its DEADLINE tick is skipped and counted
(R69, R101, R182, R184). -/
def Obligations.DispatchRunsLowestPrioAndSkips : Prop :=
  ∀ (s : State) (n : Fin 16) (slot : BitVec 6) (k : TaskSt),
    let m := s.m
    let d := m.getDsp n
    ((m.getTe n).st = .idle → m.inHold = false → m.actValid = true → d.replay = [] →
      k ∈ d.sel → d.ready k = true → (∀ y ∈ d.sel, d.ready y = true → y ≠ k → k.prio < y.prio) →
      Does (.taskDispatch n) s fun x => x.keepsBut [.te, .dsp] m ∧ (∀ j, j ≠ n.val → x.getTe j = m.getTe j ∧ x.getDsp j = m.getDsp j) ∧
        (x.getTe n).st = .run ∧ (x.getTe n).tslot = k.slot ∧ (x.getTe n).ctx.pc = k.entry ∧
        (∀ r, (x.getTe n).ctx.get r = if r = 1 then intWord m.beat else if r = 2 then mkWord tagTIME m.tim.beatTime else nilWord) ∧
        x.flagsOf n k.slot = m.flagsOf n k.slot &&& ~~~k.wmask ∧ (∀ z, z ≠ k.slot → x.flagsOf n z = m.flagsOf n z) ∧
        (x.getDsp n).sel = d.sel.map fun y => if y.slot = k.slot then { y with ran := true } else y) ∧
    (k ∈ d.sel → k.slot = slot.toNat → k.released = true → k.ran = false → k.slot ≠ 63 → d.ready k = false → k.deadline ≤ m.tim.tick →
      Does (.taskSkip n slot) s fun x => x.keepsBut [.regs, .dsp] m ∧
        (x.getDsp n).sel = d.sel.map (fun y => if y.slot = k.slot then { y with ran := true } else y) ∧
        (x.getDsp n).flags = d.flags ∧ x.rd (DSP_TEn_SKIP n) fDSP_TEn_SKIP_LAST_TSLOT = k.slot ∧
        x.rd (DSP_TEn_SKIP n) fDSP_TEn_SKIP_SKIPPED = min fDSP_TEn_SKIP_SKIPPED.top (m.rd (DSP_TEn_SKIP n) fDSP_TEn_SKIP_SKIPPED + 1))

/-- EVENT_PACKET and HOST_SIG: with room in the event queue the named flag of the named slot is set; a full queue holds the packet and counts
it (R187, R188). WAIT_DEADLINE ends a WAIT whose deadline TB0 has reached, with FL.TO = 1; LC_INTERRUPT enters the source's vector with the
program counter and FL saved and FL.IE clear where LC may take it, and otherwise stays pending (R120, R140, R141). -/
def Obligations.EventsDeadlinesAndInterruptsTakeEffect : Prop :=
  ∀ (s : State) (n : Fin 16) (slot : BitVec 6) (flag : BitVec 5) (v : BitVec 32) (i : Fin 8) (w : WaitRec) (e : BitVec 60),
    let m := s.m
    let d := m.getDsp n
    let l := m.lc
    (d.evq = [] → d.held = [] → Does (.eventPacket n slot flag) s fun x =>
      x.flagsOf n slot.toNat = m.flagsOf n slot.toNat ||| (1#32 <<< flag.toNat) ∧ (∀ z, z ≠ slot.toNat → x.flagsOf n z = m.flagsOf n z) ∧
      (∀ j, j ≠ n.val → x.getDsp j = m.getDsp j ∧ x.getTe j = m.getTe j) ∧ x.keepsBut [.regs, .te, .dsp] m) ∧
    (16 ≤ d.evq.length ∨ d.held ≠ [] → Ends (.eventPacket n slot flag) s
      ((m.setDsp n { d with held := d.held ++ [⟨slot.toNat, flag.toNat, 0⟩] }).count (DSP_TEn_EVQ n) fDSP_TEn_EVQ_HELD)) ∧
    Ends (.hostSig v) s (m.sendEvent (getFld v ⟨9, 6⟩) (getFld v ⟨5, 0⟩) (getFld v ⟨14, 10⟩) 0) ∧
    (let t := m.getTe n
     t.st = .wait → t.wait = some w → w.deadline = some e → ¬ 0 < (e - m.timePayload).toInt → t.ctx.ending = 0 →
      Does (.waitDeadline n) s fun x => x.keepsBut [.te, .dsp] m ∧ (x.getTe n).st = .run ∧ (x.getTe n).wait = none ∧
        (x.getTe n).ctx.fl = t.ctx.fl ||| (1#7 <<< flTO) ∧ (x.getTe n).ctx.pc = (t.ctx.next 1).pc ∧ (x.getTe n).ctx.regs = t.ctx.regs) ∧
    (m.rd SYS_DOMSTAT fSYS_DOMSTAT_LANT_STATE = 1 → 2 ≤ i.val → l.irq = 0 → l.st = 0 → l.pend = [] →
      (l.fl.getLsbD 6 = true → l.btc = 0 → Ends (.lcInterrupt i) s (m.lcMod fun x =>
        { x with savedPc := x.pc, savedFl := x.fl, fl := x.fl &&& ~~~(1#7 <<< 6), pc := 16 * i.val, bt := none, btc := 0, ending := 0 })) ∧
      (l.fl.getLsbD 6 = false ∨ l.btc ≠ 0 → Ends (.lcInterrupt i) s (m.lcMod fun x => { x with irq := 1#8 <<< i.val })))

/-! ### Far completions and queue channels -/

/-- FETCH_COMPLETE and PUT_COMPLETE: a FETCH of class 1, 2, 4 or 5 lands the words read, one of HOST the words that the host returned, one of a channel the
words it delivered; a PUT stores its code words at its target, and one of a unit lands its results; each then takes the access off the list and sets its
flag, with POISON where a word of it was poisoned, and REFUSED with no other effect where the address does not lie within its space, where the host did
not answer, or where the unit does not list the operation (R113, R116, R118, R119, R480, R765, R767, R772; log 67). -/
def Obligations.FarAccessesComplete : Prop :=
  ∀ (s : State) (n : Fin 16) (id : Nat) (host : Option (List Byte)) (ok : Bool) (a : Acc),
    let m := s.m
    let t := m.getTe n
    let far := a.far
    let ends (c : Instr) (st : Nat) (lm : List Host.Cell) (y : Mach) := Does c s fun x => (x.getTe n).acc id = none ∧ (x.getTe n).lmem = lm ∧
      (x.getDsp n).flags = tabSet 0 (m.getDsp n).flags a.tslot (m.flagsOf n a.tslot ||| (1#32 <<< a.flag)) ∧
      x.statOf n a.tslot a.flag = st ∧ (∀ j, j ≠ n.val → x.getTe j = m.getTe j ∧ x.getDsp j = m.getDsp j) ∧ x.keepsBut [.te, .dsp] y
    let landed (ws : List TWord) := (Te.landPairs m.actBank a a.loc ws t).lmem
    let poison (ws : List TWord) : Nat := if ws.any fun w => wTag w == tagPOISON then 2 else 0
    let words (l : List Read) : List TWord := if a.tagMode then (l.map Read.tagged).flatten else (l.map Read.raw32).flatten
    let read := m.farReads far a.len
    let host16 (l : List Byte) : List Read := (datums a.len (slice 0 l 0 (16 * a.len))).map fun d => ⟨encodeCode d, none⟩
    let codes := if a.tagMode then tagCodes (a.src.length + 1) a.src else rawCodes (a.src.length + 1) a.src
    let put := if a.tagMode then 0 else poison a.src
    let fits := m.farFits far a.len = true
    let unit := ptrAddr far / 256 % 256
    let listed := ptrClass far = 7 ∧ unitListed unit (ptrAddr far % 256) = true
    t.acc id = some a → t.inOrder a = true → a.detached = false → a.flag < 32 → t.st = .run → t.ctx.ending = 0 →
    tabGet 0 (m.getDsp n).late a.tslot = 0 →
      (a.put = false →
        (ptrClass far ∈ [1, 2, 4, 5] → fits →
          ends (.fetchComplete n id host) (poison (words read.2)) (landed (words read.2)) read.1) ∧
        (∀ l, ptrClass far = 3 → host = some l →
          ends (.fetchComplete n id host) (poison (words (host16 l))) (landed (words (host16 l))) m) ∧
        (ptrClass far = 6 → a.done = true → ends (.fetchComplete n id host) a.status (landed (a.res.map fun p => p.2)) m) ∧
        (ptrClass far ∈ [1, 2, 4, 5] → ¬ fits → ends (.fetchComplete n id host) 4 t.lmem m) ∧
        (ptrClass far = 3 → host = none → ends (.fetchComplete n id host) 4 t.lmem m)) ∧
      (a.put = true →
        (ptrClass far = 1 → fits → ends (.putComplete n id ok) put t.lmem (m.memMod fun x =>
          { x with sram := (codes.foldl (fun p w => (p.1 + 1, storeSet p.2 p.1 w)) (ptrAddr far / 16, x.sram)).2 })) ∧
        (ptrClass far = 2 → fits → ends (.putComplete n id ok) put t.lmem (m.dramWrites (ptrAddr far) codes)) ∧
        (ptrClass far = 3 → ok = true → ends (.putComplete n id ok) put t.lmem (m.hostPut (ptrAddr far) codes)) ∧
        (ptrClass far = 5 → fits → ends (.putComplete n id ok) put t.lmem
          (m.dramWrites (m.reg64 ENG_TAGBASE_LO ENG_TAGBASE_HI + ptrAddr far) codes)) ∧
        (6 ≤ ptrClass far → a.done = true → ends (.putComplete n id ok) (a.metPoison a.status)
          ((m.lmPlace n false a.res).getTe n).lmem m) ∧
        (ptrClass far ∈ [1, 2, 5] → ¬ fits → ends (.putComplete n id ok) 4 t.lmem m) ∧
        (ptrClass far = 3 → ok = false → ends (.putComplete n id ok) 4 t.lmem m) ∧
        (ptrClass far = 7 → ¬ listed → a.done = false → m.openAcc n id = some a → unit / 16 ≠ 6 →
          ends (.putComplete n id ok) (a.metPoison 4) t.lmem m))

/-- QITEM_RECEIVE and the FETCHes of a channel: an item with room is stored behind the words stored, with its side fields; one from a port that
is not the producer is refused and reported; a FETCH lands the words of the first visible item, its length filled with NIL, and one
of kind HEADED lands the header word first; with no visible item it stays outstanding, and at a wrong end it is refused (R192 to R202). -/
def Obligations.ChannelsReceiveAndDeliverItems : Prop :=
  ∀ (s : State) (n : Fin 16) (id src : Nat) (ch : Fin 256) (arg : BitVec 16) (l : List Code) (a : Acc) (it : List QWord)
    (more : List (List QWord)),
    let m := s.m
    let c := m.getChan ch
    let last := (arg.extractLsb' 9 5).toNat
    let words (it : List QWord) : List TWord := (it.map fun w => Read.raw32 ⟨w.code, none⟩).flatten
    let clean (it : List QWord) : Prop := ∀ w ∈ it, classifyCheck w.code = .clean ∧ sideOnes w.side w.par % 2 = 0
    let served (x : Mach) (st : Nat) (ws : List TWord) : Prop :=
      (x.getTe n).acc id = some { a with done := true, status := st, res := ws.map fun w => (0, w) }
    (m.chOn ch = true → src = m.chProd ch → portServes src = true → 1 ≤ last → last ≤ 16 → c.waiting = [] → c.voiding = false →
      c.dropping = false → c.stored + l.length ≤ m.chCap ch → Does (.qitemReceive src ch arg l) s fun x =>
        (x.getChan ch).q = c.q ++ sideWords (arg.getLsbD 15) (arg.getLsbD 14) last (arg.extractLsb' 1 8).toNat true 0 true l ∧
        (x.getChan ch).waiting = [] ∧ (∀ j, j ≠ ch.val → x.getChan j = m.getChan j) ∧ x.keepsBut [.regs, .chans, .dsp, .te] m) ∧
    (m.chOn ch = false ∨ src ≠ m.chProd ch ∨ last = 0 ∨ 16 < last →
      Ends (.qitemReceive src ch arg l) s ((m.setChan ch { c with refused := some src }).report blkFQ kRefused ch)) ∧
    (m.qchAcc n id false 0 = some a → ptrAddr a.far % 256 = ch.val →
      (m.chRefuses n ch false = true → Ends (.qchFetchData n id) s (m.serve n id 4 [])) ∧
      (m.chRefuses n ch false = false → c.visible = [] → Ends (.qchFetchData n id) s m) ∧
      (m.chRefuses n ch false = false → c.visible = it :: more → clean (it.take a.len) → Does (.qchFetchData n id) s fun x =>
        served x 0 (nilFill (4 * a.len) (words (it.take a.len))))) ∧
    (m.qchAcc n id false 1 = some a → ptrAddr a.far % 256 = ch.val →
      (m.chRefuses n ch false = true → Ends (.qchFetchHeaded n id) s (m.serve n id 4 [])) ∧
      (m.chRefuses n ch false = false → c.visible = it :: more → 2 ≤ a.len → clean (it.take (a.len - 1)) →
        Does (.qchFetchHeaded n id) s fun x =>
          served x 0 (nilFill (4 * a.len) (headedWord (it.take (a.len - 1)) it (it.length - (it.take (a.len - 1)).length) ++
            words (it.take (a.len - 1))))))

/-- QCH_PUT_DATA, FLUSH, DROP_REM and CHANNEL_ENABLE: a PUT of kind DATA brings its item into the channel behind what is stored, one at a wrong end is refused
and reported, and one whose end word the channel has taken is served, FLUSHED where a flush voided it; FLUSH empties a channel of final words and voids
an item under way; DROP_REM drops the rest of a packet that was begun and counts; an engine's PUT of kind CTRL does either or both; a
channel with a bad store range keeps ENABLE clear and is reported, the write being staged like every RWS field (R194, R200 to R206, R210, R211). -/
def Obligations.ChannelCommandsActOnTheirChannel : Prop :=
  ∀ (s : State) (n : Fin 16) (id : Nat) (ch : Fin 256) (v : BitVec 32) (a : Acc) (pre post : List QWord) (w : QWord),
    let m := s.m
    let c := m.getChan ch
    let cfg := putFld v fFQ_CHn_CFG_ENABLE 1
    let old := m.plainRead (FQ_CHn_CFG ch)
    let set := if 248 ≤ ch.val then putFld (if 252 ≤ ch.val then putFld cfg fFQ_CHn_CFG_PROD (getFld old fFQ_CHn_CFG_PROD)
        else putFld cfg fFQ_CHn_CFG_CONS (getFld old fFQ_CHn_CFG_CONS)) fFQ_CHn_CFG_CT_ITEMS (getFld old fFQ_CHn_CFG_CT_ITEMS) else cfg
    let refuses := m.staged = true ∧ getFld old fFQ_CHn_CFG_ENABLE = 0 ∧ m.chRangeBad ch = true
    let ad := ptrAddr a.far
    let last := if ad / 4096 % 32 = 0 then 16 else ad / 4096 % 32
    let item := sideWords (ad / 1024 % 2 == 1) (ad / 2048 % 2 == 1) last (ad / 131072 % 256) true (m.accRun n a) true
      (rawCodes (a.src.length + 1) a.src)
    let sent (x : Mach) := x.teMod n fun t => t.accMod id fun b => { b with src := [], status := wordsStat a.src }
    (m.qchAcc n id true 0 = some a → ad % 256 = ch.val →
      (m.chRefuses n ch true = true → Ends (.qchPutData n id false) s ((m.chRefuse n ch).serve n id 4 [])) ∧
      (m.chRefuses n ch true = false → a.src ≠ [] →
        Ends (.qchPutData n id false) s (sent (m.chReceive ch item)) ∧
        (c.waiting = [] → c.voiding = false → c.dropping = false → c.stored + item.length ≤ m.chCap ch →
          Does (.qchPutData n id false) s fun x => (x.getChan ch).q = c.q ++ item ∧ (x.getChan ch).waiting = [] ∧
            (∀ j, j ≠ ch.val → x.getChan j = m.getChan j) ∧ x.keepsBut [.regs, .chans, .dsp, .te] m)) ∧
      (a.src = [] → c.waiting = [] → Ends (.qchPutData n id true) s (m.serve n id (a.status + if c.lastFlushed then 8 else 0) []))) ∧
    (c.waiting = [] → (∀ w ∈ c.q, w.prov = 0) → 16 ≤ m.chCons ch → Does (.flush (.inl ch.val)) s fun x =>
      (x.getChan ch).q = [] ∧ (x.getChan ch).voiding = (c.writing || c.voiding) ∧
      (x.getChan ch).started = (c.started && !(wholeItems c.q.length c.q).flatten.any QWord.pe) ∧
      (∀ j, j ≠ ch.val → x.getChan j = m.getChan j) ∧ x.keepsBut [.regs, .chans, .dsp, .te] m) ∧
    (c.started = false → Ends (.dropRem (.inl ch.val)) s (m.count (FQ_CHn_CNT ch) fFQ_CHn_CNT_DROPS)) ∧
    (c.started = true → c.waiting = [] → c.q = pre ++ w :: post → (∀ y ∈ pre, y.pe = false ∧ y.ps = false) → w.pe = true →
      Does (.dropRem (.inl ch.val)) s fun x => (x.getChan ch).q = post ∧ (x.getChan ch).started = false ∧ (x.getChan ch).dropping = false ∧
        (∀ j, j ≠ ch.val → x.getChan j = m.getChan j)) ∧
    (m.ctrlAcc n id = some a → ad % 256 = ch.val → m.chOn ch = true → m.chProd ch = n.val ∨ m.chCons ch = n.val →
      wTag (a.src.getD 0 0) ≠ tagPOISON →
      (payN (a.src.getD 0 0) % 4 = 1 → Ends (.flush (.inr (n, id))) s ((m.chFlush ch).serve n id 0 [])) ∧
      (payN (a.src.getD 0 0) % 4 = 2 → Ends (.dropRem (.inr (n, id))) s ((m.chDrop ch).serve n id 0 [])) ∧
      (payN (a.src.getD 0 0) % 4 = 3 → Ends (.flush (.inr (n, id))) s (((m.chFlush ch).chDrop ch).serve n id 0 []))) ∧
    (¬ refuses → Ends (.channelEnable ch v) s (m.plainWrite (FQ_CHn_CFG ch) set)) ∧
    (refuses → Ends (.channelEnable ch v) s
      ((m.plainWrite (FQ_CHn_CFG ch) (putFld set fFQ_CHn_CFG_ENABLE 0)).report blkFQ kRefused ch))

/-! ### The ridge, beats and the armature (01_architecture.md, 02_armature_contract.md) -/

/-- BRIDGE_ACCESS, RIDGE_HEADER_ROUTE, PACKET_ARRIVE and BEAT_COUNTER_READ: a bridge access with the lantern Off reads 0 or is discarded and
sets BRIDGE_ERR, one with it powered is the register access; a header goes along the row, then along the column, then to its port, forwarded as it came and
waiting for an output that sends; a reserved or uncorrectable one is diverted and counted; of a flow's packets the first sent arrives first, and a gap in SEQ
is reported; a read of ARM_BEAT_LO latches ARM_BEAT_HI (R19 to R22, R24, R28 to R30, R90; what a corrected header gives is the model's choice, logs 68
and 69). -/
def Obligations.RidgeRoutesAndReports : Prop :=
  ∀ (s : State) (write : Bool) (off node blk : Nat) (v : BitVec 32) (w u : BitVec 144) (p : Nat) (q : RpPkt),
    let m := s.m
    let lantern := m.rd SYS_DOMSTAT fSYS_DOMSTAT_LANT_STATE
    let d := hdrDnode u
    let clean := (classify w = .clean ∧ u = w) ∨ classify w = .corrected u
    let bad := 24 ≤ d ∨ hdrDport u = 3 ∨ 9 ≤ hdrOp u
    let hop := hdrHop node u
    let here := m.sys.flight.filter fun x => x.node == node && x.out == hop
    let packet (going : Bool) : RpPkt := ⟨m.sys.entered, w, node, hop, hdrInput node u, hdrClass u, hdrSource u, hdrDest u, going⟩
    let seen (x : Mach) (h : Code) := x.sysMod fun y =>
      { y with seqs := tabSet none y.seqs (seqKey h) (some (hdrSeq h)), arrived := hdrOperation h }
    let arrives (x : Mach) (h : Code) :=
      (tabGet none m.sys.seqs (seqKey h) = none → Ends (.packetArrive blk w) s (seen x h)) ∧
      (tabGet none m.sys.seqs (seqKey h) = some p →
        (hdrSeq h = (p + 1) % 4096 → Ends (.packetArrive blk w) s (seen x h)) ∧
        (hdrSeq h ≠ (p + 1) % 4096 → Ends (.packetArrive blk w) s
          ((seen x h).report blk kSeqGap (hdrClass h * 128 + hdrSnode h * 4 + hdrSport h))))
    (lantern = 0 → Ends (.bridgeAccess write off v) s
      ((m.wr SYS_DOMSTAT fSYS_DOMSTAT_BRIDGE_ERR 1).setAnswer (if write then m.answer else 0))) ∧
    (lantern ≠ 0 → write = false → off < 0x1000 → off ≠ 0x200 → Ends (.bridgeAccess write off v) s
      (m.setAnswer (m.regView (0x10000 * blkMSH + off)))) ∧
    (lantern ≠ 0 → write = true → 0x100 ≤ off → off < 0x200 → Ends (.bridgeAccess write off v) s
      (m.plainWrite (0x10000 * blkMSH + off) v)) ∧
    (d < 24 → hdrDport u < 3 →
      (node % 6 < d % 6 → hop = .row (node + 1)) ∧ (d % 6 < node % 6 → hop = .row (node - 1)) ∧
      (d % 6 = node % 6 → node / 6 < d / 6 → hop = .col (node + 6)) ∧ (d % 6 = node % 6 → d / 6 < node / 6 → hop = .col (node - 6)) ∧
      (d % 6 = node % 6 → d / 6 = node / 6 → hop = .port (hdrDport u))) ∧
    (clean → ¬ bad → m.rpComing node w = none →
      (here = [] → hdrClass u ∈ m.rpOrder → Does (.ridgeHeaderRoute node w) s fun x => x.sys.hop = hop ∧ x.sys.fwd = w ∧
        x.sys.flight.filter (fun z => z.node == node && z.out == hop) = [packet true] ∧ x.sys.entered = m.sys.entered + 1 ∧ x.keepsBut [.sys] m) ∧
      ((∃ z ∈ here, z.going = true) → Does (.ridgeHeaderRoute node w) s fun x => x.sys.flight = m.sys.flight ++ [packet false] ∧
        x.sys.hop = m.sys.hop ∧ x.sys.fwd = m.sys.fwd ∧ x.keepsBut [.sys] m)) ∧
    (clean → ¬ bad → m.rpComing node w = some q → Ends (.ridgeHeaderRoute node w) s ((m.rpLeave q).rpEnter node q.id u w)) ∧
    (clean → bad → m.rpComing node w = none → Ends (.ridgeHeaderRoute node w) s (m.divert w)) ∧
    (classify w = .uncorrectable ∨ classify w = .storedPoison → m.rpComing node w = none → Ends (.ridgeHeaderRoute node w) s (m.divert w)) ∧
    (16 ≤ Config.rpPort (hdrSource w) ∨ (m.getTe (Config.rpPort (hdrSource w))).inFault = false →
      (m.divert w).sys.hop = .divert ∧ (m.divert w).sys.fwd = w ∧
      (m.divert w).rd SYS_RPSTAT fSYS_RPSTAT_DIVERTED = min 0xFFFF (m.rd SYS_RPSTAT fSYS_RPSTAT_DIVERTED + 1) ∧
      (m.divert w).rd SYS_RPSTAT fSYS_RPSTAT_LAST_SNODE = hdrSnode w ∧ (m.divert w).keepsBut [.regs, .sys, .hif, .mem, .flt, .chn, .te] m) ∧
    (clean → oldestOf (hdrSource u) (hdrClass u) (hdrDest u) m.sys.flight = none → arrives m u) ∧
    (clean → oldestOf (hdrSource u) (hdrClass u) (hdrDest u) m.sys.flight = some q → classify q.hdr = .clean → arrives (m.rpLeave q) q.hdr) ∧
    (classify w = .uncorrectable ∨ classify w = .storedPoison → Ends (.packetArrive blk w) s m) ∧
    Ends .beatCounterRead s ((m.setReg ARM_BEAT_HI (BitVec.ofNat 32 (m.beat / 2 ^ 32))).setAnswer (BitVec.ofNat 32 m.beat))

/-- BEAT_START and TICK_EVENT: with RUN clear nothing happens; a beat start checks the overrun of the beat that ends, begins beat n at
n beat periods of TB0 with tick 0, then checks the margin, swaps, journals, runs the commands that waited for it, selects tasks and serves the blocks, in the model's one order; a tick of the
sixteen releases what its delay list names (R34, R78 to R83, R180, R181, R558, R586, R596; the order is the model's, log 45 names the first beat). -/
def Obligations.BeatAndTickStartsDoTheirWork : Prop :=
  ∀ (s : State) (codes : List (BitVec 8)) (late : List Nat) (table : List Byte) (host : List (List Byte × List Byte)) (d : DspTe) (k : Nat),
    let m := s.m
    let n := m.nextBeat
    let o := ((m.progressBeat.msixBeat).reach (n * m.beatNs)).overrunBeat m.beat late
    let b := ((o.1.beatBegin n).beatForget).marginCheck codes
    let j := (b.beatSwap o.2 host).journal 0x01 portFLT 0 0 (b.beatSwap o.2 host).bidx
      [encodeCode (datumOf (bytesLE 8 ((b.beatSwap o.2 host).reg64 ARM_ACTID_LO ARM_ACTID_HI)))]
    let t := m.tim.tick + 1
    let e := (m.reach (m.beat * m.beatNs + t * m.beatNs / 16)).timMod fun x => { x with tick := t }
    (m.rd ARM_PLINTH fARM_PLINTH_RUN = 0 → Ends (.beatStart codes late table host) s m ∧ Ends .tickEvent s m) ∧
    (m.rd ARM_PLINTH fARM_PLINTH_RUN = 1 →
      Ends (.beatStart codes late table host) s
        (((((((j.hifPump.taskSelect).beatAir).frameStart).beatWire).doorbellStart table).chnBeat).restartBeat) ∧
      b.tim.beat = BitVec.ofNat 48 n ∧ b.tim.tick = 0 ∧ b.tim.started = true ∧ b.arm.revoke = none ∧ b.nvm.keyOnce = false ∧
      (m.tim.started = true → n = m.beat + 1) ∧
      (m.tim.started = false ∨ 16 ≤ t → Ends .tickEvent s m) ∧
      (m.tim.started = true → t < 16 → Ends .tickEvent s
        ((if e.inHold then e else e.forEach (List.range 16) fun x n => x.dspMod n fun d => d.release t).tickAccrue))) ∧
    (∀ x, x ∈ (d.release k).delay ↔ x ∈ d.delay ∧ k < x.1) ∧
    (∀ x ∈ d.sel, x.release ≤ k → x.slot ≠ 63 → (∃ r, (r, x.slot) ∈ d.delay) → { x with released := true } ∈ (d.release k).sel)

/-- PLINTH_WRITE, LOAD_GO, KEY_REVOKE, MARGIN_MINCLR, SWAP_ARM, SWAP_CANCEL, PROFILE_GO and VR_ENABLE: a changed PERIOD is ignored while an
armature runs; a refused load, arming or profile change says why in its status and takes no effect; an arming names the frame; the key
of the last valid slot stays; AUTO holds the armature registers (R47, R61, R63, R71, R73, R85 to R87, R91, R721, R763; a write of the other key slot, an arming while
armed and the number in a refusal are the model's choices, logs 64, 70 and 71). -/
def Obligations.ArmatureCommandsActOrSayWhyNot : Prop :=
  ∀ (s : State) (v : BitVec 32) (k : BitVec 1) (linear : Bool),
    let m := s.m
    let act := m.rd ARM_STAT fARM_STAT_ACT_PROFILE
    let per := getFld v fARM_PLINTH_PERIOD
    let ld := m.setReg ARM_LDCTL (mergeMask (m.reg ARM_LDCTL) (putFld v fARM_LDCTL_GO 1) 0x40000373)
    let src := ld.rd ARM_LDCTL fARM_LDCTL_SRC
    let slot := ld.rd ARM_LDCTL fARM_LDCTL_NVM_SLOT
    let dest := ld.rd ARM_LDCTL fARM_LDCTL_DEST
    let target := getFld v fARM_PROFCTL_TARGET
    let pm := m.wr ARM_PROFCTL fARM_PROFCTL_TARGET target
    let prof (code : Nat) := Ends (.profileGo v) s (pm.wr ARM_PROFCTL fARM_PROFCTL_STATUS code)
    let new := if target < act then 1 else 3
    let chg := { m.arm with change := new, target := target, confirmed := false, settle := false, lateChg := false }
    let wrote := m.plainWrite ARM_VRCTL (putFld v fARM_VRCTL_ENABLE 1)
    let vr := if getFld v fARM_VRCTL_MODE = 0 then wrote.wr ARM_VRSTAT fARM_VRSTAT_VOUT_MV 0 else wrote
    (m.autoHolds = true → Ends (.plinthWrite v) s (m.ignored ARM_PLINTH) ∧ Ends (.loadGo v) s (m.ignored ARM_LDCTL) ∧
      Ends .swapArm s (m.ignored ARM_SWAPCTL) ∧ Ends .swapCancel s (m.ignored ARM_SWAPCTL) ∧
      Ends (.profileGo v) s (m.ignored ARM_PROFCTL)) ∧
    (m.autoHolds = false →
      Does (.plinthWrite v) s (fun x => x.rd ARM_PLINTH fARM_PLINTH_RUN = getFld v fARM_PLINTH_RUN ∧
        x.rd ARM_PLINTH fARM_PLINTH_PERIOD = (if m.actValid then m.rd ARM_PLINTH fARM_PLINTH_PERIOD else per) ∧
        x.tim.started = (m.tim.started && getFld v fARM_PLINTH_RUN != 0 && (m.actValid || per == m.rd ARM_PLINTH fARM_PLINTH_PERIOD)) ∧
        x.keepsBut [.regs, .tim] m) ∧
      (∀ c, ld.loadBar src slot dest = some c → c ≠ 2 ∨ dest ≠ 0 → Ends (.loadGo v) s (ld.ldStat 0 c 0)) ∧
      (ld.loadBar src slot dest = some 2 → dest = 0 → Ends (.loadGo v) s ((ld.ldStat 0 2 0).setShd 3)) ∧
      (ld.loadBar src slot dest = none → dest = 0 → Does (.loadGo v) s fun x => x.arm = { m.arm with load := some (0, slot, src) } ∧
        x.shdState = 1 ∧ x.rd ARM_LDSTAT fARM_LDSTAT_STAGE = 1 ∧ x.rd ARM_LDSTAT fARM_LDSTAT_CODE = 0 ∧ x.keepsBut [.regs, .arm] m) ∧
      (m.arm.armed = false →
        Ends .swapCancel s m ∧
        (m.armBar = true → Ends .swapArm s (m.wr ARM_SWAPCTL fARM_SWAPCTL_STATUS 5)) ∧
        (m.armBar = false → m.shd.profile ≠ act → Ends .swapArm s (m.wr ARM_SWAPCTL fARM_SWAPCTL_STATUS 6)) ∧
        (m.armBar = false → m.shd.profile = act → m.swapNamed < m.frame + 2 → Ends .swapArm s (m.wr ARM_SWAPCTL fARM_SWAPCTL_STATUS 4)) ∧
        (m.armBar = false → m.shd.profile = act → m.frame + 2 ≤ m.swapNamed → Does .swapArm s fun x =>
          x.arm = { m.arm with armed := true, swapFrame := m.swapNamed } ∧ x.shdState = 5)) ∧
      (m.arm.armed = true → Ends .swapArm s m) ∧
      (m.arm.armed = true → m.arm.change = 0 → Does .swapCancel s fun x => x.arm = { m.arm with armed := false } ∧
        x.shdState = m.shd.mark ∧ x.rd ARM_SWAPCTL fARM_SWAPCTL_STATUS = 7 ∧ x.keepsBut [.regs, .arm] m) ∧
      (m.arm.change ≠ 0 → prof 7) ∧
      (m.arm.change = 0 → target = act → Ends (.profileGo v) s pm.swapArm) ∧
      (m.arm.change = 0 → target ≠ act →
        (m.shd.profile ≠ target → prof 8) ∧
        (m.shd.profile = target → m.framePast = true → prof 10) ∧
        (m.shd.profile = target → m.framePast = false → caseLimit target < m.caseEst → prof 9) ∧
        (m.shd.profile = target → m.framePast = false → m.caseEst ≤ caseLimit target → m.armBar = true ∨ m.arm.armed = true → prof 14) ∧
        (m.shd.profile = target → m.framePast = false → m.caseEst ≤ caseLimit target → m.armBar = false → m.arm.armed = false →
          Does (.profileGo v) s fun x => x.arm = { chg with armed := true, swapFrame := m.swapNamed } ∧ x.shdState = 5 ∧
            x.rd ARM_PROFCTL fARM_PROFCTL_STATUS = (if target < act then 1 else 2)))) ∧
    (m.arm.revoke ≠ some k.toNat →
      (m.keyValid k.toNat = true → m.keyValid (1 - k.toNat) = false →
        Ends (.keyRevoke k) s ((m.armMod fun a => { a with revoke := none }).refused ARM_KEYREVOKE k.toNat)) ∧
      (m.keyValid k.toNat = false ∨ m.keyValid (1 - k.toNat) = true →
        Ends (.keyRevoke k) s ((m.armMod fun a => { a with revoke := none }).wr ARM_KEYSTAT (keyRev k.toNat) 1))) ∧
    Does (.marginMinclr v) s (fun x => x.reg ARM_MMSTAT = 255 ∧ x.keepsBut [.regs, .stage] m ∧ ∀ j : Fin 24,
      x.rd (ARM_MMn j) fARM_MMn_MIN = 255 ∧ x.rd (ARM_MMn j) fARM_MMn_NOW = m.rd (ARM_MMn j) fARM_MMn_NOW) ∧
    (m.bit ARM_VRCTL fARM_VRCTL_ENABLE = true → Ends (.vrEnable v linear) s vr) ∧
    (m.bit ARM_VRCTL fARM_VRCTL_ENABLE = false →
      (getFld v fARM_VRCTL_MODE = 1 → linear = false → Ends (.vrEnable v linear) s
        ((vr.armMod fun a => { a with undriven := true }).wr ARM_PROFCTL fARM_PROFCTL_STATUS 13)) ∧
      (getFld v fARM_VRCTL_MODE = 0 ∨ linear = true → vr.drives = true → act ≤ 3 → Ends (.vrEnable v linear) s
        ((vr.wr ARM_VRSTAT fARM_VRSTAT_VID_OUT ([0xA0, 0x78, 0x64, 0x50].getD act 0)).wr ARM_VRSTAT fARM_VRSTAT_PGOOD 0)))

/-- LOAD_DONE, FALLBACK_RELOAD, FALLBACK_LOAD_DONE, FALLBACK_START, PMBUS_POLL, VR_GOOD, VR_SETTLE_END and VR_TIMEOUT: an image that fails a
stage leaves its stage, code and index and the shadow bank BAD; the fallback starts for the cause noted; a regulator counts as good within 1 % of its
code, or when VR_PGOOD says so in VID mode (log 72); a settled voltage is confirmed, and a late one ends the change unless the regulator was good first (R63, R76, R77,
R82, R86 to R88, R91; a disarmed swap's status is the model's, log 70). -/
def Obligations.LoadsFallbackAndRegulatorProceed : Prop :=
  ∀ (s : State) (host : List Byte) (status : BitVec 16) (mv src slot dest : Nat) (good : Bool),
    let m := s.m
    let a := m.arm
    let len := m.loadLen
    let img := if src = 1 then m.nvLoad slot else (m, slice 0 host 0 len)
    let ld := (img.1.armMod fun a => { a with load := none }).wr ARM_LDCTL fARM_LDCTL_GO 0
    let check := ld.loadCheck img.2 len (dest == 2 || (src == 1 && decide (4 ≤ slot))) (dest == 2) fun _ => true
    let fb := (m.nvLoad 4).1.armMod fun a => { a with fbLoad := false }
    let fbCheck := fb.loadCheck (m.nvLoad 4).2 (m.nvSlot 4).len true false fun k => k == 1 || k == 2 || k == 4 || k == 5
    let ok := !status.getLsbD 11 && decide (99 * vidMv m.driven ≤ 100 * mv) && decide (100 * mv ≤ 101 * vidMv m.driven)
    let vid := m.bit ARM_VRCTL fARM_VRCTL_MODE = false
    let gm := m.wr ARM_VRSTAT fARM_VRSTAT_PGOOD 1
    (m.sys.auto ≠ 2 → a.load = none → Ends (.loadDone host) s m) ∧
    (m.sys.auto ≠ 2 → a.load = some (dest, slot, src) →
      (∀ st code ix, check = some (st, code, ix) → Ends (.loadDone host) s
        (if dest = 0 then (ld.ldStat st code ix).setShd 3 else ld.ldStat st code ix)) ∧
      (check = none → dest ≤ 1 → Ends (.loadDone host) s
        ((if dest = 0 then ld.shdPlace img.2 else ld.nvStore slot img.2).ldStat 7 0 0))) ∧
    (m.shdEmpty = true → a.fbLoad = false → a.load = none → 0 < (m.nvSlot 4).len → m.bit SYS_BOOTSTAT fSYS_BOOTSTAT_FB_BAD = false →
      Ends .fallbackReload s ((m.armMod fun a => { a with fbLoad := true }).wr ARM_STAT fARM_STAT_SHADOW_STATE 1)) ∧
    (m.shdEmpty = false ∨ a.fbLoad = true ∨ (m.nvSlot 4).len = 0 → Ends .fallbackReload s m) ∧
    (a.fbLoad = false → Ends .fallbackLoadDone s m) ∧
    (a.fbLoad = true → (fbCheck ≠ none → Ends .fallbackLoadDone s (fb.setShd 3)) ∧
      (fbCheck = none → Ends .fallbackLoadDone s ((fb.shdPlace (m.nvLoad 4).2).setShd 4))) ∧
    (a.fbCause = 0 → Ends .fallbackStart s m) ∧
    (a.fbCause ≠ 0 → a.armed = false → a.change = 0 → m.shdState = 4 → m.rd ARM_STAT fARM_STAT_ACT_PROFILE ≠ 3 →
      Ends .fallbackStart s ((m.event 0x0102 0 [(1, a.fbCause - 1)]).armMod fun a => { a with fbCause := 0, lowering := false, fbSwap := true })) ∧
    (m.drives = true → m.bit ARM_VRCTL fARM_VRCTL_MODE = true → Ends (.pmbusPoll status mv) s
      ((m.wr ARM_VRSTAT fARM_VRSTAT_VOUT_MV mv).wr ARM_VRSTAT fARM_VRSTAT_PGOOD (if ok then 1 else 0))) ∧
    (m.drives = true → vid → Ends (.pmbusPoll status mv) s (m.wr ARM_VRSTAT fARM_VRSTAT_PGOOD (if status.getLsbD 11 then 0 else 1))) ∧
    (m.drives = false → Ends (.pmbusPoll status mv) s m) ∧
    (vid → m.drives = true → a.change = 1 → a.confirmed = false → Ends .vrGood s (gm.armMod fun a => { a with settle := true })) ∧
    (vid → a.change = 0 ∨ a.confirmed = true → Ends .vrGood s gm) ∧
    (a.settle = false → Ends .vrSettleEnd s m) ∧
    (a.settle = true → a.change = 1 → m.rd ARM_PROFCTL fARM_PROFCTL_STATUS = 1 → Ends .vrSettleEnd s
      ((m.armMod fun a => { a with settle := false, confirmed := true }).wr ARM_PROFCTL fARM_PROFCTL_STATUS 2)) ∧
    (a.change = 1 → a.confirmed = false → a.settle = true → Ends (.vrTimeout good) s m) ∧
    (a.change = 1 → a.confirmed = false → a.settle = false →
      (good = true → Ends (.vrTimeout good) s
        ((m.armMod fun a => { a with settle := true, lateChg := true }).wr ARM_VRSTAT fARM_VRSTAT_LATE 1)) ∧
      (good = false → a.armed = false → m.drives = false → Ends (.vrTimeout good) s
        (((m.armMod fun a => { a with change := 0, settle := false, confirmed := false, lateChg := false }).wr ARM_PROFCTL
          fARM_PROFCTL_STATUS 6).wr ARM_STAT fARM_STAT_CHG_BUSY 0))) ∧
    (a.change ≠ 1 → a.change ≠ 7 → Ends (.vrTimeout good) s m)

/-! ### Radios, identity buses and basebands (06_radio_frontends.md, 07_wifi_baseband.md) -/

/-- RADIO_MODE_SET, RADIO_TRANSITION_DONE, SYNTH_LOCK, TX_SYNTH_DEADLINE, SYNTH_LOCK_LOSS, PPDU_TX_END and OVPWR_CLEAR: a mode written waits for the
next beat start; a transition ends in its state and the next command that waits starts; lock ends the settling and starts the held transmit; without lock past
its tolerance that one ends LATE_SYNTH; a loss of lock cuts the PPDU with LOCK_LOST and raises its event; a last sample ends the transmit OK or CLAMPED, after the
power guard; a status shows in RFx_TXLAST; software clears bits of RFx_OVPWR; the front-end lines follow the state, and a forced transmit enable is 0 (R219 to R221,
R223 to R226, R229 to R232, R251, R258, R259). -/
def Obligations.TransceiversFollowModeLockAndTransmit : Prop :=
  ∀ (s : State) (x : Fin 3) (v : BitVec 32) (pd canc : List (Nat × Nat)) (t : RfTx) (st n : Nat) (l : List Nat),
    let m := s.m
    let r := m.getRadio x.val
    let stat := RFx_STAT x.val
    let after (y : Mach) := Mach.afterRadio x.val (y, none)
    let oc := m.setReg (RFx_OVPWR x.val) (m.reg (RFx_OVPWR x.val) &&& ~~~v)
    let arrived := (m.wr stat fRFx_STAT_STATE st).radioMod x.val fun q => { q with moving := none, next := (dropSame st q.next).drop 1 }
    let landed := if st ≤ 1 then arrived.wr stat fRFx_STAT_LOCK 0
      else if r.settling = true ∨ r.relock = true then arrived else arrived.wr stat fRFx_STAT_LOCK 1
    let locked := (m.wr stat fRFx_STAT_LOCK 1).radioMod x.val fun q => { q with settling := false, relock := false }
    let lost := ((m.wr stat fRFx_STAT_LOCK 0).radioMod x.val fun q => { q with relock := true }).event 0x0501 x.val []
    let quiet := r.tx = none ∧ r.waitTx = []
    let guarded := m.forEach (pd.filter fun e => t.chains.getLsbD e.1 && m.chainOn x.val e.1) fun y e => y.powerGuard x.val (t.setOf e.1) e
    let how := if t.clamped then 1 else 0
    let sent := ((guarded.radioTxDone x.val t how).1.radioMod x.val fun q =>
      { q with edges := m.edgesFromTx x.val (m.radioRest x.val == 3) }).radioBack x.val
    let done := m.radioTxDone x.val t st
    (Does (.radioModeSet x v) s fun y => (y.getRadio x.val).mode = r.mode ∧ (y.getRadio x.val).moving = r.moving ∧
      y.rd (RFx_CTL x.val) fRFx_CTL_MODE = getFld v fRFx_CTL_MODE ∧ y.rd (RFx_CTL x.val) fRFx_CTL_RET = getFld v fRFx_CTL_RET ∧
      y.rd stat fRFx_STAT_STATE = m.rd stat fRFx_STAT_STATE ∧ y.arm = m.arm ∧ y.bbs = m.bbs ∧ y.wmac = m.wmac) ∧
    (r.moving = none → Ends (.radioTransitionDone x) s (after m)) ∧
    (r.moving = some st →
      (dropSame st r.next = n :: l → Ends (.radioTransitionDone x) s (after (landed.radioGo x.val n))) ∧
      (dropSame st r.next = [] → quiet ∨ r.txOn = true → Ends (.radioTransitionDone x) s (after landed)) ∧
      (dropSame st r.next = [] → r.tx = some t → r.txOn = false → r.settling = false → r.relock = false → r.cal = none →
        Ends (.radioTransitionDone x) s
          (Mach.afterRadio x.val ((landed.radioMod x.val fun q => { q with tx := none }).radioTx x.val t)))) ∧
    (quiet → after m = m.radioFree x.val) ∧
    (quiet ∨ r.txOn = true → Ends (.synthLock x) s (after locked)) ∧
    (r.tx = some t → r.txOn = false → r.moving = none → r.cal = none → Ends (.synthLock x) s
      (Mach.afterRadio x.val ((locked.radioMod x.val fun q => { q with tx := none }).radioTx x.val t))) ∧
    (r.tx = none ∨ r.txOn = true ∨ m.bit stat fRFx_STAT_LOCK = true → Ends (.txSynthDeadline x) s (after m)) ∧
    (r.tx = some t → r.txOn = false → m.bit stat fRFx_STAT_LOCK = false → Ends (.txSynthDeadline x) s
      (Mach.afterRadio x.val (m.radioTxDone x.val t 0x10))) ∧
    (m.bit stat fRFx_STAT_LOCK = false → Ends (.synthLockLoss x) s (after m)) ∧
    (m.bit stat fRFx_STAT_LOCK = true →
      (r.tx = none → Ends (.synthLockLoss x) s (after lost)) ∧
      (r.tx = some t → r.txOn = true → Ends (.synthLockLoss x) s (Mach.afterRadio x.val (lost.radioCut x.val t 0x11))) ∧
      (r.tx = some t → r.txOn = false → Ends (.synthLockLoss x) s (Mach.afterRadio x.val (lost.radioTxDone x.val t 0x11)))) ∧
    (r.tx = some t → r.txOn = true → m.radioState x.val = 4 → r.moving = none → Ends (.ppduTxEnd x pd canc) s
      (Mach.afterRadio x.val (sent.strMeasure x.val canc, some (t, how)))) ∧
    (r.tx = none ∨ r.txOn = false ∨ m.radioState x.val ≠ 4 ∨ r.moving ≠ none → Ends (.ppduTxEnd x pd canc) s m) ∧
    (done.2 = some (t, st) ∧ (done.1.getRadio x.val).tx = none ∧ (done.1.getRadio x.val).txOn = false ∧
      (t.tag = none → 1 ≤ st → st < 0x20 → done.1.rd (RFx_TXLAST x.val) fRFx_TXLAST_STATUS = st ∧
        done.1.rd (RFx_TXLAST x.val) fRFx_TXLAST_CHAINS = (t.chains &&& chainMask x.val).toNat)) ∧
    (m.bit stat fRFx_STAT_ID_READING = true → Ends (.ovpwrClear x v) s oc) ∧
    (m.bit stat fRFx_STAT_ID_READING = false → Ends (.ovpwrClear x v) s (oc.txValid x.val)) ∧
    (∀ c < 16, ((oc.txValid x.val).reg (RFx_TXVALID x.val) &&& (1#32 <<< c) ≠ 0 ↔ oc.chainValid x.val c = true)) ∧
    (∀ c, r.moving = none → m.halfChains x.val = false →
      (m.radioState x.val ≤ 1 → m.feLines x.val c = (false, false, false)) ∧
      (m.radioState x.val = 3 → m.feLines x.val c = (false, false, r.bypass.getLsbD c)) ∧
      (m.radioState x.val = 4 → m.feLines x.val c = (m.chainOn x.val c, m.chainOn x.val c, true)) ∧
      (m.radioState x.val = 2 ∨ m.radioState x.val = 5 → m.feLines x.val c = (false, false, true)) ∧
      (m.txForced = true → (m.fePins x.val c).1 = false ∧ (m.fePins x.val c).2.1 = false))

/-- CAL_SLOT_START, CAL_SKIP, CAL_DONE, CHANNEL_STAGE, ID_RESCAN, HP_EDGE, HP_ACCEPT, ID_RECORD_READ and ID_BUS_STUCK: a CAL slot's calibration runs on
a free radio and waits on a busy one, and a skip is counted; a calibration's end renews its age; a channel outside R240 is ignored and reported, and
another is pending; a re-read clears RFx_TXVALID, reads from the first memory and ends with an IDENT_CHANGE event; a toggle counts after 1 ms; a CAL slot that a status
of R311 bars ends with it (R234, R238 to R241, R245 to R247, R250, R251, R311; a CAL slot's status is DEDUCED, log 75). -/
def Obligations.CalibrationsChannelsAndIdentityProceed : Prop :=
  ∀ (s : State) (x : Fin 3) (i k d : Nat) (v : BitVec 32) (level ack : Bool) (bytes : List Byte) (sl : Slot),
    let m := s.m
    let r := m.getRadio x.val
    let b := m.getBus x.val
    let w : CalWait := ⟨k, i, m.frame⟩
    let wait := m.radioMod x.val fun q => { q with calWait := some w }
    let open_ := (m.slotsOf x.val)[i]? = some sl ∧ sl.kind = 5 ∧ sl.param = k ∧ k < 7 ∧ m.actValid = true ∧
      slotOccurs m.act sl m.beat = true ∧ r.cal = none
    let runs := m.depOverrun sl = false ∧ m.inHold = false ∧ m.radioOff x.val = false
    let skip (y : Mach) (z : Nat) (c : CalWait) := ((y.radioMod z fun q => { q with calWait := none }).count (RFx_CALk z c.kind)
      fRFx_CALk_SKIPS).calSlotMark z 1 c.ix
    let both := (((m.calMark 1 7).calMark 2 7).wr (BBx_STRSTAT 1) fBBx_STRSTAT_CONV 1).wr (BBx_STRSTAT 2) fBBx_STRSTAT_CONV 1
    let converged := (both.bbMod 1 fun b => { b with degraded := false }).bbMod 2 fun b => { b with degraded := false }
    let staged := m.plainWrite (RFx_CHAN x.val) v
    let ctl := IDM_BUSk_CTL x.val
    let iw := m.accessWake ctl
    let stat := IDM_BUSk_STAT x.val
    let hp := m.bit stat fIDM_BUSk_STAT_HP
    let rec_ := if ack then slice 0 bytes 0 256 else []
    let a := (busAddrs x.val).getD d 0
    (open_ → m.depOverrun sl = true → Ends (.calSlotStart x i) s (m.calSlotMark x.val 3 i)) ∧
    (open_ → m.depOverrun sl = false → m.inHold = true → Ends (.calSlotStart x i) s (m.calSlotMark x.val 4 i)) ∧
    (open_ → m.depOverrun sl = false → m.inHold = false → m.radioOff x.val = true → Ends (.calSlotStart x i) s (m.calSlotMark x.val 5 i)) ∧
    (open_ → runs → m.radioBusy x.val = true → Ends (.calSlotStart x i) s wait) ∧
    (open_ → runs → m.radioBusy x.val = false → Ends (.calSlotStart x i) s (wait.calBegin x.val w)) ∧
    (r.calWait = none → Ends (.calSkip x) s m) ∧
    (∀ c, r.calWait = some c → c.kind ≠ 7 → m.radioBusy x.val = true → Ends (.calSkip x) s (skip m x.val c)) ∧
    (∀ c, r.calWait = some c → c.kind ≠ 7 → m.radioBusy x.val = false → Ends (.calSkip x) s (m.calBegin x.val c)) ∧
    (∀ a b, x ≠ 0 → (m.getRadio 1).calWait = some a → (m.getRadio 2).calWait = some b → a.kind = 7 → b.kind = 7 →
      m.radioBusy 1 = true ∨ m.radioBusy 2 = true → Ends (.calSkip x) s (skip (skip m 1 a) 2 b)) ∧
    (r.cal = none → Ends (.calDone x) s (Mach.afterRadio x.val (m, none)).bootNext) ∧
    (r.cal = some k → k ≠ 7 → Ends (.calDone x) s (Mach.afterRadio x.val (m.calMark x.val k, none)).bootNext) ∧
    (r.cal = some 7 → (m.getRadio 1).cal = some 7 → (m.getRadio 2).cal = some 7 → Ends (.calDone x) s
      (Mach.afterRadio 2 (Mach.afterRadio 1 (converged, none), none)).bootNext) ∧
    (k < 8 → r.startCal = false → (m.calMark x.val k).rd (RFx_CALk x.val k) fRFx_CALk_AGE = 0) ∧
    (m.staged = true → chanSubs x.val (v &&& 0xFFF) = none → Ends (.channelStage x v) s (m.ignored (RFx_CHAN x.val))) ∧
    (m.staged = false ∨ chanSubs x.val (v &&& 0xFFF) ≠ none →
      (staged.reg (RFx_CHAN x.val) ≠ staged.radioChan x.val → Ends (.channelStage x v) s (staged.wr (RFx_STAT x.val) fRFx_STAT_CHAN_PENDING 1)) ∧
      (staged.reg (RFx_CHAN x.val) = staged.radioChan x.val → (staged.reg (BBx_PUNCT x.val)).setWidth 16 = (staged.getRadio x.val).punct →
        Ends (.channelStage x v) s staged)) ∧
    Ends (.idRescan x v) s (((iw.wr ctl fIDM_BUSk_CTL_FAST (getFld v fIDM_BUSk_CTL_FAST)).wr ctl fIDM_BUSk_CTL_RESCAN 1).idStart x.val) ∧
    (m.radioBusy x.val = true → m.idStart x.val = m.busMod x.val fun q => { q with wait := true }) ∧
    (m.radioBusy x.val = false → (m.idStart x.val).reg (RFx_TXVALID x.val) = 0 ∧ ((m.idStart x.val).getBus x.val).reading = some 0 ∧
      (m.idStart x.val).rd (RFx_STAT x.val) fRFx_STAT_ID_READING = 1 ∧ (m.idStart x.val).keepsBut [.regs, .idbus] m) ∧
    Ends (.hpEdge x level) s (m.busMod x.val fun q => { q with edge := if level = hp then none else some level }) ∧
    (b.edge = none → Ends (.hpAccept x) s m) ∧
    (b.edge = some level →
      let y := ((m.wr stat fIDM_BUSk_STAT_HP (if level then 1 else 0)).count (IDM_BUSk_CNT x.val) fIDM_BUSk_CNT_HPTOGGLES).busMod x.val
        fun q => { q with edge := none }
      (b.reading = none → Ends (.hpAccept x) s (y.idStart x.val)) ∧ (b.reading ≠ none → Ends (.hpAccept x) s (y.idBegin x.val))) ∧
    (b.reading = none → Ends (.idRecordRead x ack bytes) s m.bootNext) ∧
    (b.reading = some d → d < (busAddrs x.val).length →
      let code := if !ack then 1 else if b.stuck then 2 else idValidate x.val a rec_
      let y := m.idRead x.val ack bytes
      Ends (.idRecordRead x ack bytes) s y.bootNext ∧ y.idRec x.val a = rec_ ∧ y.rd (IDM_BUSk_ERR x.val) (fIDM_BUSk_ERR_CODEa a) = code ∧
      (y.getBus x.val).reading = (if d + 1 < (busAddrs x.val).length then some (d + 1) else none)) ∧
    Ends (.idBusStuck x) s (m.busMod x.val fun q => { q with stuck := b.reading.isSome })

/-- PPDU_DETECT, GAIN_SETTLED, BUSY_REPORT, SIGNAL_FIELDS, CODEWORD_DONE, RX_RESTART, PPDU_RX_END, RX_TRUNCATE and RX_DECLARED_END: a reception
goes SEARCH, GAIN, SIGNAL, DATA, its gain settings free values (log 5); a failing signal field abandons it SIG_FAIL; a codeword that would pass the beat's budget cuts it OVERLOAD until its declared
end; a stronger PPDU supersedes it; the other endings deliver its vectors and free the radio (R225, R273, R274, R276, R277, R279 to R283, R288, R289). -/
def Obligations.ReceptionsStartRestartAndEnd : Prop :=
  ∀ (s : State) (x : Fin 3) (power : Int) (energy : List (BitVec 8)) (nav tb own foreign failed supported soliciting : Bool) (bits next : Nat)
      (sig : SigFields) (users : List RxVec) (rssi : List (Nat × BitVec 8)),
    let m := s.m
    let rx := (m.getBb x.val).rx
    let thr := signedOf 8 (m.rd (BBx_DETCTL x.val) fBBx_DETCTL_PD_THR)
    let edThr := signedOf 8 (m.rd (BBx_DETCTL x.val) fBBx_DETCTL_ED_THR)
    let listens := m.radioState x.val = 3 ∧ (m.getRadio x.val).moving = none
    let fresh (again : Bool) : Rx :=
      { Rx.zero with state := 1, restarted := again, beat := m.beat, budget := m.decBudget x.val, tsf := m.tsf x.val,
                     xb := x.val != 0 && (m.getRadio (3 - x.val)).txOn && !m.strOk }
    let gain := m.freeVal.2.freeVal
    let settled := gain.2.radioMod x.val fun q => { q with bypass := m.freeVal.1.setWidth 16 &&& chainMask x.val, gain := gain.1 }
    let checked := m.setRx x.val { rx with state := 3, tb := tb, own := own, foreign := foreign, endAt := m.tb5 + sig.dur, users := sig.users }
    let held := checked.rxDeliverFree x.val 0x12
    let c := (m.getBb x.val).charged rx.beat + bits
    let rx1 := { rx with cwFail := rx.cwFail + if failed then 1 else 0, users := users }
    let charged := (m.bbMod x.val fun b => { b with charge := (rx.beat, c) :: (b.charge.filter fun e => e.1 != rx.beat).take 3 }).setRx x.val rx1
    let cut := next ≠ 0 ∧ ∃ k, rx.budget = some k ∧ k < c + next
    let delta := min 31 (max 1 (m.rd (BBx_CTL x.val) fBBx_CTL_RESTART_DELTA))
    let may := m.bit (BBx_CTL x.val) fBBx_CTL_RESTART_EN = true ∧ (rx.tb = true → m.bit (BBx_CTL x.val) fBBx_CTL_RESTART_TB = true) ∧
      rx.power + delta ≤ power
    let how := m.endStatus x.val supported users
    let ended := ((m.rxDeliverAs x.val how.2 (how.1.zip users) (some rssi)).rxOver x.val).bbMod x.val fun b =>
      { b with rx := { Rx.zero with power := rx.power, tb := rx.tb, endAt := m.tb5 + 1 } }
    (listens → rx.state = 0 → thr ≤ power → Ends (.ppduDetect x power) s (m.setRx x.val (fresh false))) ∧
    (¬ listens ∨ rx.state ≠ 0 ∨ power < thr → Ends (.ppduDetect x power) s m) ∧
    (rx.state = 1 → Ends (.gainSettled x power) s (settled.setRx x.val { rx with state := 2, power := power })) ∧
    (rx.state ≠ 1 → Ends (.gainSettled x power) s m) ∧
    Does (.busyReport x energy nav) s (fun y => (y.getSq x.val).nav = nav ∧ y.rd (BBx_STAT x.val) fBBx_STAT_BUSY = (y.busyMask x.val).toNat ∧
      (∀ k < 16, (y.getBb x.val).energy.getLsbD k =
        (decide (k < (m.radioSubs x.val).length) && energy[k]?.any fun v => decide (edThr ≤ v.toInt))) ∧ y.keepsBut [.regs, .bbs, .wmac] m) ∧
    (rx.state = 2 →
      (checked.overBudget x.val sig.first = false → Ends (.signalFields x true tb own foreign sig) s checked) ∧
      (checked.overBudget x.val sig.first = true → Ends (.signalFields x true tb own foreign sig) s
        (held.setRx x.val { (held.getBb x.val).rx with cut := true })) ∧
      Ends (.signalFields x false tb own foreign sig) s ((m.count (BBx_RXCNT0 x.val) fBBx_RXCNT0_SIG_FAIL).rxOver x.val)) ∧
    (rx.state ≠ 2 → ∀ ok, Ends (.signalFields x ok tb own foreign sig) s m) ∧
    (rx.state = 3 → rx.cut = false →
      (¬ cut → Ends (.codewordDone x bits next failed users rssi) s charged) ∧
      (cut → Ends (.codewordDone x bits next failed users rssi) s
        ((charged.rxDeliver x.val 0x12 users rssi).setRx x.val { rx1 with cut := true })) ∧
      (may → Ends (.rxRestart x power users rssi) s ((m.rxDeliver x.val 0x10 users rssi).setRx x.val (fresh true))) ∧
      Ends (.ppduRxEnd x supported soliciting users rssi) s
        (if soliciting ∧ how.2 = 0 then ended.sqMod x.val fun q => { q with owe := true } else ended) ∧
      Ends (.rxTruncate x users rssi) s ((m.rxDeliver x.val 0x11 users rssi).rxOver x.val)) ∧
    (rx.state = 2 → rx.cut = false → may → Ends (.rxRestart x power users rssi) s
      ((m.count (BBx_RXCNT0 x.val) fBBx_RXCNT0_SIG_FAIL).setRx x.val (fresh true))) ∧
    (¬ may ∨ rx.cut = true → Ends (.rxRestart x power users rssi) s m) ∧
    (rx.state ≠ 3 ∨ rx.cut = true → Ends (.codewordDone x bits next failed users rssi) s m ∧
      Ends (.ppduRxEnd x supported soliciting users rssi) s m ∧ Ends (.rxTruncate x users rssi) s m) ∧
    (rx.cut = true → Ends (.rxDeclaredEnd x) s (m.rxOver x.val)) ∧
    (rx.cut = false → Ends (.rxDeclaredEnd x) s m)

/-! ### The Wi-Fi MAC and the air scheduler (08_wifi_mac.md, 09_air_scheduler.md) -/

/-- SLOT_OPEN, SLOT_START, SLOT_MISS, RESPONSE_SEND, RESPONSE_TIMEOUT and BACKOFF_COUNT: a slot that a status of R311 bars ends with it, a CONT slot
starts at once and another waits for the medium; a slot past its latest start is SLIPPED, or NSTR_WAIT where R314 held it; an owed response goes out wherever the
radio may transmit and a PPDU can be formed; without a detected PPDU the attempts fail; the backoff runs only in a CONT slot on an idle medium, and at 0
without a TXOP that fits it stays until the next CONT slot (R302 to R306, R311, R312,
R314; what a transmit consists of is the row's operand, log 12; DEP_OVERRUN before HOLD and what forms no PPDU are the model's choices, logs 70 and 74). -/
def Obligations.SlotsResponsesAndContentionProceed : Prop :=
  ∀ (s : State) (x : Fin 3) (i ac cw st k : Nat) (p : TxPlan) (sl : Slot) (r : SlotRun) (ids : List Nat),
    let m := s.m
    let q := m.getSq x.val
    let opens := (m.slotsOf x.val)[i]? = some sl ∧ sl.kind ≠ 5 ∧ m.actValid = true ∧ m.bit WMAC_CTL fWMAC_CTL_RUN = true ∧
      slotOccurs m.act sl m.beat = true
    let y := m.reachFine (m.beat * m.beatNs + sl.start * m.beatNs / 256)
    let o : SlotRun := ⟨sl, y.beat, y.tb5, true, false⟩
    let z := m.reachFine (r.beat * m.beatNs + (r.slot.start + r.slot.latest) * m.beatNs / 256)
    let zrx := (z.getBb x.val).rx
    let cuts := z.bit WMAC_CTL fWMAC_CTL_OBSS_CUT = true ∧ 1 ≤ r.slot.kind ∧ r.slot.kind ≤ 3 ∧ zrx.state = 3 ∧ zrx.foreign = true ∧
      z.tb5 < zrx.endAt ∧ z.nstrWaits x.val p = false
    let paid := m.sqMod x.val fun q => { q with owe := false }
    let response := paid.planForm x.val 2 0 p.bits p []
    let late := m.sqMod x.val fun q => { q with await := none, lateSubs := ids }
    let timed := if late.slotRuns x.val then late else late.radioRelax x.val
    let runs := q.slot = some r ∧ r.slot.kind = 4 ∧ m.tb5 ≤ m.fineAt r.beat (r.slot.start + r.slot.len) ∧
      m.mediumIdle x.val = true ∧ m.nstrHeld x.val = false ∧ m.nstrWaits x.val p = false ∧ (m.getRadio x.val).tx = none ∧ q.parked.contains ac = false
    let back (w : Mach) (v : Option Nat) := w.sqMod x.val fun q => { q with backoff := tabSet none q.backoff ac v }
    let stays := (back m (some 0)).sqMod x.val fun q => { q with parked := ac :: q.parked }
    (opens → y.slotBar x.val sl = some st → Ends (.slotOpen x i) s (y.slotEnds x.val st o)) ∧
    (opens → y.slotBar x.val sl = none → sl.kind = 4 → Ends (.slotOpen x i) s
      (((y.sqMod x.val fun q => { q with parked := [] }).slotStarted x.val o).radioListen x.val)) ∧
    (opens → y.slotBar x.val sl = none → sl.kind ≠ 4 → Ends (.slotOpen x i) s ((y.sqMod x.val fun q => { q with slot := some o }).radioListen x.val)) ∧
    (m.depOverrun sl = true → m.slotBar x.val sl = some 3) ∧
    (m.depOverrun sl = false → m.inHold = true → m.slotBar x.val sl = some 4) ∧
    (m.depOverrun sl = false → m.inHold = false → m.flt.restarting = [] →
      (m.txForced = true → m.slotBar x.val sl = some 7) ∧
      (m.txForced = false → m.profile = 3 → m.slotBar x.val sl = some 6) ∧
      (m.txForced = false → m.profile ≠ 3 → m.radioOff x.val = true → m.slotBar x.val sl = some 5)) ∧
    (st < 256 → r.slot.kind ≠ 2 → r.slot.kind ≠ 3 → (m.slotEnds x.val st r).rd (WMAC_SEQx_SLOTLAST x.val) fWMAC_SEQx_SLOTLAST_STATUS = st ∧
      ((m.slotEnds x.val st r).getSq x.val).slot = none) ∧
    (q.slot = some r → r.waiting = true → m.nstrWaits x.val p = false → m.mediumIdle x.val = true → Ends (.slotStart x p) s (m.slotGo x.val r p)) ∧
    (q.slot = some r → r.waiting = true → m.nstrWaits x.val p = true → Ends (.slotStart x p) s
      (m.sqMod x.val fun q => { q with slot := some { r with nstr := true } })) ∧
    (q.slot = none → Ends (.slotStart x p) s m ∧ Ends (.slotMiss x p) s m) ∧
    (q.slot = some r → r.waiting = true → cuts → Ends (.slotMiss x p) s (z.slotGo x.val r p)) ∧
    (q.slot = some r → r.waiting = true → ¬ cuts →
      (r.nstr = true → Ends (.slotMiss x p) s (z.slotEnds x.val 8 r)) ∧
      (r.nstr = false → z.nstrWaits x.val p = false → Ends (.slotMiss x p) s (z.slotEnds x.val 1 r))) ∧
    (q.owe = false → Ends (.responseSend x p) s m) ∧
    (q.owe = true → response = none → Ends (.responseSend x p) s paid) ∧
    (∀ tx, q.owe = true → response = some tx →
      (m.isStandby = true ∨ paid.txRefusal x.val tx ≠ none → Ends (.responseSend x p) s paid) ∧
      (m.isStandby = false → paid.txRefusal x.val tx = none → Ends (.responseSend x p) s (Mach.macAfter x.val (paid.radioTx x.val tx)))) ∧
    (q.await = some ids → (m.getBb x.val).rx.state = 0 → Ends (.responseTimeout x) s
      (timed.forEach ids fun w id => match w.subOf id with | some (_, u) => w.attemptFail x.val u | none => w)) ∧
    (q.await = none ∨ (m.getBb x.val).rx.state ≠ 0 → Ends (.responseTimeout x) s m) ∧
    (runs → tabGet none q.backoff ac = some k →
      (k ≤ 1 → m.slotFits r p = true → Ends (.backoffCount x ac cw (some p)) s ((back m none).macSend x.val r p)) ∧
      (k ≤ 1 → m.slotFits r p = false → Ends (.backoffCount x ac cw (some p)) s stays) ∧
      (k ≤ 1 → Ends (.backoffCount x ac cw none) s stays) ∧
      (1 < k → Ends (.backoffCount x ac cw (some p)) s (back m (some (k - 1))) ∧
        Ends (.backoffCount x ac cw none) s (back m (some (k - 1))))) ∧
    (runs → tabGet none q.backoff ac = none → Does (.backoffCount x ac cw none) s fun w =>
      ∃ n, n ≤ cw ∧ tabGet none (w.getSq x.val).backoff ac = some n) ∧
    (q.slot = none → Ends (.backoffCount x ac cw (some p)) s m)

/-- MPDU_RECEIVE, BLOCKACK_RECEIVE, REORDER_TIMEOUT, STAGE and RESTAGE_DONE: a standby delivers nothing; a failed MIC is counted and reported, a replay
is counted, an MPDU with a higher packet number is accepted; acknowledged subframes leave and the
others of the response fail once; a timeout passes gaps; a STAGE PUT with a bad operand or a stale key is refused, and its numbers are spent at
the PUT; a lost subframe is staged anew while its key lives (R302, R303, R310, R319 to R322, R326, R327, R331 to R333, R336). -/
def Obligations.MpdusAreDeliveredAcknowledgedAndStaged : Prop :=
  ∀ (s : State) (x : Fin 3) (n : Fin 16) (u : AirMpdu) (v : Sub) (sta tid id : Nat) (seqs : List Nat) (a : Acc) (b : BaRx) (t : Nat),
    let m := s.m
    let key := u.keyId.map fun k => 2 * u.sta + k % 2
    let plain := u.bytes ≠ [] ∧ u.backlog = none ∧ u.power = none ∧ u.feedback = none ∧ 8 ≤ u.tid ∧ m.isStandby = false
    let mp : Mpdu := ⟨u.seq % 4096, u.pn, u.sta, u.tid, key, u.mic, u.bytes, (m.getBase 0).nsTotal, x.val⟩
    let h := m.wmacMod fun w => { w with airEnd := m.rxEndNs x.val }
    let q := m.getSq x.val
    let named (w : Sub) : Bool := w.sta == sta && w.tid == tid && w.prov == 0 && seqs.contains w.seq && 0 < w.tries && !w.air
    let acked := m.forEach [0, 1, 2] fun y r => y.forEach ((y.stg r).subs.filter named) fun z w => z.subDone r w false q.sentAt
    let due := t + 1000 * max 100 (m.rd WMAC_BACTL fWMAC_BACTL_REORDER_TO)
    let put := m.openAcc n.val id = some a ∧ ptrClass a.far = 7 ∧ ptrAddr a.far / 256 % 256 = 0x30 + x.val ∧ ptrAddr a.far % 256 = 1
    let w (i : Nat) : TWord := a.src.getD i 0
    let d := payN (w 1)
    let good := a.len = 4 ∧ wTag (w 1) = tagDESC ∧ d % 2 ^ 37 = 0 ∧ d / 2 ^ 40 % 64 ≤ 47 ∧ wTag (w 2) = tagPTR ∧ ptrClass (w 2) = 2 ∧
      isInt (w 3) = true ∧ 1 ≤ payN (w 3) ∧ payN (w 3) ≤ 11454 ∧ (∀ z ∈ a.src.drop 4, payN z = 0)
    (m.isStandby = true → Ends (.mpduReceive x u) s m) ∧
    (u.mic = false → plain → u.keyId = none → Ends (.mpduReceive x u) s
      ((h.count WMAC_SECCNT fWMAC_SECCNT_MICFAIL).event 0x0B03 x.val [(2, u.sta)])) ∧
    (u.mic = true → plain → u.keyId = none → Ends (.mpduReceive x u) s (h.toIntake mp false)) ∧
    (∀ k, u.mic = true → plain → key = some k → (m.keyE k).used = true → (m.keyE k).guard = false →
      (u.pn ≤ tabGet 0 (m.keyE k).rx u.tid → Ends (.mpduReceive x u) s (h.count WMAC_SECCNT fWMAC_SECCNT_REPLAY)) ∧
      (tabGet 0 (m.keyE k).rx u.tid < u.pn → Ends (.mpduReceive x u) s
        (((h.setKeyE k { m.keyE k with rx := tabSet 0 (m.keyE k).rx u.tid u.pn }).journal 0x08 portWMAC 0 0 (16 * u.sta + u.tid)
          [encodeCode (datumOf (bytesLE 8 (tabGet 0 (m.keyE k).rx u.tid) ++ bytesLE 8 u.pn))]).toIntake mp false))) ∧
    (q.await = none → q.lateSubs = [] → Ends (.blockackReceive x sta tid seqs) s (acked.baAdvance sta tid seqs)) ∧
    (q.await = none → q.lateSubs ≠ [] → Ends (.blockackReceive x sta tid seqs) s
      (((acked.sqMod x.val fun q => { q with lateSubs := [] }).count WMAC_RXCNT fWMAC_RXCNT_LATE_RESP).baAdvance sta tid seqs)) ∧
    (∀ ids, q.await = some ids → Ends (.blockackReceive x sta tid seqs) s
      (((acked.sqMod x.val fun q => { q with await := none }).forEach ids fun y id => match y.subOf id with
        | some (_, w) => if w.sta = sta ∧ w.tid = tid then y.attemptFail x.val w else y
        | none => y).baAdvance sta tid seqs)) ∧
    (tabGet none m.wmac.baRx (16 * sta + tid) = none → Ends (.reorderTimeout sta tid) s m) ∧
    (tabGet none m.wmac.baRx (16 * sta + tid) = some b →
      (b.held = [] → Ends (.reorderTimeout sta tid) s m) ∧
      (oldestAt b.held = some t → Ends (.reorderTimeout sta tid) s (Mach.gapsPass (16 * sta + tid) t b.held.length
        (((m.reach due).wmacMod fun w => { w with airEnd := ((m.reach due).getBase 0).nsTotal }).count WMAC_RXCNT fWMAC_RXCNT_REORDER_TO)))) ∧
    (put → (wTag (w 0) ≠ tagKEY ∧ wTag (w 0) ≠ tagNIL) ∨ ¬ good → Ends (.stage n id x) s (m.serve n.val id 4 [])) ∧
    (put → good → wTag (w 0) = tagKEY → m.keyOf (w 0) = none → Ends (.stage n id x) s
      ((m.count WMAC_SECCNT fWMAC_SECCNT_KEY_STALE).serve n.val id 4 [])) ∧
    (put → good → wTag (w 0) = tagNIL → m.asch.picked = [] → m.accRun n.val a ≠ 0 →
      let e := m.seqTake d (d.testBit 39) (d.testBit 38)
      let sub : Sub := ⟨m.wmac.nextSub, 0, subLen (payN (w 3)) (d.testBit 38) none, d / 2 ^ 49 % 2048, d / 2 ^ 46 % 8, d / 2 ^ 40 % 64, d.testBit 39,
        d.testBit 38, d.testBit 37, ptrAddr (w 2), payN (w 3), none, e.2, 0, 0, false, none, false, false, 0, m.accRun n.val a, []⟩
      let c := e.1.wmacMod fun y => { y with nextSub := y.nextSub + 1 }
      Ends (.stage n id x) s ((c.setStg x.val { c.stg x.val with subs := (c.stg x.val).subs ++ [sub] }).serve n.val id 0 [])) ∧
    ((m.stg x.val).subs.find? (fun z => z.id == id && z.lost.isSome) = some v →
      (m.keyLive v = true → Ends (.restageDone x id) s (m.stageWrite x.val v)) ∧
      (m.keyLive v = false → Ends (.restageDone x id) s (m.subDone x.val v true m.timePayload))) ∧
    ((m.stg x.val).subs.find? (fun z => z.id == id && z.lost.isSome) = none → Ends (.restageDone x id) s m)

/-- ENQ, ALLOC, HOME_FREE, TPL_SEAL, TPL_CLEAR and SAMPLE_ROW_DONE: an ENQ that breaks R341 or would take its queue above LIMIT is refused and queues
nothing, another goes to the end of its queue; ALLOC answers a buffer of the right pool or NIL, refuses POISON, HOME_FREE 0 or 1 by item; the shadow template bank is sealed with
the shadow armature's number or cleared, but not while the armature is ARMED; a sample row's words go to its place in memory (R341, R342, R344 to R346, R348,
R369, R370, R372, R767). -/
def Obligations.AirSchedulerQueuesPoolsAndTemplates : Prop :=
  ∀ (s : State) (n : Fin 16) (id f : Nat) (a : Acc) (r : UnitReq) (late : Bool) (row : List Byte) (rows : List (Nat × Bool × List Byte)),
    let m := s.m
    let unit (u o : Nat) := m.openAcc n.val id = some a ∧ ptrClass a.far = 7 ∧ ptrAddr a.far / 256 % 256 = u ∧ ptrAddr a.far % 256 = o
    let run := m.accRun n.val a
    let w (i : Nat) : TWord := a.src.getD i 0
    let q := payN (w 0) / 2 ^ 45
    let len := payN (w 2)
    let good := a.len = 1 ∧ wTag (w 0) = tagDESC ∧ payN (w 0) % 2 ^ 45 = 0 ∧ q ≤ 16447 ∧ wTag (w 1) = tagPTR ∧ ptrClass (w 1) = 2 ∧
      isInt (w 2) = true ∧ 1 ≤ len ∧ len ≤ 11454 ∧ wTag (w 3) = tagTIME
    let fits := ((m.queue q).frames.map QFrame.len).sum + len ≤ (m.queue q).attr.limit * 1024
    let item := r.items.headD 0
    let one := unitReq a.src = some r ∧ r.count = 1 ∧ r.items ≠ [] ∧ a.len ≤ 9
    let words := codesOf (bytesLE 8 (f % 2 ^ 46 + if late then 2 ^ 63 else 0) ++ row)
    let depth := 2 ^ min 8 (m.rd ASCH_SMPCTL fASCH_SMPCTL_DEPTH_LOG2)
    (unit 0x40 1 → ¬ good → Ends (.enq n id) s (m.serve n.val id 4 [])) ∧
    (unit 0x40 1 → good → ¬ fits → Ends (.enq n id) s ((m.count ASCH_ENQCNT fASCH_ENQCNT_TAILDROP).serve n.val id 4 [])) ∧
    (unit 0x40 1 → good → fits → Does (.enq n id) s fun y =>
      (y.queue q).frames = (m.queue q).frames ++ [⟨ptrAddr (w 1), len, wPay (w 3), 0, false, run, none⟩] ∧
      (∀ j, j ≠ q → y.queue j = m.queue j) ∧ y.keepsBut [.regs, .asch, .te] m) ∧
    (unit 0x41 1 → one →
      (wTag item = tagPOISON → Ends (.alloc n id) s (m.serve n.val id 4 [])) ∧
      (wTag item ≠ tagPOISON → isInt item = false ∨ payN item = 0 ∨ 12288 < payN item → Ends (.alloc n id) s
        (m.serve n.val id 0 [(r.result, nilWord)])) ∧
      (isInt item = true → 2048 < payN item → payN item ≤ 12288 → m.hpCount 1 ≤ (m.asch.pool 1).length → Ends (.alloc n id) s
        ((m.count (ASCH_HPk_STAT 1) fASCH_HPk_STAT_EMPTY).serve n.val id 0 [(r.result, nilWord)])) ∧
      (isInt item = true → 2048 < payN item → payN item ≤ 12288 → m.asch.pool1 = [] → 0 < m.hpCount 1 → Does (.alloc n id) s fun y =>
        ∃ i, i < m.hpCount 1 ∧ y.asch.pool1 = [(i, some run)] ∧ y.keepsBut [.regs, .asch, .te, .free] m ∧
          ((y.getTe n.val).acc id).map (fun z => (z.done, z.status, z.res)) =
            some (true, 0, [(r.result, mkPtr 2 (m.hpBase 1 + i * 12288))]))) ∧
    (unit 0x41 2 → one →
      (wTag item ≠ tagPTR ∨ ptrClass item ≠ 2 ∨ m.hpFind (ptrAddr item) = none → Ends (.homeFree n id) s
        (m.serve n.val id 0 [(r.result, intWord 1)])) ∧
      (∀ k i, wTag item = tagPTR → ptrClass item = 2 → m.hpFind (ptrAddr item) = some (k, i) →
        (tabGet none (m.asch.pool k) i = none → Ends (.homeFree n id) s (m.serve n.val id 0 [(r.result, intWord 1)])) ∧
        (tabGet none (m.asch.pool k) i ≠ none → m.asch.freeing = [] → run = 0 → Ends (.homeFree n id) s
          ((m.setPool k (tabSet none (m.asch.pool k) i none)).serve n.val id 0 [(r.result, intWord 0)])) ∧
        (tabGet none (m.asch.pool k) i ≠ none → m.asch.freeing = [] → run ≠ 0 → Ends (.homeFree n id) s
          ((m.aschMod fun y => { y with freeing := [(run, k, i)] }).serve n.val id 0 [(r.result, intWord 0)])))) ∧
    (unitReq a.src = none → (unit 0x41 1 → Ends (.alloc n id) s (m.serve n.val id 4 [])) ∧
      (unit 0x41 2 → Ends (.homeFree n id) s (m.serve n.val id 4 []))) ∧
    (m.rd ARM_STAT fARM_STAT_SHADOW_STATE = 5 → Ends .tplSeal s (m.ignored ASCH_TPLCTL) ∧ Ends .tplClear s (m.ignored ASCH_TPLCTL)) ∧
    (m.rd ARM_STAT fARM_STAT_SHADOW_STATE ≠ 5 →
      Does .tplSeal s (fun y => y.asch.tpl y.shdBank = { m.asch.tpl m.shdBank with tag := some (m.reg64 ARM_SHDID_LO ARM_SHDID_HI) } ∧
        y.rd ASCH_TPLCTL fASCH_TPLCTL_SHD_STATE = 2 ∧ y.asch.tpl (1 - y.shdBank) = m.asch.tpl (1 - m.shdBank) ∧ y.keepsBut [.regs, .asch] m) ∧
      Does .tplClear s (fun y => y.asch.tpl y.shdBank = TplBank.zero ∧ y.rd ASCH_TPLCTL fASCH_TPLCTL_SHD_STATE = 0 ∧
        y.keepsBut [.regs, .asch] m)) ∧
    (m.asch.rows = [] → Ends .sampleRowDone s m) ∧
    (m.asch.rows = (f, late, row) :: rows → Ends .sampleRowDone s
      ((((m.aschMod fun y => { y with rows := rows }).dramWrites
        (m.reg64 ASCH_SMPBASE_LO ASCH_SMPBASE_HI + f % depth * (16 * words.length)) words).setReg64 ASCH_SMPLAST_LO ASCH_SMPLAST_HI
          (f % 2 ^ 46)).count ASCH_SMPSTAT fASCH_SMPSTAT_LATE (if late then 1 else 0)))

/-! ### The mesh radio and the mesh link (10_mesh_radio.md, 11_mesh_link.md) -/

/-- MESH_TRANSITION_DONE, MESH_SYNTH_LOCK, MESH_TX_SYNTH_DEADLINE, MESH_LOCK_LOSS, MESH_PREAMBLE_DETECT, MESH_FALSE_LOCK, MESH_SYNC_ACCEPT, MESH_HEADER,
MESH_RX_END, MESH_RX_TRUNCATE and MESH_TX_END: the mesh radio's states, its held transmit and its receptions: a searching correlator takes over from a false
lock at once and from an accepted sync only RESTART_DELTA above it; a bad header is counted and abandoned; an end delivers its vector; a transmit ends OK, CLAMPED,
LATE_SYNTH or LOCK_LOST (R226, R375 to R378, R383, R384, R391 to R396, R398, R410). -/
def Obligations.MeshRadioSendsAndReceives : Prop :=
  ∀ (s : State) (power : Int) (snr cfo errs st : Nat) (b0 b1 b2 : Byte) (payload : List Byte) (t : MeshTx),
    let m := s.m
    let r := m.mrad
    let x := r.rx
    let put (y : Mach) (z : MeshRx) := y.mradMod fun q => { q with rx := z }
    let arrived := (m.wr MSH_MSTAT fMSH_MSTAT_STATE st).mradMod fun q => { q with moving := none, next := [] }
    let locked := (m.wr MSH_MSTAT fMSH_MSTAT_LOCK 1).mradMod fun q => { q with settling := false, relock := false }
    let lost := (m.wr MSH_MSTAT fMSH_MSTAT_LOCK 0).mradMod fun q => { q with relock := true }
    let delta := min 31 (max 1 (m.rd MSH_MRXCTL fMSH_MRXCTL_RESTART_DELTA))
    let may := m.bit MSH_MRXCTL fMSH_MRXCTL_RESTART_EN = true ∧ x.power + 4 * delta ≤ power
    let new := { MeshRx.zero with phase := 1, power := power, restarted := true }
    let false_ := m.count MSH_MRXCNT1 fMSH_MRXCNT1_FALSE_LOCK
    let badHdr := crcOf crc8 [b0, b1] ≠ b2.toNat ∨ b0 = 0 ∨ b1.toNat / 64 ≠ 0
    let handed (y : Mach) := (y.mradMod fun q => { q with rx := if x.searcher.isSome then q.rx.handOver
                                                  else { MeshRx.zero with power := x.power, endAt := (m.getBase 4).nsTotal + 1 } }).mradRxOver
    let late := match m.mlink.window with | some w => w.closed | none => false
    let ts := m.tb4Stamp (-(m.rd MSH_MTSDLY fMSH_MTSDLY_RX : Int))
    (r.moving = none → Ends .meshTransitionDone s m) ∧
    (r.moving = some st → r.next = [] →
      (st ≤ 1 → Ends .meshTransitionDone s (arrived.wr MSH_MSTAT fMSH_MSTAT_LOCK 0)) ∧
      (2 ≤ st → r.settling = false → r.relock = false → Ends .meshTransitionDone s (arrived.wr MSH_MSTAT fMSH_MSTAT_LOCK 1))) ∧
    (r.tx = none → Ends .meshSynthLock s locked.airNext ∧ Ends .meshTxSynthDeadline s m.airNext) ∧
    (r.tx = some t → r.txOn = false → Ends .meshSynthLock s (locked.meshTx t).airNext ∧
      (m.bit MSH_MSTAT fMSH_MSTAT_LOCK = false → Ends .meshTxSynthDeadline s (m.meshTxDone t 0x10).airNext) ∧
      (m.bit MSH_MSTAT fMSH_MSTAT_LOCK = true → Ends .meshTxSynthDeadline s m.airNext)) ∧
    (m.bit MSH_MSTAT fMSH_MSTAT_LOCK = false → Ends .meshLockLoss s m.airNext) ∧
    (m.bit MSH_MSTAT fMSH_MSTAT_LOCK = true → r.tx = none → Ends .meshLockLoss s lost.airNext) ∧
    (m.bit MSH_MSTAT fMSH_MSTAT_LOCK = true → r.tx = some t → r.txOn = true → Ends .meshLockLoss s
      ((lost.meshTxDone t 0x11).mradGo lost.mradAfter).airNext) ∧
    (m.bit MSH_MSTAT fMSH_MSTAT_LOCK = true → r.tx = some t → r.txOn = false → Ends .meshLockLoss s (lost.meshTxDone t 0x11).airNext) ∧
    (m.mradState ≠ 3 ∨ r.moving ≠ none → Ends (.meshPreambleDetect power snr cfo) s m) ∧
    (m.mradState = 3 → r.moving = none →
      (x.phase = 0 → x.endAt ≠ (m.getBase 4).nsTotal + 1 → Ends (.meshPreambleDetect power snr cfo) s
        (put m { MeshRx.zero with phase := 1, power := power, restarted := false })) ∧
      (x.phase = 1 ∨ (2 ≤ x.phase ∧ ¬ may) → Ends (.meshPreambleDetect power snr cfo) s (put m { x with searcher := some power })) ∧
      (x.phase = 2 → may → Ends (.meshPreambleDetect power snr cfo) s (put (false_.mradFailed 0x21) new)) ∧
      (x.phase = 3 → may → Ends (.meshPreambleDetect power snr cfo) s
        (put ((m.count MSH_MRXCNT1 fMSH_MRXCNT1_SUPERSEDED).meshDeliver 0x10 snr x.syncErr cfo []) new))) ∧
    (x.phase ≠ 1 → Ends .meshFalseLock s m ∧ Ends (.meshSyncAccept power errs) s m) ∧
    (x.phase = 1 → Ends .meshFalseLock s (put (false_.mradFailed 0x21) x.handOver).mradRxOver) ∧
    (x.phase = 1 → errs ≤ min 6 (getFld (m.reg (MSH_MPHYk m.mradProfile)) fMSH_MPHYk_SYNC_ERR) → Ends (.meshSyncAccept power errs) s
      (put m { x with phase := 2, power := power, late := late, syncErr := errs, tsS := ts.1, tsNs := ts.2 })) ∧
    (x.phase ≠ 2 → Ends (.meshHeader b0 b1 b2) s m) ∧
    (x.phase = 2 → badHdr → Ends (.meshHeader b0 b1 b2) s
      (put ((m.count MSH_MRXCNT0 fMSH_MRXCNT0_HDR_FAIL).mradFailed 0x20) x.handOver).mradRxOver) ∧
    (x.phase = 2 → ¬ badHdr → Ends (.meshHeader b0 b1 b2) s (put m { x with phase := 3, len := b0.toNat })) ∧
    (x.phase ≠ 3 → Ends (.meshRxEnd snr cfo payload) s m ∧ Ends (.meshRxTruncate snr cfo) s m) ∧
    (x.phase = 3 → payload.length = x.len → Ends (.meshRxEnd snr cfo payload) s
      (handed ((m.count MSH_MRXCNT0 fMSH_MRXCNT0_OK).meshDeliver 0 snr x.syncErr cfo payload))) ∧
    (x.phase = 3 → Ends (.meshRxTruncate snr cfo) s (handed ((m.count MSH_MRXCNT1 fMSH_MRXCNT1_TRUNCATED).meshDeliver 0x11 snr x.syncErr cfo []))) ∧
    (r.tx = some t → r.txOn = true → m.mradState = 4 → t.burst = 0 → Ends .meshTxEnd s
      (((m.meshTxDone t (if t.clamped then 1 else 0)).mradGo m.mradAfter).airNext)) ∧
    (r.tx = none ∨ r.txOn = false ∨ m.mradState ≠ 4 → Ends .meshTxEnd s m.airNext) ∧
    (m.mlink.air = [] → m.airNext = m)

/-- MESH_CAL_GO, MESH_CAL_DONE, MESH_CAL_STALE, DUTY_BUCKET_END, WAKE_MATCH and WAKE_ENABLE: GO during a PPDU is refused and reported; an IRR's end
clears CAL_STALE; a temperature DT away sets it and interrupts LC; a bucket's end opens a new current bucket of 61, saved; a match with the radio outside
Tx is counted and interrupts LC, which ends a WAIT with interrupts enabled and enters the vector; EN is refused for the words 0x0000 and 0xFFFF
(R141, R143, R402, R409, R412, R413). -/
def Obligations.MeshCalibrationDutyAndWake : Prop :=
  ∀ (s : State) (v : BitVec 32) (db dt k e : Nat),
    let m := s.m
    let r := m.mrad
    let on := m.rd SYS_DOMSTAT fSYS_DOMSTAT_LANT_STATE ≠ 0
    let kind := getFld v fMSH_MRCAL_KIND
    let set := (m.wr MSH_MRCAL fMSH_MRCAL_DT (getFld v fMSH_MRCAL_DT)).wr MSH_MRCAL fMSH_MRCAL_KIND kind
    let busy := (r.tx ≠ none ∧ r.txOn = true) ∨ 2 ≤ r.rx.phase ∨ 3 ≤ kind
    let ended := (m.wr MSH_MRCAL fMSH_MRCAL_GO 0).mradMod fun q => { q with cal := none }
    let moved := m.wr MSH_MRCAL fMSH_MRCAL_DT_NOW (min 255 dt)
    let word := m.rd MSH_WAKEWORD fMSH_WAKEWORD_WORD
    let l := m.lc
    (on → busy → Ends (.meshCalGo v) s (set.report blkMSH kRefused 0)) ∧
    (on → ¬ busy → r.moving = none → 2 ≤ m.mradState → m.mradState ≠ 5 → Does (.meshCalGo v) s fun y => y.mrad = { r with cal := some kind, moving := some 5 } ∧
      y.rd MSH_MRCAL fMSH_MRCAL_GO = 1 ∧ y.rd MSH_MRCAL fMSH_MRCAL_KIND = kind ∧ y.rd MSH_MSTAT fMSH_MSTAT_CAL_KIND = kind ∧
      y.keepsBut [.regs, .mrad] m) ∧
    (r.cal = none → Ends (.meshCalDone db) s m.airNext) ∧
    (r.cal = some 1 → r.startCal = false → r.tx = none → m.mlink.busy = none → m.mlink.air = [] → Does (.meshCalDone db) s fun y =>
      y.mrad.cal = none ∧ y.rd MSH_MSTAT fMSH_MSTAT_CAL_STALE = 0 ∧ y.rd MSH_MRCAL fMSH_MRCAL_GO = 0 ∧
      y.rd MSH_MRCAL fMSH_MRCAL_DT_NOW = 0 ∧ y.keepsBut [.regs, .mrad] m) ∧
    (r.cal = some k → k ≠ 1 → r.startCal = false → r.tx = none → m.mlink.busy = none → m.mlink.air = [] → Ends (.meshCalDone db) s
      ((ended.mradMod fun q => { q with startCal := false }).mradGo m.mradAfter)) ∧
    (dt < m.rd MSH_MRCAL fMSH_MRCAL_DT → Ends (.meshCalStale dt) s moved) ∧
    (m.rd MSH_MRCAL fMSH_MRCAL_DT ≤ dt → Ends (.meshCalStale dt) s
      ((moved.wr MSH_MSTAT fMSH_MSTAT_CAL_STALE 1).lcRaise 2)) ∧
    (e < 4 → Does .dutyBucketEnd s fun y => y.mrad.buckets = r.buckets.map (fun x => (x.1, (0 :: x.2).take 61)) ∧
      y.mrad.saved = y.mrad.buckets ∧ y.reg (MSH_DUTYe e) = BitVec.ofNat 32 (tabGet [] y.mrad.buckets e).sum ∧
      (∀ x ∈ y.mrad.buckets, x.2.length ≤ 61) ∧ y.keepsBut [.regs, .mrad] m) ∧
    (m.bit MSH_WAKECTL fMSH_WAKECTL_EN = true → on → m.mradState ≠ 4 → Ends .wakeMatch s
      ((m.count MSH_WAKECNT fMSH_WAKECNT_MATCHES).lcRaise 6)) ∧
    (l.st / 2 = 0 ∨ l.fl.getLsbD 6 = false → m.lcRaise k = m.lcMod fun l => { l with irq := l.irq ||| (1#8 <<< k) }) ∧
    (2 ≤ k → k < 8 → l.st / 2 ≠ 0 → l.fl.getLsbD 6 = true → l.pend = [] → l.btc = 0 → l.irq = 0 → on →
      m.rd SYS_DOMSTAT fSYS_DOMSTAT_LANT_STATE ≤ 3 → (m.lcRaise k).rd SYS_DOMSTAT fSYS_DOMSTAT_LANT_STATE = 1 ∧
        (m.lcRaise k).lc = { l with st := l.st % 2, savedPc := l.pc, savedFl := l.fl, fl := l.fl &&& ~~~(1#7 <<< 6), pc := 16 * k, bt := none,
                                    ending := 0 }) ∧
    (m.bit MSH_WAKECTL fMSH_WAKECTL_EN = false ∨ ¬ on ∨ m.mradState = 4 → Ends .wakeMatch s m) ∧
    (on → word = 0 ∨ word = 0xFFFF → Does (.wakeEnable v) s fun y =>
      y.rd MSH_WAKECTL fMSH_WAKECTL_EN = m.rd MSH_WAKECTL fMSH_WAKECTL_EN ∧ y.rd MSH_WAKECTL fMSH_WAKECTL_CHAN = getFld v fMSH_WAKECTL_CHAN) ∧
    (on → word ≠ 0 → word ≠ 0xFFFF → Does (.wakeEnable v) s fun y => y.rd MSH_WAKECTL fMSH_WAKECTL_EN = 1 ∧
      y.rd MSH_WAKECTL fMSH_WAKECTL_CHAN = getFld v fMSH_WAKECTL_CHAN ∧ y.keepsBut [.regs] m) ∧
    (¬ on → Ends (.meshCalGo v) s (m.wr SYS_DOMSTAT fSYS_DOMSTAT_BRIDGE_ERR 1) ∧
      Ends (.wakeEnable v) s (m.wr SYS_DOMSTAT fSYS_DOMSTAT_BRIDGE_ERR 1))

/-- SUPERFRAME_START, MESH_SLOT_START, MESH_DATA_RECEIVE, MESH_ACK_RECEIVE, MESH_FLOOD_RECEIVE, MESH_PARENT_RECEIVE and LK_WINDOW_CLOSE: BSN is the superframe modulo
256; a slot acts by its KIND, and one that no entry covers is Sleep; a frame is dropped at its first failing check, counted under it, with nothing else
changed but what R432 asks; an accepted ACK ends a resync; a flood is delivered once; a window that closes without a frame of its node is a miss (R421, R423, R430 to
R432, R435, R437, R441 to R443). -/
def Obligations.MeshSuperframesSlotsAndFramesAct : Prop :=
  ∀ (s : State) (j e node k : Nat) (l : List Byte) (x : Mach) (f : LinkFrame) (i : Nat) (w : LkWindow),
    let m := s.m
    let sf := m.toSuperframe
    let runs := sf.lanternOn = true ∧ sf.bit MSH_LCTL fMSH_LCTL_RUN = true
    let n := sf.tb4 / (256 * tplSlotMs sf.mlink.force * 1000000)
    let a := m.reachLantern (m.slotInstant j)
    let acts := a.lanternOn = true ∧ a.bit MSH_LCTL fMSH_LCTL_RUN = true ∧ a.mrad.tx = none
    let o := tplE e
    let entry (kind : Nat) := acts ∧ a.entryAt a.mlink.sfn j = some e ∧ tplB a.mlink.force o = j ∧ tplB a.mlink.force (o + 2) = kind
    let prof := tplB a.mlink.force (o + 3) % 4
    let sent (y : Mach) := y.mlinkMod fun z => { z with lastRx := none }
    let got (type : Nat) := m.rxFrame = some l ∧ tplB l 0 / 16 = type
    let passed := m.linkJudge l = .passed x f i
    let y := x.windowHit f i
    let nb := tabGet Nbr.zero y.mlink.nbrs i
    let z := m.toWindowEnd
    let shut := (z.mlinkMod fun q => { q with window := some { w with closed := true } }).when (z.mrad.tx.isNone ∧ z.mrad.rx.phase = 0) fun q => q.mradGo q.mradAfter
    (runs → sf.mlink.apply = none → sf.mlink.swapTo = 0 → sf.mlink.force ≠ [] → 1 ≤ tplSlotMs sf.mlink.force → Does .superframeStart s fun q =>
      q.mlink.sfn = n ∧ q.reg MSH_SFN = BitVec.ofNat 32 n ∧ q.rd MSH_LSTAT fMSH_LSTAT_BSN = n % 256) ∧
    (¬ runs → Ends .superframeStart s sf) ∧
    (acts → a.entryAt a.mlink.sfn j = none → Ends (.meshSlotStart j) s (a.mradSlot 1)) ∧
    (entry 0 → Ends (.meshSlotStart j) s (a.sendBeacon prof)) ∧
    (entry 1 → Ends (.meshSlotStart j) s (a.mradSlot 1)) ∧
    (entry 3 → Ends (.meshSlotStart j) s
      (a.openWindow none (a.sfSlot j) (a.sfSlot j) prof (some (a.sfSlot (j + tplB a.mlink.force (o + 1)))))) ∧
    (entry 2 → a.mlink.nbrOf (tplW a.mlink.force (o + 4)) = none → a.mlink.floors = [] → Ends (.meshSlotStart j) s
      (a.openWindow (some (tplW a.mlink.force (o + 4))) (a.sfSlot j) (a.sfSlot j) prof
        (some (a.sfSlot (j + tplB a.mlink.force (o + 1)))))) ∧
    (entry 5 → Ends (.meshSlotStart j) s
      ((a.floodSlot prof).openWindow none (a.sfSlot j) (a.sfSlot j) prof (some (a.sfSlot (j + tplB a.mlink.force (o + 1)))))) ∧
    (entry 4 → Ends (.meshSlotStart j) s (a.downSlot (tplW a.mlink.force (o + 4)) prof)) ∧
    (entry 6 → a.rd MSH_MCTL fMSH_MCTL_MODE = 2 → Ends (.meshSlotStart j) s (a.meshCal (tplB a.mlink.force (o + 3)))) ∧
    (entry 6 → a.rd MSH_MCTL fMSH_MCTL_MODE ≠ 2 → Ends (.meshSlotStart j) s a) ∧
    (m.rxFrame = none → Ends .meshDataReceive s m ∧ Ends .meshAckReceive s m ∧ Ends .meshFloodReceive s m ∧ Ends .meshParentReceive s m) ∧
    (got 1 → l.length < 23 → Ends .meshDataReceive s (sent m)) ∧
    (got 1 → 23 ≤ l.length → crcOf crc16 (l.take (l.length - 2)) ≠ 256 * tplB l (l.length - 2) + tplB l (l.length - 1) →
      Ends .meshDataReceive s (sent (m.count MSH_SECCNT fMSH_SECCNT_CRC_FAIL))) ∧
    (∀ type c, got type → m.linkJudge l = .dropped c → (type ≠ 2 → type ≠ 4 → type ≠ 5 → Ends .meshDataReceive s (sent c)) ∧
      (type = 2 → Ends .meshAckReceive s (sent c)) ∧ (type = 4 → Ends .meshFloodReceive s (sent c)) ∧ (type = 5 → Ends .meshParentReceive s (sent c))) ∧
    (got 1 → passed → f.type = 1 → Ends .meshDataReceive s (sent ((y.meshDeliverMsg f).owesAck f))) ∧
    (got 2 → passed → nb.resync ≠ 2 → Ends .meshAckReceive s (sent y)) ∧
    (got 2 → passed → nb.resync = 2 → Ends .meshAckReceive s
      (sent (((y.setNbr i { nb.learn y.dmax y.mlink.sfn with resyncs := min 255 (nb.resyncs + 1) }).count MSH_LINKCNT fMSH_LINKCNT_RESYNCS).meshEvent 3 f.src 0))) ∧
    (got 4 → passed → f.ttl = 0 → Ends .meshFloodReceive s (sent y)) ∧
    (got 4 → passed → f.ttl ≠ 0 → (∀ q ∈ y.mlink.seen, q.orig = f.orig → q.seq ≠ f.seq) → Ends .meshFloodReceive s
      (sent (((y.seenAge f.orig f.seq).floodSchedule f).meshDeliverMsg f))) ∧
    (got 5 → passed → Ends .meshParentReceive s (sent ((y.meshEvent 4 f.orig (tplW f.body 0 + 65536 * tplB f.body 2)).owesAck f))) ∧
    (z.mlink.window = none → Ends .lkWindowClose s z) ∧
    (z.mlink.window = some w → w.closed = true → Ends .lkWindowClose s z) ∧
    (z.mlink.window = some w → w.closed = false → z.mlink.busy = none →
      (w.node = none → Ends .lkWindowClose s shut) ∧
      (w.node = some node → z.mlink.nbrOf node = some k → (tabGet Nbr.zero z.mlink.nbrs k).resync ≠ 2 →
        (w.hit = true → Ends .lkWindowClose s shut) ∧
        (w.hit = false → Ends .lkWindowClose s ((shut.setNbr k { tabGet Nbr.zero z.mlink.nbrs k with
          misses := min 15 ((tabGet Nbr.zero z.mlink.nbrs k).misses + 1) }).count MSH_LINKCNT fMSH_LINKCNT_MISSES))))

/-- RESYNC_BURST, RESYNC_SEND, MESH_ACK_SEND, FLOOD_RELAY, SEEN_AGE, LOG_POINTER_SAVE, LK_COMMAND_START, LK_NOW_READ and CCM_DONE, each at its instant: a burst goes out
only after three misses; the RESYNC opens the wait for its ACK; an ACK echoes what it acknowledges; a relay goes out in a FLOOD slot or is counted
NOSLOT; an entry leaves the seen cache after 60 s; the delivery pointer goes to the next of 16 slots; a command past its instant completes LATE_SYNTH, and one with the radio
not ON RADIO_OFF; reading LK_NOW latches it (R376, R437, R438, R442, R443, R450, R453). -/
def Obligations.MeshScheduledWorkComesDue : Prop :=
  ∀ (s : State) (node i n due prof dst orig seq : Nat) (e : List Byte) (r : List (Nat × Nat × Nat × List Byte)) (sn : Seen) (c : LkCmd)
    (q : List LkCmd),
    let m := s.m
    let nb := tabGet Nbr.zero m.mlink.nbrs i
    let u := m.resyncU nb n
    let b := m.reachLantern (n - u - 12000000)
    let a := m.reachLantern due
    let f := m.reachLantern (m.relayDue orig seq)
    let aged := m.reachLantern (sn.at_ + 60000000000)
    let at_ := m.toLkAt
    let took := at_.mlinkMod fun l => { l with queue := q, busy := some c }
    let late := (at_.lkNow + 2 ^ 32 - c.at_) % 2 ^ 32
    let unrelayed := f.mlinkMod fun l => { l with seen := l.seen.map fun y => if y.orig = orig ∧ y.seq = seq then { y with relay := none } else y }
    (m.mlink.nbrOf node = none ∨ (m.mlink.nbrOf node = some i ∧ nb.misses < 3) → Ends (.resyncBurst node) s m) ∧
    (m.mlink.nbrOf node = some i → 3 ≤ nb.misses → nb.state ≠ 3 → nb.resync = 0 → m.nextDed nb node = some n →
      Ends (.resyncBurst node) s (b.resyncBurst i n)) ∧
    (m.mlink.nbrOf node = none → Ends (.resyncSend node) s m) ∧
    (m.mlink.nbrOf node = some i → nb.resync ≠ 1 → Ends (.resyncSend node) s m) ∧
    (m.mlink.nbrOf node = some i → nb.resync = 1 → m.mrad.tx = none → m.mlink.air = [] →
      Ends (.resyncSend node) s ((m.reachLantern (m.mlink.burstEnd + 20000000)).resyncSend node)) ∧
    (m.mlink.acks = [] → Ends .meshAckSend s m) ∧
    (m.mlink.acks = (due, prof, dst, e) :: r → Ends .meshAckSend s
      ((a.mlinkMod fun l => { l with acks := r }).linkSend 2 false 0 dst (tplW e 0) (tplW e 2) (tplW e 4) prof [])) ∧
    (f.mlink.seen.find? (fun y => y.orig == orig && y.seq == seq) = none → Ends (.floodRelay orig seq) s f) ∧
    (∀ d ttl tgt data, f.mlink.seen.find? (fun y => y.orig == orig && y.seq == seq) = some sn → sn.relay = some (d, ttl, tgt, data) →
      (f.floodAt d = none → d ≤ f.tb4 → Ends (.floodRelay orig seq) s (unrelayed.count MSH_FLDCNT fMSH_FLDCNT_NOSLOT)) ∧
      (∀ t p, f.floodAt d = some (t, p) → t ≤ f.tb4 → Ends (.floodRelay orig seq) s
        ((unrelayed.count MSH_FLDCNT fMSH_FLDCNT_RELAYED).linkSend 4 false ttl 0xFFFF orig tgt seq p data))) ∧
    (m.mlink.seen.find? (fun y => y.orig == orig && y.seq == seq) = none → Ends (.seenAge orig seq) s m) ∧
    (m.mlink.seen.find? (fun y => y.orig == orig && y.seq == seq) = some sn → Ends (.seenAge orig seq) s
      (aged.mlinkMod fun l => { l with seen := l.seen.filter fun y =>
        !(y.orig == orig && y.seq == seq && decide (y.at_ + 60000000000 ≤ aged.tb4)) })) ∧
    Does .logPointerSave s (fun y => tabGet 0 y.mlink.savedPtr (m.mlink.saveSlot % 16) = m.mlink.delivered ∧
      y.mlink.saveSlot = (m.mlink.saveSlot + 1) % 16 ∧ (∀ k, k ≠ m.mlink.saveSlot % 16 → tabGet 0 y.mlink.savedPtr k = tabGet 0 m.mlink.savedPtr k) ∧
      y.keepsBut [.mlink] m) ∧
    (at_.mlink.queue = [] → Ends .lkCommandStart s at_) ∧
    (at_.mlink.queue = c :: q →
      (0 < late → late < 2 ^ 31 → Ends .lkCommandStart s (took.lkDone 0x10)) ∧
      (late = 0 → at_.rd MSH_MCTL fMSH_MCTL_MODE ≠ 2 → Ends .lkCommandStart s (took.lkDone 0x12)) ∧
      (late = 0 → at_.rd MSH_MCTL fMSH_MCTL_MODE = 2 → c.op = 1 → Ends .lkCommandStart s ((took.mlinkMod fun l =>
        { l with window := some ⟨none, 0, 0, false, false, some c.buf, c.profile, some (at_.tb4 + c.len * 1000000)⟩ }).mradSlot 3)) ∧
      (late = 0 → at_.rd MSH_MCTL fMSH_MCTL_MODE = 2 → c.op = 2 → Ends .lkCommandStart s
        (took.airQueue ⟨0, true, c.profile, at_.rd MSH_MCHAN fMSH_MCHAN_N, memRead at_.lc.sram (0xC000 + 256 * c.buf) c.len, false⟩)) ∧
      (late = 0 → at_.rd MSH_MCTL fMSH_MCTL_MODE = 2 → c.op = 4 → Ends .lkCommandStart s (took.meshCal c.profile))) ∧
    ((took.lkDone 0x10).mlink.busy = none ∧ tabGet 0 (took.lkDone 0x10).mlink.ports 0xF30D = 0x10 ∧
      (at_.lc.st / 2 = 0 ∨ at_.lc.fl.getLsbD 6 = false → (took.lkDone 0x10).lc.irq.getLsbD 2 = true)) ∧
    (m.lanternOn = false → Ends .lkNowRead s m) ∧
    (m.lanternOn = true → Ends .lkNowRead s ((m.mlinkMod fun l => { l with nowLatch := m.mlink.timer / 2000 % 2 ^ 32 }).setAnswer
      (BitVec.ofNat 32 (m.mlink.timer / 2000 % 256)))) ∧
    Does .ccmDone s (fun y => y.mlink.ccBusy = none ∧ tabGet 0 y.mlink.ports 0xF3C3 = 0 ∧
      tabGet 0 y.mlink.ports 0xF3C0 = tabGet 0 m.mlink.ports 0xF3C0 &&& 0xFE ∧ y.keepsBut [.mlink] m)

/-- MBOX_OPEN, MBOX_ACK, TPL_DATA, TPL_APPLY, NODE_ADD, NODE_DELETE, MESH_KEY, NBR_DEL, MESH_DOWN, MESH_FLOOD_ITEM and MBOX_BAD_ITEM take the item at the head of
their channel, with the lantern powered: before OPEN a command of channel 248 is answered NOT_OPEN and 249 and 250 are not read; each command then acts and is
answered with its status; an item of no KIND of its channel is answered BAD_KIND (R425, R429, R437, R439, R441, R442, R444 to R448; a mesh command of the host goes
on behind it, R602). -/
def Obligations.MailboxCommandsActAndAnswer : Prop :=
  ∀ (s : State) (ch kind off : Nat) (i : MItem) (r : Nat),
    let m := s.m
    let l := m.mlink
    let open_ := l.open_ = true
    let head (c k : Nat) := m.lanternOn = true ∧ m.itemPeek c = some i ∧ i.kind = k
    let t (c : Nat) := (m.itemTake c).1
    let notOpen (c : Instr) := Ends c s ((t 248).meshResp i 6 0).hifPump
    let o := tplW i.data 0
    let d := i.data.drop 2
    let staged := slice 0 (t 248).mlink.staged 0 4096
    (m.lanternOn = false → Ends .mboxOpen s m.hifPump ∧ Ends .mboxAck s m.hifPump ∧ Ends .tplData s m.hifPump ∧ Ends .meshDown s m.hifPump ∧
      Ends (.mboxBadItem ch) s m.hifPump) ∧
    (head 248 0x81 → Ends .mboxOpen s
      (let x := ((t 248).mlinkMod fun q => { q with open_ := true, swapTo := if q.force = q.live then q.swapTo else 1 }).wr SYS_DOMSTAT fSYS_DOMSTAT_MBOX_UP 1
       (((x.meshResp i 0 0).logAppend 2 0 255 (x.itemNow 0x04 0 0 0 [])).mboxDeliver).hifPump)) ∧
    (l.open_ = false → (head 248 0x82 → notOpen .mboxAck) ∧ (head 248 0x83 → notOpen .tplData) ∧ (head 248 0x84 → notOpen .tplApply) ∧
      (head 248 0x85 → tplB i.data 2 = 0 → notOpen .nodeAdd) ∧ (head 248 0x85 → tplB i.data 2 = 1 → notOpen .nodeDelete) ∧
      (head 248 0x86 → notOpen .meshKey) ∧ (head 248 0x87 → notOpen .nbrDel) ∧ (head 249 0x90 → Ends .meshDown s m.hifPump) ∧
      (head 250 0x91 → Ends .meshFloodItem s m.hifPump)) ∧
    (open_ → head 248 0x82 → ∀ it, tabGet none (t 248).mlink.out (tplB i.data 0) = some it →
      (it.mseq = tplW i.data 1 → Ends .mboxAck s (((((t 248).mlinkMod fun q =>
        { q with out := tabSet none q.out (tplB i.data 0) none }).meshResp i 0 0).mboxDeliver).hifPump)) ∧
      (it.mseq ≠ tplW i.data 1 → Ends .mboxAck s ((((t 248).meshResp i 0 0).mboxDeliver).hifPump))) ∧
    (open_ → head 248 0x83 →
      (4096 < o + d.length ∨ 224 < d.length → Ends .tplData s ((t 248).meshResp i 1 o).hifPump) ∧
      (o + d.length ≤ 4096 → d.length ≤ 224 → Ends .tplData s (((t 248).mlinkMod fun q =>
        { q with staged := staged.take o ++ d ++ staged.drop (o + d.length) }).meshResp i 0 0).hifPump)) ∧
    (open_ → head 248 0x84 →
      (tplCheck (t 248).mlink.staged = some off → Ends .tplApply s ((t 248).meshResp i 1 off).hifPump) ∧
      (tplCheck (t 248).mlink.staged = none → Ends .tplApply s (((t 248).mlinkMod fun q =>
        { q with apply := some (tplW i.data 0 + 65536 * tplW i.data 2, tplB i.data 4 % 2) }).meshResp i 0 0).hifPump)) ∧
    (open_ → head 248 0x85 → tplB i.data 2 = 0 → (t 248).mlink.nbrOf o = none → Ends .nodeAdd s (((t 248).mlinkMod fun q =>
      { q with nodes := tabSet none q.nodes o (some (tplW i.data 3 + 65536 * tplW i.data 5)) }).meshResp i 0 0).hifPump) ∧
    (open_ → head 248 0x85 → tplB i.data 2 = 1 → Ends .nodeDelete s (((t 248).mlinkMod fun q =>
      { q with nodes := tabSet none q.nodes o none }).meshResp i 0 0).hifPump) ∧
    (open_ → head 248 0x86 → Ends .meshKey s ((((t 248).mlinkMod fun q =>
      { q with key := slice 0 i.data 0 16, fcnt := 0, mark := 0, nodes := q.nodes.map fun e => (e.1, some 0),
               nbrs := q.nbrs.map fun e => (e.1, { e.2 with hi := 0, seen := 0 }) }).setReg MSH_FCNTOWN 0).meshResp i 0 0).hifPump) ∧
    (open_ → head 248 0x87 →
      ((t 248).mlink.nbrOf o = none → Ends .nbrDel s ((t 248).meshResp i 0 0).hifPump) ∧
      (∀ k, (t 248).mlink.nbrOf o = some k → Ends .nbrDel s (((t 248).setNbr k Nbr.zero).meshResp i 0 0).hifPump)) ∧
    (open_ → head 249 0x90 →
      (tabGet none (t 249).mlink.routes i.tgt = none → Ends .meshDown s ((t 249).meshResp i 2 0).hifPump) ∧
      (tabGet none (t 249).mlink.routes i.tgt = some r → (t 249).mlink.nbrOf r = none →
        (32 ≤ (t 249).mlink.down.length → Ends .meshDown s ((t 249).meshResp i 3 0).hifPump) ∧
        ((t 249).mlink.down.length < 32 → Ends .meshDown s (((t 249).mlinkMod fun q =>
          { q with down := q.down ++ [i] }).meshResp i 0 0).hifPump)) ∧
      (∀ k, tabGet none (t 249).mlink.routes i.tgt = some r → (t 249).mlink.nbrOf r = some k → (tabGet Nbr.zero (t 249).mlink.nbrs k).state = 3 →
        Ends .meshDown s ((t 249).meshResp i 4 0).hifPump)) ∧
    (open_ → head 250 0x91 → Ends .meshFloodItem s (((t 250).mlinkMod fun q => { q with floods := q.floods ++ [i] }).meshResp i 0 0).hifPump) ∧
    (open_ → head ch kind → 248 ≤ ch → ch ≤ 251 → kind < 0x81 ∨ 0x91 < kind ∨ ch = 251 → Ends (.mboxBadItem ch) s ((t ch).meshResp i 5 0).hifPump)

/-- LK_RX_WINDOW, LK_TX, LK_WAKE_BURST, LK_CAL, MB_END, LG_COMMIT, CCM_ENCRYPT and CCM_DECRYPT: LC's ports act on the write of their highest byte: a command of LK_CMD joins the
queue of eight at LK_AT; MB_CTL.END sends the item written on 252 to 255; LG_CTL.COMMIT makes the bytes written a log record; CC_CTL.GO seals or opens
the buffer behind its 17 bytes of associated data (CCM*, log 9), and CC_STAT shows a failed MIC; an item for a channel that is off is refused; without the lantern's
supply nothing happens (R193, R419, R428, R449, R453). -/
def Obligations.LanternPortsQueueSendAndCipher : Prop :=
  ∀ (s : State) (profile kind : BitVec 2) (buf len : Byte) (mic8 : Bool) (p : List Byte),
    let m := s.m
    let l := m.mlink
    let on := m.lanternOn = true
    let at_ := numLE ((List.range 4).map fun k => tabGet 0 l.ports (0xF304 + k))
    let queued (c : Instr) (cmd : LkCmd) := Does c s fun x => x.mlink.queue = (if 8 ≤ l.queue.length then l.queue else l.queue ++ [cmd]) ∧
      x.mlink = { l with queue := x.mlink.queue, ports := x.mlink.ports } ∧ x.keepsBut [.mlink] m
    let base := 0xC000 + 256 * buf.toNat
    let d := memRead m.lc.sram base len.toNat
    let nonce := linkNonce (m.reg MSH_NETID).toNat (tplW d 4) (tplW d 6 + 65536 * tplW d 8) (if mic8 then 2 else 1)
    let mic := if mic8 then 8 else 4
    let body := d.drop 17
    let sram (x : Mach) (b : List Byte) := x.lc = { m.lc with sram := memWrite m.lc.sram (base + 17) b }
    (m.lanternOn = false → Ends (.lkRxWindow profile buf len) s m ∧ Ends (.lkTx profile buf len) s m ∧ Ends (.lkWakeBurst len) s m ∧ Ends (.lkCal kind) s m ∧
      Ends .mbEnd s m ∧ Ends .lgCommit s m ∧ Ends (.ccmEncrypt mic8 buf len) s m ∧ Ends (.ccmDecrypt mic8 buf len) s m) ∧
    (on → queued (.lkRxWindow profile buf len) ⟨at_, 1, profile.toNat, buf.toNat, len.toNat⟩ ∧
      queued (.lkTx profile buf len) ⟨at_, 2, profile.toNat, buf.toNat, len.toNat⟩ ∧ queued (.lkWakeBurst len) ⟨at_, 3, 0, 0, len.toNat⟩ ∧
      queued (.lkCal kind) ⟨at_, 4, kind.toNat, 0, 0⟩) ∧
    (∀ c, on → 252 ≤ c → tabGet 0 l.ports 0xF340 = BitVec.ofNat 8 c → c ≤ 255 →
      let y := m.mlinkMod fun x => { x with ports := tabSet 0 x.ports 0xF348 1 }
      (m.chOn c = true → Ends .mbEnd s ((y.chReceive c (itemWords l.mbOut)).mlinkMod fun x => { x with mbOut := [] }).hifPump) ∧
      (m.chOn c = false → Ends .mbEnd s ((y.chRefuse portLC c).mlinkMod fun x => { x with mbOut := [] }).hifPump)) ∧
    (on → Does .lgCommit s fun x => x.mlink.lgBuf = [] ∧ x.mlink.lseq = l.lseq + 1 ∧
      x.mlink.log = (logTrim l.delivered (l.log ++ [⟨tplB l.lgBuf 0 % 16, tplB l.lgBuf 0 / 16, tplB l.lgBuf 1,
        ⟨tplB l.lgBuf 3, 0, 0, tplW l.lgBuf 4, 0, tplW l.lgBuf 6, tplW l.lgBuf 8, tplW l.lgBuf 10 + 65536 * tplW l.lgBuf 12,
          slice 0 l.lgBuf 16 (tplB l.lgBuf 2)⟩, l.lseq + 1⟩])).1 ∧ x.keepsBut [.mlink, .regs] m) ∧
    (on → l.ccBusy = none →
      Does (.ccmEncrypt mic8 buf len) s (fun x =>
        sram x (ccmSeal mic l.key nonce (d.take 17) body) ∧ x.mlink.ccBusy = some 0 ∧
        tabGet 0 x.mlink.ports 0xF3C3 = 0x80 ∧ x.keepsBut [.mlink, .lc] m) ∧
      (ccmOpen mic l.key nonce (d.take 17) body = some p → Does (.ccmDecrypt mic8 buf len) s fun x =>
        sram x p ∧ x.mlink.ccBusy = some 1 ∧ tabGet 0 x.mlink.ports 0xF3C4 = 0 ∧ x.keepsBut [.mlink, .lc] m) ∧
      (ccmOpen mic l.key nonce (d.take 17) body = none → Does (.ccmDecrypt mic8 buf len) s fun x =>
        x.lc = m.lc ∧ x.mlink.ccBusy = some 1 ∧ tabGet 0 x.mlink.ports 0xF3C4 = 1 ∧ x.keepsBut [.mlink, .lc] m))

/-! ### Uplinks and the router (12_uplinks.md, 13_router.md) -/

/-- ETH_RX_FRAME, SEND, ETH_TX_END, TXTS_READ, the PAUSE commands, GCL_CHANGE, GCL_START, GATE_INTERVAL_END, the LPI commands and ETH_LINK_CHANGE: a bad or long frame is
dropped and counted; a SEND outside R458 is refused, one with a stale handle is counted, another joins its queue; a frame's end stamps, returns the handle and lets the
port choose; an item that its channel does not take is refused and its frame freed (log 65); a pause, its storm and their ends set the priority's bits; a bad list shows STATUS 3, another waits for the beat start, and starts at its instant; an idle
port enters low-power idle and wakes; a link shows in LAG.UP (R193, R455 to R459, R462, R464, R466 to R471, R473, R493, R701). -/
def Obligations.UplinkPortsSendReceiveAndPause : Prop :=
  ∀ (s : State) (p : Fin 5) (q : Fin 8) (n : Fin 16) (id age h speed : Nat) (bytes : List Byte) (fcsOk pfc idle up : Bool) (en : BitVec 8)
      (quanta : List (BitVec 16)) (v : BitVec 32) (a : Acc) (g : Gates) (e : TxEnt) (l : List (Nat × Nat)),
    let m := s.m
    let t := m.getPort p.val
    let stat := UPL_Pp_STAT p.val
    let bit (lo : Nat) : BitVec 32 := 1#32 <<< (lo + q.val)
    let alive := m.rd (UPL_Pp_CFG p.val) fUPL_Pp_CFG_MODE ≠ 0 ∧ m.bit stat fUPL_Pp_STAT_LINK = true
    let unit := m.openAcc n.val id = some a ∧ ptrClass a.far = 7 ∧ ptrAddr a.far / 256 % 256 = 0x50 + p.val ∧ ptrAddr a.far % 256 = 1
    let w (i : Nat) : TWord := a.src.getD i 0
    let d := payN (w 1)
    let len := payN (w 2)
    let good := a.len = 1 ∧ wTag (w 0) = tagPKT ∧ wTag (w 1) = tagDESC ∧ d % 2 ^ 48 = 0 ∧ isInt (w 2) = true ∧ 64 ≤ len ∧
      len + 4 ≤ m.maxLen p.val ∧ wTag (w 3) = tagNIL
    let ent : TxEnt := ⟨h, len, d / 2 ^ 56 % 2 == 1, d / 2 ^ 48 % 256, none, m.accRun n.val a⟩
    let idleNow := m.portMod p.val fun t => { t with busy := 0, cur := none }
    let clear (x : Mach) := (x.setReg stat (x.reg stat &&& ~~~bit 8)).portMod p.val fun u => { u with paused := tabSet (0, 0) u.paused q.val (0, 0) }
    let pause := tabGet (0, 0) t.paused q.val
    let quantum (n : Nat) := 512000 * n / m.portRate p.val
    let dog := m.rd (UPL_Pp_PWDOG p.val) fUPL_Pp_PWDOG_PAUSE_MAX
    let late := m.reach (pause.1 + 1000000 * dog)
    let storm := (((late.setReg stat (late.reg stat ||| bit 16)).count (UPL_Pp_CNT1 p.val) fUPL_Pp_CNT1_PAUSE_STORM).event 0x0E01 p.val [(1, q.val)]).portMod
      p.val fun u => { u with ignoreTo := tabSet 0 u.ignoreTo q.val ((late.getBase 0).nsTotal + 1000000 * max 1 (m.rd (UPL_Pp_PWDOG p.val) fUPL_Pp_PWDOG_PAUSE_IGNORE)) }
    let again := m.reach (t.pauseAt + quantum (max 1 (m.rd (UPL_Pp_PQUANTA p.val) fUPL_Pp_PQUANTA_QUANTA)) / 2)
    let wake := m.accessWake (UPL_Pp_GCTL p.val)
    let ctl := wake.plainWrite (UPL_Pp_GCTL p.val) (putFld (putFld v fUPL_Pp_GCTL_CHANGE 1) fUPL_Pp_GCTL_CHANGE 0)
    let now := (m.getBase 0).nsTotal
    (¬ alive → Ends (.ethRxFrame p bytes fcsOk age) s m) ∧
    (alive → fcsOk = false → Ends (.ethRxFrame p bytes fcsOk age) s (m.count (UPL_Pp_CNT0 p.val) fUPL_Pp_CNT0_RX_FCS)) ∧
    (alive → fcsOk = true → m.maxLen p.val < bytes.length + 4 → Ends (.ethRxFrame p bytes fcsOk age) s (m.count (UPL_Pp_CNT0 p.val) fUPL_Pp_CNT0_RX_LONG)) ∧
    (alive → fcsOk = true → bytes.length + 4 ≤ m.maxLen p.val → 64 ≤ bytes.length + 4 → Config.rxData p.val = false →
      ((m.storeFrame bytes p.val (frameTag bytes).1).2 = none → Ends (.ethRxFrame p bytes fcsOk age) s (m.storeFrame bytes p.val (frameTag bytes).1).1) ∧
      (m.cellsFree < max 1 ((m.headroom + bytes.length + 255) / 256) →
        Ends (.ethRxFrame p bytes fcsOk age) s (m.count RTE_CNT0 fRTE_CNT0_NOCELL)) ∧
      ((m.storeFrame bytes p.val (frameTag bytes).1).2 = some h →
        let held := (m.storeFrame bytes p.val (frameTag bytes).1).1
        let ch := m.rd (UPL_Pp_RXCH p.val) fUPL_Pp_RXCH_CH
        let took := held.chReceive ch (sideWords true true 16 0 true 0 true
          [held.rxDesc h p.val ((now - age + m.rd (UPL_Pp_TSDLY p.val) fUPL_Pp_TSDLY_RX / 10) % 2 ^ 60) bytes])
        (held.chTakes portUPL ch = false → Ends (.ethRxFrame p bytes fcsOk age) s ((held.chRefuse portUPL ch).consume h)) ∧
        (held.chTakes portUPL ch = true → took.chFlushed ch = false → Ends (.ethRxFrame p bytes fcsOk age) s took) ∧
        (held.chTakes portUPL ch = true → took.chFlushed ch = true → Ends (.ethRxFrame p bytes fcsOk age) s
          ((took.count (UPL_Pp_CNT1 p.val) fUPL_Pp_CNT1_RX_FLUSHED).consume h)))) ∧
    (unit → ¬ good → Ends (.send n id p) s (m.serve n.val id 4 [])) ∧
    (unit → good → m.handle (w 0) = none → Ends (.send n id p) s ((m.count RTE_CNT1 fRTE_CNT1_STALE).serve n.val id 4 [])) ∧
    (unit → good → m.handle (w 0) = some h →
      (512 ≤ (m.txq p.val (d / 2 ^ 57)).length → Ends (.send n id p) s ((m.count (UPL_Pp_CNT1 p.val) fUPL_Pp_CNT1_QFULL).serve n.val id 4 [])) ∧
      ((m.txq p.val (d / 2 ^ 57)).length < 512 → Ends (.send n id p) s
        ((((m.portMod p.val fun t => { t with queues := tabMod [] t.queues (d / 2 ^ 57) (· ++ [ent]) }).txChoose p.val).spillCheck).serve n.val id 0 []))) ∧
    (t.busy = 0 → Ends (.ethTxEnd p age) s m) ∧
    (t.busy ≠ 0 → t.cur = none → Ends (.ethTxEnd p age) s (idleNow.txChoose p.val)) ∧
    (t.busy ≠ 0 → t.cur = some e → e.tsreq = false → Ends (.ethTxEnd p age) s ((idleNow.consume e.head).txChoose p.val)) ∧
    (t.busy ≠ 0 → t.cur = some e → e.tsreq = true → Ends (.ethTxEnd p age) s
      ((((((idleNow.portMod p.val fun t => { t with stamps := t.stamps ++
        [(now - age + m.rd (UPL_Pp_TSDLY p.val) fUPL_Pp_TSDLY_TX / 10, e.tstag)] }).stampShow p.val).event 0x0E04 p.val [(1, e.tstag)]).consume
          e.head)).txChoose p.val)) ∧
    Ends (.txtsRead p) s ((((m.setAnswer (m.reg (UPL_Pp_TXTS2 p.val))).portMod p.val fun t =>
      { t with stamps := t.stamps.drop 1 }).stampShow p.val).txChoose p.val) ∧
    (m.bit (UPL_Pp_FC p.val) fUPL_Pp_FC_RX_HONOUR = false ∨ (p = 4 ∧ pfc = true) → Ends (.pauseReceive p pfc en quanta) s m) ∧
    (m.bit (UPL_Pp_FC p.val) fUPL_Pp_FC_RX_HONOUR = true → p ≠ 4 → pfc = true → en = 1#8 <<< q.val →
      ((m.reg stat).getLsbD (16 + q.val) = true → Ends (.pauseReceive p pfc en quanta) s
        ((m.portMod p.val fun u => { u with ignored := tabMod 0 u.ignored q.val (· + 1) }).txChoose p.val)) ∧
      ((m.reg stat).getLsbD (16 + q.val) = false → Ends (.pauseReceive p pfc en quanta) s
        ((if quanta.getD q.val 0 = 0 then clear m else (m.setReg stat (m.reg stat ||| bit 8)).portMod p.val fun u =>
          { u with paused := tabSet (0, 0) u.paused q.val
                                (if (m.reg stat).getLsbD (8 + q.val) then (tabGet (0, 0) u.paused q.val).1 else now, now + quantum (quanta.getD q.val 0).toNat) }).txChoose p.val))) ∧
    ((m.reg stat).getLsbD (8 + q.val) = true → Ends (.pauseExpire p q) s ((clear (m.reach pause.2)).txChoose p.val)) ∧
    ((m.reg stat).getLsbD (8 + q.val) = true → dog ≠ 0 → pause.1 + 1000000 * dog ≤ pause.2 → Ends (.pauseWatchdog p q) s ((clear storm).txChoose p.val)) ∧
    ((m.reg stat).getLsbD (8 + q.val) = false → Ends (.pauseWatchdog p q) s m ∧ Ends (.pauseExpire p q) s m) ∧
    ((m.reg stat).getLsbD (16 + q.val) = true → Ends (.pauseIgnoreEnd p q) s
      ((m.reach (tabGet 0 t.ignoreTo q.val)).setReg stat ((m.reach (tabGet 0 t.ignoreTo q.val)).reg stat &&& ~~~bit 16))) ∧
    ((m.reg stat).getLsbD (16 + q.val) = false → Ends (.pauseIgnoreEnd p q) s m) ∧
    (t.pauseSent = 0 → Ends (.pauseResend p) s m) ∧
    (t.pauseSent ≠ 0 → Ends (.pauseResend p) s ((again.portMod p.val fun t => { t with pauseDue := true }).txChoose p.val)) ∧
    (ctl.gateAdmin p.val = none → Ends (.gclChange p v) s (ctl.wr (UPL_Pp_GCTL p.val) fUPL_Pp_GCTL_STATUS 3)) ∧
    (ctl.gateAdmin p.val = some l → Ends (.gclChange p v) s
      ((ctl.wr (UPL_Pp_GCTL p.val) fUPL_Pp_GCTL_CHANGE 1).portMod p.val fun t => { t with change := true })) ∧
    (t.next = none → Ends (.gclStart p) s m) ∧
    (t.next = some g → Ends (.gclStart p) s ((((((m.reach g.start).portMod p.val fun t => { t with oper := some g, next := none }).wr (UPL_Pp_GCTL p.val)
      fUPL_Pp_GCTL_CHANGE 0).wr (UPL_Pp_GCTL p.val) fUPL_Pp_GCTL_STATUS 2).event 0x0E03 p.val [(4, g.start % 1000000000)]).txChoose p.val)) ∧
    (t.oper = none → Ends (.gateIntervalEnd p) s m) ∧
    (∀ x r, t.oper = some g → g.ahead now = x :: r → Ends (.gateIntervalEnd p) s ((m.reach (now + (x.1 - g.pos now))).txChoose p.val)) ∧
    (p ≠ 4 → m.bit (UPL_Pp_LPICTL p.val) fUPL_Pp_LPICTL_EN = true → t.waiting = false → t.busy = 0 → t.lpi = 0 → m.bit stat fUPL_Pp_STAT_LINK = true →
      Ends (.lpiEnter p) s (((m.reach (t.emptyAt + 1000 * m.rd (UPL_Pp_LPICTL p.val) fUPL_Pp_LPICTL_IDLE_US)).wr stat fUPL_Pp_STAT_LPI_TX 1).portMod p.val
        fun t => { t with lpi := 1 })) ∧
    (p = 4 ∨ t.waiting = true → Ends (.lpiEnter p) s m) ∧
    (t.lpi = 2 → Ends (.lpiWakeDone p) s ((((m.reach t.wakeAt).wr stat fUPL_Pp_STAT_LPI_TX 0).portMod p.val fun t => { t with lpi := 0 }).txChoose p.val)) ∧
    (t.lpi ≠ 2 → Ends (.lpiWakeDone p) s m) ∧
    (p ≠ 4 → Ends (.lpiRxSignal p idle) s (m.wr stat fUPL_Pp_STAT_LPI_RX (if idle then 1 else 0))) ∧
    (p = 4 → Ends (.lpiRxSignal p idle) s m) ∧
    (up = true → m.rd (UPL_Pp_CFG p.val) fUPL_Pp_CFG_MODE = 0 → Ends (.ethLinkChange p speed up) s m) ∧
    (up = false → t.busy ≠ 0 → Does (.ethLinkChange p speed up) s fun x => x.bit stat fUPL_Pp_STAT_LINK = false ∧
      (p ≠ 4 → ∀ k, k < 2 → (x.rd (RTE_LAGg_CFG k) fRTE_LAGg_CFG_UP).testBit p.val = false) ∧ x.keepsBut [.regs] m)

/-- PULL, SENDV, REF, BUF_FREE, HASH_FIND, HASH_INSERT, HASH_DELETE, LPM_LOOKUP, POL_JUDGE, INTAKE_PARSE, SPILL_COPY_DONE and UNSPILL_DONE: a request with a bad
header, or to a table of another kind, is refused and counted, nothing done; PULL takes the oldest frames with their parse words; a stale handle answers 1 and
is counted; REF and FREE change references, a run's at its commit; FIND, INSERT and DELETE answer STATUS, index and result; JUDGE 0 CONFORM, 1 DROP, 2 MARK; a queue
parses its next frame; a copy near its queue's head is abandoned, and a frame there comes back (R477 to R484, R488, R490, R494 to R496). -/
def Obligations.RouterServesRequestsAndMovesFrames : Prop :=
  ∀ (s : State) (n q : Fin 16) (id h i : Nat) (a : Acc) (r : UnitReq) (x : Arrive) (rest : List Arrive) (b : List Byte) (it : List TWord),
    let m := s.m
    let at_ (u o : Nat) := m.openAcc n.val id = some a ∧ ptrClass a.far = 7 ∧ ptrAddr a.far / 256 % 256 = u ∧ ptrAddr a.far % 256 = o
    let runs := m.bit RTE_CTL fRTE_CTL_RUN = true
    let no (c : Instr) := Ends c s ((m.count RTE_CNT1 fRTE_CNT1_REFUSED).serve n.val id 4 [])
    let run := m.accRun n.val a
    let one (w : Nat) := unitReq a.src = some r ∧ r.count = 1 ∧ r.items.take w = it ∧ it.length = w ∧ runs
    let gives (c : Instr) (y : Mach × TWord) := Ends c s (y.1.serve n.val id 0 [(r.result, y.2)])
    let w0 := it.getD 0 0
    let pieces := if r.pieces = 0 then m.tblKeyw r.sel else r.pieces
    let hash := m.hashOk r.sel = true ∧ pieces ≤ m.tblKeyw r.sel ∧ (∀ w ∈ it, isInt w = true) ∧ r.result + 2 ≤ 8192
    let key := m.keyPad r.sel ((it.take pieces).map fun w => payN w % 2 ^ 32)
    let answers (c : Instr) (y : Mach × HAns) := Ends c s (y.1.serve n.val id 0 (unitResults r (y.2.words (spreadOf (keyHash key)))))
    let list := (tabGet [] m.rte.intake r.sel).take r.count
    let words (y : Parsed × Nat) : List (Nat × TWord) :=
      (List.range 8).map fun k => (r.result + 2 + 8 * y.2 + k, if k = 0 then m.pktOf y.1.head else y.1.words.getD (k - 1) 0)
    let pulled := m.rteMod fun y =>
      { y with intake := tabSet [] y.intake r.sel ((tabGet [] m.rte.intake r.sel).drop r.count),
               pulled := if run = 0 then y.pulled else y.pulled ++ list.map fun p => (run, r.sel, p) }
    let y := m.head h
    let near := match m.txPlace h with | some k => decide (k ≤ m.unspill) | none => true
    let needs := (y.off + y.len + 255) / 256 - 1
    (unitReq a.src = none → (at_ 0x60 1 → no (.pull n id)) ∧ (at_ 0x60 2 → no (.sendv n id)) ∧ (at_ 0x60 3 → no (.ref n id)) ∧ (at_ 0x60 4 → no (.bufFree n id)) ∧
      (at_ 0x61 1 → no (.hashFind n id)) ∧ (at_ 0x61 2 → no (.hashInsert n id)) ∧ (at_ 0x61 3 → no (.hashDelete n id)) ∧
      (at_ 0x62 1 → no (.lpmLookup n id)) ∧ (at_ 0x63 1 → no (.polJudge n id))) ∧
    (unitReq a.src = some r → m.tblKind r.sel ≠ 1 → (at_ 0x61 1 → no (.hashFind n id)) ∧ (at_ 0x61 2 → no (.hashInsert n id)) ∧
      (at_ 0x61 3 → no (.hashDelete n id))) ∧
    (unitReq a.src = some r → m.tblKind r.sel ≠ 2 → m.tblKind r.sel ≠ 3 → at_ 0x62 1 → no (.lpmLookup n id)) ∧
    (at_ 0x60 1 → unitReq a.src = some r → runs → r.result + 2 + 8 * r.count ≤ 8192 → Ends (.pull n id) s
      (pulled.serve n.val id 0 ((r.result, intWord list.length) :: ((list.zip (List.range list.length)).map words).flatten))) ∧
    (at_ 0x60 3 → one 2 →
      (wTag w0 ≠ tagPKT ∨ isInt (it.getD 1 0) = false ∨ payN (it.getD 1 0) = 0 ∨ 14 < payN (it.getD 1 0) →
        gives (.ref n id) (m.count RTE_CNT1 fRTE_CNT1_REFUSED, intWord 6)) ∧
      (wTag w0 = tagPKT → isInt (it.getD 1 0) = true → 1 ≤ payN (it.getD 1 0) → payN (it.getD 1 0) ≤ 14 →
        (m.handle w0 = none → gives (.ref n id) (m.count RTE_CNT1 fRTE_CNT1_STALE, intWord 1)) ∧
        (m.handle w0 = some h → m.rte.acts = [] → y.ref + payN (it.getD 1 0) ≤ 15 → run ≠ 0 → gives (.ref n id)
          (m.rteMod fun z => { z with acts := [⟨run, h, payN (it.getD 1 0)⟩] }, intWord 0)))) ∧
    (at_ 0x60 4 → one 1 → wTag w0 = tagPKT →
      (m.handle w0 = none → gives (.bufFree n id) (m.count RTE_CNT1 fRTE_CNT1_STALE, intWord 1)) ∧
      (m.handle w0 = some h → run = 0 → gives (.bufFree n id) (m.consume h, intWord 0)) ∧
      (m.handle w0 = some h → run ≠ 0 → gives (.bufFree n id) (m.rteMod fun z => { z with acts := z.acts ++ [⟨run, h, 0⟩] }, intWord 0))) ∧
    (at_ 0x60 2 → one 4 → gives (.sendv n id) (m.sendvItem run it)) ∧
    (at_ 0x60 2 → one 4 → wTag w0 = tagPKT → wTag (it.getD 1 0) = tagDESC → payN (it.getD 1 0) = 2 ^ 58 → isInt (it.getD 2 0) = true → wTag (it.getD 3 0) = tagNIL →
      m.handle w0 = some h → run = 0 → gives (.sendv n id) (m.consume h, intWord 0)) ∧
    (hash → (at_ 0x61 1 → one pieces → answers (.hashFind n id) (m.hashFind r.sel key r.touch)) ∧
      (at_ 0x61 2 → one (pieces + 1) → answers (.hashInsert n id) (m.hashInsert r.sel key (payN (it.getD pieces 0)) false)) ∧
      (at_ 0x61 3 → one pieces → answers (.hashDelete n id) (m.hashDelete r.sel key))) ∧
    (at_ 0x62 1 → one 1 → m.tblKind r.sel = 2 → isInt w0 = true → gives (.lpmLookup n id) (m.lpmLookup r.sel (payN w0 % 2 ^ 32))) ∧
    (at_ 0x63 1 → one 1 → isInt w0 = true →
      let pol := m.wpol (payN w0 % 4096)
      (0 ≤ pol.credit → gives (.polJudge n id) (m.setWpol (payN w0 % 4096)
        { pol with credit := max (pol.credit - ((payN w0 / 2 ^ 14 % 2 ^ 14 + 24) * 1000 : Nat)) (pol.lo * 1000) }, intWord 0)) ∧
      (pol.credit < 0 → gives (.polJudge n id) (m, intWord (if pol.action = 0 then 1 else 2)))) ∧
    (m.bit RTE_CTL fRTE_CTL_RUN = false ∨ m.bit (RTE_INq q.val) fRTE_INq_EN = false ∨ 2048 ≤ (tabGet [] m.rte.intake q.val).length → Ends (.intakeParse q) s m) ∧
    (runs → m.bit (RTE_INq q.val) fRTE_INq_EN = true → (tabGet [] m.rte.intake q.val).length < 2048 → m.bit (RTE_INq q.val) fRTE_INq_AIR = true →
      m.rte.air = x :: rest → Ends (.intakeParse q) s ((m.rteMod fun z => { z with air := rest }).parseInto q.val x)) ∧
    (y.copying = none → Ends (.spillCopyDone h) s m) ∧
    (y.copying = some i → near = true → Ends (.spillCopyDone h) s
      ((((m.frameBytes h).1.rteMod fun z => { z with slots := tabSet false z.slots i false }).setHead h { y with copying := none }).spillCheck)) ∧
    (y.copying = some i → near = false → (m.frameBytes h).2 = some b → Ends (.spillCopyDone h) s
      ((((((Mach.dramBytes (b.length / 16 + 1) (m.frameBytes h).1 (m.spillAddr i) b).freeCells y.cells).setHead h
        { y with copying := none, spill := some i, cells := [] }).count RTE_CNT0 fRTE_CNT0_SPILLS).count RTE_STAT fRTE_STAT_SPILLED).pauseCheck y.port).spillCheck) ∧
    (y.spill = none ∨ m.txPlace h = none → Ends (.unspillDone h) s m) ∧
    (∀ k, y.spill = some i → m.txPlace h = some k →
      (m.unspill < k ∨ m.cellsFree < needs → Ends (.unspillDone h) s m) ∧
      (k ≤ m.unspill → needs ≤ m.cellsFree → (m.frameBytes h).2 = some b →
        let t := Mach.takeCells needs (m.frameBytes h).1
        Ends (.unspillDone h) s
          (((((t.1.rteMod fun z => { z with slots := tabSet false z.slots i false }).setHead h { y with spill := none, cells := t.2 }).wr RTE_STAT
            fRTE_STAT_SPILLED (m.rd RTE_STAT fRTE_STAT_SPILLED - 1)).putSpans (cellSpans y.len y.off (h :: t.2)) b).pauseCheck y.port).spillCheck))

/-! ### Memory, settings, check channels and time (14_memory.md, 15_time.md) -/

/-- DRAM_REQUEST, POISON_NOTE_RECEIVE, MEMWIN_OPEN, REFRESH_INTERVAL, REFRESH_DONE, MR4_READ, MEM_TRAIN, TRAIN_DONE, SCRUB_READ, NVM_SCRUB,
SETTINGS_LOCK, REGREC_WRITE, VBAK_GOOD_RISE, VBAK_GOOD_FALL, CHK_GO, CHK_ABORT and CHK_DONE: a request joins its bank's queue of 16, its sender
held behind a full one; a note is counted, recorded and told; a retraining window of the running armature adjusts its channels; debts rise, fall, force
a refresh above 8 and are recomputed at a new rate; training ends TRAINED or TRAIN_FAIL; a scrub writes back what it corrected and nothing
else; the key written twice locks; the record is kept; a channel's scan starts, ends DONE, POISON, REFUSED or ABORTED, and answers BUSY on 7
(R507, R510 to R513, R515 to R519, R522 to R525, R530 to R532, R536 to R541, R544, R548, R685, R735; how the rows carry a measurement is log 12). -/
def Obligations.MemoryServesRefreshesTrainsScrubsAndChecks : Prop :=
  ∀ (s : State) (addr len i n k osc : Nat) (write met : Bool) (words : List Code) (c : Fin 4) (b : Fin 16) (ch : Fin 8) (rr : BitVec 5)
      (drift : Nat) (v : BitVec 32) (fail : BitVec 4) (j : Fin 32) (host : List Byte) (w : MemWin) (note : Note) (rest : List Note) (x : QWord),
    let m := s.m
    let span := if write then words.length else len
    let p := m.dramPlace addr
    let bank := m.dbank p.1 p.2.1
    let q : DramReq := ⟨addr, write, words, len, 0⟩
    let hi : Fld := ⟨8 * p.1 + 4, 8 * p.1⟩
    let req := Instr.dramRequest addr write words len
    let others (y : Mach) := ∀ d e, d < 4 → e < 16 → (d, e) ≠ (p.1, p.2.1) → y.dbank d e = m.dbank d e
    let here := m.dbank c.val b.val
    let rate := min 2 (Config.mr4Mult rr)
    let mult := m.rd MEM_TEMP (memMult c.val)
    let trefi := m.rd MEM_REFCTL fMEM_REFCTL_TREFI_NS
    let due := here.since + (if mult = 0 then 4 else if mult = 1 then 2 else 1) * trefi
    let elapsed := m.reachQuarter due
    let trfc := m.rd MEM_REFCTL fMEM_REFCTL_TRFCPB_NS
    let idle := m.reachQuarter (max (tabGet 0 m.mem.issued c.val + 4 * m.rd MEM_REFCTL fMEM_REFCTL_TPBR_NS) here.freeAt + 4 * trfc)
    let mayRefresh := here.debt ≠ 0 ∧ (here.forced = true ∨ idle.winOpen 0 c.val (idle.tb5 - trfc) = true)
    let opens := m.reachFine (m.beat * m.beatNs + w.start * m.beatNs / 256)
    let m4 := match tabGet none m.mem.mr4At c.val with | some t => m.reachQuarter (t + 64000000) | none => m
    let r4 := m4.memMod fun z => { z with mr4At := tabSet none z.mr4At c.val (some m4.quarters), osc := tabSet 0 z.osc c.val osc }
    let seen := (r4.wr MEM_TEMP (memMult c.val) rate).wr MEM_TEMP ⟨8 * c.val + 4, 8 * c.val⟩ rr.toNat
    let told := if rate = mult then seen else seen.recount c.val (multRate mult) (multRate rate)
    let quiet (y : Mach) := y.memMod fun z => { z with drift := tabSet 0 z.drift c.val 0 }
    let ctl := m.plainWrite MEM_CTL (putFld (putFld v fMEM_CTL_TRAIN 1) fMEM_CTL_TRAIN 0)
    let trained := (m.wr MEM_CTL fMEM_CTL_TRAIN 0).wr MEM_STAT fMEM_STAT_FAILCH fail.toNat
    let scrubs := m.bit MEM_SCRUB fMEM_SCRUB_EN = true
    let at_ := m.mem.scrubAt
    let sat := m.mem.scrubSram
    let dWord := dramWord m.mem.dram at_
    let sWord := storeGet m.mem.sram (sat / 16)
    let nWord := storeGet m.nvm.cells i
    let scrubOpen := m.winOpen 1 (m.dramPlace at_).1 m.tb5 = true
    let dEnd (y : Mach) := if m.dramTop ≤ at_ + 16 then
      (let d := (y.memMod fun z => { z with scrubAt := 0, scrubSince := m.tim.run }).count MEM_SCRSTAT fMEM_SCRSTAT_PASSES
       if m.mem.scrubSince + max 1 (m.rd MEM_SCRUB fMEM_SCRUB_DRAM_H) * 1440000000000 < m.tim.run then d.count MEM_SCRSTAT fMEM_SCRSTAT_LATE else d)
      else y.memMod fun z => { z with scrubAt := at_ + 16 }
    let sEnd (y : Mach) := if 0x1C00000 ≤ sat + 16 then
      (let d := y.memMod fun z => { z with scrubSram := 0, sramSince := m.tim.run }
       if m.mem.sramSince + max 1 (m.rd MEM_SCRUB fMEM_SCRUB_SRAM_MIN) * 24000000000 < m.tim.run then d.count MEM_SCRSTAT fMEM_SCRSTAT_SRAM_LATE else d)
      else y.memMod fun z => { z with scrubSram := sat + 16 }
    let t := n % 16
    let ix := lmIndex m.actBank (2 * i)
    let pair := storeGet (m.getTe t).lmem ix
    let q3 := m.getChan n
    let good := m.regOk = true ∧ m.bit SYS_DOMSTAT fSYS_DOMSTAT_VBAK_GOOD = true ∧ m.lanternOn = true
    let keyed := m.nvmMod fun y => { y with keyOnce := false }
    let image := keyed.settingsBody ++ sealBlock keyed.settingsBody
    let back := (keyed.nvmBytes nvmSettings (codesOf image)).nvBytes nvmSettings (keyed.settingsBody.length + 16)
    let rec_ := (m.plainWrite (NVM_REGRECj j.val) v).regShow
    let kept := rec_.nvmBytes (nvmSettings + j.val / 4 * 16) (codesOf (slice 0 rec_.regRecord (j.val / 4 * 16) 16))
    let risen := m.wr SYS_DOMSTAT fSYS_DOMSTAT_VBAK_GOOD 1
    let fallen := m.wr SYS_DOMSTAT fSYS_DOMSTAT_VBAK_GOOD 0
    let a := CHK_Cc_CTL ch.val
    let st := CHK_Cc_STAT ch.val
    let go := putFld v fCHK_Cc_CTL_GO 1
    let awake := m.accessWake a
    let took := awake.setReg a (mergeMask (awake.reg a) go 0x3BFFFF80)
    let scans := m.rd st fCHK_Cc_STAT_STATUS = 1 ∧ ch ≠ 7
    let size := (m.reg (CHK_Cc_LEN ch.val)).toNat
    let read (g : Nat) := m.chkRead ch.val g host
    (m.dramTop < addr + 16 * span → Ends req s m) ∧
    (addr + 16 * span ≤ m.dramTop → Does req s fun y => others y ∧ y.keepsBut [.regs, .mem] m ∧
      (bank.queue.length < 16 → y.dbank p.1 p.2.1 = { bank with queue := bank.queue ++ [{ q with seq := m.mem.arrivals }] } ∧
        y.mem.arrivals = m.mem.arrivals + 1 ∧
        y.rd MEM_QSTAT hi = max (m.rd MEM_QSTAT hi) (bank.queue.length + 1)) ∧
      (16 ≤ bank.queue.length → y.dbank p.1 p.2.1 = { bank with held := bank.held ++ [q] })) ∧
    (m.flt.notes = [] → Ends .poisonNoteReceive s m) ∧
    (m.flt.notes = note :: rest → Ends .poisonNoteReceive s
      ((((m.fltMod fun f => { f with notes := rest }).count FLT_POISCNT fFLT_POISCNT_NOTES).faultRecord
        ⟨2, note.src, 0, 0, 0, 0, 0, note.place * 2 ^ 20 + note.s1.toNat * 2 ^ 8 + note.s0.toNat, note.addr⟩).event 0x1502 0
          [(1, note.place), (4, note.addr)])) ∧
    (m.act.memwin[i]? = none ∨ m.actValid = false → Ends (.memwinOpen i) s m) ∧
    (m.act.memwin[i]? = some w → m.actValid = true →
      (w.beat = m.bidx → w.kind = 3 → Ends (.memwinOpen i) s (opens.forEach ((List.range 4).filter fun d => w.mask.testBit d) fun y d =>
        (y.count MEM_RTCTL fMEM_RTCTL_RETRAINS).memMod fun z => { z with
          drift := tabSet 0 z.drift d 0, trim := tabSet 0 z.trim d (tabGet 0 z.osc d) })) ∧
      (w.beat = m.bidx → w.kind ≠ 3 → Ends (.memwinOpen i) s opens) ∧
      (w.beat ≠ m.bidx → Ends (.memwinOpen i) s m)) ∧
    Does (.refreshInterval c b) s (fun y =>
      y.dbank c.val b.val = { here with
        debt := here.debt + 1, since := due, forced := here.forced || decide (8 < here.debt + 1)
        freeAt := if 8 < here.debt + 1 ∧ here.forced = false then elapsed.quarters else here.freeAt } ∧
      y.rd MEM_REFSTAT fMEM_REFSTAT_MAXDEBT = max (elapsed.rd MEM_REFSTAT fMEM_REFSTAT_MAXDEBT) (min 255 (here.debt + 1)) ∧
      y.rd MEM_REFSTAT fMEM_REFSTAT_FORCED = min 65535 (elapsed.rd MEM_REFSTAT fMEM_REFSTAT_FORCED + if 8 < here.debt + 1 ∧ here.forced = false then 1 else 0) ∧
      y.keepsBut [.regs, .mem] elapsed) ∧
    (¬ mayRefresh → Ends (.refreshDone c b) s m) ∧
    (mayRefresh → Does (.refreshDone c b) s (fun y => y.dbank c.val b.val =
      { here with debt := here.debt - 1, forced := here.forced && decide (4 < here.debt - 1), row := none, freeAt := idle.quarters } ∧
      tabGet 0 y.mem.issued c.val = idle.quarters - 4 * trfc ∧ y.keepsBut [.mem] idle)) ∧
    (drift ≤ r4.rd MEM_RTCTL fMEM_RTCTL_THRESH_PS →
      (rate ≠ 2 → Ends (.mr4Read c rr osc drift) s (quiet told)) ∧
      (rate = 2 → Ends (.mr4Read c rr osc drift) s (quiet ((told.count MEM_REFSTAT fMEM_REFSTAT_OVERTEMP).event 0x1001 c.val [(1, c.val)])))) ∧
    (rate = mult → rate ≠ 2 → r4.rd MEM_RTCTL fMEM_RTCTL_THRESH_PS < drift → tabGet 0 m.mem.drift c.val = 1 → Ends (.mr4Read c rr osc drift) s
      ((seen.memMod fun z => { z with drift := tabSet 0 z.drift c.val 2 }).event 0x1002 c.val [(1, c.val)])) ∧
    (m.actValid = true → Ends (.memTrain v) s (ctl.ignored MEM_CTL)) ∧
    (m.actValid = false → Ends (.memTrain v) s ((((ctl.wr MEM_CTL fMEM_CTL_TRAIN 1).wr MEM_STAT fMEM_STAT_TRAINED 0).wr MEM_STAT fMEM_STAT_TRAIN_FAIL 0).wr
      MEM_STAT fMEM_STAT_FAILCH 0)) ∧
    (m.bit MEM_CTL fMEM_CTL_TRAIN = false → Ends (.trainDone fail) s m.bootNext) ∧
    (m.bit MEM_CTL fMEM_CTL_TRAIN = true → m.trainable = true → fail = 0 → Ends (.trainDone fail) s
      (((trained.wr MEM_STAT fMEM_STAT_TRAINED 1).rateSwitch (m.rd ARM_STAT fARM_STAT_ACT_PROFILE)).memMod fun y =>
        { y with map := m.rd MEM_CTL fMEM_CTL_MAP }).bootNext) ∧
    (m.bit MEM_CTL fMEM_CTL_TRAIN = true → m.trainable = false ∨ fail ≠ 0 → Ends (.trainDone fail) s
      (trained.wr MEM_STAT fMEM_STAT_TRAIN_FAIL 1).bootNext) ∧
    (∀ space, ¬ scrubs → Ends (.scrubRead space n i met) s m) ∧
    (scrubs →
      (¬ scrubOpen → Ends (.scrubRead 0 n i met) s m) ∧
      (∀ u, scrubOpen → classify dWord = .corrected u → Ends (.scrubRead 0 n i met) s (dEnd (if met then (m.dramRead at_).1 else (m.dramRead at_).1.dramWrite at_ u))) ∧
      (scrubOpen → (∀ u, classify dWord ≠ .corrected u) → Ends (.scrubRead 0 n i met) s (dEnd (m.dramRead at_).1)) ∧
      (∀ u, classify sWord = .corrected u → Ends (.scrubRead 1 n i met) s (sEnd (if met then (m.sramRead sat).1 else (m.sramRead sat).1.sramWrite sat u))) ∧
      ((∀ u, classify sWord ≠ .corrected u) → Ends (.scrubRead 1 n i met) s (sEnd (m.sramRead sat).1)) ∧
      ((m.getTe t).st ≠ .idle → Ends (.scrubRead 2 n i met) s m) ∧
      ((m.getTe t).st = .idle →
        (∀ u, classify pair = .corrected u → Ends (.scrubRead 2 n i met) s
          (if met then (m.lmRead t (2 * i)).1 else (m.lmRead t (2 * i)).1.teMod t fun y => { y with lmem := storeSet y.lmem ix u })) ∧
        ((∀ u, classify pair ≠ .corrected u) → Ends (.scrubRead 2 n i met) s (m.lmRead t (2 * i)).1)) ∧
      (q3.q[i]? = none → Ends (.scrubRead 3 n i met) s m) ∧
      (q3.q[i]? = some x →
        (∀ u, classify x.code = .corrected u → Ends (.scrubRead 3 n i met) s (if met then m else m.setChan n { q3 with q := q3.q.set i { x with code := u } })) ∧
        (classify x.code = .uncorrectable → Ends (.scrubRead 3 n i met) s (m.note portFQ 5 x.code (n * 2 ^ 32 + i))))) ∧
    (m.nvm.cells = [] → Ends .nvmScrub s m) ∧
    (listedWords m.nvm.cells = [i] →
      (∀ u, classify nWord = .corrected u → Ends .nvmScrub s ((m.nvmRead (16 * i)).1.nvmWrite (16 * i) u)) ∧
      ((∀ u, classify nWord ≠ .corrected u) → Ends .nvmScrub s (m.nvmRead (16 * i)).1)) ∧
    (m.locked = true → Ends .settingsLock s keyed) ∧
    (m.locked = false → ¬ good → Ends .settingsLock s
      (if m.nvm.keyOnce then (keyed.event 0x1602 0 []).nvmMod fun y => { y with keyOnce := true } else keyed.event 0x1602 0 [])) ∧
    (m.locked = false → good → m.nvm.keyOnce = false →
      (back.2 = image → Ends .settingsLock s (((back.1.wr NVM_STAT fNVM_STAT_LOCKED 1).copyTake).event 0x1601 0 [])) ∧
      (back.2 ≠ image → Ends .settingsLock s (back.1.event 0x1602 0 []))) ∧
    (m.locked = true → Ends (.regrecWrite j v) s rec_) ∧
    (m.locked = false → rec_.reg (NVM_REGRECj j.val) = v ∧ (m.lanternOn = false → Ends (.regrecWrite j v) s kept) ∧
      (m.lanternOn = true → Ends (.regrecWrite j v) s kept.copyTake)) ∧
    (m.sys.powerGood = false ∨ m.sys.porst = false → m.lanternOn = false → Ends .vbakGoodRise s risen) ∧
    (m.sys.powerGood = false ∨ m.sys.porst = false → m.lanternOn = true → Ends .vbakGoodRise s (risen.lcRaise 7)) ∧
    (m.sys.powerGood = true → m.sys.porst = true → m.lanternOn = true → Ends .vbakGoodRise s (risen.copyRepair.lcRaise 7)) ∧
    (m.lanternOn = true → Ends .vbakGoodFall s (fallen.lcRaise 7)) ∧
    (m.lanternOn = false → Ends .vbakGoodFall s fallen) ∧
    (ch = 7 → Ends (.chkGo ch v) s (awake.wr st fCHK_Cc_STAT_STATUS 6)) ∧
    (ch ≠ 7 → m.bit a fCHK_Cc_CTL_GO = true → Ends (.chkGo ch v) s awake) ∧
    (ch ≠ 7 → m.bit a fCHK_Cc_CTL_GO = false →
      (5 ≤ getFld go fCHK_Cc_CTL_POLY → Ends (.chkGo ch v) s (took.chkEnd ch.val [] 4)) ∧
      (getFld go fCHK_Cc_CTL_POLY < 5 → size = 0 → Ends (.chkGo ch v) s (took.chkEnd ch.val [] 2)) ∧
      (getFld go fCHK_Cc_CTL_POLY < 5 → size ≠ 0 → Ends (.chkGo ch v) s ((took.wr a fCHK_Cc_CTL_GO 1).wr st fCHK_Cc_STAT_STATUS 1))) ∧
    (¬ scans → Ends (.chkAbort ch n host) s m ∧ Ends (.chkDone ch host) s m) ∧
    (scans → Ends (.chkDone ch host) s ((read size).1.chkEnd ch.val (read size).2.1 (read size).2.2) ∧
      Ends (.chkAbort ch n host) s ((read (min n size)).1.chkEnd ch.val (read (min n size)).2.1
        (if (read (min n size)).2.2 = 2 then 5 else (read (min n size)).2.2))) ∧
    (m.rd a fCHK_Cc_CTL_SPACE = 3 → k ≤ host.length → read k = (m, host.take k, 2))

/-- TB_LOAD, TB_STEP, TB_SLEW, SLEW_END, TB_INC_SET, CAPTURE_GO, TSCAP_EDGE, PPS_START, PPS_END, TIME_REQ_RECEIVE, TIME_RSP_SEND,
TIME_RSP_RECEIVE, GUY_TIME_LOSS, GUY_FOLLOW_WRITE, HOST_SERVO_WRITE and TB_NS_READ: a load or a step is taken at the base's next step or refused under
R553 to R555; a slew and an increment pair must satisfy R550; a capture latches every base at once; the pulse starts at a full second; an
exchange gives offset and delay, and FOLLOW corrects TB0; FOLLOW and HOST_SERVO exclude each other; a read of NS latches the rest. TB4 lies
behind the bridge, whose accesses do nothing but set BRIDGE_ERR while the lantern is Off (R19, R549 to R557, R564 to R570, R628, R763;
the number in a refusal is the model's choice, log 64). -/
def Obligations.TimeBasesLoadStepSlewCaptureAndFollow : Prop :=
  ∀ (s : State) (k : Fin 5) (l : Fin 6) (p : Fin 2) (v : BitVec 32) (t1 t2 t3 : Nat) (late : Bool),
    let m := s.m
    let lantern := m.rd SYS_DOMSTAT fSYS_DOMSTAT_LANT_STATE ≠ 0
    let reached := k ≠ 4 ∨ lantern
    let off := (m.wr SYS_DOMSTAT fSYS_DOMSTAT_BRIDGE_ERR 1)
    let base := m.getBase k.val
    let ctl := TIM_TBk_CTL k.val
    let go := putFld v fTIM_TBk_CTL_LOAD 1
    let linked := if 1 ≤ k.val ∧ k.val ≤ 3 then m.wr ctl fTIM_TBk_CTL_LINK (getFld go fTIM_TBk_CTL_LINK) else m
    let plinth := k = 0 ∧ m.bit ARM_PLINTH fARM_PLINTH_RUN = true
    let radioOn := 1 ≤ k.val ∧ k.val ≤ 3 ∧ m.rd (RFx_CTL (k.val - 1)) fRFx_CTL_MODE = 2
    let mesh := k = 4 ∧ m.bit MSH_LCTL fMSH_LCTL_RUN = true
    let noLoad := plinth ∨ radioOn ∨ mesh
    let noStep := plinth ∧ min 2000 (m.rd TIM_CTL fTIM_CTL_MAXSTEP_NS) < v.toInt.natAbs ∨ radioOn ∧ v.toInt < 0 ∨
      mesh ∧ m.rd MSH_GUARD fMSH_GUARD_GMIN_US * 1000 < 2 * v.toInt.natAbs
    let rateOk (r : Int) := (r - tbNominal k.val).natAbs ≤ if k = 4 then 67108864 else 5368709
    let ns := base.incNs.getD ((m.reg (TIM_TBk_INC_NS k.val)).toNat % 256)
    let rest := (m.reg (TIM_TBk_SLEWCNT k.val)).toNat
    let cap := putFld v fTIM_CAPCTL_GO 1
    let caught (y : Mach) := (∀ j, j < 6 → (j ≠ 4 ∨ lantern) → y.reg (TIM_CAPk_NS j) = BitVec.ofNat 32 (m.getBase j).ns ∧
        y.reg (TIM_CAPk_S_LO j) = (m.getBase j).s.setWidth 32 ∧ y.reg (TIM_CAPk_S_HI j) = (m.getBase j).s.extractLsb' 32 32 ∧
        y.reg (TIM_CAPk_FRAC j) = (m.getBase j).frac) ∧
      (lantern → y.rd TIM_CAPCTL fTIM_CAPCTL_VALID = 0x3F) ∧ (¬ lantern → y.rd TIM_CAPCTL fTIM_CAPCTL_VALID = 0x2F) ∧ y.keepsBut [.regs] m
    let second := (m.getBase 0).nsTotal / 1000000000
    let rise := if (m.getBase 0).nsTotal % 1000000000 < 3 then m else m.reach ((second + 1) * 1000000000)
    let width := max 1 (min 999 (m.rd TIM_PPSCTL fTIM_PPSCTL_WIDTH_MS))
    let g := m.guyTime p.val
    let gctl := TIM_GUYp_CTL p.val
    let stat := TIM_GUYp_STAT p.val
    let turn := m.reach (t2 / 16 + 800)
    let sent := if late then g.t1old else g.t1
    let d1 : Int := (t2 : Int) - t1
    let d2 : Int := (m.stamp : Int) - t3
    let offset := Int.tdiv (d1 - d2) 2 - (m.reg (TIM_GUYp_ASYM p.val)).toInt
    let done := ((((((m.setGuyTime p.val (if late then { g with t1old := none } else { g with t1 := none, t1old := none, missed := 0 })).setReg
      (TIM_GUYp_OFFSET p.val) (BitVec.ofInt 32 offset)).setReg (TIM_GUYp_DELAY p.val) (BitVec.ofInt 32 (Int.tdiv (d1 + d2) 2))).count stat
        fTIM_GUYp_STAT_EXCH).wr stat fTIM_GUYp_STAT_LATE (if late then 1 else 0)).wr stat fTIM_GUYp_STAT_LOST 0)
    let n := 204800 * 2 ^ m.rd ARM_PLINTH fARM_PLINTH_PERIOD
    let nom : Int := tbNominal 0
    let inc := max (nom - 5368709) (min (nom + 5368709) (m.tbInc 0 + roundDiv (offset * 2 ^ 32) (16 * 8 * n)))
    let slew := max (nom - 5368709 - inc) (min (nom + 5368709 - inc) (roundDiv (offset * 2 ^ 32) (16 * n)))
    let set := m.wr gctl fTIM_GUYp_CTL_EN (getFld v fTIM_GUYp_CTL_EN)
    let other := m.bit (TIM_GUYp_CTL (1 - p.val)) fTIM_GUYp_CTL_FOLLOW = true ∨ m.bit TIM_CTL fTIM_CTL_HOST_SERVO = true
    let follows := m.bit (TIM_GUYp_CTL 0) fTIM_GUYp_CTL_FOLLOW = true ∨ m.bit (TIM_GUYp_CTL 1) fTIM_GUYp_CTL_FOLLOW = true
    let limit := m.wr TIM_CTL fTIM_CTL_MAXSTEP_NS (getFld v fTIM_CTL_MAXSTEP_NS)
    let now := m.getBase l.val
    (¬ reached → Ends (.tbLoad k v) s off ∧ Ends (.tbStep k v) s off ∧ Ends (.tbSlew k v) s off ∧ Ends (.tbIncSet k v) s off) ∧
    (reached →
      (noLoad → Ends (.tbLoad k v) s (linked.refused ctl k.val)) ∧
      (¬ noLoad → k ≠ 0 → Ends (.tbLoad k v) s ((linked.wr ctl fTIM_TBk_CTL_LOAD 1).setBase k.val { base with load := true })) ∧
      (¬ noLoad → k = 0 → Ends (.tbLoad k v) s (((m.wr ctl fTIM_TBk_CTL_LOAD 1).setBase 0 { base with load := true }).wr SYS_BOOTSTAT
        fSYS_BOOTSTAT_TSRC 3)) ∧
      (noStep → Ends (.tbStep k v) s (m.refused (TIM_TBk_STEP k.val) k.val)) ∧
      (¬ noStep → Ends (.tbStep k v) s ((m.setReg (TIM_TBk_STEP k.val) v).setBase k.val
        (if 1 ≤ k.val ∧ k.val ≤ 3 ∧ 0 < v.toInt then { base with fwd := base.fwd + v.toNat } else { base with step := base.step + v.toInt }))) ∧
      (rateOk (m.tbInc k.val + m.tbSlew k.val) → Ends (.tbSlew k v) s (m.setReg (TIM_TBk_SLEWCNT k.val) v)) ∧
      (¬ rateOk (m.tbInc k.val + m.tbSlew k.val) → Ends (.tbSlew k v) s (m.ignored (TIM_TBk_SLEWCNT k.val))) ∧
      (rateOk (ns * 2 ^ 32 + v.toNat : Nat) → Ends (.tbIncSet k v) s (m.setBase k.val { base with incNs := none, incPair := some (ns, v.toNat) })) ∧
      (¬ rateOk (ns * 2 ^ 32 + v.toNat : Nat) → Ends (.tbIncSet k v) s
        ((m.setBase k.val { base with incNs := none }).ignored (TIM_TBk_INC_FRAC k.val)))) ∧
    (k ≠ 4 → Ends (.slewEnd k) s (m.elapse rest) ∧ (m.elapse rest).reg (TIM_TBk_SLEWCNT k.val) = 0) ∧
    (k = 4 → Ends (.slewEnd k) s (m.elapse ((25 * rest + 1) / 2))) ∧
    (k ≠ 4 → (∀ j, j < 5 → (m.getBase j).incPair = none) →
      (base.load = true → (m.elapse 1).getBase k.val = { base.at_ (m.tbSet k.val + base.step * 2 ^ 32) with load := false, step := 0 }) ∧
      (base.load = false → (m.elapse 1).getBase k.val =
        { base.at_ (base.total + m.tbAdvance (m.tbSource k.val) 1 + base.step * 2 ^ 32) with load := false, step := 0 })) ∧
    Does (.captureGo v) s (fun y => caught y ∧ y.rd TIM_CAPCTL fTIM_CAPCTL_PIN_EN = getFld cap fTIM_CAPCTL_PIN_EN) ∧
    (m.bit TIM_CAPCTL fTIM_CAPCTL_PIN_EN = true → Does .tscapEdge s caught) ∧
    (m.bit TIM_CAPCTL fTIM_CAPCTL_PIN_EN = false → Ends .tscapEdge s m) ∧
    (rise.bit TIM_PPSCTL fTIM_PPSCTL_EN = true → Ends .ppsStart s (rise.timMod fun t => { t with pps := true })) ∧
    (rise.bit TIM_PPSCTL fTIM_PPSCTL_EN = false → Ends .ppsStart s rise) ∧
    (m.tim.pps = true → Ends .ppsEnd s ((m.reach (second * 1000000000 + 1000000 * width)).timMod fun t => { t with pps := false })) ∧
    (m.tim.pps = false → Ends .ppsEnd s m) ∧
    (m.bit gctl fTIM_GUYp_CTL_EN = true → Ends (.timeReqReceive p) s (m.setGuyTime p.val { g with t2 := some m.stamp })) ∧
    (m.bit gctl fTIM_GUYp_CTL_EN = false → Ends (.timeReqReceive p) s m) ∧
    (g.t2 = some t2 → Ends (.timeRspSend p) s ((turn.setGuyTime p.val { g with t2 := none }).guySend p.val
      ⟨3, false, false, 0, [stampWord t2, stampWord (t2 + 12800)]⟩)) ∧
    (g.t2 = none → Ends (.timeRspSend p) s m) ∧
    (m.sys.auto ≠ 1 →
      (sent = none → Ends (.timeRspReceive p t2 t3 late) s m) ∧
      (sent = some t1 → m.bit gctl fTIM_GUYp_CTL_FOLLOW = false → Ends (.timeRspReceive p t2 t3 late) s done) ∧
      (sent = some t1 → m.bit gctl fTIM_GUYp_CTL_FOLLOW = true → 800000 < offset.natAbs → Ends (.timeRspReceive p t2 t3 late) s
        (((done.setGuyTime p.val { done.guyTime p.val with inside := 0 }).wr stat fTIM_GUYp_STAT_FAR 1).event 0x1201 0 [(1, p.val)])) ∧
      (sent = some t1 → m.bit gctl fTIM_GUYp_CTL_FOLLOW = true → offset.natAbs ≤ 800000 → Does (.timeRspReceive p t2 t3 late) s fun y =>
        y.rd stat fTIM_GUYp_STAT_FAR = 0 ∧ y.reg (TIM_TBk_SLEW 0) = BitVec.ofInt 32 slew ∧ y.reg (TIM_TBk_SLEWCNT 0) = BitVec.ofNat 32 n ∧
        y.getBase 0 = { m.getBase 0 with incPair := some (inc.toNat / 2 ^ 32, inc.toNat % 2 ^ 32) } ∧
        (offset.natAbs ≤ 1600 → 15 ≤ g.inside → y.rd stat fTIM_GUYp_STAT_LOCKED = 1) ∧
        (1600 < offset.natAbs → y.rd stat fTIM_GUYp_STAT_LOCKED = m.rd stat fTIM_GUYp_STAT_LOCKED) ∧ y.keepsBut [.regs, .tim] m)) ∧
    (4 ≤ g.missed → m.bit stat fTIM_GUYp_STAT_LOST = false → Ends (.guyTimeLoss p) s
      ((m.wr stat fTIM_GUYp_STAT_LOST 1).event 0x1202 0 [(1, p.val)])) ∧
    (g.missed < 4 ∨ m.bit stat fTIM_GUYp_STAT_LOST = true → Ends (.guyTimeLoss p) s m) ∧
    (getFld v fTIM_GUYp_CTL_FOLLOW = 0 → Ends (.guyFollowWrite p v) s
      (((set.wr gctl fTIM_GUYp_CTL_FOLLOW 0).wr stat fTIM_GUYp_STAT_LOCKED 0).setGuyTime p.val { g with inside := 0 })) ∧
    (getFld v fTIM_GUYp_CTL_FOLLOW ≠ 0 → (other → Ends (.guyFollowWrite p v) s (set.refused gctl p.val)) ∧
      (¬ other → Ends (.guyFollowWrite p v) s (set.wr gctl fTIM_GUYp_CTL_FOLLOW 1))) ∧
    (getFld v fTIM_CTL_HOST_SERVO = 1 → follows → Ends (.hostServoWrite v) s (limit.refused TIM_CTL 0)) ∧
    (getFld v fTIM_CTL_HOST_SERVO = 0 ∨ ¬ follows → Ends (.hostServoWrite v) s
      (limit.wr TIM_CTL fTIM_CTL_HOST_SERVO (getFld v fTIM_CTL_HOST_SERVO))) ∧
    (l = 4 → ¬ lantern → Ends (.tbNsRead l) s (off.setAnswer 0)) ∧
    (l ≠ 4 ∨ lantern → Ends (.tbNsRead l) s
      ((m.setBase l.val { now with latS := now.s, latFrac := now.frac }).setAnswer (BitVec.ofNat 32 now.ns)))

/-! ### The host interface (16_host_interface.md) -/

/-- The 23 commands of the command rings, with INDIRECT_READ_DONE, FLR, D3HOT_ENTER, D0_RETURN, PCIE_L1_ENTER, DOORBELL_READ_DONE,
DOORBELL_READ_ERROR, HOST_FRAME_TAKE, POST, POSTD, RING_FRAME_WRITE, RINGWAIT_EXPIRY, MSIX_UNMASK, DIAG_READ and DIAG_WRITE. A command that HIF may take
at the head of an empty ring runs at pickup, or at the next beat start, or waits for its buffer, and completes with the status of R600: BAD_OPCODE,
BAD_OPERAND without an effect, REFUSED, NOT_FOUND, or OK with the effect on its target that R596 to R599 give. Good slots are taken, a broken
ring faults; frames are copied from the host and written to it whole, refused where their channel does not take them (log 65) or a word is POISON; an immediate transmit that the
radio refuses is the radio's to report; a window's bad writes are discarded and counted (R193, R259, R576, R581, R582, R585, R591, R593 to
R602, R605 to R608, R702, R767; what the host's memory holds is a row's operand, log 12; an immediate transmit's power request is a free value, log 35). -/
def Obligations.HostCommandsRunAndFramesMove : Prop :=
  ∀ (s : State) (ring : Fin 64) (entry : List Byte) (buf : Option (List Byte)) (data : List Byte) (z : Mach) (d : Cmd)
      (page table : List Byte) (st : Fin 8) (timeout : Bool) (r : Fin 192) (entries : List (List Byte)) (n : Fin 16) (id h ix gen : Nat) (a : Acc)
      (bufs fill : List (Nat × Nat)) (f : HFrame) (v : Fin 64) (off : BitVec 28) (w : BitVec 32) (x : Sta) (sl : Slot) (bytes : List Byte),
    let m := s.m
    let c := cmdOf entry buf data m.beat
    let taken := (m.ringMod ring.val fun y => { y with taken := (y.taken + 1) % 2 ^ 32, beatTaken := y.beatTaken + 1 }).journal 2 portHIF 0 0
      (ring.val + 256 * ((m.getRing ring.val).taken % 2 ^ 24)) (codesOf (slice 0 entry 0 32))
    let head := taken.setCmds ring.val [c]
    let ok := m.cmdMay ring.val = true ∧ taken.cmdsOf ring.val = [] ∧ head.held (ringKey ring.val) = false
    let done (y : Mach × Nat) := (y.1.setCmds ring.val []).cmdDone ring.val c y.2
    let ready := c.indirect = true → c.bufLen ≤ 4096 ∧ c.buf ≠ none
    let args (c' : Fin 64 → List Byte → Option (List Byte) → List Byte → Instr) := c' ring entry buf data
    let A := c.arg
    let later := z.cmdsOf ring.val = [c] ∧ z.held (ringKey ring.val) = false ∧ m.beat < z.beat
    let rows : List (Instr × Nat) := [(args .nopCmd, 0x00), (args .staSet, 0x10), (args .staDel, 0x11), (args .keyInstall, 0x18), (args .keyDelete, 0x19),
      (args .queueSet, 0x20), (args .shaperSet, 0x21), (args .policerSet, 0x22), (args .twtBind, 0x23), (args .twtUnbind, 0x24), (args .bcnTemplate, 0x28),
      (args .tblWrite, 0x31), (args .wpolSet, 0x32), (args .txImm, 0x40), (args .meshCmd, 0x50), (args .cfgStage, 0x60), (args .cfgCommit, 0x61)]
    let grp := A 4 1 % 2 == 1
    let key := keyIndex (A 1 1) (A 2 2) grp
    let badKey := c.args.length < 64 ∨ 6 < A 0 1 ∨ 15 < A 5 1 ∨ 8191 < A 6 2 ∨ (grp = true ∧ (511 < A 2 2 ∨ 7 < A 1 1)) ∨
      (grp = false ∧ (2047 < A 2 2 ∨ 1 < A 1 1))
    let key2 := keyIndex (A 3 1) (A 0 2) (A 2 1 == 1)
    let attr : QAttr := ⟨A 2 1, max 1 (A 4 2), A 6 2, A 8 2, A 12 4, A 3 1⟩
    let badPolicy := 4095 < A 0 2 ∨ A 4 4 = 0 ∨ 2 ^ 24 - 1 < A 4 4 ∨ 2 ^ 31 - 1 < A 8 4 ∨ 0 < signedOf 32 (A 12 4)
    let policy (act : Nat) := (A 4 4, A 8 4, signedOf 32 (A 12 4), act)
    let bc := A 7 1 % 2 == 1
    let twt : Twt := ⟨A 0 2, bc, A 2 2, A 4 1, A 5 1, A 6 1, A 8 2, A 10 2⟩
    let badTwt := (bc = true ∧ (383 < A 0 2 ∨ 47 < A 2 2)) ∨ (bc = false ∧ (4095 < A 0 2 ∨ 2047 < A 2 2)) ∨ 2 < A 4 1 ∨ A 8 2 = 0 ∨ A 8 2 ≤ A 10 2
    let us := sl.frames z.act.cycle * 4 * z.beatNs / 1000
    let dur := sl.len * (z.beatNs / 256)
    let ub := A 2 1 % 2 == 1
    let baBad := 2047 < A 0 2 ∨ 7 < A 2 1 ∨ 1 < A 3 1 ∨ 1 < A 8 1 ∨ (A 8 1 = 0 ∧ (A 4 2 ∉ [64, 128, 256, 512, 1024] ∨ 4095 < A 6 2))
    let agr := 16 * A 0 2 + A 2 1
    let badHash := c.args.length < 64 ∨ 15 < A 0 1 ∨ A 1 1 = 0 ∨ 3 < A 1 1 ∨ 10 < A 2 1
    let hKey := z.keyPad (A 0 1) ((List.range (if A 2 1 = 0 then z.tblKeyw (A 0 1) else A 2 1)).map fun i => A (16 + 4 * i) 4)
    let answer (y : Mach × HAns) := z.tblHash c = (if A 56 8 = 0 then y.1 else y.1.hostWrite (A 56 8)
      ((y.2.words (spreadOf (keyHash hKey))).map fun u => bytesLE 8 (payN u)).flatten, hashStatus y.2.st)
    let badTbl := 15 < A 0 1 ∨ A 4 4 % 16 ≠ 0 ∨ A 16 4 % 16 ≠ 0 ∨ 4096 < A 16 4 ∨ z.tblKind (A 0 1) = 0 ∨
      ((z.tblKind (A 0 1) = 1 ∨ z.tblKind (A 0 1) = 4) ∧ z.tblBytes (A 0 1) < A 4 4 + A 16 4)
    let badTx := 2 < A 0 1 ∨ 47 < A 1 1 ∨ A 4 2 = 0 ∨ z.immOk c = false
    let tx : RfTx := ⟨1, BitVec.ofNat 16 (A 6 2), ~~~blockOf (A 19 1) (primAt (A 0 1) (z.radioChan (A 0 1))) ||| (z.getRadio (A 0 1)).punct, A 19 1,
      A 16 1, .frames, false, (z.freeVal.1.extractLsb' 0 16 : BitVec 16).toInt, z.tb5, 0, [], false, false, some (ring.val, c.tag), [], []⟩
    let sent := z.freeVal.2.radioTx (A 0 1) tx
    let itemW := itemWords (slice 0 c.data 0 (A 4 4))
    let badMesh := A 0 1 < 248 ∨ 250 < A 0 1 ∨ A 4 4 < 16 ∨ 250 < A 4 4
    let room := z.chOn (A 0 1) = true ∧ (z.getChan (A 0 1)).waiting = [] ∧ (z.getChan (A 0 1)).stored + itemW.length ≤ z.chCap (A 0 1)
    let g := A 0 4
    let ringR := m.getRing r.val
    let opened := 160 ≤ r.val ∧ m.ringOpen r.val = true ∧ entries ≠ [] ∧ entries.length ≤ ringR.waiting
    let size := fhTotal entries
    let kept := m.storeFrame (slice 0 data 0 size) 5 0
    let stamp := kept.1.timePayload.toNat
    let word := bytesLE 4 (256 * h + (kept.1.head h).off) ++ bytesLE 4 (size + (r.val - 160) * 2 ^ 15 + fhFlags (entries.headD []) / 4 % 2 * 2 ^ 20 +
      fhTag (entries.headD []) * 2 ^ 21) ++ bytesLE 4 (stamp % 2 ^ 32) ++ bytesLE 4 (stamp / 2 ^ 32)
    let unit (o : Nat) := m.openAcc n.val id = some a ∧ ptrClass a.far = 7 ∧ ptrAddr a.far / 256 % 256 = 0x70 ∧ ptrAddr a.far % 256 = o
    let W (i : Nat) : TWord := a.src.getD i 0
    let D := payN (W 1)
    let desc := wTag (W 1) = tagDESC ∧ D % 2 ^ 33 = 0 ∧ D / 2 ^ 44 % 8 ≤ 4
    let frame (hd : Option TWord) (l : List Byte) (posted : Bool) : HFrame :=
      ⟨128 + D / 2 ^ 55, hd, l, posted, D / 2 ^ 47 % 256, D / 2 ^ 44 % 8 * 2 ^ 12 + D / 2 ^ 33 % 2 ^ 11, (wPay (W 2)).toNat, m.accRun n.val a⟩
    let tail := wTag (W 2) = tagTIME ∧ wTag (W 3) = tagNIL
    let len := payN (W 0)
    let goodD := 2 ≤ a.len ∧ a.len ≤ 64 ∧ a.tagMode = false ∧ isInt (W 0) = true ∧ 1 ≤ len ∧ len ≤ 16 * (a.len - 1) ∧ tail
    let writes := 128 ≤ r.val ∧ r.val ≤ 159 ∧ m.ringOpen r.val = true ∧ bufs.length ≤ ringR.waiting ∧ m.held (ringKey r.val) = false
    let out := (m.frameOut ringR f ringR.idx true f.bytes fill).frameGone r.val f
    let next := (ringR.idx + fill.length) % 2 ^ 32
    let bit := BitVec.ofNat 8 1
    let open_ := m.hifMod fun y => { y with msix := memSet y.msix (16 * v.val + 12) (memGet y.msix (16 * v.val + 12) ||| bit) }
    let on := m.bit HIF_DIAG fHIF_DIAG_EN = true
    let at_ := m.rd HIF_DIAG fHIF_DIAG_BASE * 2 ^ 28 + off.toNat / 4 * 4
    let space := m.rd HIF_DIAG fHIF_DIAG_SPACE
    let seen := dramWord m.mem.dram (at_ / 16 * 16)
    let read := m.hifMod fun y => { y with reading := false, late := false }
    (m.cmdMay ring.val = false → ∀ p ∈ rows, Ends p.1 s m) ∧
    (ok → ready →
      (∀ p ∈ [(args .nopCmd, 0x00, (head, 0)), (args .keyInstall, 0x18, head.keyInstall c), (args .keyDelete, 0x19, head.keyDelete c),
              (args .shaperSet, 0x21, head.shaperSet c), (args .policerSet, 0x22, head.policerSet c), (args .twtBind, 0x23, head.twtBind c),
              (args .twtUnbind, 0x24, head.twtUnbind c), (args .bcnTemplate, 0x28, head.bcnTemplate c), (args .tblWrite, 0x31, head.tblWrite c),
              (args .wpolSet, 0x32, head.wpolSet c), (args .txImm, 0x40, head.txImm ring.val c), (args .cfgStage, 0x60, head.cfgStage g),
              (args .cfgCommit, 0x61, head.cfgCommit g (A 8 6))], c.opcode = p.2.1 → Ends p.1 s (done p.2.2)) ∧
      (c.opcode = 0x30 → (A 1 1 = 2 → Ends (args .tblHashInsert) s (done (head.tblHash c))) ∧
        (A 1 1 = 3 → Ends (args .tblHashDelete) s (done (head.tblHash c))) ∧
        (A 1 1 ≠ 2 → A 1 1 ≠ 3 → Ends (args .tblHashFind) s (done (head.tblHash c)))) ∧
      (∀ y, c.opcode = 0x50 → head.meshCmd c = some y → Ends (args .meshCmd) s (done y)) ∧
      (c.opcode = 0x50 → head.meshCmd c = none → Ends (args .meshCmd) s head) ∧
      (c.opcode = 0x10 → Ends (args .staSet) s head ∧ (later → z.cmdPump ring.val = done (z.staSet c))) ∧
      (c.opcode = 0x11 → Ends (args .staDel) s head ∧ (later → z.cmdPump ring.val = done (z.staDel c))) ∧
      (c.opcode = 0x12 → A 8 1 ≠ 1 → Ends (args .baSetAdd) s head ∧ (later → z.cmdPump ring.val = done (z.baSetCmd c))) ∧
      (c.opcode = 0x12 → A 8 1 = 1 → Ends (args .baSetDelete) s head ∧ (later → z.cmdPump ring.val = done (z.baSetCmd c))) ∧
      (c.opcode = 0x20 → Ends (args .queueSet) s head ∧ (later → z.cmdPump ring.val = done (z.queueSet c)))) ∧
    (ok → (cmdOpcodes.contains c.opcode = false → Ends (args .badOpcode) s (done (head, 1))) ∧
      (∀ p ∈ rows, c.opcode = p.2 → c.indirect = true → 4096 < c.bufLen → Ends p.1 s (done (head, 2))) ∧
      (∀ p ∈ rows, c.opcode = p.2 → c.indirect = true → c.bufLen ≤ 4096 → c.buf = none → Ends p.1 s head)) ∧
    (m.cmdsOf ring.val = [d] → d.unread = true → m.held (ringKey ring.val) = false → cmdOpcodes.contains d.opcode = true → d.bufLen ≤ 4096 →
      Ends (.indirectReadDone ring none) s ((m.setCmds ring.val []).cmdDone ring.val { d with buf := none, bad := true } 6) ∧
      (d.opcode = 0x18 → Ends (.indirectReadDone ring (some bytes)) s
        (let e := { d with buf := some bytes, bad := false }
         let y := (m.setCmds ring.val [e]).keyInstall e
         (y.1.setCmds ring.val []).cmdDone ring.val e y.2))) ∧
    (badKey → z.keyInstall c = (z, 2)) ∧ (¬ badKey → grp = false → z.sta (A 2 2) = none → z.keyInstall c = (z, 5)) ∧
    (¬ badKey → grp = true ∨ z.sta (A 2 2) = some x → (z.keyInstall c).2 = 0 ∧
      (let e := (z.keyInstall c).1.keyE key
       e.used = true ∧ e.gen = (z.keyE key).gen + 1 ∧ e.suite = A 0 1 ∧ e.pn = A 8 6 ∧ e.key = slice 0 c.args 16 32)) ∧
    (A 2 1 ≤ 1 → (A 2 1 = 1 → A 0 2 ≤ 511) → (A 2 1 = 0 → A 0 2 ≤ 2047 ∧ A 3 1 ≤ 1) →
      ((z.keyE key2).used = true → z.keyDelete c = ((z.setKeyE key2 { KeyE.zero with gen := (z.keyE key2).gen + 1 }).mirrorKey key2, 0)) ∧
      ((z.keyE key2).used = false → z.keyDelete c = (z, 5))) ∧
    (2047 < A 0 2 → z.staDel c = (z, 2)) ∧ (A 0 2 ≤ 2047 → z.sta (A 0 2) = none → z.staDel c = (z, 5)) ∧
    (A 0 2 ≤ 2047 → z.sta (A 0 2) = some x → (z.staDel c).2 = 0 ∧ (z.staDel c).1.sta (A 0 2) = none ∧
      ∀ i, i < 8 → ((z.staDel c).1.queue (8 * A 0 2 + i)).frames = []) ∧
    (c.args.length < 64 ∨ 2047 < A 0 2 ∨ A 2 2 = 0 ∨ 2007 < A 2 2 ∨ A 4 1 % 8 = 0 → z.staSet c = (z, 2)) ∧
    ((z.staSet c).2 = 0 → (z.staSet c).1.sta (A 0 2) = some ⟨slice 0 c.args 0 64, match z.sta (A 0 2) with | some o => o.power | none => 0⟩) ∧
    (baBad → z.baSetCmd c = (z, 2)) ∧ (¬ baBad → z.sta (A 0 2) = none → z.baSetCmd c = (z, 5)) ∧
    (¬ baBad → z.sta (A 0 2) = some x → A 8 1 = 0 → (z.baSetCmd c).2 = 0 ∧
      (A 3 1 = 1 → tabGet none (z.baSetCmd c).1.wmac.baRx agr = some ⟨A 4 2, A 6 2, [], [], 0⟩) ∧
      (A 3 1 = 0 → tabGet none (z.baSetCmd c).1.wmac.baTx agr = some ⟨A 4 2, A 6 2⟩)) ∧
    (¬ baBad → z.sta (A 0 2) = some x → A 8 1 = 1 →
      (A 3 1 = 1 → tabGet none (z.baSetCmd c).1.wmac.baRx agr = none ∧ (tabGet none z.wmac.baRx agr = none → z.baSetCmd c = (z, 5))) ∧
      (A 3 1 = 0 → tabGet none (z.baSetCmd c).1.wmac.baTx agr = none ∧ (tabGet none z.wmac.baTx agr = none → z.baSetCmd c = (z, 5)))) ∧
    (16447 < A 0 2 ∨ 7 < A 2 1 ∨ 2 < A 3 1 ∨ 4095 < A 6 2 ∨ 4095 < A 8 2 ∨ A 12 4 < 4 ∨ 65536 < A 12 4 → z.queueSet c = (z, 2)) ∧
    (A 0 2 ≤ 16447 → A 2 1 ≤ 7 → A 3 1 ≤ 2 → A 6 2 ≤ 4095 → A 8 2 ≤ 4095 → 4 ≤ A 12 4 → A 12 4 ≤ 65536 → z.queueSet c =
      ((z.setQueue (A 0 2) { z.queue (A 0 2) with attr := attr }).mirrorState 5 (A 0 2) attr.entry, 0)) ∧
    (badPolicy → z.shaperSet c = (z, 2)) ∧ (badPolicy ∨ 1 < A 2 1 → z.policerSet c = (z, 2) ∧ z.wpolSet c = (z, 2)) ∧
    (¬ badPolicy → z.shaperSet c = ((z.setShaper (A 0 2) { z.shaper (A 0 2) with pend := some (policy 0) }).mirrorState 6 (A 0 2)
      (policyEntry (policy 0)), 0)) ∧
    (¬ badPolicy → A 2 1 ≤ 1 →
      z.policerSet c = ((z.setPolicer (A 0 2) { z.policer (A 0 2) with pend := some (policy (A 2 1)) }).mirrorState 6 (4096 + A 0 2)
        (policyEntry (policy (A 2 1))), 0) ∧
      z.wpolSet c = ((z.setWpol (A 0 2) { z.wpol (A 0 2) with pend := some (policy (A 2 1)) }).mirrorState 6 (8192 + A 0 2)
        (policyEntry (policy (A 2 1))), 0)) ∧
    (badTwt → z.twtBind c = (z, 2)) ∧ (¬ badTwt → bc = false → z.sta (A 2 2) = none → z.twtBind c = (z, 5)) ∧
    (¬ badTwt → bc = true ∨ z.sta (A 2 2) = some x →
      (z.twtSlot twt = none → z.twtBind c = (z, 3)) ∧
      (z.twtSlot twt = some sl → twtFits us = false → z.twtBind c = (z, 3)) ∧
      (z.twtSlot twt = some sl → twtFits us = true → (z.twtBind c).2 = 0 ∧ twt ∈ (z.twtBind c).1.wmac.twts ∧
        (dur % 1000 = 0 → (z.twtBind c).1.hif.hostMem = memWrite z.hif.hostMem (A 16 8)
          (bytesLE 8 (((z.getBase (1 + A 4 1)).nsTotal + z.slotNext sl) / 1000) ++ bytesLE 4 us ++ bytesLE 4 (dur / 1000))))) ∧
    (A 0 2 ≤ (if ub then 383 else 4095) →
      ((∃ t ∈ z.wmac.twts, t.agr = A 0 2 ∧ t.bcast = ub) → (z.twtUnbind c).2 = 0 ∧ ∀ t ∈ (z.twtUnbind c).1.wmac.twts, ¬ (t.agr = A 0 2 ∧ t.bcast = ub)) ∧
      ((∀ t ∈ z.wmac.twts, ¬ (t.agr = A 0 2 ∧ t.bcast = ub)) → z.twtUnbind c = (z, 5))) ∧
    (47 < A 0 1 ∨ 2048 < A 4 4 → z.bcnTemplate c = (z, 2)) ∧
    (A 0 1 ≤ 47 → A 4 4 ≤ 2048 → z.bcnTemplate c =
      (z.wmacMod fun y => { y with beacons := tabSet [] y.beacons (A 0 1) (slice 0 c.data 0 (A 4 4)) }, 0)) ∧
    (badHash → z.tblHash c = (z, 2)) ∧ (¬ badHash → z.hashOk (A 0 1) = false ∨ z.tblKeyw (A 0 1) < A 2 1 → z.tblHash c = (z, 3)) ∧
    (¬ badHash → z.hashOk (A 0 1) = true → A 2 1 ≤ z.tblKeyw (A 0 1) →
      (A 1 1 = 1 → answer (z.hashFind (A 0 1) hKey false)) ∧
      (A 1 1 = 2 → answer (z.hashInsert (A 0 1) hKey (A 8 8 % 2 ^ 60) (A 3 1 % 2 == 1))) ∧
      (A 1 1 = 3 → answer (z.hashDelete (A 0 1) hKey))) ∧
    (badTbl → z.tblWrite c = (z, 2)) ∧ (¬ badTbl → z.tblWrite c = (z.tblPuts (A 0 1) (A 4 4) (codesOf (slice 0 c.data 0 (A 16 4))), 0)) ∧
    (badTx → z.txImm ring.val c = (z, 2)) ∧
    (¬ badTx → z.txImm ring.val c = (Mach.macAfter (A 0 1) sent, if sent.2 = none then 0 else 3) ∧
      (∀ st, z.freeVal.2.txRefusal (A 0 1) tx = some st → sent = (z.freeVal.2.txReport (A 0 1) tx st, some (tx, st))) ∧
      (z.freeVal.2.txRefusal (A 0 1) tx = none → (z.getRadio (A 0 1)).relock = true →
        sent = (z.freeVal.2.txReport (A 0 1) tx 0x11, some (tx, 0x11)))) ∧
    (badMesh → z.meshCmd c = some (z, 2)) ∧ (¬ badMesh → room → z.meshCmd c = some (z.chReceive (A 0 1) itemW, 0)) ∧
    (¬ badMesh → ¬ room → (c.beat + 4 ≤ z.beat → z.meshCmd c = some (z, 4)) ∧ (z.beat < c.beat + 4 → z.meshCmd c = none)) ∧
    (z.staged = true → z.cfgStage g = (z, if (z.reg CHN_STGGEN).toNat = g then 0 else 3)) ∧
    (z.staged = false → ((z.reg CHN_CFGGEN).toNat = g → z.cfgStage g = (z, 3)) ∧ ((z.reg CHN_CFGGEN).toNat ≠ g → z.cfgStage g =
      ((((z.stageMod fun _ => []).setReg CHN_STGGEN (BitVec.ofNat 32 g)).wr CHN_CFGSTAT fCHN_CFGSTAT_STAGING 1).blkGens g, 0))) ∧
    (z.staged = false ∨ (z.reg CHN_STGGEN).toNat ≠ g ∨ A 8 6 < z.beat + 2 → z.cfgCommit g (A 8 6) = (z, 3)) ∧
    (z.staged = true → (z.reg CHN_STGGEN).toNat = g → z.beat + 2 ≤ A 8 6 →
      getFld (z.plainRead WMAC_PNCTL) fWMAC_PNCTL_BLOCK * 1024 ≤ (z.reg CHN_PNJUMP).toNat → z.cfgCommit g (A 8 6) = (z.commitPlan g (A 8 6), 0)) ∧
    Does .flr s (fun y => y.hif.rings = [] ∧ y.hif.frames = [] ∧ y.hif.msix = [] ∧ y.hif.reading = false ∧ y.arm = m.arm ∧ y.radios = m.radios ∧
      y.wmac = m.wmac ∧ y.chans = m.chans ∧ y.hif.cmds = m.hif.cmds.map (fun e => (e.1, e.2.map fun c => { c with mute := true })) ∧
      y.reg HIF_CTL = regReset HIF_CTL) ∧
    Ends .d3hotEnter s ((m.wr HIF_STAT fHIF_STAT_D3 1).wr HIF_STAT fHIF_STAT_POLLING 0) ∧ Ends .d0Return s (m.wr HIF_STAT fHIF_STAT_D3 0) ∧
    (m.hif.reading = false → Ends .pcieL1Enter s (m.hifMod fun y => { y with l1 := true })) ∧
    (m.hif.reading = true → Ends .pcieL1Enter s m) ∧
    (m.hif.reading = false → m.hif.late = false → Ends (.doorbellReadDone page table) s m) ∧
    (m.hif.reading = true → m.hif.adopted = true → Ends (.doorbellReadDone page table) s ((read.forEach (List.range 192) fun y i =>
      y.slotTake table i (numLE (slice 0 page (8 * i) 4)) (numLE (slice 0 page (8 * i + 4) 2))).storePump)) ∧
    ((z.getRing h).st = 1 → (z.getRing h).gen = gen →
      (({ z.getRing h with db := ix } : Ring).broken h = false → z.slotTake table h ix gen =
        z.setRing h { z.getRing h with db := ix, hold := (z.getRing h).hold.map fun k => k - 1 }) ∧
      (({ z.getRing h with db := ix } : Ring).broken h = true → ((z.slotTake table h ix gen).getRing h).st = 3)) ∧
    (m.hif.reading = true → Ends (.doorbellReadError st timeout) s
      (((m.hifMod fun y => { y with reading := false, late := timeout }).count HIF_DBSTAT fHIF_DBSTAT_READ_ERR).event 0x1306 0 [(1, st.val)])) ∧
    (m.hif.reading = false → Ends (.doorbellReadError st timeout) s m) ∧
    (r.val < 160 ∨ m.ringOpen r.val = false ∨ entries = [] → Ends (.hostFrameTake r entries data) s m) ∧
    (opened → fhGood entries = false → Ends (.hostFrameTake r entries data) s ((m.fhTake r.val entries).count HIF_CNT0 fHIF_CNT0_TX_BAD)) ∧
    (opened → fhGood entries = true → m.cellsFree < max 1 ((m.headroom + size + 255) / 256) → Ends (.hostFrameTake r entries data) s m) ∧
    (opened → fhGood entries = true → max 1 ((m.headroom + size + 255) / 256) ≤ m.cellsFree → kept.2 = some h →
      (kept.1.chTakes portHIF ringR.ch = true → Ends (.hostFrameTake r entries data) s ((kept.1.fhTake r.val entries).chReceive ringR.ch
        (sideWords true true 16 0 true 0 true [encodeCode (datumOf word)]))) ∧
      (kept.1.chTakes portHIF ringR.ch = false → Ends (.hostFrameTake r entries data) s
        (((kept.1.fhTake r.val entries).chRefuse portHIF ringR.ch).consume h))) ∧
    (unit 1 → ¬ desc ∨ wTag (W 0) ≠ tagPKT ∨ m.handle (W 0) = none ∨ a.len ≠ 1 ∨ ¬ tail ∨ m.hifRoom 0 = false →
      Ends (.post n id) s (m.serve n.val id stREFUSED [])) ∧
    (unit 1 → desc → wTag (W 0) = tagPKT → m.handle (W 0) = some h → a.len = 1 → a.tagMode = false → tail → m.hifRoom 0 = true →
      (m.frameBytes h).2 = some bytes → Ends (.post n id) s (((m.frameBytes h).1.postFrame (frame (some (W 0)) bytes false)).serve n.val id 0 [])) ∧
    (unit 2 → ¬ desc ∨ ¬ goodD ∨ (∃ u ∈ a.src.drop 4, wTag u = tagPOISON) ∨ m.hifRoom len = false → Ends (.postd n id) s (m.serve n.val id stREFUSED [])) ∧
    (unit 2 → desc → goodD → (∀ u ∈ a.src.drop 4, wTag u ≠ tagPOISON) → m.hifRoom len = true → Ends (.postd n id) s ((m.postFrame (frame none
      (((a.src.drop 4).map fun u => bytesLE 4 (payN u % 2 ^ 32)).flatten.take len) true)).serve n.val id 0 [])) ∧
    (¬ writes ∨ m.nextFrame r.val = none → Ends (.ringFrameWrite r bufs) s m) ∧
    (writes → m.nextFrame r.val = some f → bufFill f.bytes.length bufs = some fill → Ends (.ringFrameWrite r bufs) s
      (((out.ringMod r.val fun y => { y with idx := next, taken := next, progress := true, hold := none }).journal 0x0A portHIF 0 0 r.val
        [encodeCode (datumOf (bytesLE 16 ringR.idx))]).holdOn (ringKey r.val))) ∧
    (writes → m.nextFrame r.val = some f → bufFill f.bytes.length bufs = none → ringR.hold = none → Ends (.ringFrameWrite r bufs) s
      (m.ringMod r.val fun y => { y with hold := some (max 1 (m.rd HIF_RINGWAIT fHIF_RINGWAIT_BEATS)) })) ∧
    (m.nextFrame r.val = some f → ringR.hold = some 0 → ringR.st = 1 → bufFill f.bytes.length bufs = none → Ends (.ringwaitExpiry r bufs) s
      (((m.frameGone r.val f).count HIF_CNT0 fHIF_CNT0_RX_NOBUF).ringMod r.val fun y => { y with hold := none })) ∧
    (m.nextFrame r.val = none ∨ ringR.hold ≠ some 0 → Ends (.ringwaitExpiry r bufs) s m) ∧
    (m.hif.pba.getLsbD v.val = true → Ends (.msixUnmask v) s (open_.msixSend v.val)) ∧
    (m.hif.pba.getLsbD v.val = false → Ends (.msixUnmask v) s open_) ∧
    (on → space = 0 → at_ < m.dramTop → classify seen = .clean → Does (.diagRead off) s fun y =>
      y.answer = BitVec.ofNat 32 (numLE (slice 0 (datumBytes (codeData seen)) (at_ % 16) 4)) ∧ y.hif.ep = false ∧ y.keepsBut [.answer, .hif] m) ∧
    (on → space = 0 → at_ < m.dramTop → classify seen = .storedPoison → Does (.diagRead off) s fun y => y.hif.ep = true ∧
      y.rd HIF_DIAGCNT fHIF_DIAGCNT_POISONED = min fHIF_DIAGCNT_POISONED.top (m.rd HIF_DIAGCNT fHIF_DIAGCNT_POISONED + 1)) ∧
    (¬ on → Does (.diagRead off) s fun y => y.hif.ep = false ∧ y.keepsBut [.answer, .hif, .free] m) ∧
    (¬ on → Ends (.diagWrite off w) s m) ∧
    (on → space = 2 ∨ (space = 0 ∧ (m.inTagged at_ = true ∨ m.dramTop ≤ at_)) → Ends (.diagWrite off w) s
      (m.count HIF_DIAGCNT fHIF_DIAGCNT_DISCARDED)) ∧
    (on → space = 0 → m.inTagged at_ = false → at_ < m.dramTop → classify seen = .clean → Ends (.diagWrite off w) s
      (m.dramWrite (at_ / 16 * 16) (patchWord ⟨seen, none⟩ (at_ % 16) w)))

/-! ### The camp bus, the guy lines and the pair (17_chain_and_pairs.md) -/

/-- The 45 commands of block CHN. Camp frames: a bad CRC is dropped and counted; a collision backs off by the draw or drops at the 16th; an
unaddressed unit pegs, holds its candidate at the wait's end and gives it up to a NAK; GEN frames are sent, kept and compared; COMMITs schedule or
mismatch; queries are answered and abandon a takeover. Guy frames: acknowledged, delivered in order, repeats discarded, gaps answered with NACK; a port goes
down after 16 failures and comes up with SEQs at 0. The pair: roles by R630 and R631, the fence and its test, the query, fence and retry of
a takeover, SWITCH, UNFENCE, PNJUMP (the number in its refusal: log 64) and the seal (R612 to R622, R625 to R627, R629 to R635, R638, R641, R643, R645, R647 to R650, R652 to R654). -/
def Obligations.CampGuyAndPairCommandsAct : Prop :=
  ∀ (s : State) (l : List Byte) (seq : Fin 256) (p : Fin 2) (words : List Code) (v : BitVec 32) (k : Fin 3) (src t a : Nat) (pay : List Byte)
      (cf : CampTx) (fr : GuyIn),
    let m := s.m
    let cmd (type : Nat) := m.campTake l = some (src, type, pay)
    let u := numLE (slice 0 pay 0 8)
    let c := numLE (slice 0 pay 8 1)
    let n := cf.tries + 1
    let draw := m.drawBelow (2 ^ min n 10)
    let hit := draw.2.count CHN_CAMPCNT fCHN_CAMPCNT_COLLISIONS
    let put (x : Mach) (y : Option CampTx) := x.chnMod fun z => { z with camp := tabSet none z.camp seq.val y }
    let want := m.rd CHN_PEGCTL fCHN_PEGCTL_WANT
    let begun := m.rd SYS_BOOTSTAT fSYS_BOOTSTAT_STEP = 0 ∨ 7 ≤ m.rd SYS_BOOTSTAT fSYS_BOOTSTAT_STEP
    let may := m.campAddr = 0 ∧ m.chn.cand = none ∧ m.chn.enumIn = false ∧ m.bit CHN_STAT fCHN_STAT_PEG_FAIL = false ∧ begun
    let enumTo := m.rd CHN_PEGCTL fCHN_PEGCTL_ENUM_TO
    let waited := m.elapse (m.chn.pegStep + 4000000 * (if enumTo = 0 then 20 else enumTo) - m.tim.run)
    let held := m.elapse (m.chn.pegEnds - m.tim.run)
    let back := m.elapse (t - m.tim.run)
    let high := m.chnMod fun z => { z with enumIn := true }
    let own := (m.reg CHN_CFGGEN).toNat
    let b (i j : Nat) : Nat := numLE (slice 0 pay i j)
    let peer : Peer := ⟨b 0 4, b 4 8, b 12 4, b 16 1, b 17 1, b 18 1⟩
    let heard := m.chnMod fun z => { z with peers := tabSet none z.peers src (some peer) }
    let same := m.rd CHN_CFGSTAT fCHN_CFGSTAT_SEALGRP = peer.grp ∧ src ≠ m.campAddr
    let seals := peer.sl ≠ m.reg64 CHN_SEAL_LO CHN_SEAL_HI ∧ peer.flags / 2 % 2 = 0 ∧ m.bit CHN_CFGSTAT fCHN_CFGSTAT_SEAL_PENDING = false
    let named := m.chnMod fun z => { z with announced := some (b 0 4, b 4 6) }
    let ports := (if m.bit (CHN_GUYp_STAT 0) fCHN_GUYp_STAT_UP then 1 else 0) + if m.bit (CHN_GUYp_STAT 1) fCHN_GUYp_STAT_UP then 2 else 0
    let partner := m.rd CHN_PAIRCFG fCHN_PAIRCFG_PARTNER
    let met := (m.chnMod fun z => { z with partner := b 0 1, joined := z.joined && b 0 1 == 4, waitAt := m.tim.run }).wr CHN_PAIRSTAT fCHN_PAIRSTAT_PARTNER_SEEN 1
    let mine := m.rd CHN_PAIRCFG fCHN_PAIRCFG_PREFER
    let pairs := m.paired = true ∧ src = partner
    let serving := m.role = 2 ∨ m.role = 3
    let acts := if m.role = 3 then met.setRole 2 else met
    let at_ := m.now / 1000000000 / 2 ^ 32 * 2 ^ 32 + b 0 4
    let stat := CHN_GUYp_STAT p.val
    let up := m.bit stat fCHN_GUYp_STAT_UP = true
    let guy := m.getGuy p.val
    let got (type : Nat) := guyFrameOf words = some fr ∧ fr.type = type
    let x := m.guyAck p.val fr.ack
    let gap := (fr.seq + 4096 - (x.getGuy p.val).rx) % 4096
    let inOrder := (x.guyMod p.val fun z => { z with rx := (z.rx + 1) % 4096 }).guyAnswer p.val true
    let nackSeq := fr.arg % 4096
    let y := x.guyAck p.val ((nackSeq + 4095) % 4096)
    let helloAddr := (codeData (fr.payload.headD 0)).toNat / 2 ^ 59 % 32
    let home := (codeData (fr.payload.headD 0)).toNat % 2 ^ 64
    let kind := fr.arg % 16
    let off := fr.arg / 16 % 2 ^ 32
    let d := codeBytes fr.payload
    let fail (z : Mach) := (z.count (CHN_GUYp_CNT p.val) fCHN_GUYp_CNT_RETRIES (z.getGuy p.val).unacked.length).guyMod p.val fun g =>
      { g with fails := g.fails + 1, since := z.tim.run }
    let lapsed := m.elapse (guy.since + 1600 - m.tim.run)
    let told := (m.elapse (m.chn.roleAt - m.tim.run)).chnMod fun z => { z with roleAt := max m.tim.run z.roleAt + 4000000 }
    let over_ := m.elapse (m.chn.waitAt + 400000 * max 1 (m.rd CHN_PAIRCFG fCHN_PAIRCFG_WAIT_MS) - m.tim.run)
    let fence := (m.sysMod fun z => { z with fencePin := true }).wr CHN_STAT fCHN_STAT_PAIR_FENCE 1
    let w := (m.reach (t + 10000))
    let shut := ((w.chnMod fun z => { z with window := none, tested := false }).wr CHN_PAIRCTL fCHN_PAIRCTL_FTEST 0).wr CHN_PAIRSTAT fCHN_PAIRSTAT_FTEST_OK
      (if m.chn.tested || m.sys.fencePin then 1 else 0)
    let seen := shut.campSend partner 9 (bytesLE 1 (if m.chn.tested || m.sys.fencePin then 1 else 0))
    let missing := m.rd CHN_PAIRSTAT fCHN_PAIRSTAT_MISSING
    let due := m.role = 4 ∧ m.tokMiss ≤ missing ∧ m.chn.query = none
    let image := m.image
    let seqTypes : List (Instr × Nat) := [(.guyCommitReceive p words, 6), (.mirrorReceive p words, 7), (.cfgReceive p words, 8), (.payloadReceive p words, 9)]
    let plain : List (Instr × Nat) := [(.guyAckReceive p words, 0), (.guyNackReceive p words, 1), (.tokenReceive p words, 4), (.stokenReceive p words, 5),
      (.helloReceive p words, 10)]
    let camps : List (Instr × Nat) := [(.genReceive l, 3), (.campCommitReceive l, 4), (.pairQueryReceive l, 5), (.pairAliveReceive l, 6),
      (.fenceTestReceive l, 8), (.fenceSeenReceive l, 9)]
    (campBad l = true → Ends (.campBadFrame l) s (m.count CHN_CAMPCNT fCHN_CAMPCNT_CRC_ERR)) ∧
    (campBad l = false → Ends (.campBadFrame l) s m) ∧
    (m.campTake l = none → ∀ e ∈ camps, Ends e.1 s m) ∧
    (tabGet none m.chn.camp seq.val = none → Ends (.campCollision seq) s m ∧ Ends (.campBackoffEnd seq) s m) ∧
    (tabGet none m.chn.camp seq.val = some cf →
      (cf.wait = none → Ends (.campBackoffEnd seq) s m) ∧
      (cf.wait = some t → cf.bytes.getD 2 0 ≠ 1 → Ends (.campBackoffEnd seq) s (put back (some { cf with wait := none }))) ∧
      (cf.wait = some t → cf.bytes.getD 2 0 = 1 → back.chn.cand = some (cf.bytes.getD 14 0).toNat → Ends (.campBackoffEnd seq) s
        ((put back (some { cf with wait := none })).chnMod fun z => { z with pegEnds := back.tim.run + 402304 })) ∧
      (cf.wait = none → n < 16 → Ends (.campCollision seq) s (put hit (some { cf with tries := n, wait := some (hit.tim.run + 2048 * draw.1) })) ∧
        draw.1 < 2 ^ min n 10) ∧
      (cf.wait = none → 16 ≤ n → Ends (.campCollision seq) s ((put hit none).count CHN_CAMPCNT fCHN_CAMPCNT_DROPPED))) ∧
    (m.campAddr = 0 ∨ m.bit ARM_PLINTH fARM_PLINTH_RUN = false ∨ m.isFatal = true → Ends .genSend s m) ∧
    (m.campAddr ≠ 0 → m.bit ARM_PLINTH fARM_PLINTH_RUN = true → m.isFatal = false → Ends .genSend s
      ((m.reach (if m.tim.started then m.tim.beatTime.toNat - m.beat % 4 * m.beatNs + (m.campAddr - 1) * (4 * m.beatNs) / 16 else 0)).campSend 31 3
        (bytesLE 4 own ++ bytesLE 8 (m.reg64 CHN_SEAL_LO CHN_SEAL_HI) ++ bytesLE 4 (m.reg CHN_STGGEN).toNat ++ bytesLE 1 m.genFlags ++ bytesLE 1 m.role ++
          bytesLE 1 (m.rd CHN_CFGSTAT fCHN_CFGSTAT_SEALGRP) ++ bytesLE 4 (m.frame % 2 ^ 32)))) ∧
    (1 ≤ want → want ≤ 16 → m.chn.taken.contains want = false → m.peg = ((m.chnMod fun z => { z with cand := some want, pegEnds := m.tim.run + 402304 }).campSend 31 1
      (bytesLE 8 m.uid ++ bytesLE 1 want))) ∧
    (may → Ends .enumInRise s high.peg.bootNext ∧ Ends .enumTimeout s (waited.chnMod fun z => { z with forced := true }).peg.bootNext) ∧
    (m.campAddr ≠ 0 ∨ m.chn.cand ≠ none ∨ ¬ begun → Ends .enumInRise s high.bootNext ∧ Ends .enumTimeout s m.bootNext) ∧
    (m.chn.cand = none → Ends .pegWaitEnd s m.bootNext) ∧
    (m.chn.cand = some a → m.chn.forced = false → Ends .pegWaitEnd s ((((held.wr CHN_STAT fCHN_STAT_ADDR a).chnMod fun z =>
      { z with cand := none, enumOut := true, forced := false }).event 0x1401 0 [(1, a)]).bootNext)) ∧
    (cmd 1 →
      (m.campAddr ≠ 0 → c = m.campAddr → u ≠ m.uid → Ends (.pegReceive l) s (m.campSend 31 2 (bytesLE 8 u ++ bytesLE 1 c)).bootNext) ∧
      (m.campAddr = 0 → m.chn.cand = some c → u < m.uid → Ends (.pegReceive l) s (m.pegTaken c).peg.bootNext) ∧
      (m.campAddr = 0 → m.chn.cand ≠ some c ∨ m.uid ≤ u → Ends (.pegReceive l) s m.bootNext)) ∧
    (cmd 2 →
      (m.chn.cand = some c → Ends (.pegNakReceive l) s (m.pegTaken c).peg.bootNext) ∧
      (m.chn.cand ≠ some c → m.campAddr ≠ 0 → c = m.campAddr → Ends (.pegNakReceive l) s
        ((((m.wr CHN_STAT fCHN_STAT_ADDR 0).event 0x1403 0 [(1, c)]).pegTaken c).peg).bootNext) ∧
      (m.chn.cand ≠ some c → m.campAddr = 0 ∨ c ≠ m.campAddr → Ends (.pegNakReceive l) s m.bootNext)) ∧
    (cmd 3 → same → m.campAddr ≠ 0 →
      (peer.gen = own → seals → Ends (.genReceive l) s ((heard.wr CHN_CFGSTAT fCHN_CFGSTAT_MISMATCH 1).event 0x1410 0 [(1, src), (4, own)])) ∧
      (peer.gen = own → ¬ seals → Ends (.genReceive l) s heard) ∧
      (peer.gen ≠ own → m.chn.announced = none → Ends (.genReceive l) s heard)) ∧
    (cmd 3 → m.campAddr ≠ 0 → src = m.campAddr → m.rd CHN_CFGSTAT fCHN_CFGSTAT_SEALGRP ≠ peer.grp →
      Ends (.genReceive l) s (heard.event 0x1403 0 [(1, src)])) ∧
    (cmd 4 →
      (m.staged = true → (m.reg CHN_STGGEN).toNat = b 0 4 → m.beat < b 4 6 → Ends (.campCommitReceive l) s
        (named.chnMod fun z => { z with commit := some (b 0 4, b 4 6) })) ∧
      (m.staged = false ∨ (m.reg CHN_STGGEN).toNat ≠ b 0 4 → Ends (.campCommitReceive l) s (named.cfgMismatch src (b 0 4)))) ∧
    (cmd 5 → (m.isFatal = true → Ends (.pairQueryReceive l) s m) ∧
      (m.isFatal = false → Ends (.pairQueryReceive l) s (m.campSend src 6 (bytesLE 6 m.beat ++ bytesLE 1 m.role ++ bytesLE 1 ports ++
        bytesLE 1 (m.rd CHN_STAT fCHN_STAT_PAIR_FENCE))))) ∧
    (cmd 6 →
      (src ≠ partner → Ends (.pairAliveReceive l) s m) ∧
      (src = partner → m.chn.query ≠ none → Ends (.pairAliveReceive l) s ((m.chnMod fun z => { z with query := none, lagBar := true }).event 0x140B 0
        [(1, b 6 1), (1, b 7 1), (1, b 8 1)])) ∧
      (src = partner → m.chn.query = none → m.role = 5 → Ends (.pairAliveReceive l) s (m.count CHN_TOKCNT fCHN_TOKCNT_LATE))) ∧
    (cmd 7 → (¬ pairs → Ends (.roleReceive l) s m.bootNext) ∧
      (pairs → m.role = 1 → b 0 1 = 2 ∨ b 0 1 = 3 → Ends (.roleReceive l) s met.toStandbyRole.bootNext) ∧
      (pairs → m.role = 1 → b 0 1 = 1 → b 1 1 < 2 → m.sys.fencePin = false →
        (mine = 1 → b 1 1 = 0 → Ends (.roleReceive l) s ((met.toServing 2).roleSend src).bootNext) ∧
        (mine = 0 → b 1 1 = 1 → Ends (.roleReceive l) s met.toStandbyRole.bootNext) ∧
        (mine = b 1 1 → m.campAddr < partner → Ends (.roleReceive l) s ((met.toServing 2).roleSend src).bootNext) ∧
        (mine = b 1 1 → partner ≤ m.campAddr → Ends (.roleReceive l) s met.toStandbyRole.bootNext)) ∧
      (pairs → serving → b 0 1 = 2 ∨ b 0 1 = 3 → Ends (.roleReceive l) s (met.resolveTwo (b 2 6)).bootNext) ∧
      (pairs → serving → b 0 1 = 1 → Ends (.roleReceive l) s (acts.roleSend src).bootNext) ∧
      (pairs → serving → b 0 1 = 4 → m.chn.joined = false ∨ m.chn.partner ≠ 4 → Ends (.roleReceive l) s acts.unfence.pairJoin.bootNext) ∧
      (pairs → serving → b 0 1 = 6 → Ends (.roleReceive l) s (met.wr CHN_STAT fCHN_STAT_FENCE_DRV 1).bootNext)) ∧
    (cmd 8 → (m.role = 4 → Ends (.fenceTestReceive l) s (m.chnMod fun z => { z with pulse := some (at_ * 1000000000 + b 4 4) })) ∧
      (m.role ≠ 4 → Ends (.fenceTestReceive l) s m)) ∧
    (cmd 9 → (m.role = 4 → Ends (.fenceSeenReceive l) s (m.fenceResult (pay.getD 0 0 == 1))) ∧ (m.role ≠ 4 → Ends (.fenceSeenReceive l) s m)) ∧
    (¬ up → ∀ e ∈ plain ++ seqTypes, Ends e.1 s m) ∧
    (up → guyFrameOf words = none → (∀ e ∈ plain, Ends e.1 s m) ∧ ∀ e ∈ seqTypes, Ends e.1 s (m.guyAnswer p.val false)) ∧
    (up → guyFrameOf words = some fr → ∀ e ∈ plain ++ seqTypes, fr.type ≠ e.2 → Ends e.1 s m) ∧
    (up → guyFrameOf words = some fr → ∀ e ∈ seqTypes, fr.type = e.2 → (2048 ≤ gap → Ends e.1 s (x.guyAnswer p.val true)) ∧
      (0 < gap → gap < 2048 → Ends e.1 s (x.guyAnswer p.val false))) ∧
    (up → got 0 → Ends (.guyAckReceive p words) s x) ∧
    (up → got 1 → ((∀ e ∈ (y.getGuy p.val).unacked, e.1 ≠ nackSeq) → Ends (.guyNackReceive p words) s y) ∧
      ((y.getGuy p.val).unacked.findIdx? (fun e => e.1 == nackSeq) = some 0 → ((fail y).getGuy p.val).fails < 16 → Ends (.guyNackReceive p words) s (fail y)) ∧
      ((y.getGuy p.val).unacked.findIdx? (fun e => e.1 == nackSeq) = some 0 → 16 ≤ ((fail y).getGuy p.val).fails → Ends (.guyNackReceive p words) s
        ((fail y).guyDown p.val)) ∧
      ((y.getGuy p.val).unacked.findIdx? (fun e => e.1 == nackSeq) = some a → a ≠ 0 → Ends (.guyNackReceive p words) s
        (y.count (CHN_GUYp_CNT p.val) fCHN_GUYp_CNT_RETRIES ((y.getGuy p.val).unacked.length - a)))) ∧
    (up → got 4 → x.role ≠ 4 → Ends (.tokenReceive p words) s x) ∧
    (up → got 4 → x.role = 4 → fr.final = false → (∀ r, r < 3 → x.tsfOn (r + 1) = true) →
      let tok := tokenOf x.chn.token fr.payload
      let z := x.chnMod fun z => { z with token := some tok, lagBar := z.lagBar && x.chn.query.isSome }
      (x.beat ≤ tok.beat → Ends (.tokenReceive p words) s (z.chnMod fun q => { q with gotToken := true })) ∧
      (tok.beat < x.beat → Ends (.tokenReceive p words) s ((z.count CHN_TOKCNT fCHN_TOKCNT_LATE).wr CHN_PAIRSTAT fCHN_PAIRSTAT_MISSING 0))) ∧
    (up → got 5 → x.role ≠ 2 → Ends (.stokenReceive p words) s x) ∧
    (up → got 5 → x.role = 2 → Does (.stokenReceive p words) s fun z => z.chn.gotStoken = true ∧
      z.chn.peerInelig = (codeData (fr.payload.headD 0)).toNat / 2 ^ 18 % 256 ∧ z.keepsBut [.regs, .chn, .flt] x) ∧
    (up → got 6 → gap = 0 → (inOrder.role = 4 → Ends (.guyCommitReceive p words) s (inOrder.recWords fr.payload)) ∧
      (inOrder.role ≠ 4 → Ends (.guyCommitReceive p words) s inOrder)) ∧
    (up → got 7 → gap = 0 →
      (inOrder.role = 4 → fr.enc = false → Ends (.mirrorReceive p words) s (inOrder.recWords fr.payload)) ∧
      (inOrder.role = 4 → fr.enc = true → Ends (.mirrorReceive p words) s (inOrder.keyRecord (fr.arg % 2 ^ 16) d)) ∧
      (inOrder.role ≠ 4 → Ends (.mirrorReceive p words) s inOrder)) ∧
    (up → got 8 → gap = 0 → inOrder.role = 4 →
      (kind = 0 → off = 2 ^ 32 - 1 → Ends (.cfgReceive p words) s (inOrder.cfgInstall (numLE (slice 0 d 0 4)) (numLE (slice 0 d 4 6)))) ∧
      (kind = 0 → off ≠ 2 ^ 32 - 1 → Ends (.cfgReceive p words) s (inOrder.chnMod fun z =>
        { z with cfgBuf := tabSet [] z.cfgBuf 0 (memWrite (if off = 0 then [] else tabGet [] inOrder.chn.cfgBuf 0) off d) })) ∧
      (2 < kind → Ends (.cfgReceive p words) s inOrder)) ∧
    (up → got 8 → gap = 0 → inOrder.role ≠ 4 → Ends (.cfgReceive p words) s inOrder) ∧
    (up → got 9 → gap = 0 → (inOrder.role = 4 → Ends (.payloadReceive p words) s ((inOrder.dramWrites home (fr.payload.drop 1)).chnMod fun z =>
        { z with recs := ⟨0x89, home, []⟩ :: z.recs })) ∧ (inOrder.role ≠ 4 → Ends (.payloadReceive p words) s inOrder)) ∧
    (up → got 10 → Ends (.helloReceive p words) s
      (((x.wr stat fCHN_GUYp_STAT_PEER_ADDR helloAddr).pairShow p.val).followPair)) ∧
    (m.pairShow p.val = m.wr stat fCHN_GUYp_STAT_PAIR (if m.paired = true ∧ m.rd stat fCHN_GUYp_STAT_PEER_ADDR ≠ 0 ∧
      m.rd stat fCHN_GUYp_STAT_PEER_ADDR = partner then 1 else 0)) ∧
    (m.role ≠ 4 → m.followPair = m) ∧
    (m.role = 4 → m.bit (TIM_GUYp_CTL 0) fTIM_GUYp_CTL_FOLLOW = false → m.bit (TIM_GUYp_CTL 1) fTIM_GUYp_CTL_FOLLOW = false → m.pairPorts.head? = some a →
      m.followPair = m.guyCtl a (putFld (putFld 0 fTIM_GUYp_CTL_EN 1) fTIM_GUYp_CTL_FOLLOW 1)) ∧
    (guy.unacked = [] → Ends (.guyRetryTimeout p) s m) ∧
    (guy.unacked ≠ [] → 
      (((fail lapsed).getGuy p.val).fails < 16 → Ends (.guyRetryTimeout p) s (fail lapsed)) ∧
      (16 ≤ ((fail lapsed).getGuy p.val).fails → Ends (.guyRetryTimeout p) s ((fail lapsed).guyDown p.val))) ∧
    (¬ up → Ends (.guyLinkDown p) s m) ∧
    (up → Ends (.guyLinkDown p) s (((((m.wr stat fCHN_GUYp_STAT_UP 0).count (CHN_GUYp_CNT p.val) fCHN_GUYp_CNT_DOWNS).guyMod p.val fun _ => Guy.zero).chnMod
      fun z => { z with ackN := z.ackN + guy.unacked.length + guy.waiting.length }).event 0x1404 p.val [(1, p.val), (1, 0)])) ∧
    (up → Ends (.guyLinkUp p) s m) ∧
    (¬ up → Ends (.guyLinkUp p) s ((((m.wr stat fCHN_GUYp_STAT_UP 1).guyMod p.val fun _ => Guy.zero).event 0x1404 p.val [(1, p.val), (1, 1)]).helloSend p.val)) ∧
    (m.role ≠ 1 → Ends .roleSend s m) ∧
    (m.role = 1 → m.bit (CHN_GUYp_STAT 0) fCHN_GUYp_STAT_UP = true → m.bit (CHN_GUYp_STAT 1) fCHN_GUYp_STAT_UP = true →
      Ends .roleSend s (((told.roleSend partner).helloSend 0).helloSend 1)) ∧
    (m.role = 1 → m.bit (CHN_GUYp_STAT 0) fCHN_GUYp_STAT_UP = false → m.bit (CHN_GUYp_STAT 1) fCHN_GUYp_STAT_UP = false →
      Ends .roleSend s (told.roleSend partner)) ∧
    (let lost := (over_.chnMod fun z => { z with waitAt := over_.tim.run }).wr CHN_PAIRSTAT fCHN_PAIRSTAT_PARTNER_SEEN 0
     (m.role ≠ 1 → Ends .pairWaitExpire s lost.bootNext) ∧
     (m.role = 1 → m.bit CHN_PAIRCFG fCHN_PAIRCFG_ALONE_OK = true → Ends .pairWaitExpire s (lost.toServing 3).bootNext) ∧
     (m.role = 1 → m.bit CHN_PAIRCFG fCHN_PAIRCFG_ALONE_OK = false → Ends .pairWaitExpire s (lost.event 0x1405 0 []).bootNext)) ∧
    (let cut := fence.airCut
     (m.inWindow = true → Ends .pairFenceRise s (cut.chnMod fun z => { z with tested := true }).bootNext) ∧
     (m.inWindow = false → serving → Ends .pairFenceRise s cut.fenced.bootNext) ∧
     (m.inWindow = false → ¬ serving → Ends .pairFenceRise s cut.bootNext)) ∧
    Ends .pairFenceFall s (((m.sysMod fun z => { z with fencePin := false }).wr CHN_STAT fCHN_STAT_PAIR_FENCE 0).chnMod fun z =>
      { z with tested := z.tested || m.sys.fencePin && m.inWindow }) ∧
    (m.chn.window = none → Ends .fenceWindowEnd s m) ∧
    (m.chn.window = some t → (m.sys.fencePin = true → serving → Ends .fenceWindowEnd s seen.fenced) ∧
      (m.sys.fencePin = false ∨ ¬ serving → Ends .fenceWindowEnd s seen)) ∧
    (m.chn.pulse = none ∨ m.role ≠ 4 → Ends .fencePulse s m ∧ Ends .fencePulseEnd s m) ∧
    (m.chn.pulse = some t → m.role = 4 → Ends .fencePulse s ((m.reach t).wr CHN_STAT fCHN_STAT_FENCE_DRV 1) ∧
      Ends .fencePulseEnd s (((m.reach (t + 2000)).chnMod fun z => { z with pulse := none }).wr CHN_STAT fCHN_STAT_FENCE_DRV 0)) ∧
    (m.role = 4 → Ends .fenceSeenTimeout s ((m.chnMod fun z => { z with fenceBar := true }).wr CHN_PAIRSTAT fCHN_PAIRSTAT_FTEST_OK 0)) ∧
    (m.role ≠ 4 → Ends .fenceSeenTimeout s m) ∧
    (let z := putFld v fCHN_PAIRCTL_FTEST 1
     getFld z fCHN_PAIRCTL_SWITCH = 0 → getFld z fCHN_PAIRCTL_UNFENCE = 0 →
      (m.role = 2 → Ends (.ftest v) s m.fenceTest) ∧ (m.role ≠ 2 → Ends (.ftest v) s m)) ∧
    (let z := putFld v fCHN_PAIRCTL_SWITCH 1
     getFld z fCHN_PAIRCTL_FTEST = 0 → getFld z fCHN_PAIRCTL_UNFENCE = 0 →
      (m.role ≠ 2 → Ends (.switch v) s m) ∧
      (m.role = 2 → m.chn.partner = 4 → m.chn.peerInelig = 0 → m.chn.gotStoken = true → Ends (.switch v) s (m.chnMod fun z =>
        { z with switchAt := some (m.frame + 2) })) ∧
      (m.role = 2 → m.chn.partner ≠ 4 ∨ m.chn.peerInelig ≠ 0 → Ends (.switch v) s (m.event 0x1407 0 [(1, m.chn.peerInelig)]))) ∧
    (let z := putFld v fCHN_PAIRCTL_UNFENCE 1
     getFld z fCHN_PAIRCTL_FTEST = 0 → getFld z fCHN_PAIRCTL_SWITCH = 0 → Ends (.unfence v) s (m.wr CHN_STAT fCHN_STAT_FENCE_DRV 0)) ∧
    (m.role ≠ 4 ∨ missing < m.tokMiss ∨ m.chn.query ≠ none → Ends .takeoverQuery s m) ∧
    (due → (m.inelig ≠ 0 → Ends .takeoverQuery s (m.event 0x1407 0 [(1, m.inelig)])) ∧
      (m.inelig = 0 → Ends .takeoverQuery s ((m.chnMod fun z => { z with query := some m.now }).campSend partner 5 (bytesLE 6 m.beat)))) ∧
    (m.chn.query = none → Ends (.pairQueryRepeat k) s m ∧ Ends .takeoverFence s m) ∧
    (m.chn.query = some t → (k ≠ 0 → let z := m.reach (t + 500000 * k.val)
        Ends (.pairQueryRepeat k) s (z.campSend m.partnerAddr 5 (bytesLE 6 z.beat))) ∧
      (let z := ((m.reach (t + 2000000)).chnMod fun z => { z with query := none }).wr CHN_STAT fCHN_STAT_FENCE_DRV 1
       Ends .takeoverFence s ((z.takeRaise.roleSend 31).event 0x1409 0 [(6, m.beat)]))) ∧
    (m.role = 5 → m.arm.change = 7 → m.arm.confirmed = false → Ends .takeoverVrRetry s ((m.armMod fun z => { z with settle := false }).drive m.arm.target)) ∧
    (m.role ≠ 5 ∨ m.arm.change ≠ 7 ∨ m.arm.confirmed = true → Ends .takeoverVrRetry s m) ∧
    (v.toNat < m.rd WMAC_PNCTL fWMAC_PNCTL_BLOCK * 1024 → Ends (.pnjumpWrite v) s (m.refused CHN_PNJUMP 0)) ∧
    (m.rd WMAC_PNCTL fWMAC_PNCTL_BLOCK * 1024 ≤ v.toNat → Ends (.pnjumpWrite v) s (m.plainWrite CHN_PNJUMP v)) ∧
    (m.bit CHN_CFGSTAT fCHN_CFGSTAT_SEAL_PENDING = false → Ends .sealDone s m) ∧
    (m.bit CHN_CFGSTAT fCHN_CFGSTAT_SEAL_PENDING = true → Ends .sealDone s
      (((m.dramWrites (m.reg64 CHN_IMGBASE_LO CHN_IMGBASE_HI) (codesOf image)).setReg64 CHN_SEAL_LO CHN_SEAL_HI (crcOf crc64 image)).wr CHN_CFGSTAT
        fCHN_CFGSTAT_SEAL_PENDING 0))

/-! ### Faults, checkpoints, power and start-up (18_faults_and_replay.md, 19_power.md, 20_startup.md, 21_electrical_and_package.md) -/

/-- BLOCK_ILLEGAL_STATE, BLOCK_STUCK, FATAL, CHECKPOINT_CAPTURE, CHECKPOINT_DONE, CHECKPOINT_RESTORE, PWR_RETAIN, PWR_OFF, PWR_ACTIVE, PWR_CANCEL,
UNIT_IDLE, PWR_ENTRY_DONE, PWR_WAKE, PWR_WAKE_DONE, BIVOUAC_TIMER_WAKE, PORST_RELEASE, PORST_ASSERT, MAIN_POWER_FAIL, MAIN_POWER_GOOD, PERST_RELEASE,
PCIE_READY_CAP, AUTO_TIME_SEARCH, AUTO_PAIR_TIMEOUT, AUTO_CANCEL, LANTERN_START, LANTERN_RESET and TEMP_SAMPLE: a block's restart is noted for the next beat start; a
core block's illegal state is fatal; checkpoints are captured, sealed and restored; a unit's gating is refused or pends, begins at Idle, ends, and a wake is never
lost; the start-up's steps begin, a loss or PORST resets the main domain and keeps the lantern; AUTO ends or finds its time; the sensors
drive TEMP, THERM_N and the forced enables; a write for the lantern's block while that is Off does nothing but set BRIDGE_ERR (R19, R38, R239, R573, R660, R669, R680 to R683, R691 to R700, R704, R707 to R709, R718 to R724, R732, R734, R735, R741 to R746). -/
def Obligations.RestartsCheckpointsPowerAndStartProceed : Prop :=
  ∀ (s : State) (blk : Fin 24) (u : Fin 16) (beats slot seq g a : Nat) (v : BitVec 32) (src : Fin 8) (straps : BitVec 5) (linear : Bool)
      (speed width : BitVec 4) (sensors : List (BitVec 16)) (radios : List (BitVec 8)) (c : Ckpt) (bytes : List Byte),
    let m := s.m
    let b := blk.val
    let restarts := b ∈ [5, 6, 7, 8, 9, 10, 11, 12, 14, 15, 17, 19, 20, 23]
    let core := b ∈ [0, 1, 3, 4, 16, 18, 21, 22]
    let asked := m.flt.restarting.contains (100 + b) = true
    let noted := m.fltMod fun f => { f with restarting := f.restarting ++ [100 + b] }
    let due := m.bit FLT_CKCTL fFLT_CKCTL_EN = true ∧ m.flt.ckDue = true
    let newest := Mach.ckNewest false [0, 1, 2, 3] m.ckAbandon
    let mark (y : Mach) := y.keysUsed.map fun e => (e.1, e.2.gen, e.2.pn + 2 ^ y.pnWindow)
    let begun (k n : Nat) := (newest.1.fltMod fun f => { f with ckDue := false, ckpt := some ⟨k, n, newest.1.ckBytes k n, mark newest.1⟩ }).wr FLT_CKSTAT
      fFLT_CKSTAT_STATUS 1
    let sealed := (((((m.fltMod fun f => { f with ckpt := none }).nvmBytes (ckAddr c.slot) (codesOf (c.bytes ++ sealBlock c.bytes))).setReg64 FLT_CKSEQ_LO
      FLT_CKSEQ_HI c.seq).wr FLT_CKSTAT fFLT_CKSTAT_STATUS 2).wr FLT_CKSTAT fFLT_CKSTAT_SLOT c.slot)
    let wrote := m.plainWrite FLT_CKCTL (putFld v fFLT_CKCTL_RESTORE 1)
    let taken := wrote.wr FLT_CKCTL fFLT_CKCTL_RESTORE 0
    let mineNewest := Mach.ckNewest true [0, 1, 2, 3] taken
    let ctl := PWRCTL b
    let set (z : W32) := ((m.wr ctl fPWRCTL_REQ (getFld z fPWRCTL_REQ)).wr ctl fPWRCTL_WAKEEN (getFld z fPWRCTL_WAKEEN)).wr ctl fPWRCTL_UNITS
      (getFld z fPWRCTL_UNITS)
    let retain := putFld (putFld v fPWRCTL_REQ 1) fPWRCTL_GO 1
    let off := putFld (putFld v fPWRCTL_REQ 2) fPWRCTL_GO 1
    let active := putFld (putFld v fPWRCTL_REQ 0) fPWRCTL_GO 1
    let cancel := putFld v fPWRCTL_CANCEL 1
    let keep := getFld v fPWRCTL_CANCEL = 0
    let follows := (5 ≤ b ∧ b ≤ 10) ∨ b = 13
    let reaches := b = 13 → m.lanternOn = true
    let bridged := m.wr SYS_DOMSTAT fSYS_DOMSTAT_BRIDGE_ERR 1
    let one := u.val < pwrUnits b ∧ getFld v fPWRCTL_UNITS = 2 ^ u.val
    let unit := m.pwrUnit b u.val
    let want (z : W32) (r : Nat) := (set z).setPwr b u.val { unit with want := some r }
    let given := m.actValid = true ∧ m.act.gives u.val = true
    let pend := (List.range (pwrUnits b)).filter fun i => (m.pwrUnit b i).want.isSome
    let wakes := if unit.entering.isSome then m.setPwr b u.val { unit with wakeDue := true }
      else if unit.gate ≠ 0 then m.setPwr b u.val { unit with waking := true } else m
    let lantern := m.rd SYS_DOMSTAT fSYS_DOMSTAT_LANT_STATE
    let released := ((m.sysMod fun z => { z with porst := true }).setReg SYS_STRAPS (straps.setWidth 32)).timMod fun t => { t with up := 0 }
    let good := m.sysMod fun z => { z with powerGood := true }
    let fell := m.mainLost.mainReset
    let asserted := (if m.lanternOn then m.mboxClose else m).mainReset
    let trained := m.sysMod fun z => { z with perst := true }
    let mayAuto := m.bit SYS_STRAPS fSYS_STRAPS_AUTO_EN = true ∧ m.sys.autoFlags.getLsbD 0 = true ∧ m.sys.auto ≤ 1 ∧ m.actValid = false ∧ m.bootStep = 10 ∧
      m.role ≠ 1 ∧ m.bit MEM_STAT fMEM_STAT_TRAIN_FAIL = false
    let asks := if m.sys.auto = 1 then m.elapse (m.sys.autoReq - m.tim.run) else m
    let search := (asks.wr SYS_BOOTSTAT fSYS_BOOTSTAT_AUTO_BUSY 1).sysMod fun z =>
      { z with auto := 1, autoAt := if m.sys.auto = 1 then z.autoAt else asks.tim.run, autoReq := asks.tim.run + 400000 }
    let ended (y : Mach) := (y.sysMod fun z => { z with auto := 0 }).wr SYS_BOOTSTAT fSYS_BOOTSTAT_AUTO_BUSY 0
    let site (y : Mach) := y.sys.autoFlags.getLsbD 2 = true ∧ y.bit SYS_BOOTCTL fSYS_BOOTCTL_TB4_SITE = true
    let boot := m.wr SYS_BOOTCTL fSYS_BOOTCTL_TB4_SITE (getFld (putFld v fSYS_BOOTCTL_AUTO_CANCEL 1) fSYS_BOOTCTL_TB4_SITE)
    let hot := hottest 0 (sensors.map BitVec.toInt)
    let est := hot.2 - (m.rd SYS_THCTL fSYS_THCTL_JC_DROP : Nat)
    let limit := caseLimit (m.rd ARM_STAT fARM_STAT_ACT_PROFILE)
    (restarts → ¬ asked → Ends (.blockIllegalState blk) s noted) ∧
    (¬ restarts ∨ asked → Ends (.blockIllegalState blk) s m) ∧
    (restarts → ¬ asked → max 1 (m.rd FLT_CTL fFLT_CTL_STUCK_BEATS) ≤ beats → Ends (.blockStuck blk beats) s noted) ∧
    (¬ restarts ∨ asked ∨ beats < max 1 (m.rd FLT_CTL fFLT_CTL_STUCK_BEATS) → Ends (.blockStuck blk beats) s m) ∧
    (¬ core → Ends (.fatal blk) s m) ∧
    (core → Ends (.fatal blk) s (((m.enterHold.wr FLT_STAT fFLT_STAT_FATAL 1).faultRecord ⟨6, blkPort b, 0, 0, 0, 0, 0, 0, 0⟩).event 0x1506 0 [(1, b)])) ∧
    (let sec := (m.getBase 0).s.toNat
     let period := max 60 (min 3600 (m.rd FLT_CKCTL fFLT_CKCTL_PERIOD_S))
     ∀ first, (m.ckBeat first).flt.beatSec = sec ∧ ((m.ckBeat first).flt.ckDue = true ↔ m.flt.ckDue = true ∨
       m.bit FLT_CKCTL fFLT_CKCTL_EN = true ∧ ((first = true ∧ sec % period = 0) ∨ (first = false ∧ m.flt.beatSec / period < sec / period)))) ∧
    (¬ due → Ends .checkpointCapture s m) ∧
    (due → (newest.2 = none → Ends .checkpointCapture s (begun 0 1)) ∧
      (newest.2 = some (slot, seq, bytes) → Ends .checkpointCapture s (begun ((slot + 1) % 4) (seq + 1)))) ∧
    (m.flt.ckpt = none → Ends .checkpointDone s m) ∧
    (m.flt.ckpt = some c → Ends .checkpointDone s ((sealed.forEach c.marks fun y k =>
      if (y.keyE k.1).used && (y.keyE k.1).gen == k.2.1 then y.setKeyE k.1 { y.keyE k.1 with limit := some k.2.2 } else y).event 0x1507 0
        [(1, c.slot), (4, c.seq)])) ∧
    (m.arm.ran = true ∨ m.role = 4 → Ends (.checkpointRestore v) s taken) ∧
    (m.arm.ran = false → m.role ≠ 4 → mineNewest.2 = none → Ends (.checkpointRestore v) s (mineNewest.1.wr FLT_CKSTAT fFLT_CKSTAT_STATUS 5)) ∧
    (m.arm.ran = false → m.role ≠ 4 → mineNewest.2 = some (slot, seq, bytes) → Does (.checkpointRestore v) s fun y =>
      y.rd FLT_CKSTAT fFLT_CKSTAT_STATUS = 4 ∧ y.rd FLT_CKSTAT fFLT_CKSTAT_SLOT = slot % 4 ∧
      y.reg64 FLT_CKSEQ_LO FLT_CKSEQ_HI = seq % 2 ^ 64) ∧
    (¬ reaches → Ends (.pwrRetain blk v) s bridged ∧ Ends (.pwrOff blk v) s bridged ∧ Ends (.pwrActive blk v) s bridged ∧
      Ends (.pwrCancel blk v) s bridged) ∧
    (keep → follows → reaches → Ends (.pwrRetain blk v) s (set retain) ∧ Ends (.pwrOff blk v) s (set off) ∧ Ends (.pwrActive blk v) s (set active)) ∧
    (keep → pwrUnits b = 0 → ¬ follows → Ends (.pwrRetain blk v) s ((set retain).pwrLast b 2) ∧ Ends (.pwrOff blk v) s ((set off).pwrLast b 2) ∧
      Ends (.pwrActive blk v) s ((set active).pwrLast b 0)) ∧
    (keep → one → unit.gate = 0 →
      (b = blkENG → given → Ends (.pwrRetain blk v) s ((set retain).pwrLast b 1) ∧ Ends (.pwrOff blk v) s ((set off).pwrLast b 1)) ∧
      (b = blkENG ∧ ¬ given ∨ b = blkCHK → Ends (.pwrRetain blk v) s (want retain 2) ∧ Ends (.pwrOff blk v) s (want off 3)) ∧
      (b = blkIDM → Ends (.pwrRetain blk v) s (want retain 2) ∧ Ends (.pwrOff blk v) s ((set off).pwrLast b 2)) ∧
      (b = blkUPL ∨ b = blkCHN → Ends (.pwrRetain blk v) s ((set retain).pwrLast b 2)) ∧
      (b = blkUPL → (m.rd (UPL_Pp_CFG u.val) fUPL_Pp_CFG_MODE = 0 → Ends (.pwrOff blk v) s (want off 3)) ∧
        (m.rd (UPL_Pp_CFG u.val) fUPL_Pp_CFG_MODE ≠ 0 → Ends (.pwrOff blk v) s ((set off).pwrLast b 2))) ∧
      (b = blkCHN → m.bit (TIM_GUYp_CTL u.val) fTIM_GUYp_CTL_EN = false → m.bit (CHN_GUYp_STAT u.val) fCHN_GUYp_STAT_PAIR = false →
        Ends (.pwrOff blk v) s (want off 3)) ∧
      (b = blkCHN → m.bit (TIM_GUYp_CTL u.val) fTIM_GUYp_CTL_EN = true ∨ m.bit (CHN_GUYp_STAT u.val) fCHN_GUYp_STAT_PAIR = true →
        Ends (.pwrOff blk v) s ((set off).pwrLast b 2))) ∧
    (keep → one → Ends (.pwrActive blk v) s (((set active).pwrLast b 0).pwrWake b u.val)) ∧
    (getFld v fPWRCTL_GO = 0 → reaches → (pend = [] → Ends (.pwrCancel blk v) s (set cancel)) ∧
      (pend = [u.val] → Ends (.pwrCancel blk v) s (((set cancel).setPwr b u.val { unit with want := none }).pwrLast b 3))) ∧
    (unit.want = none ∨ m.unitBusy b u.val = true → Ends (.unitIdle blk u) s m) ∧
    (unit.want = some g → m.unitBusy b u.val = false → Ends (.unitIdle blk u) s (m.setPwr b u.val { unit with want := none, entering := some g })) ∧
    (unit.entering = none → Ends (.pwrEntryDone blk u) s m) ∧
    (unit.entering = some g → Ends (.pwrEntryDone blk u) s ((m.setPwr b u.val { unit with gate := g, entering := none, waking := unit.wakeDue, wakeDue := false }).pwrLast b
      (if unit.wakeDue then 4 else 0))) ∧
    Ends (.pwrWake blk u none) s wakes ∧
    ((getFld (m.reg ctl) fPWRCTL_WAKEEN).testBit src.val = true → Ends (.pwrWake blk u (some src)) s wakes) ∧
    ((getFld (m.reg ctl) fPWRCTL_WAKEEN).testBit src.val = false → Ends (.pwrWake blk u (some src)) s m) ∧
    (unit.waking = false → Ends (.pwrWakeDone blk u) s m) ∧
    (unit.waking = true →
      (unit.gate ≠ 3 → Ends (.pwrWakeDone blk u) s ((m.setPwr b u.val { unit with gate := 0, waking := false }).count (PWRSTAT b) fPWRSTAT_WAKES)) ∧
      (unit.gate = 3 → Ends (.pwrWakeDone blk u) s (((m.unitLost b u.val).setPwr b u.val { unit with gate := 0, waking := false }).count (PWRSTAT b)
        fPWRSTAT_WAKES)) ∧
      (b = blkENG → ((m.unitLost b u.val).getTe u.val).st = .idle ∧ ∀ i, i < 7168 → memRead ((m.unitLost b u.val).getTe u.val).lmem (i / 2 * 18) 18 =
        List.replicate 18 0)) ∧
    (lantern = 3 → m.lkAhead = none → Ends .bivouacTimerWake s m) ∧
    (lantern = 3 → m.lkAhead = some a → let m := m.elapse (((m.mlink.timer / 2000 + a - 2000) * 2000 - m.mlink.timer + 4) / 5)
      Ends .bivouacTimerWake s (((m.lanternState 2).count (PWRSTAT blkMSH) fPWRSTAT_WAKES).lcMod fun l => { l with st := l.st % 2 + 4 })) ∧
    (lantern ≠ 3 → Ends .bivouacTimerWake s m) ∧
    (m.sys.porst = true → Ends (.porstRelease straps linear) s m) ∧
    (m.sys.porst = false → m.sys.powerGood = false → Ends (.porstRelease straps linear) s (released.wr SYS_BOOTSTAT fSYS_BOOTSTAT_STEP 1)) ∧
    (m.sys.porst = false → m.sys.powerGood = true → Ends (.porstRelease straps linear) s (released.startUp linear)) ∧
    (m.sys.powerGood = true → Ends (.mainPowerGood linear) s m) ∧
    (m.sys.powerGood = false → (m.sys.porst = true → Ends (.mainPowerGood linear) s (good.startUp linear)) ∧
      (m.sys.porst = false → Ends (.mainPowerGood linear) s good)) ∧
    (m.sys.powerGood = false → Ends .mainPowerFail s m) ∧
    (m.sys.powerGood = true → Ends .mainPowerFail s ((fell.setReg SYS_STRAPS (m.reg SYS_STRAPS)).sysMod fun z => { z with powerGood := false }) ∧
      fell.lc = m.mainLost.lc ∧ fell.mrad = m.mrad ∧ fell.mlink = m.mainLost.mlink ∧ fell.nvm.cells = m.nvm.cells ∧ fell.getBase 4 = m.getBase 4 ∧
      (∀ j, fell.getTe j = Te.zero) ∧ (∀ h, h < 248 → fell.getChan h = Chan.zero) ∧ fell.radios = Mach.reset.radios ∧
      ∀ r, r / 0x10000 ≠ 0 → r / 0x10000 ≠ blkNVM → keptReg r = false → r ≠ CHN_STAT → fell.reg r = regReset r) ∧
    Ends .porstAssert s ((asserted.sysMod fun z => { z with porst := false }).wr SYS_BOOTSTAT fSYS_BOOTSTAT_STEP 1) ∧
    (m.bit SYS_STRAPS fSYS_STRAPS_PCIE_EN = false → Ends (.perstRelease speed width) s trained) ∧
    (m.bit SYS_STRAPS fSYS_STRAPS_PCIE_EN = true → Ends (.perstRelease speed width) s
      ((trained.wr HIF_STAT fHIF_STAT_SPEED speed.toNat).wr HIF_STAT fHIF_STAT_WIDTH width.toNat)) ∧
    (m.sys.ready = true ∨ m.sys.porst = false → Ends .pcieReadyCap s m) ∧
    (m.sys.ready = false → m.sys.porst = true → Ends .pcieReadyCap s ((m.elapse (980 * 400000 - m.tim.up)).bootReady).bootNext ∧
      m.bootReady = (m.sysMod fun z => { z with ready := true }).wr SYS_BOOTTIME fSYS_BOOTTIME_READY_MS (min 0xFFFF (m.tim.up / 400000))) ∧
    (¬ mayAuto → Ends .autoTimeSearch s m) ∧
    (mayAuto → m.role ≠ 4 → ¬ site search → Ends .autoTimeSearch s (ended search)) ∧
    (mayAuto → m.role = 4 → m.sys.autoFlags.getLsbD 1 = true → m.pairPorts = [a] → Ends .autoTimeSearch s
      (search.setGuyTime a { search.guyTime a with t1 := some search.stamp, t1old := none })) ∧
    (mayAuto → m.role ≠ 4 → site search → search.bit ARM_PLINTH fARM_PLINTH_RUN = false → Ends .autoTimeSearch s
      ((search.capture.tb0Set ((search.getBase 4).total : Int)).autoRun 2)) ∧
    (m.sys.auto ≠ 1 → Ends .autoPairTimeout s m) ∧
    (m.sys.auto = 1 → let y := m.elapse (m.sys.autoAt + 1600000 - m.tim.run)
      ¬ site y → Ends .autoPairTimeout s (ended y)) ∧
    (m.autoHolds = true → Ends (.autoCancel v) s (ended boot)) ∧
    (m.autoHolds = false → Ends (.autoCancel v) s boot) ∧
    (lantern ≠ 0 → Ends .lanternStart s m) ∧
    (lantern = 0 → Does .lanternStart s fun y => y.getBase 4 = Base.zero ∧ y.lc.code = m.lc.code ∧ y.lc.pc = 0 ∧ y.mlink.fcnt = m.mlink.mark ∧
      y.mrad.buckets = m.mrad.saved ∧ y.te = m.te ∧ y.nvm = m.nvm ∧
      (m.mrad.copyOk = false → y.rd SYS_DOMSTAT fSYS_DOMSTAT_LANT_STATE = 1 ∧ y.rd SYS_BOOTCTL fSYS_BOOTCTL_TB4_SITE = 0)) ∧
    Does .lanternReset s (fun y => y.rd SYS_DOMSTAT fSYS_DOMSTAT_LANT_STATE = 0 ∧ y.getBase 4 = Base.zero ∧ (∀ h, 248 ≤ h → y.getChan h = Chan.zero) ∧
      y.lc = { Lc.zero with code := m.lc.code } ∧ y.mlink.live = m.mlink.live ∧ y.mlink.log = m.mlink.log ∧ y.mlink.mark = m.mlink.mark ∧
      (∀ r, r / 0x10000 = blkMSH → y.reg r = regReset r) ∧ y.te = m.te ∧ y.nvm = m.nvm ∧ y.radios = m.radios) ∧
    (sensors.length = 12 → radios = [] → Does (.tempSample sensors radios) s fun y =>
      y.rd SYS_TEMP fSYS_TEMP_TJ_MAX = wrapInt 16 hot.2 ∧ y.rd SYS_TEMP fSYS_TEMP_CASE_EST = wrapInt 16 est ∧
      y.rd SYS_THSTAT fSYS_THSTAT_HOTTEST = hot.1 ∧
      (560 ≤ hot.2 → m.sys.therm = false → y.rd SYS_THSTAT fSYS_THSTAT_THERM = 1 ∧ y.sys.therm = true) ∧
      (580 ≤ hot.2 → y.rd SYS_THSTAT fSYS_THSTAT_FORCED = 1) ∧
      (hot.2 < 540 → y.rd SYS_THSTAT fSYS_THSTAT_THERM = 0 ∧ y.rd SYS_THSTAT fSYS_THSTAT_FORCED = 0 ∧ y.sys.therm = false) ∧
      (limit < est → m.sys.caseOver = false → y.sys.caseOver = true ∧ y.rd SYS_THSTAT fSYS_THSTAT_CASE_OVER = 1) ∧
      (m.sys.caseOver = true → y.sys.caseOver = decide (limit - 8 < est)))
end

