-- ==== Sys2Proof/Laws/Memory.lean ====
section
/-! SUPPORT. The laws of sparse tables and byte memories: read after write, and the canonical form kept by every operation. -/

namespace Sys2Proof.Machine

open Sys2Proof

/-! ### Tables -/

theorem tabGet_tabErase_same {α : Type} (d : α) (t : Tab α) (k : Nat) : tabGet d (tabErase t k) k = d := by
  induction t with
  | nil => rfl
  | cons e r ih =>
    obtain ⟨j, v⟩ := e
    by_cases h : j = k <;> simp [tabErase, h, tabGet, ih]

theorem tabGet_tabErase_ne {α : Type} (d : α) (t : Tab α) {k i : Nat} (h : i ≠ k) :
    tabGet d (tabErase t k) i = tabGet d t i := by
  induction t with
  | nil => rfl
  | cons e r ih =>
    obtain ⟨j, v⟩ := e
    by_cases hj : j = k
    · subst hj; simp [tabErase, tabGet, ih, Ne.symm h]
    · simp only [tabErase, hj, if_false, tabGet, ih]

theorem tabGet_tabInsert_same {α : Type} (d : α) (t : Tab α) (k : Nat) (v : α) (h : ∀ w, (k, w) ∉ t) :
    tabGet d (tabInsert t k v) k = v := by
  induction t with
  | nil => simp [tabInsert, tabGet]
  | cons e r ih =>
    obtain ⟨j, w⟩ := e
    have hj : j ≠ k := fun x => h w (by simp [x])
    by_cases hk : k < j
    · simp [tabInsert, hk, tabGet]
    · simp [tabInsert, hk, tabGet, hj, ih fun x hx => h x (by simp [hx])]

theorem tabGet_tabInsert_ne {α : Type} (d : α) (t : Tab α) {k i : Nat} (v : α) (h : i ≠ k) :
    tabGet d (tabInsert t k v) i = tabGet d t i := by
  induction t with
  | nil => simp [tabInsert, tabGet, Ne.symm h]
  | cons e r ih =>
    obtain ⟨j, w⟩ := e
    by_cases hk : k < j
    · simp [tabInsert, hk, tabGet, Ne.symm h]
    · simp only [tabInsert, hk, if_false, tabGet, ih]

theorem not_mem_tabErase {α : Type} (t : Tab α) (k : Nat) (w : α) : (k, w) ∉ tabErase t k := by
  induction t with
  | nil => simp [tabErase]
  | cons e r ih =>
    obtain ⟨j, v⟩ := e
    by_cases h : j = k
    · simp [tabErase, h, ih]
    · simp [tabErase, h, ih, Ne.symm h]

/-- A table reads at a key what was set there. -/
@[simp] theorem tabGet_tabSet_same {α : Type} [DecidableEq α] (d : α) (t : Tab α) (k : Nat) (v : α) :
    tabGet d (tabSet d t k v) k = v := by
  by_cases h : v = d
  · simp [tabSet, h, tabGet_tabErase_same]
  · simp [tabSet, h, tabGet_tabInsert_same _ _ _ _ fun w => not_mem_tabErase t k w]

/-- A table reads at every other key what it read before. -/
theorem tabGet_tabSet_ne {α : Type} [DecidableEq α] (d : α) (t : Tab α) {k i : Nat} (v : α) (h : i ≠ k) :
    tabGet d (tabSet d t k v) i = tabGet d t i := by
  by_cases hv : v = d
  · simp [tabSet, hv, tabGet_tabErase_ne d t h]
  · simp [tabSet, hv, tabGet_tabInsert_ne d _ v h, tabGet_tabErase_ne d t h]

theorem tabSorted_mono {α : Type} {t : Tab α} {lo hi : Nat} (h : lo ≤ hi) (ht : tabSorted hi t = true) :
    tabSorted lo t = true := by
  cases t with
  | nil => rfl
  | cons e r =>
    simp only [tabSorted, Bool.and_eq_true, decide_eq_true_eq] at ht ⊢
    exact ⟨by omega, ht.2⟩

theorem tabSorted_tabErase {α : Type} (t : Tab α) (k lo : Nat) (h : tabSorted lo t = true) :
    tabSorted lo (tabErase t k) = true := by
  induction t generalizing lo with
  | nil => rfl
  | cons e r ih =>
    obtain ⟨j, v⟩ := e
    simp only [tabSorted, Bool.and_eq_true, decide_eq_true_eq] at h
    by_cases hj : j = k
    · simp only [tabErase, hj, if_true]
      exact ih _ (tabSorted_mono (by omega) h.2)
    · simp [tabErase, hj, tabSorted, h.1, ih _ h.2]

theorem tabSorted_tabInsert {α : Type} (t : Tab α) (k lo : Nat) (v : α) (hk : lo ≤ k) (hn : ∀ w, (k, w) ∉ t)
    (h : tabSorted lo t = true) : tabSorted lo (tabInsert t k v) = true := by
  induction t generalizing lo with
  | nil => simp [tabInsert, tabSorted, hk]
  | cons e r ih =>
    obtain ⟨j, w⟩ := e
    simp only [tabSorted, Bool.and_eq_true, decide_eq_true_eq] at h
    have hj : j ≠ k := fun x => hn w (by simp [x])
    by_cases hkj : k < j
    · simp [tabInsert, hkj, tabSorted, hk, h.2] <;> omega
    · simp only [tabInsert, hkj, if_false, tabSorted, Bool.and_eq_true, decide_eq_true_eq]
      exact ⟨h.1, ih _ (by omega) (fun x hx => hn x (by simp [hx])) h.2⟩

/-- Setting a key keeps the keys strictly rising. -/
theorem tabSorted_tabSet {α : Type} [DecidableEq α] (d : α) (t : Tab α) (k : Nat) (v : α) (h : tabSorted 0 t = true) :
    tabSorted 0 (tabSet d t k v) = true := by
  by_cases hv : v = d
  · simp [tabSet, hv, tabSorted_tabErase t k 0 h]
  · simp only [tabSet, hv, if_false]
    exact tabSorted_tabInsert _ _ _ _ (by omega) (fun w => not_mem_tabErase t k w) (tabSorted_tabErase t k 0 h)

/-! ### Byte memories (log 4) -/

theorem all_tabErase (t : List Host.Cell) (k : Nat) (p : Host.Cell → Bool) (h : t.all p = true) : (tabErase t k).all p = true := by
  induction t with
  | nil => rfl
  | cons e r ih =>
    obtain ⟨j, v⟩ := e
    simp only [List.all_cons, Bool.and_eq_true] at h
    by_cases hj : j = k <;> simp [tabErase, hj, ih h.2, h.1]

theorem all_tabInsert (t : List Host.Cell) (k : Nat) (v : Byte) (p : Host.Cell → Bool) (hv : p (k, v) = true)
    (h : t.all p = true) : (tabInsert t k v).all p = true := by
  induction t with
  | nil => simp [tabInsert, hv]
  | cons e r ih =>
    obtain ⟨j, w⟩ := e
    simp only [List.all_cons, Bool.and_eq_true] at h
    by_cases hk : k < j <;> simp [tabInsert, hk, hv, h.1, h.2, ih h.2]

/-- The empty memory is canonical. -/
@[simp] theorem Memory.wf_nil : Memory.wf [] = true := rfl

/-- Writing one byte keeps the canonical form. -/
theorem memSet_wf (t : List Host.Cell) (a : Nat) (b : Byte) (h : Memory.wf t = true) : Memory.wf (memSet t a b) = true := by
  simp only [Memory.wf, Bool.and_eq_true] at h ⊢
  refine ⟨tabSorted_tabSet _ _ _ _ h.1, ?_⟩
  by_cases hb : b = 0
  · simp only [memSet, tabSet, hb, if_true]
    exact all_tabErase t a _ h.2
  · simp only [memSet, tabSet, hb, if_false]
    exact all_tabInsert _ _ _ _ (by simpa using hb) (all_tabErase t a _ h.2)

/-- Writing bytes keeps the canonical form. -/
theorem memWrite_wf (l : List Byte) (t : List Host.Cell) (a : Nat) (h : Memory.wf t = true) : Memory.wf (memWrite t a l) = true := by
  induction l generalizing t a with
  | nil => exact h
  | cons b r ih => exact ih _ _ (memSet_wf t a b h)

/-- Storing a code word keeps the canonical form. -/
theorem storeSet_wf (t : List Host.Cell) (i : Nat) (w : Code) (h : Memory.wf t = true) : Memory.wf (storeSet t i w) = true := by
  unfold storeSet
  exact memWrite_wf _ _ _ h

/-- Storing a DRAM word keeps the canonical form. -/
theorem dramPut_wf (t : List Host.Cell) (a : Nat) (w : Code) (h : Memory.wf t = true) : Memory.wf (dramPut t a w) = true :=
  memWrite_wf _ _ _ (memWrite_wf _ _ _ h)

/-- A memory reads what was written at an address. -/
@[simp] theorem memGet_memSet_same (t : List Host.Cell) (a : Nat) (b : Byte) : memGet (memSet t a b) a = b :=
  tabGet_tabSet_same 0 t a b

/-- A memory reads at every other address what it read before. -/
theorem memGet_memSet_ne (t : List Host.Cell) {a i : Nat} (b : Byte) (h : i ≠ a) : memGet (memSet t a b) i = memGet t i :=
  tabGet_tabSet_ne 0 t b h

/-- Writing bytes leaves every address below them. -/
theorem memGet_memWrite_below (l : List Byte) (t : List Host.Cell) (a i : Nat) (h : i < a) :
    memGet (memWrite t a l) i = memGet t i := by
  induction l generalizing t a with
  | nil => rfl
  | cons b r ih => exact (ih _ _ (by omega)).trans (memGet_memSet_ne t b (by omega))

/-- Writing bytes leaves every address outside them. -/
theorem memGet_memWrite_out (l : List Byte) (t : List Host.Cell) (a i : Nat) (h : i < a ∨ a + l.length ≤ i) :
    memGet (memWrite t a l) i = memGet t i := by
  induction l generalizing t a with
  | nil => rfl
  | cons b r ih =>
    simp only [List.length_cons] at h
    exact (ih _ _ (by omega)).trans (memGet_memSet_ne t b (by omega))

/-- Bytes written are read back. -/
theorem memRead_memWrite (l : List Byte) (t : List Host.Cell) (a : Nat) : memRead (memWrite t a l) a l.length = l := by
  induction l generalizing t a with
  | nil => rfl
  | cons b r ih =>
    simp only [List.length_cons, memRead, memWrite, ih]
    rw [memGet_memWrite_below r _ _ _ (by omega), memGet_memSet_same]

end Sys2Proof.Machine
end

