-- ==== Sys2Proof/Laws/Canon.lean ====
section
/-! SUPPORT. The canonical form of every memory (R510, R528, log 4): what the device's setters, its memory writes and its
combinators keep of it. The files Canon1 to Canon4 lift this to every operation. -/

namespace Sys2Proof.Machine

open Sys2Proof

/-- What an instruction's own part answers keeps the memories canonical. -/
def Res.memOk : Res → Prop
  | .good e => e.m.memOk = true
  | .bad _ => True
  | .sleep _ => True

/-- What an instruction's own part answers on LC keeps the memories canonical. -/
def LcRes.memOk : LcRes → Prop
  | .good m _ _ _ => m.memOk = true
  | .bad _ => True
  | .sleep => True

theorem Res.memOk_good {m : Mach} (h : m.memOk = true) (a) (b) (c) (d) : (Res.good ⟨m, a, b, c, d⟩).memOk := h

theorem Res.memOk_bad (f) : (Res.bad f).memOk := trivial

theorem Res.memOk_fault (c) : (Res.fault c).memOk := trivial

theorem Res.memOk_sleep (w) : (Res.sleep w).memOk := trivial

theorem Res.guard_memOk {r : Res} (h : r.memOk) (f) : (Res.guard f r).memOk := by
  cases f with
  | none => exact h
  | some x => trivial

theorem Res.withIndex_memOk (a) (o) {f : Nat → Res} (h : ∀ i, (f i).memOk) : (Res.withIndex a o f).memOk := by
  unfold Res.withIndex
  split
  · exact h _
  · trivial

theorem LcRes.memOk_good {m : Mach} (h : m.memOk = true) (a) (b) (c) : (LcRes.good m a b c).memOk := h

theorem LcRes.memOk_bad (c) : (LcRes.bad c).memOk := trivial

theorem LcRes.memOk_sleep : LcRes.sleep.memOk := trivial

theorem Mach.memOk_reg {m : Mach} (h : m.memOk = true) (a) (v) : (m.setReg a v).memOk = true := h

theorem Mach.setAnswer_memOk {m : Mach} (h : m.memOk = true) (v) : (m.setAnswer v).memOk = true := h

theorem Mach.stageMod_memOk {m : Mach} (h : m.memOk = true) (f) : (m.stageMod f).memOk = true := h

theorem Mach.keepRegs_memOk {m : Mach} (h : m.memOk = true) (f) : (m.keepRegs f).memOk = true := h

theorem Mach.setReg_memOk {m : Mach} (h : m.memOk = true) (a) (v) : (m.setReg a v).memOk = true := h

theorem Mach.sysMod_memOk {m : Mach} (h : m.memOk = true) (f) : (m.sysMod f).memOk = true := h

theorem Mach.armMod_memOk {m : Mach} (h : m.memOk = true) (f) : (m.armMod f).memOk = true := h

theorem Mach.timMod_memOk {m : Mach} (h : m.memOk = true) (f) : (m.timMod f).memOk = true := h

theorem Mach.fltMod_memOk {m : Mach} (h : m.memOk = true) (f) : (m.fltMod f).memOk = true := h

theorem Mach.chnMod_memOk {m : Mach} (h : m.memOk = true) (f) : (m.chnMod f).memOk = true := h

theorem Mach.lcMod_memOk {m : Mach} (h : m.memOk = true) (f) : (m.lcMod f).memOk = true := h

theorem Mach.mradMod_memOk {m : Mach} (h : m.memOk = true) (f) : (m.mradMod f).memOk = true := h

theorem Mach.mlinkMod_memOk {m : Mach} (h : m.memOk = true) (f) : (m.mlinkMod f).memOk = true := h

theorem Mach.wmacMod_memOk {m : Mach} (h : m.memOk = true) (f) : (m.wmacMod f).memOk = true := h

theorem Mach.aschMod_memOk {m : Mach} (h : m.memOk = true) (f) : (m.aschMod f).memOk = true := h

theorem Mach.rteMod_memOk {m : Mach} (h : m.memOk = true) (f) : (m.rteMod f).memOk = true := h

theorem Mach.setTe_memOk {m : Mach} (h : m.memOk = true) (k) (f) : (m.setTe k f).memOk = true := h

theorem Mach.setDsp_memOk {m : Mach} (h : m.memOk = true) (k) (f) : (m.setDsp k f).memOk = true := h

theorem Mach.setChan_memOk {m : Mach} (h : m.memOk = true) (k) (f) : (m.setChan k f).memOk = true := h

theorem Mach.radioMod_memOk {m : Mach} (h : m.memOk = true) (k) (f) : (m.radioMod k f).memOk = true := h

theorem Mach.busMod_memOk {m : Mach} (h : m.memOk = true) (k) (f) : (m.busMod k f).memOk = true := h

theorem Mach.bbMod_memOk {m : Mach} (h : m.memOk = true) (k) (f) : (m.bbMod k f).memOk = true := h

theorem Mach.portMod_memOk {m : Mach} (h : m.memOk = true) (k) (f) : (m.portMod k f).memOk = true := h

theorem Mach.memOk_iff {m : Mach} : m.memOk = true ↔
    Memory.wf m.mem.dram = true ∧ Memory.wf m.mem.sram = true ∧ Memory.wf m.nvm.cells = true ∧ Memory.wf m.hif.hostMem = true := by
  simp [Mach.memOk, and_assoc]

theorem Mach.hifMod_memOk {m : Mach} (h : m.memOk = true) (f) (hf : (f m.hif).hostMem = m.hif.hostMem) : (m.hifMod f).memOk = true := by
  rw [Mach.memOk_iff] at h ⊢
  exact ⟨h.1, h.2.1, h.2.2.1, (congrArg Memory.wf hf).trans h.2.2.2⟩

theorem Mach.memMod_memOk {m : Mach} (h : m.memOk = true) (f) (hd : (f m.mem).dram = m.mem.dram) (hs : (f m.mem).sram = m.mem.sram) :
    (m.memMod f).memOk = true := by
  rw [Mach.memOk_iff] at h ⊢
  exact ⟨(congrArg Memory.wf hd).trans h.1, (congrArg Memory.wf hs).trans h.2.1, h.2.2⟩

theorem Mach.nvmMod_memOk {m : Mach} (h : m.memOk = true) (f) (hf : (f m.nvm).cells = m.nvm.cells) : (m.nvmMod f).memOk = true := by
  rw [Mach.memOk_iff] at h ⊢
  exact ⟨h.1, h.2.1, (congrArg Memory.wf hf).trans h.2.2.1, h.2.2.2⟩

theorem Mach.hostWrite_memOk {m : Mach} (h : m.memOk = true) (a) (l) : (m.hostWrite a l).memOk = true := by
  rw [Mach.memOk_iff] at h ⊢
  exact ⟨h.1, h.2.1, h.2.2.1, memWrite_wf _ _ _ h.2.2.2⟩

theorem Mach.dramWrite_memOk {m : Mach} (h : m.memOk = true) (a) (w) : (m.dramWrite a w).memOk = true := by
  rw [Mach.memOk_iff] at h ⊢
  exact ⟨dramPut_wf _ _ _ h.1, h.2⟩

theorem Mach.sramWrite_memOk {m : Mach} (h : m.memOk = true) (a) (w) : (m.sramWrite a w).memOk = true := by
  rw [Mach.memOk_iff] at h ⊢
  exact ⟨h.1, storeSet_wf _ _ _ h.2.1, h.2.2⟩

theorem Mach.nvmWrite_memOk {m : Mach} (h : m.memOk = true) (a) (w) : (m.nvmWrite a w).memOk = true := by
  rw [Mach.memOk_iff] at h ⊢
  exact ⟨h.1, h.2.1, storeSet_wf _ _ _ h.2.2.1, h.2.2.2⟩

theorem Mach.setRing_memOk {m : Mach} (h : m.memOk = true) (r) (x) : (m.setRing r x).memOk = true :=
  Mach.hifMod_memOk h _ rfl

theorem Mach.freeVal_memOk {m : Mach} (h : m.memOk = true) : m.freeVal.2.memOk = true := h

theorem Mach.drawBelow_memOk {m : Mach} (h : m.memOk = true) (k) : (m.drawBelow k).2.memOk = true := h

theorem Mach.when_memOk {m : Mach} (h : m.memOk = true) (c) {f : Mach → Mach} (hf : ∀ x, x.memOk = true → (f x).memOk = true) :
    (m.when c f).memOk = true := by
  unfold Mach.when; split
  · exact hf _ h
  · exact h

theorem Mach.ite_memOk {c : Prop} [Decidable c] {a b : Mach} (ha : a.memOk = true) (hb : b.memOk = true) :
    (if c then a else b).memOk = true := by split <;> assumption

theorem Mach.ite_fst_memOk {c : Prop} {σ : Type} [Decidable c] {a b : Mach × σ} (ha : a.1.memOk = true) (hb : b.1.memOk = true) :
    (if c then a else b).1.memOk = true := by split <;> assumption

theorem Mach.memOk_congr {m n : Mach} (h : m.memOk = true) (h1 : n.mem = m.mem) (h2 : n.nvm.cells = m.nvm.cells)
    (h3 : n.hif.hostMem = m.hif.hostMem) : n.memOk = true := by
  rw [Mach.memOk_iff] at h ⊢
  rw [h1, h2, h3]
  exact h
/-- What may be a device with an answer keeps the memories canonical. -/
def optOk {σ : Type} (o : Option (Mach × σ)) : Prop := ∀ r, o = some r → r.1.memOk = true

theorem optOk_none {σ : Type} : optOk (none : Option (Mach × σ)) := fun _ h => nomatch h

theorem optOk_some {σ : Type} {x : Mach × σ} (h : x.1.memOk = true) : optOk (some x) := fun _ e => Option.some.inj e ▸ h

theorem optOk_ite {c : Prop} {σ : Type} [Decidable c] {a b : Option (Mach × σ)} (ha : optOk a) (hb : optOk b) :
    optOk (if c then a else b) := by split <;> assumption

theorem foldl_memOk {β : Type} {f : Mach → β → Mach} (hf : ∀ x b, x.memOk = true → (f x b).memOk = true) (l : List β) (m : Mach)
    (h : m.memOk = true) : (l.foldl f m).memOk = true := by
  induction l generalizing m with
  | nil => exact h
  | cons b r ih => exact ih _ (hf _ _ h)

theorem foldl_fst_memOk {β σ : Type} {f : Mach × σ → β → Mach × σ} (hf : ∀ x b, x.1.memOk = true → (f x b).1.memOk = true) (l : List β)
    (m : Mach × σ) (h : m.1.memOk = true) : (l.foldl f m).1.memOk = true := by
  induction l generalizing m with
  | nil => exact h
  | cons b r ih => exact ih _ (hf _ _ h)

theorem Mach.forEach_memOk {α : Type} (l : List α) {f : Mach → α → Mach} (hf : ∀ x a, x.memOk = true → (f x a).memOk = true) {m : Mach}
    (h : m.memOk = true) : (m.forEach l f).memOk = true := by
  induction l generalizing m with
  | nil => exact h
  | cons a r ih => exact ih (hf _ _ h)

end Sys2Proof.Machine
end

