-- ==== Sys2Proof/Laws/Canon1.lean ====
section
/-! SUPPORT. Every operation keeps the memories canonical (part 1 of 4, in the order in which one calls another). -/

namespace Sys2Proof.Machine

open Sys2Proof

set_option maxRecDepth 4000
set_option linter.unusedTactic false
set_option linter.unreachableTactic false

theorem Mach.teMod_memOk {m : Mach} (h : m.memOk = true) (a0) (a1) : (Mach.teMod m a0 a1).memOk = true := by
  unfold Mach.teMod
  try dsimp only
  repeat' first
    | with_reducible
      first
        | assumption | intro _ | apply Mach.memOk_reg | apply Mach.ite_memOk | apply Mach.ite_fst_memOk | apply Mach.setTe_memOk
        | rfl
    | split
    | dsimp only

theorem Mach.hifVoid_memOk {m : Mach} (h : m.memOk = true) (a0) : (Mach.hifVoid m a0).memOk = true := by
  unfold Mach.hifVoid
  try dsimp only
  repeat' first
    | with_reducible
      first
        | assumption | intro _ | apply Mach.memOk_reg | apply Mach.ite_memOk | apply Mach.ite_fst_memOk | apply Mach.hifMod_memOk
        | rfl
    | split
    | dsimp only

theorem Mach.pauseGo_memOk {m : Mach} (h : m.memOk = true) (a0) : (Mach.pauseGo m a0).memOk = true := by
  unfold Mach.pauseGo
  try dsimp only
  repeat' first
    | with_reducible
      first
        | assumption | intro _ | apply Mach.memOk_reg | apply Mach.ite_memOk | apply Mach.ite_fst_memOk | apply Mach.portMod_memOk
        | rfl
    | split
    | dsimp only

theorem Mach.txChoose_memOk {m : Mach} (h : m.memOk = true) (a0) : (Mach.txChoose m a0).memOk = true := by
  unfold Mach.txChoose
  try dsimp only
  repeat' first
    | with_reducible
      first
        | assumption | intro _ | apply Mach.memOk_reg | apply Mach.ite_memOk | apply Mach.ite_fst_memOk | apply Mach.portMod_memOk
        | apply Mach.pauseGo_memOk | rfl
    | split
    | dsimp only

theorem Mach.uplVoid_memOk {m : Mach} (h : m.memOk = true) (a0) : (Mach.uplVoid m a0).memOk = true := by
  unfold Mach.uplVoid
  try dsimp only
  repeat' first
    | with_reducible
      first
        | assumption | intro _ | apply Mach.memOk_reg | apply Mach.ite_memOk | apply Mach.ite_fst_memOk | apply Mach.forEach_memOk
        | apply Mach.txChoose_memOk | apply Mach.portMod_memOk | rfl
    | split
    | dsimp only

theorem Mach.rteVoid_memOk {m : Mach} (h : m.memOk = true) (a0) (a1) : (Mach.rteVoid m a0 a1).memOk = true := by
  unfold Mach.rteVoid
  try dsimp only
  repeat' first
    | with_reducible
      first
        | assumption | intro _ | apply Mach.memOk_reg | apply Mach.ite_memOk | apply Mach.ite_fst_memOk | apply Mach.rteMod_memOk
        | apply Mach.forEach_memOk | rfl
    | split
    | dsimp only

theorem Mach.wr_memOk {m : Mach} (h : m.memOk = true) (a0) (a1) (a2) : (Mach.wr m a0 a1 a2).memOk = true := by
  unfold Mach.wr
  try dsimp only
  repeat' first
    | with_reducible
      first
        | assumption | intro _ | apply Mach.memOk_reg | apply Mach.ite_memOk | apply Mach.ite_fst_memOk | apply Mach.setReg_memOk
        | rfl
    | split
    | dsimp only

theorem Mach.setStg_memOk {m : Mach} (h : m.memOk = true) (a0) (a1) : (Mach.setStg m a0 a1).memOk = true := by
  unfold Mach.setStg
  try dsimp only
  repeat' first
    | with_reducible
      first
        | assumption | intro _ | apply Mach.memOk_reg | apply Mach.ite_memOk | apply Mach.ite_fst_memOk | apply Mach.wr_memOk
        | apply Mach.wmacMod_memOk | rfl
    | split
    | dsimp only

theorem Mach.stgVoid_memOk {m : Mach} (h : m.memOk = true) (a0) : (Mach.stgVoid m a0).memOk = true := by
  unfold Mach.stgVoid
  try dsimp only
  repeat' first
    | with_reducible
      first
        | assumption | intro _ | apply Mach.memOk_reg | apply Mach.ite_memOk | apply Mach.ite_fst_memOk | apply Mach.forEach_memOk
        | apply Mach.setStg_memOk | rfl
    | split
    | dsimp only

theorem Mach.setPool_memOk {m : Mach} (h : m.memOk = true) (a0) (a1) : (Mach.setPool m a0 a1).memOk = true := by
  unfold Mach.setPool
  try dsimp only
  repeat' first
    | with_reducible
      first
        | assumption | intro _ | apply Mach.memOk_reg | apply Mach.ite_memOk | apply Mach.ite_fst_memOk | apply Mach.aschMod_memOk
        | rfl
    | split
    | dsimp only

theorem Mach.setQueue_memOk {m : Mach} (h : m.memOk = true) (a0) (a1) : (Mach.setQueue m a0 a1).memOk = true := by
  unfold Mach.setQueue
  try dsimp only
  repeat' first
    | with_reducible
      first
        | assumption | intro _ | apply Mach.memOk_reg | apply Mach.ite_memOk | apply Mach.ite_fst_memOk | apply Mach.aschMod_memOk
        | apply Mach.wr_memOk | rfl
    | split
    | dsimp only

theorem Mach.aschVoid_memOk {m : Mach} (h : m.memOk = true) (a0) (a1) : (Mach.aschVoid m a0 a1).memOk = true := by
  unfold Mach.aschVoid
  try dsimp only
  repeat' first
    | with_reducible
      first
        | assumption | intro _ | apply Mach.memOk_reg | apply Mach.ite_memOk | apply Mach.ite_fst_memOk | apply Mach.setPool_memOk
        | apply Mach.aschMod_memOk | apply Mach.forEach_memOk | apply Mach.setQueue_memOk | rfl
    | split
    | dsimp only

theorem Mach.wake_memOk {m : Mach} (h : m.memOk = true) (a0) : (Mach.wake m a0).memOk = true := by
  unfold Mach.wake
  try dsimp only
  repeat' first
    | with_reducible
      first
        | assumption | intro _ | apply Mach.memOk_reg | apply Mach.ite_memOk | apply Mach.ite_fst_memOk | apply Mach.setTe_memOk
        | rfl
    | split
    | dsimp only

theorem Mach.dspMod_memOk {m : Mach} (h : m.memOk = true) (a0) (a1) : (Mach.dspMod m a0 a1).memOk = true := by
  unfold Mach.dspMod
  try dsimp only
  repeat' first
    | with_reducible
      first
        | assumption | intro _ | apply Mach.memOk_reg | apply Mach.ite_memOk | apply Mach.ite_fst_memOk | apply Mach.setDsp_memOk
        | rfl
    | split
    | dsimp only

theorem Mach.setFlag_memOk {m : Mach} (h : m.memOk = true) (a0) (a1) (a2) : (Mach.setFlag m a0 a1 a2).memOk = true := by
  unfold Mach.setFlag
  try dsimp only
  repeat' first
    | with_reducible
      first
        | assumption | intro _ | apply Mach.memOk_reg | apply Mach.ite_memOk | apply Mach.ite_fst_memOk | apply Mach.wake_memOk
        | apply Mach.dspMod_memOk | rfl
    | split
    | dsimp only

theorem Mach.evApply_memOk {m : Mach} (h : m.memOk = true) (a0) : (Mach.evApply m a0).memOk = true := by
  unfold Mach.evApply
  try dsimp only
  repeat' first
    | with_reducible
      first
        | assumption | intro _ | apply Mach.memOk_reg | apply Mach.ite_memOk | apply Mach.ite_fst_memOk | apply Mach.forEach_memOk
        | apply Mach.setDsp_memOk | apply Mach.setFlag_memOk | rfl
    | split
    | dsimp only

theorem Mach.evqShow_memOk {m : Mach} (h : m.memOk = true) (a0) : (Mach.evqShow m a0).memOk = true := by
  unfold Mach.evqShow
  try dsimp only
  repeat' first
    | with_reducible
      first
        | assumption | intro _ | apply Mach.memOk_reg | apply Mach.ite_memOk | apply Mach.ite_fst_memOk | apply Mach.wr_memOk | rfl
    | split
    | dsimp only

theorem Mach.evPumpN_memOk {m : Mach} (h : m.memOk = true) (a0) (a1) : (Mach.evPumpN a0 m a1).memOk = true := by
  revert h
  fun_induction Mach.evPumpN a0 m a1
  all_goals try intro h
  all_goals try dsimp only
  all_goals
    repeat' first
      | with_reducible
        first
          | assumption | intro _ | apply Mach.memOk_reg | apply Mach.ite_memOk | apply Mach.ite_fst_memOk
          | apply Mach.evApply_memOk | apply Mach.evqShow_memOk | apply Mach.dspMod_memOk | rfl | apply_assumption
      | split
      | dsimp only

theorem Mach.evPump_memOk {m : Mach} (h : m.memOk = true) (a0) : (Mach.evPump m a0).memOk = true := by
  unfold Mach.evPump
  try dsimp only
  repeat' first
    | with_reducible
      first
        | assumption | intro _ | apply Mach.memOk_reg | apply Mach.ite_memOk | apply Mach.ite_fst_memOk | apply Mach.evPumpN_memOk
        | apply Mach.wr_memOk | rfl
    | split
    | dsimp only

theorem Mach.sigVoid_memOk {m : Mach} (h : m.memOk = true) (a0) : (Mach.sigVoid m a0).memOk = true := by
  unfold Mach.sigVoid
  try dsimp only
  repeat' first
    | with_reducible
      first
        | assumption | intro _ | apply Mach.memOk_reg | apply Mach.ite_memOk | apply Mach.ite_fst_memOk | apply Mach.forEach_memOk
        | apply Mach.evPump_memOk | apply Mach.dspMod_memOk | rfl
    | split
    | dsimp only

theorem Mach.count_memOk {m : Mach} (h : m.memOk = true) (a0) (a1) (a2) : (Mach.count m a0 a1 a2).memOk = true := by
  unfold Mach.count
  try dsimp only
  repeat' first
    | with_reducible
      first
        | assumption | intro _ | apply Mach.memOk_reg | apply Mach.ite_memOk | apply Mach.ite_fst_memOk | apply Mach.wr_memOk | rfl
    | split
    | dsimp only

theorem Mach.sendEvent_memOk {m : Mach} (h : m.memOk = true) (a0) (a1) (a2) (a3) : (Mach.sendEvent m a0 a1 a2 a3).memOk = true := by
  unfold Mach.sendEvent
  try dsimp only
  repeat' first
    | with_reducible
      first
        | assumption | intro _ | apply Mach.memOk_reg | apply Mach.ite_memOk | apply Mach.ite_fst_memOk | apply Mach.evPump_memOk
        | apply Mach.setDsp_memOk | apply Mach.count_memOk | rfl
    | split
    | dsimp only

theorem Mach.sendNamed_memOk {m : Mach} (h : m.memOk = true) (a0) : (Mach.sendNamed m a0).memOk = true := by
  unfold Mach.sendNamed
  try dsimp only
  repeat' first
    | with_reducible
      first
        | assumption | intro _ | apply Mach.memOk_reg | apply Mach.ite_memOk | apply Mach.ite_fst_memOk
        | apply Mach.sendEvent_memOk | rfl
    | split
    | dsimp only

theorem Mach.chPut_memOk {m : Mach} (h : m.memOk = true) (a0) (a1) : (Mach.chPut m a0 a1).memOk = true := by
  unfold Mach.chPut
  try dsimp only
  repeat' first
    | with_reducible
      first
        | assumption | intro _ | apply Mach.memOk_reg | apply Mach.ite_memOk | apply Mach.ite_fst_memOk | apply Mach.count_memOk
        | apply Mach.setChan_memOk | apply Mach.when_memOk | apply Mach.sendNamed_memOk | rfl
    | split
    | dsimp only

theorem Mach.chVoid_memOk {m : Mach} (h : m.memOk = true) (a0) (a1) (a2) (a3) : (Mach.chVoid m a0 a1 a2 a3).memOk = true := by
  unfold Mach.chVoid
  try dsimp only
  repeat' first
    | with_reducible
      first
        | assumption | intro _ | apply Mach.memOk_reg | apply Mach.ite_memOk | apply Mach.ite_fst_memOk | apply Mach.chPut_memOk
        | rfl
    | split
    | dsimp only

theorem Mach.blocksVoid_memOk {m : Mach} (h : m.memOk = true) (a0) (a1) : (Mach.blocksVoid m a0 a1).memOk = true := by
  unfold Mach.blocksVoid
  try dsimp only
  repeat' first
    | with_reducible
      first
        | assumption | intro _ | apply Mach.memOk_reg | apply Mach.ite_memOk | apply Mach.ite_fst_memOk | apply Mach.hifVoid_memOk
        | apply Mach.uplVoid_memOk | apply Mach.rteVoid_memOk | apply Mach.stgVoid_memOk | apply Mach.aschVoid_memOk
        | apply Mach.sigVoid_memOk | apply Mach.forEach_memOk | apply Mach.chVoid_memOk | rfl
    | split
    | dsimp only

theorem Mach.jWord_memOk {m : Mach} (h : m.memOk = true) (a0) : (Mach.jWord m a0).memOk = true := by
  unfold Mach.jWord
  try dsimp only
  repeat' first
    | with_reducible
      first
        | assumption | intro _ | apply Mach.memOk_reg | apply Mach.ite_memOk | apply Mach.ite_fst_memOk | apply Mach.wr_memOk
        | apply Mach.dramWrite_memOk | rfl
    | split
    | dsimp only

theorem Mach.jWords_memOk {m : Mach} (h : m.memOk = true) (a0) : (Mach.jWords m a0).memOk = true := by
  unfold Mach.jWords
  try dsimp only
  repeat' first
    | with_reducible
      first
        | assumption | intro _ | apply Mach.memOk_reg | apply Mach.ite_memOk | apply Mach.ite_fst_memOk | apply Mach.forEach_memOk
        | apply Mach.jWord_memOk | rfl
    | split
    | dsimp only

theorem Mach.jPad_memOk {m : Mach} (h : m.memOk = true) (a0) : (Mach.jPad m a0).memOk = true := by
  unfold Mach.jPad
  try dsimp only
  repeat' first
    | with_reducible
      first
        | assumption | intro _ | apply Mach.memOk_reg | apply Mach.ite_memOk | apply Mach.ite_fst_memOk | apply Mach.wr_memOk
        | apply Mach.jWord_memOk | rfl
    | split
    | dsimp only

theorem Mach.guyMod_memOk {m : Mach} (h : m.memOk = true) (a0) (a1) : (Mach.guyMod m a0 a1).memOk = true := by
  unfold Mach.guyMod
  try dsimp only
  repeat' first
    | with_reducible
      first
        | assumption | intro _ | apply Mach.memOk_reg | apply Mach.ite_memOk | apply Mach.ite_fst_memOk | apply Mach.chnMod_memOk
        | rfl
    | split
    | dsimp only

theorem Mach.guySend_memOk {m : Mach} (h : m.memOk = true) (a0) (a1) : (Mach.guySend m a0 a1).memOk = true := by
  unfold Mach.guySend
  try dsimp only
  repeat' first
    | with_reducible
      first
        | assumption | intro _ | apply Mach.memOk_reg | apply Mach.ite_memOk | apply Mach.ite_fst_memOk | apply Mach.guyMod_memOk
        | rfl
    | split
    | dsimp only

theorem Mach.toStandby_memOk {m : Mach} (h : m.memOk = true) (a0) : (Mach.toStandby m a0).memOk = true := by
  unfold Mach.toStandby
  try dsimp only
  repeat' first
    | with_reducible
      first
        | assumption | intro _ | apply Mach.memOk_reg | apply Mach.ite_memOk | apply Mach.ite_fst_memOk | apply Mach.chnMod_memOk
        | apply Mach.guySend_memOk | rfl
    | split
    | dsimp only

theorem Mach.mirror_memOk {m : Mach} (h : m.memOk = true) (a0) (a1) : (Mach.mirror m a0 a1).memOk = true := by
  unfold Mach.mirror
  try dsimp only
  repeat' first
    | with_reducible
      first
        | assumption | intro _ | apply Mach.memOk_reg | apply Mach.ite_memOk | apply Mach.ite_fst_memOk | apply Mach.forEach_memOk
        | apply Mach.toStandby_memOk | rfl
    | split
    | dsimp only

theorem Mach.journal_memOk {m : Mach} (h : m.memOk = true) (a0) (a1) (a2) (a3) (a4) (a5) : (Mach.journal m a0 a1 a2 a3 a4
    a5).memOk = true := by
  unfold Mach.journal
  try dsimp only
  repeat' first
    | with_reducible
      first
        | assumption | intro _ | apply Mach.memOk_reg | apply Mach.ite_memOk | apply Mach.ite_fst_memOk | apply Mach.fltMod_memOk
        | apply Mach.jWords_memOk | apply Mach.jWord_memOk | apply Mach.jPad_memOk | apply Mach.mirror_memOk | rfl
    | split
    | dsimp only

theorem Mach.voidRun_memOk {m : Mach} (h : m.memOk = true) (a0) (a1) (a2) (a3) : (Mach.voidRun m a0 a1 a2 a3).memOk = true := by
  unfold Mach.voidRun
  try dsimp only
  repeat' first
    | with_reducible
      first
        | assumption | intro _ | apply Mach.memOk_reg | apply Mach.ite_memOk | apply Mach.ite_fst_memOk
        | apply Mach.blocksVoid_memOk | apply Mach.journal_memOk | rfl
    | split
    | dsimp only

theorem Mach.detach_memOk {m : Mach} (h : m.memOk = true) (a0) (a1) : (Mach.detach m a0 a1).memOk = true := by
  unfold Mach.detach
  try dsimp only
  repeat' first
    | with_reducible
      first
        | assumption | intro _ | apply Mach.memOk_reg | apply Mach.ite_memOk | apply Mach.ite_fst_memOk | apply Mach.dspMod_memOk
        | apply Mach.setTe_memOk | rfl
    | split
    | dsimp only

theorem Mach.writeEvent_memOk {m : Mach} (h : m.memOk = true) (a0) : (Mach.writeEvent m a0).memOk = true := by
  unfold Mach.writeEvent
  try dsimp only
  repeat' first
    | with_reducible
      first
        | assumption | intro _ | apply Mach.memOk_reg | apply Mach.ite_memOk | apply Mach.ite_fst_memOk | apply Mach.setRing_memOk
        | apply Mach.hostWrite_memOk | rfl
    | split
    | dsimp only

theorem Mach.putEvent_memOk {m : Mach} (h : m.memOk = true) (a0) : (Mach.putEvent m a0).memOk = true := by
  unfold Mach.putEvent
  try dsimp only
  repeat' first
    | with_reducible
      first
        | assumption | intro _ | apply Mach.memOk_reg | apply Mach.ite_memOk | apply Mach.ite_fst_memOk
        | apply Mach.writeEvent_memOk | apply Mach.hifMod_memOk | apply Mach.count_memOk | rfl
    | split
    | dsimp only

theorem Mach.event_memOk {m : Mach} (h : m.memOk = true) (a0) (a1) (a2) (a3) : (Mach.event m a0 a1 a2 a3).memOk = true := by
  unfold Mach.event
  try dsimp only
  repeat' first
    | with_reducible
      first
        | assumption | intro _ | apply Mach.memOk_reg | apply Mach.ite_memOk | apply Mach.ite_fst_memOk | apply Mach.putEvent_memOk
        | rfl
    | split
    | dsimp only

theorem Mach.faultRecord_memOk {m : Mach} (h : m.memOk = true) (a0) : (Mach.faultRecord m a0).memOk = true := by
  unfold Mach.faultRecord
  try dsimp only
  repeat' first
    | with_reducible
      first
        | assumption | intro _ | apply Mach.memOk_reg | apply Mach.ite_memOk | apply Mach.ite_fst_memOk | apply Mach.when_memOk
        | apply Mach.jPad_memOk | apply Mach.fltMod_memOk | apply Mach.journal_memOk | apply Mach.wr_memOk | rfl
    | split
    | dsimp only

theorem Mach.noReplay_memOk {m : Mach} (h : m.memOk = true) (a0) (a1) : (Mach.noReplay m a0 a1).memOk = true := by
  unfold Mach.noReplay
  try dsimp only
  repeat' first
    | with_reducible
      first
        | assumption | intro _ | apply Mach.memOk_reg | apply Mach.ite_memOk | apply Mach.ite_fst_memOk | apply Mach.event_memOk
        | apply Mach.faultRecord_memOk | apply Mach.count_memOk | rfl
    | split
    | dsimp only

theorem Mach.abandon_memOk {m : Mach} (h : m.memOk = true) (a0) : (Mach.abandon m a0).memOk = true := by
  unfold Mach.abandon
  try dsimp only
  repeat' first
    | with_reducible
      first
        | assumption | intro _ | apply Mach.memOk_reg | apply Mach.ite_memOk | apply Mach.ite_fst_memOk | apply Mach.teMod_memOk
        | apply Mach.voidRun_memOk | apply Mach.detach_memOk | apply Mach.noReplay_memOk | apply Mach.dspMod_memOk | rfl
    | split
    | dsimp only

theorem Mach.engineFault_memOk {m : Mach} (h : m.memOk = true) (a0) (a1) (a2) (a3) (a4) (a5) (a6) (a7) : (Mach.engineFault m a0 a1
    a2 a3 a4 a5 a6 a7).memOk = true := by
  unfold Mach.engineFault
  try dsimp only
  repeat' first
    | with_reducible
      first
        | assumption | intro _ | apply Mach.memOk_reg | apply Mach.ite_memOk | apply Mach.ite_fst_memOk | apply Mach.setReg_memOk
        | apply Mach.wr_memOk | apply Mach.faultRecord_memOk | apply Mach.count_memOk | apply Mach.event_memOk
        | apply Mach.when_memOk | rfl
    | split
    | dsimp only

theorem Mach.raise_memOk {m : Mach} (h : m.memOk = true) (a0) (a1) : (Mach.raise m a0 a1).memOk = true := by
  unfold Mach.raise
  try dsimp only
  repeat' first
    | with_reducible
      first
        | assumption | intro _ | apply Mach.memOk_reg | apply Mach.ite_memOk | apply Mach.ite_fst_memOk | apply Mach.abandon_memOk
        | apply Mach.engineFault_memOk | apply Mach.setTe_memOk | rfl
    | split
    | dsimp only

theorem Mach.raiseDz_memOk {m : Mach} (h : m.memOk = true) (a0) (a1) : (Mach.raiseDz m a0 a1).memOk = true := by
  unfold Mach.raiseDz
  try dsimp only
  repeat' first
    | with_reducible
      first
        | assumption | intro _ | apply Mach.memOk_reg | apply Mach.ite_memOk | apply Mach.ite_fst_memOk | apply Mach.raise_memOk
        | apply Mach.teMod_memOk | rfl
    | split
    | dsimp only

theorem Mach.hifCommit_memOk {m : Mach} (h : m.memOk = true) (a0) : (Mach.hifCommit m a0).memOk = true := by
  unfold Mach.hifCommit
  try dsimp only
  repeat' first
    | with_reducible
      first
        | assumption | intro _ | apply Mach.memOk_reg | apply Mach.ite_memOk | apply Mach.ite_fst_memOk | apply Mach.hifMod_memOk
        | rfl
    | split
    | dsimp only

theorem Mach.uplCommit_memOk {m : Mach} (h : m.memOk = true) (a0) : (Mach.uplCommit m a0).memOk = true := by
  unfold Mach.uplCommit
  try dsimp only
  repeat' first
    | with_reducible
      first
        | assumption | intro _ | apply Mach.memOk_reg | apply Mach.ite_memOk | apply Mach.ite_fst_memOk | apply Mach.forEach_memOk
        | apply Mach.txChoose_memOk | apply Mach.portMod_memOk | rfl
    | split
    | dsimp only

theorem Mach.setCells_memOk {m : Mach} (h : m.memOk = true) (a0) : (Mach.setCells m a0).memOk = true := by
  unfold Mach.setCells
  try dsimp only
  repeat' first
    | with_reducible
      first
        | assumption | intro _ | apply Mach.memOk_reg | apply Mach.ite_memOk | apply Mach.ite_fst_memOk | apply Mach.wr_memOk
        | apply Mach.rteMod_memOk | rfl
    | split
    | dsimp only

theorem Mach.freeCells_memOk {m : Mach} (h : m.memOk = true) (a0) : (Mach.freeCells m a0).memOk = true := by
  unfold Mach.freeCells
  try dsimp only
  repeat' first
    | with_reducible
      first
        | assumption | intro _ | apply Mach.memOk_reg | apply Mach.ite_memOk | apply Mach.ite_fst_memOk | apply Mach.setCells_memOk
        | rfl
    | split
    | dsimp only

theorem Mach.pauseCheck_memOk {m : Mach} (h : m.memOk = true) (a0) : (Mach.pauseCheck m a0).memOk = true := by
  unfold Mach.pauseCheck
  try dsimp only
  repeat' first
    | with_reducible
      first
        | assumption | intro _ | apply Mach.memOk_reg | apply Mach.ite_memOk | apply Mach.ite_fst_memOk | apply Mach.pauseGo_memOk
        | apply Mach.portMod_memOk | rfl
    | split
    | dsimp only

theorem Mach.setHead_memOk {m : Mach} (h : m.memOk = true) (a0) (a1) : (Mach.setHead m a0 a1).memOk = true := by
  unfold Mach.setHead
  try dsimp only
  repeat' first
    | with_reducible
      first
        | assumption | intro _ | apply Mach.memOk_reg | apply Mach.ite_memOk | apply Mach.ite_fst_memOk | apply Mach.rteMod_memOk
        | rfl
    | split
    | dsimp only

theorem Mach.spillCheck_memOk {m : Mach} (h : m.memOk = true) : (Mach.spillCheck m).memOk = true := by
  unfold Mach.spillCheck
  try dsimp only
  repeat' first
    | with_reducible
      first
        | assumption | intro _ | apply Mach.memOk_reg | apply Mach.ite_memOk | apply Mach.ite_fst_memOk | apply Mach.rteMod_memOk
        | apply Mach.setHead_memOk | rfl
    | split
    | dsimp only

theorem Mach.frameFree_memOk {m : Mach} (h : m.memOk = true) (a0) : (Mach.frameFree m a0).memOk = true := by
  unfold Mach.frameFree
  try dsimp only
  repeat' first
    | with_reducible
      first
        | assumption | intro _ | apply Mach.memOk_reg | apply Mach.ite_memOk | apply Mach.ite_fst_memOk
        | apply Mach.freeCells_memOk | apply Mach.wr_memOk | apply Mach.rteMod_memOk | apply Mach.pauseCheck_memOk
        | apply Mach.spillCheck_memOk | apply Mach.setHead_memOk | rfl
    | split
    | dsimp only

theorem Mach.consume_memOk {m : Mach} (h : m.memOk = true) (a0) : (Mach.consume m a0).memOk = true := by
  unfold Mach.consume
  try dsimp only
  repeat' first
    | with_reducible
      first
        | assumption | intro _ | apply Mach.memOk_reg | apply Mach.ite_memOk | apply Mach.ite_fst_memOk
        | apply Mach.frameFree_memOk | apply Mach.setHead_memOk | rfl
    | split
    | dsimp only

theorem Mach.refAct_memOk {m : Mach} (h : m.memOk = true) (a0) (a1) (a2) : (Mach.refAct m a0 a1 a2).memOk = true := by
  unfold Mach.refAct
  try dsimp only
  repeat' first
    | with_reducible
      first
        | assumption | intro _ | apply Mach.memOk_reg | apply Mach.ite_memOk | apply Mach.ite_fst_memOk | apply Mach.rteMod_memOk
        | apply Mach.consume_memOk | apply Mach.setHead_memOk | rfl
    | split
    | dsimp only

theorem Mach.rteCommit_memOk {m : Mach} (h : m.memOk = true) (a0) : (Mach.rteCommit m a0).memOk = true := by
  unfold Mach.rteCommit
  try dsimp only
  repeat' first
    | with_reducible
      first
        | assumption | intro _ | apply Mach.memOk_reg | apply Mach.ite_memOk | apply Mach.ite_fst_memOk | apply Mach.forEach_memOk
        | apply Mach.rteMod_memOk | apply Mach.refAct_memOk | rfl
    | split
    | dsimp only

theorem Mach.note_memOk {m : Mach} (h : m.memOk = true) (a0) (a1) (a2) (a3) : (Mach.note m a0 a1 a2 a3).memOk = true := by
  unfold Mach.note
  try dsimp only
  repeat' first
    | with_reducible
      first
        | assumption | intro _ | apply Mach.memOk_reg | apply Mach.ite_memOk | apply Mach.ite_fst_memOk | apply Mach.fltMod_memOk
        | rfl
    | split
    | dsimp only

theorem Mach.decodeAt_memOk {m : Mach} (h : m.memOk = true) (a0) (a1) (a2) (a3) (a4) : (Mach.decodeAt m a0 a1 a2 a3 a4).1.memOk = true := by
  unfold Mach.decodeAt
  try dsimp only
  repeat' first
    | with_reducible
      first
        | assumption | intro _ | apply Mach.memOk_reg | apply Mach.ite_memOk | apply Mach.ite_fst_memOk | apply Mach.count_memOk
        | apply Mach.note_memOk | rfl
    | split
    | dsimp only

theorem Mach.dramRead_memOk {m : Mach} (h : m.memOk = true) (a0) : (Mach.dramRead m a0).1.memOk = true := by
  unfold Mach.dramRead
  try dsimp only
  repeat' first
    | with_reducible
      first
        | assumption | intro _ | apply Mach.memOk_reg | apply Mach.ite_memOk | apply Mach.ite_fst_memOk | apply Mach.decodeAt_memOk
        | apply Mach.wr_memOk | apply Mach.setReg_memOk | rfl
    | split
    | dsimp only

theorem Mach.dramReads_memOk {m : Mach} (h : m.memOk = true) (a0) (a1) : (Mach.dramReads m a0 a1).1.memOk = true := by
  revert h
  fun_induction Mach.dramReads m a0 a1
  all_goals try intro h
  all_goals try dsimp only
  all_goals
    repeat' first
      | with_reducible
        first
          | assumption | intro _ | apply Mach.memOk_reg | apply Mach.ite_memOk | apply Mach.ite_fst_memOk
          | apply Mach.dramRead_memOk | rfl | apply_assumption
      | split
      | dsimp only

theorem Mach.lostOne_memOk {m : Mach} (h : m.memOk = true) (a0) : (Mach.lostOne m a0).memOk = true := by
  unfold Mach.lostOne
  try dsimp only
  repeat' first
    | with_reducible
      first
        | assumption | intro _ | apply Mach.memOk_reg | apply Mach.ite_memOk | apply Mach.ite_fst_memOk | apply Mach.aschMod_memOk
        | apply Mach.setQueue_memOk | rfl
    | split
    | dsimp only

theorem Mach.stagePlace_memOk {m : Mach} (h : m.memOk = true) (a0) (a1) : (Mach.stagePlace m a0 a1).memOk = true := by
  unfold Mach.stagePlace
  try dsimp only
  repeat' first
    | with_reducible
      first
        | assumption | intro _ | apply Mach.memOk_reg | apply Mach.ite_memOk | apply Mach.ite_fst_memOk | apply Mach.forEach_memOk
        | apply Mach.count_memOk | apply Mach.setStg_memOk | apply Mach.lostOne_memOk | rfl
    | split
    | dsimp only

theorem Mach.holdOn_memOk {m : Mach} (h : m.memOk = true) (a0) : (Mach.holdOn m a0).memOk = true := by
  unfold Mach.holdOn
  try dsimp only
  repeat' first
    | with_reducible
      first
        | assumption | intro _ | apply Mach.memOk_reg | apply Mach.ite_memOk | apply Mach.ite_fst_memOk | apply Mach.chnMod_memOk
        | rfl
    | split
    | dsimp only

theorem Mach.violation_memOk {m : Mach} (h : m.memOk = true) (a0) (a1) (a2) (a3) (a4) : (Mach.violation m a0 a1 a2 a3 a4).memOk = true := by
  unfold Mach.violation
  try dsimp only
  repeat' first
    | with_reducible
      first
        | assumption | intro _ | apply Mach.memOk_reg | apply Mach.ite_memOk | apply Mach.ite_fst_memOk | apply Mach.event_memOk
        | apply Mach.setReg_memOk | apply Mach.count_memOk | rfl
    | split
    | dsimp only

theorem Mach.boundDone_memOk {m : Mach} (h : m.memOk = true) (a0) (a1) (a2) : (Mach.boundDone m a0 a1 a2).memOk = true := by
  unfold Mach.boundDone
  try dsimp only
  repeat' first
    | with_reducible
      first
        | assumption | intro _ | apply Mach.memOk_reg | apply Mach.ite_memOk | apply Mach.ite_fst_memOk
        | apply Mach.violation_memOk | rfl
    | split
    | dsimp only

theorem Mach.homeRelease_memOk {m : Mach} (h : m.memOk = true) (a0) : (Mach.homeRelease m a0).memOk = true := by
  unfold Mach.homeRelease
  try dsimp only
  repeat' first
    | with_reducible
      first
        | assumption | intro _ | apply Mach.memOk_reg | apply Mach.ite_memOk | apply Mach.ite_fst_memOk | apply Mach.setPool_memOk
        | rfl
    | split
    | dsimp only

theorem Mach.frameDone_memOk {m : Mach} (h : m.memOk = true) (a0) (a1) (a2) : (Mach.frameDone m a0 a1 a2).memOk = true := by
  unfold Mach.frameDone
  try dsimp only
  repeat' first
    | with_reducible
      first
        | assumption | intro _ | apply Mach.memOk_reg | apply Mach.ite_memOk | apply Mach.ite_fst_memOk | apply Mach.holdOn_memOk
        | apply Mach.journal_memOk | apply Mach.boundDone_memOk | apply Mach.homeRelease_memOk | apply Mach.aschMod_memOk | rfl
    | split
    | dsimp only

theorem Mach.stageDrop_memOk {m : Mach} (h : m.memOk = true) (a0) (a1) : (Mach.stageDrop m a0 a1).memOk = true := by
  unfold Mach.stageDrop
  try dsimp only
  repeat' first
    | with_reducible
      first
        | assumption | intro _ | apply Mach.memOk_reg | apply Mach.ite_memOk | apply Mach.ite_fst_memOk | apply Mach.setStg_memOk
        | rfl
    | split
    | dsimp only

theorem Mach.unitEnds_memOk {m : Mach} (h : m.memOk = true) (a0) (a1) (a2) : (Mach.unitEnds m a0 a1 a2).memOk = true := by
  unfold Mach.unitEnds
  try dsimp only
  repeat' first
    | with_reducible
      first
        | assumption | intro _ | apply Mach.memOk_reg | apply Mach.ite_memOk | apply Mach.ite_fst_memOk | apply Mach.count_memOk
        | apply Mach.faultRecord_memOk | rfl
    | split
    | dsimp only

theorem Mach.stageWrite_memOk {m : Mach} (h : m.memOk = true) (a0) (a1) : (Mach.stageWrite m a0 a1).memOk = true := by
  unfold Mach.stageWrite
  try dsimp only
  repeat' first
    | with_reducible
      first
        | assumption | intro _ | apply Mach.memOk_reg | apply Mach.ite_memOk | apply Mach.ite_fst_memOk
        | apply Mach.dramReads_memOk | apply Mach.stagePlace_memOk | apply Mach.frameDone_memOk | apply Mach.stageDrop_memOk
        | apply Mach.unitEnds_memOk | rfl
    | split
    | dsimp only

theorem Mach.stgCommit_memOk {m : Mach} (h : m.memOk = true) (a0) : (Mach.stgCommit m a0).memOk = true := by
  unfold Mach.stgCommit
  try dsimp only
  repeat' first
    | with_reducible
      first
        | assumption | intro _ | apply Mach.memOk_reg | apply Mach.ite_memOk | apply Mach.ite_fst_memOk | apply Mach.forEach_memOk
        | apply Mach.setStg_memOk | apply Mach.stageWrite_memOk | rfl
    | split
    | dsimp only

theorem Mach.mirrorHome_memOk {m : Mach} (h : m.memOk = true) (a0) (a1) : (Mach.mirrorHome m a0 a1).memOk = true := by
  unfold Mach.mirrorHome
  try dsimp only
  repeat' first
    | with_reducible
      first
        | assumption | intro _ | apply Mach.memOk_reg | apply Mach.ite_memOk | apply Mach.ite_fst_memOk | apply Mach.count_memOk
        | apply Mach.dramReads_memOk | apply Mach.toStandby_memOk | apply Mach.forEach_memOk | rfl
    | split
    | dsimp only

theorem Mach.aschCommit_memOk {m : Mach} (h : m.memOk = true) (a0) : (Mach.aschCommit m a0).memOk = true := by
  unfold Mach.aschCommit
  try dsimp only
  repeat' first
    | with_reducible
      first
        | assumption | intro _ | apply Mach.memOk_reg | apply Mach.ite_memOk | apply Mach.ite_fst_memOk | apply Mach.forEach_memOk
        | apply Mach.aschMod_memOk | apply Mach.setPool_memOk | apply Mach.setQueue_memOk | apply Mach.mirrorHome_memOk
        | apply Mach.journal_memOk | rfl
    | split
    | dsimp only

theorem Mach.sigCommit_memOk {m : Mach} (h : m.memOk = true) (a0) : (Mach.sigCommit m a0).memOk = true := by
  unfold Mach.sigCommit
  try dsimp only
  repeat' first
    | with_reducible
      first
        | assumption | intro _ | apply Mach.memOk_reg | apply Mach.ite_memOk | apply Mach.ite_fst_memOk | apply Mach.forEach_memOk
        | apply Mach.evPump_memOk | apply Mach.dspMod_memOk | rfl
    | split
    | dsimp only

theorem Mach.chCommit_memOk {m : Mach} (h : m.memOk = true) (a0) (a1) : (Mach.chCommit m a0 a1).memOk = true := by
  unfold Mach.chCommit
  try dsimp only
  repeat' first
    | with_reducible
      first
        | assumption | intro _ | apply Mach.memOk_reg | apply Mach.ite_memOk | apply Mach.ite_fst_memOk | apply Mach.chPut_memOk
        | rfl
    | split
    | dsimp only

theorem Mach.blocksCommit_memOk {m : Mach} (h : m.memOk = true) (a0) : (Mach.blocksCommit m a0).memOk = true := by
  unfold Mach.blocksCommit
  try dsimp only
  repeat' first
    | with_reducible
      first
        | assumption | intro _ | apply Mach.memOk_reg | apply Mach.ite_memOk | apply Mach.ite_fst_memOk
        | apply Mach.hifCommit_memOk | apply Mach.uplCommit_memOk | apply Mach.rteCommit_memOk | apply Mach.stgCommit_memOk
        | apply Mach.aschCommit_memOk | apply Mach.sigCommit_memOk | apply Mach.forEach_memOk | apply Mach.chCommit_memOk | rfl
    | split
    | dsimp only

theorem Mach.commitRun_memOk {m : Mach} (h : m.memOk = true) (a0) (a1) : (Mach.commitRun m a0 a1).memOk = true := by
  unfold Mach.commitRun
  try dsimp only
  repeat' first
    | with_reducible
      first
        | assumption | intro _ | apply Mach.memOk_reg | apply Mach.ite_memOk | apply Mach.ite_fst_memOk
        | apply Mach.blocksCommit_memOk | apply Mach.journal_memOk | rfl
    | split
    | dsimp only

theorem Mach.endTask_memOk {m : Mach} (h : m.memOk = true) (a0) : (Mach.endTask m a0).memOk = true := by
  unfold Mach.endTask
  try dsimp only
  repeat' first
    | with_reducible
      first
        | assumption | intro _ | apply Mach.memOk_reg | apply Mach.ite_memOk | apply Mach.ite_fst_memOk | apply Mach.teMod_memOk
        | apply Mach.when_memOk | apply Mach.commitRun_memOk | apply Mach.count_memOk | rfl
    | split
    | dsimp only

theorem Mach.faultReturn_memOk {m : Mach} (h : m.memOk = true) (a0) (a1) : (Mach.faultReturn m a0 a1).memOk = true := by
  unfold Mach.faultReturn
  try dsimp only
  repeat' first
    | with_reducible
      first
        | assumption | intro _ | apply Mach.memOk_reg | apply Mach.ite_memOk | apply Mach.ite_fst_memOk | apply Mach.setTe_memOk
        | apply Mach.abandon_memOk | rfl
    | split
    | dsimp only

theorem Mach.finish_memOk {m : Mach} (h : m.memOk = true) (a0) : (Mach.finish m a0).memOk = true := by
  unfold Mach.finish
  try dsimp only
  repeat' first
    | with_reducible
      first
        | assumption | intro _ | apply Mach.memOk_reg | apply Mach.ite_memOk | apply Mach.ite_fst_memOk | apply Mach.setTe_memOk
        | apply Mach.raiseDz_memOk | apply Mach.endTask_memOk | apply Mach.faultReturn_memOk | rfl
    | split
    | dsimp only

theorem Mach.settle_memOk {m : Mach} (h : m.memOk = true) (a0) : (Mach.settle m a0).memOk = true := by
  unfold Mach.settle
  try dsimp only
  repeat' first
    | with_reducible
      first
        | assumption | intro _ | apply Mach.memOk_reg | apply Mach.ite_memOk | apply Mach.ite_fst_memOk | apply Mach.finish_memOk
        | rfl
    | split
    | dsimp only

theorem Mach.completeFlag_memOk {m : Mach} (h : m.memOk = true) (a0) (a1) (a2) (a3) : (Mach.completeFlag m a0 a1 a2 a3).memOk = true := by
  unfold Mach.completeFlag
  try dsimp only
  repeat' first
    | with_reducible
      first
        | assumption | intro _ | apply Mach.memOk_reg | apply Mach.ite_memOk | apply Mach.ite_fst_memOk | apply Mach.setFlag_memOk
        | apply Mach.dspMod_memOk | rfl
    | split
    | dsimp only

theorem Mach.accDone_memOk {m : Mach} (h : m.memOk = true) (a0) (a1) (a2) : (Mach.accDone m a0 a1 a2).memOk = true := by
  unfold Mach.accDone
  try dsimp only
  repeat' first
    | with_reducible
      first
        | assumption | intro _ | apply Mach.memOk_reg | apply Mach.ite_memOk | apply Mach.ite_fst_memOk | apply Mach.teMod_memOk
        | apply Mach.settle_memOk | apply Mach.completeFlag_memOk | rfl
    | split
    | dsimp only

theorem Mach.setPwr_memOk {m : Mach} (h : m.memOk = true) (a0) (a1) (a2) : (Mach.setPwr m a0 a1 a2).memOk = true := by
  unfold Mach.setPwr
  try dsimp only
  repeat' first
    | with_reducible
      first
        | assumption | intro _ | apply Mach.memOk_reg | apply Mach.ite_memOk | apply Mach.ite_fst_memOk | apply Mach.sysMod_memOk
        | apply Mach.wr_memOk | rfl
    | split
    | dsimp only

theorem Mach.pwrWake_memOk {m : Mach} (h : m.memOk = true) (a0) (a1) : (Mach.pwrWake m a0 a1).memOk = true := by
  unfold Mach.pwrWake
  try dsimp only
  repeat' first
    | with_reducible
      first
        | assumption | intro _ | apply Mach.memOk_reg | apply Mach.ite_memOk | apply Mach.ite_fst_memOk | apply Mach.setPwr_memOk
        | rfl
    | split
    | dsimp only

theorem Mach.accessWake_memOk {m : Mach} (h : m.memOk = true) (a0) : (Mach.accessWake m a0).memOk = true := by
  unfold Mach.accessWake
  try dsimp only
  repeat' first
    | with_reducible
      first
        | assumption | intro _ | apply Mach.memOk_reg | apply Mach.ite_memOk | apply Mach.ite_fst_memOk | apply Mach.pwrWake_memOk
        | rfl
    | split
    | dsimp only

theorem Mach.setShaper_memOk {m : Mach} (h : m.memOk = true) (a0) (a1) : (Mach.setShaper m a0 a1).memOk = true := by
  unfold Mach.setShaper
  try dsimp only
  repeat' first
    | with_reducible
      first
        | assumption | intro _ | apply Mach.memOk_reg | apply Mach.ite_memOk | apply Mach.ite_fst_memOk | apply Mach.aschMod_memOk
        | rfl
    | split
    | dsimp only

theorem Mach.setPolicer_memOk {m : Mach} (h : m.memOk = true) (a0) (a1) : (Mach.setPolicer m a0 a1).memOk = true := by
  unfold Mach.setPolicer
  try dsimp only
  repeat' first
    | with_reducible
      first
        | assumption | intro _ | apply Mach.memOk_reg | apply Mach.ite_memOk | apply Mach.ite_fst_memOk | apply Mach.aschMod_memOk
        | rfl
    | split
    | dsimp only

theorem Mach.accrue_memOk {m : Mach} (h : m.memOk = true) : (Mach.accrue m).memOk = true := by
  unfold Mach.accrue
  try dsimp only
  repeat' first
    | with_reducible
      first
        | assumption | intro _ | apply Mach.memOk_reg | apply Mach.ite_memOk | apply Mach.ite_fst_memOk | apply Mach.forEach_memOk
        | apply Mach.setShaper_memOk | apply Mach.setPolicer_memOk | rfl
    | split
    | dsimp only

theorem Mach.setNbr_memOk {m : Mach} (h : m.memOk = true) (a0) (a1) : (Mach.setNbr m a0 a1).memOk = true := by
  unfold Mach.setNbr
  try dsimp only
  repeat' first
    | with_reducible
      first
        | assumption | intro _ | apply Mach.memOk_reg | apply Mach.ite_memOk | apply Mach.ite_fst_memOk | apply Mach.mlinkMod_memOk
        | apply Mach.wr_memOk | rfl
    | split
    | dsimp only

theorem Mach.windowHit_memOk {m : Mach} (h : m.memOk = true) (a0) (a1) : (Mach.windowHit m a0 a1).memOk = true := by
  unfold Mach.windowHit
  try dsimp only
  repeat' first
    | with_reducible
      first
        | assumption | intro _ | apply Mach.memOk_reg | apply Mach.ite_memOk | apply Mach.ite_fst_memOk | apply Mach.mlinkMod_memOk
        | apply Mach.setNbr_memOk | apply Mach.freeVal_memOk | rfl
    | split
    | dsimp only

theorem Mach.logShow_memOk {m : Mach} (h : m.memOk = true) : (Mach.logShow m).memOk = true := by
  unfold Mach.logShow
  try dsimp only
  repeat' first
    | with_reducible
      first
        | assumption | intro _ | apply Mach.memOk_reg | apply Mach.ite_memOk | apply Mach.ite_fst_memOk | apply Mach.wr_memOk | rfl
    | split
    | dsimp only

theorem Mach.logAppend_memOk {m : Mach} (h : m.memOk = true) (a0) (a1) (a2) (a3) : (Mach.logAppend m a0 a1 a2 a3).memOk = true := by
  unfold Mach.logAppend
  try dsimp only
  repeat' first
    | with_reducible
      first
        | assumption | intro _ | apply Mach.memOk_reg | apply Mach.ite_memOk | apply Mach.ite_fst_memOk | apply Mach.logShow_memOk
        | apply Mach.count_memOk | apply Mach.mlinkMod_memOk | rfl
    | split
    | dsimp only

theorem Mach.chReceive_memOk {m : Mach} (h : m.memOk = true) (a0) (a1) : (Mach.chReceive m a0 a1).memOk = true := by
  unfold Mach.chReceive
  try dsimp only
  repeat' first
    | with_reducible
      first
        | assumption | intro _ | apply Mach.memOk_reg | apply Mach.ite_memOk | apply Mach.ite_fst_memOk | apply Mach.chPut_memOk
        | rfl
    | split
    | dsimp only

theorem Mach.report_memOk {m : Mach} (h : m.memOk = true) (a0) (a1) (a2) : (Mach.report m a0 a1 a2).memOk = true := by
  unfold Mach.report
  try dsimp only
  repeat' first
    | with_reducible
      first
        | assumption | intro _ | apply Mach.memOk_reg | apply Mach.ite_memOk | apply Mach.ite_fst_memOk | apply Mach.wr_memOk
        | apply Mach.count_memOk | rfl
    | split
    | dsimp only

theorem Mach.chRefuse_memOk {m : Mach} (h : m.memOk = true) (a0) (a1) : (Mach.chRefuse m a0 a1).memOk = true := by
  unfold Mach.chRefuse
  try dsimp only
  repeat' first
    | with_reducible
      first
        | assumption | intro _ | apply Mach.memOk_reg | apply Mach.ite_memOk | apply Mach.ite_fst_memOk | apply Mach.report_memOk
        | apply Mach.setChan_memOk | rfl
    | split
    | dsimp only

theorem Mach.chFrom_memOk {m : Mach} (h : m.memOk = true) (a0) (a1) (a2) : (Mach.chFrom m a0 a1 a2).memOk = true := by
  unfold Mach.chFrom
  try dsimp only
  repeat' first
    | with_reducible
      first
        | assumption | intro _ | apply Mach.memOk_reg | apply Mach.ite_memOk | apply Mach.ite_fst_memOk | apply Mach.chRefuse_memOk
        | apply Mach.chReceive_memOk | rfl
    | split
    | dsimp only

theorem Mach.mboxSend_memOk {m : Mach} (h : m.memOk = true) (a0) (a1) : (Mach.mboxSend m a0 a1).memOk = true := by
  unfold Mach.mboxSend
  try dsimp only
  repeat' first
    | with_reducible
      first
        | assumption | intro _ | apply Mach.memOk_reg | apply Mach.ite_memOk | apply Mach.ite_fst_memOk | apply Mach.mlinkMod_memOk
        | apply Mach.chFrom_memOk | rfl
    | split
    | dsimp only

theorem Mach.mboxPost_memOk {m : Mach} (h : m.memOk = true) (a0) (a1) : (Mach.mboxPost m a0 a1).memOk = true := by
  unfold Mach.mboxPost
  try dsimp only
  repeat' first
    | with_reducible
      first
        | assumption | intro _ | apply Mach.memOk_reg | apply Mach.ite_memOk | apply Mach.ite_fst_memOk
        | apply Mach.logAppend_memOk | apply Mach.mboxSend_memOk | apply Mach.mlinkMod_memOk | rfl
    | split
    | dsimp only

theorem Mach.meshEvent_memOk {m : Mach} (h : m.memOk = true) (a0) (a1) (a2) : (Mach.meshEvent m a0 a1 a2).memOk = true := by
  unfold Mach.meshEvent
  try dsimp only
  repeat' first
    | with_reducible
      first
        | assumption | intro _ | apply Mach.memOk_reg | apply Mach.ite_memOk | apply Mach.ite_fst_memOk | apply Mach.mboxPost_memOk
        | rfl
    | split
    | dsimp only

def Judged.memOk : Judged → Prop
  | .dropped m => m.memOk = true
  | .passed m _ _ => m.memOk = true

theorem Judged.memOk_dropped {m : Mach} (h : m.memOk = true) : (Judged.dropped m).memOk := h

theorem Judged.memOk_passed {m : Mach} (h : m.memOk = true) (f) (i) : (Judged.passed m f i).memOk := h

theorem Mach.linkJudge_memOk {m : Mach} (h : m.memOk = true) (a0) : (Mach.linkJudge m a0).memOk := by
  unfold Mach.linkJudge
  dsimp only
  repeat' (first
    | with_reducible assumption
    | with_reducible apply Judged.memOk_dropped
    | with_reducible apply Judged.memOk_passed
    | with_reducible apply Mach.mlinkMod_memOk
    | with_reducible apply Mach.count_memOk
    | with_reducible apply Mach.meshEvent_memOk
    | with_reducible apply Mach.setNbr_memOk
    | with_reducible apply Mach.ite_memOk
    | split
    | dsimp only)

theorem Mach.linkTake_memOk {m : Mach} (a0) {a1 : Mach → LinkFrame → Nat → Mach} (h : m.memOk = true)
    (ha1 : ∀ (x0 : Mach) x1 x2, x0.memOk = true → (a1 x0 x1 x2).memOk = true) : (Mach.linkTake m a0 a1).memOk = true := by
  unfold Mach.linkTake
  split
  · exact h
  · rename_i l _
    split
    · exact h
    · have hj := Mach.linkJudge_memOk h l
      revert hj
      cases Mach.linkJudge m l with
      | dropped m1 => exact fun hj => Mach.mlinkMod_memOk hj _
      | passed m1 f i => exact fun hj => Mach.mlinkMod_memOk (ha1 _ _ _ (Mach.windowHit_memOk hj _ _)) _

theorem Mach.ackReceive_memOk {m : Mach} (h : m.memOk = true) : (Mach.ackReceive m).memOk = true := by
  unfold Mach.ackReceive
  try dsimp only
  repeat' first
    | with_reducible
      first
        | assumption | intro _ | apply Mach.memOk_reg | apply Mach.ite_memOk | apply Mach.ite_fst_memOk | apply Mach.linkTake_memOk
        | apply Mach.meshEvent_memOk | apply Mach.count_memOk | apply Mach.setNbr_memOk | rfl
    | split
    | dsimp only

theorem Mach.fcntNext_memOk {m : Mach} (h : m.memOk = true) : (Mach.fcntNext m).memOk = true := by
  unfold Mach.fcntNext
  try dsimp only
  repeat' first
    | with_reducible
      first
        | assumption | intro _ | apply Mach.memOk_reg | apply Mach.ite_memOk | apply Mach.ite_fst_memOk | apply Mach.setReg_memOk
        | apply Mach.mlinkMod_memOk | apply Mach.when_memOk | apply Mach.meshEvent_memOk | rfl
    | split
    | dsimp only

theorem Mach.lanternState_memOk {m : Mach} (h : m.memOk = true) (a0) : (Mach.lanternState m a0).memOk = true := by
  unfold Mach.lanternState
  try dsimp only
  repeat' first
    | with_reducible
      first
        | assumption | intro _ | apply Mach.memOk_reg | apply Mach.ite_memOk | apply Mach.ite_fst_memOk | apply Mach.wr_memOk | rfl
    | split
    | dsimp only

theorem Mach.lanternWake_memOk {m : Mach} (h : m.memOk = true) : (Mach.lanternWake m).memOk = true := by
  unfold Mach.lanternWake
  try dsimp only
  repeat' first
    | with_reducible
      first
        | assumption | intro _ | apply Mach.memOk_reg | apply Mach.ite_memOk | apply Mach.ite_fst_memOk | apply Mach.count_memOk
        | apply Mach.lanternState_memOk | rfl
    | split
    | dsimp only

theorem Mach.lcTake_memOk {m : Mach} (h : m.memOk = true) : (Mach.lcTake m).memOk = true := by
  unfold Mach.lcTake
  try dsimp only
  repeat' first
    | with_reducible
      first
        | assumption | intro _ | apply Mach.memOk_reg | apply Mach.ite_memOk | apply Mach.ite_fst_memOk | apply Mach.lcMod_memOk
        | rfl
    | split
    | dsimp only

theorem Mach.lcRaise_memOk {m : Mach} (h : m.memOk = true) (a0) : (Mach.lcRaise m a0).memOk = true := by
  unfold Mach.lcRaise
  try dsimp only
  repeat' first
    | with_reducible
      first
        | assumption | intro _ | apply Mach.memOk_reg | apply Mach.ite_memOk | apply Mach.ite_fst_memOk | apply Mach.lcMod_memOk
        | apply Mach.lcTake_memOk | apply Mach.lanternWake_memOk | rfl
    | split
    | dsimp only

theorem Mach.meshTxDone_memOk {m : Mach} (h : m.memOk = true) (a0) (a1) : (Mach.meshTxDone m a0 a1).memOk = true := by
  unfold Mach.meshTxDone
  try dsimp only
  repeat' first
    | with_reducible
      first
        | assumption | intro _ | apply Mach.memOk_reg | apply Mach.ite_memOk | apply Mach.ite_fst_memOk | apply Mach.wr_memOk
        | apply Mach.count_memOk | apply Mach.mradMod_memOk | apply Mach.lcRaise_memOk | apply Mach.mlinkMod_memOk | rfl
    | split
    | dsimp only

theorem Mach.mradGo_memOk {m : Mach} (h : m.memOk = true) (a0) : (Mach.mradGo m a0).memOk = true := by
  unfold Mach.mradGo
  try dsimp only
  repeat' first
    | with_reducible
      first
        | assumption | intro _ | apply Mach.memOk_reg | apply Mach.ite_memOk | apply Mach.ite_fst_memOk | apply Mach.mradMod_memOk
        | rfl
    | split
    | dsimp only

theorem Mach.dutyShow_memOk {m : Mach} (h : m.memOk = true) : (Mach.dutyShow m).memOk = true := by
  unfold Mach.dutyShow
  try dsimp only
  repeat' first
    | with_reducible
      first
        | assumption | intro _ | apply Mach.memOk_reg | apply Mach.ite_memOk | apply Mach.ite_fst_memOk | apply Mach.forEach_memOk
        | apply Mach.setReg_memOk | rfl
    | split
    | dsimp only

theorem Mach.dutyCount_memOk {m : Mach} (h : m.memOk = true) (a0) (a1) : (Mach.dutyCount m a0 a1).memOk = true := by
  unfold Mach.dutyCount
  try dsimp only
  repeat' first
    | with_reducible
      first
        | assumption | intro _ | apply Mach.memOk_reg | apply Mach.ite_memOk | apply Mach.ite_fst_memOk | apply Mach.dutyShow_memOk
        | apply Mach.mradMod_memOk | rfl
    | split
    | dsimp only

theorem Mach.meshTxStart_memOk {m : Mach} (h : m.memOk = true) (a0) (a1) (a2) : (Mach.meshTxStart m a0 a1 a2).memOk = true := by
  unfold Mach.meshTxStart
  try dsimp only
  repeat' first
    | with_reducible
      first
        | assumption | intro _ | apply Mach.memOk_reg | apply Mach.ite_memOk | apply Mach.ite_fst_memOk | apply Mach.mradGo_memOk
        | apply Mach.dutyCount_memOk | apply Mach.mradMod_memOk | rfl
    | split
    | dsimp only

theorem Mach.meshTx_memOk {m : Mach} (h : m.memOk = true) (a0) : (Mach.meshTx m a0).memOk = true := by
  unfold Mach.meshTx
  try dsimp only
  repeat' first
    | with_reducible
      first
        | assumption | intro _ | apply Mach.memOk_reg | apply Mach.ite_memOk | apply Mach.ite_fst_memOk
        | apply Mach.meshTxDone_memOk | apply Mach.mradMod_memOk | apply Mach.meshTxStart_memOk | rfl
    | split
    | dsimp only

theorem Mach.meshAsk_memOk {m : Mach} (h : m.memOk = true) (a0) : (Mach.meshAsk m a0).memOk = true := by
  unfold Mach.meshAsk
  try dsimp only
  repeat' first
    | with_reducible
      first
        | assumption | intro _ | apply Mach.memOk_reg | apply Mach.ite_memOk | apply Mach.ite_fst_memOk | apply Mach.meshTx_memOk
        | apply Mach.when_memOk | apply Mach.meshEvent_memOk | apply Mach.meshTxDone_memOk | rfl
    | split
    | dsimp only

theorem Mach.airQueue_memOk {m : Mach} (h : m.memOk = true) (a0) : (Mach.airQueue m a0).memOk = true := by
  unfold Mach.airQueue
  try dsimp only
  repeat' first
    | with_reducible
      first
        | assumption | intro _ | apply Mach.memOk_reg | apply Mach.ite_memOk | apply Mach.ite_fst_memOk | apply Mach.mlinkMod_memOk
        | apply Mach.meshAsk_memOk | rfl
    | split
    | dsimp only

theorem Mach.linkSend_memOk {m : Mach} (h : m.memOk = true) (a0) (a1) (a2) (a3) (a4) (a5) (a6) (a7) (a8) : (Mach.linkSend m a0 a1
    a2 a3 a4 a5 a6 a7 a8).memOk = true := by
  unfold Mach.linkSend
  try dsimp only
  repeat' first
    | with_reducible
      first
        | assumption | intro _ | apply Mach.memOk_reg | apply Mach.ite_memOk | apply Mach.ite_fst_memOk | apply Mach.fcntNext_memOk
        | apply Mach.airQueue_memOk | rfl
    | split
    | dsimp only

theorem Mach.ackSend_memOk {m : Mach} (h : m.memOk = true) : (Mach.ackSend m).memOk = true := by
  unfold Mach.ackSend
  try dsimp only
  repeat' first
    | with_reducible
      first
        | assumption | intro _ | apply Mach.memOk_reg | apply Mach.ite_memOk | apply Mach.ite_fst_memOk | apply Mach.linkSend_memOk
        | apply Mach.mlinkMod_memOk | rfl
    | split
    | dsimp only

theorem Mach.advance_memOk {m : Mach} (h : m.memOk = true) (a0) (a1) (a2) : (Mach.advance m a0 a1 a2).memOk = true := by
  unfold Mach.advance
  try dsimp only
  repeat' first
    | with_reducible
      first
        | assumption | intro _ | apply Mach.memOk_reg | apply Mach.ite_memOk | apply Mach.ite_fst_memOk | apply Mach.settle_memOk
        | apply Mach.teMod_memOk | rfl
    | split
    | dsimp only

theorem Mach.sramRead_memOk {m : Mach} (h : m.memOk = true) (a0) : (Mach.sramRead m a0).1.memOk = true := by
  unfold Mach.sramRead
  try dsimp only
  repeat' first
    | with_reducible
      first
        | assumption | intro _ | apply Mach.memOk_reg | apply Mach.ite_memOk | apply Mach.ite_fst_memOk | apply Mach.decodeAt_memOk
        | rfl
    | split
    | dsimp only

theorem Mach.sramReads_memOk {m : Mach} (h : m.memOk = true) (a0) (a1) : (Mach.sramReads m a0 a1).1.memOk = true := by
  revert h
  fun_induction Mach.sramReads m a0 a1
  all_goals try intro h
  all_goals try dsimp only
  all_goals
    repeat' first
      | with_reducible
        first
          | assumption | intro _ | apply Mach.memOk_reg | apply Mach.ite_memOk | apply Mach.ite_fst_memOk
          | apply Mach.sramRead_memOk | rfl | apply_assumption
      | split
      | dsimp only

theorem Mach.tblReads_memOk {m : Mach} (h : m.memOk = true) (a0) (a1) (a2) : (Mach.tblReads m a0 a1 a2).1.memOk = true := by
  unfold Mach.tblReads
  try dsimp only
  repeat' first
    | with_reducible
      first
        | assumption | intro _ | apply Mach.memOk_reg | apply Mach.ite_memOk | apply Mach.ite_fst_memOk
        | apply Mach.sramReads_memOk | apply Mach.dramReads_memOk | rfl
    | split
    | dsimp only

theorem Mach.hashEntry_memOk {m : Mach} (h : m.memOk = true) (a0) (a1) : (Mach.hashEntry m a0 a1).1.memOk = true := by
  unfold Mach.hashEntry
  try dsimp only
  repeat' first
    | with_reducible
      first
        | assumption | intro _ | apply Mach.memOk_reg | apply Mach.ite_memOk | apply Mach.ite_fst_memOk | apply Mach.tblReads_memOk
        | rfl
    | split
    | dsimp only

theorem Mach.tblPut_memOk {m : Mach} (h : m.memOk = true) (a0) (a1) (a2) : (Mach.tblPut m a0 a1 a2).memOk = true := by
  unfold Mach.tblPut
  try dsimp only
  repeat' first
    | with_reducible
      first
        | assumption | intro _ | apply Mach.memOk_reg | apply Mach.ite_memOk | apply Mach.ite_fst_memOk
        | apply Mach.sramWrite_memOk | apply Mach.dramWrite_memOk | rfl
    | split
    | dsimp only

theorem Mach.tblPuts_memOk {m : Mach} (h : m.memOk = true) (a0) (a1) (a2) : (Mach.tblPuts m a0 a1 a2).memOk = true := by
  revert h
  fun_induction Mach.tblPuts m a0 a1 a2
  all_goals try intro h
  all_goals try dsimp only
  all_goals
    repeat' first
      | with_reducible
        first
          | assumption | intro _ | apply Mach.memOk_reg | apply Mach.ite_memOk | apply Mach.ite_fst_memOk | apply Mach.tblPut_memOk
          | rfl | apply_assumption
      | split
      | dsimp only

theorem Mach.hashPut_memOk {m : Mach} (h : m.memOk = true) (a0) (a1) (a2) : (Mach.hashPut m a0 a1 a2).memOk = true := by
  unfold Mach.hashPut
  try dsimp only
  repeat' first
    | with_reducible
      first
        | assumption | intro _ | apply Mach.memOk_reg | apply Mach.ite_memOk | apply Mach.ite_fst_memOk | apply Mach.tblPuts_memOk
        | rfl
    | split
    | dsimp only

theorem Mach.ageStep_memOk {m : Mach} (h : m.memOk = true) : (Mach.ageStep m).memOk = true := by
  unfold Mach.ageStep
  try dsimp only
  repeat' first
    | with_reducible
      first
        | assumption | intro _ | apply Mach.memOk_reg | apply Mach.ite_memOk | apply Mach.ite_fst_memOk | apply Mach.rteMod_memOk
        | apply Mach.hashEntry_memOk | apply Mach.hashPut_memOk | rfl
    | split
    | dsimp only

theorem Mach.ageRun_memOk (k : Nat) {m : Mach} (h : m.memOk = true) : (Mach.ageRun k m).memOk = true := by
  induction k generalizing m with
  | zero => exact h
  | succ k ih =>
    unfold Mach.ageRun
    dsimp only
    split
    · split
      · exact ih (Mach.ageStep_memOk h)
      · exact ih (Mach.ageStep_memOk (Mach.rteMod_memOk h _))
    · exact h

theorem Mach.ageBeat_memOk {m : Mach} (h : m.memOk = true) : (Mach.ageBeat m).memOk = true := by
  unfold Mach.ageBeat
  try dsimp only
  repeat' first
    | with_reducible
      first
        | assumption | intro _ | apply Mach.memOk_reg | apply Mach.ite_memOk | apply Mach.ite_fst_memOk | apply Mach.ageRun_memOk
        | rfl
    | split
    | dsimp only

theorem Mach.notice_memOk {m : Mach} (h : m.memOk = true) (a0) (a1) (a2) (a3) : (Mach.notice m a0 a1 a2 a3).memOk = true := by
  unfold Mach.notice
  try dsimp only
  repeat' first
    | with_reducible
      first
        | assumption | intro _ | apply Mach.memOk_reg | apply Mach.ite_memOk | apply Mach.ite_fst_memOk | apply Mach.putEvent_memOk
        | rfl
    | split
    | dsimp only

theorem Mach.txReport_memOk {m : Mach} (h : m.memOk = true) (a0) (a1) (a2) : (Mach.txReport m a0 a1 a2).memOk = true := by
  unfold Mach.txReport
  try dsimp only
  repeat' first
    | with_reducible
      first
        | assumption | intro _ | apply Mach.memOk_reg | apply Mach.ite_memOk | apply Mach.ite_fst_memOk | apply Mach.notice_memOk
        | apply Mach.wr_memOk | apply Mach.count_memOk | rfl
    | split
    | dsimp only

theorem Mach.xbLatch_memOk {m : Mach} (h : m.memOk = true) : (Mach.xbLatch m).memOk = true := by
  unfold Mach.xbLatch
  try dsimp only
  repeat' first
    | with_reducible
      first
        | assumption | intro _ | apply Mach.memOk_reg | apply Mach.ite_memOk | apply Mach.ite_fst_memOk | apply Mach.bbMod_memOk
        | apply Mach.forEach_memOk | rfl
    | split
    | dsimp only

theorem Mach.radioTxDone_memOk {m : Mach} (h : m.memOk = true) (a0) (a1) (a2) : (Mach.radioTxDone m a0 a1 a2).1.memOk = true := by
  unfold Mach.radioTxDone
  try dsimp only
  repeat' first
    | with_reducible
      first
        | assumption | intro _ | apply Mach.memOk_reg | apply Mach.ite_memOk | apply Mach.ite_fst_memOk | apply Mach.radioMod_memOk
        | apply Mach.txReport_memOk | apply Mach.xbLatch_memOk | rfl
    | split
    | dsimp only

theorem Mach.radioGo_memOk {m : Mach} (h : m.memOk = true) (a0) (a1) : (Mach.radioGo m a0 a1).memOk = true := by
  unfold Mach.radioGo
  try dsimp only
  repeat' first
    | with_reducible
      first
        | assumption | intro _ | apply Mach.memOk_reg | apply Mach.ite_memOk | apply Mach.ite_fst_memOk | apply Mach.radioMod_memOk
        | rfl
    | split
    | dsimp only

theorem Mach.radioListen_memOk {m : Mach} (h : m.memOk = true) (a0) : (Mach.radioListen m a0).memOk = true := by
  unfold Mach.radioListen
  try dsimp only
  repeat' first
    | with_reducible
      first
        | assumption | intro _ | apply Mach.memOk_reg | apply Mach.ite_memOk | apply Mach.ite_fst_memOk | apply Mach.radioGo_memOk
        | rfl
    | split
    | dsimp only

theorem Mach.radioBack_memOk {m : Mach} (h : m.memOk = true) (a0) : (Mach.radioBack m a0).memOk = true := by
  unfold Mach.radioBack
  try dsimp only
  repeat' first
    | with_reducible
      first
        | assumption | intro _ | apply Mach.memOk_reg | apply Mach.ite_memOk | apply Mach.ite_fst_memOk
        | apply Mach.radioListen_memOk | apply Mach.radioGo_memOk | rfl
    | split
    | dsimp only

theorem Mach.freeChains_memOk {m : Mach} (h : m.memOk = true) (a0) : (Mach.freeChains m a0).1.memOk = true := by
  revert h
  fun_induction Mach.freeChains m a0
  all_goals try intro h
  all_goals try dsimp only
  all_goals
    repeat' first
      | with_reducible
        first
          | assumption | intro _ | apply Mach.memOk_reg | apply Mach.ite_memOk | apply Mach.ite_fst_memOk
          | apply Mach.freeVal_memOk | rfl | apply_assumption
      | split
      | dsimp only

theorem Mach.strWr_memOk {m : Mach} (h : m.memOk = true) (a0) (a1) : (Mach.strWr m a0 a1).memOk = true := by
  unfold Mach.strWr
  try dsimp only
  repeat' first
    | with_reducible
      first
        | assumption | intro _ | apply Mach.memOk_reg | apply Mach.ite_memOk | apply Mach.ite_fst_memOk | apply Mach.wr_memOk | rfl
    | split
    | dsimp only

theorem Mach.strMeasure_memOk {m : Mach} (h : m.memOk = true) (a0) (a1) : (Mach.strMeasure m a0 a1).memOk = true := by
  unfold Mach.strMeasure
  try dsimp only
  repeat' first
    | with_reducible
      first
        | assumption | intro _ | apply Mach.memOk_reg | apply Mach.ite_memOk | apply Mach.ite_fst_memOk | apply Mach.bbMod_memOk
        | apply Mach.strWr_memOk | apply Mach.event_memOk | rfl
    | split
    | dsimp only

theorem Mach.strCut_memOk {m : Mach} (h : m.memOk = true) (a0) : (Mach.strCut m a0).memOk = true := by
  unfold Mach.strCut
  try dsimp only
  repeat' first
    | with_reducible
      first
        | assumption | intro _ | apply Mach.memOk_reg | apply Mach.ite_memOk | apply Mach.ite_fst_memOk
        | apply Mach.freeChains_memOk | apply Mach.strMeasure_memOk | rfl
    | split
    | dsimp only

theorem Mach.radioCut_memOk {m : Mach} (h : m.memOk = true) (a0) (a1) (a2) : (Mach.radioCut m a0 a1 a2).1.memOk = true := by
  unfold Mach.radioCut
  try dsimp only
  repeat' first
    | with_reducible
      first
        | assumption | intro _ | apply Mach.memOk_reg | apply Mach.ite_memOk | apply Mach.ite_fst_memOk | apply Mach.strCut_memOk
        | apply Mach.radioMod_memOk | apply Mach.radioBack_memOk | apply Mach.radioTxDone_memOk | rfl
    | split
    | dsimp only

theorem Mach.radioFence_memOk {m : Mach} (h : m.memOk = true) (a0) : (Mach.radioFence m a0).1.memOk = true := by
  unfold Mach.radioFence
  try dsimp only
  repeat' first
    | with_reducible
      first
        | assumption | intro _ | apply Mach.memOk_reg | apply Mach.ite_memOk | apply Mach.ite_fst_memOk | apply Mach.radioCut_memOk
        | rfl
    | split
    | dsimp only

theorem Mach.subMod_memOk {m : Mach} (h : m.memOk = true) (a0) (a1) (a2) : (Mach.subMod m a0 a1 a2).memOk = true := by
  unfold Mach.subMod
  try dsimp only
  repeat' first
    | with_reducible
      first
        | assumption | intro _ | apply Mach.memOk_reg | apply Mach.ite_memOk | apply Mach.ite_fst_memOk | apply Mach.setStg_memOk
        | rfl
    | split
    | dsimp only

theorem Mach.unsent_memOk {m : Mach} (h : m.memOk = true) (a0) (a1) : (Mach.unsent m a0 a1).memOk = true := by
  unfold Mach.unsent
  try dsimp only
  repeat' first
    | with_reducible
      first
        | assumption | intro _ | apply Mach.memOk_reg | apply Mach.ite_memOk | apply Mach.ite_fst_memOk | apply Mach.forEach_memOk
        | apply Mach.lostOne_memOk | apply Mach.subMod_memOk | rfl
    | split
    | dsimp only

theorem Mach.subDone_memOk {m : Mach} (h : m.memOk = true) (a0) (a1) (a2) (a3) : (Mach.subDone m a0 a1 a2 a3).memOk = true := by
  unfold Mach.subDone
  try dsimp only
  repeat' first
    | with_reducible
      first
        | assumption | intro _ | apply Mach.memOk_reg | apply Mach.ite_memOk | apply Mach.ite_fst_memOk
        | apply Mach.frameDone_memOk | apply Mach.stageDrop_memOk | apply Mach.wmacMod_memOk | rfl
    | split
    | dsimp only

theorem Mach.sqMod_memOk {m : Mach} (h : m.memOk = true) (a0) (a1) : (Mach.sqMod m a0 a1).memOk = true := by
  unfold Mach.sqMod
  try dsimp only
  repeat' first
    | with_reducible
      first
        | assumption | intro _ | apply Mach.memOk_reg | apply Mach.ite_memOk | apply Mach.ite_fst_memOk | apply Mach.wmacMod_memOk
        | rfl
    | split
    | dsimp only

theorem Mach.soundSent_memOk {m : Mach} (h : m.memOk = true) (a0) (a1) : (Mach.soundSent m a0 a1).memOk = true := by
  unfold Mach.soundSent
  try dsimp only
  repeat' first
    | with_reducible
      first
        | assumption | intro _ | apply Mach.memOk_reg | apply Mach.ite_memOk | apply Mach.ite_fst_memOk | apply Mach.sqMod_memOk
        | rfl
    | split
    | dsimp only

theorem Mach.macTxEnd_memOk {m : Mach} (h : m.memOk = true) (a0) (a1) (a2) : (Mach.macTxEnd m a0 a1 a2).memOk = true := by
  unfold Mach.macTxEnd
  try dsimp only
  repeat' first
    | with_reducible
      first
        | assumption | intro _ | apply Mach.memOk_reg | apply Mach.ite_memOk | apply Mach.ite_fst_memOk | apply Mach.unsent_memOk
        | apply Mach.forEach_memOk | apply Mach.subDone_memOk | apply Mach.subMod_memOk | apply Mach.sqMod_memOk
        | apply Mach.soundSent_memOk | apply Mach.radioListen_memOk | rfl
    | split
    | dsimp only

theorem Mach.macAfter_memOk (a0) {a1 : Mach × TxEnd} (h : a1.1.memOk = true) : (Mach.macAfter a0 a1).memOk = true := by
  unfold Mach.macAfter
  split
  · exact Mach.macTxEnd_memOk h _ _ _
  · exact h

theorem Mach.slotMark_memOk {m : Mach} (h : m.memOk = true) (a0) (a1) (a2) (a3) : (Mach.slotMark m a0 a1 a2 a3).memOk = true := by
  unfold Mach.slotMark
  try dsimp only
  repeat' first
    | with_reducible
      first
        | assumption | intro _ | apply Mach.memOk_reg | apply Mach.ite_memOk | apply Mach.ite_fst_memOk | apply Mach.wr_memOk
        | apply Mach.count_memOk | rfl
    | split
    | dsimp only

theorem Mach.calSlotMark_memOk {m : Mach} (h : m.memOk = true) (a0) (a1) (a2) : (Mach.calSlotMark m a0 a1 a2).memOk = true := by
  unfold Mach.calSlotMark
  try dsimp only
  repeat' first
    | with_reducible
      first
        | assumption | intro _ | apply Mach.memOk_reg | apply Mach.ite_memOk | apply Mach.ite_fst_memOk | apply Mach.slotMark_memOk
        | rfl
    | split
    | dsimp only

theorem Mach.chanApply_memOk {m : Mach} (h : m.memOk = true) (a0) (a1) : (Mach.chanApply m a0 a1).memOk = true := by
  unfold Mach.chanApply
  try dsimp only
  repeat' first
    | with_reducible
      first
        | assumption | intro _ | apply Mach.memOk_reg | apply Mach.ite_memOk | apply Mach.ite_fst_memOk | apply Mach.radioMod_memOk
        | apply Mach.wr_memOk | rfl
    | split
    | dsimp only

theorem Mach.calBegin_memOk {m : Mach} (h : m.memOk = true) (a0) (a1) : (Mach.calBegin m a0 a1).memOk = true := by
  unfold Mach.calBegin
  try dsimp only
  repeat' first
    | with_reducible
      first
        | assumption | intro _ | apply Mach.memOk_reg | apply Mach.ite_memOk | apply Mach.ite_fst_memOk | apply Mach.wr_memOk
        | apply Mach.chanApply_memOk | apply Mach.radioGo_memOk | apply Mach.radioMod_memOk | apply Mach.calSlotMark_memOk | rfl
    | split
    | dsimp only

theorem Mach.calTry_memOk {m : Mach} (h : m.memOk = true) (a0) : (Mach.calTry m a0).memOk = true := by
  unfold Mach.calTry
  try dsimp only
  repeat' first
    | with_reducible
      first
        | assumption | intro _ | apply Mach.memOk_reg | apply Mach.ite_memOk | apply Mach.ite_fst_memOk | apply Mach.calBegin_memOk
        | rfl
    | split
    | dsimp only

theorem Mach.idBegin_memOk {m : Mach} (h : m.memOk = true) (a0) : (Mach.idBegin m a0).memOk = true := by
  unfold Mach.idBegin
  try dsimp only
  repeat' first
    | with_reducible
      first
        | assumption | intro _ | apply Mach.memOk_reg | apply Mach.ite_memOk | apply Mach.ite_fst_memOk | apply Mach.busMod_memOk
        | apply Mach.wr_memOk | apply Mach.setReg_memOk | rfl
    | split
    | dsimp only

theorem Mach.radioFree_memOk {m : Mach} (h : m.memOk = true) (a0) : (Mach.radioFree m a0).memOk = true := by
  unfold Mach.radioFree
  try dsimp only
  repeat' first
    | with_reducible
      first
        | assumption | intro _ | apply Mach.memOk_reg | apply Mach.ite_memOk | apply Mach.ite_fst_memOk | apply Mach.idBegin_memOk
        | apply Mach.calTry_memOk | rfl
    | split
    | dsimp only

theorem Mach.rxCount_memOk {m : Mach} (h : m.memOk = true) (a0) (a1) (a2) : (Mach.rxCount m a0 a1 a2).memOk = true := by
  unfold Mach.rxCount
  try dsimp only
  repeat' first
    | with_reducible
      first
        | assumption | intro _ | apply Mach.memOk_reg | apply Mach.ite_memOk | apply Mach.ite_fst_memOk | apply Mach.count_memOk
        | apply Mach.when_memOk | rfl
    | split
    | dsimp only

theorem Mach.rssiShow_memOk {m : Mach} (h : m.memOk = true) (a0) (a1) : (Mach.rssiShow m a0 a1).memOk = true := by
  unfold Mach.rssiShow
  try dsimp only
  repeat' first
    | with_reducible
      first
        | assumption | intro _ | apply Mach.memOk_reg | apply Mach.ite_memOk | apply Mach.ite_fst_memOk | apply Mach.wr_memOk
        | apply Mach.forEach_memOk | rfl
    | split
    | dsimp only

theorem Mach.rxDeliverAs_memOk {m : Mach} (h : m.memOk = true) (a0) (a1) (a2) (a3) : (Mach.rxDeliverAs m a0 a1 a2 a3).memOk = true := by
  unfold Mach.rxDeliverAs
  try dsimp only
  repeat' first
    | with_reducible
      first
        | assumption | intro _ | apply Mach.memOk_reg | apply Mach.ite_memOk | apply Mach.ite_fst_memOk | apply Mach.rssiShow_memOk
        | apply Mach.bbMod_memOk | apply Mach.count_memOk | apply Mach.setReg_memOk | apply Mach.forEach_memOk
        | apply Mach.rxCount_memOk | rfl
    | split
    | dsimp only

theorem Mach.rxDeliver_memOk {m : Mach} (h : m.memOk = true) (a0) (a1) (a2) (a3) : (Mach.rxDeliver m a0 a1 a2 a3).memOk = true := by
  unfold Mach.rxDeliver
  try dsimp only
  repeat' first
    | with_reducible
      first
        | assumption | intro _ | apply Mach.memOk_reg | apply Mach.ite_memOk | apply Mach.ite_fst_memOk | apply Mach.forEach_memOk
        | apply foldl_memOk | apply foldl_fst_memOk | apply Mach.rxDeliverAs_memOk | rfl
    | split
    | dsimp only

theorem Mach.rxDeliverFree_memOk {m : Mach} (h : m.memOk = true) (a0) (a1) : (Mach.rxDeliverFree m a0 a1).memOk = true := by
  unfold Mach.rxDeliverFree
  try dsimp only
  repeat' first
    | with_reducible
      first
        | assumption | intro _ | apply Mach.memOk_reg | apply Mach.ite_memOk | apply Mach.ite_fst_memOk
        | apply Mach.rxDeliver_memOk | apply Mach.freeChains_memOk | rfl
    | split
    | dsimp only

theorem Mach.busyShow_memOk {m : Mach} (h : m.memOk = true) (a0) : (Mach.busyShow m a0).memOk = true := by
  unfold Mach.busyShow
  try dsimp only
  repeat' first
    | with_reducible
      first
        | assumption | intro _ | apply Mach.memOk_reg | apply Mach.ite_memOk | apply Mach.ite_fst_memOk | apply Mach.wr_memOk | rfl
    | split
    | dsimp only

theorem Mach.setRx_memOk {m : Mach} (h : m.memOk = true) (a0) (a1) : (Mach.setRx m a0 a1).memOk = true := by
  unfold Mach.setRx
  try dsimp only
  repeat' first
    | with_reducible
      first
        | assumption | intro _ | apply Mach.memOk_reg | apply Mach.ite_memOk | apply Mach.ite_fst_memOk | apply Mach.wr_memOk
        | apply Mach.bbMod_memOk | apply Mach.busyShow_memOk | rfl
    | split
    | dsimp only

theorem Mach.rxCutByTx_memOk {m : Mach} (h : m.memOk = true) (a0) : (Mach.rxCutByTx m a0).memOk = true := by
  unfold Mach.rxCutByTx
  try dsimp only
  repeat' first
    | with_reducible
      first
        | assumption | intro _ | apply Mach.memOk_reg | apply Mach.ite_memOk | apply Mach.ite_fst_memOk | apply Mach.setRx_memOk
        | apply Mach.when_memOk | apply Mach.rxDeliverFree_memOk | apply Mach.rxCount_memOk | rfl
    | split
    | dsimp only

theorem Mach.txStart_memOk {m : Mach} (h : m.memOk = true) (a0) (a1) : (Mach.txStart m a0 a1).memOk = true := by
  unfold Mach.txStart
  try dsimp only
  repeat' first
    | with_reducible
      first
        | assumption | intro _ | apply Mach.memOk_reg | apply Mach.ite_memOk | apply Mach.ite_fst_memOk | apply Mach.radioMod_memOk
        | apply Mach.rxCutByTx_memOk | apply Mach.xbLatch_memOk | apply Mach.radioGo_memOk | rfl
    | split
    | dsimp only

theorem Mach.radioTx_memOk {m : Mach} (h : m.memOk = true) (a0) (a1) : (Mach.radioTx m a0 a1).1.memOk = true := by
  unfold Mach.radioTx
  try dsimp only
  repeat' first
    | with_reducible
      first
        | assumption | intro _ | apply Mach.memOk_reg | apply Mach.ite_memOk | apply Mach.ite_fst_memOk | apply Mach.radioMod_memOk
        | apply Mach.txReport_memOk | apply Mach.txStart_memOk | rfl
    | split
    | dsimp only

theorem Mach.txNext_memOk {m : Mach} (h : m.memOk = true) (a0) : (Mach.txNext m a0).1.memOk = true := by
  unfold Mach.txNext
  try dsimp only
  repeat' first
    | with_reducible
      first
        | assumption | intro _ | apply Mach.memOk_reg | apply Mach.ite_memOk | apply Mach.ite_fst_memOk | apply Mach.radioTx_memOk
        | apply Mach.radioMod_memOk | rfl
    | split
    | dsimp only

theorem Mach.txDrain_memOk {m : Mach} (h : m.memOk = true) (a0) (a1) : (Mach.txDrain a0 a1 m).memOk = true := by
  revert h
  fun_induction Mach.txDrain a0 a1 m
  all_goals try intro h
  all_goals try dsimp only
  all_goals
    repeat' first
      | with_reducible
        first
          | assumption | intro _ | apply Mach.memOk_reg | apply Mach.ite_memOk | apply Mach.ite_fst_memOk
          | apply Mach.macTxEnd_memOk | apply Mach.txNext_memOk | rfl | apply_assumption
      | split
      | dsimp only

theorem Mach.afterRadio_memOk (a0) (a1) (h : a1.1.memOk = true) : (Mach.afterRadio a0 a1).memOk = true := by
  unfold Mach.afterRadio
  try dsimp only
  repeat' first
    | with_reducible
      first
        | assumption | intro _ | apply Mach.memOk_reg | apply Mach.ite_memOk | apply Mach.ite_fst_memOk
        | apply Mach.radioFree_memOk | apply Mach.macAfter_memOk | apply Mach.txDrain_memOk | rfl
    | split
    | dsimp only

theorem Mach.airCut_memOk {m : Mach} (h : m.memOk = true) : (Mach.airCut m).memOk = true := by
  unfold Mach.airCut
  try dsimp only
  repeat' first
    | with_reducible
      first
        | assumption | intro _ | apply Mach.memOk_reg | apply Mach.ite_memOk | apply Mach.ite_fst_memOk | apply Mach.forEach_memOk
        | apply Mach.radioFence_memOk | apply Mach.afterRadio_memOk | rfl
    | split
    | dsimp only

theorem Mach.airPump_memOk {m : Mach} (h : m.memOk = true) (a0) : (Mach.airPump a0 m).memOk = true := by
  revert h
  fun_induction Mach.airPump a0 m
  all_goals try intro h
  all_goals try dsimp only
  all_goals
    repeat' first
      | with_reducible
        first
          | assumption | intro _ | apply Mach.memOk_reg | apply Mach.ite_memOk | apply Mach.ite_fst_memOk
          | apply Mach.mlinkMod_memOk | apply Mach.meshAsk_memOk | rfl | apply_assumption
      | split
      | dsimp only

theorem Mach.airNext_memOk {m : Mach} (h : m.memOk = true) : (Mach.airNext m).memOk = true := by
  unfold Mach.airNext
  try dsimp only
  repeat' first
    | with_reducible
      first
        | assumption | intro _ | apply Mach.memOk_reg | apply Mach.ite_memOk | apply Mach.ite_fst_memOk | apply Mach.airPump_memOk
        | rfl
    | split
    | dsimp only

theorem Mach.hpTake_memOk {m : Mach} (h : m.memOk = true) (a0) (a1) : (Mach.hpTake m a0 a1).1.memOk = true := by
  unfold Mach.hpTake
  try dsimp only
  repeat' first
    | with_reducible
      first
        | assumption | intro _ | apply Mach.memOk_reg | apply Mach.ite_memOk | apply Mach.ite_fst_memOk | apply Mach.count_memOk
        | apply Mach.drawBelow_memOk | apply Mach.setPool_memOk | rfl
    | split
    | dsimp only

theorem Mach.allocOne_memOk {m : Mach} (h : m.memOk = true) (a0) (a1) : (Mach.allocOne m a0 a1).1.memOk = true := by
  unfold Mach.allocOne
  try dsimp only
  repeat' first
    | with_reducible
      first
        | assumption | intro _ | apply Mach.memOk_reg | apply Mach.ite_memOk | apply Mach.ite_fst_memOk | apply Mach.hpTake_memOk
        | rfl
    | split
    | dsimp only

theorem Mach.setShd_memOk {m : Mach} (h : m.memOk = true) (a0) : (Mach.setShd m a0).memOk = true := by
  unfold Mach.setShd
  try dsimp only
  repeat' first
    | with_reducible
      first
        | assumption | intro _ | apply Mach.memOk_reg | apply Mach.ite_memOk | apply Mach.ite_fst_memOk | apply Mach.wr_memOk | rfl
    | split
    | dsimp only

theorem Mach.ldStat_memOk {m : Mach} (h : m.memOk = true) (a0) (a1) (a2) : (Mach.ldStat m a0 a1 a2).memOk = true := by
  unfold Mach.ldStat
  try dsimp only
  repeat' first
    | with_reducible
      first
        | assumption | intro _ | apply Mach.memOk_reg | apply Mach.ite_memOk | apply Mach.ite_fst_memOk | apply Mach.wr_memOk | rfl
    | split
    | dsimp only

theorem Mach.setBank_memOk {m : Mach} (h : m.memOk = true) (a0) (a1) : (Mach.setBank m a0 a1).memOk = true := by
  unfold Mach.setBank
  try dsimp only
  repeat' first
    | with_reducible
      first
        | assumption | intro _ | apply Mach.memOk_reg | apply Mach.ite_memOk | apply Mach.ite_fst_memOk | apply Mach.armMod_memOk
        | rfl
    | split
    | dsimp only

theorem Mach.placeImage_memOk {m : Mach} (h : m.memOk = true) (a0) (a1) : (Mach.placeImage m a0 a1).memOk = true := by
  unfold Mach.placeImage
  try dsimp only
  repeat' first
    | with_reducible
      first
        | assumption | intro _ | apply Mach.memOk_reg | apply Mach.ite_memOk | apply Mach.ite_fst_memOk | apply Mach.forEach_memOk
        | apply Mach.setBank_memOk | apply Mach.teMod_memOk | rfl
    | split
    | dsimp only

theorem Mach.setReg64_memOk {m : Mach} (h : m.memOk = true) (a0) (a1) (a2) : (Mach.setReg64 m a0 a1 a2).memOk = true := by
  unfold Mach.setReg64
  try dsimp only
  repeat' first
    | with_reducible
      first
        | assumption | intro _ | apply Mach.memOk_reg | apply Mach.ite_memOk | apply Mach.ite_fst_memOk | apply Mach.setReg_memOk
        | rfl
    | split
    | dsimp only

theorem Mach.shdShow_memOk {m : Mach} (h : m.memOk = true) : (Mach.shdShow m).memOk = true := by
  unfold Mach.shdShow
  try dsimp only
  repeat' first
    | with_reducible
      first
        | assumption | intro _ | apply Mach.memOk_reg | apply Mach.ite_memOk | apply Mach.ite_fst_memOk | apply Mach.setReg64_memOk
        | apply Mach.wr_memOk | rfl
    | split
    | dsimp only

theorem Mach.shdPlace_memOk {m : Mach} (h : m.memOk = true) (a0) : (Mach.shdPlace m a0).memOk = true := by
  unfold Mach.shdPlace
  try dsimp only
  repeat' first
    | with_reducible
      first
        | assumption | intro _ | apply Mach.memOk_reg | apply Mach.ite_memOk | apply Mach.ite_fst_memOk
        | apply Mach.placeImage_memOk | apply Mach.shdShow_memOk | apply Mach.setShd_memOk | rfl
    | split
    | dsimp only

theorem Mach.armInstall_memOk {m : Mach} (h : m.memOk = true) (a0) : (Mach.armInstall m a0).memOk = true := by
  unfold Mach.armInstall
  try dsimp only
  repeat' first
    | with_reducible
      first
        | assumption | intro _ | apply Mach.memOk_reg | apply Mach.ite_memOk | apply Mach.ite_fst_memOk | apply Mach.chnMod_memOk
        | apply Mach.setShd_memOk | apply Mach.ldStat_memOk | apply Mach.shdPlace_memOk | rfl
    | split
    | dsimp only

theorem Mach.gateWake_memOk {m : Mach} (h : m.memOk = true) : (Mach.gateWake m).memOk = true := by
  unfold Mach.gateWake
  try dsimp only
  repeat' first
    | with_reducible
      first
        | assumption | intro _ | apply Mach.memOk_reg | apply Mach.ite_memOk | apply Mach.ite_fst_memOk | apply Mach.forEach_memOk
        | apply Mach.pwrWake_memOk | rfl
    | split
    | dsimp only

theorem Mach.armNow_memOk {m : Mach} (h : m.memOk = true) : (Mach.armNow m).memOk = true := by
  unfold Mach.armNow
  try dsimp only
  repeat' first
    | with_reducible
      first
        | assumption | intro _ | apply Mach.memOk_reg | apply Mach.ite_memOk | apply Mach.ite_fst_memOk | apply Mach.gateWake_memOk
        | apply Mach.setReg_memOk | apply Mach.setShd_memOk | apply Mach.armMod_memOk | rfl
    | split
    | dsimp only

theorem Mach.ignored_memOk {m : Mach} (h : m.memOk = true) (a0) : (Mach.ignored m a0).memOk = true := by
  unfold Mach.ignored
  try dsimp only
  repeat' first
    | with_reducible
      first
        | assumption | intro _ | apply Mach.memOk_reg | apply Mach.ite_memOk | apply Mach.ite_fst_memOk | apply Mach.report_memOk
        | rfl
    | split
    | dsimp only

theorem Mach.unlessAuto_memOk {m : Mach} (a0) (a1) (h : m.memOk = true) (ha1 : ∀ (x0 : Mach), x0.memOk = true → (a1 x0).memOk =
    true) : (Mach.unlessAuto m a0 a1).memOk = true := by
  unfold Mach.unlessAuto
  try dsimp only
  repeat' first
    | with_reducible
      first
        | assumption | intro _ | apply Mach.memOk_reg | apply Mach.ite_memOk | apply Mach.ite_fst_memOk | apply ha1
        | apply Mach.ignored_memOk | rfl
    | split
    | dsimp only

theorem Mach.poolShow_memOk {m : Mach} (h : m.memOk = true) : (Mach.poolShow m).memOk = true := by
  unfold Mach.poolShow
  try dsimp only
  repeat' first
    | with_reducible
      first
        | assumption | intro _ | apply Mach.memOk_reg | apply Mach.ite_memOk | apply Mach.ite_fst_memOk | apply Mach.wr_memOk | rfl
    | split
    | dsimp only

theorem Mach.nvFree_memOk {m : Mach} (h : m.memOk = true) (a0) : (Mach.nvFree m a0).memOk = true := by
  unfold Mach.nvFree
  try dsimp only
  repeat' first
    | with_reducible
      first
        | assumption | intro _ | apply Mach.memOk_reg | apply Mach.ite_memOk | apply Mach.ite_fst_memOk | apply Mach.poolShow_memOk
        | apply Mach.nvmMod_memOk | rfl
    | split
    | dsimp only

theorem Mach.loadGo_memOk {m : Mach} (h : m.memOk = true) : (Mach.loadGo m).memOk = true := by
  unfold Mach.loadGo
  try dsimp only
  repeat' first
    | with_reducible
      first
        | assumption | intro _ | apply Mach.memOk_reg | apply Mach.ite_memOk | apply Mach.ite_fst_memOk | apply Mach.ldStat_memOk
        | apply Mach.wr_memOk | apply Mach.armMod_memOk | apply Mach.setShd_memOk | apply Mach.nvFree_memOk | apply Mach.when_memOk
        | rfl
    | split
    | dsimp only

theorem Mach.ldCtlWrite_memOk {m : Mach} (h : m.memOk = true) (a0) : (Mach.ldCtlWrite m a0).memOk = true := by
  unfold Mach.ldCtlWrite
  try dsimp only
  repeat' first
    | with_reducible
      first
        | assumption | intro _ | apply Mach.memOk_reg | apply Mach.ite_memOk | apply Mach.ite_fst_memOk | apply Mach.setReg_memOk
        | apply Mach.loadGo_memOk | rfl
    | split
    | dsimp only

theorem Mach.swapArm_memOk {m : Mach} (h : m.memOk = true) : (Mach.swapArm m).memOk = true := by
  unfold Mach.swapArm
  try dsimp only
  repeat' first
    | with_reducible
      first
        | assumption | intro _ | apply Mach.memOk_reg | apply Mach.ite_memOk | apply Mach.ite_fst_memOk | apply Mach.wr_memOk
        | apply Mach.armNow_memOk | rfl
    | split
    | dsimp only

theorem Mach.changeEnd_memOk {m : Mach} (h : m.memOk = true) (a0) : (Mach.changeEnd m a0).memOk = true := by
  unfold Mach.changeEnd
  try dsimp only
  repeat' first
    | with_reducible
      first
        | assumption | intro _ | apply Mach.memOk_reg | apply Mach.ite_memOk | apply Mach.ite_fst_memOk | apply Mach.wr_memOk
        | apply Mach.armMod_memOk | rfl
    | split
    | dsimp only

theorem Mach.drive_memOk {m : Mach} (h : m.memOk = true) (a0) : (Mach.drive m a0).memOk = true := by
  unfold Mach.drive
  try dsimp only
  repeat' first
    | with_reducible
      first
        | assumption | intro _ | apply Mach.memOk_reg | apply Mach.ite_memOk | apply Mach.ite_fst_memOk | apply Mach.wr_memOk | rfl
    | split
    | dsimp only

theorem Mach.changeAbort_memOk {m : Mach} (h : m.memOk = true) (a0) : (Mach.changeAbort m a0).memOk = true := by
  unfold Mach.changeAbort
  try dsimp only
  repeat' first
    | with_reducible
      first
        | assumption | intro _ | apply Mach.memOk_reg | apply Mach.ite_memOk | apply Mach.ite_fst_memOk
        | apply Mach.changeEnd_memOk | apply Mach.drive_memOk | rfl
    | split
    | dsimp only

theorem Mach.disarm_memOk {m : Mach} (h : m.memOk = true) (a0) : (Mach.disarm m a0).memOk = true := by
  unfold Mach.disarm
  try dsimp only
  repeat' first
    | with_reducible
      first
        | assumption | intro _ | apply Mach.memOk_reg | apply Mach.ite_memOk | apply Mach.ite_fst_memOk | apply Mach.wr_memOk
        | apply Mach.setShd_memOk | apply Mach.armMod_memOk | rfl
    | split
    | dsimp only

theorem Mach.swapCancel_memOk {m : Mach} (h : m.memOk = true) : (Mach.swapCancel m).memOk = true := by
  unfold Mach.swapCancel
  try dsimp only
  repeat' first
    | with_reducible
      first
        | assumption | intro _ | apply Mach.memOk_reg | apply Mach.ite_memOk | apply Mach.ite_fst_memOk
        | apply Mach.changeAbort_memOk | apply Mach.disarm_memOk | rfl
    | split
    | dsimp only

theorem Mach.profileGo_memOk {m : Mach} (h : m.memOk = true) (a0) : (Mach.profileGo m a0).memOk = true := by
  unfold Mach.profileGo
  try dsimp only
  repeat' first
    | with_reducible
      first
        | assumption | intro _ | apply Mach.memOk_reg | apply Mach.ite_memOk | apply Mach.ite_fst_memOk | apply Mach.wr_memOk
        | apply Mach.swapArm_memOk | apply Mach.armMod_memOk | apply Mach.armNow_memOk | apply Mach.drive_memOk | rfl
    | split
    | dsimp only

theorem Mach.plainWrite_memOk {m : Mach} (h : m.memOk = true) (a0) (a1) : (Mach.plainWrite m a0 a1).memOk = true := by
  unfold Mach.plainWrite
  try dsimp only
  repeat' first
    | with_reducible
      first
        | assumption | intro _ | apply Mach.memOk_reg | apply Mach.ite_memOk | apply Mach.ite_fst_memOk | apply Mach.setReg_memOk
        | apply Mach.stageMod_memOk | apply Mach.when_memOk | apply Mach.report_memOk | rfl
    | split
    | dsimp only

theorem Mach.vrWrite_memOk {m : Mach} (h : m.memOk = true) (a0) (a1) : (Mach.vrWrite m a0 a1).memOk = true := by
  unfold Mach.vrWrite
  try dsimp only
  repeat' first
    | with_reducible
      first
        | assumption | intro _ | apply Mach.memOk_reg | apply Mach.ite_memOk | apply Mach.ite_fst_memOk
        | apply Mach.plainWrite_memOk | apply Mach.wr_memOk | apply Mach.armMod_memOk | apply Mach.drive_memOk
        | apply Mach.when_memOk | rfl
    | split
    | dsimp only

theorem Mach.minClear_memOk {m : Mach} (h : m.memOk = true) : (Mach.minClear m).memOk = true := by
  unfold Mach.minClear
  try dsimp only
  repeat' first
    | with_reducible
      first
        | assumption | intro _ | apply Mach.memOk_reg | apply Mach.ite_memOk | apply Mach.ite_fst_memOk | apply Mach.setReg_memOk
        | apply Mach.forEach_memOk | apply Mach.wr_memOk | rfl
    | split
    | dsimp only

theorem Mach.beatsAnew_memOk {m : Mach} (h : m.memOk = true) : (Mach.beatsAnew m).memOk = true := by
  unfold Mach.beatsAnew
  try dsimp only
  repeat' first
    | with_reducible
      first
        | assumption | intro _ | apply Mach.memOk_reg | apply Mach.ite_memOk | apply Mach.ite_fst_memOk | apply Mach.timMod_memOk
        | rfl
    | split
    | dsimp only

theorem Mach.plinthSet_memOk {m : Mach} (h : m.memOk = true) (a0) : (Mach.plinthSet m a0).memOk = true := by
  unfold Mach.plinthSet
  try dsimp only
  repeat' first
    | with_reducible
      first
        | assumption | intro _ | apply Mach.memOk_reg | apply Mach.ite_memOk | apply Mach.ite_fst_memOk | apply Mach.when_memOk
        | apply Mach.wr_memOk | apply Mach.ignored_memOk | apply Mach.beatsAnew_memOk | rfl
    | split
    | dsimp only

theorem Mach.refused_memOk {m : Mach} (h : m.memOk = true) (a0) (a1) : (Mach.refused m a0 a1).memOk = true := by
  unfold Mach.refused
  try dsimp only
  repeat' first
    | with_reducible
      first
        | assumption | intro _ | apply Mach.memOk_reg | apply Mach.ite_memOk | apply Mach.ite_fst_memOk | apply Mach.report_memOk
        | rfl
    | split
    | dsimp only

theorem Mach.keyRevoke_memOk {m : Mach} (h : m.memOk = true) (a0) : (Mach.keyRevoke m a0).memOk = true := by
  unfold Mach.keyRevoke
  try dsimp only
  repeat' first
    | with_reducible
      first
        | assumption | intro _ | apply Mach.memOk_reg | apply Mach.ite_memOk | apply Mach.ite_fst_memOk | apply Mach.armMod_memOk
        | apply Mach.refused_memOk | apply Mach.wr_memOk | rfl
    | split
    | dsimp only

theorem Mach.armWrite_memOk {m : Mach} (h : m.memOk = true) (a0) (a1) (a2) : (Mach.armWrite m a0 a1 a2).memOk = true := by
  unfold Mach.armWrite
  try dsimp only
  repeat' first
    | with_reducible
      first
        | assumption | intro _ | apply Mach.memOk_reg | apply Mach.ite_memOk | apply Mach.ite_fst_memOk
        | apply Mach.unlessAuto_memOk | apply Mach.ldCtlWrite_memOk | apply Mach.when_memOk | apply Mach.swapArm_memOk
        | apply Mach.swapCancel_memOk | apply Mach.profileGo_memOk | apply Mach.wr_memOk | apply Mach.vrWrite_memOk
        | apply Mach.plainWrite_memOk | apply Mach.minClear_memOk | apply Mach.plinthSet_memOk | apply Mach.keyRevoke_memOk | rfl
    | split
    | dsimp only

theorem Mach.asStaged_memOk {m : Mach} (h : m.memOk = true) : (Mach.asStaged m).memOk = true := by
  unfold Mach.asStaged
  try dsimp only
  repeat' first
    | with_reducible
      first
        | assumption | intro _ | apply Mach.memOk_reg | apply Mach.ite_memOk | apply Mach.ite_fst_memOk | apply Mach.forEach_memOk
        | apply Mach.setReg_memOk | rfl
    | split
    | dsimp only

theorem Mach.setTpl_memOk {m : Mach} (h : m.memOk = true) (a0) (a1) : (Mach.setTpl m a0 a1).memOk = true := by
  unfold Mach.setTpl
  try dsimp only
  repeat' first
    | with_reducible
      first
        | assumption | intro _ | apply Mach.memOk_reg | apply Mach.ite_memOk | apply Mach.ite_fst_memOk | apply Mach.aschMod_memOk
        | rfl
    | split
    | dsimp only

theorem Mach.tplSeal_memOk {m : Mach} (h : m.memOk = true) : (Mach.tplSeal m).memOk = true := by
  unfold Mach.tplSeal
  try dsimp only
  repeat' first
    | with_reducible
      first
        | assumption | intro _ | apply Mach.memOk_reg | apply Mach.ite_memOk | apply Mach.ite_fst_memOk | apply Mach.ignored_memOk
        | apply Mach.setTpl_memOk | rfl
    | split
    | dsimp only

theorem Mach.tplClear_memOk {m : Mach} (h : m.memOk = true) : (Mach.tplClear m).memOk = true := by
  unfold Mach.tplClear
  try dsimp only
  repeat' first
    | with_reducible
      first
        | assumption | intro _ | apply Mach.memOk_reg | apply Mach.ite_memOk | apply Mach.ite_fst_memOk | apply Mach.ignored_memOk
        | apply Mach.setTpl_memOk | rfl
    | split
    | dsimp only

theorem Mach.tplWrite_memOk {m : Mach} (h : m.memOk = true) (a0) (a1) (a2) : (Mach.tplWrite m a0 a1 a2).memOk = true := by
  unfold Mach.tplWrite
  try dsimp only
  repeat' first
    | with_reducible
      first
        | assumption | intro _ | apply Mach.memOk_reg | apply Mach.ite_memOk | apply Mach.ite_fst_memOk | apply Mach.ignored_memOk
        | apply Mach.setTpl_memOk | rfl
    | split
    | dsimp only

theorem Mach.aschWrite_memOk {m : Mach} (h : m.memOk = true) (a0) (a1) : (Mach.aschWrite m a0 a1).memOk = true := by
  unfold Mach.aschWrite
  try dsimp only
  repeat' first
    | with_reducible
      first
        | assumption | intro _ | apply Mach.memOk_reg | apply Mach.ite_memOk | apply Mach.ite_fst_memOk | apply Mach.when_memOk
        | apply Mach.tplSeal_memOk | apply Mach.tplClear_memOk | apply Mach.tplWrite_memOk | apply Mach.plainWrite_memOk | rfl
    | split
    | dsimp only

theorem Mach.attemptFail_memOk {m : Mach} (h : m.memOk = true) (a0) (a1) : (Mach.attemptFail m a0 a1).memOk = true := by
  unfold Mach.attemptFail
  try dsimp only
  repeat' first
    | with_reducible
      first
        | assumption | intro _ | apply Mach.memOk_reg | apply Mach.ite_memOk | apply Mach.ite_fst_memOk | apply Mach.lostOne_memOk
        | apply Mach.subDone_memOk | apply Mach.subMod_memOk | rfl
    | split
    | dsimp only

theorem Mach.meshResp_memOk {m : Mach} (h : m.memOk = true) (a0) (a1) (a2) : (Mach.meshResp m a0 a1 a2).memOk = true := by
  unfold Mach.meshResp
  try dsimp only
  repeat' first
    | with_reducible
      first
        | assumption | intro _ | apply Mach.memOk_reg | apply Mach.ite_memOk | apply Mach.ite_fst_memOk | apply Mach.mboxSend_memOk
        | apply Mach.mlinkMod_memOk | apply Mach.logAppend_memOk | rfl
    | split
    | dsimp only

theorem Mach.attemptFails_memOk {m : Mach} (h : m.memOk = true) (a0) : (Mach.attemptFails m a0).memOk = true := by
  unfold Mach.attemptFails
  try dsimp only
  repeat' first
    | with_reducible
      first
        | assumption | intro _ | apply Mach.memOk_reg | apply Mach.ite_memOk | apply Mach.ite_fst_memOk
        | apply Mach.meshEvent_memOk | apply Mach.count_memOk | apply Mach.setNbr_memOk | apply Mach.forEach_memOk
        | apply Mach.mlinkMod_memOk | apply Mach.meshResp_memOk | rfl
    | split
    | dsimp only

theorem Mach.autoEnd_memOk {m : Mach} (h : m.memOk = true) (a0) : (Mach.autoEnd m a0).memOk = true := by
  unfold Mach.autoEnd
  try dsimp only
  repeat' first
    | with_reducible
      first
        | assumption | intro _ | apply Mach.memOk_reg | apply Mach.ite_memOk | apply Mach.ite_fst_memOk | apply Mach.when_memOk
        | apply Mach.wr_memOk | apply Mach.sysMod_memOk | rfl
    | split
    | dsimp only

theorem Mach.autoArm_memOk {m : Mach} (h : m.memOk = true) : (Mach.autoArm m).memOk = true := by
  unfold Mach.autoArm
  try dsimp only
  repeat' first
    | with_reducible
      first
        | assumption | intro _ | apply Mach.memOk_reg | apply Mach.ite_memOk | apply Mach.ite_fst_memOk | apply Mach.autoEnd_memOk
        | apply Mach.setReg64_memOk | apply Mach.swapArm_memOk | apply Mach.profileGo_memOk | apply Mach.sysMod_memOk | rfl
    | split
    | dsimp only

theorem Mach.autoBeat_memOk {m : Mach} (h : m.memOk = true) : (Mach.autoBeat m).memOk = true := by
  unfold Mach.autoBeat
  try dsimp only
  repeat' first
    | with_reducible
      first
        | assumption | intro _ | apply Mach.memOk_reg | apply Mach.ite_memOk | apply Mach.ite_fst_memOk | apply Mach.autoEnd_memOk
        | rfl
    | split
    | dsimp only

theorem Mach.autoCancel_memOk {m : Mach} (h : m.memOk = true) : (Mach.autoCancel m).memOk = true := by
  unfold Mach.autoCancel
  try dsimp only
  repeat' first
    | with_reducible
      first
        | assumption | intro _ | apply Mach.memOk_reg | apply Mach.ite_memOk | apply Mach.ite_fst_memOk | apply Mach.wr_memOk
        | apply Mach.sysMod_memOk | rfl
    | split
    | dsimp only

theorem Mach.setGuyTime_memOk {m : Mach} (h : m.memOk = true) (a0) (a1) : (Mach.setGuyTime m a0 a1).memOk = true := by
  unfold Mach.setGuyTime
  try dsimp only
  repeat' first
    | with_reducible
      first
        | assumption | intro _ | apply Mach.memOk_reg | apply Mach.ite_memOk | apply Mach.ite_fst_memOk | apply Mach.timMod_memOk
        | rfl
    | split
    | dsimp only

theorem Mach.setBase_memOk {m : Mach} (h : m.memOk = true) (a0) (a1) : (Mach.setBase m a0 a1).memOk = true := by
  unfold Mach.setBase
  try dsimp only
  repeat' first
    | with_reducible
      first
        | assumption | intro _ | apply Mach.memOk_reg | apply Mach.ite_memOk | apply Mach.ite_fst_memOk | apply Mach.timMod_memOk
        | rfl
    | split
    | dsimp only

theorem Mach.guyFollow_memOk {m : Mach} (h : m.memOk = true) (a0) (a1) : (Mach.guyFollow m a0 a1).memOk = true := by
  unfold Mach.guyFollow
  try dsimp only
  repeat' first
    | with_reducible
      first
        | assumption | intro _ | apply Mach.memOk_reg | apply Mach.ite_memOk | apply Mach.ite_fst_memOk | apply Mach.event_memOk
        | apply Mach.wr_memOk | apply Mach.setReg_memOk | apply Mach.setBase_memOk | apply Mach.when_memOk
        | apply Mach.setGuyTime_memOk | rfl
    | split
    | dsimp only

theorem Mach.timeRsp_memOk {m : Mach} (h : m.memOk = true) (a0) (a1) (a2) (a3) : (Mach.timeRsp m a0 a1 a2 a3).memOk = true := by
  unfold Mach.timeRsp
  try dsimp only
  repeat' first
    | with_reducible
      first
        | assumption | intro _ | apply Mach.memOk_reg | apply Mach.ite_memOk | apply Mach.ite_fst_memOk | apply Mach.wr_memOk
        | apply Mach.count_memOk | apply Mach.setReg_memOk | apply Mach.setGuyTime_memOk | apply Mach.guyFollow_memOk | rfl
    | split
    | dsimp only

theorem Mach.nvmRead_memOk {m : Mach} (h : m.memOk = true) (a0) : (Mach.nvmRead m a0).1.memOk = true := by
  unfold Mach.nvmRead
  try dsimp only
  repeat' first
    | with_reducible
      first
        | assumption | intro _ | apply Mach.memOk_reg | apply Mach.ite_memOk | apply Mach.ite_fst_memOk | apply Mach.decodeAt_memOk
        | rfl
    | split
    | dsimp only

theorem Mach.nvmReads_memOk {m : Mach} (h : m.memOk = true) (a0) (a1) : (Mach.nvmReads m a0 a1).1.memOk = true := by
  revert h
  fun_induction Mach.nvmReads m a0 a1
  all_goals try intro h
  all_goals try dsimp only
  all_goals
    repeat' first
      | with_reducible
        first
          | assumption | intro _ | apply Mach.memOk_reg | apply Mach.ite_memOk | apply Mach.ite_fst_memOk
          | apply Mach.nvmRead_memOk | rfl | apply_assumption
      | split
      | dsimp only

theorem Mach.nvBytes_memOk {m : Mach} (h : m.memOk = true) (a0) (a1) : (Mach.nvBytes m a0 a1).1.memOk = true := by
  unfold Mach.nvBytes
  try dsimp only
  repeat' first
    | with_reducible
      first
        | assumption | intro _ | apply Mach.memOk_reg | apply Mach.ite_memOk | apply Mach.ite_fst_memOk | apply Mach.nvmReads_memOk
        | rfl
    | split
    | dsimp only

theorem Mach.ckRead_memOk {m : Mach} (h : m.memOk = true) (a0) : (Mach.ckRead m a0).1.memOk = true := by
  unfold Mach.ckRead
  try dsimp only
  repeat' first
    | with_reducible
      first
        | assumption | intro _ | apply Mach.memOk_reg | apply Mach.ite_memOk | apply Mach.ite_fst_memOk | apply Mach.nvBytes_memOk
        | rfl
    | split
    | dsimp only

theorem Mach.ckNewest_memOk {m : Mach} (h : m.memOk = true) (a0) (a1) : (Mach.ckNewest a0 a1 m).1.memOk = true := by
  revert h
  fun_induction Mach.ckNewest a0 a1 m
  all_goals try intro h
  all_goals try dsimp only
  all_goals
    repeat' first
      | with_reducible
        first
          | assumption | intro _ | apply Mach.memOk_reg | apply Mach.ite_memOk | apply Mach.ite_fst_memOk | apply Mach.ckRead_memOk
          | rfl | apply_assumption
      | split
      | dsimp only

theorem Mach.imagePut_memOk {m : Mach} (h : m.memOk = true) (a0) : (Mach.imagePut m a0).memOk = true := by
  unfold Mach.imagePut
  try dsimp only
  repeat' first
    | with_reducible
      first
        | assumption | intro _ | apply Mach.memOk_reg | apply Mach.ite_memOk | apply Mach.ite_fst_memOk | apply Mach.setReg_memOk
        | rfl
    | split
    | dsimp only

theorem Mach.staPut_memOk {m : Mach} (h : m.memOk = true) (a0) : (Mach.staPut m a0).memOk = true := by
  unfold Mach.staPut
  try dsimp only
  repeat' first
    | with_reducible
      first
        | assumption | intro _ | apply Mach.memOk_reg | apply Mach.ite_memOk | apply Mach.ite_fst_memOk | apply Mach.wmacMod_memOk
        | rfl
    | split
    | dsimp only

theorem Mach.setKeyE_memOk {m : Mach} (h : m.memOk = true) (a0) (a1) : (Mach.setKeyE m a0 a1).memOk = true := by
  unfold Mach.setKeyE
  try dsimp only
  repeat' first
    | with_reducible
      first
        | assumption | intro _ | apply Mach.memOk_reg | apply Mach.ite_memOk | apply Mach.ite_fst_memOk | apply Mach.wmacMod_memOk
        | rfl
    | split
    | dsimp only

theorem Mach.keyEnter_memOk {m : Mach} (h : m.memOk = true) (a0) (a1) (a2) (a3) (a4) (a5) (a6) : (Mach.keyEnter m a0 a1 a2 a3 a4
    a5 a6).memOk = true := by
  unfold Mach.keyEnter
  try dsimp only
  repeat' first
    | with_reducible
      first
        | assumption | intro _ | apply Mach.memOk_reg | apply Mach.ite_memOk | apply Mach.ite_fst_memOk | apply Mach.setKeyE_memOk
        | rfl
    | split
    | dsimp only

theorem Mach.lmRead_memOk {m : Mach} (h : m.memOk = true) (a0) (a1) : (Mach.lmRead m a0 a1).1.memOk = true := by
  unfold Mach.lmRead
  try dsimp only
  repeat' first
    | with_reducible
      first
        | assumption | intro _ | apply Mach.memOk_reg | apply Mach.ite_memOk | apply Mach.ite_fst_memOk | apply Mach.decodeAt_memOk
        | rfl
    | split
    | dsimp only

theorem Mach.lmStore_memOk {m : Mach} (h : m.memOk = true) (a0) (a1) (a2) (a3) : (Mach.lmStore m a0 a1 a2 a3).memOk = true := by
  unfold Mach.lmStore
  try dsimp only
  repeat' first
    | with_reducible
      first
        | assumption | intro _ | apply Mach.memOk_reg | apply Mach.ite_memOk | apply Mach.ite_fst_memOk | apply Mach.lmRead_memOk
        | apply Mach.teMod_memOk | rfl
    | split
    | dsimp only

theorem Mach.keyHandleWrite_memOk {m : Mach} (h : m.memOk = true) (a0) : (Mach.keyHandleWrite m a0).memOk = true := by
  unfold Mach.keyHandleWrite
  try dsimp only
  repeat' first
    | with_reducible
      first
        | assumption | intro _ | apply Mach.memOk_reg | apply Mach.ite_memOk | apply Mach.ite_fst_memOk | apply Mach.lmStore_memOk
        | rfl
    | split
    | dsimp only

theorem Mach.keyPut_memOk {m : Mach} (h : m.memOk = true) (a0) (a1) : (Mach.keyPut m a0 a1).memOk = true := by
  unfold Mach.keyPut
  try dsimp only
  repeat' first
    | with_reducible
      first
        | assumption | intro _ | apply Mach.memOk_reg | apply Mach.ite_memOk | apply Mach.ite_fst_memOk | apply Mach.keyEnter_memOk
        | apply Mach.keyHandleWrite_memOk | apply Mach.setKeyE_memOk | rfl
    | split
    | dsimp only

theorem Mach.baSet_memOk {m : Mach} (h : m.memOk = true) (a0) (a1) (a2) (a3) : (Mach.baSet m a0 a1 a2 a3).memOk = true := by
  unfold Mach.baSet
  try dsimp only
  repeat' first
    | with_reducible
      first
        | assumption | intro _ | apply Mach.memOk_reg | apply Mach.ite_memOk | apply Mach.ite_fst_memOk | apply Mach.wmacMod_memOk
        | rfl
    | split
    | dsimp only

theorem Mach.baPut_memOk {m : Mach} (h : m.memOk = true) (a0) : (Mach.baPut m a0).memOk = true := by
  unfold Mach.baPut
  try dsimp only
  repeat' first
    | with_reducible
      first
        | assumption | intro _ | apply Mach.memOk_reg | apply Mach.ite_memOk | apply Mach.ite_fst_memOk | apply Mach.baSet_memOk
        | rfl
    | split
    | dsimp only

theorem Mach.setWpol_memOk {m : Mach} (h : m.memOk = true) (a0) (a1) : (Mach.setWpol m a0 a1).memOk = true := by
  unfold Mach.setWpol
  try dsimp only
  repeat' first
    | with_reducible
      first
        | assumption | intro _ | apply Mach.memOk_reg | apply Mach.ite_memOk | apply Mach.ite_fst_memOk | apply Mach.rteMod_memOk
        | rfl
    | split
    | dsimp only

theorem Mach.twtShow_memOk {m : Mach} (h : m.memOk = true) : (Mach.twtShow m).memOk = true := by
  unfold Mach.twtShow
  try dsimp only
  repeat' first
    | with_reducible
      first
        | assumption | intro _ | apply Mach.memOk_reg | apply Mach.ite_memOk | apply Mach.ite_fst_memOk | apply Mach.wr_memOk | rfl
    | split
    | dsimp only

theorem Mach.sectionsPut_memOk {m : Mach} (h : m.memOk = true) (a0) (a1) (a2) : (Mach.sectionsPut m a0 a1 a2).memOk = true := by
  unfold Mach.sectionsPut
  try dsimp only
  repeat' first
    | with_reducible
      first
        | assumption | intro _ | apply Mach.memOk_reg | apply Mach.ite_memOk | apply Mach.ite_fst_memOk | apply Mach.forEach_memOk
        | apply Mach.staPut_memOk | apply Mach.keyPut_memOk | apply Mach.baPut_memOk | apply Mach.setQueue_memOk
        | apply Mach.setShaper_memOk | apply Mach.setPolicer_memOk | apply Mach.setWpol_memOk | apply Mach.twtShow_memOk
        | apply Mach.wmacMod_memOk | rfl
    | split
    | dsimp only

theorem Mach.ckRestore_memOk {m : Mach} (h : m.memOk = true) : (Mach.ckRestore m).memOk = true := by
  unfold Mach.ckRestore
  try dsimp only
  repeat' first
    | with_reducible
      first
        | assumption | intro _ | apply Mach.memOk_reg | apply Mach.ite_memOk | apply Mach.ite_fst_memOk | apply Mach.wr_memOk
        | apply Mach.ckNewest_memOk | apply Mach.forEach_memOk | apply Mach.imagePut_memOk | apply Mach.sectionsPut_memOk
        | apply Mach.setKeyE_memOk | apply Mach.setReg64_memOk | apply Mach.event_memOk | rfl
    | split
    | dsimp only

theorem Mach.autoRun_memOk {m : Mach} (h : m.memOk = true) (a0) : (Mach.autoRun m a0).memOk = true := by
  unfold Mach.autoRun
  try dsimp only
  repeat' first
    | with_reducible
      first
        | assumption | intro _ | apply Mach.memOk_reg | apply Mach.ite_memOk | apply Mach.ite_fst_memOk | apply Mach.wr_memOk
        | apply Mach.forEach_memOk | apply Mach.setBase_memOk | apply Mach.when_memOk | apply Mach.ckRestore_memOk
        | apply Mach.autoEnd_memOk | apply Mach.loadGo_memOk | apply Mach.sysMod_memOk | rfl
    | split
    | dsimp only

theorem Mach.tb0Set_memOk {m : Mach} (h : m.memOk = true) (a0) : (Mach.tb0Set m a0).memOk = true := by
  unfold Mach.tb0Set
  try dsimp only
  repeat' first
    | with_reducible
      first
        | assumption | intro _ | apply Mach.memOk_reg | apply Mach.ite_memOk | apply Mach.ite_fst_memOk | apply Mach.setBase_memOk
        | rfl
    | split
    | dsimp only

theorem Mach.autoRsp_memOk {m : Mach} (h : m.memOk = true) (a0) (a1) (a2) (a3) : (Mach.autoRsp m a0 a1 a2 a3).memOk = true := by
  unfold Mach.autoRsp
  try dsimp only
  repeat' first
    | with_reducible
      first
        | assumption | intro _ | apply Mach.memOk_reg | apply Mach.ite_memOk | apply Mach.ite_fst_memOk | apply Mach.timeRsp_memOk
        | apply Mach.wr_memOk | apply Mach.autoEnd_memOk | apply Mach.autoRun_memOk | apply Mach.tb0Set_memOk | rfl
    | split
    | dsimp only

theorem Mach.capture_memOk {m : Mach} (h : m.memOk = true) : (Mach.capture m).memOk = true := by
  unfold Mach.capture
  try dsimp only
  repeat' first
    | with_reducible
      first
        | assumption | intro _ | apply Mach.memOk_reg | apply Mach.ite_memOk | apply Mach.ite_fst_memOk | apply Mach.forEach_memOk
        | apply Mach.setReg_memOk | apply Mach.wr_memOk | rfl
    | split
    | dsimp only

theorem Mach.autoTb4_memOk {m : Mach} (h : m.memOk = true) : (Mach.autoTb4 m).memOk = true := by
  unfold Mach.autoTb4
  try dsimp only
  repeat' first
    | with_reducible
      first
        | assumption | intro _ | apply Mach.memOk_reg | apply Mach.ite_memOk | apply Mach.ite_fst_memOk | apply Mach.autoEnd_memOk
        | apply Mach.autoRun_memOk | apply Mach.tb0Set_memOk | apply Mach.capture_memOk | rfl
    | split
    | dsimp only

theorem Mach.tbCount_memOk {m : Mach} (h : m.memOk = true) (a0) (a1) : (Mach.tbCount m a0 a1).memOk = true := by
  unfold Mach.tbCount
  try dsimp only
  repeat' first
    | with_reducible
      first
        | assumption | intro _ | apply Mach.memOk_reg | apply Mach.ite_memOk | apply Mach.ite_fst_memOk | apply Mach.setReg_memOk
        | rfl
    | split
    | dsimp only

theorem Mach.tbMove_memOk {m : Mach} {m1 : Mach} (_h : m.memOk = true) (hm1 : m1.memOk = true) (a0) (a1) : (Mach.tbMove m m1 a0
    a1).memOk = true := by
  unfold Mach.tbMove
  try dsimp only
  repeat' first
    | with_reducible
      first
        | assumption | intro _ | apply Mach.memOk_reg | apply Mach.ite_memOk | apply Mach.ite_fst_memOk | apply Mach.when_memOk
        | apply Mach.setBase_memOk | apply Mach.wr_memOk | rfl
    | split
    | dsimp only

theorem Mach.tbPair_memOk {m : Mach} (h : m.memOk = true) (a0) : (Mach.tbPair m a0).memOk = true := by
  unfold Mach.tbPair
  try dsimp only
  repeat' first
    | with_reducible
      first
        | assumption | intro _ | apply Mach.memOk_reg | apply Mach.ite_memOk | apply Mach.ite_fst_memOk | apply Mach.setBase_memOk
        | apply Mach.setReg_memOk | rfl
    | split
    | dsimp only

end Sys2Proof.Machine
end

