-- ==== Sys2Proof/Laws/Canon2.lean ====
section
/-! SUPPORT. Every operation keeps the memories canonical (part 2 of 4, in the order in which one calls another). -/

namespace Sys2Proof.Machine

open Sys2Proof

set_option maxRecDepth 4000
set_option linter.unusedTactic false
set_option linter.unreachableTactic false

theorem Mach.elapse_memOk {m : Mach} (h : m.memOk = true) (a0) : (Mach.elapse m a0).memOk = true := by
  unfold Mach.elapse
  try dsimp only
  repeat' first
    | with_reducible
      first
        | assumption | intro _ | apply Mach.memOk_reg | apply Mach.ite_memOk | apply Mach.ite_fst_memOk | apply Mach.tbPair_memOk
        | apply Mach.tbMove_memOk | apply Mach.forEach_memOk | apply Mach.tbCount_memOk | apply Mach.mlinkMod_memOk
        | apply Mach.timMod_memOk | apply foldl_memOk | apply foldl_fst_memOk | rfl
    | split
    | dsimp only

theorem Mach.reachRun_memOk {m : Mach} (h : m.memOk = true) (a0) : (Mach.reachRun m a0).memOk = true := by
  unfold Mach.reachRun
  try dsimp only
  repeat' first
    | with_reducible
      first
        | assumption | intro _ | apply Mach.memOk_reg | apply Mach.ite_memOk | apply Mach.ite_fst_memOk | apply Mach.elapse_memOk
        | rfl
    | split
    | dsimp only

theorem Mach.autoSearch_memOk {m : Mach} (h : m.memOk = true) : (Mach.autoSearch m).memOk = true := by
  unfold Mach.autoSearch
  try dsimp only
  repeat' first
    | with_reducible
      first
        | assumption | intro _ | apply Mach.memOk_reg | apply Mach.ite_memOk | apply Mach.ite_fst_memOk | apply Mach.sysMod_memOk
        | apply Mach.wr_memOk | apply Mach.forEach_memOk | apply Mach.setGuyTime_memOk | apply Mach.autoTb4_memOk
        | apply Mach.reachRun_memOk | apply Mach.when_memOk | rfl
    | split
    | dsimp only

theorem Mach.autoTimeout_memOk {m : Mach} (h : m.memOk = true) : (Mach.autoTimeout m).memOk = true := by
  unfold Mach.autoTimeout
  try dsimp only
  repeat' first
    | with_reducible
      first
        | assumption | intro _ | apply Mach.memOk_reg | apply Mach.ite_memOk | apply Mach.ite_fst_memOk | apply Mach.autoTb4_memOk
        | apply Mach.reachRun_memOk | rfl
    | split
    | dsimp only

theorem Mach.baAdvance_memOk {m : Mach} (h : m.memOk = true) (a0) (a1) (a2) : (Mach.baAdvance m a0 a1 a2).memOk = true := by
  unfold Mach.baAdvance
  try dsimp only
  repeat' first
    | with_reducible
      first
        | assumption | intro _ | apply Mach.memOk_reg | apply Mach.ite_memOk | apply Mach.ite_fst_memOk | apply Mach.journal_memOk
        | apply Mach.wmacMod_memOk | rfl
    | split
    | dsimp only

theorem Mach.mirrorState_memOk {m : Mach} (h : m.memOk = true) (a0) (a1) (a2) : (Mach.mirrorState m a0 a1 a2).memOk = true := by
  unfold Mach.mirrorState
  try dsimp only
  repeat' first
    | with_reducible
      first
        | assumption | intro _ | apply Mach.memOk_reg | apply Mach.ite_memOk | apply Mach.ite_fst_memOk | apply Mach.mirror_memOk
        | rfl
    | split
    | dsimp only

theorem Mach.baSetCmd_memOk {m : Mach} (h : m.memOk = true) (a0) : (Mach.baSetCmd m a0).1.memOk = true := by
  unfold Mach.baSetCmd
  try dsimp only
  repeat' first
    | with_reducible
      first
        | assumption | intro _ | apply Mach.memOk_reg | apply Mach.ite_memOk | apply Mach.ite_fst_memOk | apply Mach.wmacMod_memOk
        | apply Mach.mirrorState_memOk | apply Mach.journal_memOk | apply Mach.baSet_memOk | rfl
    | split
    | dsimp only

theorem Mach.backlogReport_memOk {m : Mach} (h : m.memOk = true) (a0) (a1) : (Mach.backlogReport m a0 a1).memOk = true := by
  unfold Mach.backlogReport
  try dsimp only
  repeat' first
    | with_reducible
      first
        | assumption | intro _ | apply Mach.memOk_reg | apply Mach.ite_memOk | apply Mach.ite_fst_memOk | apply Mach.setQueue_memOk
        | rfl
    | split
    | dsimp only

theorem Mach.pickReturn_memOk {m : Mach} (h : m.memOk = true) (a0) : (Mach.pickReturn m a0).memOk = true := by
  unfold Mach.pickReturn
  try dsimp only
  repeat' first
    | with_reducible
      first
        | assumption | intro _ | apply Mach.memOk_reg | apply Mach.ite_memOk | apply Mach.ite_fst_memOk | apply Mach.setQueue_memOk
        | apply Mach.setShaper_memOk | apply Mach.count_memOk | apply Mach.aschMod_memOk | rfl
    | split
    | dsimp only

theorem Mach.handBack_memOk {m : Mach} (h : m.memOk = true) (a0) (a1) : (Mach.handBack m a0 a1).memOk = true := by
  unfold Mach.handBack
  try dsimp only
  repeat' first
    | with_reducible
      first
        | assumption | intro _ | apply Mach.memOk_reg | apply Mach.ite_memOk | apply Mach.ite_fst_memOk | apply Mach.forEach_memOk
        | apply Mach.stageDrop_memOk | apply Mach.pickReturn_memOk | rfl
    | split
    | dsimp only

theorem Mach.planSubs_memOk {m : Mach} (h : m.memOk = true) (a0) (a1) : (Mach.planSubs m a0 a1).1.memOk = true := by
  revert h
  fun_induction Mach.planSubs m a0 a1
  all_goals try intro h
  all_goals try dsimp only
  all_goals
    repeat' first
      | with_reducible
        first
          | assumption | intro _ | apply Mach.memOk_reg | apply Mach.ite_memOk | apply Mach.ite_fst_memOk
          | apply Mach.subDone_memOk | apply Mach.stageWrite_memOk | apply Mach.stageDrop_memOk | rfl | apply_assumption
      | split
      | dsimp only

theorem Mach.macSend_memOk {m : Mach} (h : m.memOk = true) (a0) (a1) (a2) : (Mach.macSend m a0 a1 a2).memOk = true := by
  unfold Mach.macSend
  try dsimp only
  repeat' first
    | with_reducible
      first
        | assumption | intro _ | apply Mach.memOk_reg | apply Mach.ite_memOk | apply Mach.ite_fst_memOk | apply Mach.handBack_memOk
        | apply Mach.planSubs_memOk | apply Mach.forEach_memOk | apply Mach.journal_memOk | apply Mach.subMod_memOk
        | apply Mach.wmacMod_memOk | apply Mach.sqMod_memOk | apply Mach.radioTx_memOk | apply Mach.unsent_memOk | rfl
    | split
    | dsimp only

theorem Mach.backoff_memOk {m : Mach} (h : m.memOk = true) (a0) (a1) (a2) (a3) : (Mach.backoff m a0 a1 a2 a3).memOk = true := by
  unfold Mach.backoff
  try dsimp only
  repeat' first
    | with_reducible
      first
        | assumption | intro _ | apply Mach.memOk_reg | apply Mach.ite_memOk | apply Mach.ite_fst_memOk | apply Mach.sqMod_memOk
        | apply Mach.drawBelow_memOk | apply Mach.macSend_memOk | rfl
    | split
    | dsimp only

theorem Mach.dbankMod_memOk {m : Mach} (h : m.memOk = true) (a0) (a1) (a2) : (Mach.dbankMod m a0 a1 a2).memOk = true := by
  unfold Mach.dbankMod
  try dsimp only
  repeat' first
    | with_reducible
      first
        | assumption | intro _ | apply Mach.memOk_reg | apply Mach.ite_memOk | apply Mach.ite_fst_memOk | apply Mach.memMod_memOk
        | rfl
    | split
    | dsimp only

theorem Mach.bankEnter_memOk {m : Mach} (h : m.memOk = true) (a0) (a1) (a2) : (Mach.bankEnter m a0 a1 a2).memOk = true := by
  unfold Mach.bankEnter
  try dsimp only
  repeat' first
    | with_reducible
      first
        | assumption | intro _ | apply Mach.memOk_reg | apply Mach.ite_memOk | apply Mach.ite_fst_memOk | apply Mach.memMod_memOk
        | apply Mach.dbankMod_memOk | rfl
    | split
    | dsimp only

theorem Mach.bankTake_memOk {m : Mach} (h : m.memOk = true) (a0) (a1) (a2) : (Mach.bankTake m a0 a1 a2).1.memOk = true := by
  unfold Mach.bankTake
  try dsimp only
  repeat' first
    | with_reducible
      first
        | assumption | intro _ | apply Mach.memOk_reg | apply Mach.ite_memOk | apply Mach.ite_fst_memOk | apply Mach.dbankMod_memOk
        | apply Mach.bankEnter_memOk | rfl
    | split
    | dsimp only

theorem Mach.detCtl_memOk {m : Mach} (h : m.memOk = true) (a0) (a1) : (Mach.detCtl m a0 a1).memOk = true := by
  unfold Mach.detCtl
  try dsimp only
  repeat' first
    | with_reducible
      first
        | assumption | intro _ | apply Mach.memOk_reg | apply Mach.ite_memOk | apply Mach.ite_fst_memOk | apply Mach.setReg_memOk
        | apply Mach.ignored_memOk | rfl
    | split
    | dsimp only

theorem Mach.chanMark_memOk {m : Mach} (h : m.memOk = true) (a0) : (Mach.chanMark m a0).memOk = true := by
  unfold Mach.chanMark
  try dsimp only
  repeat' first
    | with_reducible
      first
        | assumption | intro _ | apply Mach.memOk_reg | apply Mach.ite_memOk | apply Mach.ite_fst_memOk | apply Mach.wr_memOk | rfl
    | split
    | dsimp only

theorem Mach.bbWrite_memOk {m : Mach} (h : m.memOk = true) (a0) (a1) (a2) : (Mach.bbWrite m a0 a1 a2).memOk = true := by
  unfold Mach.bbWrite
  try dsimp only
  repeat' first
    | with_reducible
      first
        | assumption | intro _ | apply Mach.memOk_reg | apply Mach.ite_memOk | apply Mach.ite_fst_memOk | apply Mach.detCtl_memOk
        | apply Mach.chanMark_memOk | apply Mach.plainWrite_memOk | apply Mach.ignored_memOk | rfl
    | split
    | dsimp only

theorem Mach.bcnTemplate_memOk {m : Mach} (h : m.memOk = true) (a0) : (Mach.bcnTemplate m a0).1.memOk = true := by
  unfold Mach.bcnTemplate
  try dsimp only
  repeat' first
    | with_reducible
      first
        | assumption | intro _ | apply Mach.memOk_reg | apply Mach.ite_memOk | apply Mach.ite_fst_memOk | apply Mach.wmacMod_memOk
        | rfl
    | split
    | dsimp only

theorem Mach.beaconSent_memOk {m : Mach} (h : m.memOk = true) (a0) (a1) : (Mach.beaconSent m a0 a1).memOk = true := by
  unfold Mach.beaconSent
  try dsimp only
  repeat' first
    | with_reducible
      first
        | assumption | intro _ | apply Mach.memOk_reg | apply Mach.ite_memOk | apply Mach.ite_fst_memOk | apply Mach.wr_memOk
        | apply Mach.wmacMod_memOk | rfl
    | split
    | dsimp only

theorem Mach.takeHead_memOk {m : Mach} (h : m.memOk = true) (a0) (a1) (a2) (a3) : (Mach.takeHead m a0 a1 a2 a3).memOk = true := by
  unfold Mach.takeHead
  try dsimp only
  repeat' first
    | with_reducible
      first
        | assumption | intro _ | apply Mach.memOk_reg | apply Mach.ite_memOk | apply Mach.ite_fst_memOk | apply Mach.aschMod_memOk
        | apply Mach.setQueue_memOk | apply Mach.setShaper_memOk | rfl
    | split
    | dsimp only

theorem Mach.pickClass_memOk {m : Mach} (h : m.memOk = true) (a0) (a1) (a2) (a3) (a4) (a5) (a6) : (Mach.pickClass a0 a1 a2 a3 m a4
    a5 a6).1.memOk = true := by
  revert h
  fun_induction Mach.pickClass a0 a1 a2 a3 m a4 a5 a6
  all_goals try intro h
  all_goals try dsimp only
  all_goals
    repeat' first
      | with_reducible
        first
          | assumption | intro _ | apply Mach.memOk_reg | apply Mach.ite_memOk | apply Mach.ite_fst_memOk
          | apply Mach.takeHead_memOk | rfl | apply_assumption
      | split
      | dsimp only

theorem Mach.pickSlot_memOk {m : Mach} (h : m.memOk = true) (a0) (a1) (a2) : (Mach.pickSlot m a0 a1 a2).1.memOk = true := by
  unfold Mach.pickSlot
  dsimp only
  apply foldl_fst_memOk
  · intro x b hx
    split
    · exact Mach.pickClass_memOk hx _ _ _ _ _ _ _
    · exact hx
  · apply foldl_fst_memOk
    · intro x b hx
      exact Mach.pickClass_memOk hx _ _ _ _ _ _ _
    · exact h

theorem Mach.pickBeat_memOk {m : Mach} (h : m.memOk = true) (a0) : (Mach.pickBeat m a0).memOk = true := by
  unfold Mach.pickBeat
  try dsimp only
  repeat' first
    | with_reducible
      first
        | assumption | intro _ | apply Mach.memOk_reg | apply Mach.ite_memOk | apply Mach.ite_fst_memOk | apply Mach.forEach_memOk
        | apply Mach.report_memOk | apply Mach.pickSlot_memOk | apply Mach.aschMod_memOk | apply Mach.wmacMod_memOk
        | apply Mach.chFrom_memOk | rfl
    | split
    | dsimp only

theorem Mach.boundAge_memOk {m : Mach} (h : m.memOk = true) : (Mach.boundAge m).memOk = true := by
  unfold Mach.boundAge
  try dsimp only
  repeat' first
    | with_reducible
      first
        | assumption | intro _ | apply Mach.memOk_reg | apply Mach.ite_memOk | apply Mach.ite_fst_memOk | apply Mach.forEach_memOk
        | apply Mach.violation_memOk | apply Mach.setQueue_memOk | rfl
    | split
    | dsimp only

theorem Mach.grantReturn_memOk {m : Mach} (h : m.memOk = true) (a0) : (Mach.grantReturn m a0).memOk = true := by
  unfold Mach.grantReturn
  try dsimp only
  repeat' first
    | with_reducible
      first
        | assumption | intro _ | apply Mach.memOk_reg | apply Mach.ite_memOk | apply Mach.ite_fst_memOk | apply Mach.setQueue_memOk
        | apply Mach.count_memOk | rfl
    | split
    | dsimp only

theorem Mach.pickCheck_memOk {m : Mach} (h : m.memOk = true) : (Mach.pickCheck m).memOk = true := by
  unfold Mach.pickCheck
  try dsimp only
  repeat' first
    | with_reducible
      first
        | assumption | intro _ | apply Mach.memOk_reg | apply Mach.ite_memOk | apply Mach.ite_fst_memOk | apply Mach.wmacMod_memOk
        | apply Mach.aschMod_memOk | apply Mach.forEach_memOk | apply Mach.pickReturn_memOk | apply Mach.grantReturn_memOk | rfl
    | split
    | dsimp only

theorem Mach.policyApply_memOk {m : Mach} (h : m.memOk = true) : (Mach.policyApply m).memOk = true := by
  unfold Mach.policyApply
  try dsimp only
  repeat' first
    | with_reducible
      first
        | assumption | intro _ | apply Mach.memOk_reg | apply Mach.ite_memOk | apply Mach.ite_fst_memOk | apply Mach.forEach_memOk
        | apply Mach.setShaper_memOk | apply Mach.setPolicer_memOk | apply Mach.setQueue_memOk | rfl
    | split
    | dsimp only

theorem Mach.pnReserve_memOk {m : Mach} (h : m.memOk = true) (a0) : (Mach.pnReserve m a0).memOk = true := by
  unfold Mach.pnReserve
  try dsimp only
  repeat' first
    | with_reducible
      first
        | assumption | intro _ | apply Mach.memOk_reg | apply Mach.ite_memOk | apply Mach.ite_fst_memOk | apply Mach.journal_memOk
        | apply Mach.setKeyE_memOk | rfl
    | split
    | dsimp only

theorem Mach.pnTake_memOk {m : Mach} (h : m.memOk = true) (a0) : (Mach.pnTake m a0).1.memOk = true := by
  unfold Mach.pnTake
  try dsimp only
  repeat' first
    | with_reducible
      first
        | assumption | intro _ | apply Mach.memOk_reg | apply Mach.ite_memOk | apply Mach.ite_fst_memOk
        | apply Mach.pnReserve_memOk | apply Mach.count_memOk | apply Mach.setKeyE_memOk | apply Mach.event_memOk | rfl
    | split
    | dsimp only

theorem Mach.pnBeat_memOk {m : Mach} (h : m.memOk = true) : (Mach.pnBeat m).memOk = true := by
  unfold Mach.pnBeat
  try dsimp only
  repeat' first
    | with_reducible
      first
        | assumption | intro _ | apply Mach.memOk_reg | apply Mach.ite_memOk | apply Mach.ite_fst_memOk | apply Mach.wmacMod_memOk
        | apply Mach.forEach_memOk | apply Mach.pnTake_memOk | apply Mach.stageWrite_memOk | apply Mach.subMod_memOk | rfl
    | split
    | dsimp only

theorem Mach.strUpdate_memOk {m : Mach} (h : m.memOk = true) : (Mach.strUpdate m).memOk = true := by
  unfold Mach.strUpdate
  try dsimp only
  repeat' first
    | with_reducible
      first
        | assumption | intro _ | apply Mach.memOk_reg | apply Mach.ite_memOk | apply Mach.ite_fst_memOk | apply Mach.wr_memOk
        | apply Mach.strWr_memOk | apply Mach.xbLatch_memOk | rfl
    | split
    | dsimp only

theorem Mach.radioRelax_memOk {m : Mach} (h : m.memOk = true) (a0) : (Mach.radioRelax m a0).memOk = true := by
  unfold Mach.radioRelax
  try dsimp only
  repeat' first
    | with_reducible
      first
        | assumption | intro _ | apply Mach.memOk_reg | apply Mach.ite_memOk | apply Mach.ite_fst_memOk | apply Mach.radioGo_memOk
        | rfl
    | split
    | dsimp only

theorem Mach.radioModes_memOk {m : Mach} (h : m.memOk = true) : (Mach.radioModes m).memOk = true := by
  unfold Mach.radioModes
  try dsimp only
  repeat' first
    | with_reducible
      first
        | assumption | intro _ | apply Mach.memOk_reg | apply Mach.ite_memOk | apply Mach.ite_fst_memOk | apply Mach.forEach_memOk
        | apply Mach.radioMod_memOk | apply Mach.radioRelax_memOk | rfl
    | split
    | dsimp only

theorem Mach.beatAir_memOk {m : Mach} (h : m.memOk = true) : (Mach.beatAir m).memOk = true := by
  unfold Mach.beatAir
  try dsimp only
  repeat' first
    | with_reducible
      first
        | assumption | intro _ | apply Mach.memOk_reg | apply Mach.ite_memOk | apply Mach.ite_fst_memOk | apply Mach.pickBeat_memOk
        | apply Mach.boundAge_memOk | apply Mach.pickCheck_memOk | apply Mach.policyApply_memOk | apply Mach.accrue_memOk
        | apply Mach.pnBeat_memOk | apply Mach.strUpdate_memOk | apply Mach.radioModes_memOk | rfl
    | split
    | dsimp only

theorem Mach.reach_memOk {m : Mach} (h : m.memOk = true) (a0) : (Mach.reach m a0).memOk = true := by
  unfold Mach.reach
  try dsimp only
  repeat' first
    | with_reducible
      first
        | assumption | intro _ | apply Mach.memOk_reg | apply Mach.ite_memOk | apply Mach.ite_fst_memOk | apply Mach.elapse_memOk
        | rfl
    | split
    | dsimp only

theorem Mach.tbForward_memOk {m : Mach} (h : m.memOk = true) : (Mach.tbForward m).memOk = true := by
  unfold Mach.tbForward
  try dsimp only
  repeat' first
    | with_reducible
      first
        | assumption | intro _ | apply Mach.memOk_reg | apply Mach.ite_memOk | apply Mach.ite_fst_memOk | apply Mach.forEach_memOk
        | apply Mach.setBase_memOk | rfl
    | split
    | dsimp only

theorem Mach.tb5Align_memOk {m : Mach} (h : m.memOk = true) (a0) : (Mach.tb5Align m a0).memOk = true := by
  unfold Mach.tb5Align
  try dsimp only
  repeat' first
    | with_reducible
      first
        | assumption | intro _ | apply Mach.memOk_reg | apply Mach.ite_memOk | apply Mach.ite_fst_memOk | apply Mach.setBase_memOk
        | rfl
    | split
    | dsimp only

theorem Mach.ckBeat_memOk {m : Mach} (h : m.memOk = true) (a0) : (Mach.ckBeat m a0).memOk = true := by
  unfold Mach.ckBeat
  try dsimp only
  repeat' first
    | with_reducible
      first
        | assumption | intro _ | apply Mach.memOk_reg | apply Mach.ite_memOk | apply Mach.ite_fst_memOk | apply Mach.fltMod_memOk
        | rfl
    | split
    | dsimp only

theorem Mach.beatBegin_memOk {m : Mach} (h : m.memOk = true) (a0) : (Mach.beatBegin m a0).memOk = true := by
  unfold Mach.beatBegin
  try dsimp only
  repeat' first
    | with_reducible
      first
        | assumption | intro _ | apply Mach.memOk_reg | apply Mach.ite_memOk | apply Mach.ite_fst_memOk | apply Mach.reach_memOk
        | apply Mach.tbForward_memOk | apply Mach.tb5Align_memOk | apply Mach.timMod_memOk | apply Mach.ckBeat_memOk | rfl
    | split
    | dsimp only

theorem Mach.beatForget_memOk {m : Mach} (h : m.memOk = true) : (Mach.beatForget m).memOk = true := by
  unfold Mach.beatForget
  try dsimp only
  repeat' first
    | with_reducible
      first
        | assumption | intro _ | apply Mach.memOk_reg | apply Mach.ite_memOk | apply Mach.ite_fst_memOk | apply Mach.hifMod_memOk
        | apply Mach.nvmMod_memOk | apply Mach.armMod_memOk | rfl
    | split
    | dsimp only

theorem Mach.beatRead_memOk {m : Mach} (h : m.memOk = true) : (Mach.beatRead m).memOk = true := by
  unfold Mach.beatRead
  try dsimp only
  repeat' first
    | with_reducible
      first
        | assumption | intro _ | apply Mach.memOk_reg | apply Mach.ite_memOk | apply Mach.ite_fst_memOk
        | apply Mach.setAnswer_memOk | apply Mach.setReg_memOk | rfl
    | split
    | dsimp only

theorem Mach.skipTask_memOk {m : Mach} (h : m.memOk = true) (a0) (a1) : (Mach.skipTask m a0 a1).memOk = true := by
  unfold Mach.skipTask
  try dsimp only
  repeat' first
    | with_reducible
      first
        | assumption | intro _ | apply Mach.memOk_reg | apply Mach.ite_memOk | apply Mach.ite_fst_memOk | apply Mach.wr_memOk
        | apply Mach.count_memOk | apply Mach.setDsp_memOk | rfl
    | split
    | dsimp only

theorem Mach.stopTask_memOk {m : Mach} (h : m.memOk = true) (a0) : (Mach.stopTask m a0).memOk = true := by
  unfold Mach.stopTask
  try dsimp only
  repeat' first
    | with_reducible
      first
        | assumption | intro _ | apply Mach.memOk_reg | apply Mach.ite_memOk | apply Mach.ite_fst_memOk | apply Mach.teMod_memOk
        | apply Mach.blocksVoid_memOk | apply Mach.when_memOk | apply Mach.detach_memOk | rfl
    | split
    | dsimp only

theorem Mach.overrunTe_memOk {m : Mach} (h : m.memOk = true) (a0) (a1) : (Mach.overrunTe m a0 a1).memOk = true := by
  unfold Mach.overrunTe
  try dsimp only
  repeat' first
    | with_reducible
      first
        | assumption | intro _ | apply Mach.memOk_reg | apply Mach.ite_memOk | apply Mach.ite_fst_memOk | apply Mach.stopTask_memOk
        | apply Mach.dspMod_memOk | apply Mach.teMod_memOk | rfl
    | split
    | dsimp only

theorem Mach.limitCheck_memOk {m : Mach} (h : m.memOk = true) : (Mach.limitCheck m).memOk = true := by
  unfold Mach.limitCheck
  try dsimp only
  repeat' first
    | with_reducible
      first
        | assumption | intro _ | apply Mach.memOk_reg | apply Mach.ite_memOk | apply Mach.ite_fst_memOk | apply Mach.armMod_memOk
        | rfl
    | split
    | dsimp only

theorem Mach.overrunCount_memOk {m : Mach} (h : m.memOk = true) (a0) (a1) (a2) : (Mach.overrunCount m a0 a1 a2).memOk = true := by
  unfold Mach.overrunCount
  try dsimp only
  repeat' first
    | with_reducible
      first
        | assumption | intro _ | apply Mach.memOk_reg | apply Mach.ite_memOk | apply Mach.ite_fst_memOk | apply Mach.setReg64_memOk
        | apply Mach.wr_memOk | apply Mach.count_memOk | apply Mach.event_memOk | apply Mach.journal_memOk
        | apply Mach.faultRecord_memOk | rfl
    | split
    | dsimp only

theorem Mach.overrunBeat_memOk {m : Mach} (h : m.memOk = true) (a0) (a1) : (Mach.overrunBeat m a0 a1).1.memOk = true := by
  unfold Mach.overrunBeat
  try dsimp only
  repeat' first
    | with_reducible
      first
        | assumption | intro _ | apply Mach.memOk_reg | apply Mach.ite_memOk | apply Mach.ite_fst_memOk | apply Mach.forEach_memOk
        | apply Mach.timMod_memOk | apply Mach.skipTask_memOk | apply Mach.armMod_memOk | apply Mach.overrunTe_memOk
        | apply Mach.bbMod_memOk | apply Mach.limitCheck_memOk | apply Mach.overrunCount_memOk | apply Mach.wr_memOk
        | apply Mach.settle_memOk | rfl
    | split
    | dsimp only

theorem Mach.ringMod_memOk {m : Mach} (h : m.memOk = true) (a0) (a1) : (Mach.ringMod m a0 a1).memOk = true := by
  unfold Mach.ringMod
  try dsimp only
  repeat' first
    | with_reducible
      first
        | assumption | intro _ | apply Mach.memOk_reg | apply Mach.ite_memOk | apply Mach.ite_fst_memOk | apply Mach.setRing_memOk
        | rfl
    | split
    | dsimp only

theorem Mach.progressBeat_memOk {m : Mach} (h : m.memOk = true) : (Mach.progressBeat m).memOk = true := by
  unfold Mach.progressBeat
  try dsimp only
  repeat' first
    | with_reducible
      first
        | assumption | intro _ | apply Mach.memOk_reg | apply Mach.ite_memOk | apply Mach.ite_fst_memOk | apply Mach.forEach_memOk
        | apply Mach.notice_memOk | apply Mach.ringMod_memOk | apply Mach.hostWrite_memOk | rfl
    | split
    | dsimp only

theorem Mach.msixSend_memOk {m : Mach} (h : m.memOk = true) (a0) : (Mach.msixSend m a0).memOk = true := by
  unfold Mach.msixSend
  try dsimp only
  repeat' first
    | with_reducible
      first
        | assumption | intro _ | apply Mach.memOk_reg | apply Mach.ite_memOk | apply Mach.ite_fst_memOk | apply Mach.hifMod_memOk
        | rfl
    | split
    | dsimp only

theorem Mach.msixBeat_memOk {m : Mach} (h : m.memOk = true) : (Mach.msixBeat m).memOk = true := by
  unfold Mach.msixBeat
  try dsimp only
  repeat' first
    | with_reducible
      first
        | assumption | intro _ | apply Mach.memOk_reg | apply Mach.ite_memOk | apply Mach.ite_fst_memOk | apply Mach.forEach_memOk
        | apply Mach.ringMod_memOk | apply Mach.hifMod_memOk | apply Mach.msixSend_memOk | rfl
    | split
    | dsimp only

theorem Mach.marginOne_memOk {m : Mach} (h : m.memOk = true) (a0) (a1) : (Mach.marginOne m a0 a1).1.memOk = true := by
  unfold Mach.marginOne
  try dsimp only
  repeat' first
    | with_reducible
      first
        | assumption | intro _ | apply Mach.memOk_reg | apply Mach.ite_memOk | apply Mach.ite_fst_memOk | apply Mach.wr_memOk
        | apply Mach.event_memOk | rfl
    | split
    | dsimp only

theorem Mach.marginFrom_memOk {m : Mach} (h : m.memOk = true) (a0) (a1) : (Mach.marginFrom m a0 a1).1.memOk = true := by
  revert h
  fun_induction Mach.marginFrom m a0 a1
  all_goals try intro h
  all_goals try dsimp only
  all_goals
    repeat' first
      | with_reducible
        first
          | assumption | intro _ | apply Mach.memOk_reg | apply Mach.ite_memOk | apply Mach.ite_fst_memOk
          | apply Mach.marginOne_memOk | rfl | apply_assumption
      | split
      | dsimp only

theorem Mach.marginCheck_memOk {m : Mach} (h : m.memOk = true) (a0) : (Mach.marginCheck m a0).memOk = true := by
  unfold Mach.marginCheck
  try dsimp only
  repeat' first
    | with_reducible
      first
        | assumption | intro _ | apply Mach.memOk_reg | apply Mach.ite_memOk | apply Mach.ite_fst_memOk
        | apply Mach.marginFrom_memOk | apply Mach.armMod_memOk | rfl
    | split
    | dsimp only

theorem Mach.stageCommit_memOk {m : Mach} (h : m.memOk = true) (a0) : (Mach.stageCommit m a0).memOk = true := by
  unfold Mach.stageCommit
  try dsimp only
  repeat' first
    | with_reducible
      first
        | assumption | intro _ | apply Mach.memOk_reg | apply Mach.ite_memOk | apply Mach.ite_fst_memOk | apply Mach.forEach_memOk
        | apply Mach.setReg_memOk | apply Mach.event_memOk | apply Mach.wr_memOk | apply Mach.stageMod_memOk | rfl
    | split
    | dsimp only

theorem Mach.commitBeat_memOk {m : Mach} (h : m.memOk = true) : (Mach.commitBeat m).memOk = true := by
  unfold Mach.commitBeat
  try dsimp only
  repeat' first
    | with_reducible
      first
        | assumption | intro _ | apply Mach.memOk_reg | apply Mach.ite_memOk | apply Mach.ite_fst_memOk
        | apply Mach.stageCommit_memOk | apply Mach.chnMod_memOk | rfl
    | split
    | dsimp only

theorem Mach.lowerCheck_memOk {m : Mach} (h : m.memOk = true) (a0) : (Mach.lowerCheck m a0).memOk = true := by
  unfold Mach.lowerCheck
  try dsimp only
  repeat' first
    | with_reducible
      first
        | assumption | intro _ | apply Mach.memOk_reg | apply Mach.ite_memOk | apply Mach.ite_fst_memOk | apply Mach.armMod_memOk
        | apply Mach.wr_memOk | apply Mach.drive_memOk | rfl
    | split
    | dsimp only

theorem Mach.clearBank_memOk {m : Mach} (h : m.memOk = true) (a0) : (Mach.clearBank m a0).memOk = true := by
  unfold Mach.clearBank
  try dsimp only
  repeat' first
    | with_reducible
      first
        | assumption | intro _ | apply Mach.memOk_reg | apply Mach.ite_memOk | apply Mach.ite_fst_memOk | apply Mach.setBank_memOk
        | rfl
    | split
    | dsimp only

theorem Mach.boundSwap_memOk {m : Mach} (h : m.memOk = true) (a0) : (Mach.boundSwap m a0).memOk = true := by
  unfold Mach.boundSwap
  try dsimp only
  repeat' first
    | with_reducible
      first
        | assumption | intro _ | apply Mach.memOk_reg | apply Mach.ite_memOk | apply Mach.ite_fst_memOk | apply Mach.forEach_memOk
        | apply Mach.violation_memOk | rfl
    | split
    | dsimp only

theorem Mach.twtCheck_memOk {m : Mach} (h : m.memOk = true) : (Mach.twtCheck m).memOk = true := by
  unfold Mach.twtCheck
  try dsimp only
  repeat' first
    | with_reducible
      first
        | assumption | intro _ | apply Mach.memOk_reg | apply Mach.ite_memOk | apply Mach.ite_fst_memOk | apply Mach.twtShow_memOk
        | apply Mach.forEach_memOk | apply Mach.wmacMod_memOk | apply Mach.event_memOk | apply Mach.count_memOk | rfl
    | split
    | dsimp only

theorem Mach.tplMatch_memOk {m : Mach} (h : m.memOk = true) : (Mach.tplMatch m).memOk = true := by
  unfold Mach.tplMatch
  try dsimp only
  repeat' first
    | with_reducible
      first
        | assumption | intro _ | apply Mach.memOk_reg | apply Mach.ite_memOk | apply Mach.ite_fst_memOk | apply Mach.wr_memOk
        | apply Mach.event_memOk | rfl
    | split
    | dsimp only

theorem Mach.rateSwitch_memOk {m : Mach} (h : m.memOk = true) (a0) : (Mach.rateSwitch m a0).memOk = true := by
  unfold Mach.rateSwitch
  try dsimp only
  repeat' first
    | with_reducible
      first
        | assumption | intro _ | apply Mach.memOk_reg | apply Mach.ite_memOk | apply Mach.ite_fst_memOk | apply Mach.wr_memOk | rfl
    | split
    | dsimp only

theorem Mach.swapNow_memOk {m : Mach} (h : m.memOk = true) (a0) : (Mach.swapNow m a0).memOk = true := by
  unfold Mach.swapNow
  try dsimp only
  repeat' first
    | with_reducible
      first
        | assumption | intro _ | apply Mach.memOk_reg | apply Mach.ite_memOk | apply Mach.ite_fst_memOk
        | apply Mach.stageCommit_memOk | apply Mach.armMod_memOk | apply Mach.wr_memOk | apply Mach.when_memOk
        | apply Mach.setShd_memOk | apply Mach.clearBank_memOk | apply Mach.setReg64_memOk | apply Mach.shdShow_memOk
        | apply Mach.boundSwap_memOk | apply Mach.twtCheck_memOk | apply Mach.tplMatch_memOk | apply Mach.rateSwitch_memOk | rfl
    | split
    | dsimp only

theorem Mach.takeSwap_memOk {m : Mach} (h : m.memOk = true) : (Mach.takeSwap m).memOk = true := by
  unfold Mach.takeSwap
  try dsimp only
  repeat' first
    | with_reducible
      first
        | assumption | intro _ | apply Mach.memOk_reg | apply Mach.ite_memOk | apply Mach.ite_fst_memOk | apply Mach.swapNow_memOk
        | apply Mach.wr_memOk | apply Mach.armMod_memOk | apply Mach.chnMod_memOk | apply Mach.wmacMod_memOk | rfl
    | split
    | dsimp only

theorem Mach.replayLost_memOk {m : Mach} (h : m.memOk = true) (a0) (a1) : (Mach.replayLost m a0 a1).memOk = true := by
  unfold Mach.replayLost
  try dsimp only
  repeat' first
    | with_reducible
      first
        | assumption | intro _ | apply Mach.memOk_reg | apply Mach.ite_memOk | apply Mach.ite_fst_memOk | apply Mach.detach_memOk
        | apply Mach.teMod_memOk | apply Mach.noReplay_memOk | apply Mach.voidRun_memOk | rfl
    | split
    | dsimp only

theorem Mach.replaysLost_memOk {m : Mach} (h : m.memOk = true) : (Mach.replaysLost m).memOk = true := by
  unfold Mach.replaysLost
  try dsimp only
  repeat' first
    | with_reducible
      first
        | assumption | intro _ | apply Mach.memOk_reg | apply Mach.ite_memOk | apply Mach.ite_fst_memOk | apply Mach.forEach_memOk
        | apply Mach.dspMod_memOk | apply Mach.replayLost_memOk | rfl
    | split
    | dsimp only

theorem Mach.fbSwapCheck_memOk {m : Mach} (h : m.memOk = true) : (Mach.fbSwapCheck m).memOk = true := by
  unfold Mach.fbSwapCheck
  try dsimp only
  repeat' first
    | with_reducible
      first
        | assumption | intro _ | apply Mach.memOk_reg | apply Mach.ite_memOk | apply Mach.ite_fst_memOk | apply Mach.swapNow_memOk
        | apply Mach.replaysLost_memOk | apply Mach.armMod_memOk | rfl
    | split
    | dsimp only

theorem Mach.swapDone_memOk {m : Mach} (h : m.memOk = true) : (Mach.swapDone m).memOk = true := by
  unfold Mach.swapDone
  try dsimp only
  repeat' first
    | with_reducible
      first
        | assumption | intro _ | apply Mach.memOk_reg | apply Mach.ite_memOk | apply Mach.ite_fst_memOk | apply Mach.wr_memOk
        | apply Mach.swapNow_memOk | apply Mach.changeEnd_memOk | apply Mach.armMod_memOk | rfl
    | split
    | dsimp only

theorem Mach.swapCheck_memOk {m : Mach} (h : m.memOk = true) (a0) : (Mach.swapCheck m a0).memOk = true := by
  unfold Mach.swapCheck
  try dsimp only
  repeat' first
    | with_reducible
      first
        | assumption | intro _ | apply Mach.memOk_reg | apply Mach.ite_memOk | apply Mach.ite_fst_memOk | apply Mach.armMod_memOk
        | apply Mach.wr_memOk | apply Mach.count_memOk | apply Mach.swapDone_memOk | rfl
    | split
    | dsimp only

theorem Mach.calStart_memOk {m : Mach} (h : m.memOk = true) (a0) : (Mach.calStart m a0).memOk = true := by
  unfold Mach.calStart
  try dsimp only
  repeat' first
    | with_reducible
      first
        | assumption | intro _ | apply Mach.memOk_reg | apply Mach.ite_memOk | apply Mach.ite_fst_memOk | apply Mach.radioMod_memOk
        | apply Mach.wr_memOk | rfl
    | split
    | dsimp only

theorem Mach.setStep_memOk {m : Mach} (h : m.memOk = true) (a0) : (Mach.setStep m a0).memOk = true := by
  unfold Mach.setStep
  try dsimp only
  repeat' first
    | with_reducible
      first
        | assumption | intro _ | apply Mach.memOk_reg | apply Mach.ite_memOk | apply Mach.ite_fst_memOk | apply Mach.wr_memOk | rfl
    | split
    | dsimp only

theorem Mach.memTrain_memOk {m : Mach} (h : m.memOk = true) : (Mach.memTrain m).memOk = true := by
  unfold Mach.memTrain
  try dsimp only
  repeat' first
    | with_reducible
      first
        | assumption | intro _ | apply Mach.memOk_reg | apply Mach.ite_memOk | apply Mach.ite_fst_memOk | apply Mach.ignored_memOk
        | apply Mach.wr_memOk | rfl
    | split
    | dsimp only

theorem Mach.setRole_memOk {m : Mach} (h : m.memOk = true) (a0) : (Mach.setRole m a0).memOk = true := by
  unfold Mach.setRole
  try dsimp only
  repeat' first
    | with_reducible
      first
        | assumption | intro _ | apply Mach.memOk_reg | apply Mach.ite_memOk | apply Mach.ite_fst_memOk | apply Mach.event_memOk
        | apply Mach.wr_memOk | apply Mach.chnMod_memOk | rfl
    | split
    | dsimp only

theorem Mach.pairCheck_memOk {m : Mach} (h : m.memOk = true) : (Mach.pairCheck m).memOk = true := by
  unfold Mach.pairCheck
  try dsimp only
  repeat' first
    | with_reducible
      first
        | assumption | intro _ | apply Mach.memOk_reg | apply Mach.ite_memOk | apply Mach.ite_fst_memOk | apply Mach.setRole_memOk
        | rfl
    | split
    | dsimp only

theorem Mach.bootReady_memOk {m : Mach} (h : m.memOk = true) : (Mach.bootReady m).memOk = true := by
  unfold Mach.bootReady
  try dsimp only
  repeat' first
    | with_reducible
      first
        | assumption | intro _ | apply Mach.memOk_reg | apply Mach.ite_memOk | apply Mach.ite_fst_memOk | apply Mach.wr_memOk
        | apply Mach.sysMod_memOk | rfl
    | split
    | dsimp only

theorem Mach.campSend_memOk {m : Mach} (h : m.memOk = true) (a0) (a1) (a2) : (Mach.campSend m a0 a1 a2).memOk = true := by
  unfold Mach.campSend
  try dsimp only
  repeat' first
    | with_reducible
      first
        | assumption | intro _ | apply Mach.memOk_reg | apply Mach.ite_memOk | apply Mach.ite_fst_memOk | apply Mach.chnMod_memOk
        | rfl
    | split
    | dsimp only

theorem Mach.peg_memOk {m : Mach} (h : m.memOk = true) : (Mach.peg m).memOk = true := by
  unfold Mach.peg
  try dsimp only
  repeat' first
    | with_reducible
      first
        | assumption | intro _ | apply Mach.memOk_reg | apply Mach.ite_memOk | apply Mach.ite_fst_memOk | apply Mach.campSend_memOk
        | apply Mach.chnMod_memOk | apply Mach.event_memOk | apply Mach.wr_memOk | rfl
    | split
    | dsimp only

theorem Mach.pegStart_memOk {m : Mach} (h : m.memOk = true) : (Mach.pegStart m).memOk = true := by
  unfold Mach.pegStart
  try dsimp only
  repeat' first
    | with_reducible
      first
        | assumption | intro _ | apply Mach.memOk_reg | apply Mach.ite_memOk | apply Mach.ite_fst_memOk | apply Mach.peg_memOk
        | apply Mach.chnMod_memOk | rfl
    | split
    | dsimp only

theorem Mach.bootOne_memOk {m : Mach} (h : m.memOk = true) : (Mach.bootOne m).memOk = true := by
  unfold Mach.bootOne
  try dsimp only
  repeat' first
    | with_reducible
      first
        | assumption | intro _ | apply Mach.memOk_reg | apply Mach.ite_memOk | apply Mach.ite_fst_memOk | apply Mach.calStart_memOk
        | apply Mach.setStep_memOk | apply Mach.memTrain_memOk | apply Mach.pairCheck_memOk | apply Mach.bootReady_memOk
        | apply Mach.pegStart_memOk | rfl
    | split
    | dsimp only

theorem Mach.bootNext_memOk {m : Mach} (h : m.memOk = true) : (Mach.bootNext m).memOk = true := by
  unfold Mach.bootNext
  try dsimp only
  repeat' first
    | with_reducible
      first
        | assumption | intro _ | apply Mach.memOk_reg | apply Mach.ite_memOk | apply Mach.ite_fst_memOk | apply Mach.bootOne_memOk
        | apply foldl_memOk | apply foldl_fst_memOk | rfl
    | split
    | dsimp only

theorem Mach.frameRedo_memOk {m : Mach} (h : m.memOk = true) (a0) : (Mach.frameRedo m a0).memOk = true := by
  unfold Mach.frameRedo
  try dsimp only
  repeat' first
    | with_reducible
      first
        | assumption | intro _ | apply Mach.memOk_reg | apply Mach.ite_memOk | apply Mach.ite_fst_memOk | apply Mach.setQueue_memOk
        | rfl
    | split
    | dsimp only

theorem Mach.staSet_memOk {m : Mach} (h : m.memOk = true) (a0) : (Mach.staSet m a0).1.memOk = true := by
  unfold Mach.staSet
  try dsimp only
  repeat' first
    | with_reducible
      first
        | assumption | intro _ | apply Mach.memOk_reg | apply Mach.ite_memOk | apply Mach.ite_fst_memOk
        | apply Mach.mirrorState_memOk | apply Mach.wmacMod_memOk | rfl
    | split
    | dsimp only

theorem Mach.mirrorKey_memOk {m : Mach} (h : m.memOk = true) (a0) : (Mach.mirrorKey m a0).memOk = true := by
  unfold Mach.mirrorKey
  try dsimp only
  repeat' first
    | with_reducible
      first
        | assumption | intro _ | apply Mach.memOk_reg | apply Mach.ite_memOk | apply Mach.ite_fst_memOk
        | apply Mach.toStandby_memOk | rfl
    | split
    | dsimp only

theorem Mach.keyFree_memOk {m : Mach} (h : m.memOk = true) (a0) : (Mach.keyFree m a0).memOk = true := by
  unfold Mach.keyFree
  try dsimp only
  repeat' first
    | with_reducible
      first
        | assumption | intro _ | apply Mach.memOk_reg | apply Mach.ite_memOk | apply Mach.ite_fst_memOk
        | apply Mach.mirrorKey_memOk | apply Mach.setKeyE_memOk | rfl
    | split
    | dsimp only

theorem Mach.queueDrop_memOk {m : Mach} (h : m.memOk = true) (a0) : (Mach.queueDrop m a0).memOk = true := by
  unfold Mach.queueDrop
  try dsimp only
  repeat' first
    | with_reducible
      first
        | assumption | intro _ | apply Mach.memOk_reg | apply Mach.ite_memOk | apply Mach.ite_fst_memOk | apply Mach.forEach_memOk
        | apply Mach.setQueue_memOk | apply Mach.homeRelease_memOk | rfl
    | split
    | dsimp only

theorem Mach.staDel_memOk {m : Mach} (h : m.memOk = true) (a0) : (Mach.staDel m a0).1.memOk = true := by
  unfold Mach.staDel
  try dsimp only
  repeat' first
    | with_reducible
      first
        | assumption | intro _ | apply Mach.memOk_reg | apply Mach.ite_memOk | apply Mach.ite_fst_memOk | apply Mach.wmacMod_memOk
        | apply Mach.keyFree_memOk | apply Mach.mirrorState_memOk | apply Mach.forEach_memOk | apply Mach.queueDrop_memOk | rfl
    | split
    | dsimp only

theorem Mach.keyInstall_memOk {m : Mach} (h : m.memOk = true) (a0) : (Mach.keyInstall m a0).1.memOk = true := by
  unfold Mach.keyInstall
  try dsimp only
  repeat' first
    | with_reducible
      first
        | assumption | intro _ | apply Mach.memOk_reg | apply Mach.ite_memOk | apply Mach.ite_fst_memOk | apply Mach.keyEnter_memOk
        | apply Mach.setKeyE_memOk | apply Mach.mirrorKey_memOk | apply Mach.keyHandleWrite_memOk | rfl
    | split
    | dsimp only

theorem Mach.keyDelete_memOk {m : Mach} (h : m.memOk = true) (a0) : (Mach.keyDelete m a0).1.memOk = true := by
  unfold Mach.keyDelete
  try dsimp only
  repeat' first
    | with_reducible
      first
        | assumption | intro _ | apply Mach.memOk_reg | apply Mach.ite_memOk | apply Mach.ite_fst_memOk | apply Mach.keyFree_memOk
        | rfl
    | split
    | dsimp only

theorem Mach.queueSet_memOk {m : Mach} (h : m.memOk = true) (a0) : (Mach.queueSet m a0).1.memOk = true := by
  unfold Mach.queueSet
  try dsimp only
  repeat' first
    | with_reducible
      first
        | assumption | intro _ | apply Mach.memOk_reg | apply Mach.ite_memOk | apply Mach.ite_fst_memOk
        | apply Mach.mirrorState_memOk | apply Mach.setQueue_memOk | rfl
    | split
    | dsimp only

theorem Mach.shaperSet_memOk {m : Mach} (h : m.memOk = true) (a0) : (Mach.shaperSet m a0).1.memOk = true := by
  unfold Mach.shaperSet
  try dsimp only
  repeat' first
    | with_reducible
      first
        | assumption | intro _ | apply Mach.memOk_reg | apply Mach.ite_memOk | apply Mach.ite_fst_memOk
        | apply Mach.mirrorState_memOk | apply Mach.setShaper_memOk | rfl
    | split
    | dsimp only

theorem Mach.policerSet_memOk {m : Mach} (h : m.memOk = true) (a0) : (Mach.policerSet m a0).1.memOk = true := by
  unfold Mach.policerSet
  try dsimp only
  repeat' first
    | with_reducible
      first
        | assumption | intro _ | apply Mach.memOk_reg | apply Mach.ite_memOk | apply Mach.ite_fst_memOk
        | apply Mach.mirrorState_memOk | apply Mach.setPolicer_memOk | rfl
    | split
    | dsimp only

theorem Mach.twtBind_memOk {m : Mach} (h : m.memOk = true) (a0) : (Mach.twtBind m a0).1.memOk = true := by
  unfold Mach.twtBind
  try dsimp only
  repeat' first
    | with_reducible
      first
        | assumption | intro _ | apply Mach.memOk_reg | apply Mach.ite_memOk | apply Mach.ite_fst_memOk | apply Mach.freeVal_memOk
        | apply Mach.hostWrite_memOk | apply Mach.wmacMod_memOk | apply Mach.mirrorState_memOk | apply Mach.twtShow_memOk | rfl
    | split
    | dsimp only

theorem Mach.twtUnbind_memOk {m : Mach} (h : m.memOk = true) (a0) : (Mach.twtUnbind m a0).1.memOk = true := by
  unfold Mach.twtUnbind
  try dsimp only
  repeat' first
    | with_reducible
      first
        | assumption | intro _ | apply Mach.memOk_reg | apply Mach.ite_memOk | apply Mach.ite_fst_memOk
        | apply Mach.mirrorState_memOk | apply Mach.twtShow_memOk | apply Mach.wmacMod_memOk | rfl
    | split
    | dsimp only

theorem Mach.bucket_memOk {m : Mach} (h : m.memOk = true) (a0) (a1) (a2) : (Mach.bucket m a0 a1 a2).1.memOk = true := by
  revert h
  fun_induction Mach.bucket m a0 a1 a2
  all_goals try intro h
  all_goals try dsimp only
  all_goals
    repeat' first
      | with_reducible
        first
          | assumption | intro _ | apply Mach.memOk_reg | apply Mach.ite_memOk | apply Mach.ite_fst_memOk
          | apply Mach.hashEntry_memOk | rfl | apply_assumption
      | split
      | dsimp only

theorem Mach.hashRead_memOk {m : Mach} (h : m.memOk = true) (a0) (a1) : (Mach.hashRead m a0 a1).1.memOk = true := by
  unfold Mach.hashRead
  try dsimp only
  repeat' first
    | with_reducible
      first
        | assumption | intro _ | apply Mach.memOk_reg | apply Mach.ite_memOk | apply Mach.ite_fst_memOk | apply Mach.bucket_memOk
        | rfl
    | split
    | dsimp only

theorem Mach.hashFind_memOk {m : Mach} (h : m.memOk = true) (a0) (a1) (a2) : (Mach.hashFind m a0 a1 a2).1.memOk = true := by
  unfold Mach.hashFind
  try dsimp only
  repeat' first
    | with_reducible
      first
        | assumption | intro _ | apply Mach.memOk_reg | apply Mach.ite_memOk | apply Mach.ite_fst_memOk | apply Mach.hashRead_memOk
        | apply Mach.hashPut_memOk | rfl
    | split
    | dsimp only

theorem Mach.hashInsert_memOk {m : Mach} (h : m.memOk = true) (a0) (a1) (a2) (a3) : (Mach.hashInsert m a0 a1 a2 a3).1.memOk = true := by
  unfold Mach.hashInsert
  try dsimp only
  repeat' first
    | with_reducible
      first
        | assumption | intro _ | apply Mach.memOk_reg | apply Mach.ite_memOk | apply Mach.ite_fst_memOk | apply Mach.hashRead_memOk
        | apply Mach.hashPut_memOk | rfl
    | split
    | dsimp only

theorem Mach.hashDelete_memOk {m : Mach} (h : m.memOk = true) (a0) (a1) : (Mach.hashDelete m a0 a1).1.memOk = true := by
  unfold Mach.hashDelete
  try dsimp only
  repeat' first
    | with_reducible
      first
        | assumption | intro _ | apply Mach.memOk_reg | apply Mach.ite_memOk | apply Mach.ite_fst_memOk | apply Mach.hashRead_memOk
        | apply Mach.hashPut_memOk | rfl
    | split
    | dsimp only

theorem Mach.tblHash_memOk {m : Mach} (h : m.memOk = true) (a0) : (Mach.tblHash m a0).1.memOk = true := by
  unfold Mach.tblHash
  try dsimp only
  repeat' first
    | with_reducible
      first
        | assumption | intro _ | apply Mach.memOk_reg | apply Mach.ite_memOk | apply Mach.ite_fst_memOk | apply Mach.hashFind_memOk
        | apply Mach.hashInsert_memOk | apply Mach.hashDelete_memOk | apply Mach.hostWrite_memOk | rfl
    | split
    | dsimp only

theorem Mach.tblWrite_memOk {m : Mach} (h : m.memOk = true) (a0) : (Mach.tblWrite m a0).1.memOk = true := by
  unfold Mach.tblWrite
  try dsimp only
  repeat' first
    | with_reducible
      first
        | assumption | intro _ | apply Mach.memOk_reg | apply Mach.ite_memOk | apply Mach.ite_fst_memOk | apply Mach.tblPuts_memOk
        | rfl
    | split
    | dsimp only

theorem Mach.wpolSet_memOk {m : Mach} (h : m.memOk = true) (a0) : (Mach.wpolSet m a0).1.memOk = true := by
  unfold Mach.wpolSet
  try dsimp only
  repeat' first
    | with_reducible
      first
        | assumption | intro _ | apply Mach.memOk_reg | apply Mach.ite_memOk | apply Mach.ite_fst_memOk
        | apply Mach.mirrorState_memOk | apply Mach.setWpol_memOk | rfl
    | split
    | dsimp only

theorem Mach.immForm_memOk {m : Mach} (h : m.memOk = true) (a0) (a1) : (Mach.immForm m a0 a1).1.memOk = true := by
  unfold Mach.immForm
  try dsimp only
  repeat' first
    | with_reducible
      first
        | assumption | intro _ | apply Mach.memOk_reg | apply Mach.ite_memOk | apply Mach.ite_fst_memOk | apply Mach.freeVal_memOk
        | rfl
    | split
    | dsimp only

theorem Mach.txImm_memOk {m : Mach} (h : m.memOk = true) (a0) (a1) : (Mach.txImm m a0 a1).1.memOk = true := by
  unfold Mach.txImm
  try dsimp only
  repeat' first
    | with_reducible
      first
        | assumption | intro _ | apply Mach.memOk_reg | apply Mach.ite_memOk | apply Mach.ite_fst_memOk | apply Mach.radioTx_memOk
        | apply Mach.macAfter_memOk | apply Mach.immForm_memOk | rfl
    | split
    | dsimp only

theorem Mach.meshCmd_memOk {m : Mach} (h : m.memOk = true) (a0) : optOk (Mach.meshCmd m a0) := by
  unfold Mach.meshCmd
  try dsimp only
  repeat' first
    | with_reducible
      first
        | assumption | apply optOk_none | apply optOk_some | apply optOk_ite | apply Mach.memOk_reg | apply Mach.ite_memOk
        | apply Mach.ite_fst_memOk | apply Mach.chReceive_memOk | rfl
    | split
    | dsimp only

theorem Mach.blkGens_memOk {m : Mach} (h : m.memOk = true) (a0) : (Mach.blkGens m a0).memOk = true := by
  unfold Mach.blkGens
  try dsimp only
  repeat' first
    | with_reducible
      first
        | assumption | intro _ | apply Mach.memOk_reg | apply Mach.ite_memOk | apply Mach.ite_fst_memOk | apply Mach.forEach_memOk
        | apply Mach.setReg_memOk | rfl
    | split
    | dsimp only

theorem Mach.cfgStage_memOk {m : Mach} (h : m.memOk = true) (a0) : (Mach.cfgStage m a0).1.memOk = true := by
  unfold Mach.cfgStage
  try dsimp only
  repeat' first
    | with_reducible
      first
        | assumption | intro _ | apply Mach.memOk_reg | apply Mach.ite_memOk | apply Mach.ite_fst_memOk | apply Mach.blkGens_memOk
        | apply Mach.wr_memOk | apply Mach.setReg_memOk | apply Mach.stageMod_memOk | rfl
    | split
    | dsimp only

theorem Mach.cfgSend_memOk {m : Mach} (h : m.memOk = true) (a0) (a1) (a2) (a3) : (Mach.cfgSend m a0 a1 a2 a3).memOk = true := by
  revert h
  fun_induction Mach.cfgSend m a0 a1 a2 a3
  all_goals try intro h
  all_goals try dsimp only
  all_goals
    repeat' first
      | with_reducible
        first
          | assumption | intro _ | apply Mach.memOk_reg | apply Mach.ite_memOk | apply Mach.ite_fst_memOk
          | apply Mach.toStandby_memOk | rfl | apply_assumption
      | split
      | dsimp only

theorem Mach.commitPlan_memOk {m : Mach} (h : m.memOk = true) (a0) (a1) : (Mach.commitPlan m a0 a1).memOk = true := by
  unfold Mach.commitPlan
  try dsimp only
  repeat' first
    | with_reducible
      first
        | assumption | intro _ | apply Mach.memOk_reg | apply Mach.ite_memOk | apply Mach.ite_fst_memOk | apply Mach.chnMod_memOk
        | apply Mach.campSend_memOk | apply Mach.toStandby_memOk | apply Mach.cfgSend_memOk | rfl
    | split
    | dsimp only

theorem Mach.cfgCommit_memOk {m : Mach} (h : m.memOk = true) (a0) (a1) : (Mach.cfgCommit m a0 a1).1.memOk = true := by
  unfold Mach.cfgCommit
  try dsimp only
  repeat' first
    | with_reducible
      first
        | assumption | intro _ | apply Mach.memOk_reg | apply Mach.ite_memOk | apply Mach.ite_fst_memOk
        | apply Mach.commitPlan_memOk | rfl
    | split
    | dsimp only

theorem Mach.cmdExec_memOk {m : Mach} (h : m.memOk = true) (a0) (a1) : optOk (Mach.cmdExec m a0 a1) := by
  unfold Mach.cmdExec
  try dsimp only
  repeat' first
    | with_reducible
      first
        | assumption | apply optOk_none | apply optOk_some | apply optOk_ite | apply Mach.memOk_reg | apply Mach.ite_memOk
        | apply Mach.ite_fst_memOk | apply Mach.staSet_memOk | apply Mach.staDel_memOk | apply Mach.baSetCmd_memOk
        | apply Mach.keyInstall_memOk | apply Mach.keyDelete_memOk | apply Mach.queueSet_memOk | apply Mach.shaperSet_memOk
        | apply Mach.policerSet_memOk | apply Mach.twtBind_memOk | apply Mach.twtUnbind_memOk | apply Mach.bcnTemplate_memOk
        | apply Mach.tblHash_memOk | apply Mach.tblWrite_memOk | apply Mach.wpolSet_memOk | apply Mach.txImm_memOk
        | apply Mach.meshCmd_memOk | apply Mach.cfgStage_memOk | apply Mach.cfgCommit_memOk | rfl
    | split
    | dsimp only

theorem Mach.cmdDone_memOk {m : Mach} (h : m.memOk = true) (a0) (a1) (a2) : (Mach.cmdDone m a0 a1 a2).memOk = true := by
  unfold Mach.cmdDone
  try dsimp only
  repeat' first
    | with_reducible
      first
        | assumption | intro _ | apply Mach.memOk_reg | apply Mach.ite_memOk | apply Mach.ite_fst_memOk | apply Mach.holdOn_memOk
        | apply Mach.journal_memOk | apply Mach.ringMod_memOk | apply Mach.notice_memOk | rfl
    | split
    | dsimp only

theorem Mach.setCmds_memOk {m : Mach} (h : m.memOk = true) (a0) (a1) : (Mach.setCmds m a0 a1).memOk = true := by
  unfold Mach.setCmds
  try dsimp only
  repeat' first
    | with_reducible
      first
        | assumption | intro _ | apply Mach.memOk_reg | apply Mach.ite_memOk | apply Mach.ite_fst_memOk | apply Mach.hifMod_memOk
        | rfl
    | split
    | dsimp only

theorem Mach.cmdPumpN_memOk (k : Nat) {m : Mach} (h : m.memOk = true) (a0) : (Mach.cmdPumpN k m a0).memOk = true := by
  induction k generalizing m with
  | zero => exact h
  | succ k ih =>
    unfold Mach.cmdPumpN
    split
    · exact h
    · split
      · exact h
      · split
        · exact h
        · rename_i m1 st he
          exact ih (Mach.cmdDone_memOk (Mach.setCmds_memOk (Mach.cmdExec_memOk h _ _ _ he) _ _) _ _ _)

theorem Mach.cmdPump_memOk {m : Mach} (h : m.memOk = true) (a0) : (Mach.cmdPump m a0).memOk = true :=
  Mach.cmdPumpN_memOk _ h _

theorem Mach.cmdRedo_memOk {m : Mach} (h : m.memOk = true) (a0) (a1) : (Mach.cmdRedo m a0 a1).memOk = true := by
  unfold Mach.cmdRedo
  try dsimp only
  repeat' first
    | with_reducible
      first
        | assumption | intro _ | apply Mach.memOk_reg | apply Mach.ite_memOk | apply Mach.ite_fst_memOk | apply Mach.cmdPump_memOk
        | apply Mach.setCmds_memOk | rfl
    | split
    | dsimp only

theorem Mach.takeReplay_memOk {m : Mach} (h : m.memOk = true) (a0) : (Mach.takeReplay m a0).memOk = true := by
  unfold Mach.takeReplay
  try dsimp only
  repeat' first
    | with_reducible
      first
        | assumption | intro _ | apply Mach.memOk_reg | apply Mach.ite_memOk | apply Mach.ite_fst_memOk | apply Mach.chnMod_memOk
        | apply Mach.forEach_memOk | apply Mach.frameRedo_memOk | apply Mach.ringMod_memOk | apply Mach.cmdRedo_memOk | rfl
    | split
    | dsimp only

theorem Mach.beatSwap_memOk {m : Mach} (h : m.memOk = true) (a0) (a1) : (Mach.beatSwap m a0 a1).memOk = true := by
  unfold Mach.beatSwap
  try dsimp only
  repeat' first
    | with_reducible
      first
        | assumption | intro _ | apply Mach.memOk_reg | apply Mach.ite_memOk | apply Mach.ite_fst_memOk | apply Mach.forEach_memOk
        | apply Mach.commitBeat_memOk | apply Mach.lowerCheck_memOk | apply Mach.chanMark_memOk | apply Mach.takeSwap_memOk
        | apply Mach.fbSwapCheck_memOk | apply Mach.swapCheck_memOk | apply Mach.bootNext_memOk | apply Mach.autoBeat_memOk
        | apply Mach.takeReplay_memOk | rfl
    | split
    | dsimp only

theorem Mach.txChooseAll_memOk {m : Mach} (h : m.memOk = true) : (Mach.txChooseAll m).memOk = true := by
  unfold Mach.txChooseAll
  try dsimp only
  repeat' first
    | with_reducible
      first
        | assumption | intro _ | apply Mach.memOk_reg | apply Mach.ite_memOk | apply Mach.ite_fst_memOk | apply Mach.forEach_memOk
        | apply Mach.txChoose_memOk | rfl
    | split
    | dsimp only

theorem Mach.wpolAccrue_memOk {m : Mach} (h : m.memOk = true) (a0) : (Mach.wpolAccrue m a0).memOk = true := by
  unfold Mach.wpolAccrue
  try dsimp only
  repeat' first
    | with_reducible
      first
        | assumption | intro _ | apply Mach.memOk_reg | apply Mach.ite_memOk | apply Mach.ite_fst_memOk | apply Mach.forEach_memOk
        | apply Mach.setWpol_memOk | rfl
    | split
    | dsimp only

theorem Mach.uplAccrue_memOk {m : Mach} (h : m.memOk = true) (a0) : (Mach.uplAccrue m a0).memOk = true := by
  unfold Mach.uplAccrue
  try dsimp only
  repeat' first
    | with_reducible
      first
        | assumption | intro _ | apply Mach.memOk_reg | apply Mach.ite_memOk | apply Mach.ite_fst_memOk | apply Mach.forEach_memOk
        | apply Mach.portMod_memOk | rfl
    | split
    | dsimp only

theorem Mach.wireAccrue_memOk {m : Mach} (h : m.memOk = true) : (Mach.wireAccrue m).memOk = true := by
  unfold Mach.wireAccrue
  try dsimp only
  repeat' first
    | with_reducible
      first
        | assumption | intro _ | apply Mach.memOk_reg | apply Mach.ite_memOk | apply Mach.ite_fst_memOk
        | apply Mach.txChooseAll_memOk | apply Mach.wpolAccrue_memOk | apply Mach.uplAccrue_memOk | rfl
    | split
    | dsimp only

theorem Mach.tickAccrue_memOk {m : Mach} (h : m.memOk = true) : (Mach.tickAccrue m).memOk = true := by
  unfold Mach.tickAccrue
  try dsimp only
  repeat' first
    | with_reducible
      first
        | assumption | intro _ | apply Mach.memOk_reg | apply Mach.ite_memOk | apply Mach.ite_fst_memOk
        | apply Mach.wireAccrue_memOk | apply Mach.accrue_memOk | rfl
    | split
    | dsimp only

theorem Mach.lagMap_memOk {m : Mach} (h : m.memOk = true) (a0) : (Mach.lagMap m a0).memOk = true := by
  unfold Mach.lagMap
  try dsimp only
  repeat' first
    | with_reducible
      first
        | assumption | intro _ | apply Mach.memOk_reg | apply Mach.ite_memOk | apply Mach.ite_fst_memOk | apply Mach.rteMod_memOk
        | rfl
    | split
    | dsimp only

theorem Mach.lagBeat_memOk {m : Mach} (h : m.memOk = true) : (Mach.lagBeat m).memOk = true := by
  unfold Mach.lagBeat
  try dsimp only
  repeat' first
    | with_reducible
      first
        | assumption | intro _ | apply Mach.memOk_reg | apply Mach.ite_memOk | apply Mach.ite_fst_memOk | apply Mach.forEach_memOk
        | apply Mach.lagMap_memOk | rfl
    | split
    | dsimp only

theorem Mach.wpolApply_memOk {m : Mach} (h : m.memOk = true) : (Mach.wpolApply m).memOk = true := by
  unfold Mach.wpolApply
  try dsimp only
  repeat' first
    | with_reducible
      first
        | assumption | intro _ | apply Mach.memOk_reg | apply Mach.ite_memOk | apply Mach.ite_fst_memOk | apply Mach.forEach_memOk
        | apply Mach.setWpol_memOk | rfl
    | split
    | dsimp only

theorem Mach.gclTake_memOk {m : Mach} (h : m.memOk = true) (a0) : (Mach.gclTake m a0).memOk = true := by
  unfold Mach.gclTake
  try dsimp only
  repeat' first
    | with_reducible
      first
        | assumption | intro _ | apply Mach.memOk_reg | apply Mach.ite_memOk | apply Mach.ite_fst_memOk | apply Mach.portMod_memOk
        | apply Mach.wr_memOk | apply Mach.event_memOk | apply Mach.setReg64_memOk | apply Mach.setReg_memOk | rfl
    | split
    | dsimp only

theorem Mach.uplApply_memOk {m : Mach} (h : m.memOk = true) : (Mach.uplApply m).memOk = true := by
  unfold Mach.uplApply
  try dsimp only
  repeat' first
    | with_reducible
      first
        | assumption | intro _ | apply Mach.memOk_reg | apply Mach.ite_memOk | apply Mach.ite_fst_memOk | apply Mach.forEach_memOk
        | apply Mach.portMod_memOk | rfl
    | split
    | dsimp only

theorem Mach.beatWire_memOk {m : Mach} (h : m.memOk = true) : (Mach.beatWire m).memOk = true := by
  unfold Mach.beatWire
  try dsimp only
  repeat' first
    | with_reducible
      first
        | assumption | intro _ | apply Mach.memOk_reg | apply Mach.ite_memOk | apply Mach.ite_fst_memOk
        | apply Mach.wireAccrue_memOk | apply Mach.uplApply_memOk | apply Mach.ageBeat_memOk | apply Mach.lagBeat_memOk
        | apply Mach.wpolApply_memOk | apply Mach.forEach_memOk | apply Mach.gclTake_memOk | rfl
    | split
    | dsimp only

theorem Mach.guyFrame_memOk {m : Mach} (h : m.memOk = true) : (Mach.guyFrame m).memOk = true := by
  unfold Mach.guyFrame
  try dsimp only
  repeat' first
    | with_reducible
      first
        | assumption | intro _ | apply Mach.memOk_reg | apply Mach.ite_memOk | apply Mach.ite_fst_memOk | apply Mach.forEach_memOk
        | apply Mach.guySend_memOk | apply Mach.setGuyTime_memOk | rfl
    | split
    | dsimp only

theorem Mach.calAge_memOk {m : Mach} (h : m.memOk = true) : (Mach.calAge m).memOk = true := by
  unfold Mach.calAge
  try dsimp only
  repeat' first
    | with_reducible
      first
        | assumption | intro _ | apply Mach.memOk_reg | apply Mach.ite_memOk | apply Mach.ite_fst_memOk | apply Mach.forEach_memOk
        | apply Mach.count_memOk | rfl
    | split
    | dsimp only

theorem Mach.sampleRow_memOk {m : Mach} (h : m.memOk = true) : (Mach.sampleRow m).memOk = true := by
  unfold Mach.sampleRow
  try dsimp only
  repeat' first
    | with_reducible
      first
        | assumption | intro _ | apply Mach.memOk_reg | apply Mach.ite_memOk | apply Mach.ite_fst_memOk | apply Mach.aschMod_memOk
        | rfl
    | split
    | dsimp only

theorem Mach.frameStart_memOk {m : Mach} (h : m.memOk = true) : (Mach.frameStart m).memOk = true := by
  unfold Mach.frameStart
  try dsimp only
  repeat' first
    | with_reducible
      first
        | assumption | intro _ | apply Mach.memOk_reg | apply Mach.ite_memOk | apply Mach.ite_fst_memOk | apply Mach.guyFrame_memOk
        | apply Mach.calAge_memOk | apply Mach.sampleRow_memOk | rfl
    | split
    | dsimp only

theorem Mach.taskSelect_memOk {m : Mach} (h : m.memOk = true) : (Mach.taskSelect m).memOk = true := by
  unfold Mach.taskSelect
  try dsimp only
  repeat' first
    | with_reducible
      first
        | assumption | intro _ | apply Mach.memOk_reg | apply Mach.ite_memOk | apply Mach.ite_fst_memOk | apply Mach.forEach_memOk
        | apply Mach.teMod_memOk | apply Mach.dspMod_memOk | rfl
    | split
    | dsimp only

theorem Mach.slipContent_memOk {m : Mach} (h : m.memOk = true) (a0) (a1) : (Mach.slipContent m a0 a1).memOk = true := by
  unfold Mach.slipContent
  try dsimp only
  repeat' first
    | with_reducible
      first
        | assumption | intro _ | apply Mach.memOk_reg | apply Mach.ite_memOk | apply Mach.ite_fst_memOk | apply Mach.forEach_memOk
        | apply Mach.setQueue_memOk | apply Mach.wmacMod_memOk | apply Mach.aschMod_memOk | rfl
    | split
    | dsimp only

theorem Mach.slotEnds_memOk {m : Mach} (h : m.memOk = true) (a0) (a1) (a2) : (Mach.slotEnds m a0 a1 a2).memOk = true := by
  unfold Mach.slotEnds
  try dsimp only
  repeat' first
    | with_reducible
      first
        | assumption | intro _ | apply Mach.memOk_reg | apply Mach.ite_memOk | apply Mach.ite_fst_memOk | apply Mach.sqMod_memOk
        | apply Mach.slipContent_memOk | apply Mach.radioRelax_memOk | apply Mach.slotMark_memOk | rfl
    | split
    | dsimp only

theorem Mach.restartOne_memOk {m : Mach} (h : m.memOk = true) (a0) : (Mach.restartOne m a0).memOk = true := by
  unfold Mach.restartOne
  try dsimp only
  repeat' first
    | with_reducible
      first
        | assumption | intro _ | apply Mach.memOk_reg | apply Mach.ite_memOk | apply Mach.ite_fst_memOk | apply Mach.forEach_memOk
        | apply Mach.slotEnds_memOk | apply Mach.bbMod_memOk | apply Mach.event_memOk | apply Mach.count_memOk
        | apply Mach.journal_memOk | apply Mach.faultRecord_memOk | rfl
    | split
    | dsimp only

theorem Mach.restartBeat_memOk {m : Mach} (h : m.memOk = true) : (Mach.restartBeat m).memOk = true := by
  unfold Mach.restartBeat
  try dsimp only
  repeat' first
    | with_reducible
      first
        | assumption | intro _ | apply Mach.memOk_reg | apply Mach.ite_memOk | apply Mach.ite_fst_memOk | apply Mach.forEach_memOk
        | apply Mach.fltMod_memOk | apply Mach.restartOne_memOk | rfl
    | split
    | dsimp only

theorem Mach.guyCtl_memOk {m : Mach} (h : m.memOk = true) (a0) (a1) : (Mach.guyCtl m a0 a1).memOk = true := by
  unfold Mach.guyCtl
  try dsimp only
  repeat' first
    | with_reducible
      first
        | assumption | intro _ | apply Mach.memOk_reg | apply Mach.ite_memOk | apply Mach.ite_fst_memOk | apply Mach.wr_memOk
        | apply Mach.setGuyTime_memOk | apply Mach.refused_memOk | rfl
    | split
    | dsimp only

theorem Mach.roleSend_memOk {m : Mach} (h : m.memOk = true) (a0) : (Mach.roleSend m a0).memOk = true := by
  unfold Mach.roleSend
  try dsimp only
  repeat' first
    | with_reducible
      first
        | assumption | intro _ | apply Mach.memOk_reg | apply Mach.ite_memOk | apply Mach.ite_fst_memOk | apply Mach.campSend_memOk
        | rfl
    | split
    | dsimp only

theorem Mach.followPair_memOk {m : Mach} (h : m.memOk = true) : (Mach.followPair m).memOk = true := by
  unfold Mach.followPair
  try dsimp only
  repeat' first
    | with_reducible
      first
        | assumption | intro _ | apply Mach.memOk_reg | apply Mach.ite_memOk | apply Mach.ite_fst_memOk | apply Mach.guyCtl_memOk
        | rfl
    | split
    | dsimp only

theorem Mach.toStandbyRole_memOk {m : Mach} (h : m.memOk = true) : (Mach.toStandbyRole m).memOk = true := by
  unfold Mach.toStandbyRole
  try dsimp only
  repeat' first
    | with_reducible
      first
        | assumption | intro _ | apply Mach.memOk_reg | apply Mach.ite_memOk | apply Mach.ite_fst_memOk | apply Mach.chnMod_memOk
        | apply Mach.setRole_memOk | apply Mach.wr_memOk | apply Mach.roleSend_memOk | apply Mach.followPair_memOk | rfl
    | split
    | dsimp only

theorem Mach.tokenSend_memOk {m : Mach} (h : m.memOk = true) (a0) : (Mach.tokenSend m a0).memOk = true := by
  unfold Mach.tokenSend
  try dsimp only
  repeat' first
    | with_reducible
      first
        | assumption | intro _ | apply Mach.memOk_reg | apply Mach.ite_memOk | apply Mach.ite_fst_memOk | apply Mach.forEach_memOk
        | apply Mach.guySend_memOk | rfl
    | split
    | dsimp only

theorem Mach.switchBeat_memOk {m : Mach} (h : m.memOk = true) : (Mach.switchBeat m).memOk = true := by
  unfold Mach.switchBeat
  try dsimp only
  repeat' first
    | with_reducible
      first
        | assumption | intro _ | apply Mach.memOk_reg | apply Mach.ite_memOk | apply Mach.ite_fst_memOk
        | apply Mach.toStandbyRole_memOk | apply Mach.chnMod_memOk | apply Mach.tokenSend_memOk | apply Mach.wr_memOk
        | apply Mach.drive_memOk | rfl
    | split
    | dsimp only

theorem Mach.stokenSend_memOk {m : Mach} (h : m.memOk = true) : (Mach.stokenSend m).memOk = true := by
  unfold Mach.stokenSend
  try dsimp only
  repeat' first
    | with_reducible
      first
        | assumption | intro _ | apply Mach.memOk_reg | apply Mach.ite_memOk | apply Mach.ite_fst_memOk | apply Mach.forEach_memOk
        | apply Mach.guySend_memOk | rfl
    | split
    | dsimp only

theorem Mach.tokenBeat_memOk {m : Mach} (h : m.memOk = true) : (Mach.tokenBeat m).memOk = true := by
  unfold Mach.tokenBeat
  try dsimp only
  repeat' first
    | with_reducible
      first
        | assumption | intro _ | apply Mach.memOk_reg | apply Mach.ite_memOk | apply Mach.ite_fst_memOk | apply Mach.chnMod_memOk
        | apply Mach.count_memOk | apply Mach.wr_memOk | apply Mach.stokenSend_memOk | apply Mach.event_memOk
        | apply Mach.tokenSend_memOk | rfl
    | split
    | dsimp only

theorem Mach.snapSend_memOk {m : Mach} (h : m.memOk = true) : (Mach.snapSend m).memOk = true := by
  unfold Mach.snapSend
  try dsimp only
  repeat' first
    | with_reducible
      first
        | assumption | intro _ | apply Mach.memOk_reg | apply Mach.ite_memOk | apply Mach.ite_fst_memOk | apply Mach.forEach_memOk
        | apply Mach.mirrorKey_memOk | apply Mach.cfgSend_memOk | rfl
    | split
    | dsimp only

theorem Mach.lagCheck_memOk {m : Mach} (h : m.memOk = true) : (Mach.lagCheck m).memOk = true := by
  unfold Mach.lagCheck
  try dsimp only
  repeat' first
    | with_reducible
      first
        | assumption | intro _ | apply Mach.memOk_reg | apply Mach.ite_memOk | apply Mach.ite_fst_memOk | apply Mach.chnMod_memOk
        | apply Mach.wr_memOk | apply Mach.event_memOk | apply Mach.snapSend_memOk | apply Mach.count_memOk
        | apply Mach.fltMod_memOk | rfl
    | split
    | dsimp only

theorem Mach.tsfMark_memOk {m : Mach} (h : m.memOk = true) : (Mach.tsfMark m).memOk = true := by
  unfold Mach.tsfMark
  try dsimp only
  repeat' first
    | with_reducible
      first
        | assumption | intro _ | apply Mach.memOk_reg | apply Mach.ite_memOk | apply Mach.ite_fst_memOk | apply Mach.chnMod_memOk
        | rfl
    | split
    | dsimp only

theorem Mach.chnBeat_memOk {m : Mach} (h : m.memOk = true) : (Mach.chnBeat m).memOk = true := by
  unfold Mach.chnBeat
  try dsimp only
  repeat' first
    | with_reducible
      first
        | assumption | intro _ | apply Mach.memOk_reg | apply Mach.ite_memOk | apply Mach.ite_fst_memOk | apply Mach.chnMod_memOk
        | apply Mach.switchBeat_memOk | apply Mach.tokenBeat_memOk | apply Mach.lagCheck_memOk | apply Mach.tsfMark_memOk | rfl
    | split
    | dsimp only

theorem Mach.ringFault_memOk {m : Mach} (h : m.memOk = true) (a0) : (Mach.ringFault m a0).memOk = true := by
  unfold Mach.ringFault
  try dsimp only
  repeat' first
    | with_reducible
      first
        | assumption | intro _ | apply Mach.memOk_reg | apply Mach.ite_memOk | apply Mach.ite_fst_memOk | apply Mach.ringMod_memOk
        | apply Mach.putEvent_memOk | apply Mach.notice_memOk | rfl
    | split
    | dsimp only

theorem Mach.ringAdopt_memOk {m : Mach} (h : m.memOk = true) (a0) (a1) : (Mach.ringAdopt m a0 a1).memOk = true := by
  unfold Mach.ringAdopt
  try dsimp only
  repeat' first
    | with_reducible
      first
        | assumption | intro _ | apply Mach.memOk_reg | apply Mach.ite_memOk | apply Mach.ite_fst_memOk | apply Mach.setRing_memOk
        | apply Mach.ringFault_memOk | rfl
    | split
    | dsimp only

theorem Mach.doorbellStart_memOk {m : Mach} (h : m.memOk = true) (a0) : (Mach.doorbellStart m a0).memOk = true := by
  unfold Mach.doorbellStart
  try dsimp only
  repeat' first
    | with_reducible
      first
        | assumption | intro _ | apply Mach.memOk_reg | apply Mach.ite_memOk | apply Mach.ite_fst_memOk | apply Mach.forEach_memOk
        | apply Mach.hifMod_memOk | apply Mach.ringAdopt_memOk | apply Mach.ringMod_memOk | apply Mach.wr_memOk | rfl
    | split
    | dsimp only

theorem Mach.hifPump_memOk {m : Mach} (h : m.memOk = true) : (Mach.hifPump m).memOk = true := by
  unfold Mach.hifPump
  try dsimp only
  repeat' first
    | with_reducible
      first
        | assumption | intro _ | apply Mach.memOk_reg | apply Mach.ite_memOk | apply Mach.ite_fst_memOk | apply Mach.forEach_memOk
        | apply Mach.cmdPump_memOk | rfl
    | split
    | dsimp only

theorem Mach.beatStart_memOk {m : Mach} (h : m.memOk = true) (a0) (a1) (a2) (a3) : (Mach.beatStart m a0 a1 a2 a3).memOk = true := by
  unfold Mach.beatStart
  try dsimp only
  repeat' first
    | with_reducible
      first
        | assumption | intro _ | apply Mach.memOk_reg | apply Mach.ite_memOk | apply Mach.ite_fst_memOk
        | apply Mach.overrunBeat_memOk | apply Mach.reach_memOk | apply Mach.progressBeat_memOk | apply Mach.msixBeat_memOk
        | apply Mach.marginCheck_memOk | apply Mach.beatForget_memOk | apply Mach.beatBegin_memOk | apply Mach.beatSwap_memOk
        | apply Mach.journal_memOk | apply Mach.beatWire_memOk | apply Mach.frameStart_memOk | apply Mach.beatAir_memOk
        | apply Mach.taskSelect_memOk | apply Mach.restartBeat_memOk | apply Mach.chnBeat_memOk | apply Mach.doorbellStart_memOk
        | apply Mach.hifPump_memOk | rfl
    | split
    | dsimp only

theorem Mach.bivouacWake_memOk {m : Mach} (h : m.memOk = true) : (Mach.bivouacWake m).memOk = true := by
  unfold Mach.bivouacWake
  try dsimp only
  repeat' first
    | with_reducible
      first
        | assumption | intro _ | apply Mach.memOk_reg | apply Mach.ite_memOk | apply Mach.ite_fst_memOk | apply Mach.lcMod_memOk
        | apply Mach.count_memOk | apply Mach.lanternState_memOk | apply Mach.elapse_memOk | rfl
    | split
    | dsimp only

theorem Mach.blockAck_memOk {m : Mach} (h : m.memOk = true) (a0) (a1) (a2) (a3) : (Mach.blockAck m a0 a1 a2 a3).memOk = true := by
  unfold Mach.blockAck
  try dsimp only
  repeat' first
    | with_reducible
      first
        | assumption | intro _ | apply Mach.memOk_reg | apply Mach.ite_memOk | apply Mach.ite_fst_memOk | apply Mach.forEach_memOk
        | apply Mach.subDone_memOk | apply Mach.sqMod_memOk | apply Mach.attemptFail_memOk | apply Mach.count_memOk
        | apply Mach.baAdvance_memOk | rfl
    | split
    | dsimp only

theorem Mach.blockIllegal_memOk {m : Mach} (h : m.memOk = true) (a0) : (Mach.blockIllegal m a0).memOk = true := by
  unfold Mach.blockIllegal
  try dsimp only
  repeat' first
    | with_reducible
      first
        | assumption | intro _ | apply Mach.memOk_reg | apply Mach.ite_memOk | apply Mach.ite_fst_memOk | apply Mach.fltMod_memOk
        | rfl
    | split
    | dsimp only

theorem Mach.blockStuck_memOk {m : Mach} (h : m.memOk = true) (a0) (a1) : (Mach.blockStuck m a0 a1).memOk = true := by
  unfold Mach.blockStuck
  try dsimp only
  repeat' first
    | with_reducible
      first
        | assumption | intro _ | apply Mach.memOk_reg | apply Mach.ite_memOk | apply Mach.ite_fst_memOk
        | apply Mach.blockIllegal_memOk | rfl
    | split
    | dsimp only

theorem Mach.pwrLast_memOk {m : Mach} (h : m.memOk = true) (a0) (a1) : (Mach.pwrLast m a0 a1).memOk = true := by
  unfold Mach.pwrLast
  try dsimp only
  repeat' first
    | with_reducible
      first
        | assumption | intro _ | apply Mach.memOk_reg | apply Mach.ite_memOk | apply Mach.ite_fst_memOk | apply Mach.wr_memOk | rfl
    | split
    | dsimp only

theorem Mach.pwrCancel_memOk {m : Mach} (h : m.memOk = true) (a0) : (Mach.pwrCancel m a0).memOk = true := by
  unfold Mach.pwrCancel
  try dsimp only
  repeat' first
    | with_reducible
      first
        | assumption | intro _ | apply Mach.memOk_reg | apply Mach.ite_memOk | apply Mach.ite_fst_memOk | apply Mach.pwrLast_memOk
        | apply Mach.forEach_memOk | apply Mach.setPwr_memOk | rfl
    | split
    | dsimp only

theorem Mach.pwrActive_memOk {m : Mach} (h : m.memOk = true) (a0) (a1) : (Mach.pwrActive m a0 a1).memOk = true := by
  unfold Mach.pwrActive
  try dsimp only
  repeat' first
    | with_reducible
      first
        | assumption | intro _ | apply Mach.memOk_reg | apply Mach.ite_memOk | apply Mach.ite_fst_memOk | apply Mach.forEach_memOk
        | apply Mach.pwrLast_memOk | apply Mach.pwrWake_memOk | rfl
    | split
    | dsimp only

theorem Mach.pwrRequest_memOk {m : Mach} (h : m.memOk = true) (a0) (a1) (a2) : (Mach.pwrRequest m a0 a1 a2).memOk = true := by
  unfold Mach.pwrRequest
  try dsimp only
  repeat' first
    | with_reducible
      first
        | assumption | intro _ | apply Mach.memOk_reg | apply Mach.ite_memOk | apply Mach.ite_fst_memOk | apply Mach.pwrLast_memOk
        | apply Mach.forEach_memOk | apply Mach.setPwr_memOk | rfl
    | split
    | dsimp only

theorem Mach.pwrCtl_memOk {m : Mach} (h : m.memOk = true) (a0) (a1) : (Mach.pwrCtl m a0 a1).memOk = true := by
  unfold Mach.pwrCtl
  try dsimp only
  repeat' first
    | with_reducible
      first
        | assumption | intro _ | apply Mach.memOk_reg | apply Mach.ite_memOk | apply Mach.ite_fst_memOk | apply Mach.wr_memOk
        | apply Mach.pwrCancel_memOk | apply Mach.pwrActive_memOk | apply Mach.pwrLast_memOk | apply Mach.pwrRequest_memOk | rfl
    | split
    | dsimp only

theorem Mach.sysWrite_memOk {m : Mach} (h : m.memOk = true) (a0) (a1) : (Mach.sysWrite m a0 a1).memOk = true := by
  unfold Mach.sysWrite
  try dsimp only
  repeat' first
    | with_reducible
      first
        | assumption | intro _ | apply Mach.memOk_reg | apply Mach.ite_memOk | apply Mach.ite_fst_memOk | apply Mach.when_memOk
        | apply Mach.wr_memOk | apply Mach.autoCancel_memOk | apply Mach.plainWrite_memOk | rfl
    | split
    | dsimp only

theorem Mach.chCfg_memOk {m : Mach} (h : m.memOk = true) (a0) (a1) : (Mach.chCfg m a0 a1).memOk = true := by
  unfold Mach.chCfg
  try dsimp only
  repeat' first
    | with_reducible
      first
        | assumption | intro _ | apply Mach.memOk_reg | apply Mach.ite_memOk | apply Mach.ite_fst_memOk | apply Mach.report_memOk
        | apply Mach.plainWrite_memOk | rfl
    | split
    | dsimp only

theorem Mach.serve_memOk {m : Mach} (h : m.memOk = true) (a0) (a1) (a2) (a3) : (Mach.serve m a0 a1 a2 a3).memOk = true := by
  unfold Mach.serve
  try dsimp only
  repeat' first
    | with_reducible
      first
        | assumption | intro _ | apply Mach.memOk_reg | apply Mach.ite_memOk | apply Mach.ite_fst_memOk | apply Mach.teMod_memOk
        | rfl
    | split
    | dsimp only

theorem Mach.chFlush_memOk {m : Mach} (h : m.memOk = true) (a0) : (Mach.chFlush m a0).memOk = true := by
  unfold Mach.chFlush
  try dsimp only
  repeat' first
    | with_reducible
      first
        | assumption | intro _ | apply Mach.memOk_reg | apply Mach.ite_memOk | apply Mach.ite_fst_memOk | apply Mach.chPut_memOk
        | apply Mach.when_memOk | apply Mach.count_memOk | apply Mach.forEach_memOk | apply Mach.serve_memOk | rfl
    | split
    | dsimp only

theorem Mach.chDrop_memOk {m : Mach} (h : m.memOk = true) (a0) : (Mach.chDrop m a0).memOk = true := by
  unfold Mach.chDrop
  try dsimp only
  repeat' first
    | with_reducible
      first
        | assumption | intro _ | apply Mach.memOk_reg | apply Mach.ite_memOk | apply Mach.ite_fst_memOk | apply Mach.count_memOk
        | apply Mach.chPut_memOk | rfl
    | split
    | dsimp only

theorem Mach.chCommand_memOk {m : Mach} (h : m.memOk = true) (a0) (a1) : (Mach.chCommand m a0 a1).memOk = true := by
  unfold Mach.chCommand
  try dsimp only
  repeat' first
    | with_reducible
      first
        | assumption | intro _ | apply Mach.memOk_reg | apply Mach.ite_memOk | apply Mach.ite_fst_memOk | apply Mach.when_memOk
        | apply Mach.chFlush_memOk | apply Mach.chDrop_memOk | rfl
    | split
    | dsimp only

theorem Mach.fqWrite_memOk {m : Mach} (h : m.memOk = true) (a0) (a1) : (Mach.fqWrite m a0 a1).memOk = true := by
  unfold Mach.fqWrite
  try dsimp only
  repeat' first
    | with_reducible
      first
        | assumption | intro _ | apply Mach.memOk_reg | apply Mach.ite_memOk | apply Mach.ite_fst_memOk
        | apply Mach.plainWrite_memOk | apply Mach.chCfg_memOk | apply Mach.chCommand_memOk | rfl
    | split
    | dsimp only

theorem Mach.modeWrite_memOk {m : Mach} (h : m.memOk = true) (a0) (a1) : (Mach.modeWrite m a0 a1).memOk = true := by
  unfold Mach.modeWrite
  try dsimp only
  repeat' first
    | with_reducible
      first
        | assumption | intro _ | apply Mach.memOk_reg | apply Mach.ite_memOk | apply Mach.ite_fst_memOk | apply Mach.wr_memOk | rfl
    | split
    | dsimp only

theorem Mach.staleCheck_memOk {m : Mach} (h : m.memOk = true) (a0) : (Mach.staleCheck m a0).memOk = true := by
  unfold Mach.staleCheck
  try dsimp only
  repeat' first
    | with_reducible
      first
        | assumption | intro _ | apply Mach.memOk_reg | apply Mach.ite_memOk | apply Mach.ite_fst_memOk | apply Mach.event_memOk
        | apply Mach.forEach_memOk | apply Mach.radioMod_memOk | rfl
    | split
    | dsimp only

theorem Mach.radioCtl_memOk {m : Mach} (h : m.memOk = true) (a0) (a1) : (Mach.radioCtl m a0 a1).memOk = true := by
  unfold Mach.radioCtl
  try dsimp only
  repeat' first
    | with_reducible
      first
        | assumption | intro _ | apply Mach.memOk_reg | apply Mach.ite_memOk | apply Mach.ite_fst_memOk
        | apply Mach.staleCheck_memOk | apply Mach.modeWrite_memOk | rfl
    | split
    | dsimp only

theorem Mach.chanStage_memOk {m : Mach} (h : m.memOk = true) (a0) (a1) : (Mach.chanStage m a0 a1).memOk = true := by
  unfold Mach.chanStage
  try dsimp only
  repeat' first
    | with_reducible
      first
        | assumption | intro _ | apply Mach.memOk_reg | apply Mach.ite_memOk | apply Mach.ite_fst_memOk | apply Mach.ignored_memOk
        | apply Mach.chanMark_memOk | apply Mach.plainWrite_memOk | rfl
    | split
    | dsimp only

theorem Mach.txValid_memOk {m : Mach} (h : m.memOk = true) (a0) : (Mach.txValid m a0).memOk = true := by
  unfold Mach.txValid
  try dsimp only
  repeat' first
    | with_reducible
      first
        | assumption | intro _ | apply Mach.memOk_reg | apply Mach.ite_memOk | apply Mach.ite_fst_memOk | apply Mach.setReg_memOk
        | rfl
    | split
    | dsimp only

theorem Mach.ovpwrClear_memOk {m : Mach} (h : m.memOk = true) (a0) (a1) : (Mach.ovpwrClear m a0 a1).memOk = true := by
  unfold Mach.ovpwrClear
  try dsimp only
  repeat' first
    | with_reducible
      first
        | assumption | intro _ | apply Mach.memOk_reg | apply Mach.ite_memOk | apply Mach.ite_fst_memOk | apply Mach.setReg_memOk
        | apply Mach.txValid_memOk | rfl
    | split
    | dsimp only

theorem Mach.rfWrite_memOk {m : Mach} (h : m.memOk = true) (a0) (a1) (a2) : (Mach.rfWrite m a0 a1 a2).memOk = true := by
  unfold Mach.rfWrite
  try dsimp only
  repeat' first
    | with_reducible
      first
        | assumption | intro _ | apply Mach.memOk_reg | apply Mach.ite_memOk | apply Mach.ite_fst_memOk | apply Mach.radioCtl_memOk
        | apply Mach.chanStage_memOk | apply Mach.ovpwrClear_memOk | apply Mach.plainWrite_memOk | rfl
    | split
    | dsimp only

theorem Mach.servingShow_memOk {m : Mach} (h : m.memOk = true) : (Mach.servingShow m).memOk = true := by
  unfold Mach.servingShow
  try dsimp only
  repeat' first
    | with_reducible
      first
        | assumption | intro _ | apply Mach.memOk_reg | apply Mach.ite_memOk | apply Mach.ite_fst_memOk | apply Mach.wr_memOk | rfl
    | split
    | dsimp only

theorem Mach.wmacWrite_memOk {m : Mach} (h : m.memOk = true) (a0) (a1) : (Mach.wmacWrite m a0 a1).memOk = true := by
  unfold Mach.wmacWrite
  try dsimp only
  repeat' first
    | with_reducible
      first
        | assumption | intro _ | apply Mach.memOk_reg | apply Mach.ite_memOk | apply Mach.ite_fst_memOk | apply Mach.report_memOk
        | apply Mach.plainWrite_memOk | apply Mach.servingShow_memOk | apply Mach.asStaged_memOk | apply Mach.ignored_memOk | rfl
    | split
    | dsimp only

theorem Mach.tbIncNs_memOk {m : Mach} (h : m.memOk = true) (a0) (a1) : (Mach.tbIncNs m a0 a1).memOk = true := by
  unfold Mach.tbIncNs
  try dsimp only
  repeat' first
    | with_reducible
      first
        | assumption | intro _ | apply Mach.memOk_reg | apply Mach.ite_memOk | apply Mach.ite_fst_memOk | apply Mach.setBase_memOk
        | rfl
    | split
    | dsimp only

theorem Mach.tbIncSet_memOk {m : Mach} (h : m.memOk = true) (a0) (a1) : (Mach.tbIncSet m a0 a1).memOk = true := by
  unfold Mach.tbIncSet
  try dsimp only
  repeat' first
    | with_reducible
      first
        | assumption | intro _ | apply Mach.memOk_reg | apply Mach.ite_memOk | apply Mach.ite_fst_memOk | apply Mach.setBase_memOk
        | apply Mach.ignored_memOk | rfl
    | split
    | dsimp only

theorem Mach.tbStep_memOk {m : Mach} (h : m.memOk = true) (a0) (a1) : (Mach.tbStep m a0 a1).memOk = true := by
  unfold Mach.tbStep
  try dsimp only
  repeat' first
    | with_reducible
      first
        | assumption | intro _ | apply Mach.memOk_reg | apply Mach.ite_memOk | apply Mach.ite_fst_memOk | apply Mach.refused_memOk
        | apply Mach.setBase_memOk | apply Mach.setReg_memOk | rfl
    | split
    | dsimp only

theorem Mach.tbSlewStart_memOk {m : Mach} (h : m.memOk = true) (a0) (a1) : (Mach.tbSlewStart m a0 a1).memOk = true := by
  unfold Mach.tbSlewStart
  try dsimp only
  repeat' first
    | with_reducible
      first
        | assumption | intro _ | apply Mach.memOk_reg | apply Mach.ite_memOk | apply Mach.ite_fst_memOk | apply Mach.setReg_memOk
        | apply Mach.ignored_memOk | rfl
    | split
    | dsimp only

theorem Mach.tbLoad_memOk {m : Mach} (h : m.memOk = true) (a0) : (Mach.tbLoad m a0).memOk = true := by
  unfold Mach.tbLoad
  try dsimp only
  repeat' first
    | with_reducible
      first
        | assumption | intro _ | apply Mach.memOk_reg | apply Mach.ite_memOk | apply Mach.ite_fst_memOk | apply Mach.refused_memOk
        | apply Mach.when_memOk | apply Mach.setBase_memOk | apply Mach.wr_memOk | rfl
    | split
    | dsimp only

theorem Mach.tbWrite_memOk {m : Mach} (h : m.memOk = true) (a0) (a1) (a2) : (Mach.tbWrite m a0 a1 a2).memOk = true := by
  unfold Mach.tbWrite
  try dsimp only
  repeat' first
    | with_reducible
      first
        | assumption | intro _ | apply Mach.memOk_reg | apply Mach.ite_memOk | apply Mach.ite_fst_memOk | apply Mach.tbIncNs_memOk
        | apply Mach.tbIncSet_memOk | apply Mach.tbStep_memOk | apply Mach.tbSlewStart_memOk | apply Mach.wr_memOk
        | apply Mach.tbLoad_memOk | apply Mach.plainWrite_memOk | rfl
    | split
    | dsimp only

theorem Mach.copyRefresh_memOk {m : Mach} (h : m.memOk = true) : (Mach.copyRefresh m).memOk = true := by
  unfold Mach.copyRefresh
  try dsimp only
  repeat' first
    | with_reducible
      first
        | assumption | intro _ | apply Mach.memOk_reg | apply Mach.ite_memOk | apply Mach.ite_fst_memOk | apply Mach.mradMod_memOk
        | rfl
    | split
    | dsimp only

theorem Mach.meshCal_memOk {m : Mach} (h : m.memOk = true) (a0) : (Mach.meshCal m a0).memOk = true := by
  unfold Mach.meshCal
  try dsimp only
  repeat' first
    | with_reducible
      first
        | assumption | intro _ | apply Mach.memOk_reg | apply Mach.ite_memOk | apply Mach.ite_fst_memOk | apply Mach.report_memOk
        | apply Mach.mradGo_memOk | apply Mach.mradMod_memOk | apply Mach.wr_memOk | rfl
    | split
    | dsimp only

theorem Mach.wakeWrite_memOk {m : Mach} (h : m.memOk = true) (a0) : (Mach.wakeWrite m a0).memOk = true := by
  unfold Mach.wakeWrite
  try dsimp only
  repeat' first
    | with_reducible
      first
        | assumption | intro _ | apply Mach.memOk_reg | apply Mach.ite_memOk | apply Mach.ite_fst_memOk | apply Mach.report_memOk
        | apply Mach.setReg_memOk | rfl
    | split
    | dsimp only

theorem Mach.mradRetune_memOk {m : Mach} (h : m.memOk = true) : (Mach.mradRetune m).memOk = true := by
  unfold Mach.mradRetune
  try dsimp only
  repeat' first
    | with_reducible
      first
        | assumption | intro _ | apply Mach.memOk_reg | apply Mach.ite_memOk | apply Mach.ite_fst_memOk | apply Mach.when_memOk
        | apply Mach.mradMod_memOk | apply Mach.wr_memOk | rfl
    | split
    | dsimp only

theorem Mach.mradRelax_memOk {m : Mach} (h : m.memOk = true) : (Mach.mradRelax m).memOk = true := by
  unfold Mach.mradRelax
  try dsimp only
  repeat' first
    | with_reducible
      first
        | assumption | intro _ | apply Mach.memOk_reg | apply Mach.ite_memOk | apply Mach.ite_fst_memOk | apply Mach.mradGo_memOk
        | rfl
    | split
    | dsimp only

theorem Mach.mshWrite_memOk {m : Mach} (h : m.memOk = true) (a0) (a1) : (Mach.mshWrite m a0 a1).memOk = true := by
  unfold Mach.mshWrite
  try dsimp only
  repeat' first
    | with_reducible
      first
        | assumption | intro _ | apply Mach.memOk_reg | apply Mach.ite_memOk | apply Mach.ite_fst_memOk | apply Mach.tbWrite_memOk
        | apply Mach.plainWrite_memOk | apply Mach.ignored_memOk | apply Mach.copyRefresh_memOk | apply Mach.wr_memOk
        | apply Mach.meshCal_memOk | apply Mach.wakeWrite_memOk | apply Mach.mradRetune_memOk | apply Mach.mradRelax_memOk | rfl
    | split
    | dsimp only

theorem Mach.tbRead_memOk {m : Mach} (h : m.memOk = true) (a0) : (Mach.tbRead m a0).memOk = true := by
  unfold Mach.tbRead
  try dsimp only
  repeat' first
    | with_reducible
      first
        | assumption | intro _ | apply Mach.memOk_reg | apply Mach.ite_memOk | apply Mach.ite_fst_memOk
        | apply Mach.setAnswer_memOk | apply Mach.setBase_memOk | rfl
    | split
    | dsimp only

theorem Mach.chkEnd_memOk {m : Mach} (h : m.memOk = true) (a0) (a1) (a2) : (Mach.chkEnd m a0 a1 a2).memOk = true := by
  unfold Mach.chkEnd
  try dsimp only
  repeat' first
    | with_reducible
      first
        | assumption | intro _ | apply Mach.memOk_reg | apply Mach.ite_memOk | apply Mach.ite_fst_memOk | apply Mach.wr_memOk
        | apply Mach.setReg_memOk | apply Mach.setReg64_memOk | apply Mach.event_memOk | apply Mach.sendEvent_memOk | rfl
    | split
    | dsimp only

theorem Mach.chkGo_memOk {m : Mach} (h : m.memOk = true) (a0) (a1) : (Mach.chkGo m a0 a1).memOk = true := by
  unfold Mach.chkGo
  try dsimp only
  repeat' first
    | with_reducible
      first
        | assumption | intro _ | apply Mach.memOk_reg | apply Mach.ite_memOk | apply Mach.ite_fst_memOk | apply Mach.setReg_memOk
        | apply Mach.wr_memOk | apply Mach.chkEnd_memOk | rfl
    | split
    | dsimp only

theorem Mach.chkWrite_memOk {m : Mach} (h : m.memOk = true) (a0) (a1) : (Mach.chkWrite m a0 a1).memOk = true := by
  unfold Mach.chkWrite
  try dsimp only
  repeat' first
    | with_reducible
      first
        | assumption | intro _ | apply Mach.memOk_reg | apply Mach.ite_memOk | apply Mach.ite_fst_memOk | apply Mach.chkGo_memOk
        | apply Mach.plainWrite_memOk | rfl
    | split
    | dsimp only

theorem Mach.fenceTest_memOk {m : Mach} (h : m.memOk = true) : (Mach.fenceTest m).memOk = true := by
  unfold Mach.fenceTest
  try dsimp only
  repeat' first
    | with_reducible
      first
        | assumption | intro _ | apply Mach.memOk_reg | apply Mach.ite_memOk | apply Mach.ite_fst_memOk | apply Mach.campSend_memOk
        | apply Mach.wr_memOk | apply Mach.chnMod_memOk | rfl
    | split
    | dsimp only

theorem Mach.ftest_memOk {m : Mach} (h : m.memOk = true) : (Mach.ftest m).memOk = true := by
  unfold Mach.ftest
  try dsimp only
  repeat' first
    | with_reducible
      first
        | assumption | intro _ | apply Mach.memOk_reg | apply Mach.ite_memOk | apply Mach.ite_fst_memOk
        | apply Mach.fenceTest_memOk | rfl
    | split
    | dsimp only

theorem Mach.pairShow_memOk {m : Mach} (h : m.memOk = true) (a0) : (Mach.pairShow m a0).memOk = true := by
  unfold Mach.pairShow
  try dsimp only
  repeat' first
    | with_reducible
      first
        | assumption | intro _ | apply Mach.memOk_reg | apply Mach.ite_memOk | apply Mach.ite_fst_memOk | apply Mach.wr_memOk | rfl
    | split
    | dsimp only

theorem Mach.pairCfg_memOk {m : Mach} (h : m.memOk = true) (a0) : (Mach.pairCfg m a0).memOk = true := by
  unfold Mach.pairCfg
  try dsimp only
  repeat' first
    | with_reducible
      first
        | assumption | intro _ | apply Mach.memOk_reg | apply Mach.ite_memOk | apply Mach.ite_fst_memOk
        | apply Mach.plainWrite_memOk | apply Mach.pairCheck_memOk | apply Mach.pairShow_memOk | rfl
    | split
    | dsimp only

theorem Mach.pnJump_memOk {m : Mach} (h : m.memOk = true) (a0) : (Mach.pnJump m a0).memOk = true := by
  unfold Mach.pnJump
  try dsimp only
  repeat' first
    | with_reducible
      first
        | assumption | intro _ | apply Mach.memOk_reg | apply Mach.ite_memOk | apply Mach.ite_fst_memOk | apply Mach.refused_memOk
        | apply Mach.plainWrite_memOk | rfl
    | split
    | dsimp only

theorem Mach.switch_memOk {m : Mach} (h : m.memOk = true) : (Mach.switch m).memOk = true := by
  unfold Mach.switch
  try dsimp only
  repeat' first
    | with_reducible
      first
        | assumption | intro _ | apply Mach.memOk_reg | apply Mach.ite_memOk | apply Mach.ite_fst_memOk | apply Mach.chnMod_memOk
        | apply Mach.event_memOk | rfl
    | split
    | dsimp only

theorem Mach.unfence_memOk {m : Mach} (h : m.memOk = true) : (Mach.unfence m).memOk = true := by
  unfold Mach.unfence
  try dsimp only
  repeat' first
    | with_reducible
      first
        | assumption | intro _ | apply Mach.memOk_reg | apply Mach.ite_memOk | apply Mach.ite_fst_memOk | apply Mach.wr_memOk | rfl
    | split
    | dsimp only

theorem Mach.chnWrite_memOk {m : Mach} (h : m.memOk = true) (a0) (a1) : (Mach.chnWrite m a0 a1).memOk = true := by
  unfold Mach.chnWrite
  try dsimp only
  repeat' first
    | with_reducible
      first
        | assumption | intro _ | apply Mach.memOk_reg | apply Mach.ite_memOk | apply Mach.ite_fst_memOk
        | apply Mach.plainWrite_memOk | apply Mach.when_memOk | apply Mach.ftest_memOk | apply Mach.switch_memOk
        | apply Mach.unfence_memOk | apply Mach.pnJump_memOk | apply Mach.pairCfg_memOk | rfl
    | split
    | dsimp only

theorem Mach.fltWrite_memOk {m : Mach} (h : m.memOk = true) (a0) (a1) : (Mach.fltWrite m a0 a1).memOk = true := by
  unfold Mach.fltWrite
  try dsimp only
  repeat' first
    | with_reducible
      first
        | assumption | intro _ | apply Mach.memOk_reg | apply Mach.ite_memOk | apply Mach.ite_fst_memOk | apply Mach.ignored_memOk
        | apply Mach.plainWrite_memOk | apply Mach.wr_memOk | apply Mach.ckRestore_memOk | rfl
    | split
    | dsimp only

theorem Mach.hifBase_memOk {m : Mach} (h : m.memOk = true) (a0) (a1) : (Mach.hifBase m a0 a1).memOk = true := by
  unfold Mach.hifBase
  try dsimp only
  repeat' first
    | with_reducible
      first
        | assumption | intro _ | apply Mach.memOk_reg | apply Mach.ite_memOk | apply Mach.ite_fst_memOk | apply Mach.ignored_memOk
        | apply Mach.plainWrite_memOk | rfl
    | split
    | dsimp only

theorem Mach.hifCtl_memOk {m : Mach} (h : m.memOk = true) (a0) : (Mach.hifCtl m a0).memOk = true := by
  unfold Mach.hifCtl
  try dsimp only
  repeat' first
    | with_reducible
      first
        | assumption | intro _ | apply Mach.memOk_reg | apply Mach.ite_memOk | apply Mach.ite_fst_memOk | apply Mach.wr_memOk
        | apply Mach.hifMod_memOk | rfl
    | split
    | dsimp only

theorem Mach.msixUnmask_memOk {m : Mach} (h : m.memOk = true) (a0) : (Mach.msixUnmask m a0).memOk = true := by
  unfold Mach.msixUnmask
  try dsimp only
  repeat' first
    | with_reducible
      first
        | assumption | intro _ | apply Mach.memOk_reg | apply Mach.ite_memOk | apply Mach.ite_fst_memOk | apply Mach.hifMod_memOk
        | apply Mach.msixSend_memOk | rfl
    | split
    | dsimp only

theorem Mach.msixWrite_memOk {m : Mach} (h : m.memOk = true) (a0) (a1) : (Mach.msixWrite m a0 a1).memOk = true := by
  unfold Mach.msixWrite
  try dsimp only
  repeat' first
    | with_reducible
      first
        | assumption | intro _ | apply Mach.memOk_reg | apply Mach.ite_memOk | apply Mach.ite_fst_memOk | apply Mach.hifMod_memOk
        | apply Mach.msixUnmask_memOk | rfl
    | split
    | dsimp only

theorem Mach.hifWrite_memOk {m : Mach} (h : m.memOk = true) (a0) (a1) : (Mach.hifWrite m a0 a1).memOk = true := by
  unfold Mach.hifWrite
  try dsimp only
  repeat' first
    | with_reducible
      first
        | assumption | intro _ | apply Mach.memOk_reg | apply Mach.ite_memOk | apply Mach.ite_fst_memOk
        | apply Mach.msixWrite_memOk | apply Mach.hifCtl_memOk | apply Mach.hifBase_memOk | apply Mach.plainWrite_memOk | rfl
    | split
    | dsimp only

theorem Mach.idStart_memOk {m : Mach} (h : m.memOk = true) (a0) : (Mach.idStart m a0).memOk = true := by
  unfold Mach.idStart
  try dsimp only
  repeat' first
    | with_reducible
      first
        | assumption | intro _ | apply Mach.memOk_reg | apply Mach.ite_memOk | apply Mach.ite_fst_memOk | apply Mach.busMod_memOk
        | apply Mach.idBegin_memOk | rfl
    | split
    | dsimp only

theorem Mach.idRescan_memOk {m : Mach} (h : m.memOk = true) (a0) : (Mach.idRescan m a0).memOk = true := by
  unfold Mach.idRescan
  try dsimp only
  repeat' first
    | with_reducible
      first
        | assumption | intro _ | apply Mach.memOk_reg | apply Mach.ite_memOk | apply Mach.ite_fst_memOk | apply Mach.idStart_memOk
        | apply Mach.wr_memOk | rfl
    | split
    | dsimp only

theorem Mach.idmWrite_memOk {m : Mach} (h : m.memOk = true) (a0) (a1) : (Mach.idmWrite m a0 a1).memOk = true := by
  unfold Mach.idmWrite
  try dsimp only
  repeat' first
    | with_reducible
      first
        | assumption | intro _ | apply Mach.memOk_reg | apply Mach.ite_memOk | apply Mach.ite_fst_memOk | apply Mach.when_memOk
        | apply Mach.wr_memOk | apply Mach.idRescan_memOk | apply Mach.plainWrite_memOk | rfl
    | split
    | dsimp only

theorem Mach.refCtlWrite_memOk {m : Mach} (h : m.memOk = true) (a0) : (Mach.refCtlWrite m a0).memOk = true := by
  unfold Mach.refCtlWrite
  try dsimp only
  repeat' first
    | with_reducible
      first
        | assumption | intro _ | apply Mach.memOk_reg | apply Mach.ite_memOk | apply Mach.ite_fst_memOk | apply Mach.ignored_memOk
        | apply Mach.plainWrite_memOk | rfl
    | split
    | dsimp only

theorem Mach.memWrite_memOk {m : Mach} (h : m.memOk = true) (a0) (a1) : (Mach.memWrite m a0 a1).memOk = true := by
  unfold Mach.memWrite
  try dsimp only
  repeat' first
    | with_reducible
      first
        | assumption | intro _ | apply Mach.memOk_reg | apply Mach.ite_memOk | apply Mach.ite_fst_memOk | apply Mach.when_memOk
        | apply Mach.plainWrite_memOk | apply Mach.memTrain_memOk | apply Mach.refCtlWrite_memOk | rfl
    | split
    | dsimp only

theorem Mach.copyTake_memOk {m : Mach} (h : m.memOk = true) : (Mach.copyTake m).memOk = true := by
  unfold Mach.copyTake
  try dsimp only
  repeat' first
    | with_reducible
      first
        | assumption | intro _ | apply Mach.memOk_reg | apply Mach.ite_memOk | apply Mach.ite_fst_memOk | apply Mach.mradMod_memOk
        | rfl
    | split
    | dsimp only

theorem Mach.nvmBytes_memOk {m : Mach} (h : m.memOk = true) (a0) (a1) : (Mach.nvmBytes m a0 a1).memOk = true := by
  revert h
  fun_induction Mach.nvmBytes m a0 a1
  all_goals try intro h
  all_goals try dsimp only
  all_goals
    repeat' first
      | with_reducible
        first
          | assumption | intro _ | apply Mach.memOk_reg | apply Mach.ite_memOk | apply Mach.ite_fst_memOk
          | apply Mach.nvmWrite_memOk | rfl | apply_assumption
      | split
      | dsimp only

theorem Mach.settingsLock_memOk {m : Mach} (h : m.memOk = true) : (Mach.settingsLock m).memOk = true := by
  unfold Mach.settingsLock
  try dsimp only
  repeat' first
    | with_reducible
      first
        | assumption | intro _ | apply Mach.memOk_reg | apply Mach.ite_memOk | apply Mach.ite_fst_memOk | apply Mach.event_memOk
        | apply Mach.nvmBytes_memOk | apply Mach.nvBytes_memOk | apply Mach.copyTake_memOk | apply Mach.wr_memOk | rfl
    | split
    | dsimp only

theorem Mach.lockKey_memOk {m : Mach} (h : m.memOk = true) (a0) : (Mach.lockKey m a0).memOk = true := by
  unfold Mach.lockKey
  try dsimp only
  repeat' first
    | with_reducible
      first
        | assumption | intro _ | apply Mach.memOk_reg | apply Mach.ite_memOk | apply Mach.ite_fst_memOk | apply Mach.nvmMod_memOk
        | apply Mach.settingsLock_memOk | rfl
    | split
    | dsimp only

theorem Mach.regShow_memOk {m : Mach} (h : m.memOk = true) : (Mach.regShow m).memOk = true := by
  unfold Mach.regShow
  try dsimp only
  repeat' first
    | with_reducible
      first
        | assumption | intro _ | apply Mach.memOk_reg | apply Mach.ite_memOk | apply Mach.ite_fst_memOk | apply Mach.wr_memOk | rfl
    | split
    | dsimp only

theorem Mach.regrecWrite_memOk {m : Mach} (h : m.memOk = true) (a0) (a1) : (Mach.regrecWrite m a0 a1).memOk = true := by
  unfold Mach.regrecWrite
  try dsimp only
  repeat' first
    | with_reducible
      first
        | assumption | intro _ | apply Mach.memOk_reg | apply Mach.ite_memOk | apply Mach.ite_fst_memOk | apply Mach.regShow_memOk
        | apply Mach.plainWrite_memOk | apply Mach.nvmBytes_memOk | apply Mach.copyTake_memOk | rfl
    | split
    | dsimp only

theorem Mach.nvmRegWrite_memOk {m : Mach} (h : m.memOk = true) (a0) (a1) : (Mach.nvmRegWrite m a0 a1).memOk = true := by
  unfold Mach.nvmRegWrite
  try dsimp only
  repeat' first
    | with_reducible
      first
        | assumption | intro _ | apply Mach.memOk_reg | apply Mach.ite_memOk | apply Mach.ite_fst_memOk | apply Mach.lockKey_memOk
        | apply Mach.regrecWrite_memOk | apply Mach.plainWrite_memOk | rfl
    | split
    | dsimp only

theorem Mach.rteWrite_memOk {m : Mach} (h : m.memOk = true) (a0) (a1) : (Mach.rteWrite m a0 a1).memOk = true := by
  unfold Mach.rteWrite
  try dsimp only
  repeat' first
    | with_reducible
      first
        | assumption | intro _ | apply Mach.memOk_reg | apply Mach.ite_memOk | apply Mach.ite_fst_memOk
        | apply Mach.plainWrite_memOk | apply Mach.asStaged_memOk | apply Mach.report_memOk | apply Mach.wr_memOk | rfl
    | split
    | dsimp only

theorem Mach.timCtl_memOk {m : Mach} (h : m.memOk = true) (a0) : (Mach.timCtl m a0).memOk = true := by
  unfold Mach.timCtl
  try dsimp only
  repeat' first
    | with_reducible
      first
        | assumption | intro _ | apply Mach.memOk_reg | apply Mach.ite_memOk | apply Mach.ite_fst_memOk | apply Mach.wr_memOk
        | apply Mach.refused_memOk | rfl
    | split
    | dsimp only

theorem Mach.timWrite_memOk {m : Mach} (h : m.memOk = true) (a0) (a1) : (Mach.timWrite m a0 a1).memOk = true := by
  unfold Mach.timWrite
  try dsimp only
  repeat' first
    | with_reducible
      first
        | assumption | intro _ | apply Mach.memOk_reg | apply Mach.ite_memOk | apply Mach.ite_fst_memOk | apply Mach.tbWrite_memOk
        | apply Mach.timCtl_memOk | apply Mach.when_memOk | apply Mach.wr_memOk | apply Mach.capture_memOk
        | apply Mach.guyCtl_memOk | apply Mach.plainWrite_memOk | rfl
    | split
    | dsimp only

theorem Mach.gclChange_memOk {m : Mach} (h : m.memOk = true) (a0) : (Mach.gclChange m a0).memOk = true := by
  unfold Mach.gclChange
  try dsimp only
  repeat' first
    | with_reducible
      first
        | assumption | intro _ | apply Mach.memOk_reg | apply Mach.ite_memOk | apply Mach.ite_fst_memOk | apply Mach.wr_memOk
        | apply Mach.portMod_memOk | rfl
    | split
    | dsimp only

theorem Mach.uplWrite_memOk {m : Mach} (h : m.memOk = true) (a0) (a1) : (Mach.uplWrite m a0 a1).memOk = true := by
  unfold Mach.uplWrite
  try dsimp only
  repeat' first
    | with_reducible
      first
        | assumption | intro _ | apply Mach.memOk_reg | apply Mach.ite_memOk | apply Mach.ite_fst_memOk
        | apply Mach.plainWrite_memOk | apply Mach.ignored_memOk | apply Mach.when_memOk | apply Mach.gclChange_memOk | rfl
    | split
    | dsimp only

theorem Mach.blockWrite_memOk {m : Mach} (h : m.memOk = true) (a0) (a1) (a2) (a3) : (Mach.blockWrite m a0 a1 a2 a3).memOk = true := by
  unfold Mach.blockWrite
  try dsimp only
  repeat' first
    | with_reducible
      first
        | assumption | intro _ | apply Mach.memOk_reg | apply Mach.ite_memOk | apply Mach.ite_fst_memOk | apply Mach.pwrCtl_memOk
        | apply Mach.setReg_memOk | apply Mach.plainWrite_memOk | apply Mach.sysWrite_memOk | apply Mach.armWrite_memOk
        | apply Mach.sendNamed_memOk | apply Mach.fqWrite_memOk | apply Mach.rfWrite_memOk | apply Mach.bbWrite_memOk
        | apply Mach.wmacWrite_memOk | apply Mach.aschWrite_memOk | apply Mach.uplWrite_memOk | apply Mach.rteWrite_memOk
        | apply Mach.memWrite_memOk | apply Mach.chkWrite_memOk | apply Mach.timWrite_memOk | apply Mach.hifWrite_memOk
        | apply Mach.chnWrite_memOk | apply Mach.fltWrite_memOk | apply Mach.nvmRegWrite_memOk | apply Mach.idmWrite_memOk
        | apply Mach.wr_memOk | apply Mach.mshWrite_memOk | rfl
    | split
    | dsimp only

theorem Mach.bridge_memOk {m : Mach} (h : m.memOk = true) (a0) (a1) (a2) : (Mach.bridge m a0 a1 a2).memOk = true := by
  unfold Mach.bridge
  try dsimp only
  repeat' first
    | with_reducible
      first
        | assumption | intro _ | apply Mach.memOk_reg | apply Mach.ite_memOk | apply Mach.ite_fst_memOk
        | apply Mach.setAnswer_memOk | apply Mach.wr_memOk | apply Mach.tbRead_memOk | apply Mach.blockWrite_memOk | rfl
    | split
    | dsimp only

theorem Mach.bootCheck_memOk {m : Mach} (h : m.memOk = true) (a0) : (Mach.bootCheck m a0).1.memOk = true := by
  unfold Mach.bootCheck
  try dsimp only
  repeat' first
    | with_reducible
      first
        | assumption | intro _ | apply Mach.memOk_reg | apply Mach.ite_memOk | apply Mach.ite_fst_memOk | apply Mach.nvBytes_memOk
        | rfl
    | split
    | dsimp only

theorem Mach.bootChoose_memOk {m : Mach} (h : m.memOk = true) : (Mach.bootChoose m).1.memOk = true := by
  unfold Mach.bootChoose
  try dsimp only
  repeat' first
    | with_reducible
      first
        | assumption | intro _ | apply Mach.memOk_reg | apply Mach.ite_memOk | apply Mach.ite_fst_memOk
        | apply Mach.bootCheck_memOk | rfl
    | split
    | dsimp only

theorem Mach.regWrite_memOk {m : Mach} (h : m.memOk = true) (a0) (a1) (a2) : (Mach.regWrite m a0 a1 a2).memOk = true := by
  unfold Mach.regWrite
  try dsimp only
  repeat' first
    | with_reducible
      first
        | assumption | intro _ | apply Mach.memOk_reg | apply Mach.ite_memOk | apply Mach.ite_fst_memOk
        | apply Mach.blockWrite_memOk | apply Mach.accessWake_memOk | rfl
    | split
    | dsimp only

theorem Mach.bootVerify_memOk {m : Mach} (h : m.memOk = true) (a0) : (Mach.bootVerify m a0).memOk = true := by
  unfold Mach.bootVerify
  try dsimp only
  repeat' first
    | with_reducible
      first
        | assumption | intro _ | apply Mach.memOk_reg | apply Mach.ite_memOk | apply Mach.ite_fst_memOk
        | apply Mach.bootChoose_memOk | apply Mach.wr_memOk | apply Mach.sysMod_memOk | apply Mach.forEach_memOk
        | apply Mach.regWrite_memOk | rfl
    | split
    | dsimp only

theorem Mach.busyReport_memOk {m : Mach} (h : m.memOk = true) (a0) (a1) (a2) : (Mach.busyReport m a0 a1 a2).memOk = true := by
  unfold Mach.busyReport
  try dsimp only
  repeat' first
    | with_reducible
      first
        | assumption | intro _ | apply Mach.memOk_reg | apply Mach.ite_memOk | apply Mach.ite_fst_memOk | apply Mach.sqMod_memOk
        | apply Mach.bbMod_memOk | apply Mach.busyShow_memOk | rfl
    | split
    | dsimp only

theorem Mach.calLeave_memOk {m : Mach} (h : m.memOk = true) (a0) : (Mach.calLeave m a0).memOk = true := by
  unfold Mach.calLeave
  try dsimp only
  repeat' first
    | with_reducible
      first
        | assumption | intro _ | apply Mach.memOk_reg | apply Mach.ite_memOk | apply Mach.ite_fst_memOk | apply Mach.wr_memOk
        | apply Mach.radioRelax_memOk | apply Mach.radioMod_memOk | rfl
    | split
    | dsimp only

theorem Mach.calMark_memOk {m : Mach} (h : m.memOk = true) (a0) (a1) : (Mach.calMark m a0 a1).memOk = true := by
  unfold Mach.calMark
  try dsimp only
  repeat' first
    | with_reducible
      first
        | assumption | intro _ | apply Mach.memOk_reg | apply Mach.ite_memOk | apply Mach.ite_fst_memOk | apply Mach.radioMod_memOk
        | apply Mach.wr_memOk | apply Mach.radioGo_memOk | apply Mach.calLeave_memOk | rfl
    | split
    | dsimp only

theorem Mach.calDone_memOk {m : Mach} (h : m.memOk = true) (a0) : (Mach.calDone m a0).memOk = true := by
  unfold Mach.calDone
  try dsimp only
  repeat' first
    | with_reducible
      first
        | assumption | intro _ | apply Mach.memOk_reg | apply Mach.ite_memOk | apply Mach.ite_fst_memOk | apply Mach.calMark_memOk
        | apply Mach.bbMod_memOk | apply Mach.wr_memOk | rfl
    | split
    | dsimp only

theorem Mach.calSkip_memOk {m : Mach} (h : m.memOk = true) (a0) : (Mach.calSkip m a0).memOk = true := by
  unfold Mach.calSkip
  try dsimp only
  repeat' first
    | with_reducible
      first
        | assumption | intro _ | apply Mach.memOk_reg | apply Mach.ite_memOk | apply Mach.ite_fst_memOk | apply Mach.forEach_memOk
        | apply Mach.count_memOk | apply Mach.radioMod_memOk | apply Mach.calSlotMark_memOk | apply Mach.calTry_memOk | rfl
    | split
    | dsimp only

theorem Mach.calSlot_memOk {m : Mach} (h : m.memOk = true) (a0) (a1) : (Mach.calSlot m a0 a1).memOk = true := by
  unfold Mach.calSlot
  try dsimp only
  repeat' first
    | with_reducible
      first
        | assumption | intro _ | apply Mach.memOk_reg | apply Mach.ite_memOk | apply Mach.ite_fst_memOk | apply Mach.calTry_memOk
        | apply Mach.radioMod_memOk | apply Mach.calSlotMark_memOk | rfl
    | split
    | dsimp only

end Sys2Proof.Machine
end

