-- ==== Sys2Proof/Laws/Canon3.lean ====
section
/-! SUPPORT. Every operation keeps the memories canonical (part 3 of 4, in the order in which one calls another). -/

namespace Sys2Proof.Machine

open Sys2Proof

set_option maxRecDepth 4000
set_option linter.unusedTactic false
set_option linter.unreachableTactic false

theorem Mach.campCollision_memOk {m : Mach} (h : m.memOk = true) (a0) : (Mach.campCollision m a0).memOk = true := by
  unfold Mach.campCollision
  try dsimp only
  repeat' first
    | with_reducible
      first
        | assumption | intro _ | apply Mach.memOk_reg | apply Mach.ite_memOk | apply Mach.ite_fst_memOk
        | apply Mach.drawBelow_memOk | apply Mach.count_memOk | apply Mach.chnMod_memOk | rfl
    | split
    | dsimp only

theorem Mach.cfgMismatch_memOk {m : Mach} (h : m.memOk = true) (a0) (a1) : (Mach.cfgMismatch m a0 a1).memOk = true := by
  unfold Mach.cfgMismatch
  try dsimp only
  repeat' first
    | with_reducible
      first
        | assumption | intro _ | apply Mach.memOk_reg | apply Mach.ite_memOk | apply Mach.ite_fst_memOk | apply Mach.event_memOk
        | apply Mach.wr_memOk | rfl
    | split
    | dsimp only

theorem Mach.campCommit_memOk {m : Mach} (h : m.memOk = true) (a0) : (Mach.campCommit m a0).memOk = true := by
  unfold Mach.campCommit
  try dsimp only
  repeat' first
    | with_reducible
      first
        | assumption | intro _ | apply Mach.memOk_reg | apply Mach.ite_memOk | apply Mach.ite_fst_memOk | apply Mach.chnMod_memOk
        | apply Mach.cfgMismatch_memOk | apply Mach.wr_memOk | rfl
    | split
    | dsimp only

theorem Mach.campDrop_memOk {m : Mach} (h : m.memOk = true) (a0) : (Mach.campDrop m a0).memOk = true := by
  unfold Mach.campDrop
  try dsimp only
  repeat' first
    | with_reducible
      first
        | assumption | intro _ | apply Mach.memOk_reg | apply Mach.ite_memOk | apply Mach.ite_fst_memOk | apply Mach.count_memOk
        | rfl
    | split
    | dsimp only

theorem Mach.campRetry_memOk {m : Mach} (h : m.memOk = true) (a0) : (Mach.campRetry m a0).memOk = true := by
  unfold Mach.campRetry
  try dsimp only
  repeat' first
    | with_reducible
      first
        | assumption | intro _ | apply Mach.memOk_reg | apply Mach.ite_memOk | apply Mach.ite_fst_memOk | apply Mach.chnMod_memOk
        | apply Mach.reachRun_memOk | rfl
    | split
    | dsimp only

theorem Mach.capturePin_memOk {m : Mach} (h : m.memOk = true) : (Mach.capturePin m).memOk = true := by
  unfold Mach.capturePin
  try dsimp only
  repeat' first
    | with_reducible
      first
        | assumption | intro _ | apply Mach.memOk_reg | apply Mach.ite_memOk | apply Mach.ite_fst_memOk | apply Mach.capture_memOk
        | rfl
    | split
    | dsimp only

theorem Mach.lkQueue_memOk {m : Mach} (h : m.memOk = true) (a0) (a1) (a2) (a3) : (Mach.lkQueue m a0 a1 a2 a3).memOk = true := by
  unfold Mach.lkQueue
  try dsimp only
  repeat' first
    | with_reducible
      first
        | assumption | intro _ | apply Mach.memOk_reg | apply Mach.ite_memOk | apply Mach.ite_fst_memOk | apply Mach.mlinkMod_memOk
        | rfl
    | split
    | dsimp only

theorem Mach.chTake_memOk {m : Mach} (h : m.memOk = true) (a0) (a1) (a2) : (Mach.chTake m a0 a1 a2).1.memOk = true := by
  unfold Mach.chTake
  try dsimp only
  repeat' first
    | with_reducible
      first
        | assumption | intro _ | apply Mach.memOk_reg | apply Mach.ite_memOk | apply Mach.ite_fst_memOk | apply Mach.chPut_memOk
        | rfl
    | split
    | dsimp only

theorem Mach.chDeliver_memOk {m : Mach} (h : m.memOk = true) (a0) (a1) : (Mach.chDeliver m a0 a1).1.memOk = true := by
  unfold Mach.chDeliver
  try dsimp only
  repeat' first
    | with_reducible
      first
        | assumption | intro _ | apply Mach.memOk_reg | apply Mach.ite_memOk | apply Mach.ite_fst_memOk | apply Mach.note_memOk
        | apply Mach.count_memOk | rfl
    | split
    | dsimp only

theorem Mach.chDelivers_memOk {m : Mach} (h : m.memOk = true) (a0) (a1) : (Mach.chDelivers m a0 a1).1.memOk = true := by
  revert h
  fun_induction Mach.chDelivers m a0 a1
  all_goals try intro h
  all_goals try dsimp only
  all_goals
    repeat' first
      | with_reducible
        first
          | assumption | intro _ | apply Mach.memOk_reg | apply Mach.ite_memOk | apply Mach.ite_fst_memOk
          | apply Mach.chDeliver_memOk | rfl | apply_assumption
      | split
      | dsimp only

theorem Mach.itemTake_memOk {m : Mach} (h : m.memOk = true) (a0) : (Mach.itemTake m a0).1.memOk = true := by
  unfold Mach.itemTake
  try dsimp only
  repeat' first
    | with_reducible
      first
        | assumption | intro _ | apply Mach.memOk_reg | apply Mach.ite_memOk | apply Mach.ite_fst_memOk | apply Mach.chTake_memOk
        | apply Mach.chDelivers_memOk | rfl
    | split
    | dsimp only

theorem Mach.mbEnd_memOk {m : Mach} (h : m.memOk = true) : (Mach.mbEnd m).memOk = true := by
  unfold Mach.mbEnd
  try dsimp only
  repeat' first
    | with_reducible
      first
        | assumption | intro _ | apply Mach.memOk_reg | apply Mach.ite_memOk | apply Mach.ite_fst_memOk | apply Mach.mlinkMod_memOk
        | apply Mach.itemTake_memOk | apply Mach.chFrom_memOk | rfl
    | split
    | dsimp only

theorem Mach.lgCommit_memOk {m : Mach} (h : m.memOk = true) : (Mach.lgCommit m).memOk = true := by
  unfold Mach.lgCommit
  try dsimp only
  repeat' first
    | with_reducible
      first
        | assumption | intro _ | apply Mach.memOk_reg | apply Mach.ite_memOk | apply Mach.ite_fst_memOk
        | apply Mach.logAppend_memOk | apply Mach.mlinkMod_memOk | rfl
    | split
    | dsimp only

theorem Mach.ccmRun_memOk {m : Mach} (h : m.memOk = true) (a0) (a1) (a2) (a3) : (Mach.ccmRun m a0 a1 a2 a3).memOk = true := by
  unfold Mach.ccmRun
  try dsimp only
  repeat' first
    | with_reducible
      first
        | assumption | intro _ | apply Mach.memOk_reg | apply Mach.ite_memOk | apply Mach.ite_fst_memOk | apply Mach.mlinkMod_memOk
        | apply Mach.lcMod_memOk | rfl
    | split
    | dsimp only

theorem Mach.portWrite_memOk {m : Mach} (h : m.memOk = true) (a0) (a1) : (Mach.portWrite m a0 a1).memOk = true := by
  unfold Mach.portWrite
  try dsimp only
  repeat' first
    | with_reducible
      first
        | assumption | intro _ | apply Mach.memOk_reg | apply Mach.ite_memOk | apply Mach.ite_fst_memOk | apply Mach.mlinkMod_memOk
        | apply Mach.lkQueue_memOk | apply Mach.mbEnd_memOk | apply Mach.lgCommit_memOk | apply Mach.ccmRun_memOk | rfl
    | split
    | dsimp only

theorem Mach.ccmCommand_memOk {m : Mach} (h : m.memOk = true) (a0) (a1) (a2) (a3) : (Mach.ccmCommand m a0 a1 a2 a3).memOk = true := by
  unfold Mach.ccmCommand
  try dsimp only
  repeat' first
    | with_reducible
      first
        | assumption | intro _ | apply Mach.memOk_reg | apply Mach.ite_memOk | apply Mach.ite_fst_memOk | apply Mach.when_memOk
        | apply Mach.portWrite_memOk | rfl
    | split
    | dsimp only

theorem Mach.ccmDone_memOk {m : Mach} (h : m.memOk = true) : (Mach.ccmDone m).memOk = true := by
  unfold Mach.ccmDone
  try dsimp only
  repeat' first
    | with_reducible
      first
        | assumption | intro _ | apply Mach.memOk_reg | apply Mach.ite_memOk | apply Mach.ite_fst_memOk | apply Mach.mlinkMod_memOk
        | rfl
    | split
    | dsimp only

theorem Mach.cfgInstall_memOk {m : Mach} (h : m.memOk = true) (a0) (a1) : (Mach.cfgInstall m a0 a1).memOk = true := by
  unfold Mach.cfgInstall
  try dsimp only
  repeat' first
    | with_reducible
      first
        | assumption | intro _ | apply Mach.memOk_reg | apply Mach.ite_memOk | apply Mach.ite_fst_memOk | apply Mach.cfgStage_memOk
        | apply Mach.forEach_memOk | apply Mach.stageMod_memOk | apply Mach.chnMod_memOk | rfl
    | split
    | dsimp only

theorem Mach.guyAnswer_memOk {m : Mach} (h : m.memOk = true) (a0) (a1) : (Mach.guyAnswer m a0 a1).memOk = true := by
  unfold Mach.guyAnswer
  try dsimp only
  repeat' first
    | with_reducible
      first
        | assumption | intro _ | apply Mach.memOk_reg | apply Mach.ite_memOk | apply Mach.ite_fst_memOk | apply Mach.guySend_memOk
        | apply Mach.count_memOk | rfl
    | split
    | dsimp only

theorem Mach.guyAck_memOk {m : Mach} (h : m.memOk = true) (a0) (a1) : (Mach.guyAck m a0 a1).memOk = true := by
  unfold Mach.guyAck
  try dsimp only
  repeat' first
    | with_reducible
      first
        | assumption | intro _ | apply Mach.memOk_reg | apply Mach.ite_memOk | apply Mach.ite_fst_memOk | apply Mach.chnMod_memOk
        | apply Mach.guyMod_memOk | rfl
    | split
    | dsimp only

theorem Mach.guyTake_memOk {m : Mach} (a0) (a1) (a2) (a3) (h : m.memOk = true) (ha3 : ∀ (x0 : Mach) x1, x0.memOk = true → (a3 x0
    x1).memOk = true) : (Mach.guyTake m a0 a1 a2 a3).memOk = true := by
  unfold Mach.guyTake
  try dsimp only
  repeat' first
    | with_reducible
      first
        | assumption | intro _ | apply Mach.memOk_reg | apply Mach.ite_memOk | apply Mach.ite_fst_memOk | apply ha3
        | apply Mach.guyAnswer_memOk | apply Mach.guyAck_memOk | apply Mach.guyMod_memOk | rfl
    | split
    | dsimp only

theorem Mach.snapInstall_memOk {m : Mach} (h : m.memOk = true) (a0) : (Mach.snapInstall m a0).memOk = true := by
  unfold Mach.snapInstall
  try dsimp only
  repeat' first
    | with_reducible
      first
        | assumption | intro _ | apply Mach.memOk_reg | apply Mach.ite_memOk | apply Mach.ite_fst_memOk | apply Mach.chnMod_memOk
        | apply Mach.sectionsPut_memOk | rfl
    | split
    | dsimp only

theorem Mach.cfgReceive_memOk {m : Mach} (h : m.memOk = true) (a0) (a1) : (Mach.cfgReceive m a0 a1).memOk = true := by
  unfold Mach.cfgReceive
  try dsimp only
  repeat' first
    | with_reducible
      first
        | assumption | intro _ | apply Mach.memOk_reg | apply Mach.ite_memOk | apply Mach.ite_fst_memOk | apply Mach.guyTake_memOk
        | apply Mach.cfgInstall_memOk | apply Mach.chnMod_memOk | apply Mach.armInstall_memOk | apply Mach.snapInstall_memOk | rfl
    | split
    | dsimp only

theorem Mach.chCtrl_memOk {m : Mach} (h : m.memOk = true) (a0) (a1) (a2) : (Mach.chCtrl m a0 a1 a2).memOk = true := by
  unfold Mach.chCtrl
  try dsimp only
  repeat' first
    | with_reducible
      first
        | assumption | intro _ | apply Mach.memOk_reg | apply Mach.ite_memOk | apply Mach.ite_fst_memOk | apply Mach.serve_memOk
        | apply Mach.chCommand_memOk | rfl
    | split
    | dsimp only

theorem Mach.dramWrites_memOk {m : Mach} (h : m.memOk = true) (a0) (a1) : (Mach.dramWrites m a0 a1).memOk = true := by
  revert h
  fun_induction Mach.dramWrites m a0 a1
  all_goals try intro h
  all_goals try dsimp only
  all_goals
    repeat' first
      | with_reducible
        first
          | assumption | intro _ | apply Mach.memOk_reg | apply Mach.ite_memOk | apply Mach.ite_fst_memOk
          | apply Mach.dramWrite_memOk | rfl | apply_assumption
      | split
      | dsimp only

theorem Mach.dramServe_memOk {m : Mach} (h : m.memOk = true) (a0) : (Mach.dramServe m a0).memOk = true := by
  unfold Mach.dramServe
  try dsimp only
  repeat' first
    | with_reducible
      first
        | assumption | intro _ | apply Mach.memOk_reg | apply Mach.ite_memOk | apply Mach.ite_fst_memOk
        | apply Mach.dramWrites_memOk | apply Mach.dramReads_memOk | apply Mach.memMod_memOk | rfl
    | split
    | dsimp only

theorem Mach.chanServe_memOk {m : Mach} (h : m.memOk = true) (a0) : (Mach.chanServe m a0).memOk = true := by
  unfold Mach.chanServe
  try dsimp only
  repeat' first
    | with_reducible
      first
        | assumption | intro _ | apply Mach.memOk_reg | apply Mach.ite_memOk | apply Mach.ite_fst_memOk | apply Mach.bankTake_memOk
        | apply Mach.memMod_memOk | apply Mach.dramServe_memOk | rfl
    | split
    | dsimp only

theorem Mach.chkWord_memOk {m : Mach} (h : m.memOk = true) (a0) (a1) : optOk (Mach.chkWord m a0 a1) := by
  unfold Mach.chkWord
  try dsimp only
  repeat' first
    | with_reducible
      first
        | assumption | apply optOk_none | apply optOk_some | apply optOk_ite | apply Mach.memOk_reg | apply Mach.ite_memOk
        | apply Mach.ite_fst_memOk | apply Mach.dramRead_memOk | apply Mach.sramRead_memOk | apply Mach.nvmRead_memOk | rfl
    | split
    | dsimp only

theorem Mach.chkScan_memOk (s a n acc k) {m : Mach} (h : m.memOk = true) : (Mach.chkScan s a n acc k m).1.memOk = true := by
  induction k generalizing m a n acc with
  | zero => exact h
  | succ k ih =>
    unfold Mach.chkScan
    split
    · exact h
    · split
      · exact h
      · rename_i x r he
        have hx : x.memOk = true := Mach.chkWord_memOk h _ _ _ he
        split
        · exact hx
        · exact ih _ _ _ hx

theorem Mach.chkRead_memOk {m : Mach} (h : m.memOk = true) (a0) (a1) (a2) : (Mach.chkRead m a0 a1 a2).1.memOk = true := by
  unfold Mach.chkRead
  dsimp only
  split
  · exact h
  · exact Mach.chkScan_memOk _ _ _ _ _ h

theorem Mach.chkAbort_memOk {m : Mach} (h : m.memOk = true) (a0) (a1) (a2) : (Mach.chkAbort m a0 a1 a2).memOk = true := by
  unfold Mach.chkAbort
  try dsimp only
  repeat' first
    | with_reducible
      first
        | assumption | intro _ | apply Mach.memOk_reg | apply Mach.ite_memOk | apply Mach.ite_fst_memOk | apply Mach.chkRead_memOk
        | apply Mach.chkEnd_memOk | rfl
    | split
    | dsimp only

theorem Mach.chkDone_memOk {m : Mach} (h : m.memOk = true) (a0) (a1) : (Mach.chkDone m a0 a1).memOk = true := by
  unfold Mach.chkDone
  try dsimp only
  repeat' first
    | with_reducible
      first
        | assumption | intro _ | apply Mach.memOk_reg | apply Mach.ite_memOk | apply Mach.ite_fst_memOk | apply Mach.chkRead_memOk
        | apply Mach.chkEnd_memOk | rfl
    | split
    | dsimp only

theorem Mach.ckAbandon_memOk {m : Mach} (h : m.memOk = true) : (Mach.ckAbandon m).memOk = true := by
  unfold Mach.ckAbandon
  try dsimp only
  repeat' first
    | with_reducible
      first
        | assumption | intro _ | apply Mach.memOk_reg | apply Mach.ite_memOk | apply Mach.ite_fst_memOk | apply Mach.event_memOk
        | apply Mach.wr_memOk | apply Mach.count_memOk | apply Mach.fltMod_memOk | rfl
    | split
    | dsimp only

theorem Mach.ckCapture_memOk {m : Mach} (h : m.memOk = true) : (Mach.ckCapture m).memOk = true := by
  unfold Mach.ckCapture
  try dsimp only
  repeat' first
    | with_reducible
      first
        | assumption | intro _ | apply Mach.memOk_reg | apply Mach.ite_memOk | apply Mach.ite_fst_memOk
        | apply Mach.ckAbandon_memOk | apply Mach.ckNewest_memOk | apply Mach.wr_memOk | apply Mach.fltMod_memOk | rfl
    | split
    | dsimp only

theorem Mach.ckDone_memOk {m : Mach} (h : m.memOk = true) : (Mach.ckDone m).memOk = true := by
  unfold Mach.ckDone
  try dsimp only
  repeat' first
    | with_reducible
      first
        | assumption | intro _ | apply Mach.memOk_reg | apply Mach.ite_memOk | apply Mach.ite_fst_memOk | apply Mach.nvmBytes_memOk
        | apply Mach.fltMod_memOk | apply Mach.wr_memOk | apply Mach.setReg64_memOk | apply Mach.forEach_memOk
        | apply Mach.setKeyE_memOk | apply Mach.event_memOk | rfl
    | split
    | dsimp only

theorem Mach.cmdTake_memOk {m : Mach} (h : m.memOk = true) (a0) (a1) (a2) : (Mach.cmdTake m a0 a1 a2).memOk = true := by
  unfold Mach.cmdTake
  try dsimp only
  repeat' first
    | with_reducible
      first
        | assumption | intro _ | apply Mach.memOk_reg | apply Mach.ite_memOk | apply Mach.ite_fst_memOk | apply Mach.journal_memOk
        | apply Mach.ringMod_memOk | apply Mach.cmdPump_memOk | apply Mach.setCmds_memOk | rfl
    | split
    | dsimp only

theorem Mach.cmdArrive_memOk {m : Mach} (h : m.memOk = true) (a0) (a1) (a2) (a3) (a4) : (Mach.cmdArrive m a0 a1 a2 a3 a4).memOk = true := by
  unfold Mach.cmdArrive
  try dsimp only
  repeat' first
    | with_reducible
      first
        | assumption | intro _ | apply Mach.memOk_reg | apply Mach.ite_memOk | apply Mach.ite_fst_memOk | apply Mach.cmdTake_memOk
        | rfl
    | split
    | dsimp only

theorem Mach.codewordDone_memOk {m : Mach} (h : m.memOk = true) (a0) (a1) (a2) (a3) (a4) (a5) : (Mach.codewordDone m a0 a1 a2 a3
    a4 a5).memOk = true := by
  unfold Mach.codewordDone
  try dsimp only
  repeat' first
    | with_reducible
      first
        | assumption | intro _ | apply Mach.memOk_reg | apply Mach.ite_memOk | apply Mach.ite_fst_memOk | apply Mach.setRx_memOk
        | apply Mach.bbMod_memOk | apply Mach.rxDeliver_memOk | rfl
    | split
    | dsimp only

theorem Mach.recTake_memOk {m : Mach} (h : m.memOk = true) (a0) (a1) : (Mach.recTake m a0 a1).memOk = true := by
  unfold Mach.recTake
  try dsimp only
  repeat' first
    | with_reducible
      first
        | assumption | intro _ | apply Mach.memOk_reg | apply Mach.ite_memOk | apply Mach.ite_fst_memOk | apply Mach.chnMod_memOk
        | apply Mach.setKeyE_memOk | apply Mach.wmacMod_memOk | apply Mach.staPut_memOk | apply Mach.baPut_memOk
        | apply Mach.setQueue_memOk | apply Mach.setShaper_memOk | apply Mach.setPolicer_memOk | apply Mach.setWpol_memOk | rfl
    | split
    | dsimp only

theorem Mach.recWord_memOk {m : Mach} (h : m.memOk = true) (a0) : (Mach.recWord m a0).memOk = true := by
  unfold Mach.recWord
  try dsimp only
  repeat' first
    | with_reducible
      first
        | assumption | intro _ | apply Mach.memOk_reg | apply Mach.ite_memOk | apply Mach.ite_fst_memOk | apply Mach.chnMod_memOk
        | apply Mach.recTake_memOk | rfl
    | split
    | dsimp only

theorem Mach.recWords_memOk {m : Mach} (h : m.memOk = true) (a0) : (Mach.recWords m a0).memOk = true := by
  unfold Mach.recWords
  try dsimp only
  repeat' first
    | with_reducible
      first
        | assumption | intro _ | apply Mach.memOk_reg | apply Mach.ite_memOk | apply Mach.ite_fst_memOk | apply Mach.forEach_memOk
        | apply Mach.recWord_memOk | rfl
    | split
    | dsimp only

theorem Mach.commitReceive_memOk {m : Mach} (h : m.memOk = true) (a0) (a1) : (Mach.commitReceive m a0 a1).memOk = true := by
  unfold Mach.commitReceive
  try dsimp only
  repeat' first
    | with_reducible
      first
        | assumption | intro _ | apply Mach.memOk_reg | apply Mach.ite_memOk | apply Mach.ite_fst_memOk | apply Mach.guyTake_memOk
        | apply Mach.recWords_memOk | rfl
    | split
    | dsimp only

theorem Mach.copyRepair_memOk {m : Mach} (h : m.memOk = true) : (Mach.copyRepair m).memOk = true := by
  unfold Mach.copyRepair
  try dsimp only
  repeat' first
    | with_reducible
      first
        | assumption | intro _ | apply Mach.memOk_reg | apply Mach.ite_memOk | apply Mach.ite_fst_memOk | apply Mach.copyTake_memOk
        | rfl
    | split
    | dsimp only

theorem Mach.d0Return_memOk {m : Mach} (h : m.memOk = true) : (Mach.d0Return m).memOk = true := by
  unfold Mach.d0Return
  try dsimp only
  repeat' first
    | with_reducible
      first
        | assumption | intro _ | apply Mach.memOk_reg | apply Mach.ite_memOk | apply Mach.ite_fst_memOk | apply Mach.wr_memOk | rfl
    | split
    | dsimp only

theorem Mach.d3Enter_memOk {m : Mach} (h : m.memOk = true) : (Mach.d3Enter m).memOk = true := by
  unfold Mach.d3Enter
  try dsimp only
  repeat' first
    | with_reducible
      first
        | assumption | intro _ | apply Mach.memOk_reg | apply Mach.ite_memOk | apply Mach.ite_fst_memOk | apply Mach.wr_memOk | rfl
    | split
    | dsimp only

theorem Mach.owesAck_memOk {m : Mach} (h : m.memOk = true) (a0) : (Mach.owesAck m a0).memOk = true := by
  unfold Mach.owesAck
  try dsimp only
  repeat' first
    | with_reducible
      first
        | assumption | intro _ | apply Mach.memOk_reg | apply Mach.ite_memOk | apply Mach.ite_fst_memOk | apply Mach.mlinkMod_memOk
        | rfl
    | split
    | dsimp only

theorem Mach.meshDeliverMsg_memOk {m : Mach} (h : m.memOk = true) (a0) : (Mach.meshDeliverMsg m a0).memOk = true := by
  unfold Mach.meshDeliverMsg
  try dsimp only
  repeat' first
    | with_reducible
      first
        | assumption | intro _ | apply Mach.memOk_reg | apply Mach.ite_memOk | apply Mach.ite_fst_memOk | apply Mach.mboxPost_memOk
        | rfl
    | split
    | dsimp only

theorem Mach.dataReceive_memOk {m : Mach} (h : m.memOk = true) : (Mach.dataReceive m).memOk = true := by
  unfold Mach.dataReceive
  try dsimp only
  repeat' first
    | with_reducible
      first
        | assumption | intro _ | apply Mach.memOk_reg | apply Mach.ite_memOk | apply Mach.ite_fst_memOk | apply Mach.linkTake_memOk
        | apply Mach.owesAck_memOk | apply Mach.meshDeliverMsg_memOk | rfl
    | split
    | dsimp only

theorem Mach.debtSeen_memOk {m : Mach} (h : m.memOk = true) (a0) : (Mach.debtSeen m a0).memOk = true := by
  unfold Mach.debtSeen
  try dsimp only
  repeat' first
    | with_reducible
      first
        | assumption | intro _ | apply Mach.memOk_reg | apply Mach.ite_memOk | apply Mach.ite_fst_memOk | apply Mach.wr_memOk | rfl
    | split
    | dsimp only

theorem Mach.diagWord_memOk {m : Mach} (h : m.memOk = true) (a0) : (Mach.diagWord m a0).1.memOk = true := by
  unfold Mach.diagWord
  try dsimp only
  repeat' first
    | with_reducible
      first
        | assumption | intro _ | apply Mach.memOk_reg | apply Mach.ite_memOk | apply Mach.ite_fst_memOk | apply Mach.dramRead_memOk
        | apply Mach.sramRead_memOk | apply Mach.nvmRead_memOk | rfl
    | split
    | dsimp only

theorem Mach.diagRead_memOk {m : Mach} (h : m.memOk = true) (a0) : (Mach.diagRead m a0).memOk = true := by
  unfold Mach.diagRead
  try dsimp only
  repeat' first
    | with_reducible
      first
        | assumption | intro _ | apply Mach.memOk_reg | apply Mach.ite_memOk | apply Mach.ite_fst_memOk | apply Mach.diagWord_memOk
        | apply Mach.hifMod_memOk | apply Mach.setAnswer_memOk | apply Mach.count_memOk | apply Mach.freeVal_memOk | rfl
    | split
    | dsimp only

theorem Mach.diagWrite_memOk {m : Mach} (h : m.memOk = true) (a0) (a1) : (Mach.diagWrite m a0 a1).memOk = true := by
  unfold Mach.diagWrite
  try dsimp only
  repeat' first
    | with_reducible
      first
        | assumption | intro _ | apply Mach.memOk_reg | apply Mach.ite_memOk | apply Mach.ite_fst_memOk | apply Mach.count_memOk
        | apply Mach.diagWord_memOk | apply Mach.dramWrite_memOk | apply Mach.sramWrite_memOk | rfl
    | split
    | dsimp only

theorem Mach.rpSeqTake_memOk {m : Mach} (h : m.memOk = true) (a0) (a1) : (Mach.rpSeqTake m a0 a1).2.memOk = true := by
  unfold Mach.rpSeqTake
  try dsimp only
  repeat' first
    | with_reducible
      first
        | assumption | intro _ | apply Mach.memOk_reg | apply Mach.ite_memOk | apply Mach.ite_fst_memOk | apply Mach.sysMod_memOk
        | rfl
    | split
    | dsimp only

theorem Mach.startAcc_memOk {m : Mach} (h : m.memOk = true) (a0) (a1) (a2) (a3) (a4) (a5) (a6) (a7) (a8) (a9) : (Mach.startAcc m
    a0 a1 a2 a3 a4 a5 a6 a7 a8 a9).memOk = true := by
  unfold Mach.startAcc
  try dsimp only
  repeat' first
    | with_reducible
      first
        | assumption | intro _ | apply Mach.memOk_reg | apply Mach.ite_memOk | apply Mach.ite_fst_memOk | apply Mach.dspMod_memOk
        | apply Mach.teMod_memOk | apply Mach.rpSeqTake_memOk | rfl
    | split
    | dsimp only

theorem Mach.reissue_memOk {m : Mach} (h : m.memOk = true) (a0) (a1) (a2) : (Mach.reissue m a0 a1 a2).memOk = true := by
  unfold Mach.reissue
  try dsimp only
  repeat' first
    | with_reducible
      first
        | assumption | intro _ | apply Mach.memOk_reg | apply Mach.ite_memOk | apply Mach.ite_fst_memOk | apply Mach.setTe_memOk
        | apply Mach.sendEvent_memOk | apply Mach.teMod_memOk | apply Mach.startAcc_memOk | apply Mach.rpSeqTake_memOk | rfl
    | split
    | dsimp only

theorem Mach.startReplay_memOk {m : Mach} (h : m.memOk = true) (a0) (a1) : (Mach.startReplay m a0 a1).memOk = true := by
  unfold Mach.startReplay
  try dsimp only
  repeat' first
    | with_reducible
      first
        | assumption | intro _ | apply Mach.memOk_reg | apply Mach.ite_memOk | apply Mach.ite_fst_memOk | apply Mach.dspMod_memOk
        | apply Mach.teMod_memOk | apply Mach.forEach_memOk | apply Mach.reissue_memOk | apply Mach.raiseDz_memOk
        | apply Mach.settle_memOk | rfl
    | split
    | dsimp only

theorem Mach.dispatchIdle_memOk {m : Mach} (h : m.memOk = true) (a0) : (Mach.dispatchIdle m a0).memOk = true := by
  unfold Mach.dispatchIdle
  try dsimp only
  repeat' first
    | with_reducible
      first
        | assumption | intro _ | apply Mach.memOk_reg | apply Mach.ite_memOk | apply Mach.ite_fst_memOk | apply Mach.teMod_memOk
        | apply Mach.startReplay_memOk | apply Mach.dspMod_memOk | rfl
    | split
    | dsimp only

theorem Mach.dispatch_memOk {m : Mach} (h : m.memOk = true) (a0) : (Mach.dispatch m a0).memOk = true := by
  unfold Mach.dispatch
  try dsimp only
  repeat' first
    | with_reducible
      first
        | assumption | intro _ | apply Mach.memOk_reg | apply Mach.ite_memOk | apply Mach.ite_fst_memOk
        | apply Mach.dispatchIdle_memOk | apply Mach.settle_memOk | rfl
    | split
    | dsimp only

theorem Mach.blockDiverted_memOk {m : Mach} (h : m.memOk = true) (a0) (a1) : (Mach.blockDiverted m a0 a1).memOk = true := by
  unfold Mach.blockDiverted
  try dsimp only
  repeat' first
    | with_reducible
      first
        | assumption | intro _ | apply Mach.memOk_reg | apply Mach.ite_memOk | apply Mach.ite_fst_memOk | apply Mach.when_memOk
        | apply Mach.count_memOk | apply Mach.sysMod_memOk | apply Mach.faultRecord_memOk | rfl
    | split
    | dsimp only

theorem Mach.teDiverted_memOk {m : Mach} (h : m.memOk = true) (a0) : (Mach.teDiverted m a0).memOk = true := by
  unfold Mach.teDiverted
  try dsimp only
  repeat' first
    | with_reducible
      first
        | assumption | intro _ | apply Mach.memOk_reg | apply Mach.ite_memOk | apply Mach.ite_fst_memOk | apply Mach.raise_memOk
        | rfl
    | split
    | dsimp only

theorem Mach.sourceDiverted_memOk {m : Mach} (h : m.memOk = true) (a0) : (Mach.sourceDiverted m a0).memOk = true := by
  unfold Mach.sourceDiverted
  try dsimp only
  repeat' first
    | with_reducible
      first
        | assumption | intro _ | apply Mach.memOk_reg | apply Mach.ite_memOk | apply Mach.ite_fst_memOk
        | apply Mach.teDiverted_memOk | apply Mach.blockDiverted_memOk | rfl
    | split
    | dsimp only

theorem Mach.divert_memOk {m : Mach} (h : m.memOk = true) (a0) : (Mach.divert m a0).memOk = true := by
  unfold Mach.divert
  try dsimp only
  repeat' first
    | with_reducible
      first
        | assumption | intro _ | apply Mach.memOk_reg | apply Mach.ite_memOk | apply Mach.ite_fst_memOk | apply Mach.event_memOk
        | apply Mach.faultRecord_memOk | apply Mach.wr_memOk | apply Mach.count_memOk | apply Mach.sysMod_memOk
        | apply Mach.sourceDiverted_memOk | rfl
    | split
    | dsimp only

theorem Mach.frameLet_memOk {m : Mach} (h : m.memOk = true) (a0) : (Mach.frameLet m a0).memOk = true := by
  unfold Mach.frameLet
  try dsimp only
  repeat' first
    | with_reducible
      first
        | assumption | intro _ | apply Mach.memOk_reg | apply Mach.ite_memOk | apply Mach.ite_fst_memOk | apply Mach.consume_memOk
        | rfl
    | split
    | dsimp only

theorem Mach.dropHeld_memOk {m : Mach} (h : m.memOk = true) (a0) : (Mach.dropHeld m a0).memOk = true := by
  unfold Mach.dropHeld
  try dsimp only
  repeat' first
    | with_reducible
      first
        | assumption | intro _ | apply Mach.memOk_reg | apply Mach.ite_memOk | apply Mach.ite_fst_memOk | apply Mach.hifMod_memOk
        | apply Mach.forEach_memOk | apply Mach.count_memOk | apply Mach.frameLet_memOk | rfl
    | split
    | dsimp only

theorem Mach.ringRetire_memOk {m : Mach} (h : m.memOk = true) (a0) : (Mach.ringRetire m a0).memOk = true := by
  unfold Mach.ringRetire
  try dsimp only
  repeat' first
    | with_reducible
      first
        | assumption | intro _ | apply Mach.memOk_reg | apply Mach.ite_memOk | apply Mach.ite_fst_memOk | apply Mach.forEach_memOk
        | apply Mach.setCmds_memOk | apply Mach.cmdDone_memOk | apply Mach.ringMod_memOk | apply Mach.dropHeld_memOk | rfl
    | split
    | dsimp only

theorem Mach.ringBreak_memOk {m : Mach} (h : m.memOk = true) (a0) : (Mach.ringBreak m a0).memOk = true := by
  unfold Mach.ringBreak
  try dsimp only
  repeat' first
    | with_reducible
      first
        | assumption | intro _ | apply Mach.memOk_reg | apply Mach.ite_memOk | apply Mach.ite_fst_memOk | apply Mach.forEach_memOk
        | apply Mach.setCmds_memOk | apply Mach.cmdDone_memOk | apply Mach.ringFault_memOk | rfl
    | split
    | dsimp only

theorem Mach.slotTake_memOk {m : Mach} (h : m.memOk = true) (a0) (a1) (a2) (a3) : (Mach.slotTake m a0 a1 a2 a3).memOk = true := by
  unfold Mach.slotTake
  try dsimp only
  repeat' first
    | with_reducible
      first
        | assumption | intro _ | apply Mach.memOk_reg | apply Mach.ite_memOk | apply Mach.ite_fst_memOk
        | apply Mach.ringRetire_memOk | apply Mach.count_memOk | apply Mach.notice_memOk | apply Mach.hifMod_memOk
        | apply Mach.setRing_memOk | apply Mach.ringBreak_memOk | rfl
    | split
    | dsimp only

theorem Mach.storePump_memOk {m : Mach} (h : m.memOk = true) : (Mach.storePump m).memOk = true := by
  unfold Mach.storePump
  try dsimp only
  repeat' first
    | with_reducible
      first
        | assumption | intro _ | apply Mach.memOk_reg | apply Mach.ite_memOk | apply Mach.ite_fst_memOk | apply Mach.forEach_memOk
        | apply Mach.hifMod_memOk | apply Mach.writeEvent_memOk | rfl
    | split
    | dsimp only

theorem Mach.doorbellDone_memOk {m : Mach} (h : m.memOk = true) (a0) (a1) : (Mach.doorbellDone m a0 a1).memOk = true := by
  unfold Mach.doorbellDone
  try dsimp only
  repeat' first
    | with_reducible
      first
        | assumption | intro _ | apply Mach.memOk_reg | apply Mach.ite_memOk | apply Mach.ite_fst_memOk | apply Mach.hifMod_memOk
        | apply Mach.count_memOk | apply Mach.forEach_memOk | apply Mach.ringAdopt_memOk | apply Mach.slotTake_memOk
        | apply Mach.storePump_memOk | rfl
    | split
    | dsimp only

theorem Mach.doorbellError_memOk {m : Mach} (h : m.memOk = true) (a0) (a1) : (Mach.doorbellError m a0 a1).memOk = true := by
  unfold Mach.doorbellError
  try dsimp only
  repeat' first
    | with_reducible
      first
        | assumption | intro _ | apply Mach.memOk_reg | apply Mach.ite_memOk | apply Mach.ite_fst_memOk | apply Mach.event_memOk
        | apply Mach.count_memOk | apply Mach.hifMod_memOk | rfl
    | split
    | dsimp only

theorem Mach.ownSeq_memOk {m : Mach} (h : m.memOk = true) : (Mach.ownSeq m).2.memOk = true := by
  unfold Mach.ownSeq
  try dsimp only
  repeat' first
    | with_reducible
      first
        | assumption | intro _ | apply Mach.memOk_reg | apply Mach.ite_memOk | apply Mach.ite_fst_memOk | apply Mach.mlinkMod_memOk
        | rfl
    | split
    | dsimp only

theorem Mach.sendResync_memOk {m : Mach} (h : m.memOk = true) (a0) (a1) (a2) : (Mach.sendResync m a0 a1 a2).memOk = true := by
  unfold Mach.sendResync
  try dsimp only
  repeat' first
    | with_reducible
      first
        | assumption | intro _ | apply Mach.memOk_reg | apply Mach.ite_memOk | apply Mach.ite_fst_memOk | apply Mach.ownSeq_memOk
        | apply Mach.linkSend_memOk | rfl
    | split
    | dsimp only

theorem Mach.floorSend_memOk {m : Mach} (h : m.memOk = true) (a0) (a1) : (Mach.floorSend m a0 a1).memOk = true := by
  unfold Mach.floorSend
  try dsimp only
  repeat' first
    | with_reducible
      first
        | assumption | intro _ | apply Mach.memOk_reg | apply Mach.ite_memOk | apply Mach.ite_fst_memOk
        | apply Mach.sendResync_memOk | apply Mach.mlinkMod_memOk | rfl
    | split
    | dsimp only

theorem Mach.downSlot_memOk {m : Mach} (h : m.memOk = true) (a0) (a1) : (Mach.downSlot m a0 a1).memOk = true := by
  unfold Mach.downSlot
  try dsimp only
  repeat' first
    | with_reducible
      first
        | assumption | intro _ | apply Mach.memOk_reg | apply Mach.ite_memOk | apply Mach.ite_fst_memOk | apply Mach.mlinkMod_memOk
        | apply Mach.forEach_memOk | apply Mach.linkSend_memOk | apply Mach.floorSend_memOk | rfl
    | split
    | dsimp only

theorem Mach.dramBytes_memOk (k : Nat) {m : Mach} (h : m.memOk = true) (a0) (a1) : (Mach.dramBytes k m a0 a1).memOk = true := by
  induction k generalizing m a0 a1 with
  | zero => exact h
  | succ k ih =>
    unfold Mach.dramBytes
    split
    · exact h
    · dsimp only
      split
      · exact ih (Mach.dramWrite_memOk h _ _) _ _
      · exact ih (Mach.dramWrite_memOk (Mach.dramRead_memOk h _) _ _) _ _

theorem Mach.dramPut_memOk {m : Mach} (h : m.memOk = true) (a0) (a1) : (Mach.dramPut m a0 a1).memOk = true := by
  unfold Mach.dramPut
  try dsimp only
  repeat' first
    | with_reducible
      first
        | assumption | intro _ | apply Mach.memOk_reg | apply Mach.ite_memOk | apply Mach.ite_fst_memOk
        | apply Mach.dramBytes_memOk | apply Mach.dramWrite_memOk | apply Mach.dramRead_memOk | rfl
    | split
    | dsimp only

theorem Mach.dramRequest_memOk {m : Mach} (h : m.memOk = true) (a0) : (Mach.dramRequest m a0).memOk = true := by
  unfold Mach.dramRequest
  try dsimp only
  repeat' first
    | with_reducible
      first
        | assumption | intro _ | apply Mach.memOk_reg | apply Mach.ite_memOk | apply Mach.ite_fst_memOk | apply Mach.dbankMod_memOk
        | apply Mach.wr_memOk | apply Mach.bankEnter_memOk | rfl
    | split
    | dsimp only

theorem Mach.dutyEnd_memOk {m : Mach} (h : m.memOk = true) : (Mach.dutyEnd m).memOk = true := by
  unfold Mach.dutyEnd
  try dsimp only
  repeat' first
    | with_reducible
      first
        | assumption | intro _ | apply Mach.memOk_reg | apply Mach.ite_memOk | apply Mach.ite_fst_memOk | apply Mach.dutyShow_memOk
        | apply Mach.mradMod_memOk | rfl
    | split
    | dsimp only

theorem Mach.unitServe_memOk {m : Mach} (a0) (a1) (a2) (a3) (a4) (h : m.memOk = true) (ha4 : ∀ (x0 : Mach) x1 x2, x0.memOk = true
    → (a4 x0 x1 x2).1.memOk = true) : (Mach.unitServe m a0 a1 a2 a3 a4).memOk = true := by
  unfold Mach.unitServe
  try dsimp only
  repeat' first
    | with_reducible
      first
        | assumption | intro _ | apply Mach.memOk_reg | apply Mach.ite_memOk | apply Mach.ite_fst_memOk | apply ha4
        | apply Mach.serve_memOk | rfl
    | split
    | dsimp only

theorem Mach.enq_memOk {m : Mach} (h : m.memOk = true) (a0) (a1) : (Mach.enq m a0 a1).memOk = true := by
  unfold Mach.enq
  try dsimp only
  repeat' first
    | with_reducible
      first
        | assumption | intro _ | apply Mach.memOk_reg | apply Mach.ite_memOk | apply Mach.ite_fst_memOk
        | apply Mach.unitServe_memOk | apply Mach.count_memOk | apply Mach.setQueue_memOk | rfl
    | split
    | dsimp only

theorem Mach.slotsHold_memOk {m : Mach} (h : m.memOk = true) (a0) : (Mach.slotsHold m a0).memOk = true := by
  unfold Mach.slotsHold
  try dsimp only
  repeat' first
    | with_reducible
      first
        | assumption | intro _ | apply Mach.memOk_reg | apply Mach.ite_memOk | apply Mach.ite_fst_memOk
        | apply Mach.calSlotMark_memOk | apply Mach.radioMod_memOk | apply Mach.sqMod_memOk | apply Mach.slotEnds_memOk | rfl
    | split
    | dsimp only

theorem Mach.enterHold_memOk {m : Mach} (h : m.memOk = true) : (Mach.enterHold m).memOk = true := by
  unfold Mach.enterHold
  try dsimp only
  repeat' first
    | with_reducible
      first
        | assumption | intro _ | apply Mach.memOk_reg | apply Mach.ite_memOk | apply Mach.ite_fst_memOk
        | apply Mach.replaysLost_memOk | apply Mach.wr_memOk | apply Mach.forEach_memOk | apply Mach.dspMod_memOk
        | apply Mach.slotsHold_memOk | rfl
    | split
    | dsimp only

theorem Mach.markLate_memOk {m : Mach} (h : m.memOk = true) (a0) (a1) (a2) : (Mach.markLate m a0 a1 a2).memOk = true := by
  unfold Mach.markLate
  try dsimp only
  repeat' first
    | with_reducible
      first
        | assumption | intro _ | apply Mach.memOk_reg | apply Mach.ite_memOk | apply Mach.ite_fst_memOk | apply Mach.dspMod_memOk
        | rfl
    | split
    | dsimp only

theorem Mach.enterWait_memOk {m : Mach} (h : m.memOk = true) (a0) (a1) : (Mach.enterWait m a0 a1).memOk = true := by
  unfold Mach.enterWait
  try dsimp only
  repeat' first
    | with_reducible
      first
        | assumption | intro _ | apply Mach.memOk_reg | apply Mach.ite_memOk | apply Mach.ite_fst_memOk | apply Mach.setTe_memOk
        | apply Mach.raiseDz_memOk | apply Mach.settle_memOk | apply Mach.teMod_memOk | apply Mach.markLate_memOk | rfl
    | split
    | dsimp only

theorem Mach.entryDone_memOk {m : Mach} (h : m.memOk = true) (a0) (a1) : (Mach.entryDone m a0 a1).memOk = true := by
  unfold Mach.entryDone
  try dsimp only
  repeat' first
    | with_reducible
      first
        | assumption | intro _ | apply Mach.memOk_reg | apply Mach.ite_memOk | apply Mach.ite_fst_memOk | apply Mach.pwrLast_memOk
        | apply Mach.setPwr_memOk | rfl
    | split
    | dsimp only

theorem Mach.enumRise_memOk {m : Mach} (h : m.memOk = true) : (Mach.enumRise m).memOk = true := by
  unfold Mach.enumRise
  try dsimp only
  repeat' first
    | with_reducible
      first
        | assumption | intro _ | apply Mach.memOk_reg | apply Mach.ite_memOk | apply Mach.ite_fst_memOk | apply Mach.chnMod_memOk
        | apply Mach.peg_memOk | rfl
    | split
    | dsimp only

theorem Mach.enumTimeout_memOk {m : Mach} (h : m.memOk = true) : (Mach.enumTimeout m).memOk = true := by
  unfold Mach.enumTimeout
  try dsimp only
  repeat' first
    | with_reducible
      first
        | assumption | intro _ | apply Mach.memOk_reg | apply Mach.ite_memOk | apply Mach.ite_fst_memOk | apply Mach.peg_memOk
        | apply Mach.chnMod_memOk | apply Mach.reachRun_memOk | rfl
    | split
    | dsimp only

theorem Mach.ethLink_memOk {m : Mach} (h : m.memOk = true) (a0) (a1) (a2) : (Mach.ethLink m a0 a1 a2).memOk = true := by
  unfold Mach.ethLink
  try dsimp only
  repeat' first
    | with_reducible
      first
        | assumption | intro _ | apply Mach.memOk_reg | apply Mach.ite_memOk | apply Mach.ite_fst_memOk | apply Mach.wr_memOk
        | apply Mach.forEach_memOk | apply Mach.txChoose_memOk | rfl
    | split
    | dsimp only

theorem Mach.takeCells_memOk {m : Mach} (h : m.memOk = true) (a0) : (Mach.takeCells a0 m).1.memOk = true := by
  revert h
  fun_induction Mach.takeCells a0 m
  all_goals try intro h
  all_goals try dsimp only
  all_goals
    repeat' first
      | with_reducible
        first
          | assumption | intro _ | apply Mach.memOk_reg | apply Mach.ite_memOk | apply Mach.ite_fst_memOk
          | apply Mach.drawBelow_memOk | apply Mach.setCells_memOk | rfl | apply_assumption
      | split
      | dsimp only

theorem Mach.sramBytes_memOk (k : Nat) {m : Mach} (h : m.memOk = true) (a0) (a1) : (Mach.sramBytes k m a0 a1).memOk = true := by
  induction k generalizing m a0 a1 with
  | zero => exact h
  | succ k ih =>
    unfold Mach.sramBytes
    split
    · exact h
    · dsimp only
      split
      · exact ih (Mach.sramWrite_memOk h _ _) _ _
      · exact ih (Mach.sramWrite_memOk (Mach.sramRead_memOk h _) _ _) _ _

theorem Mach.putSpans_memOk {m : Mach} (h : m.memOk = true) (a0 : List (Nat × Nat)) (a1) : (Mach.putSpans m a0 a1).memOk = true := by
  induction a0 generalizing m a1 with
  | nil => exact h
  | cons e r ih => exact ih (Mach.sramBytes_memOk _ h _ _) _

theorem Mach.storeFrame_memOk {m : Mach} (h : m.memOk = true) (a0) (a1) (a2) : (Mach.storeFrame m a0 a1 a2).1.memOk = true := by
  unfold Mach.storeFrame
  try dsimp only
  repeat' first
    | with_reducible
      first
        | assumption | intro _ | apply Mach.memOk_reg | apply Mach.ite_memOk | apply Mach.ite_fst_memOk | apply Mach.count_memOk
        | apply Mach.takeCells_memOk | apply Mach.pauseCheck_memOk | apply Mach.putSpans_memOk | apply Mach.spillCheck_memOk
        | apply Mach.setHead_memOk | rfl
    | split
    | dsimp only

theorem Mach.ethRx_memOk {m : Mach} (h : m.memOk = true) (a0) (a1) (a2) (a3) : (Mach.ethRx m a0 a1 a2 a3).memOk = true := by
  unfold Mach.ethRx
  try dsimp only
  repeat' first
    | with_reducible
      first
        | assumption | intro _ | apply Mach.memOk_reg | apply Mach.ite_memOk | apply Mach.ite_fst_memOk | apply Mach.count_memOk
        | apply Mach.storeFrame_memOk | apply Mach.consume_memOk | apply Mach.chFrom_memOk | rfl
    | split
    | dsimp only

theorem Mach.stampShow_memOk {m : Mach} (h : m.memOk = true) (a0) : (Mach.stampShow m a0).memOk = true := by
  unfold Mach.stampShow
  try dsimp only
  repeat' first
    | with_reducible
      first
        | assumption | intro _ | apply Mach.memOk_reg | apply Mach.ite_memOk | apply Mach.ite_fst_memOk | apply Mach.wr_memOk
        | apply Mach.setReg_memOk | rfl
    | split
    | dsimp only

theorem Mach.ethTxEnd_memOk {m : Mach} (h : m.memOk = true) (a0) (a1) : (Mach.ethTxEnd m a0 a1).memOk = true := by
  unfold Mach.ethTxEnd
  try dsimp only
  repeat' first
    | with_reducible
      first
        | assumption | intro _ | apply Mach.memOk_reg | apply Mach.ite_memOk | apply Mach.ite_fst_memOk | apply Mach.portMod_memOk
        | apply Mach.event_memOk | apply Mach.stampShow_memOk | apply Mach.consume_memOk | apply Mach.txChoose_memOk | rfl
    | split
    | dsimp only

theorem Mach.unitReads_memOk {m : Mach} (h : m.memOk = true) (a0) (a1) : (Mach.unitReads m a0 a1).1.memOk = true := by
  revert h
  fun_induction Mach.unitReads m a0 a1
  all_goals try intro h
  all_goals try dsimp only
  all_goals
    repeat' first
      | with_reducible
        first
          | assumption | intro _ | apply Mach.memOk_reg | apply Mach.ite_memOk | apply Mach.ite_fst_memOk
          | apply Mach.nvBytes_memOk | rfl | apply_assumption
      | split
      | dsimp only

theorem Mach.nvLoad_memOk {m : Mach} (h : m.memOk = true) (a0) : (Mach.nvLoad m a0).1.memOk = true := by
  unfold Mach.nvLoad
  try dsimp only
  repeat' first
    | with_reducible
      first
        | assumption | intro _ | apply Mach.memOk_reg | apply Mach.ite_memOk | apply Mach.ite_fst_memOk
        | apply Mach.unitReads_memOk | rfl
    | split
    | dsimp only

theorem Mach.fallbackCheck_memOk {m : Mach} (h : m.memOk = true) : (Mach.fallbackCheck m).memOk = true := by
  unfold Mach.fallbackCheck
  try dsimp only
  repeat' first
    | with_reducible
      first
        | assumption | intro _ | apply Mach.memOk_reg | apply Mach.ite_memOk | apply Mach.ite_fst_memOk | apply Mach.nvLoad_memOk
        | apply Mach.wr_memOk | rfl
    | split
    | dsimp only

theorem Mach.fallbackStart_memOk {m : Mach} (h : m.memOk = true) : (Mach.fallbackStart m).memOk = true := by
  unfold Mach.fallbackStart
  try dsimp only
  repeat' first
    | with_reducible
      first
        | assumption | intro _ | apply Mach.memOk_reg | apply Mach.ite_memOk | apply Mach.ite_fst_memOk | apply Mach.event_memOk
        | apply Mach.armMod_memOk | apply Mach.changeAbort_memOk | apply Mach.disarm_memOk | apply Mach.wr_memOk
        | apply Mach.shdShow_memOk | apply Mach.setShd_memOk | apply Mach.clearBank_memOk | apply Mach.drive_memOk
        | apply Mach.enterHold_memOk | rfl
    | split
    | dsimp only

theorem Mach.farReads_memOk {m : Mach} (h : m.memOk = true) (a0) (a1) : (Mach.farReads m a0 a1).1.memOk = true := by
  unfold Mach.farReads
  try dsimp only
  repeat' first
    | with_reducible
      first
        | assumption | intro _ | apply Mach.memOk_reg | apply Mach.ite_memOk | apply Mach.ite_fst_memOk
        | apply Mach.sramReads_memOk | apply Mach.nvmReads_memOk | apply Mach.dramReads_memOk | rfl
    | split
    | dsimp only

theorem Mach.farFetch_memOk {m : Mach} (h : m.memOk = true) (a0) (a1) : (Mach.farFetch m a0 a1).1.memOk = true := by
  unfold Mach.farFetch
  try dsimp only
  repeat' first
    | with_reducible
      first
        | assumption | intro _ | apply Mach.memOk_reg | apply Mach.ite_memOk | apply Mach.ite_fst_memOk | apply Mach.farReads_memOk
        | rfl
    | split
    | dsimp only

theorem Mach.hostPut_memOk {m : Mach} (h : m.memOk = true) (a0) (a1) : (Mach.hostPut m a0 a1).memOk = true := by
  revert h
  fun_induction Mach.hostPut m a0 a1
  all_goals try intro h
  all_goals try dsimp only
  all_goals
    repeat' first
      | with_reducible
        first
          | assumption | intro _ | apply Mach.memOk_reg | apply Mach.ite_memOk | apply Mach.ite_fst_memOk
          | apply Mach.hostWrite_memOk | apply Mach.hifMod_memOk | rfl | apply_assumption
      | split
      | dsimp only

theorem storeFold_wf (l : List Code) (k : Nat) (t : List Host.Cell) (h : Memory.wf t = true) :
    Memory.wf (l.foldl (fun p w => (p.1 + 1, storeSet p.2 p.1 w)) (k, t)).2 = true := by
  induction l generalizing k t with
  | nil => exact h
  | cons w r ih => exact ih _ _ (storeSet_wf _ _ _ h)

theorem Mach.farPut_memOk {m : Mach} (h : m.memOk = true) (a0) (a1) : (Mach.farPut m a0 a1).1.memOk = true := by
  unfold Mach.farPut
  dsimp only
  split
  · exact h
  · split
    · rw [Mach.memOk_iff] at h ⊢
      exact ⟨h.1, storeFold_wf _ _ _ h.2.1, h.2.2⟩
    · exact Mach.hostPut_memOk h _ _
    · exact Mach.dramWrites_memOk h _ _
    · exact Mach.dramWrites_memOk h _ _

theorem Mach.fatal_memOk {m : Mach} (h : m.memOk = true) (a0) : (Mach.fatal m a0).memOk = true := by
  unfold Mach.fatal
  try dsimp only
  repeat' first
    | with_reducible
      first
        | assumption | intro _ | apply Mach.memOk_reg | apply Mach.ite_memOk | apply Mach.ite_fst_memOk | apply Mach.event_memOk
        | apply Mach.faultRecord_memOk | apply Mach.wr_memOk | apply Mach.enterHold_memOk | rfl
    | split
    | dsimp only

theorem Mach.faultStart_memOk {m : Mach} (h : m.memOk = true) (a0) : (Mach.faultStart m a0).memOk = true := by
  unfold Mach.faultStart
  try dsimp only
  repeat' first
    | with_reducible
      first
        | assumption | intro _ | apply Mach.memOk_reg | apply Mach.ite_memOk | apply Mach.ite_fst_memOk
        | apply Mach.engineFault_memOk | apply Mach.setTe_memOk | apply Mach.teMod_memOk | apply Mach.abandon_memOk | rfl
    | split
    | dsimp only

theorem Mach.fbLoadDone_memOk {m : Mach} (h : m.memOk = true) : (Mach.fbLoadDone m).memOk = true := by
  unfold Mach.fbLoadDone
  try dsimp only
  repeat' first
    | with_reducible
      first
        | assumption | intro _ | apply Mach.memOk_reg | apply Mach.ite_memOk | apply Mach.ite_fst_memOk | apply Mach.nvLoad_memOk
        | apply Mach.armMod_memOk | apply Mach.setShd_memOk | apply Mach.shdPlace_memOk | rfl
    | split
    | dsimp only

theorem Mach.fbReload_memOk {m : Mach} (h : m.memOk = true) : (Mach.fbReload m).memOk = true := by
  unfold Mach.fbReload
  try dsimp only
  repeat' first
    | with_reducible
      first
        | assumption | intro _ | apply Mach.memOk_reg | apply Mach.ite_memOk | apply Mach.ite_fst_memOk | apply Mach.setShd_memOk
        | apply Mach.armMod_memOk | rfl
    | split
    | dsimp only

theorem Mach.fenceFall_memOk {m : Mach} (h : m.memOk = true) : (Mach.fenceFall m).memOk = true := by
  unfold Mach.fenceFall
  try dsimp only
  repeat' first
    | with_reducible
      first
        | assumption | intro _ | apply Mach.memOk_reg | apply Mach.ite_memOk | apply Mach.ite_fst_memOk | apply Mach.wr_memOk
        | apply Mach.sysMod_memOk | apply Mach.chnMod_memOk | rfl
    | split
    | dsimp only

theorem Mach.fencePulse_memOk {m : Mach} (h : m.memOk = true) : (Mach.fencePulse m).memOk = true := by
  unfold Mach.fencePulse
  try dsimp only
  repeat' first
    | with_reducible
      first
        | assumption | intro _ | apply Mach.memOk_reg | apply Mach.ite_memOk | apply Mach.ite_fst_memOk | apply Mach.wr_memOk
        | apply Mach.reach_memOk | rfl
    | split
    | dsimp only

theorem Mach.fencePulseEnd_memOk {m : Mach} (h : m.memOk = true) : (Mach.fencePulseEnd m).memOk = true := by
  unfold Mach.fencePulseEnd
  try dsimp only
  repeat' first
    | with_reducible
      first
        | assumption | intro _ | apply Mach.memOk_reg | apply Mach.ite_memOk | apply Mach.ite_fst_memOk | apply Mach.wr_memOk
        | apply Mach.chnMod_memOk | apply Mach.reach_memOk | rfl
    | split
    | dsimp only

theorem Mach.fenceResult_memOk {m : Mach} (h : m.memOk = true) (a0) : (Mach.fenceResult m a0).memOk = true := by
  unfold Mach.fenceResult
  try dsimp only
  repeat' first
    | with_reducible
      first
        | assumption | intro _ | apply Mach.memOk_reg | apply Mach.ite_memOk | apply Mach.ite_fst_memOk | apply Mach.wr_memOk
        | apply Mach.chnMod_memOk | rfl
    | split
    | dsimp only

theorem Mach.fenced_memOk {m : Mach} (h : m.memOk = true) : (Mach.fenced m).memOk = true := by
  unfold Mach.fenced
  try dsimp only
  repeat' first
    | with_reducible
      first
        | assumption | intro _ | apply Mach.memOk_reg | apply Mach.ite_memOk | apply Mach.ite_fst_memOk | apply Mach.event_memOk
        | apply Mach.airCut_memOk | apply Mach.setRole_memOk | apply Mach.enterHold_memOk | apply Mach.chnMod_memOk | rfl
    | split
    | dsimp only

theorem Mach.fenceRise_memOk {m : Mach} (h : m.memOk = true) : (Mach.fenceRise m).memOk = true := by
  unfold Mach.fenceRise
  try dsimp only
  repeat' first
    | with_reducible
      first
        | assumption | intro _ | apply Mach.memOk_reg | apply Mach.ite_memOk | apply Mach.ite_fst_memOk | apply Mach.wr_memOk
        | apply Mach.sysMod_memOk | apply Mach.airCut_memOk | apply Mach.chnMod_memOk | apply Mach.fenced_memOk | rfl
    | split
    | dsimp only

theorem Mach.fenceSeen_memOk {m : Mach} (h : m.memOk = true) (a0) : (Mach.fenceSeen m a0).memOk = true := by
  unfold Mach.fenceSeen
  try dsimp only
  repeat' first
    | with_reducible
      first
        | assumption | intro _ | apply Mach.memOk_reg | apply Mach.ite_memOk | apply Mach.ite_fst_memOk
        | apply Mach.fenceResult_memOk | rfl
    | split
    | dsimp only

theorem Mach.fenceTestReceive_memOk {m : Mach} (h : m.memOk = true) (a0) : (Mach.fenceTestReceive m a0).memOk = true := by
  unfold Mach.fenceTestReceive
  try dsimp only
  repeat' first
    | with_reducible
      first
        | assumption | intro _ | apply Mach.memOk_reg | apply Mach.ite_memOk | apply Mach.ite_fst_memOk | apply Mach.chnMod_memOk
        | rfl
    | split
    | dsimp only

theorem Mach.fenceTimeout_memOk {m : Mach} (h : m.memOk = true) : (Mach.fenceTimeout m).memOk = true := by
  unfold Mach.fenceTimeout
  try dsimp only
  repeat' first
    | with_reducible
      first
        | assumption | intro _ | apply Mach.memOk_reg | apply Mach.ite_memOk | apply Mach.ite_fst_memOk
        | apply Mach.fenceResult_memOk | rfl
    | split
    | dsimp only

theorem Mach.fetchComplete_memOk {m : Mach} (h : m.memOk = true) (a0) (a1) (a2) : (Mach.fetchComplete m a0 a1 a2).memOk = true := by
  unfold Mach.fetchComplete
  try dsimp only
  repeat' first
    | with_reducible
      first
        | assumption | intro _ | apply Mach.memOk_reg | apply Mach.ite_memOk | apply Mach.ite_fst_memOk | apply Mach.accDone_memOk
        | apply Mach.teMod_memOk | apply Mach.farFetch_memOk | rfl
    | split
    | dsimp only

theorem Mach.fhTake_memOk {m : Mach} (h : m.memOk = true) (a0) (a1) : (Mach.fhTake m a0 a1).memOk = true := by
  unfold Mach.fhTake
  try dsimp only
  repeat' first
    | with_reducible
      first
        | assumption | intro _ | apply Mach.memOk_reg | apply Mach.ite_memOk | apply Mach.ite_fst_memOk | apply Mach.forEach_memOk
        | apply Mach.ringMod_memOk | apply Mach.journal_memOk | rfl
    | split
    | dsimp only

theorem Mach.floodSchedule_memOk {m : Mach} (h : m.memOk = true) (a0) : (Mach.floodSchedule m a0).memOk = true := by
  unfold Mach.floodSchedule
  try dsimp only
  repeat' first
    | with_reducible
      first
        | assumption | intro _ | apply Mach.memOk_reg | apply Mach.ite_memOk | apply Mach.ite_fst_memOk
        | apply Mach.drawBelow_memOk | apply Mach.mlinkMod_memOk | rfl
    | split
    | dsimp only

theorem Mach.seenAge_memOk {m : Mach} (h : m.memOk = true) (a0) (a1) : (Mach.seenAge m a0 a1).memOk = true := by
  unfold Mach.seenAge
  try dsimp only
  repeat' first
    | with_reducible
      first
        | assumption | intro _ | apply Mach.memOk_reg | apply Mach.ite_memOk | apply Mach.ite_fst_memOk | apply Mach.mlinkMod_memOk
        | rfl
    | split
    | dsimp only

theorem Mach.floodReceive_memOk {m : Mach} (h : m.memOk = true) : (Mach.floodReceive m).memOk = true := by
  unfold Mach.floodReceive
  try dsimp only
  repeat' first
    | with_reducible
      first
        | assumption | intro _ | apply Mach.memOk_reg | apply Mach.ite_memOk | apply Mach.ite_fst_memOk | apply Mach.linkTake_memOk
        | apply Mach.when_memOk | apply Mach.mlinkMod_memOk | apply Mach.count_memOk | apply Mach.meshDeliverMsg_memOk
        | apply Mach.floodSchedule_memOk | apply Mach.seenAge_memOk | rfl
    | split
    | dsimp only

theorem Mach.floodRelay_memOk {m : Mach} (h : m.memOk = true) (a0) (a1) : (Mach.floodRelay m a0 a1).memOk = true := by
  unfold Mach.floodRelay
  try dsimp only
  repeat' first
    | with_reducible
      first
        | assumption | intro _ | apply Mach.memOk_reg | apply Mach.ite_memOk | apply Mach.ite_fst_memOk | apply Mach.mlinkMod_memOk
        | apply Mach.linkSend_memOk | apply Mach.count_memOk | rfl
    | split
    | dsimp only

theorem Mach.floodSlot_memOk {m : Mach} (h : m.memOk = true) (a0) : (Mach.floodSlot m a0).memOk = true := by
  unfold Mach.floodSlot
  try dsimp only
  repeat' first
    | with_reducible
      first
        | assumption | intro _ | apply Mach.memOk_reg | apply Mach.ite_memOk | apply Mach.ite_fst_memOk | apply Mach.forEach_memOk
        | apply Mach.mlinkMod_memOk | apply Mach.linkSend_memOk | rfl
    | split
    | dsimp only

theorem Mach.flr_memOk {m : Mach} (h : m.memOk = true) : (Mach.flr m).memOk = true := by
  unfold Mach.flr
  try dsimp only
  repeat' first
    | with_reducible
      first
        | assumption | intro _ | apply Mach.memOk_reg | apply Mach.ite_memOk | apply Mach.ite_fst_memOk | apply Mach.forEach_memOk
        | apply Mach.hifMod_memOk | apply Mach.frameLet_memOk | apply Mach.keepRegs_memOk | apply Mach.count_memOk | rfl
    | split
    | dsimp only

theorem Mach.forceCheck_memOk {m : Mach} (h : m.memOk = true) (a0) (a1) : (Mach.forceCheck m a0 a1).memOk = true := by
  unfold Mach.forceCheck
  try dsimp only
  repeat' first
    | with_reducible
      first
        | assumption | intro _ | apply Mach.memOk_reg | apply Mach.ite_memOk | apply Mach.ite_fst_memOk | apply Mach.count_memOk
        | apply Mach.dbankMod_memOk | rfl
    | split
    | dsimp only

theorem Mach.getSpans_memOk {m : Mach} (h : m.memOk = true) (a0) : (Mach.getSpans m a0).1.memOk = true := by
  revert h
  fun_induction Mach.getSpans m a0
  all_goals try intro h
  all_goals try dsimp only
  all_goals
    repeat' first
      | with_reducible
        first
          | assumption | intro _ | apply Mach.memOk_reg | apply Mach.ite_memOk | apply Mach.ite_fst_memOk
          | apply Mach.sramReads_memOk | rfl | apply_assumption
      | split
      | dsimp only

theorem Mach.frameBytes_memOk {m : Mach} (h : m.memOk = true) (a0) : (Mach.frameBytes m a0).1.memOk = true := by
  unfold Mach.frameBytes
  try dsimp only
  repeat' first
    | with_reducible
      first
        | assumption | intro _ | apply Mach.memOk_reg | apply Mach.ite_memOk | apply Mach.ite_fst_memOk
        | apply Mach.dramReads_memOk | apply Mach.getSpans_memOk | rfl
    | split
    | dsimp only

theorem Mach.frameGone_memOk {m : Mach} (h : m.memOk = true) (a0) (a1) : (Mach.frameGone m a0 a1).memOk = true := by
  unfold Mach.frameGone
  try dsimp only
  repeat' first
    | with_reducible
      first
        | assumption | intro _ | apply Mach.memOk_reg | apply Mach.ite_memOk | apply Mach.ite_fst_memOk | apply Mach.frameLet_memOk
        | apply Mach.hifMod_memOk | rfl
    | split
    | dsimp only

theorem Mach.frameOut_memOk {m : Mach} (h : m.memOk = true) (a0) (a1) (a2) (a3) (a4) (a5) : (Mach.frameOut m a0 a1 a2 a3 a4
    a5).memOk = true := by
  revert h
  fun_induction Mach.frameOut m a0 a1 a2 a3 a4 a5
  all_goals try intro h
  all_goals try dsimp only
  all_goals
    repeat' first
      | with_reducible
        first
          | assumption | intro _ | apply Mach.memOk_reg | apply Mach.ite_memOk | apply Mach.ite_fst_memOk
          | apply Mach.hostWrite_memOk | rfl | apply_assumption
      | split
      | dsimp only

theorem Mach.itemRefuse_memOk {m : Mach} (h : m.memOk = true) (a0) : (Mach.itemRefuse m a0).1.memOk = true := by
  unfold Mach.itemRefuse
  try dsimp only
  repeat' first
    | with_reducible
      first
        | assumption | intro _ | apply Mach.memOk_reg | apply Mach.ite_memOk | apply Mach.ite_fst_memOk | apply Mach.count_memOk
        | rfl
    | split
    | dsimp only

theorem Mach.itemStale_memOk {m : Mach} (h : m.memOk = true) : (Mach.itemStale m).1.memOk = true := by
  unfold Mach.itemStale
  try dsimp only
  repeat' first
    | with_reducible
      first
        | assumption | intro _ | apply Mach.memOk_reg | apply Mach.ite_memOk | apply Mach.ite_fst_memOk | apply Mach.count_memOk
        | rfl
    | split
    | dsimp only

theorem Mach.freeItem_memOk {m : Mach} (h : m.memOk = true) (a0) (a1) : (Mach.freeItem m a0 a1).1.memOk = true := by
  unfold Mach.freeItem
  try dsimp only
  repeat' first
    | with_reducible
      first
        | assumption | intro _ | apply Mach.memOk_reg | apply Mach.ite_memOk | apply Mach.ite_fst_memOk
        | apply Mach.itemRefuse_memOk | apply Mach.itemStale_memOk | apply Mach.refAct_memOk | rfl
    | split
    | dsimp only

theorem Mach.freeOne_memOk {m : Mach} (h : m.memOk = true) (a0) (a1) : (Mach.freeOne m a0 a1).1.memOk = true := by
  unfold Mach.freeOne
  try dsimp only
  repeat' first
    | with_reducible
      first
        | assumption | intro _ | apply Mach.memOk_reg | apply Mach.ite_memOk | apply Mach.ite_fst_memOk | apply Mach.setPool_memOk
        | apply Mach.aschMod_memOk | rfl
    | split
    | dsimp only

theorem Mach.rteRefuse_memOk {m : Mach} (h : m.memOk = true) : (Mach.rteRefuse m).1.memOk = true := by
  unfold Mach.rteRefuse
  try dsimp only
  repeat' first
    | with_reducible
      first
        | assumption | intro _ | apply Mach.memOk_reg | apply Mach.ite_memOk | apply Mach.ite_fst_memOk | apply Mach.count_memOk
        | rfl
    | split
    | dsimp only

theorem Mach.rteRequest_memOk {m : Mach} (a0) (a1) (a2) (a3) (a4) (h : m.memOk = true) (ha4 : ∀ (x0 : Mach) x1 x2, x0.memOk = true
    → (a4 x0 x1 x2).1.memOk = true) : (Mach.rteRequest m a0 a1 a2 a3 a4).1.memOk = true := by
  unfold Mach.rteRequest
  try dsimp only
  repeat' first
    | with_reducible
      first
        | assumption | intro _ | apply Mach.memOk_reg | apply Mach.ite_memOk | apply Mach.ite_fst_memOk | apply ha4
        | apply Mach.rteRefuse_memOk | apply foldl_memOk | apply foldl_fst_memOk | rfl
    | split
    | dsimp only

theorem Mach.freeUnit_memOk {m : Mach} (h : m.memOk = true) (a0) (a1) : (Mach.freeUnit m a0 a1).memOk = true := by
  unfold Mach.freeUnit
  try dsimp only
  repeat' first
    | with_reducible
      first
        | assumption | intro _ | apply Mach.memOk_reg | apply Mach.ite_memOk | apply Mach.ite_fst_memOk
        | apply Mach.unitServe_memOk | apply Mach.rteRequest_memOk | apply Mach.freeItem_memOk | rfl
    | split
    | dsimp only

theorem Mach.gainSettled_memOk {m : Mach} (h : m.memOk = true) (a0) (a1) : (Mach.gainSettled m a0 a1).memOk = true := by
  unfold Mach.gainSettled
  try dsimp only
  repeat' first
    | with_reducible
      first
        | assumption | intro _ | apply Mach.memOk_reg | apply Mach.ite_memOk | apply Mach.ite_fst_memOk | apply Mach.setRx_memOk
        | apply Mach.radioMod_memOk | apply Mach.freeVal_memOk | rfl
    | split
    | dsimp only

theorem Mach.gateStep_memOk {m : Mach} (h : m.memOk = true) (a0) : (Mach.gateStep m a0).memOk = true := by
  unfold Mach.gateStep
  try dsimp only
  repeat' first
    | with_reducible
      first
        | assumption | intro _ | apply Mach.memOk_reg | apply Mach.ite_memOk | apply Mach.ite_fst_memOk | apply Mach.txChoose_memOk
        | apply Mach.reach_memOk | rfl
    | split
    | dsimp only

theorem Mach.gclStart_memOk {m : Mach} (h : m.memOk = true) (a0) : (Mach.gclStart m a0).memOk = true := by
  unfold Mach.gclStart
  try dsimp only
  repeat' first
    | with_reducible
      first
        | assumption | intro _ | apply Mach.memOk_reg | apply Mach.ite_memOk | apply Mach.ite_fst_memOk | apply Mach.reach_memOk
        | apply Mach.txChoose_memOk | apply Mach.event_memOk | apply Mach.wr_memOk | apply Mach.portMod_memOk | rfl
    | split
    | dsimp only

theorem Mach.genReceive_memOk {m : Mach} (h : m.memOk = true) (a0) : (Mach.genReceive m a0).memOk = true := by
  unfold Mach.genReceive
  try dsimp only
  repeat' first
    | with_reducible
      first
        | assumption | intro _ | apply Mach.memOk_reg | apply Mach.ite_memOk | apply Mach.ite_fst_memOk | apply Mach.chnMod_memOk
        | apply Mach.event_memOk | apply Mach.cfgMismatch_memOk | rfl
    | split
    | dsimp only

theorem Mach.genSend_memOk {m : Mach} (h : m.memOk = true) : (Mach.genSend m).memOk = true := by
  unfold Mach.genSend
  try dsimp only
  repeat' first
    | with_reducible
      first
        | assumption | intro _ | apply Mach.memOk_reg | apply Mach.ite_memOk | apply Mach.ite_fst_memOk | apply Mach.campSend_memOk
        | apply Mach.reach_memOk | rfl
    | split
    | dsimp only

theorem Mach.guyAckReceive_memOk {m : Mach} (h : m.memOk = true) (a0) (a1) : (Mach.guyAckReceive m a0 a1).memOk = true := by
  unfold Mach.guyAckReceive
  try dsimp only
  repeat' first
    | with_reducible
      first
        | assumption | intro _ | apply Mach.memOk_reg | apply Mach.ite_memOk | apply Mach.ite_fst_memOk | apply Mach.guyTake_memOk
        | rfl
    | split
    | dsimp only

theorem Mach.guyAgain_memOk {m : Mach} (h : m.memOk = true) (a0) (a1) : (Mach.guyAgain m a0 a1).memOk = true := by
  unfold Mach.guyAgain
  try dsimp only
  repeat' first
    | with_reducible
      first
        | assumption | intro _ | apply Mach.memOk_reg | apply Mach.ite_memOk | apply Mach.ite_fst_memOk | apply Mach.count_memOk
        | rfl
    | split
    | dsimp only

theorem Mach.guyDown_memOk {m : Mach} (h : m.memOk = true) (a0) : (Mach.guyDown m a0).memOk = true := by
  unfold Mach.guyDown
  try dsimp only
  repeat' first
    | with_reducible
      first
        | assumption | intro _ | apply Mach.memOk_reg | apply Mach.ite_memOk | apply Mach.ite_fst_memOk | apply Mach.guyMod_memOk
        | apply Mach.count_memOk | apply Mach.wr_memOk | apply Mach.event_memOk | apply Mach.chnMod_memOk | rfl
    | split
    | dsimp only

theorem Mach.guyFail_memOk {m : Mach} (h : m.memOk = true) (a0) : (Mach.guyFail m a0).memOk = true := by
  unfold Mach.guyFail
  try dsimp only
  repeat' first
    | with_reducible
      first
        | assumption | intro _ | apply Mach.memOk_reg | apply Mach.ite_memOk | apply Mach.ite_fst_memOk | apply Mach.guyMod_memOk
        | apply Mach.guyAgain_memOk | apply Mach.guyDown_memOk | rfl
    | split
    | dsimp only

theorem Mach.guyNackReceive_memOk {m : Mach} (h : m.memOk = true) (a0) (a1) : (Mach.guyNackReceive m a0 a1).memOk = true := by
  unfold Mach.guyNackReceive
  try dsimp only
  repeat' first
    | with_reducible
      first
        | assumption | intro _ | apply Mach.memOk_reg | apply Mach.ite_memOk | apply Mach.ite_fst_memOk | apply Mach.guyTake_memOk
        | apply Mach.guyAck_memOk | apply Mach.guyAgain_memOk | apply Mach.guyFail_memOk | rfl
    | split
    | dsimp only

theorem Mach.guyTimeLoss_memOk {m : Mach} (h : m.memOk = true) (a0) : (Mach.guyTimeLoss m a0).memOk = true := by
  unfold Mach.guyTimeLoss
  try dsimp only
  repeat' first
    | with_reducible
      first
        | assumption | intro _ | apply Mach.memOk_reg | apply Mach.ite_memOk | apply Mach.ite_fst_memOk | apply Mach.event_memOk
        | apply Mach.wr_memOk | rfl
    | split
    | dsimp only

theorem Mach.guyTimeout_memOk {m : Mach} (h : m.memOk = true) (a0) : (Mach.guyTimeout m a0).memOk = true := by
  unfold Mach.guyTimeout
  try dsimp only
  repeat' first
    | with_reducible
      first
        | assumption | intro _ | apply Mach.memOk_reg | apply Mach.ite_memOk | apply Mach.ite_fst_memOk | apply Mach.reachRun_memOk
        | apply Mach.guyFail_memOk | rfl
    | split
    | dsimp only

theorem Mach.helloSend_memOk {m : Mach} (h : m.memOk = true) (a0) : (Mach.helloSend m a0).memOk = true := by
  unfold Mach.helloSend
  try dsimp only
  repeat' first
    | with_reducible
      first
        | assumption | intro _ | apply Mach.memOk_reg | apply Mach.ite_memOk | apply Mach.ite_fst_memOk | apply Mach.guySend_memOk
        | rfl
    | split
    | dsimp only

theorem Mach.guyUp_memOk {m : Mach} (h : m.memOk = true) (a0) : (Mach.guyUp m a0).memOk = true := by
  unfold Mach.guyUp
  try dsimp only
  repeat' first
    | with_reducible
      first
        | assumption | intro _ | apply Mach.memOk_reg | apply Mach.ite_memOk | apply Mach.ite_fst_memOk
        | apply Mach.helloSend_memOk | apply Mach.event_memOk | apply Mach.guyMod_memOk | apply Mach.wr_memOk | rfl
    | split
    | dsimp only

theorem Mach.hashItem_memOk {m : Mach} (h : m.memOk = true) (a0) (a1) (a2) (a3) (a4) : (Mach.hashItem m a0 a1 a2 a3 a4).1.memOk = true := by
  unfold Mach.hashItem
  try dsimp only
  repeat' first
    | with_reducible
      first
        | assumption | intro _ | apply Mach.memOk_reg | apply Mach.ite_memOk | apply Mach.ite_fst_memOk
        | apply Mach.itemRefuse_memOk | apply Mach.hashFind_memOk | apply Mach.hashInsert_memOk | apply Mach.hashDelete_memOk | rfl
    | split
    | dsimp only

theorem Mach.hashUnit_memOk {m : Mach} (h : m.memOk = true) (a0) (a1) (a2) : (Mach.hashUnit m a0 a1 a2).memOk = true := by
  unfold Mach.hashUnit
  try dsimp only
  repeat' first
    | with_reducible
      first
        | assumption | intro _ | apply Mach.memOk_reg | apply Mach.ite_memOk | apply Mach.ite_fst_memOk
        | apply Mach.unitServe_memOk | apply Mach.rteRefuse_memOk | apply Mach.rteRequest_memOk | apply Mach.hashItem_memOk | rfl
    | split
    | dsimp only

theorem Mach.rpServe_memOk {m : Mach} (h : m.memOk = true) (a0) (a1) : (Mach.rpServe m a0 a1).memOk = true := by
  unfold Mach.rpServe
  try dsimp only
  repeat' first
    | with_reducible
      first
        | assumption | intro _ | apply Mach.memOk_reg | apply Mach.ite_memOk | apply Mach.ite_fst_memOk | apply Mach.sysMod_memOk
        | rfl
    | split
    | dsimp only

theorem Mach.rpEnter_memOk {m : Mach} (h : m.memOk = true) (a0) (a1) (a2) (a3) : (Mach.rpEnter m a0 a1 a2 a3).memOk = true := by
  unfold Mach.rpEnter
  try dsimp only
  repeat' first
    | with_reducible
      first
        | assumption | intro _ | apply Mach.memOk_reg | apply Mach.ite_memOk | apply Mach.ite_fst_memOk | apply Mach.rpServe_memOk
        | apply Mach.sysMod_memOk | rfl
    | split
    | dsimp only

theorem Mach.rpLeave_memOk {m : Mach} (h : m.memOk = true) (a0) : (Mach.rpLeave m a0).memOk = true := by
  unfold Mach.rpLeave
  try dsimp only
  repeat' first
    | with_reducible
      first
        | assumption | intro _ | apply Mach.memOk_reg | apply Mach.ite_memOk | apply Mach.ite_fst_memOk | apply Mach.rpServe_memOk
        | apply Mach.sysMod_memOk | rfl
    | split
    | dsimp only

theorem Mach.rpForward_memOk {m : Mach} (h : m.memOk = true) (a0) (a1) (a2) : (Mach.rpForward m a0 a1 a2).memOk = true := by
  unfold Mach.rpForward
  try dsimp only
  repeat' first
    | with_reducible
      first
        | assumption | intro _ | apply Mach.memOk_reg | apply Mach.ite_memOk | apply Mach.ite_fst_memOk | apply Mach.rpEnter_memOk
        | apply Mach.sysMod_memOk | apply Mach.rpLeave_memOk | rfl
    | split
    | dsimp only

theorem Mach.headerRoute_memOk {m : Mach} (h : m.memOk = true) (a0) (a1) : (Mach.headerRoute m a0 a1).memOk = true := by
  unfold Mach.headerRoute
  try dsimp only
  repeat' first
    | with_reducible
      first
        | assumption | intro _ | apply Mach.memOk_reg | apply Mach.ite_memOk | apply Mach.ite_fst_memOk | apply Mach.divert_memOk
        | apply Mach.rpForward_memOk | apply Mach.rpLeave_memOk | rfl
    | split
    | dsimp only

theorem Mach.helloReceive_memOk {m : Mach} (h : m.memOk = true) (a0) (a1) : (Mach.helloReceive m a0 a1).memOk = true := by
  unfold Mach.helloReceive
  try dsimp only
  repeat' first
    | with_reducible
      first
        | assumption | intro _ | apply Mach.memOk_reg | apply Mach.ite_memOk | apply Mach.ite_fst_memOk | apply Mach.guyTake_memOk
        | apply Mach.wr_memOk | apply Mach.followPair_memOk | apply Mach.pairShow_memOk | rfl
    | split
    | dsimp only

theorem Mach.hostFrame_memOk {m : Mach} (h : m.memOk = true) (a0) (a1) (a2) : (Mach.hostFrame m a0 a1 a2).memOk = true := by
  unfold Mach.hostFrame
  try dsimp only
  repeat' first
    | with_reducible
      first
        | assumption | intro _ | apply Mach.memOk_reg | apply Mach.ite_memOk | apply Mach.ite_fst_memOk | apply Mach.count_memOk
        | apply Mach.fhTake_memOk | apply Mach.storeFrame_memOk | apply Mach.chFrom_memOk | apply Mach.consume_memOk | rfl
    | split
    | dsimp only

theorem Mach.hpAccept_memOk {m : Mach} (h : m.memOk = true) (a0) : (Mach.hpAccept m a0).memOk = true := by
  unfold Mach.hpAccept
  try dsimp only
  repeat' first
    | with_reducible
      first
        | assumption | intro _ | apply Mach.memOk_reg | apply Mach.ite_memOk | apply Mach.ite_fst_memOk | apply Mach.busMod_memOk
        | apply Mach.count_memOk | apply Mach.wr_memOk | apply Mach.idBegin_memOk | apply Mach.idStart_memOk | rfl
    | split
    | dsimp only

theorem Mach.hpEdge_memOk {m : Mach} (h : m.memOk = true) (a0) (a1) : (Mach.hpEdge m a0 a1).memOk = true := by
  unfold Mach.hpEdge
  try dsimp only
  repeat' first
    | with_reducible
      first
        | assumption | intro _ | apply Mach.memOk_reg | apply Mach.ite_memOk | apply Mach.ite_fst_memOk | apply Mach.busMod_memOk
        | rfl
    | split
    | dsimp only

theorem unitFold_memOk {m : Mach} (a0) (a1) (ha0 : ∀ (x0 : Mach) x1, x0.memOk = true → (a0 x0 x1).1.memOk = true) (h : m.memOk =
    true) : (unitFold a0 m a1).1.memOk = true := by
  revert h
  fun_induction unitFold a0 m a1
  all_goals try intro h
  all_goals try dsimp only
  all_goals
    repeat' first
      | with_reducible
        first
          | assumption | intro _ | apply Mach.memOk_reg | apply Mach.ite_memOk | apply Mach.ite_fst_memOk | apply ha0 | rfl
          | apply_assumption
      | split
      | dsimp only

theorem Mach.hpRequest_memOk {m : Mach} (a0) (a1) (h : m.memOk = true) (ha1 : ∀ (x0 : Mach) x1, x0.memOk = true → (a1 x0
    x1).1.memOk = true) : (Mach.hpRequest m a0 a1).1.memOk = true := by
  unfold Mach.hpRequest
  try dsimp only
  repeat' first
    | with_reducible
      first
        | assumption | intro _ | apply Mach.memOk_reg | apply Mach.ite_memOk | apply Mach.ite_fst_memOk | apply ha1
        | apply unitFold_memOk | rfl
    | split
    | dsimp only

theorem Mach.idRead_memOk {m : Mach} (h : m.memOk = true) (a0) (a1) (a2) : (Mach.idRead m a0 a1 a2).memOk = true := by
  unfold Mach.idRead
  try dsimp only
  repeat' first
    | with_reducible
      first
        | assumption | intro _ | apply Mach.memOk_reg | apply Mach.ite_memOk | apply Mach.ite_fst_memOk | apply Mach.wr_memOk
        | apply Mach.setReg_memOk | apply Mach.count_memOk | apply Mach.busMod_memOk | apply Mach.event_memOk
        | apply Mach.txValid_memOk | rfl
    | split
    | dsimp only

theorem Mach.idStuck_memOk {m : Mach} (h : m.memOk = true) (a0) : (Mach.idStuck m a0).memOk = true := by
  unfold Mach.idStuck
  try dsimp only
  repeat' first
    | with_reducible
      first
        | assumption | intro _ | apply Mach.memOk_reg | apply Mach.ite_memOk | apply Mach.ite_fst_memOk | apply Mach.busMod_memOk
        | rfl
    | split
    | dsimp only

theorem Mach.memServe_memOk {m : Mach} (h : m.memOk = true) : (Mach.memServe m).memOk = true := by
  unfold Mach.memServe
  try dsimp only
  repeat' first
    | with_reducible
      first
        | assumption | intro _ | apply Mach.memOk_reg | apply Mach.ite_memOk | apply Mach.ite_fst_memOk | apply Mach.forEach_memOk
        | apply Mach.chanServe_memOk | rfl
    | split
    | dsimp only

theorem Mach.idle_memOk {m : Mach} (h : m.memOk = true) : (Mach.idle m).memOk = true := by
  unfold Mach.idle
  try dsimp only
  repeat' first
    | with_reducible
      first
        | assumption | intro _ | apply Mach.memOk_reg | apply Mach.ite_memOk | apply Mach.ite_fst_memOk | apply Mach.memServe_memOk
        | apply Mach.elapse_memOk | rfl
    | split
    | dsimp only

theorem Mach.indirectDone_memOk {m : Mach} (h : m.memOk = true) (a0) (a1) : (Mach.indirectDone m a0 a1).memOk = true := by
  unfold Mach.indirectDone
  try dsimp only
  repeat' first
    | with_reducible
      first
        | assumption | intro _ | apply Mach.memOk_reg | apply Mach.ite_memOk | apply Mach.ite_fst_memOk | apply Mach.cmdPump_memOk
        | apply Mach.setCmds_memOk | rfl
    | split
    | dsimp only

theorem Mach.frameEnds_memOk {m : Mach} (h : m.memOk = true) (a0) : (Mach.frameEnds m a0).memOk = true := by
  unfold Mach.frameEnds
  try dsimp only
  repeat' first
    | with_reducible
      first
        | assumption | intro _ | apply Mach.memOk_reg | apply Mach.ite_memOk | apply Mach.ite_fst_memOk
        | apply Mach.dramReads_memOk | apply Mach.unitEnds_memOk | apply Mach.consume_memOk | rfl
    | split
    | dsimp only

theorem Mach.parseInto_memOk {m : Mach} (h : m.memOk = true) (a0) (a1) : (Mach.parseInto m a0 a1).memOk = true := by
  unfold Mach.parseInto
  try dsimp only
  repeat' first
    | with_reducible
      first
        | assumption | intro _ | apply Mach.memOk_reg | apply Mach.ite_memOk | apply Mach.ite_fst_memOk
        | apply Mach.frameBytes_memOk | apply Mach.rteMod_memOk | apply Mach.frameEnds_memOk | rfl
    | split
    | dsimp only

theorem Mach.intake_memOk {m : Mach} (h : m.memOk = true) (a0) : (Mach.intake m a0).memOk = true := by
  unfold Mach.intake
  try dsimp only
  repeat' first
    | with_reducible
      first
        | assumption | intro _ | apply Mach.memOk_reg | apply Mach.ite_memOk | apply Mach.ite_fst_memOk
        | apply Mach.parseInto_memOk | apply Mach.rteMod_memOk | apply Mach.chTake_memOk | apply Mach.chDeliver_memOk | rfl
    | split
    | dsimp only

theorem Mach.ioRead_memOk {m : Mach} (h : m.memOk = true) (a0) : (Mach.ioRead m a0).1.memOk = true := by
  unfold Mach.ioRead
  try dsimp only
  repeat' first
    | with_reducible
      first
        | assumption | intro _ | apply Mach.memOk_reg | apply Mach.ite_memOk | apply Mach.ite_fst_memOk | apply Mach.mlinkMod_memOk
        | apply Mach.setReg_memOk | apply Mach.tbRead_memOk | rfl
    | split
    | dsimp only

theorem Mach.ioWrite_memOk {m : Mach} (h : m.memOk = true) (a0) (a1) : (Mach.ioWrite m a0 a1).memOk = true := by
  unfold Mach.ioWrite
  try dsimp only
  repeat' first
    | with_reducible
      first
        | assumption | intro _ | apply Mach.memOk_reg | apply Mach.ite_memOk | apply Mach.ite_fst_memOk
        | apply Mach.portWrite_memOk | apply Mach.mlinkMod_memOk | apply Mach.mshWrite_memOk | rfl
    | split
    | dsimp only

theorem Mach.landDue_memOk {m : Mach} (h : m.memOk = true) (a0) : (Mach.landDue m a0).memOk = true := by
  unfold Mach.landDue
  try dsimp only
  repeat' first
    | with_reducible
      first
        | assumption | intro _ | apply Mach.memOk_reg | apply Mach.ite_memOk | apply Mach.ite_fst_memOk | apply Mach.raiseDz_memOk
        | apply Mach.setTe_memOk | apply Mach.settle_memOk | rfl
    | split
    | dsimp only

theorem Mach.teFault_memOk {m : Mach} (h : m.memOk = true) (a0) (a1) (a2) (a3) : (Mach.teFault m a0 a1 a2 a3).memOk = true := by
  unfold Mach.teFault
  try dsimp only
  repeat' first
    | with_reducible
      first
        | assumption | intro _ | apply Mach.memOk_reg | apply Mach.ite_memOk | apply Mach.ite_fst_memOk | apply Mach.raise_memOk
        | rfl
    | split
    | dsimp only

theorem Mach.teIssue_memOk {m : Mach} (a0) (a1) (a2) {a3 : Mach → Te → Res} (h : m.memOk = true)
    (ha3 : ∀ (x0 : Mach) x1, x0.memOk = true → (a3 x0 x1).memOk) : (Mach.teIssue m a0 a1 a2 a3).memOk = true := by
  have h0 := Mach.landDue_memOk h a0
  have hb := ha3 (m.landDue a0) ((m.landDue a0).getTe a0) h0
  unfold Mach.teIssue
  dsimp only
  split
  · split
    · exact Mach.teFault_memOk h0 _ _ _ _
    · split
      · exact Mach.teFault_memOk h0 _ _ _ _
      · revert hb
        cases a3 (m.landDue a0) ((m.landDue a0).getTe a0) with
        | bad f => exact fun _ => Mach.teFault_memOk h0 _ _ _ _
        | good e => exact fun hb => Mach.advance_memOk hb _ _ _
        | sleep x => exact fun _ => Mach.enterWait_memOk h0 _ _
  · exact h0

theorem Mach.lcFault_memOk {m : Mach} (h : m.memOk = true) (a0) : (Mach.lcFault m a0).memOk = true := by
  unfold Mach.lcFault
  try dsimp only
  repeat' first
    | with_reducible
      first
        | assumption | intro _ | apply Mach.memOk_reg | apply Mach.ite_memOk | apply Mach.ite_fst_memOk | apply Mach.wr_memOk
        | apply Mach.logAppend_memOk | apply Mach.count_memOk | apply Mach.lcMod_memOk | rfl
    | split
    | dsimp only

theorem Mach.lcAdvance_memOk {m : Mach} (h : m.memOk = true) (a0) (a1) (a2) (a3) : (Mach.lcAdvance m a0 a1 a2 a3).memOk = true := by
  unfold Mach.lcAdvance
  try dsimp only
  repeat' first
    | with_reducible
      first
        | assumption | intro _ | apply Mach.memOk_reg | apply Mach.ite_memOk | apply Mach.ite_fst_memOk | apply Mach.lcTake_memOk
        | apply Mach.lcMod_memOk | rfl
    | split
    | dsimp only

theorem Mach.lcWait_memOk {m : Mach} (h : m.memOk = true) : (Mach.lcWait m).memOk = true := by
  unfold Mach.lcWait
  try dsimp only
  repeat' first
    | with_reducible
      first
        | assumption | intro _ | apply Mach.memOk_reg | apply Mach.ite_memOk | apply Mach.ite_fst_memOk | apply Mach.lcMod_memOk
        | apply Mach.lcTake_memOk | apply Mach.lanternState_memOk | apply Mach.when_memOk | apply Mach.count_memOk | rfl
    | split
    | dsimp only

theorem Mach.lcIssue_memOk {m : Mach} (a0) (a1) {a2 : Mach → Lc → LcRes} (h : m.memOk = true)
    (ha2 : ∀ (x0 : Mach) x1, x0.memOk = true → (a2 x0 x1).memOk) : (Mach.lcIssue m a0 a1 a2).memOk = true := by
  have h0 : (m.lcTake.lcMod Lc.landDue).memOk = true := Mach.lcMod_memOk (Mach.lcTake_memOk h) _
  unfold Mach.lcIssue
  dsimp only
  generalize m.lcTake.lcMod Lc.landDue = y at h0 ⊢
  have hb := ha2 y y.lc h0
  split
  · split
    · exact Mach.lcFault_memOk h0 _
    · split
      · exact Mach.lcFault_memOk h0 _
      · revert hb
        cases a2 y y.lc with
        | bad c => exact fun _ => Mach.lcFault_memOk h0 _
        | good x ws t ret => exact fun hb => Mach.lcAdvance_memOk hb _ _ _ _
        | sleep => exact fun _ => Mach.lcWait_memOk h0
  · split
    · exact Mach.lcFault_memOk h0 _
    · exact h0

theorem Mach.issue_memOk {m : Mach} (a0) (a1) (a2) (a3) (a4) (h : m.memOk = true) (ha3 : ∀ x0 (x1 : Mach) x2, x1.memOk = true →
    (a3 x0 x1 x2).memOk) (ha4 : ∀ (x0 : Mach) x1, x0.memOk = true → (a4 x0 x1).memOk) : (Mach.issue m a0 a1 a2 a3 a4).memOk = true := by
  unfold Mach.issue
  try dsimp only
  repeat' first
    | with_reducible
      first
        | assumption | intro _ | apply Mach.memOk_reg | apply Mach.ite_memOk | apply Mach.ite_fst_memOk | apply ha3 | apply ha4
        | apply Mach.teIssue_memOk | apply Mach.lcIssue_memOk | rfl
    | split
    | dsimp only

theorem Mach.judge_memOk {m : Mach} (h : m.memOk = true) (a0) (a1) : (Mach.judge m a0 a1).1.memOk = true := by
  unfold Mach.judge
  try dsimp only
  repeat' first
    | with_reducible
      first
        | assumption | intro _ | apply Mach.memOk_reg | apply Mach.ite_memOk | apply Mach.ite_fst_memOk | apply Mach.setWpol_memOk
        | rfl
    | split
    | dsimp only

theorem Mach.keyRecord_memOk {m : Mach} (h : m.memOk = true) (a0) (a1) : (Mach.keyRecord m a0 a1).memOk = true := by
  unfold Mach.keyRecord
  try dsimp only
  repeat' first
    | with_reducible
      first
        | assumption | intro _ | apply Mach.memOk_reg | apply Mach.ite_memOk | apply Mach.ite_fst_memOk | apply Mach.chnMod_memOk
        | apply Mach.setKeyE_memOk | apply Mach.keyPut_memOk | rfl
    | split
    | dsimp only

theorem Mach.l1Enter_memOk {m : Mach} (h : m.memOk = true) : (Mach.l1Enter m).memOk = true := by
  unfold Mach.l1Enter
  try dsimp only
  repeat' first
    | with_reducible
      first
        | assumption | intro _ | apply Mach.memOk_reg | apply Mach.ite_memOk | apply Mach.ite_fst_memOk | apply Mach.hifMod_memOk
        | rfl
    | split
    | dsimp only

theorem Mach.lanternReset_memOk {m : Mach} (h : m.memOk = true) : (Mach.lanternReset m).memOk = true := by
  unfold Mach.lanternReset
  dsimp only
  apply Mach.setReg_memOk
  apply Mach.wr_memOk
  apply Mach.setBase_memOk
  exact Mach.memOk_congr h rfl rfl rfl

theorem Mach.lanternFall_memOk {m : Mach} (h : m.memOk = true) : (Mach.lanternFall m).memOk = true := by
  unfold Mach.lanternFall
  try dsimp only
  repeat' first
    | with_reducible
      first
        | assumption | intro _ | apply Mach.memOk_reg | apply Mach.ite_memOk | apply Mach.ite_fst_memOk
        | apply Mach.lanternReset_memOk | rfl
    | split
    | dsimp only

theorem Mach.lanternStart_memOk {m : Mach} (h : m.memOk = true) : (Mach.lanternStart m).memOk = true := by
  unfold Mach.lanternStart
  try dsimp only
  repeat' first
    | with_reducible
      first
        | assumption | intro _ | apply Mach.memOk_reg | apply Mach.ite_memOk | apply Mach.ite_fst_memOk
        | apply Mach.lanternState_memOk | apply Mach.lanternReset_memOk | apply Mach.mradMod_memOk | apply Mach.mlinkMod_memOk
        | apply Mach.when_memOk | apply Mach.setReg_memOk | apply Mach.forEach_memOk | apply Mach.meshCal_memOk
        | apply Mach.dutyShow_memOk | apply Mach.logShow_memOk | rfl
    | split
    | dsimp only

theorem Mach.lcByte_memOk {m : Mach} (h : m.memOk = true) (a0) : (Mach.lcByte m a0).1.memOk = true := by
  unfold Mach.lcByte
  try dsimp only
  repeat' first
    | with_reducible
      first
        | assumption | intro _ | apply Mach.memOk_reg | apply Mach.ite_memOk | apply Mach.ite_fst_memOk | apply Mach.ioRead_memOk
        | rfl
    | split
    | dsimp only

theorem Mach.lcBytes_memOk {m : Mach} (h : m.memOk = true) (a0) : (Mach.lcBytes m a0).1.memOk = true := by
  revert h
  fun_induction Mach.lcBytes m a0
  all_goals try intro h
  all_goals try dsimp only
  all_goals
    repeat' first
      | with_reducible
        first
          | assumption | intro _ | apply Mach.memOk_reg | apply Mach.ite_memOk | apply Mach.ite_fst_memOk | apply Mach.lcByte_memOk
          | rfl | apply_assumption
      | split
      | dsimp only

theorem Mach.lcInterrupt_memOk {m : Mach} (h : m.memOk = true) (a0) : (Mach.lcInterrupt m a0).memOk = true := by
  unfold Mach.lcInterrupt
  try dsimp only
  repeat' first
    | with_reducible
      first
        | assumption | intro _ | apply Mach.memOk_reg | apply Mach.ite_memOk | apply Mach.ite_fst_memOk | apply Mach.lcRaise_memOk
        | apply Mach.lcTake_memOk | rfl
    | split
    | dsimp only

theorem Mach.lcStore_memOk {m : Mach} (h : m.memOk = true) (a0) (a1) : (Mach.lcStore m a0 a1).memOk = true := by
  unfold Mach.lcStore
  try dsimp only
  repeat' first
    | with_reducible
      first
        | assumption | intro _ | apply Mach.memOk_reg | apply Mach.ite_memOk | apply Mach.ite_fst_memOk | apply Mach.lcMod_memOk
        | apply Mach.ioWrite_memOk | rfl
    | split
    | dsimp only

theorem lcString_memOk {m : Mach} (h : m.memOk = true) (a0) (a1) : (lcString a0 m a1).memOk := by
  unfold lcString
  try dsimp only
  repeat' first
    | with_reducible
      first
        | assumption | intro _ | apply Mach.memOk_reg | apply Mach.ite_memOk | apply Mach.ite_fst_memOk | apply LcRes.memOk_good
        | apply LcRes.memOk_bad | apply LcRes.memOk_sleep | apply Mach.lcByte_memOk | apply Mach.lcStore_memOk | rfl
    | split
    | dsimp only

theorem Mach.lcRepLoop_memOk (a0) (k : Nat) {m : Mach} (h : m.memOk = true) : (Mach.lcRepLoop a0 k m).memOk = true := by
  induction k generalizing m with
  | zero => exact h
  | succ k ih =>
    have h0 : (m.lcMod Lc.landDue).memOk = true := Mach.lcMod_memOk h _
    have hb := lcString_memOk h0 a0 (m.lcMod Lc.landDue).lc
    unfold Mach.lcRepLoop
    dsimp only
    revert hb
    cases lcString a0 (m.lcMod Lc.landDue) (m.lcMod Lc.landDue).lc with
    | bad c => exact fun _ => Mach.lcFault_memOk h0 _
    | sleep => exact fun _ => h0
    | good x ws t ret =>
      intro hb
      dsimp only
      split
      · exact Mach.lcTake_memOk (Mach.lcMod_memOk (Mach.lcMod_memOk hb _) _)
      · split
        · exact Mach.lcTake_memOk (Mach.lcMod_memOk hb _)
        · exact ih (Mach.lcMod_memOk hb _)

theorem Mach.lcRep_memOk {m : Mach} (h : m.memOk = true) (a0) : (Mach.lcRep m a0).memOk = true := by
  unfold Mach.lcRep
  try dsimp only
  repeat' first
    | with_reducible
      first
        | assumption | intro _ | apply Mach.memOk_reg | apply Mach.ite_memOk | apply Mach.ite_fst_memOk | apply Mach.lcMod_memOk
        | apply Mach.lcFault_memOk | apply Mach.lcTake_memOk | apply Mach.lcRepLoop_memOk | rfl
    | split
    | dsimp only

theorem Mach.lkCommand_memOk {m : Mach} (h : m.memOk = true) (a0) (a1) (a2) (a3) : (Mach.lkCommand m a0 a1 a2 a3).memOk = true := by
  unfold Mach.lkCommand
  try dsimp only
  repeat' first
    | with_reducible
      first
        | assumption | intro _ | apply Mach.memOk_reg | apply Mach.ite_memOk | apply Mach.ite_fst_memOk | apply Mach.when_memOk
        | apply Mach.portWrite_memOk | rfl
    | split
    | dsimp only

theorem Mach.lkDone_memOk {m : Mach} (h : m.memOk = true) (a0) : (Mach.lkDone m a0).memOk = true := by
  unfold Mach.lkDone
  try dsimp only
  repeat' first
    | with_reducible
      first
        | assumption | intro _ | apply Mach.memOk_reg | apply Mach.ite_memOk | apply Mach.ite_fst_memOk | apply Mach.lcRaise_memOk
        | apply Mach.mlinkMod_memOk | rfl
    | split
    | dsimp only

theorem Mach.mradSlot_memOk {m : Mach} (h : m.memOk = true) (a0) : (Mach.mradSlot m a0).memOk = true := by
  unfold Mach.mradSlot
  try dsimp only
  repeat' first
    | with_reducible
      first
        | assumption | intro _ | apply Mach.memOk_reg | apply Mach.ite_memOk | apply Mach.ite_fst_memOk | apply Mach.when_memOk
        | apply Mach.mradGo_memOk | rfl
    | split
    | dsimp only

theorem Mach.lkStart_memOk {m : Mach} (h : m.memOk = true) : (Mach.lkStart m).memOk = true := by
  unfold Mach.lkStart
  try dsimp only
  repeat' first
    | with_reducible
      first
        | assumption | intro _ | apply Mach.memOk_reg | apply Mach.ite_memOk | apply Mach.ite_fst_memOk | apply Mach.mlinkMod_memOk
        | apply Mach.lkDone_memOk | apply Mach.meshCal_memOk | apply Mach.mradSlot_memOk | apply Mach.airQueue_memOk | rfl
    | split
    | dsimp only

theorem Mach.lmLoad_memOk {m : Mach} (h : m.memOk = true) (a0) (a1) : (Mach.lmLoad m a0 a1).1.memOk = true := by
  unfold Mach.lmLoad
  try dsimp only
  repeat' first
    | with_reducible
      first
        | assumption | intro _ | apply Mach.memOk_reg | apply Mach.ite_memOk | apply Mach.ite_fst_memOk | apply Mach.lmRead_memOk
        | rfl
    | split
    | dsimp only

theorem Mach.lmLoads_memOk {m : Mach} (h : m.memOk = true) (a0) (a1) (a2) : (Mach.lmLoads m a0 a1 a2).1.memOk = true := by
  revert h
  fun_induction Mach.lmLoads m a0 a1 a2
  all_goals try intro h
  all_goals try dsimp only
  all_goals
    repeat' first
      | with_reducible
        first
          | assumption | intro _ | apply Mach.memOk_reg | apply Mach.ite_memOk | apply Mach.ite_fst_memOk | apply Mach.lmLoad_memOk
          | rfl | apply_assumption
      | split
      | dsimp only

theorem Mach.lmPairs_memOk {m : Mach} (h : m.memOk = true) (a0) (a1) (a2) : (Mach.lmPairs m a0 a1 a2).1.memOk = true := by
  revert h
  fun_induction Mach.lmPairs m a0 a1 a2
  all_goals try intro h
  all_goals try dsimp only
  all_goals
    repeat' first
      | with_reducible
        first
          | assumption | intro _ | apply Mach.memOk_reg | apply Mach.ite_memOk | apply Mach.ite_fst_memOk | apply Mach.lmRead_memOk
          | rfl | apply_assumption
      | split
      | dsimp only

theorem Mach.lmPlace_memOk {m : Mach} (h : m.memOk = true) (a0) (a1) (a2) : (Mach.lmPlace m a0 a1 a2).memOk = true := by
  unfold Mach.lmPlace
  try dsimp only
  repeat' first
    | with_reducible
      first
        | assumption | intro _ | apply Mach.memOk_reg | apply Mach.ite_memOk | apply Mach.ite_fst_memOk | apply Mach.forEach_memOk
        | apply Mach.lmStore_memOk | rfl
    | split
    | dsimp only

theorem Mach.lmStores_memOk {m : Mach} (h : m.memOk = true) (a0) (a1) (a2) (a3) : (Mach.lmStores m a0 a1 a2 a3).memOk = true := by
  revert h
  fun_induction Mach.lmStores m a0 a1 a2 a3
  all_goals try intro h
  all_goals try dsimp only
  all_goals
    repeat' first
      | with_reducible
        first
          | assumption | intro _ | apply Mach.memOk_reg | apply Mach.ite_memOk | apply Mach.ite_fst_memOk
          | apply Mach.lmStore_memOk | rfl | apply_assumption
      | split
      | dsimp only

theorem Mach.unitWrites_memOk {m : Mach} (h : m.memOk = true) (a0) (a1) : (Mach.unitWrites m a0 a1).memOk = true := by
  revert h
  fun_induction Mach.unitWrites m a0 a1
  all_goals try intro h
  all_goals try dsimp only
  all_goals
    repeat' first
      | with_reducible
        first
          | assumption | intro _ | apply Mach.memOk_reg | apply Mach.ite_memOk | apply Mach.ite_fst_memOk
          | apply Mach.nvmBytes_memOk | rfl | apply_assumption
      | split
      | dsimp only

theorem Mach.nvStore_memOk {m : Mach} (h : m.memOk = true) (a0) (a1) : (Mach.nvStore m a0 a1).memOk = true := by
  unfold Mach.nvStore
  try dsimp only
  repeat' first
    | with_reducible
      first
        | assumption | intro _ | apply Mach.memOk_reg | apply Mach.ite_memOk | apply Mach.ite_fst_memOk | apply Mach.nvFree_memOk
        | apply Mach.poolShow_memOk | apply Mach.nvmMod_memOk | apply Mach.unitWrites_memOk | rfl
    | split
    | dsimp only

theorem Mach.loadPlace_memOk {m : Mach} (h : m.memOk = true) (a0) (a1) (a2) : (Mach.loadPlace m a0 a1 a2).memOk = true := by
  unfold Mach.loadPlace
  try dsimp only
  repeat' first
    | with_reducible
      first
        | assumption | intro _ | apply Mach.memOk_reg | apply Mach.ite_memOk | apply Mach.ite_fst_memOk | apply Mach.shdPlace_memOk
        | apply Mach.nvStore_memOk | apply Mach.wr_memOk | rfl
    | split
    | dsimp only

theorem Mach.loadDone_memOk {m : Mach} (h : m.memOk = true) (a0) : (Mach.loadDone m a0).memOk = true := by
  unfold Mach.loadDone
  try dsimp only
  repeat' first
    | with_reducible
      first
        | assumption | intro _ | apply Mach.memOk_reg | apply Mach.ite_memOk | apply Mach.ite_fst_memOk | apply Mach.nvLoad_memOk
        | apply Mach.wr_memOk | apply Mach.armMod_memOk | apply Mach.ldStat_memOk | apply Mach.setShd_memOk
        | apply Mach.loadPlace_memOk | rfl
    | split
    | dsimp only

theorem Mach.loadEnd_memOk {m : Mach} (h : m.memOk = true) (a0) : (Mach.loadEnd m a0).memOk = true := by
  unfold Mach.loadEnd
  try dsimp only
  repeat' first
    | with_reducible
      first
        | assumption | intro _ | apply Mach.memOk_reg | apply Mach.ite_memOk | apply Mach.ite_fst_memOk | apply Mach.autoArm_memOk
        | apply Mach.loadDone_memOk | rfl
    | split
    | dsimp only

theorem Mach.lpiEnter_memOk {m : Mach} (h : m.memOk = true) (a0) : (Mach.lpiEnter m a0).memOk = true := by
  unfold Mach.lpiEnter
  try dsimp only
  repeat' first
    | with_reducible
      first
        | assumption | intro _ | apply Mach.memOk_reg | apply Mach.ite_memOk | apply Mach.ite_fst_memOk | apply Mach.portMod_memOk
        | apply Mach.wr_memOk | apply Mach.reach_memOk | rfl
    | split
    | dsimp only

theorem Mach.lpiRx_memOk {m : Mach} (h : m.memOk = true) (a0) (a1) : (Mach.lpiRx m a0 a1).memOk = true := by
  unfold Mach.lpiRx
  try dsimp only
  repeat' first
    | with_reducible
      first
        | assumption | intro _ | apply Mach.memOk_reg | apply Mach.ite_memOk | apply Mach.ite_fst_memOk | apply Mach.wr_memOk | rfl
    | split
    | dsimp only

theorem Mach.lpiWake_memOk {m : Mach} (h : m.memOk = true) (a0) : (Mach.lpiWake m a0).memOk = true := by
  unfold Mach.lpiWake
  try dsimp only
  repeat' first
    | with_reducible
      first
        | assumption | intro _ | apply Mach.memOk_reg | apply Mach.ite_memOk | apply Mach.ite_fst_memOk | apply Mach.txChoose_memOk
        | apply Mach.portMod_memOk | apply Mach.wr_memOk | apply Mach.reach_memOk | rfl
    | split
    | dsimp only

theorem Mach.lpmEntry_memOk {m : Mach} (h : m.memOk = true) (a0) (a1) : (Mach.lpmEntry m a0 a1).1.memOk = true := by
  unfold Mach.lpmEntry
  try dsimp only
  repeat' first
    | with_reducible
      first
        | assumption | intro _ | apply Mach.memOk_reg | apply Mach.ite_memOk | apply Mach.ite_fst_memOk | apply Mach.tblReads_memOk
        | rfl
    | split
    | dsimp only

theorem Mach.lpmWalk_memOk {m : Mach} (h : m.memOk = true) (a0) (a1) (a2) (a3) (a4) : (Mach.lpmWalk a0 a1 a2 m a3 a4).1.memOk = true := by
  revert h
  fun_induction Mach.lpmWalk a0 a1 a2 m a3 a4
  all_goals try intro h
  all_goals try dsimp only
  all_goals
    repeat' first
      | with_reducible
        first
          | assumption | intro _ | apply Mach.memOk_reg | apply Mach.ite_memOk | apply Mach.ite_fst_memOk
          | apply Mach.lpmEntry_memOk | rfl | apply_assumption
      | split
      | dsimp only

theorem Mach.lpmLookup_memOk {m : Mach} (h : m.memOk = true) (a0) (a1) : (Mach.lpmLookup m a0 a1).1.memOk = true := by
  unfold Mach.lpmLookup
  try dsimp only
  repeat' first
    | with_reducible
      first
        | assumption | intro _ | apply Mach.memOk_reg | apply Mach.ite_memOk | apply Mach.ite_fst_memOk | apply Mach.lpmWalk_memOk
        | rfl
    | split
    | dsimp only

theorem Mach.lpmUnit_memOk {m : Mach} (h : m.memOk = true) (a0) (a1) : (Mach.lpmUnit m a0 a1).memOk = true := by
  unfold Mach.lpmUnit
  try dsimp only
  repeat' first
    | with_reducible
      first
        | assumption | intro _ | apply Mach.memOk_reg | apply Mach.ite_memOk | apply Mach.ite_fst_memOk
        | apply Mach.unitServe_memOk | apply Mach.rteRefuse_memOk | apply Mach.rteRequest_memOk | apply Mach.itemRefuse_memOk
        | apply Mach.lpmLookup_memOk | rfl
    | split
    | dsimp only

theorem Mach.mboxClose_memOk {m : Mach} (h : m.memOk = true) : (Mach.mboxClose m).memOk = true := by
  unfold Mach.mboxClose
  try dsimp only
  repeat' first
    | with_reducible
      first
        | assumption | intro _ | apply Mach.memOk_reg | apply Mach.ite_memOk | apply Mach.ite_fst_memOk | apply Mach.mlinkMod_memOk
        | apply Mach.wr_memOk | apply Mach.forEach_memOk | apply Mach.logAppend_memOk | rfl
    | split
    | dsimp only

theorem Mach.mainLost_memOk {m : Mach} (h : m.memOk = true) : (Mach.mainLost m).memOk = true := by
  unfold Mach.mainLost
  try dsimp only
  repeat' first
    | with_reducible
      first
        | assumption | intro _ | apply Mach.memOk_reg | apply Mach.ite_memOk | apply Mach.ite_fst_memOk | apply Mach.mlinkMod_memOk
        | apply Mach.mboxClose_memOk | apply Mach.lcRaise_memOk | apply Mach.wr_memOk | apply Mach.count_memOk
        | apply Mach.logAppend_memOk | rfl
    | split
    | dsimp only

theorem Mach.mainReset_memOk {m : Mach} (h : m.memOk = true) : (Mach.mainReset m).memOk = true := by
  unfold Mach.mainReset
  dsimp only
  apply Mach.wr_memOk
  apply Mach.poolShow_memOk
  apply Mach.wr_memOk
  apply Mach.wr_memOk
  apply Mach.setReg_memOk
  apply Mach.memOk_iff.2
  exact ⟨rfl, rfl, (Mach.memOk_iff.1 h).2.2.1, (Mach.memOk_iff.1 h).2.2.2⟩

theorem Mach.mboxCommand_memOk {m : Mach} (a0) (a1) (a2) (a3) (h : m.memOk = true) (ha3 : ∀ (x0 : Mach) x1, x0.memOk = true → (a3
    x0 x1).memOk = true) : (Mach.mboxCommand m a0 a1 a2 a3).memOk = true := by
  unfold Mach.mboxCommand
  try dsimp only
  repeat' first
    | with_reducible
      first
        | assumption | intro _ | apply Mach.memOk_reg | apply Mach.ite_memOk | apply Mach.ite_fst_memOk | apply ha3
        | apply Mach.meshResp_memOk | apply Mach.itemTake_memOk | rfl
    | split
    | dsimp only

theorem Mach.mboxPump_memOk {m : Mach} (h : m.memOk = true) (a0) : (Mach.mboxPump a0 m).memOk = true := by
  revert h
  fun_induction Mach.mboxPump a0 m
  all_goals try intro h
  all_goals try dsimp only
  all_goals
    repeat' first
      | with_reducible
        first
          | assumption | intro _ | apply Mach.memOk_reg | apply Mach.ite_memOk | apply Mach.ite_fst_memOk
          | apply Mach.logShow_memOk | apply Mach.mlinkMod_memOk | apply Mach.mboxSend_memOk | rfl | apply_assumption
      | split
      | dsimp only

theorem Mach.mboxDeliver_memOk {m : Mach} (h : m.memOk = true) : (Mach.mboxDeliver m).memOk = true := by
  unfold Mach.mboxDeliver
  try dsimp only
  repeat' first
    | with_reducible
      first
        | assumption | intro _ | apply Mach.memOk_reg | apply Mach.ite_memOk | apply Mach.ite_fst_memOk
        | apply Mach.meshEvent_memOk | apply Mach.mlinkMod_memOk | apply Mach.mboxPump_memOk | rfl
    | split
    | dsimp only

theorem Mach.mboxAck_memOk {m : Mach} (h : m.memOk = true) : (Mach.mboxAck m).memOk = true := by
  unfold Mach.mboxAck
  try dsimp only
  repeat' first
    | with_reducible
      first
        | assumption | intro _ | apply Mach.memOk_reg | apply Mach.ite_memOk | apply Mach.ite_fst_memOk
        | apply Mach.mboxCommand_memOk | apply Mach.mboxDeliver_memOk | apply Mach.meshResp_memOk | apply Mach.mlinkMod_memOk | rfl
    | split
    | dsimp only

theorem Mach.mboxBad_memOk {m : Mach} (h : m.memOk = true) (a0) : (Mach.mboxBad m a0).memOk = true := by
  unfold Mach.mboxBad
  try dsimp only
  repeat' first
    | with_reducible
      first
        | assumption | intro _ | apply Mach.memOk_reg | apply Mach.ite_memOk | apply Mach.ite_fst_memOk | apply Mach.meshResp_memOk
        | apply Mach.itemTake_memOk | rfl
    | split
    | dsimp only

theorem Mach.mboxOpen_memOk {m : Mach} (h : m.memOk = true) : (Mach.mboxOpen m).memOk = true := by
  unfold Mach.mboxOpen
  try dsimp only
  repeat' first
    | with_reducible
      first
        | assumption | intro _ | apply Mach.memOk_reg | apply Mach.ite_memOk | apply Mach.ite_fst_memOk
        | apply Mach.mboxCommand_memOk | apply Mach.wr_memOk | apply Mach.mlinkMod_memOk | apply Mach.mboxDeliver_memOk
        | apply Mach.logAppend_memOk | apply Mach.meshResp_memOk | rfl
    | split
    | dsimp only

theorem Mach.reachFine_memOk {m : Mach} (h : m.memOk = true) (a0) : (Mach.reachFine m a0).memOk = true := by
  unfold Mach.reachFine
  try dsimp only
  repeat' first
    | with_reducible
      first
        | assumption | intro _ | apply Mach.memOk_reg | apply Mach.ite_memOk | apply Mach.ite_fst_memOk | apply Mach.elapse_memOk
        | rfl
    | split
    | dsimp only

theorem Mach.memWindow_memOk {m : Mach} (h : m.memOk = true) (a0) : (Mach.memWindow m a0).memOk = true := by
  unfold Mach.memWindow
  try dsimp only
  repeat' first
    | with_reducible
      first
        | assumption | intro _ | apply Mach.memOk_reg | apply Mach.ite_memOk | apply Mach.ite_fst_memOk | apply Mach.forEach_memOk
        | apply Mach.memMod_memOk | apply Mach.count_memOk | apply Mach.reachFine_memOk | rfl
    | split
    | dsimp only

theorem Mach.calReply_memOk {m : Mach} (h : m.memOk = true) : (Mach.calReply m).memOk = true := by
  unfold Mach.calReply
  try dsimp only
  repeat' first
    | with_reducible
      first
        | assumption | intro _ | apply Mach.memOk_reg | apply Mach.ite_memOk | apply Mach.ite_fst_memOk | apply Mach.lcRaise_memOk
        | apply Mach.mlinkMod_memOk | rfl
    | split
    | dsimp only

theorem Mach.meshCalDone_memOk {m : Mach} (h : m.memOk = true) (a0) : (Mach.meshCalDone m a0).memOk = true := by
  unfold Mach.meshCalDone
  try dsimp only
  repeat' first
    | with_reducible
      first
        | assumption | intro _ | apply Mach.memOk_reg | apply Mach.ite_memOk | apply Mach.ite_fst_memOk | apply Mach.mradMod_memOk
        | apply Mach.wr_memOk | apply Mach.meshCal_memOk | apply Mach.mradGo_memOk | apply Mach.meshTx_memOk
        | apply Mach.calReply_memOk | rfl
    | split
    | dsimp only

theorem Mach.meshDeadline_memOk {m : Mach} (h : m.memOk = true) : (Mach.meshDeadline m).memOk = true := by
  unfold Mach.meshDeadline
  try dsimp only
  repeat' first
    | with_reducible
      first
        | assumption | intro _ | apply Mach.memOk_reg | apply Mach.ite_memOk | apply Mach.ite_fst_memOk
        | apply Mach.meshTxDone_memOk | rfl
    | split
    | dsimp only

theorem Mach.mradEnded_memOk {m : Mach} (h : m.memOk = true) (a0) (a1) : (Mach.mradEnded m a0 a1).memOk = true := by
  unfold Mach.mradEnded
  try dsimp only
  repeat' first
    | with_reducible
      first
        | assumption | intro _ | apply Mach.memOk_reg | apply Mach.ite_memOk | apply Mach.ite_fst_memOk | apply Mach.when_memOk
        | apply Mach.mlinkMod_memOk | apply Mach.wr_memOk | rfl
    | split
    | dsimp only

theorem Mach.meshDeliver_memOk {m : Mach} (h : m.memOk = true) (a0) (a1) (a2) (a3) (a4) : (Mach.meshDeliver m a0 a1 a2 a3
    a4).memOk = true := by
  unfold Mach.meshDeliver
  try dsimp only
  repeat' first
    | with_reducible
      first
        | assumption | intro _ | apply Mach.memOk_reg | apply Mach.ite_memOk | apply Mach.ite_fst_memOk | apply Mach.lcRaise_memOk
        | apply Mach.mlinkMod_memOk | apply Mach.mradEnded_memOk | apply Mach.lcMod_memOk | rfl
    | split
    | dsimp only

theorem Mach.mradFailed_memOk {m : Mach} (h : m.memOk = true) (a0) : (Mach.mradFailed m a0).memOk = true := by
  unfold Mach.mradFailed
  try dsimp only
  repeat' first
    | with_reducible
      first
        | assumption | intro _ | apply Mach.memOk_reg | apply Mach.ite_memOk | apply Mach.ite_fst_memOk
        | apply Mach.mradEnded_memOk | apply Mach.freeVal_memOk | rfl
    | split
    | dsimp only

theorem Mach.mradRxOver_memOk {m : Mach} (h : m.memOk = true) : (Mach.mradRxOver m).memOk = true := by
  unfold Mach.mradRxOver
  try dsimp only
  repeat' first
    | with_reducible
      first
        | assumption | intro _ | apply Mach.memOk_reg | apply Mach.ite_memOk | apply Mach.ite_fst_memOk | apply Mach.when_memOk
        | apply Mach.mradGo_memOk | rfl
    | split
    | dsimp only

theorem Mach.meshDetect_memOk {m : Mach} (h : m.memOk = true) (a0) (a1) (a2) : (Mach.meshDetect m a0 a1 a2).memOk = true := by
  unfold Mach.meshDetect
  try dsimp only
  repeat' first
    | with_reducible
      first
        | assumption | intro _ | apply Mach.memOk_reg | apply Mach.ite_memOk | apply Mach.ite_fst_memOk | apply Mach.mradMod_memOk
        | apply Mach.meshDeliver_memOk | apply Mach.count_memOk | apply Mach.mradFailed_memOk | rfl
    | split
    | dsimp only

theorem Mach.meshDown_memOk {m : Mach} (h : m.memOk = true) : (Mach.meshDown m).memOk = true := by
  unfold Mach.meshDown
  try dsimp only
  repeat' first
    | with_reducible
      first
        | assumption | intro _ | apply Mach.memOk_reg | apply Mach.ite_memOk | apply Mach.ite_fst_memOk
        | apply Mach.mboxCommand_memOk | apply Mach.meshResp_memOk | apply Mach.mlinkMod_memOk | rfl
    | split
    | dsimp only

theorem Mach.meshFalseLock_memOk {m : Mach} (h : m.memOk = true) : (Mach.meshFalseLock m).memOk = true := by
  unfold Mach.meshFalseLock
  try dsimp only
  repeat' first
    | with_reducible
      first
        | assumption | intro _ | apply Mach.memOk_reg | apply Mach.ite_memOk | apply Mach.ite_fst_memOk | apply Mach.mradMod_memOk
        | apply Mach.count_memOk | apply Mach.mradFailed_memOk | apply Mach.mradRxOver_memOk | rfl
    | split
    | dsimp only

theorem Mach.meshFloodItem_memOk {m : Mach} (h : m.memOk = true) : (Mach.meshFloodItem m).memOk = true := by
  unfold Mach.meshFloodItem
  try dsimp only
  repeat' first
    | with_reducible
      first
        | assumption | intro _ | apply Mach.memOk_reg | apply Mach.ite_memOk | apply Mach.ite_fst_memOk
        | apply Mach.mboxCommand_memOk | apply Mach.meshResp_memOk | apply Mach.mlinkMod_memOk | rfl
    | split
    | dsimp only

theorem Mach.meshHeader_memOk {m : Mach} (h : m.memOk = true) (a0) (a1) (a2) : (Mach.meshHeader m a0 a1 a2).memOk = true := by
  unfold Mach.meshHeader
  try dsimp only
  repeat' first
    | with_reducible
      first
        | assumption | intro _ | apply Mach.memOk_reg | apply Mach.ite_memOk | apply Mach.ite_fst_memOk | apply Mach.mradMod_memOk
        | apply Mach.count_memOk | apply Mach.mradFailed_memOk | apply Mach.mradRxOver_memOk | rfl
    | split
    | dsimp only

end Sys2Proof.Machine
end

