-- ==== Sys2Proof/Laws/Canon4.lean ====
section
/-! SUPPORT. Every operation keeps the memories canonical (part 4 of 4, in the order in which one calls another). -/

namespace Sys2Proof.Machine

open Sys2Proof

set_option maxRecDepth 4000
set_option linter.unusedTactic false
set_option linter.unreachableTactic false

theorem Mach.meshKey_memOk {m : Mach} (h : m.memOk = true) : (Mach.meshKey m).memOk = true := by
  unfold Mach.meshKey
  try dsimp only
  repeat' first
    | with_reducible
      first
        | assumption | intro _ | apply Mach.memOk_reg | apply Mach.ite_memOk | apply Mach.ite_fst_memOk
        | apply Mach.mboxCommand_memOk | apply Mach.meshResp_memOk | apply Mach.setReg_memOk | apply Mach.mlinkMod_memOk | rfl
    | split
    | dsimp only

theorem Mach.meshLock_memOk {m : Mach} (h : m.memOk = true) : (Mach.meshLock m).memOk = true := by
  unfold Mach.meshLock
  try dsimp only
  repeat' first
    | with_reducible
      first
        | assumption | intro _ | apply Mach.memOk_reg | apply Mach.ite_memOk | apply Mach.ite_fst_memOk | apply Mach.mradMod_memOk
        | apply Mach.wr_memOk | apply Mach.meshTx_memOk | rfl
    | split
    | dsimp only

theorem Mach.meshLockLoss_memOk {m : Mach} (h : m.memOk = true) : (Mach.meshLockLoss m).memOk = true := by
  unfold Mach.meshLockLoss
  try dsimp only
  repeat' first
    | with_reducible
      first
        | assumption | intro _ | apply Mach.memOk_reg | apply Mach.ite_memOk | apply Mach.ite_fst_memOk | apply Mach.mradMod_memOk
        | apply Mach.wr_memOk | apply Mach.mradGo_memOk | apply Mach.meshTxDone_memOk | rfl
    | split
    | dsimp only

theorem Mach.meshRxEnd_memOk {m : Mach} (h : m.memOk = true) (a0) (a1) (a2) (a3) : (Mach.meshRxEnd m a0 a1 a2 a3).memOk = true := by
  unfold Mach.meshRxEnd
  try dsimp only
  repeat' first
    | with_reducible
      first
        | assumption | intro _ | apply Mach.memOk_reg | apply Mach.ite_memOk | apply Mach.ite_fst_memOk | apply Mach.count_memOk
        | apply Mach.meshDeliver_memOk | apply Mach.mradMod_memOk | apply Mach.mradRxOver_memOk | rfl
    | split
    | dsimp only

theorem Mach.sendBeacon_memOk {m : Mach} (h : m.memOk = true) (a0) : (Mach.sendBeacon m a0).memOk = true := by
  unfold Mach.sendBeacon
  try dsimp only
  repeat' first
    | with_reducible
      first
        | assumption | intro _ | apply Mach.memOk_reg | apply Mach.ite_memOk | apply Mach.ite_fst_memOk | apply Mach.ownSeq_memOk
        | apply Mach.linkSend_memOk | rfl
    | split
    | dsimp only

theorem Mach.openWindow_memOk {m : Mach} (h : m.memOk = true) (a0) (a1) (a2) (a3) (a4) : (Mach.openWindow m a0 a1 a2 a3 a4).memOk = true := by
  unfold Mach.openWindow
  try dsimp only
  repeat' first
    | with_reducible
      first
        | assumption | intro _ | apply Mach.memOk_reg | apply Mach.ite_memOk | apply Mach.ite_fst_memOk | apply Mach.mlinkMod_memOk
        | apply Mach.mradSlot_memOk | rfl
    | split
    | dsimp only

theorem Mach.meshSlot_memOk {m : Mach} (h : m.memOk = true) (a0) : (Mach.meshSlot m a0).memOk = true := by
  unfold Mach.meshSlot
  try dsimp only
  repeat' first
    | with_reducible
      first
        | assumption | intro _ | apply Mach.memOk_reg | apply Mach.ite_memOk | apply Mach.ite_fst_memOk
        | apply Mach.sendBeacon_memOk | apply Mach.downSlot_memOk | apply Mach.openWindow_memOk | apply Mach.floodSlot_memOk
        | apply Mach.meshCal_memOk | apply Mach.mradSlot_memOk | apply Mach.floorSend_memOk | apply Mach.when_memOk | rfl
    | split
    | dsimp only

theorem Mach.meshSync_memOk {m : Mach} (h : m.memOk = true) (a0) (a1) : (Mach.meshSync m a0 a1).memOk = true := by
  unfold Mach.meshSync
  try dsimp only
  repeat' first
    | with_reducible
      first
        | assumption | intro _ | apply Mach.memOk_reg | apply Mach.ite_memOk | apply Mach.ite_fst_memOk | apply Mach.mradMod_memOk
        | rfl
    | split
    | dsimp only

theorem Mach.meshTemp_memOk {m : Mach} (h : m.memOk = true) (a0) : (Mach.meshTemp m a0).memOk = true := by
  unfold Mach.meshTemp
  try dsimp only
  repeat' first
    | with_reducible
      first
        | assumption | intro _ | apply Mach.memOk_reg | apply Mach.ite_memOk | apply Mach.ite_fst_memOk | apply Mach.wr_memOk
        | apply Mach.lcRaise_memOk | rfl
    | split
    | dsimp only

theorem Mach.meshTxEnd_memOk {m : Mach} (h : m.memOk = true) : (Mach.meshTxEnd m).memOk = true := by
  unfold Mach.meshTxEnd
  try dsimp only
  repeat' first
    | with_reducible
      first
        | assumption | intro _ | apply Mach.memOk_reg | apply Mach.ite_memOk | apply Mach.ite_fst_memOk | apply Mach.count_memOk
        | apply Mach.mradGo_memOk | apply Mach.meshTxDone_memOk | apply Mach.mlinkMod_memOk | rfl
    | split
    | dsimp only

theorem Mach.mirrorReceive_memOk {m : Mach} (h : m.memOk = true) (a0) (a1) : (Mach.mirrorReceive m a0 a1).memOk = true := by
  unfold Mach.mirrorReceive
  try dsimp only
  repeat' first
    | with_reducible
      first
        | assumption | intro _ | apply Mach.memOk_reg | apply Mach.ite_memOk | apply Mach.ite_fst_memOk | apply Mach.guyTake_memOk
        | apply Mach.keyRecord_memOk | apply Mach.recWords_memOk | rfl
    | split
    | dsimp only

theorem Mach.steerPut_memOk {m : Mach} (h : m.memOk = true) (a0) (a1) : (Mach.steerPut m a0 a1).memOk = true := by
  unfold Mach.steerPut
  try dsimp only
  repeat' first
    | with_reducible
      first
        | assumption | intro _ | apply Mach.memOk_reg | apply Mach.ite_memOk | apply Mach.ite_fst_memOk | apply Mach.wr_memOk
        | apply Mach.bbMod_memOk | rfl
    | split
    | dsimp only

theorem Mach.police_memOk {m : Mach} (h : m.memOk = true) (a0) (a1) : (Mach.police m a0 a1).1.memOk = true := by
  unfold Mach.police
  try dsimp only
  repeat' first
    | with_reducible
      first
        | assumption | intro _ | apply Mach.memOk_reg | apply Mach.ite_memOk | apply Mach.ite_fst_memOk
        | apply Mach.setPolicer_memOk | apply Mach.count_memOk | rfl
    | split
    | dsimp only

theorem Mach.uplinkDone_memOk {m : Mach} (h : m.memOk = true) (a0) (a1) : (Mach.uplinkDone m a0 a1).memOk = true := by
  unfold Mach.uplinkDone
  try dsimp only
  repeat' first
    | with_reducible
      first
        | assumption | intro _ | apply Mach.memOk_reg | apply Mach.ite_memOk | apply Mach.ite_fst_memOk | apply Mach.setQueue_memOk
        | apply Mach.forEach_memOk | apply Mach.violation_memOk | rfl
    | split
    | dsimp only

theorem Mach.toIntake_memOk {m : Mach} (h : m.memOk = true) (a0) (a1) : (Mach.toIntake m a0 a1).memOk = true := by
  unfold Mach.toIntake
  try dsimp only
  repeat' first
    | with_reducible
      first
        | assumption | intro _ | apply Mach.memOk_reg | apply Mach.ite_memOk | apply Mach.ite_fst_memOk | apply Mach.police_memOk
        | apply Mach.uplinkDone_memOk | apply Mach.storeFrame_memOk | apply Mach.rteMod_memOk | rfl
    | split
    | dsimp only

theorem Mach.rxDeliverMpdu_memOk {m : Mach} (h : m.memOk = true) (a0) (a1) : (Mach.rxDeliverMpdu m a0 a1).memOk = true := by
  unfold Mach.rxDeliverMpdu
  try dsimp only
  repeat' first
    | with_reducible
      first
        | assumption | intro _ | apply Mach.memOk_reg | apply Mach.ite_memOk | apply Mach.ite_fst_memOk | apply Mach.event_memOk
        | apply Mach.count_memOk | apply Mach.toIntake_memOk | apply Mach.journal_memOk | apply Mach.setKeyE_memOk | rfl
    | split
    | dsimp only

theorem Mach.setBaRx_memOk {m : Mach} (h : m.memOk = true) (a0) (a1) : (Mach.setBaRx m a0 a1).memOk = true := by
  unfold Mach.setBaRx
  try dsimp only
  repeat' first
    | with_reducible
      first
        | assumption | intro _ | apply Mach.memOk_reg | apply Mach.ite_memOk | apply Mach.ite_fst_memOk | apply Mach.wmacMod_memOk
        | rfl
    | split
    | dsimp only

theorem Mach.reorderRun_memOk {m : Mach} (h : m.memOk = true) (a0) (a1) : (Mach.reorderRun a0 a1 m).memOk = true := by
  revert h
  fun_induction Mach.reorderRun a0 a1 m
  all_goals try intro h
  all_goals try dsimp only
  all_goals
    repeat' first
      | with_reducible
        first
          | assumption | intro _ | apply Mach.memOk_reg | apply Mach.ite_memOk | apply Mach.ite_fst_memOk
          | apply Mach.rxDeliverMpdu_memOk | apply Mach.setBaRx_memOk | rfl | apply_assumption
      | split
      | dsimp only

theorem Mach.reorderMove_memOk {m : Mach} (h : m.memOk = true) (a0) (a1) (a2) : (Mach.reorderMove a0 a1 a2 m).memOk = true := by
  revert h
  fun_induction Mach.reorderMove a0 a1 a2 m
  all_goals try intro h
  all_goals try dsimp only
  all_goals
    repeat' first
      | with_reducible
        first
          | assumption | intro _ | apply Mach.memOk_reg | apply Mach.ite_memOk | apply Mach.ite_fst_memOk
          | apply Mach.rxDeliverMpdu_memOk | apply Mach.setBaRx_memOk | rfl | apply_assumption
      | split
      | dsimp only

theorem Mach.reorder_memOk {m : Mach} (h : m.memOk = true) (a0) (a1) (a2) : (Mach.reorder m a0 a1 a2).memOk = true := by
  unfold Mach.reorder
  try dsimp only
  repeat' first
    | with_reducible
      first
        | assumption | intro _ | apply Mach.memOk_reg | apply Mach.ite_memOk | apply Mach.ite_fst_memOk
        | apply Mach.reorderRun_memOk | apply Mach.setBaRx_memOk | apply Mach.reorderMove_memOk | apply Mach.rxDeliverMpdu_memOk
        | apply Mach.count_memOk | rfl
    | split
    | dsimp only

theorem Mach.feedbackIn_memOk {m : Mach} (h : m.memOk = true) (a0) (a1) (a2) (a3) : (Mach.feedbackIn m a0 a1 a2 a3).memOk = true := by
  unfold Mach.feedbackIn
  try dsimp only
  repeat' first
    | with_reducible
      first
        | assumption | intro _ | apply Mach.memOk_reg | apply Mach.ite_memOk | apply Mach.ite_fst_memOk | apply Mach.steerPut_memOk
        | apply Mach.sqMod_memOk | rfl
    | split
    | dsimp only

theorem Mach.mpduReceive_memOk {m : Mach} (h : m.memOk = true) (a0) (a1) : (Mach.mpduReceive m a0 a1).memOk = true := by
  unfold Mach.mpduReceive
  try dsimp only
  repeat' first
    | with_reducible
      first
        | assumption | intro _ | apply Mach.memOk_reg | apply Mach.ite_memOk | apply Mach.ite_fst_memOk | apply Mach.wmacMod_memOk
        | apply Mach.backlogReport_memOk | apply Mach.reorder_memOk | apply Mach.rxDeliverMpdu_memOk | apply Mach.feedbackIn_memOk
        | rfl
    | split
    | dsimp only

theorem Mach.recount_memOk {m : Mach} (h : m.memOk = true) (a0) (a1) (a2) : (Mach.recount m a0 a1 a2).memOk = true := by
  unfold Mach.recount
  try dsimp only
  repeat' first
    | with_reducible
      first
        | assumption | intro _ | apply Mach.memOk_reg | apply Mach.ite_memOk | apply Mach.ite_fst_memOk | apply Mach.forEach_memOk
        | apply Mach.forceCheck_memOk | apply Mach.debtSeen_memOk | apply Mach.dbankMod_memOk | rfl
    | split
    | dsimp only

theorem Mach.reachQuarter_memOk {m : Mach} (h : m.memOk = true) (a0) : (Mach.reachQuarter m a0).memOk = true := by
  unfold Mach.reachQuarter
  try dsimp only
  repeat' first
    | with_reducible
      first
        | assumption | intro _ | apply Mach.memOk_reg | apply Mach.ite_memOk | apply Mach.ite_fst_memOk | apply Mach.elapse_memOk
        | rfl
    | split
    | dsimp only

theorem Mach.mr4Due_memOk {m : Mach} (h : m.memOk = true) (a0) (a1) : (Mach.mr4Due m a0 a1).memOk = true := by
  unfold Mach.mr4Due
  try dsimp only
  repeat' first
    | with_reducible
      first
        | assumption | intro _ | apply Mach.memOk_reg | apply Mach.ite_memOk | apply Mach.ite_fst_memOk | apply Mach.memMod_memOk
        | apply Mach.reachQuarter_memOk | rfl
    | split
    | dsimp only

theorem Mach.mr4Read_memOk {m : Mach} (h : m.memOk = true) (a0) (a1) (a2) (a3) : (Mach.mr4Read m a0 a1 a2 a3).memOk = true := by
  unfold Mach.mr4Read
  try dsimp only
  repeat' first
    | with_reducible
      first
        | assumption | intro _ | apply Mach.memOk_reg | apply Mach.ite_memOk | apply Mach.ite_fst_memOk | apply Mach.wr_memOk
        | apply Mach.recount_memOk | apply Mach.event_memOk | apply Mach.count_memOk | apply Mach.when_memOk
        | apply Mach.memMod_memOk | apply Mach.mr4Due_memOk | rfl
    | split
    | dsimp only

theorem Mach.mradArrive_memOk {m : Mach} (h : m.memOk = true) : (Mach.mradArrive m).memOk = true := by
  unfold Mach.mradArrive
  try dsimp only
  repeat' first
    | with_reducible
      first
        | assumption | intro _ | apply Mach.memOk_reg | apply Mach.ite_memOk | apply Mach.ite_fst_memOk | apply Mach.mradMod_memOk
        | apply Mach.wr_memOk | apply Mach.mradGo_memOk | rfl
    | split
    | dsimp only

theorem Mach.nbrDel_memOk {m : Mach} (h : m.memOk = true) : (Mach.nbrDel m).memOk = true := by
  unfold Mach.nbrDel
  try dsimp only
  repeat' first
    | with_reducible
      first
        | assumption | intro _ | apply Mach.memOk_reg | apply Mach.ite_memOk | apply Mach.ite_fst_memOk
        | apply Mach.mboxCommand_memOk | apply Mach.meshResp_memOk | apply Mach.setNbr_memOk | rfl
    | split
    | dsimp only

theorem Mach.nextHopAt_memOk {m : Mach} (h : m.memOk = true) (a0) : (Mach.nextHopAt m a0).1.memOk = true := by
  unfold Mach.nextHopAt
  try dsimp only
  repeat' first
    | with_reducible
      first
        | assumption | intro _ | apply Mach.memOk_reg | apply Mach.ite_memOk | apply Mach.ite_fst_memOk | apply Mach.tblReads_memOk
        | rfl
    | split
    | dsimp only

theorem Mach.nodeAdd_memOk {m : Mach} (h : m.memOk = true) : (Mach.nodeAdd m).memOk = true := by
  unfold Mach.nodeAdd
  try dsimp only
  repeat' first
    | with_reducible
      first
        | assumption | intro _ | apply Mach.memOk_reg | apply Mach.ite_memOk | apply Mach.ite_fst_memOk
        | apply Mach.mboxCommand_memOk | apply Mach.mlinkMod_memOk | apply Mach.setNbr_memOk | apply Mach.meshResp_memOk | rfl
    | split
    | dsimp only

theorem Mach.nodeDelete_memOk {m : Mach} (h : m.memOk = true) : (Mach.nodeDelete m).memOk = true := by
  unfold Mach.nodeDelete
  try dsimp only
  repeat' first
    | with_reducible
      first
        | assumption | intro _ | apply Mach.memOk_reg | apply Mach.ite_memOk | apply Mach.ite_fst_memOk
        | apply Mach.mboxCommand_memOk | apply Mach.meshResp_memOk | apply Mach.mlinkMod_memOk | rfl
    | split
    | dsimp only

theorem Mach.noteTake_memOk {m : Mach} (h : m.memOk = true) : (Mach.noteTake m).memOk = true := by
  unfold Mach.noteTake
  try dsimp only
  repeat' first
    | with_reducible
      first
        | assumption | intro _ | apply Mach.memOk_reg | apply Mach.ite_memOk | apply Mach.ite_fst_memOk | apply Mach.count_memOk
        | apply Mach.fltMod_memOk | apply Mach.event_memOk | apply Mach.faultRecord_memOk | rfl
    | split
    | dsimp only

theorem Mach.nvMove_memOk {m : Mach} (h : m.memOk = true) (a0) (a1) : (Mach.nvMove m a0 a1).memOk = true := by
  unfold Mach.nvMove
  try dsimp only
  repeat' first
    | with_reducible
      first
        | assumption | intro _ | apply Mach.memOk_reg | apply Mach.ite_memOk | apply Mach.ite_fst_memOk | apply Mach.poolShow_memOk
        | apply Mach.nvmMod_memOk | rfl
    | split
    | dsimp only

theorem Mach.nvmScrub_memOk {m : Mach} (h : m.memOk = true) : (Mach.nvmScrub m).memOk = true := by
  unfold Mach.nvmScrub
  try dsimp only
  repeat' first
    | with_reducible
      first
        | assumption | intro _ | apply Mach.memOk_reg | apply Mach.ite_memOk | apply Mach.ite_fst_memOk | apply Mach.forEach_memOk
        | apply Mach.nvmRead_memOk | apply Mach.nvmWrite_memOk | rfl
    | split
    | dsimp only

theorem Mach.output_memOk {m : Mach} (h : m.memOk = true) (a0) (a1) (a2) : (Mach.output m a0 a1 a2).memOk = true := by
  unfold Mach.output
  try dsimp only
  repeat' first
    | with_reducible
      first
        | assumption | intro _ | apply Mach.memOk_reg | apply Mach.ite_memOk | apply Mach.ite_fst_memOk | apply Mach.journal_memOk
        | apply Mach.setTe_memOk | rfl
    | split
    | dsimp only

theorem Mach.seqCheck_memOk {m : Mach} (h : m.memOk = true) (a0) (a1) : (Mach.seqCheck m a0 a1).memOk = true := by
  unfold Mach.seqCheck
  try dsimp only
  repeat' first
    | with_reducible
      first
        | assumption | intro _ | apply Mach.memOk_reg | apply Mach.ite_memOk | apply Mach.ite_fst_memOk | apply Mach.when_memOk
        | apply Mach.report_memOk | apply Mach.sysMod_memOk | rfl
    | split
    | dsimp only

theorem Mach.packetArrive_memOk {m : Mach} (h : m.memOk = true) (a0) (a1) : (Mach.packetArrive m a0 a1).memOk = true := by
  unfold Mach.packetArrive
  try dsimp only
  repeat' first
    | with_reducible
      first
        | assumption | intro _ | apply Mach.memOk_reg | apply Mach.ite_memOk | apply Mach.ite_fst_memOk | apply Mach.when_memOk
        | apply Mach.seqCheck_memOk | apply Mach.rpLeave_memOk | rfl
    | split
    | dsimp only

theorem Mach.pairAlive_memOk {m : Mach} (h : m.memOk = true) (a0) : (Mach.pairAlive m a0).memOk = true := by
  unfold Mach.pairAlive
  try dsimp only
  repeat' first
    | with_reducible
      first
        | assumption | intro _ | apply Mach.memOk_reg | apply Mach.ite_memOk | apply Mach.ite_fst_memOk | apply Mach.event_memOk
        | apply Mach.chnMod_memOk | apply Mach.count_memOk | rfl
    | split
    | dsimp only

theorem Mach.pairJoin_memOk {m : Mach} (h : m.memOk = true) : (Mach.pairJoin m).memOk = true := by
  unfold Mach.pairJoin
  try dsimp only
  repeat' first
    | with_reducible
      first
        | assumption | intro _ | apply Mach.memOk_reg | apply Mach.ite_memOk | apply Mach.ite_fst_memOk | apply Mach.chnMod_memOk
        | apply Mach.toStandby_memOk | apply Mach.cfgSend_memOk | apply Mach.fenceTest_memOk | apply Mach.snapSend_memOk | rfl
    | split
    | dsimp only

theorem Mach.pairQuery_memOk {m : Mach} (h : m.memOk = true) (a0) : (Mach.pairQuery m a0).memOk = true := by
  unfold Mach.pairQuery
  try dsimp only
  repeat' first
    | with_reducible
      first
        | assumption | intro _ | apply Mach.memOk_reg | apply Mach.ite_memOk | apply Mach.ite_fst_memOk | apply Mach.campSend_memOk
        | rfl
    | split
    | dsimp only

theorem Mach.toServing_memOk {m : Mach} (h : m.memOk = true) (a0) : (Mach.toServing m a0).memOk = true := by
  unfold Mach.toServing
  try dsimp only
  repeat' first
    | with_reducible
      first
        | assumption | intro _ | apply Mach.memOk_reg | apply Mach.ite_memOk | apply Mach.ite_fst_memOk | apply Mach.chnMod_memOk
        | apply Mach.setRole_memOk | rfl
    | split
    | dsimp only

theorem Mach.pairWait_memOk {m : Mach} (h : m.memOk = true) : (Mach.pairWait m).memOk = true := by
  unfold Mach.pairWait
  try dsimp only
  repeat' first
    | with_reducible
      first
        | assumption | intro _ | apply Mach.memOk_reg | apply Mach.ite_memOk | apply Mach.ite_fst_memOk | apply Mach.wr_memOk
        | apply Mach.toServing_memOk | apply Mach.event_memOk | apply Mach.reachRun_memOk | apply Mach.chnMod_memOk | rfl
    | split
    | dsimp only

theorem Mach.parentReceive_memOk {m : Mach} (h : m.memOk = true) : (Mach.parentReceive m).memOk = true := by
  unfold Mach.parentReceive
  try dsimp only
  repeat' first
    | with_reducible
      first
        | assumption | intro _ | apply Mach.memOk_reg | apply Mach.ite_memOk | apply Mach.ite_fst_memOk | apply Mach.linkTake_memOk
        | apply Mach.owesAck_memOk | apply Mach.meshEvent_memOk | rfl
    | split
    | dsimp only

theorem Mach.statBit_memOk {m : Mach} (h : m.memOk = true) (a0) (a1) (a2) (a3) : (Mach.statBit m a0 a1 a2 a3).memOk = true := by
  unfold Mach.statBit
  try dsimp only
  repeat' first
    | with_reducible
      first
        | assumption | intro _ | apply Mach.memOk_reg | apply Mach.ite_memOk | apply Mach.ite_fst_memOk | apply Mach.setReg_memOk
        | rfl
    | split
    | dsimp only

theorem Mach.pauseClear_memOk {m : Mach} (h : m.memOk = true) (a0) (a1) : (Mach.pauseClear m a0 a1).memOk = true := by
  unfold Mach.pauseClear
  try dsimp only
  repeat' first
    | with_reducible
      first
        | assumption | intro _ | apply Mach.memOk_reg | apply Mach.ite_memOk | apply Mach.ite_fst_memOk | apply Mach.statBit_memOk
        | apply Mach.portMod_memOk | rfl
    | split
    | dsimp only

theorem Mach.pauseExpire_memOk {m : Mach} (h : m.memOk = true) (a0) (a1) : (Mach.pauseExpire m a0 a1).memOk = true := by
  unfold Mach.pauseExpire
  try dsimp only
  repeat' first
    | with_reducible
      first
        | assumption | intro _ | apply Mach.memOk_reg | apply Mach.ite_memOk | apply Mach.ite_fst_memOk | apply Mach.txChoose_memOk
        | apply Mach.pauseClear_memOk | apply Mach.reach_memOk | rfl
    | split
    | dsimp only

theorem Mach.pauseIgnoreEnd_memOk {m : Mach} (h : m.memOk = true) (a0) (a1) : (Mach.pauseIgnoreEnd m a0 a1).memOk = true := by
  unfold Mach.pauseIgnoreEnd
  try dsimp only
  repeat' first
    | with_reducible
      first
        | assumption | intro _ | apply Mach.memOk_reg | apply Mach.ite_memOk | apply Mach.ite_fst_memOk | apply Mach.statBit_memOk
        | apply Mach.reach_memOk | rfl
    | split
    | dsimp only

theorem Mach.pauseSet_memOk {m : Mach} (h : m.memOk = true) (a0) (a1) (a2) : (Mach.pauseSet m a0 a1 a2).memOk = true := by
  unfold Mach.pauseSet
  try dsimp only
  repeat' first
    | with_reducible
      first
        | assumption | intro _ | apply Mach.memOk_reg | apply Mach.ite_memOk | apply Mach.ite_fst_memOk | apply Mach.statBit_memOk
        | apply Mach.portMod_memOk | rfl
    | split
    | dsimp only

theorem Mach.pauseReceive_memOk {m : Mach} (h : m.memOk = true) (a0) (a1) (a2) (a3) : (Mach.pauseReceive m a0 a1 a2 a3).memOk = true := by
  unfold Mach.pauseReceive
  try dsimp only
  repeat' first
    | with_reducible
      first
        | assumption | intro _ | apply Mach.memOk_reg | apply Mach.ite_memOk | apply Mach.ite_fst_memOk | apply Mach.portMod_memOk
        | apply Mach.txChoose_memOk | apply Mach.forEach_memOk | apply Mach.pauseClear_memOk | apply Mach.pauseSet_memOk | rfl
    | split
    | dsimp only

theorem Mach.pauseResend_memOk {m : Mach} (h : m.memOk = true) (a0) : (Mach.pauseResend m a0).memOk = true := by
  unfold Mach.pauseResend
  try dsimp only
  repeat' first
    | with_reducible
      first
        | assumption | intro _ | apply Mach.memOk_reg | apply Mach.ite_memOk | apply Mach.ite_fst_memOk | apply Mach.txChoose_memOk
        | apply Mach.portMod_memOk | apply Mach.reach_memOk | rfl
    | split
    | dsimp only

theorem Mach.pauseStorm_memOk {m : Mach} (h : m.memOk = true) (a0) (a1) : (Mach.pauseStorm m a0 a1).memOk = true := by
  unfold Mach.pauseStorm
  try dsimp only
  repeat' first
    | with_reducible
      first
        | assumption | intro _ | apply Mach.memOk_reg | apply Mach.ite_memOk | apply Mach.ite_fst_memOk | apply Mach.event_memOk
        | apply Mach.count_memOk | apply Mach.statBit_memOk | apply Mach.pauseClear_memOk | apply Mach.portMod_memOk
        | apply Mach.reach_memOk | apply Mach.txChoose_memOk | rfl
    | split
    | dsimp only

theorem Mach.payloadReceive_memOk {m : Mach} (h : m.memOk = true) (a0) (a1) : (Mach.payloadReceive m a0 a1).memOk = true := by
  unfold Mach.payloadReceive
  try dsimp only
  repeat' first
    | with_reducible
      first
        | assumption | intro _ | apply Mach.memOk_reg | apply Mach.ite_memOk | apply Mach.ite_fst_memOk | apply Mach.guyTake_memOk
        | apply Mach.chnMod_memOk | apply Mach.dramWrites_memOk | rfl
    | split
    | dsimp only

theorem Mach.pdetPower_memOk {m : Mach} (h : m.memOk = true) (a0) (a1) (a2) : (Mach.pdetPower m a0 a1 a2).1.memOk = true := by
  unfold Mach.pdetPower
  try dsimp only
  repeat' first
    | with_reducible
      first
        | assumption | intro _ | apply Mach.memOk_reg | apply Mach.ite_memOk | apply Mach.ite_fst_memOk | apply Mach.freeVal_memOk
        | rfl
    | split
    | dsimp only

theorem Mach.pegEnd_memOk {m : Mach} (h : m.memOk = true) : (Mach.pegEnd m).memOk = true := by
  unfold Mach.pegEnd
  try dsimp only
  repeat' first
    | with_reducible
      first
        | assumption | intro _ | apply Mach.memOk_reg | apply Mach.ite_memOk | apply Mach.ite_fst_memOk | apply Mach.event_memOk
        | apply Mach.chnMod_memOk | apply Mach.wr_memOk | apply Mach.reachRun_memOk | rfl
    | split
    | dsimp only

theorem Mach.pegTaken_memOk {m : Mach} (h : m.memOk = true) (a0) : (Mach.pegTaken m a0).memOk = true := by
  unfold Mach.pegTaken
  try dsimp only
  repeat' first
    | with_reducible
      first
        | assumption | intro _ | apply Mach.memOk_reg | apply Mach.ite_memOk | apply Mach.ite_fst_memOk | apply Mach.chnMod_memOk
        | rfl
    | split
    | dsimp only

theorem Mach.pegNak_memOk {m : Mach} (h : m.memOk = true) (a0) : (Mach.pegNak m a0).memOk = true := by
  unfold Mach.pegNak
  try dsimp only
  repeat' first
    | with_reducible
      first
        | assumption | intro _ | apply Mach.memOk_reg | apply Mach.ite_memOk | apply Mach.ite_fst_memOk | apply Mach.peg_memOk
        | apply Mach.pegTaken_memOk | apply Mach.event_memOk | apply Mach.wr_memOk | rfl
    | split
    | dsimp only

theorem Mach.pegReceive_memOk {m : Mach} (h : m.memOk = true) (a0) : (Mach.pegReceive m a0).memOk = true := by
  unfold Mach.pegReceive
  try dsimp only
  repeat' first
    | with_reducible
      first
        | assumption | intro _ | apply Mach.memOk_reg | apply Mach.ite_memOk | apply Mach.ite_fst_memOk | apply Mach.campSend_memOk
        | apply Mach.peg_memOk | apply Mach.pegTaken_memOk | rfl
    | split
    | dsimp only

theorem Mach.pendingMove_memOk {m : Mach} (h : m.memOk = true) : (Mach.pendingMove m).memOk = true := by
  unfold Mach.pendingMove
  try dsimp only
  repeat' first
    | with_reducible
      first
        | assumption | intro _ | apply Mach.memOk_reg | apply Mach.ite_memOk | apply Mach.ite_fst_memOk | apply Mach.nvLoad_memOk
        | apply Mach.nvMove_memOk | rfl
    | split
    | dsimp only

theorem Mach.perstRelease_memOk {m : Mach} (h : m.memOk = true) (a0) (a1) : (Mach.perstRelease m a0 a1).memOk = true := by
  unfold Mach.perstRelease
  try dsimp only
  repeat' first
    | with_reducible
      first
        | assumption | intro _ | apply Mach.memOk_reg | apply Mach.ite_memOk | apply Mach.ite_fst_memOk | apply Mach.sysMod_memOk
        | apply Mach.wr_memOk | rfl
    | split
    | dsimp only

theorem Mach.pmbusPoll_memOk {m : Mach} (h : m.memOk = true) (a0) (a1) : (Mach.pmbusPoll m a0 a1).memOk = true := by
  unfold Mach.pmbusPoll
  try dsimp only
  repeat' first
    | with_reducible
      first
        | assumption | intro _ | apply Mach.memOk_reg | apply Mach.ite_memOk | apply Mach.ite_fst_memOk | apply Mach.wr_memOk | rfl
    | split
    | dsimp only

theorem Mach.pointerSave_memOk {m : Mach} (h : m.memOk = true) : (Mach.pointerSave m).memOk = true := by
  unfold Mach.pointerSave
  try dsimp only
  repeat' first
    | with_reducible
      first
        | assumption | intro _ | apply Mach.memOk_reg | apply Mach.ite_memOk | apply Mach.ite_fst_memOk | apply Mach.mlinkMod_memOk
        | rfl
    | split
    | dsimp only

theorem Mach.polUnit_memOk {m : Mach} (h : m.memOk = true) (a0) (a1) : (Mach.polUnit m a0 a1).memOk = true := by
  unfold Mach.polUnit
  try dsimp only
  repeat' first
    | with_reducible
      first
        | assumption | intro _ | apply Mach.memOk_reg | apply Mach.ite_memOk | apply Mach.ite_fst_memOk
        | apply Mach.unitServe_memOk | apply Mach.rteRequest_memOk | apply Mach.itemRefuse_memOk | apply Mach.judge_memOk | rfl
    | split
    | dsimp only

theorem Mach.porstAssert_memOk {m : Mach} (h : m.memOk = true) : (Mach.porstAssert m).memOk = true := by
  unfold Mach.porstAssert
  try dsimp only
  repeat' first
    | with_reducible
      first
        | assumption | intro _ | apply Mach.memOk_reg | apply Mach.ite_memOk | apply Mach.ite_fst_memOk | apply Mach.setStep_memOk
        | apply Mach.sysMod_memOk | apply Mach.mainReset_memOk | apply Mach.when_memOk | apply Mach.mboxClose_memOk | rfl
    | split
    | dsimp only

theorem Mach.settingsStart_memOk {m : Mach} (h : m.memOk = true) : (Mach.settingsStart m).memOk = true := by
  unfold Mach.settingsStart
  try dsimp only
  repeat' first
    | with_reducible
      first
        | assumption | intro _ | apply Mach.memOk_reg | apply Mach.ite_memOk | apply Mach.ite_fst_memOk | apply Mach.nvBytes_memOk
        | apply Mach.regShow_memOk | apply Mach.forEach_memOk | apply Mach.setReg_memOk | apply Mach.wr_memOk | rfl
    | split
    | dsimp only

theorem Mach.startUp_memOk {m : Mach} (h : m.memOk = true) (a0) : (Mach.startUp m a0).memOk = true := by
  unfold Mach.startUp
  try dsimp only
  repeat' first
    | with_reducible
      first
        | assumption | intro _ | apply Mach.memOk_reg | apply Mach.ite_memOk | apply Mach.ite_fst_memOk
        | apply Mach.copyRepair_memOk | apply Mach.settingsStart_memOk | apply Mach.setStep_memOk | apply Mach.fallbackCheck_memOk
        | apply Mach.pendingMove_memOk | apply Mach.bootVerify_memOk | apply Mach.bootNext_memOk | apply Mach.idStart_memOk | rfl
    | split
    | dsimp only

theorem Mach.porstRelease_memOk {m : Mach} (h : m.memOk = true) (a0) (a1) : (Mach.porstRelease m a0 a1).memOk = true := by
  unfold Mach.porstRelease
  try dsimp only
  repeat' first
    | with_reducible
      first
        | assumption | intro _ | apply Mach.memOk_reg | apply Mach.ite_memOk | apply Mach.ite_fst_memOk | apply Mach.timMod_memOk
        | apply Mach.setReg_memOk | apply Mach.sysMod_memOk | apply Mach.startUp_memOk | apply Mach.setStep_memOk | rfl
    | split
    | dsimp only

theorem Mach.postFrame_memOk {m : Mach} (h : m.memOk = true) (a0) : (Mach.postFrame m a0).memOk = true := by
  unfold Mach.postFrame
  try dsimp only
  repeat' first
    | with_reducible
      first
        | assumption | intro _ | apply Mach.memOk_reg | apply Mach.ite_memOk | apply Mach.ite_fst_memOk | apply Mach.hifMod_memOk
        | rfl
    | split
    | dsimp only

theorem Mach.postUnit_memOk {m : Mach} (h : m.memOk = true) (a0) (a1) : (Mach.postUnit m a0 a1).memOk = true := by
  unfold Mach.postUnit
  try dsimp only
  repeat' first
    | with_reducible
      first
        | assumption | intro _ | apply Mach.memOk_reg | apply Mach.ite_memOk | apply Mach.ite_fst_memOk
        | apply Mach.unitServe_memOk | apply Mach.frameBytes_memOk | apply Mach.postFrame_memOk | rfl
    | split
    | dsimp only

theorem Mach.postdUnit_memOk {m : Mach} (h : m.memOk = true) (a0) (a1) : (Mach.postdUnit m a0 a1).memOk = true := by
  unfold Mach.postdUnit
  try dsimp only
  repeat' first
    | with_reducible
      first
        | assumption | intro _ | apply Mach.memOk_reg | apply Mach.ite_memOk | apply Mach.ite_fst_memOk
        | apply Mach.unitServe_memOk | apply Mach.postFrame_memOk | rfl
    | split
    | dsimp only

theorem Mach.powerFail_memOk {m : Mach} (h : m.memOk = true) : (Mach.powerFail m).memOk = true := by
  unfold Mach.powerFail
  try dsimp only
  repeat' first
    | with_reducible
      first
        | assumption | intro _ | apply Mach.memOk_reg | apply Mach.ite_memOk | apply Mach.ite_fst_memOk | apply Mach.sysMod_memOk
        | apply Mach.setReg_memOk | apply Mach.mainReset_memOk | apply Mach.mainLost_memOk | rfl
    | split
    | dsimp only

theorem Mach.powerGuard_memOk {m : Mach} (h : m.memOk = true) (a0) (a1) (a2) : (Mach.powerGuard m a0 a1 a2).memOk = true := by
  unfold Mach.powerGuard
  try dsimp only
  repeat' first
    | with_reducible
      first
        | assumption | intro _ | apply Mach.memOk_reg | apply Mach.ite_memOk | apply Mach.ite_fst_memOk
        | apply Mach.pdetPower_memOk | apply Mach.radioMod_memOk | apply Mach.event_memOk | apply Mach.setReg_memOk | rfl
    | split
    | dsimp only

theorem Mach.powerUp_memOk {m : Mach} (h : m.memOk = true) (a0) : (Mach.powerUp m a0).memOk = true := by
  unfold Mach.powerUp
  try dsimp only
  repeat' first
    | with_reducible
      first
        | assumption | intro _ | apply Mach.memOk_reg | apply Mach.ite_memOk | apply Mach.ite_fst_memOk | apply Mach.sysMod_memOk
        | apply Mach.startUp_memOk | rfl
    | split
    | dsimp only

theorem Mach.ppduDetect_memOk {m : Mach} (h : m.memOk = true) (a0) (a1) : (Mach.ppduDetect m a0 a1).memOk = true := by
  unfold Mach.ppduDetect
  try dsimp only
  repeat' first
    | with_reducible
      first
        | assumption | intro _ | apply Mach.memOk_reg | apply Mach.ite_memOk | apply Mach.ite_fst_memOk | apply Mach.setRx_memOk
        | rfl
    | split
    | dsimp only

theorem Mach.rxOver_memOk {m : Mach} (h : m.memOk = true) (a0) : (Mach.rxOver m a0).memOk = true := by
  unfold Mach.rxOver
  try dsimp only
  repeat' first
    | with_reducible
      first
        | assumption | intro _ | apply Mach.memOk_reg | apply Mach.ite_memOk | apply Mach.ite_fst_memOk | apply Mach.setRx_memOk
        | apply Mach.radioFree_memOk | apply Mach.radioBack_memOk | rfl
    | split
    | dsimp only

theorem Mach.ppduRxEnd_memOk {m : Mach} (h : m.memOk = true) (a0) (a1) (a2) (a3) : (Mach.ppduRxEnd m a0 a1 a2 a3).memOk = true := by
  unfold Mach.ppduRxEnd
  try dsimp only
  repeat' first
    | with_reducible
      first
        | assumption | intro _ | apply Mach.memOk_reg | apply Mach.ite_memOk | apply Mach.ite_fst_memOk | apply Mach.bbMod_memOk
        | apply Mach.rxOver_memOk | apply Mach.rxDeliverAs_memOk | rfl
    | split
    | dsimp only

theorem Mach.radioTxEnd_memOk {m : Mach} (h : m.memOk = true) (a0) (a1) : (Mach.radioTxEnd m a0 a1).1.memOk = true := by
  unfold Mach.radioTxEnd
  try dsimp only
  repeat' first
    | with_reducible
      first
        | assumption | intro _ | apply Mach.memOk_reg | apply Mach.ite_memOk | apply Mach.ite_fst_memOk | apply Mach.forEach_memOk
        | apply Mach.powerGuard_memOk | apply Mach.radioTxDone_memOk | apply Mach.radioMod_memOk | apply Mach.radioBack_memOk | rfl
    | split
    | dsimp only

theorem Mach.ppduTxEnd_memOk {m : Mach} (h : m.memOk = true) (a0) (a1) (a2) : (Mach.ppduTxEnd m a0 a1 a2).memOk = true := by
  unfold Mach.ppduTxEnd
  try dsimp only
  repeat' first
    | with_reducible
      first
        | assumption | intro _ | apply Mach.memOk_reg | apply Mach.ite_memOk | apply Mach.ite_fst_memOk
        | apply Mach.radioTxEnd_memOk | apply Mach.strMeasure_memOk | apply Mach.afterRadio_memOk | rfl
    | split
    | dsimp only

theorem Mach.ppsEnd_memOk {m : Mach} (h : m.memOk = true) : (Mach.ppsEnd m).memOk = true := by
  unfold Mach.ppsEnd
  try dsimp only
  repeat' first
    | with_reducible
      first
        | assumption | intro _ | apply Mach.memOk_reg | apply Mach.ite_memOk | apply Mach.ite_fst_memOk | apply Mach.timMod_memOk
        | rfl
    | split
    | dsimp only

theorem Mach.ppsStart_memOk {m : Mach} (h : m.memOk = true) : (Mach.ppsStart m).memOk = true := by
  unfold Mach.ppsStart
  try dsimp only
  repeat' first
    | with_reducible
      first
        | assumption | intro _ | apply Mach.memOk_reg | apply Mach.ite_memOk | apply Mach.ite_fst_memOk | apply Mach.timMod_memOk
        | rfl
    | split
    | dsimp only

theorem Mach.pullUnit_memOk {m : Mach} (h : m.memOk = true) (a0) (a1) : (Mach.pullUnit m a0 a1).memOk = true := by
  unfold Mach.pullUnit
  try dsimp only
  repeat' first
    | with_reducible
      first
        | assumption | intro _ | apply Mach.memOk_reg | apply Mach.ite_memOk | apply Mach.ite_fst_memOk
        | apply Mach.unitServe_memOk | apply Mach.rteRefuse_memOk | apply Mach.rteMod_memOk | rfl
    | split
    | dsimp only

theorem Mach.unitUnlisted_memOk {m : Mach} (h : m.memOk = true) (a0) (a1) : (Mach.unitUnlisted m a0 a1).memOk = true := by
  unfold Mach.unitUnlisted
  try dsimp only
  repeat' first
    | with_reducible
      first
        | assumption | intro _ | apply Mach.memOk_reg | apply Mach.ite_memOk | apply Mach.ite_fst_memOk | apply Mach.accDone_memOk
        | apply Mach.when_memOk | apply Mach.count_memOk | rfl
    | split
    | dsimp only

theorem Mach.putComplete_memOk {m : Mach} (h : m.memOk = true) (a0) (a1) (a2) : (Mach.putComplete m a0 a1 a2).memOk = true := by
  unfold Mach.putComplete
  try dsimp only
  repeat' first
    | with_reducible
      first
        | assumption | intro _ | apply Mach.memOk_reg | apply Mach.ite_memOk | apply Mach.ite_fst_memOk | apply Mach.accDone_memOk
        | apply Mach.lmPlace_memOk | apply Mach.unitUnlisted_memOk | apply Mach.farPut_memOk | rfl
    | split
    | dsimp only

theorem Mach.pwrExternal_memOk {m : Mach} (h : m.memOk = true) (a0) (a1) (a2) : (Mach.pwrExternal m a0 a1 a2).memOk = true := by
  unfold Mach.pwrExternal
  try dsimp only
  repeat' first
    | with_reducible
      first
        | assumption | intro _ | apply Mach.memOk_reg | apply Mach.ite_memOk | apply Mach.ite_fst_memOk | apply Mach.pwrWake_memOk
        | rfl
    | split
    | dsimp only

theorem Mach.qchAcked_memOk {m : Mach} (h : m.memOk = true) (a0) (a1) : (Mach.qchAcked m a0 a1).memOk = true := by
  unfold Mach.qchAcked
  try dsimp only
  repeat' first
    | with_reducible
      first
        | assumption | intro _ | apply Mach.memOk_reg | apply Mach.ite_memOk | apply Mach.ite_fst_memOk | apply Mach.serve_memOk
        | rfl
    | split
    | dsimp only

theorem Mach.qchFetch_memOk {m : Mach} (h : m.memOk = true) (a0) (a1) : (Mach.qchFetch m a0 a1).memOk = true := by
  unfold Mach.qchFetch
  try dsimp only
  repeat' first
    | with_reducible
      first
        | assumption | intro _ | apply Mach.memOk_reg | apply Mach.ite_memOk | apply Mach.ite_fst_memOk | apply Mach.serve_memOk
        | apply Mach.chTake_memOk | apply Mach.chDelivers_memOk | rfl
    | split
    | dsimp only

theorem Mach.qchHeaded_memOk {m : Mach} (h : m.memOk = true) (a0) (a1) : (Mach.qchHeaded m a0 a1).memOk = true := by
  unfold Mach.qchHeaded
  try dsimp only
  repeat' first
    | with_reducible
      first
        | assumption | intro _ | apply Mach.memOk_reg | apply Mach.ite_memOk | apply Mach.ite_fst_memOk | apply Mach.serve_memOk
        | apply Mach.chTake_memOk | apply Mach.chDelivers_memOk | rfl
    | split
    | dsimp only

theorem Mach.qchPut_memOk {m : Mach} (h : m.memOk = true) (a0) (a1) : (Mach.qchPut m a0 a1).memOk = true := by
  unfold Mach.qchPut
  try dsimp only
  repeat' first
    | with_reducible
      first
        | assumption | intro _ | apply Mach.memOk_reg | apply Mach.ite_memOk | apply Mach.ite_fst_memOk | apply Mach.serve_memOk
        | apply Mach.teMod_memOk | apply Mach.chReceive_memOk | apply Mach.chRefuse_memOk | rfl
    | split
    | dsimp only

theorem Mach.qitem_memOk {m : Mach} (h : m.memOk = true) (a0) (a1) (a2) (a3) : (Mach.qitem m a0 a1 a2 a3).memOk = true := by
  unfold Mach.qitem
  try dsimp only
  repeat' first
    | with_reducible
      first
        | assumption | intro _ | apply Mach.memOk_reg | apply Mach.ite_memOk | apply Mach.ite_fst_memOk | apply Mach.chRefuse_memOk
        | apply Mach.chFrom_memOk | rfl
    | split
    | dsimp only

theorem Mach.queryRepeat_memOk {m : Mach} (h : m.memOk = true) (a0) : (Mach.queryRepeat m a0).memOk = true := by
  unfold Mach.queryRepeat
  try dsimp only
  repeat' first
    | with_reducible
      first
        | assumption | intro _ | apply Mach.memOk_reg | apply Mach.ite_memOk | apply Mach.ite_fst_memOk | apply Mach.reach_memOk
        | apply Mach.campSend_memOk | rfl
    | split
    | dsimp only

theorem Mach.radioArrive_memOk {m : Mach} (h : m.memOk = true) (a0) : (Mach.radioArrive m a0).1.memOk = true := by
  unfold Mach.radioArrive
  try dsimp only
  repeat' first
    | with_reducible
      first
        | assumption | intro _ | apply Mach.memOk_reg | apply Mach.ite_memOk | apply Mach.ite_fst_memOk | apply Mach.radioMod_memOk
        | apply Mach.wr_memOk | apply Mach.radioGo_memOk | apply Mach.txNext_memOk | rfl
    | split
    | dsimp only

theorem Mach.radioTemp_memOk {m : Mach} (h : m.memOk = true) (a0) (a1) : (Mach.radioTemp m a0 a1).memOk = true := by
  unfold Mach.radioTemp
  try dsimp only
  repeat' first
    | with_reducible
      first
        | assumption | intro _ | apply Mach.memOk_reg | apply Mach.ite_memOk | apply Mach.ite_fst_memOk | apply Mach.forEach_memOk
        | apply Mach.radioMod_memOk | apply Mach.when_memOk | apply Mach.wr_memOk | apply Mach.staleCheck_memOk | rfl
    | split
    | dsimp only

theorem Mach.reachLantern_memOk {m : Mach} (h : m.memOk = true) (a0) : (Mach.reachLantern m a0).memOk = true := by
  unfold Mach.reachLantern
  try dsimp only
  repeat' first
    | with_reducible
      first
        | assumption | intro _ | apply Mach.memOk_reg | apply Mach.ite_memOk | apply Mach.ite_fst_memOk | apply Mach.elapse_memOk
        | rfl
    | split
    | dsimp only

theorem Mach.readyCap_memOk {m : Mach} (h : m.memOk = true) : (Mach.readyCap m).memOk = true := by
  unfold Mach.readyCap
  try dsimp only
  repeat' first
    | with_reducible
      first
        | assumption | intro _ | apply Mach.memOk_reg | apply Mach.ite_memOk | apply Mach.ite_fst_memOk | apply Mach.bootNext_memOk
        | apply Mach.bootReady_memOk | apply Mach.elapse_memOk | rfl
    | split
    | dsimp only

theorem Mach.refItem_memOk {m : Mach} (h : m.memOk = true) (a0) (a1) : (Mach.refItem m a0 a1).1.memOk = true := by
  unfold Mach.refItem
  try dsimp only
  repeat' first
    | with_reducible
      first
        | assumption | intro _ | apply Mach.memOk_reg | apply Mach.ite_memOk | apply Mach.ite_fst_memOk
        | apply Mach.itemRefuse_memOk | apply Mach.itemStale_memOk | apply Mach.refAct_memOk | rfl
    | split
    | dsimp only

theorem Mach.refUnit_memOk {m : Mach} (h : m.memOk = true) (a0) (a1) : (Mach.refUnit m a0 a1).memOk = true := by
  unfold Mach.refUnit
  try dsimp only
  repeat' first
    | with_reducible
      first
        | assumption | intro _ | apply Mach.memOk_reg | apply Mach.ite_memOk | apply Mach.ite_fst_memOk
        | apply Mach.unitServe_memOk | apply Mach.rteRequest_memOk | apply Mach.refItem_memOk | rfl
    | split
    | dsimp only

theorem Mach.refreshWait_memOk {m : Mach} (h : m.memOk = true) (a0) (a1) : (Mach.refreshWait m a0 a1).memOk = true := by
  unfold Mach.refreshWait
  try dsimp only
  repeat' first
    | with_reducible
      first
        | assumption | intro _ | apply Mach.memOk_reg | apply Mach.ite_memOk | apply Mach.ite_fst_memOk
        | apply Mach.reachQuarter_memOk | rfl
    | split
    | dsimp only

theorem Mach.refreshDone_memOk {m : Mach} (h : m.memOk = true) (a0) (a1) : (Mach.refreshDone m a0 a1).memOk = true := by
  unfold Mach.refreshDone
  try dsimp only
  repeat' first
    | with_reducible
      first
        | assumption | intro _ | apply Mach.memOk_reg | apply Mach.ite_memOk | apply Mach.ite_fst_memOk | apply Mach.dbankMod_memOk
        | apply Mach.refreshWait_memOk | apply Mach.memMod_memOk | rfl
    | split
    | dsimp only

theorem Mach.refreshOwed_memOk {m : Mach} (h : m.memOk = true) (a0) (a1) : (Mach.refreshOwed m a0 a1).memOk = true := by
  unfold Mach.refreshOwed
  try dsimp only
  repeat' first
    | with_reducible
      first
        | assumption | intro _ | apply Mach.memOk_reg | apply Mach.ite_memOk | apply Mach.ite_fst_memOk
        | apply Mach.forceCheck_memOk | apply Mach.debtSeen_memOk | apply Mach.dbankMod_memOk | apply Mach.reachQuarter_memOk | rfl
    | split
    | dsimp only

theorem Mach.gapPass_memOk {m : Mach} (h : m.memOk = true) (a0) (a1) (a2) : (Mach.gapPass m a0 a1 a2).memOk = true := by
  unfold Mach.gapPass
  try dsimp only
  repeat' first
    | with_reducible
      first
        | assumption | intro _ | apply Mach.memOk_reg | apply Mach.ite_memOk | apply Mach.ite_fst_memOk
        | apply Mach.reorderRun_memOk | apply Mach.setBaRx_memOk | rfl
    | split
    | dsimp only

theorem Mach.gapsPass_memOk {m : Mach} (h : m.memOk = true) (a0) (a1) (a2) : (Mach.gapsPass a0 a1 a2 m).memOk = true := by
  revert h
  fun_induction Mach.gapsPass a0 a1 a2 m
  all_goals try intro h
  all_goals try dsimp only
  all_goals
    repeat' first
      | with_reducible
        first
          | assumption | intro _ | apply Mach.memOk_reg | apply Mach.ite_memOk | apply Mach.ite_fst_memOk
          | apply Mach.gapPass_memOk | rfl | apply_assumption
      | split
      | dsimp only

theorem Mach.reorderTimeout_memOk {m : Mach} (h : m.memOk = true) (a0) (a1) : (Mach.reorderTimeout m a0 a1).memOk = true := by
  unfold Mach.reorderTimeout
  try dsimp only
  repeat' first
    | with_reducible
      first
        | assumption | intro _ | apply Mach.memOk_reg | apply Mach.ite_memOk | apply Mach.ite_fst_memOk | apply Mach.gapsPass_memOk
        | apply Mach.reach_memOk | apply Mach.count_memOk | apply Mach.wmacMod_memOk | rfl
    | split
    | dsimp only

theorem teMov_memOk {m : Mach} (h : m.memOk = true) (a0) (a1) : (teMov a0 a1 m).memOk := by
  unfold teMov
  try dsimp only
  repeat' first
    | with_reducible
      first
        | assumption | intro _ | apply Mach.memOk_reg | apply Mach.ite_memOk | apply Mach.ite_fst_memOk | apply Res.memOk_good
        | apply Res.memOk_bad | apply Res.memOk_fault | apply Res.memOk_sleep | apply Res.guard_memOk | apply Res.withIndex_memOk
        | rfl
    | split
    | dsimp only

theorem teMovs_memOk {m : Mach} (h : m.memOk = true) (a0) (a1) : (teMovs a0 m a1).memOk := by
  unfold teMovs
  try dsimp only
  repeat' first
    | with_reducible
      first
        | assumption | intro _ | apply Mach.memOk_reg | apply Mach.ite_memOk | apply Mach.ite_fst_memOk | apply Res.memOk_good
        | apply Res.memOk_bad | apply Res.memOk_fault | apply Res.memOk_sleep | apply Res.guard_memOk | apply Res.withIndex_memOk
        | apply Mach.lmLoad_memOk | apply Mach.lmStore_memOk | rfl
    | split
    | dsimp only

theorem teFills_memOk {m : Mach} (h : m.memOk = true) (a0) (a1) (a2) : (teFills a0 a1 m a2).memOk := by
  unfold teFills
  try dsimp only
  repeat' first
    | with_reducible
      first
        | assumption | intro _ | apply Mach.memOk_reg | apply Mach.ite_memOk | apply Mach.ite_fst_memOk | apply Res.memOk_good
        | apply Res.memOk_bad | apply Res.memOk_fault | apply Res.memOk_sleep | apply Res.guard_memOk | apply Res.withIndex_memOk
        | apply Mach.lmStore_memOk | rfl
    | split
    | dsimp only

theorem teScans_memOk {m : Mach} (h : m.memOk = true) (a0) (a1) (a2) : (teScans a0 a1 m a2).memOk := by
  unfold teScans
  try dsimp only
  repeat' first
    | with_reducible
      first
        | assumption | intro _ | apply Mach.memOk_reg | apply Mach.ite_memOk | apply Mach.ite_fst_memOk | apply Res.memOk_good
        | apply Res.memOk_bad | apply Res.memOk_fault | apply Res.memOk_sleep | apply Res.guard_memOk | apply Res.withIndex_memOk
        | apply Mach.lmLoad_memOk | rfl
    | split
    | dsimp only

theorem teCmps_memOk {m : Mach} (h : m.memOk = true) (a0) (a1) : (teCmps a0 m a1).memOk := by
  unfold teCmps
  try dsimp only
  repeat' first
    | with_reducible
      first
        | assumption | intro _ | apply Mach.memOk_reg | apply Mach.ite_memOk | apply Mach.ite_fst_memOk | apply Res.memOk_good
        | apply Res.memOk_bad | apply Res.memOk_fault | apply Res.memOk_sleep | apply Res.guard_memOk | apply Res.withIndex_memOk
        | apply Mach.lmLoad_memOk | rfl
    | split
    | dsimp only

theorem teRepeated_memOk {m : Mach} (h : m.memOk = true) (a0) (a1) (a2) : (teRepeated a0 a1 m a2).memOk := by
  unfold teRepeated
  try dsimp only
  repeat' first
    | with_reducible
      first
        | assumption | intro _ | apply Mach.memOk_reg | apply Mach.ite_memOk | apply Mach.ite_fst_memOk | apply Res.memOk_good
        | apply Res.memOk_bad | apply Res.memOk_fault | apply Res.memOk_sleep | apply Res.guard_memOk | apply Res.withIndex_memOk
        | apply teMov_memOk | apply teMovs_memOk | apply teFills_memOk | apply teScans_memOk | apply teCmps_memOk | rfl
    | split
    | dsimp only

theorem Mach.repLoop_memOk (a0) (a1) (k : Nat) {m : Mach} (h : m.memOk = true) : (Mach.repLoop a0 a1 k m).memOk = true := by
  induction k generalizing m with
  | zero => exact h
  | succ k ih =>
    have h0 := Mach.landDue_memOk h a0
    have hb := teRepeated_memOk h0 a0 a1 ((m.landDue a0).getTe a0)
    unfold Mach.repLoop
    dsimp only
    split
    · exact h0
    · revert hb
      cases teRepeated a0 a1 (m.landDue a0) ((m.landDue a0).getTe a0) with
      | bad f => exact fun _ => Mach.teFault_memOk h0 _ _ _ _
      | sleep w => exact fun _ => h0
      | good e =>
        intro hb
        dsimp only
        split
        · exact Mach.teFault_memOk (Mach.setTe_memOk hb _ _) _ _ _ _
        · split
          · exact Mach.setTe_memOk hb _ _
          · exact ih (Mach.setTe_memOk hb _ _)

theorem Mach.resolveTwo_memOk {m : Mach} (h : m.memOk = true) (a0) : (Mach.resolveTwo m a0).memOk = true := by
  unfold Mach.resolveTwo
  try dsimp only
  repeat' first
    | with_reducible
      first
        | assumption | intro _ | apply Mach.memOk_reg | apply Mach.ite_memOk | apply Mach.ite_fst_memOk | apply Mach.airCut_memOk
        | apply Mach.setRole_memOk | apply Mach.wr_memOk | rfl
    | split
    | dsimp only

theorem Mach.responseSend_memOk {m : Mach} (h : m.memOk = true) (a0) (a1) : (Mach.responseSend m a0 a1).memOk = true := by
  unfold Mach.responseSend
  try dsimp only
  repeat' first
    | with_reducible
      first
        | assumption | intro _ | apply Mach.memOk_reg | apply Mach.ite_memOk | apply Mach.ite_fst_memOk | apply Mach.sqMod_memOk
        | apply Mach.radioTx_memOk | apply Mach.macAfter_memOk | rfl
    | split
    | dsimp only

theorem Mach.responseTimeout_memOk {m : Mach} (h : m.memOk = true) (a0) : (Mach.responseTimeout m a0).memOk = true := by
  unfold Mach.responseTimeout
  try dsimp only
  repeat' first
    | with_reducible
      first
        | assumption | intro _ | apply Mach.memOk_reg | apply Mach.ite_memOk | apply Mach.ite_fst_memOk | apply Mach.forEach_memOk
        | apply Mach.sqMod_memOk | apply Mach.attemptFail_memOk | apply Mach.when_memOk | apply Mach.radioRelax_memOk | rfl
    | split
    | dsimp only

theorem Mach.restage_memOk {m : Mach} (h : m.memOk = true) (a0) (a1) : (Mach.restage m a0 a1).memOk = true := by
  unfold Mach.restage
  try dsimp only
  repeat' first
    | with_reducible
      first
        | assumption | intro _ | apply Mach.memOk_reg | apply Mach.ite_memOk | apply Mach.ite_fst_memOk
        | apply Mach.stageWrite_memOk | apply Mach.subDone_memOk | rfl
    | split
    | dsimp only

theorem Mach.resyncBurst_memOk {m : Mach} (h : m.memOk = true) (a0) (a1) : (Mach.resyncBurst m a0 a1).memOk = true := by
  unfold Mach.resyncBurst
  try dsimp only
  repeat' first
    | with_reducible
      first
        | assumption | intro _ | apply Mach.memOk_reg | apply Mach.ite_memOk | apply Mach.ite_fst_memOk | apply Mach.setNbr_memOk
        | apply Mach.forEach_memOk | apply Mach.airQueue_memOk | apply Mach.meshAsk_memOk | rfl
    | split
    | dsimp only

theorem Mach.resyncSend_memOk {m : Mach} (h : m.memOk = true) (a0) : (Mach.resyncSend m a0).memOk = true := by
  unfold Mach.resyncSend
  try dsimp only
  repeat' first
    | with_reducible
      first
        | assumption | intro _ | apply Mach.memOk_reg | apply Mach.ite_memOk | apply Mach.ite_fst_memOk
        | apply Mach.sendResync_memOk | apply Mach.mlinkMod_memOk | apply Mach.setNbr_memOk | rfl
    | split
    | dsimp only

theorem Mach.ringExpiry_memOk {m : Mach} (h : m.memOk = true) (a0) (a1) : (Mach.ringExpiry m a0 a1).memOk = true := by
  unfold Mach.ringExpiry
  try dsimp only
  repeat' first
    | with_reducible
      first
        | assumption | intro _ | apply Mach.memOk_reg | apply Mach.ite_memOk | apply Mach.ite_fst_memOk | apply Mach.ringMod_memOk
        | apply Mach.count_memOk | apply Mach.frameGone_memOk | rfl
    | split
    | dsimp only

theorem Mach.ringWrite_memOk {m : Mach} (h : m.memOk = true) (a0) (a1) : (Mach.ringWrite m a0 a1).memOk = true := by
  unfold Mach.ringWrite
  try dsimp only
  repeat' first
    | with_reducible
      first
        | assumption | intro _ | apply Mach.memOk_reg | apply Mach.ite_memOk | apply Mach.ite_fst_memOk
        | apply Mach.frameGone_memOk | apply Mach.frameOut_memOk | apply Mach.ringMod_memOk | apply Mach.holdOn_memOk
        | apply Mach.journal_memOk | rfl
    | split
    | dsimp only

theorem Mach.roleReceive_memOk {m : Mach} (h : m.memOk = true) (a0) : (Mach.roleReceive m a0).memOk = true := by
  unfold Mach.roleReceive
  try dsimp only
  repeat' first
    | with_reducible
      first
        | assumption | intro _ | apply Mach.memOk_reg | apply Mach.ite_memOk | apply Mach.ite_fst_memOk | apply Mach.wr_memOk
        | apply Mach.chnMod_memOk | apply Mach.toStandbyRole_memOk | apply Mach.roleSend_memOk | apply Mach.toServing_memOk
        | apply Mach.resolveTwo_memOk | apply Mach.setRole_memOk | apply Mach.unfence_memOk | apply Mach.pairJoin_memOk | rfl
    | split
    | dsimp only

theorem Mach.roleTick_memOk {m : Mach} (h : m.memOk = true) : (Mach.roleTick m).memOk = true := by
  unfold Mach.roleTick
  try dsimp only
  repeat' first
    | with_reducible
      first
        | assumption | intro _ | apply Mach.memOk_reg | apply Mach.ite_memOk | apply Mach.ite_fst_memOk
        | apply Mach.helloSend_memOk | apply Mach.roleSend_memOk | apply foldl_memOk | apply foldl_fst_memOk
        | apply Mach.reachRun_memOk | apply Mach.chnMod_memOk | rfl
    | split
    | dsimp only

theorem Mach.rxDeclaredEnd_memOk {m : Mach} (h : m.memOk = true) (a0) : (Mach.rxDeclaredEnd m a0).memOk = true := by
  unfold Mach.rxDeclaredEnd
  try dsimp only
  repeat' first
    | with_reducible
      first
        | assumption | intro _ | apply Mach.memOk_reg | apply Mach.ite_memOk | apply Mach.ite_fst_memOk | apply Mach.rxOver_memOk
        | rfl
    | split
    | dsimp only

theorem Mach.rxRestart_memOk {m : Mach} (h : m.memOk = true) (a0) (a1) (a2) (a3) : (Mach.rxRestart m a0 a1 a2 a3).memOk = true := by
  unfold Mach.rxRestart
  try dsimp only
  repeat' first
    | with_reducible
      first
        | assumption | intro _ | apply Mach.memOk_reg | apply Mach.ite_memOk | apply Mach.ite_fst_memOk
        | apply Mach.rxDeliver_memOk | apply Mach.rxCount_memOk | apply Mach.setRx_memOk | rfl
    | split
    | dsimp only

theorem Mach.rxTruncate_memOk {m : Mach} (h : m.memOk = true) (a0) (a1) (a2) : (Mach.rxTruncate m a0 a1 a2).memOk = true := by
  unfold Mach.rxTruncate
  try dsimp only
  repeat' first
    | with_reducible
      first
        | assumption | intro _ | apply Mach.memOk_reg | apply Mach.ite_memOk | apply Mach.ite_fst_memOk | apply Mach.rxOver_memOk
        | apply Mach.rxDeliver_memOk | rfl
    | split
    | dsimp only

theorem Mach.sampleDone_memOk {m : Mach} (h : m.memOk = true) : (Mach.sampleDone m).memOk = true := by
  unfold Mach.sampleDone
  try dsimp only
  repeat' first
    | with_reducible
      first
        | assumption | intro _ | apply Mach.memOk_reg | apply Mach.ite_memOk | apply Mach.ite_fst_memOk
        | apply Mach.dramWrites_memOk | apply Mach.aschMod_memOk | apply Mach.count_memOk | apply Mach.setReg64_memOk | rfl
    | split
    | dsimp only

theorem Mach.scrubDram_memOk {m : Mach} (h : m.memOk = true) (a0) : (Mach.scrubDram m a0).memOk = true := by
  unfold Mach.scrubDram
  try dsimp only
  repeat' first
    | with_reducible
      first
        | assumption | intro _ | apply Mach.memOk_reg | apply Mach.ite_memOk | apply Mach.ite_fst_memOk | apply Mach.dramRead_memOk
        | apply Mach.dramWrite_memOk | apply Mach.when_memOk | apply Mach.count_memOk | apply Mach.memMod_memOk | rfl
    | split
    | dsimp only

theorem Mach.scrubLmem_memOk {m : Mach} (h : m.memOk = true) (a0) (a1) (a2) : (Mach.scrubLmem m a0 a1 a2).memOk = true := by
  unfold Mach.scrubLmem
  try dsimp only
  repeat' first
    | with_reducible
      first
        | assumption | intro _ | apply Mach.memOk_reg | apply Mach.ite_memOk | apply Mach.ite_fst_memOk | apply Mach.lmRead_memOk
        | apply Mach.teMod_memOk | rfl
    | split
    | dsimp only

theorem Mach.scrubQueue_memOk {m : Mach} (h : m.memOk = true) (a0) (a1) (a2) : (Mach.scrubQueue m a0 a1 a2).memOk = true := by
  unfold Mach.scrubQueue
  extract_lets c
  cases hq : c.q[a1]? with
  | none => exact h
  | some w =>
    dsimp only
    cases classify w.code with
    | corrected v => cases a2 <;> first | exact Mach.setChan_memOk h _ _ | exact h
    | uncorrectable => exact Mach.note_memOk h _ _ _ _
    | clean => exact h
    | storedPoison => exact h

theorem Mach.scrubSram_memOk {m : Mach} (h : m.memOk = true) (a0) : (Mach.scrubSram m a0).memOk = true := by
  unfold Mach.scrubSram
  try dsimp only
  repeat' first
    | with_reducible
      first
        | assumption | intro _ | apply Mach.memOk_reg | apply Mach.ite_memOk | apply Mach.ite_fst_memOk | apply Mach.sramRead_memOk
        | apply Mach.sramWrite_memOk | apply Mach.when_memOk | apply Mach.memMod_memOk | apply Mach.count_memOk | rfl
    | split
    | dsimp only

theorem Mach.sealDone_memOk {m : Mach} (h : m.memOk = true) : (Mach.sealDone m).memOk = true := by
  unfold Mach.sealDone
  try dsimp only
  repeat' first
    | with_reducible
      first
        | assumption | intro _ | apply Mach.memOk_reg | apply Mach.ite_memOk | apply Mach.ite_fst_memOk | apply Mach.wr_memOk
        | apply Mach.setReg64_memOk | apply Mach.dramWrites_memOk | rfl
    | split
    | dsimp only

theorem Mach.tunnelAt_memOk {m : Mach} (h : m.memOk = true) (a0) : (Mach.tunnelAt m a0).1.memOk = true := by
  unfold Mach.tunnelAt
  try dsimp only
  repeat' first
    | with_reducible
      first
        | assumption | intro _ | apply Mach.memOk_reg | apply Mach.ite_memOk | apply Mach.ite_fst_memOk | apply Mach.tblReads_memOk
        | rfl
    | split
    | dsimp only

theorem Mach.sendEdit_memOk {m : Mach} (h : m.memOk = true) (a0) (a1) (a2) (a3) (a4) : (Mach.sendEdit m a0 a1 a2 a3 a4).1.memOk = true := by
  unfold Mach.sendEdit
  try dsimp only
  repeat' first
    | with_reducible
      first
        | assumption | intro _ | apply Mach.memOk_reg | apply Mach.ite_memOk | apply Mach.ite_fst_memOk
        | apply Mach.nextHopAt_memOk | apply Mach.tunnelAt_memOk | apply Mach.freeVal_memOk | rfl
    | split
    | dsimp only

theorem Mach.txQueue_memOk {m : Mach} (h : m.memOk = true) (a0) (a1) (a2) : (Mach.txQueue m a0 a1 a2).1.memOk = true := by
  unfold Mach.txQueue
  try dsimp only
  repeat' first
    | with_reducible
      first
        | assumption | intro _ | apply Mach.memOk_reg | apply Mach.ite_memOk | apply Mach.ite_fst_memOk | apply Mach.count_memOk
        | apply Mach.spillCheck_memOk | apply Mach.txChoose_memOk | apply Mach.portMod_memOk | rfl
    | split
    | dsimp only

theorem Mach.sendUnit_memOk {m : Mach} (h : m.memOk = true) (a0) (a1) (a2) : (Mach.sendUnit m a0 a1 a2).memOk = true := by
  unfold Mach.sendUnit
  try dsimp only
  repeat' first
    | with_reducible
      first
        | assumption | intro _ | apply Mach.memOk_reg | apply Mach.ite_memOk | apply Mach.ite_fst_memOk
        | apply Mach.unitServe_memOk | apply Mach.count_memOk | apply Mach.txQueue_memOk | rfl
    | split
    | dsimp only

theorem Mach.toHost_memOk {m : Mach} (h : m.memOk = true) (a0) (a1) (a2) (a3) (a4) : (Mach.toHost m a0 a1 a2 a3 a4).1.memOk = true := by
  unfold Mach.toHost
  try dsimp only
  repeat' first
    | with_reducible
      first
        | assumption | intro _ | apply Mach.memOk_reg | apply Mach.ite_memOk | apply Mach.ite_fst_memOk | apply Mach.freeVal_memOk
        | apply Mach.hifMod_memOk | apply Mach.count_memOk | rfl
    | split
    | dsimp only

theorem Mach.sendvItem_memOk {m : Mach} (h : m.memOk = true) (a0) (a1) : (Mach.sendvItem m a0 a1).1.memOk = true := by
  unfold Mach.sendvItem
  try dsimp only
  repeat' first
    | with_reducible
      first
        | assumption | intro _ | apply Mach.memOk_reg | apply Mach.ite_memOk | apply Mach.ite_fst_memOk
        | apply Mach.itemRefuse_memOk | apply Mach.itemStale_memOk | apply Mach.refAct_memOk | apply Mach.frameBytes_memOk
        | apply Mach.sendEdit_memOk | apply Mach.toHost_memOk | apply Mach.count_memOk | apply Mach.txQueue_memOk
        | apply Mach.dramPut_memOk | rfl
    | split
    | dsimp only

theorem Mach.sendvUnit_memOk {m : Mach} (h : m.memOk = true) (a0) (a1) : (Mach.sendvUnit m a0 a1).memOk = true := by
  unfold Mach.sendvUnit
  try dsimp only
  repeat' first
    | with_reducible
      first
        | assumption | intro _ | apply Mach.memOk_reg | apply Mach.ite_memOk | apply Mach.ite_fst_memOk
        | apply Mach.unitServe_memOk | apply Mach.rteRequest_memOk | apply Mach.sendvItem_memOk | rfl
    | split
    | dsimp only

theorem Mach.seqTake_memOk {m : Mach} (h : m.memOk = true) (a0) (a1) (a2) : (Mach.seqTake m a0 a1 a2).1.memOk = true := by
  unfold Mach.seqTake
  try dsimp only
  repeat' first
    | with_reducible
      first
        | assumption | intro _ | apply Mach.memOk_reg | apply Mach.ite_memOk | apply Mach.ite_fst_memOk | apply Mach.wmacMod_memOk
        | rfl
    | split
    | dsimp only

theorem Mach.settleEnd_memOk {m : Mach} (h : m.memOk = true) : (Mach.settleEnd m).memOk = true := by
  unfold Mach.settleEnd
  try dsimp only
  repeat' first
    | with_reducible
      first
        | assumption | intro _ | apply Mach.memOk_reg | apply Mach.ite_memOk | apply Mach.ite_fst_memOk | apply Mach.armMod_memOk
        | apply Mach.changeEnd_memOk | apply Mach.wr_memOk | rfl
    | split
    | dsimp only

theorem Mach.signalFields_memOk {m : Mach} (h : m.memOk = true) (a0) (a1) (a2) (a3) (a4) (a5) : (Mach.signalFields m a0 a1 a2 a3
    a4 a5).memOk = true := by
  unfold Mach.signalFields
  try dsimp only
  repeat' first
    | with_reducible
      first
        | assumption | intro _ | apply Mach.memOk_reg | apply Mach.ite_memOk | apply Mach.ite_fst_memOk | apply Mach.setRx_memOk
        | apply Mach.rxCount_memOk | apply Mach.rxOver_memOk | apply Mach.rxDeliverFree_memOk | rfl
    | split
    | dsimp only

theorem Mach.takeBeacons_memOk {m : Mach} (h : m.memOk = true) (a0) : (Mach.takeBeacons m a0).memOk = true := by
  unfold Mach.takeBeacons
  try dsimp only
  repeat' first
    | with_reducible
      first
        | assumption | intro _ | apply Mach.memOk_reg | apply Mach.ite_memOk | apply Mach.ite_fst_memOk | apply Mach.chnMod_memOk
        | apply Mach.forEach_memOk | apply Mach.beaconSent_memOk | apply Mach.event_memOk | apply Mach.count_memOk
        | apply Mach.setRole_memOk | rfl
    | split
    | dsimp only

theorem Mach.slotStarted_memOk {m : Mach} (h : m.memOk = true) (a0) (a1) : (Mach.slotStarted m a0 a1).memOk = true := by
  unfold Mach.slotStarted
  try dsimp only
  repeat' first
    | with_reducible
      first
        | assumption | intro _ | apply Mach.memOk_reg | apply Mach.ite_memOk | apply Mach.ite_fst_memOk | apply Mach.sqMod_memOk
        | apply Mach.takeBeacons_memOk | apply Mach.slotMark_memOk | rfl
    | split
    | dsimp only

theorem Mach.slotGo_memOk {m : Mach} (h : m.memOk = true) (a0) (a1) (a2) : (Mach.slotGo m a0 a1 a2).memOk = true := by
  unfold Mach.slotGo
  try dsimp only
  repeat' first
    | with_reducible
      first
        | assumption | intro _ | apply Mach.memOk_reg | apply Mach.ite_memOk | apply Mach.ite_fst_memOk
        | apply Mach.slotStarted_memOk | apply Mach.beaconSent_memOk | apply Mach.macSend_memOk | rfl
    | split
    | dsimp only

theorem Mach.slotMiss_memOk {m : Mach} (h : m.memOk = true) (a0) (a1) : (Mach.slotMiss m a0 a1).memOk = true := by
  unfold Mach.slotMiss
  try dsimp only
  repeat' first
    | with_reducible
      first
        | assumption | intro _ | apply Mach.memOk_reg | apply Mach.ite_memOk | apply Mach.ite_fst_memOk | apply Mach.slotGo_memOk
        | apply Mach.slotEnds_memOk | apply Mach.reachFine_memOk | rfl
    | split
    | dsimp only

theorem Mach.slotOpen_memOk {m : Mach} (h : m.memOk = true) (a0) (a1) : (Mach.slotOpen m a0 a1).memOk = true := by
  unfold Mach.slotOpen
  try dsimp only
  repeat' first
    | with_reducible
      first
        | assumption | intro _ | apply Mach.memOk_reg | apply Mach.ite_memOk | apply Mach.ite_fst_memOk | apply Mach.slotEnds_memOk
        | apply Mach.slotStarted_memOk | apply Mach.sqMod_memOk | apply Mach.radioListen_memOk | apply Mach.reachFine_memOk | rfl
    | split
    | dsimp only

theorem Mach.slotStart_memOk {m : Mach} (h : m.memOk = true) (a0) (a1) : (Mach.slotStart m a0 a1).memOk = true := by
  unfold Mach.slotStart
  try dsimp only
  repeat' first
    | with_reducible
      first
        | assumption | intro _ | apply Mach.memOk_reg | apply Mach.ite_memOk | apply Mach.ite_fst_memOk | apply Mach.sqMod_memOk
        | apply Mach.slotGo_memOk | rfl
    | split
    | dsimp only

theorem Mach.solicited_memOk {m : Mach} (h : m.memOk = true) (a0) (a1) : (Mach.solicited m a0 a1).memOk = true := by
  unfold Mach.solicited
  try dsimp only
  repeat' first
    | with_reducible
      first
        | assumption | intro _ | apply Mach.memOk_reg | apply Mach.ite_memOk | apply Mach.ite_fst_memOk | apply Mach.sqMod_memOk
        | rfl
    | split
    | dsimp only

theorem Mach.spillDone_memOk {m : Mach} (h : m.memOk = true) (a0) : (Mach.spillDone m a0).memOk = true := by
  unfold Mach.spillDone
  try dsimp only
  repeat' first
    | with_reducible
      first
        | assumption | intro _ | apply Mach.memOk_reg | apply Mach.ite_memOk | apply Mach.ite_fst_memOk
        | apply Mach.frameBytes_memOk | apply Mach.spillCheck_memOk | apply Mach.setHead_memOk | apply Mach.rteMod_memOk
        | apply Mach.pauseCheck_memOk | apply Mach.count_memOk | apply Mach.freeCells_memOk | apply Mach.dramBytes_memOk | rfl
    | split
    | dsimp only

theorem stagePut_seq {x : Mach} (hx : x.memOk = true) (d : Nat) (g u : Bool) (old : Option (Nat × Nat)) :
    (match old with
     | some o => (x, o.1)
     | none => x.seqTake d g u).1.memOk = true := by
  cases old with
  | none => exact Mach.seqTake_memOk hx _ _ _
  | some o => exact hx

theorem stagePut_pn {x : Mach} (hx : x.memOk = true) (old : Option (Nat × Nat)) (k : Option Nat) :
    (match old, k with
     | some o, _ => (x, some o.2)
     | none, some k => x.pnTake k
     | none, none => (x, some 0)).1.memOk = true := by
  cases old with
  | some o => exact hx
  | none => cases k with
    | none => exact hx
    | some i => exact Mach.pnTake_memOk hx _

theorem Mach.stagePut_memOk {m : Mach} (h : m.memOk = true) (a0) (a1) (a2) : (Mach.stagePut m a0 a1 a2).memOk = true := by
  unfold Mach.stagePut
  apply Mach.unitServe_memOk _ _ _ _ _ h
  intro x a run hx
  extract_lets w d len bit
  split
  · exact hx
  · rename_i key k old s p suite u m1 sr _
    have hs : s.1.memOk = true := stagePut_seq hx d (bit 39) (bit 38) old
    have hp : p.1.memOk = true := stagePut_pn hs old k
    have h1 : m1.memOk = true := Mach.wmacMod_memOk hp _
    have h2 : (if run = 0 ∧ !u.wait then m1.stageWrite a2 u else m1.setStg a2 { sr with subs := sr.subs ++ [u] }).memOk = true :=
      Mach.ite_memOk (Mach.stageWrite_memOk h1 _ _) (Mach.setStg_memOk h1 _ _)
    generalize key = ky
    cases ky with
    | none => exact Mach.ite_fst_memOk hx h2
    | some kk =>
      cases kk with
      | none => exact Mach.count_memOk hx _ _ _
      | some i => exact Mach.ite_fst_memOk hx h2

theorem Mach.stampRead_memOk {m : Mach} (h : m.memOk = true) (a0) : (Mach.stampRead m a0).memOk = true := by
  unfold Mach.stampRead
  try dsimp only
  repeat' first
    | with_reducible
      first
        | assumption | intro _ | apply Mach.memOk_reg | apply Mach.ite_memOk | apply Mach.ite_fst_memOk | apply Mach.txChoose_memOk
        | apply Mach.stampShow_memOk | apply Mach.portMod_memOk | apply Mach.setAnswer_memOk | rfl
    | split
    | dsimp only

theorem Mach.stokenReceive_memOk {m : Mach} (h : m.memOk = true) (a0) (a1) : (Mach.stokenReceive m a0 a1).memOk = true := by
  unfold Mach.stokenReceive
  try dsimp only
  repeat' first
    | with_reducible
      first
        | assumption | intro _ | apply Mach.memOk_reg | apply Mach.ite_memOk | apply Mach.ite_fst_memOk | apply Mach.guyTake_memOk
        | apply Mach.chnMod_memOk | apply Mach.wr_memOk | apply Mach.fltMod_memOk | rfl
    | split
    | dsimp only

theorem Mach.tplForce_memOk {m : Mach} (h : m.memOk = true) (a0) (a1) : (Mach.tplForce m a0 a1).memOk = true := by
  unfold Mach.tplForce
  try dsimp only
  repeat' first
    | with_reducible
      first
        | assumption | intro _ | apply Mach.memOk_reg | apply Mach.ite_memOk | apply Mach.ite_fst_memOk
        | apply Mach.meshEvent_memOk | apply Mach.wr_memOk | apply Mach.mlinkMod_memOk | rfl
    | split
    | dsimp only

theorem Mach.tplBoundary_memOk {m : Mach} (h : m.memOk = true) : (Mach.tplBoundary m).memOk = true := by
  unfold Mach.tplBoundary
  try dsimp only
  repeat' first
    | with_reducible
      first
        | assumption | intro _ | apply Mach.memOk_reg | apply Mach.ite_memOk | apply Mach.ite_fst_memOk | apply Mach.mlinkMod_memOk
        | apply Mach.tplForce_memOk | rfl
    | split
    | dsimp only

theorem Mach.superframe_memOk {m : Mach} (h : m.memOk = true) : (Mach.superframe m).memOk = true := by
  unfold Mach.superframe
  try dsimp only
  repeat' first
    | with_reducible
      first
        | assumption | intro _ | apply Mach.memOk_reg | apply Mach.ite_memOk | apply Mach.ite_fst_memOk
        | apply Mach.tplBoundary_memOk | apply Mach.wr_memOk | apply Mach.setReg_memOk | apply Mach.mlinkMod_memOk | rfl
    | split
    | dsimp only

theorem Mach.synthDeadline_memOk {m : Mach} (h : m.memOk = true) (a0) : (Mach.synthDeadline m a0).1.memOk = true := by
  unfold Mach.synthDeadline
  try dsimp only
  repeat' first
    | with_reducible
      first
        | assumption | intro _ | apply Mach.memOk_reg | apply Mach.ite_memOk | apply Mach.ite_fst_memOk
        | apply Mach.radioTxDone_memOk | rfl
    | split
    | dsimp only

theorem Mach.synthLock_memOk {m : Mach} (h : m.memOk = true) (a0) : (Mach.synthLock m a0).1.memOk = true := by
  unfold Mach.synthLock
  try dsimp only
  repeat' first
    | with_reducible
      first
        | assumption | intro _ | apply Mach.memOk_reg | apply Mach.ite_memOk | apply Mach.ite_fst_memOk | apply Mach.radioMod_memOk
        | apply Mach.wr_memOk | apply Mach.txNext_memOk | rfl
    | split
    | dsimp only

theorem Mach.synthLoss_memOk {m : Mach} (h : m.memOk = true) (a0) : (Mach.synthLoss m a0).1.memOk = true := by
  unfold Mach.synthLoss
  try dsimp only
  repeat' first
    | with_reducible
      first
        | assumption | intro _ | apply Mach.memOk_reg | apply Mach.ite_memOk | apply Mach.ite_fst_memOk | apply Mach.event_memOk
        | apply Mach.radioMod_memOk | apply Mach.wr_memOk | apply Mach.radioTxDone_memOk | apply Mach.radioCut_memOk | rfl
    | split
    | dsimp only

theorem Mach.takeFail_memOk {m : Mach} (h : m.memOk = true) : (Mach.takeFail m).memOk = true := by
  unfold Mach.takeFail
  try dsimp only
  repeat' first
    | with_reducible
      first
        | assumption | intro _ | apply Mach.memOk_reg | apply Mach.ite_memOk | apply Mach.ite_fst_memOk | apply Mach.event_memOk
        | apply Mach.enterHold_memOk | apply Mach.wr_memOk | rfl
    | split
    | dsimp only

theorem Mach.takeRaise_memOk {m : Mach} (h : m.memOk = true) : (Mach.takeRaise m).memOk = true := by
  unfold Mach.takeRaise
  try dsimp only
  repeat' first
    | with_reducible
      first
        | assumption | intro _ | apply Mach.memOk_reg | apply Mach.ite_memOk | apply Mach.ite_fst_memOk | apply Mach.drive_memOk
        | apply Mach.armMod_memOk | apply Mach.setRole_memOk | rfl
    | split
    | dsimp only

theorem Mach.takeFence_memOk {m : Mach} (h : m.memOk = true) : (Mach.takeFence m).memOk = true := by
  unfold Mach.takeFence
  try dsimp only
  repeat' first
    | with_reducible
      first
        | assumption | intro _ | apply Mach.memOk_reg | apply Mach.ite_memOk | apply Mach.ite_fst_memOk | apply Mach.wr_memOk
        | apply Mach.chnMod_memOk | apply Mach.reach_memOk | apply Mach.event_memOk | apply Mach.roleSend_memOk
        | apply Mach.takeRaise_memOk | rfl
    | split
    | dsimp only

theorem Mach.takeQuery_memOk {m : Mach} (h : m.memOk = true) : (Mach.takeQuery m).memOk = true := by
  unfold Mach.takeQuery
  try dsimp only
  repeat' first
    | with_reducible
      first
        | assumption | intro _ | apply Mach.memOk_reg | apply Mach.ite_memOk | apply Mach.ite_fst_memOk | apply Mach.event_memOk
        | apply Mach.campSend_memOk | apply Mach.chnMod_memOk | rfl
    | split
    | dsimp only

theorem Mach.takeRetry_memOk {m : Mach} (h : m.memOk = true) : (Mach.takeRetry m).memOk = true := by
  unfold Mach.takeRetry
  try dsimp only
  repeat' first
    | with_reducible
      first
        | assumption | intro _ | apply Mach.memOk_reg | apply Mach.ite_memOk | apply Mach.ite_fst_memOk | apply Mach.drive_memOk
        | apply Mach.armMod_memOk | rfl
    | split
    | dsimp only

theorem Mach.tbSlewEnd_memOk {m : Mach} (h : m.memOk = true) (a0) : (Mach.tbSlewEnd m a0).memOk = true := by
  unfold Mach.tbSlewEnd
  try dsimp only
  repeat' first
    | with_reducible
      first
        | assumption | intro _ | apply Mach.memOk_reg | apply Mach.ite_memOk | apply Mach.ite_fst_memOk | apply Mach.elapse_memOk
        | rfl
    | split
    | dsimp only

theorem Mach.teRep_memOk {m : Mach} (h : m.memOk = true) (a0) (a1) : (Mach.teRep m a0 a1).memOk = true := by
  have h0 := Mach.landDue_memOk h a0
  unfold Mach.teRep
  dsimp only
  split
  · split
    · exact Mach.teFault_memOk h0 _ _ _ _
    · split
      · exact Mach.teFault_memOk h0 _ _ _ _
      · split
        · exact Mach.teMod_memOk h0 _ _
        · exact Mach.repLoop_memOk _ _ _ (Mach.teMod_memOk h0 _ _)
  · exact h0

theorem Mach.tempSample_memOk {m : Mach} (h : m.memOk = true) (a0) (a1) : (Mach.tempSample m a0 a1).memOk = true := by
  unfold Mach.tempSample
  try dsimp only
  repeat' first
    | with_reducible
      first
        | assumption | intro _ | apply Mach.memOk_reg | apply Mach.ite_memOk | apply Mach.ite_fst_memOk | apply Mach.wr_memOk
        | apply Mach.sysMod_memOk | apply Mach.event_memOk | apply Mach.airCut_memOk | apply Mach.forEach_memOk
        | apply Mach.radioTemp_memOk | rfl
    | split
    | dsimp only

theorem Mach.tickStart_memOk {m : Mach} (h : m.memOk = true) : (Mach.tickStart m).memOk = true := by
  unfold Mach.tickStart
  try dsimp only
  repeat' first
    | with_reducible
      first
        | assumption | intro _ | apply Mach.memOk_reg | apply Mach.ite_memOk | apply Mach.ite_fst_memOk | apply Mach.timMod_memOk
        | apply Mach.reach_memOk | apply Mach.forEach_memOk | apply Mach.dspMod_memOk | apply Mach.tickAccrue_memOk | rfl
    | split
    | dsimp only

theorem Mach.timeReq_memOk {m : Mach} (h : m.memOk = true) (a0) : (Mach.timeReq m a0).memOk = true := by
  unfold Mach.timeReq
  try dsimp only
  repeat' first
    | with_reducible
      first
        | assumption | intro _ | apply Mach.memOk_reg | apply Mach.ite_memOk | apply Mach.ite_fst_memOk
        | apply Mach.setGuyTime_memOk | rfl
    | split
    | dsimp only

theorem Mach.timeRspSend_memOk {m : Mach} (h : m.memOk = true) (a0) : (Mach.timeRspSend m a0).memOk = true := by
  unfold Mach.timeRspSend
  try dsimp only
  repeat' first
    | with_reducible
      first
        | assumption | intro _ | apply Mach.memOk_reg | apply Mach.ite_memOk | apply Mach.ite_fst_memOk | apply Mach.guySend_memOk
        | apply Mach.setGuyTime_memOk | apply Mach.reach_memOk | rfl
    | split
    | dsimp only

theorem Mach.toDeadline_memOk {m : Mach} (h : m.memOk = true) (a0) : (Mach.toDeadline m a0).memOk = true := by
  unfold Mach.toDeadline
  try dsimp only
  repeat' first
    | with_reducible
      first
        | assumption | intro _ | apply Mach.memOk_reg | apply Mach.ite_memOk | apply Mach.ite_fst_memOk | apply Mach.reach_memOk
        | rfl
    | split
    | dsimp only

theorem Mach.toLkAt_memOk {m : Mach} (h : m.memOk = true) : (Mach.toLkAt m).memOk = true := by
  unfold Mach.toLkAt
  try dsimp only
  repeat' first
    | with_reducible
      first
        | assumption | intro _ | apply Mach.memOk_reg | apply Mach.ite_memOk | apply Mach.ite_fst_memOk | apply Mach.elapse_memOk
        | rfl
    | split
    | dsimp only

theorem Mach.toSuperframe_memOk {m : Mach} (h : m.memOk = true) : (Mach.toSuperframe m).memOk = true := by
  unfold Mach.toSuperframe
  try dsimp only
  repeat' first
    | with_reducible
      first
        | assumption | intro _ | apply Mach.memOk_reg | apply Mach.ite_memOk | apply Mach.ite_fst_memOk
        | apply Mach.reachLantern_memOk | rfl
    | split
    | dsimp only

theorem Mach.tsfAlign_memOk {m : Mach} (h : m.memOk = true) (a0) (a1) : (Mach.tsfAlign m a0 a1).memOk = true := by
  unfold Mach.tsfAlign
  try dsimp only
  repeat' first
    | with_reducible
      first
        | assumption | intro _ | apply Mach.memOk_reg | apply Mach.ite_memOk | apply Mach.ite_fst_memOk | apply Mach.setBase_memOk
        | rfl
    | split
    | dsimp only

theorem Mach.tokenReceive_memOk {m : Mach} (h : m.memOk = true) (a0) (a1) : (Mach.tokenReceive m a0 a1).memOk = true := by
  unfold Mach.tokenReceive
  try dsimp only
  repeat' first
    | with_reducible
      first
        | assumption | intro _ | apply Mach.memOk_reg | apply Mach.ite_memOk | apply Mach.ite_fst_memOk | apply Mach.guyTake_memOk
        | apply Mach.chnMod_memOk | apply Mach.wr_memOk | apply Mach.count_memOk | apply Mach.forEach_memOk
        | apply Mach.tsfAlign_memOk | apply Mach.takeRaise_memOk | rfl
    | split
    | dsimp only

theorem Mach.tplApply_memOk {m : Mach} (h : m.memOk = true) : (Mach.tplApply m).memOk = true := by
  unfold Mach.tplApply
  try dsimp only
  repeat' first
    | with_reducible
      first
        | assumption | intro _ | apply Mach.memOk_reg | apply Mach.ite_memOk | apply Mach.ite_fst_memOk
        | apply Mach.mboxCommand_memOk | apply Mach.meshResp_memOk | apply Mach.mlinkMod_memOk | rfl
    | split
    | dsimp only

theorem Mach.tplData_memOk {m : Mach} (h : m.memOk = true) : (Mach.tplData m).memOk = true := by
  unfold Mach.tplData
  try dsimp only
  repeat' first
    | with_reducible
      first
        | assumption | intro _ | apply Mach.memOk_reg | apply Mach.ite_memOk | apply Mach.ite_fst_memOk
        | apply Mach.mboxCommand_memOk | apply Mach.meshResp_memOk | apply Mach.mlinkMod_memOk | rfl
    | split
    | dsimp only

theorem Mach.trainDone_memOk {m : Mach} (h : m.memOk = true) (a0) : (Mach.trainDone m a0).memOk = true := by
  unfold Mach.trainDone
  try dsimp only
  repeat' first
    | with_reducible
      first
        | assumption | intro _ | apply Mach.memOk_reg | apply Mach.ite_memOk | apply Mach.ite_fst_memOk | apply Mach.wr_memOk
        | apply Mach.memMod_memOk | apply Mach.rateSwitch_memOk | rfl
    | split
    | dsimp only

theorem lcNone_memOk {m : Mach} (_h : m.memOk = true) (a0) : (lcNone m a0).memOk := by
  unfold lcNone
  try dsimp only
  repeat' first
    | with_reducible
      first
        | assumption | intro _ | apply Mach.memOk_reg | apply Mach.ite_memOk | apply Mach.ite_fst_memOk | apply LcRes.memOk_good
        | apply LcRes.memOk_bad | apply LcRes.memOk_sleep | rfl
    | split
    | dsimp only

theorem Mach.undefined_memOk {m : Mach} (h : m.memOk = true) (a0) (a1) : (Mach.undefined m a0 a1).memOk = true := by
  unfold Mach.undefined
  try dsimp only
  repeat' first
    | with_reducible
      first
        | assumption | intro _ | apply Mach.memOk_reg | apply Mach.ite_memOk | apply Mach.ite_fst_memOk | apply Res.memOk_fault
        | apply LcRes.memOk_bad | apply Mach.issue_memOk | apply lcNone_memOk | rfl
    | split
    | dsimp only

theorem Mach.unitIdle_memOk {m : Mach} (h : m.memOk = true) (a0) (a1) : (Mach.unitIdle m a0 a1).memOk = true := by
  unfold Mach.unitIdle
  try dsimp only
  repeat' first
    | with_reducible
      first
        | assumption | intro _ | apply Mach.memOk_reg | apply Mach.ite_memOk | apply Mach.ite_fst_memOk | apply Mach.setPwr_memOk
        | rfl
    | split
    | dsimp only

theorem Mach.unitLost_memOk {m : Mach} (h : m.memOk = true) (a0) (a1) : (Mach.unitLost m a0 a1).memOk = true := by
  unfold Mach.unitLost
  try dsimp only
  repeat' first
    | with_reducible
      first
        | assumption | intro _ | apply Mach.memOk_reg | apply Mach.ite_memOk | apply Mach.ite_fst_memOk | apply Mach.setReg_memOk
        | apply Mach.teMod_memOk | rfl
    | split
    | dsimp only

theorem Mach.unspillDone_memOk {m : Mach} (h : m.memOk = true) (a0) : (Mach.unspillDone m a0).memOk = true := by
  unfold Mach.unspillDone
  try dsimp only
  repeat' first
    | with_reducible
      first
        | assumption | intro _ | apply Mach.memOk_reg | apply Mach.ite_memOk | apply Mach.ite_fst_memOk
        | apply Mach.frameBytes_memOk | apply Mach.takeCells_memOk | apply Mach.putSpans_memOk | apply Mach.wr_memOk
        | apply Mach.spillCheck_memOk | apply Mach.pauseCheck_memOk | apply Mach.setHead_memOk | apply Mach.rteMod_memOk | rfl
    | split
    | dsimp only

theorem Mach.vbakFall_memOk {m : Mach} (h : m.memOk = true) : (Mach.vbakFall m).memOk = true := by
  unfold Mach.vbakFall
  try dsimp only
  repeat' first
    | with_reducible
      first
        | assumption | intro _ | apply Mach.memOk_reg | apply Mach.ite_memOk | apply Mach.ite_fst_memOk | apply Mach.when_memOk
        | apply Mach.wr_memOk | apply Mach.lcRaise_memOk | rfl
    | split
    | dsimp only

theorem Mach.vbakRise_memOk {m : Mach} (h : m.memOk = true) : (Mach.vbakRise m).memOk = true := by
  unfold Mach.vbakRise
  try dsimp only
  repeat' first
    | with_reducible
      first
        | assumption | intro _ | apply Mach.memOk_reg | apply Mach.ite_memOk | apply Mach.ite_fst_memOk | apply Mach.wr_memOk
        | apply Mach.when_memOk | apply Mach.copyRepair_memOk | apply Mach.lcRaise_memOk | rfl
    | split
    | dsimp only

theorem Mach.vrGood_memOk {m : Mach} (h : m.memOk = true) : (Mach.vrGood m).memOk = true := by
  unfold Mach.vrGood
  try dsimp only
  repeat' first
    | with_reducible
      first
        | assumption | intro _ | apply Mach.memOk_reg | apply Mach.ite_memOk | apply Mach.ite_fst_memOk | apply Mach.wr_memOk
        | apply Mach.armMod_memOk | rfl
    | split
    | dsimp only

theorem Mach.vrTimeout_memOk {m : Mach} (h : m.memOk = true) (a0) : (Mach.vrTimeout m a0).memOk = true := by
  unfold Mach.vrTimeout
  try dsimp only
  repeat' first
    | with_reducible
      first
        | assumption | intro _ | apply Mach.memOk_reg | apply Mach.ite_memOk | apply Mach.ite_fst_memOk | apply Mach.wr_memOk
        | apply Mach.armMod_memOk | apply Mach.changeAbort_memOk | apply Mach.disarm_memOk | rfl
    | split
    | dsimp only

theorem Mach.waitDeadline_memOk {m : Mach} (h : m.memOk = true) (a0) : (Mach.waitDeadline m a0).memOk = true := by
  unfold Mach.waitDeadline
  try dsimp only
  repeat' first
    | with_reducible
      first
        | assumption | intro _ | apply Mach.memOk_reg | apply Mach.ite_memOk | apply Mach.ite_fst_memOk | apply Mach.settle_memOk
        | apply Mach.teMod_memOk | apply Mach.markLate_memOk | rfl
    | split
    | dsimp only

theorem Mach.wakeDone_memOk {m : Mach} (h : m.memOk = true) (a0) (a1) : (Mach.wakeDone m a0 a1).memOk = true := by
  unfold Mach.wakeDone
  try dsimp only
  repeat' first
    | with_reducible
      first
        | assumption | intro _ | apply Mach.memOk_reg | apply Mach.ite_memOk | apply Mach.ite_fst_memOk | apply Mach.count_memOk
        | apply Mach.setPwr_memOk | apply Mach.when_memOk | apply Mach.unitLost_memOk | rfl
    | split
    | dsimp only

theorem Mach.wakeMatch_memOk {m : Mach} (h : m.memOk = true) : (Mach.wakeMatch m).memOk = true := by
  unfold Mach.wakeMatch
  try dsimp only
  repeat' first
    | with_reducible
      first
        | assumption | intro _ | apply Mach.memOk_reg | apply Mach.ite_memOk | apply Mach.ite_fst_memOk | apply Mach.lcRaise_memOk
        | apply Mach.count_memOk | rfl
    | split
    | dsimp only

theorem Mach.windowClose_memOk {m : Mach} (h : m.memOk = true) : (Mach.windowClose m).memOk = true := by
  unfold Mach.windowClose
  try dsimp only
  repeat' first
    | with_reducible
      first
        | assumption | intro _ | apply Mach.memOk_reg | apply Mach.ite_memOk | apply Mach.ite_fst_memOk | apply Mach.mradGo_memOk
        | apply Mach.mlinkMod_memOk | apply Mach.lcRaise_memOk | apply Mach.attemptFails_memOk | apply Mach.count_memOk
        | apply Mach.setNbr_memOk | apply Mach.when_memOk | rfl
    | split
    | dsimp only

theorem Mach.windowEnd_memOk {m : Mach} (h : m.memOk = true) : (Mach.windowEnd m).memOk = true := by
  unfold Mach.windowEnd
  try dsimp only
  repeat' first
    | with_reducible
      first
        | assumption | intro _ | apply Mach.memOk_reg | apply Mach.ite_memOk | apply Mach.ite_fst_memOk | apply Mach.reach_memOk
        | apply Mach.wr_memOk | apply Mach.chnMod_memOk | apply Mach.campSend_memOk | apply Mach.fenced_memOk | rfl
    | split
    | dsimp only

theorem lcAlu_memOk {m : Mach} (h : m.memOk = true) (a0) (a1) (a2) : (lcAlu a0 a1 a2 m).memOk := by
  unfold lcAlu
  try dsimp only
  repeat' first
    | with_reducible
      first
        | assumption | intro _ | apply Mach.memOk_reg | apply Mach.ite_memOk | apply Mach.ite_fst_memOk | apply LcRes.memOk_good
        | apply LcRes.memOk_bad | apply LcRes.memOk_sleep | rfl
    | split
    | dsimp only

theorem lcJump_memOk {m : Mach} (h : m.memOk = true) (a0) (a1) (a2) : (lcJump m a0 a1 a2).memOk := by
  unfold lcJump
  try dsimp only
  repeat' first
    | with_reducible
      first
        | assumption | intro _ | apply Mach.memOk_reg | apply Mach.ite_memOk | apply Mach.ite_fst_memOk | apply LcRes.memOk_good
        | apply LcRes.memOk_bad | apply LcRes.memOk_sleep | rfl
    | split
    | dsimp only

theorem lcBcond_memOk {m : Mach} (h : m.memOk = true) (a0) (a1) (a2) : (lcBcond a0 a1 m a2).memOk := by
  unfold lcBcond
  try dsimp only
  repeat' first
    | with_reducible
      first
        | assumption | intro _ | apply Mach.memOk_reg | apply Mach.ite_memOk | apply Mach.ite_fst_memOk | apply LcRes.memOk_good
        | apply LcRes.memOk_bad | apply LcRes.memOk_sleep | apply lcJump_memOk | rfl
    | split
    | dsimp only

theorem lcBrk_memOk {m : Mach} (h : m.memOk = true) : (lcBrk m).memOk := by
  unfold lcBrk
  try dsimp only
  repeat' first
    | with_reducible
      first
        | assumption | intro _ | apply Mach.memOk_reg | apply Mach.ite_memOk | apply Mach.ite_fst_memOk | apply LcRes.memOk_good
        | apply LcRes.memOk_bad | apply LcRes.memOk_sleep | rfl
    | split
    | dsimp only

theorem lcCall_memOk {m : Mach} (h : m.memOk = true) (a0) (a1) (a2) : (lcCall a0 a1 m a2).memOk := by
  unfold lcCall
  try dsimp only
  repeat' first
    | with_reducible
      first
        | assumption | intro _ | apply Mach.memOk_reg | apply Mach.ite_memOk | apply Mach.ite_fst_memOk | apply LcRes.memOk_good
        | apply LcRes.memOk_bad | apply LcRes.memOk_sleep | apply lcJump_memOk | rfl
    | split
    | dsimp only

theorem lcDiv_memOk {m : Mach} (h : m.memOk = true) (a0) (a1) (a2) (a3) (a4) : (lcDiv a0 a1 a2 a3 m a4).memOk := by
  unfold lcDiv
  try dsimp only
  repeat' first
    | with_reducible
      first
        | assumption | intro _ | apply Mach.memOk_reg | apply Mach.ite_memOk | apply Mach.ite_fst_memOk | apply LcRes.memOk_good
        | apply LcRes.memOk_bad | apply LcRes.memOk_sleep | rfl
    | split
    | dsimp only

theorem lcJr_memOk {m : Mach} (h : m.memOk = true) (a0) (a1) (a2) : (lcJr a0 a1 m a2).memOk := by
  unfold lcJr
  generalize ((a2.get a1 : Nat) : Int) = z
  exact lcJump_memOk h _ _ _

theorem lcLd_memOk {m : Mach} (h : m.memOk = true) (a0) (a1) (a2) (a3) : (lcLd a0 a1 a2 m a3).memOk := by
  unfold lcLd
  try dsimp only
  repeat' first
    | with_reducible
      first
        | assumption | intro _ | apply Mach.memOk_reg | apply Mach.ite_memOk | apply Mach.ite_fst_memOk | apply LcRes.memOk_good
        | apply LcRes.memOk_bad | apply LcRes.memOk_sleep | apply Mach.lcBytes_memOk | rfl
    | split
    | dsimp only

theorem lcOp_memOk {m : Mach} (h : m.memOk = true) (a0) (a1) (a2) (a3) (a4) (a5) : (lcOp a0 a1 a2 a3 a4 a5 m).memOk := by
  unfold lcOp
  try dsimp only
  repeat' first
    | with_reducible
      first
        | assumption | intro _ | apply Mach.memOk_reg | apply Mach.ite_memOk | apply Mach.ite_fst_memOk | apply LcRes.memOk_good
        | apply LcRes.memOk_bad | apply LcRes.memOk_sleep | apply lcAlu_memOk | rfl
    | split
    | dsimp only

theorem lcRds_memOk {m : Mach} (h : m.memOk = true) (a0) (a1) (a2) : (lcRds a0 a1 m a2).memOk := by
  unfold lcRds
  try dsimp only
  repeat' first
    | with_reducible
      first
        | assumption | intro _ | apply Mach.memOk_reg | apply Mach.ite_memOk | apply Mach.ite_fst_memOk | apply LcRes.memOk_good
        | apply LcRes.memOk_bad | apply LcRes.memOk_sleep | rfl
    | split
    | dsimp only

theorem lcSt_memOk {m : Mach} (h : m.memOk = true) (a0) (a1) (a2) (a3) : (lcSt a0 a1 a2 m a3).memOk := by
  unfold lcSt
  try dsimp only
  repeat' first
    | with_reducible
      first
        | assumption | intro _ | apply Mach.memOk_reg | apply Mach.ite_memOk | apply Mach.ite_fst_memOk | apply LcRes.memOk_good
        | apply LcRes.memOk_bad | apply LcRes.memOk_sleep | apply Mach.forEach_memOk | apply Mach.lcStore_memOk | rfl
    | split
    | dsimp only

theorem lcWrs_memOk {m : Mach} (h : m.memOk = true) (a0) (a1) (a2) : (lcWrs a0 a1 m a2).memOk := by
  unfold lcWrs
  try dsimp only
  repeat' first
    | with_reducible
      first
        | assumption | intro _ | apply Mach.memOk_reg | apply Mach.ite_memOk | apply Mach.ite_fst_memOk | apply LcRes.memOk_good
        | apply LcRes.memOk_bad | apply LcRes.memOk_sleep | apply Mach.lcMod_memOk | rfl
    | split
    | dsimp only

theorem teAlu_memOk {m : Mach} (h : m.memOk = true) (a0) (a1) (a2) (a3) (a4) : (teAlu a0 a1 a2 a3 a4 m).memOk := by
  unfold teAlu
  try dsimp only
  repeat' first
    | with_reducible
      first
        | assumption | intro _ | apply Mach.memOk_reg | apply Mach.ite_memOk | apply Mach.ite_fst_memOk | apply Res.memOk_good
        | apply Res.memOk_bad | apply Res.memOk_fault | apply Res.memOk_sleep | apply Res.guard_memOk | apply Res.withIndex_memOk
        | rfl
    | split
    | dsimp only

theorem teAddSub_memOk {m : Mach} (h : m.memOk = true) (a0) (a1) (a2) (a3) : (teAddSub a0 a1 a2 a3 m).memOk := by
  unfold teAddSub
  try dsimp only
  repeat' first
    | with_reducible
      first
        | assumption | intro _ | apply Mach.memOk_reg | apply Mach.ite_memOk | apply Mach.ite_fst_memOk | apply Res.memOk_good
        | apply Res.memOk_bad | apply Res.memOk_fault | apply Res.memOk_sleep | apply Res.guard_memOk | apply Res.withIndex_memOk
        | apply teAlu_memOk | rfl
    | split
    | dsimp only

theorem teJump_memOk {m : Mach} (h : m.memOk = true) (a0) (a1) (a2) : (teJump m a0 a1 a2).memOk := by
  unfold teJump
  try dsimp only
  repeat' first
    | with_reducible
      first
        | assumption | intro _ | apply Mach.memOk_reg | apply Mach.ite_memOk | apply Mach.ite_fst_memOk | apply Res.memOk_good
        | apply Res.memOk_bad | apply Res.memOk_fault | apply Res.memOk_sleep | apply Res.guard_memOk | apply Res.withIndex_memOk
        | rfl
    | split
    | dsimp only

theorem teBcond_memOk {m : Mach} (h : m.memOk = true) (a0) (a1) (a2) : (teBcond a0 a1 m a2).memOk := by
  unfold teBcond
  try dsimp only
  repeat' first
    | with_reducible
      first
        | assumption | intro _ | apply Mach.memOk_reg | apply Mach.ite_memOk | apply Mach.ite_fst_memOk | apply Res.memOk_good
        | apply Res.memOk_bad | apply Res.memOk_fault | apply Res.memOk_sleep | apply Res.guard_memOk | apply Res.withIndex_memOk
        | apply teJump_memOk | rfl
    | split
    | dsimp only

theorem teBrk_memOk {m : Mach} (h : m.memOk = true) (a0) : (teBrk m a0).memOk := by
  unfold teBrk
  try dsimp only
  repeat' first
    | with_reducible
      first
        | assumption | intro _ | apply Mach.memOk_reg | apply Mach.ite_memOk | apply Mach.ite_fst_memOk | apply Res.memOk_good
        | apply Res.memOk_bad | apply Res.memOk_fault | apply Res.memOk_sleep | apply Res.guard_memOk | apply Res.withIndex_memOk
        | rfl
    | split
    | dsimp only

theorem teBtag_memOk {m : Mach} (h : m.memOk = true) (a0) (a1) (a2) (a3) (a4) : (teBtag a0 a1 a2 a3 m a4).memOk := by
  unfold teBtag
  try dsimp only
  repeat' first
    | with_reducible
      first
        | assumption | intro _ | apply Mach.memOk_reg | apply Mach.ite_memOk | apply Mach.ite_fst_memOk | apply Res.memOk_good
        | apply Res.memOk_bad | apply Res.memOk_fault | apply Res.memOk_sleep | apply Res.guard_memOk | apply Res.withIndex_memOk
        | apply teJump_memOk | rfl
    | split
    | dsimp only

theorem teCall_memOk {m : Mach} (h : m.memOk = true) (a0) (a1) (a2) : (teCall a0 a1 m a2).memOk := by
  unfold teCall
  try dsimp only
  repeat' first
    | with_reducible
      first
        | assumption | intro _ | apply Mach.memOk_reg | apply Mach.ite_memOk | apply Mach.ite_fst_memOk | apply Res.memOk_good
        | apply Res.memOk_bad | apply Res.memOk_fault | apply Res.memOk_sleep | apply Res.guard_memOk | apply Res.withIndex_memOk
        | apply teJump_memOk | rfl
    | split
    | dsimp only

theorem teCeq_memOk {m : Mach} (h : m.memOk = true) (a0) (a1) : (teCeq a0 a1 m).memOk := by
  unfold teCeq
  try dsimp only
  repeat' first
    | with_reducible
      first
        | assumption | intro _ | apply Mach.memOk_reg | apply Mach.ite_memOk | apply Mach.ite_fst_memOk | apply Res.memOk_good
        | apply Res.memOk_bad | apply Res.memOk_fault | apply Res.memOk_sleep | apply Res.guard_memOk | apply Res.withIndex_memOk
        | rfl
    | split
    | dsimp only

theorem teClre_memOk {m : Mach} (h : m.memOk = true) (a0) (a1) (a2) : (teClre a0 m a1 a2).memOk := by
  unfold teClre
  try dsimp only
  repeat' first
    | with_reducible
      first
        | assumption | intro _ | apply Mach.memOk_reg | apply Mach.ite_memOk | apply Mach.ite_fst_memOk | apply Res.memOk_good
        | apply Res.memOk_bad | apply Res.memOk_fault | apply Res.memOk_sleep | apply Res.guard_memOk | apply Res.withIndex_memOk
        | apply Mach.dspMod_memOk | rfl
    | split
    | dsimp only

theorem teCmp_memOk {m : Mach} (h : m.memOk = true) (a0) (a1) : (teCmp a0 a1 m).memOk := by
  unfold teCmp
  try dsimp only
  repeat' first
    | with_reducible
      first
        | assumption | intro _ | apply Mach.memOk_reg | apply Mach.ite_memOk | apply Mach.ite_fst_memOk | apply Res.memOk_good
        | apply Res.memOk_bad | apply Res.memOk_fault | apply Res.memOk_sleep | apply Res.guard_memOk | apply Res.withIndex_memOk
        | apply teAlu_memOk | rfl
    | split
    | dsimp only

theorem teDiv_memOk {m : Mach} (h : m.memOk = true) (a0) (a1) (a2) (a3) (a4) (a5) (a6) : (teDiv a0 a1 a2 a3 a4 a5 a6 m).memOk := by
  unfold teDiv
  try dsimp only
  repeat' first
    | with_reducible
      first
        | assumption | intro _ | apply Mach.memOk_reg | apply Mach.ite_memOk | apply Mach.ite_fst_memOk | apply Res.memOk_good
        | apply Res.memOk_bad | apply Res.memOk_fault | apply Res.memOk_sleep | apply Res.guard_memOk | apply Res.withIndex_memOk
        | rfl
    | split
    | dsimp only

theorem teEnd_memOk {m : Mach} (h : m.memOk = true) (a0) : (teEnd m a0).memOk := by
  unfold teEnd
  try dsimp only
  repeat' first
    | with_reducible
      first
        | assumption | intro _ | apply Mach.memOk_reg | apply Mach.ite_memOk | apply Mach.ite_fst_memOk | apply Res.memOk_good
        | apply Res.memOk_bad | apply Res.memOk_fault | apply Res.memOk_sleep | apply Res.guard_memOk | apply Res.withIndex_memOk
        | rfl
    | split
    | dsimp only

theorem teEstat_memOk {m : Mach} (h : m.memOk = true) (a0) (a1) (a2) (a3) : (teEstat a0 a1 m a2 a3).memOk := by
  unfold teEstat
  try dsimp only
  repeat' first
    | with_reducible
      first
        | assumption | intro _ | apply Mach.memOk_reg | apply Mach.ite_memOk | apply Mach.ite_fst_memOk | apply Res.memOk_good
        | apply Res.memOk_bad | apply Res.memOk_fault | apply Res.memOk_sleep | apply Res.guard_memOk | apply Res.withIndex_memOk
        | rfl
    | split
    | dsimp only

theorem teExt_memOk {m : Mach} (h : m.memOk = true) (a0) (a1) (a2) (a3) : (teExt a0 a1 a2 a3 m).memOk := by
  unfold teExt
  try dsimp only
  repeat' first
    | with_reducible
      first
        | assumption | intro _ | apply Mach.memOk_reg | apply Mach.ite_memOk | apply Mach.ite_fst_memOk | apply Res.memOk_good
        | apply Res.memOk_bad | apply Res.memOk_fault | apply Res.memOk_sleep | apply Res.guard_memOk | apply Res.withIndex_memOk
        | rfl
    | split
    | dsimp only

theorem teFar_memOk {m : Mach} (h : m.memOk = true) (a0) (a1) (a2) (a3) (a4) (a5) (a6) (a7) : (teFar a0 a1 a2 a3 a4 a5 a6 m
    a7).memOk := by
  unfold teFar
  try dsimp only
  repeat' first
    | with_reducible
      first
        | assumption | intro _ | apply Mach.memOk_reg | apply Mach.ite_memOk | apply Mach.ite_fst_memOk | apply Res.memOk_good
        | apply Res.memOk_bad | apply Res.memOk_fault | apply Res.memOk_sleep | apply Res.guard_memOk | apply Res.withIndex_memOk
        | apply Mach.lmPairs_memOk | apply Mach.output_memOk | apply Mach.startAcc_memOk | rfl
    | split
    | dsimp only

theorem teFret_memOk {m : Mach} (h : m.memOk = true) (a0) (a1) : (teFret a0 m a1).memOk := by
  unfold teFret
  try dsimp only
  repeat' first
    | with_reducible
      first
        | assumption | intro _ | apply Mach.memOk_reg | apply Mach.ite_memOk | apply Mach.ite_fst_memOk | apply Res.memOk_good
        | apply Res.memOk_bad | apply Res.memOk_fault | apply Res.memOk_sleep | apply Res.guard_memOk | apply Res.withIndex_memOk
        | rfl
    | split
    | dsimp only

theorem teIns_memOk {m : Mach} (h : m.memOk = true) (a0) (a1) (a2) (a3) (a4) : (teIns a0 a1 a2 a3 a4 m).memOk := by
  unfold teIns
  try dsimp only
  repeat' first
    | with_reducible
      first
        | assumption | intro _ | apply Mach.memOk_reg | apply Mach.ite_memOk | apply Mach.ite_fst_memOk | apply Res.memOk_good
        | apply Res.memOk_bad | apply Res.memOk_fault | apply Res.memOk_sleep | apply Res.guard_memOk | apply Res.withIndex_memOk
        | rfl
    | split
    | dsimp only

theorem teJr_memOk {m : Mach} (h : m.memOk = true) (a0) (a1) (a2) : (teJr a0 a1 m a2).memOk := by
  unfold teJr
  try dsimp only
  repeat' first
    | with_reducible
      first
        | assumption | intro _ | apply Mach.memOk_reg | apply Mach.ite_memOk | apply Mach.ite_fst_memOk | apply Res.memOk_good
        | apply Res.memOk_bad | apply Res.memOk_fault | apply Res.memOk_sleep | apply Res.guard_memOk | apply Res.withIndex_memOk
        | apply teJump_memOk | rfl
    | split
    | dsimp only

theorem teLd_memOk {m : Mach} (h : m.memOk = true) (a0) (a1) (a2) (a3) : (teLd a0 a1 a2 a3 m).memOk := by
  unfold teLd
  try dsimp only
  repeat' first
    | with_reducible
      first
        | assumption | intro _ | apply Mach.memOk_reg | apply Mach.ite_memOk | apply Mach.ite_fst_memOk | apply Res.memOk_good
        | apply Res.memOk_bad | apply Res.memOk_fault | apply Res.memOk_sleep | apply Res.guard_memOk | apply Res.withIndex_memOk
        | apply Mach.lmLoad_memOk | rfl
    | split
    | dsimp only

theorem teMovk_memOk {m : Mach} (h : m.memOk = true) (a0) (a1) (a2) (a3) : (teMovk a0 a1 a2 a3 m).memOk := by
  unfold teMovk
  try dsimp only
  repeat' first
    | with_reducible
      first
        | assumption | intro _ | apply Mach.memOk_reg | apply Mach.ite_memOk | apply Mach.ite_fst_memOk | apply Res.memOk_good
        | apply Res.memOk_bad | apply Res.memOk_fault | apply Res.memOk_sleep | apply Res.guard_memOk | apply Res.withIndex_memOk
        | rfl
    | split
    | dsimp only

theorem teRds_memOk {m : Mach} (h : m.memOk = true) (a0) (a1) (a2) (a3) : (teRds a0 a1 m a2 a3).memOk := by
  unfold teRds
  try dsimp only
  repeat' first
    | with_reducible
      first
        | assumption | intro _ | apply Mach.memOk_reg | apply Mach.ite_memOk | apply Mach.ite_fst_memOk | apply Res.memOk_good
        | apply Res.memOk_bad | apply Res.memOk_fault | apply Res.memOk_sleep | apply Res.guard_memOk | apply Res.withIndex_memOk
        | rfl
    | split
    | dsimp only

theorem teRdx_memOk {m : Mach} (h : m.memOk = true) (a0) (a1) (a2) : (teRdx a0 a1 m a2).memOk := by
  unfold teRdx
  try dsimp only
  repeat' first
    | with_reducible
      first
        | assumption | intro _ | apply Mach.memOk_reg | apply Mach.ite_memOk | apply Mach.ite_fst_memOk | apply Res.memOk_good
        | apply Res.memOk_bad | apply Res.memOk_fault | apply Res.memOk_sleep | apply Res.guard_memOk | apply Res.withIndex_memOk
        | rfl
    | split
    | dsimp only

theorem teRetag_memOk {m : Mach} (h : m.memOk = true) (a0) (a1) (a2) : (teRetag a0 a1 a2 m).memOk := by
  unfold teRetag
  try dsimp only
  repeat' first
    | with_reducible
      first
        | assumption | intro _ | apply Mach.memOk_reg | apply Mach.ite_memOk | apply Mach.ite_fst_memOk | apply Res.memOk_good
        | apply Res.memOk_bad | apply Res.memOk_fault | apply Res.memOk_sleep | apply Res.guard_memOk | apply Res.withIndex_memOk
        | rfl
    | split
    | dsimp only

theorem teSig_memOk {m : Mach} (h : m.memOk = true) (a0) (a1) (a2) (a3) : (teSig a0 a1 m a2 a3).memOk := by
  unfold teSig
  try dsimp only
  repeat' first
    | with_reducible
      first
        | assumption | intro _ | apply Mach.memOk_reg | apply Mach.ite_memOk | apply Mach.ite_fst_memOk | apply Res.memOk_good
        | apply Res.memOk_bad | apply Res.memOk_fault | apply Res.memOk_sleep | apply Res.guard_memOk | apply Res.withIndex_memOk
        | apply Mach.output_memOk | apply Mach.sendEvent_memOk | apply Mach.rpSeqTake_memOk | rfl
    | split
    | dsimp only

theorem teSt_memOk {m : Mach} (h : m.memOk = true) (a0) (a1) (a2) (a3) (a4) : (teSt a0 a1 a2 a3 a4 m).memOk := by
  unfold teSt
  try dsimp only
  repeat' first
    | with_reducible
      first
        | assumption | intro _ | apply Mach.memOk_reg | apply Mach.ite_memOk | apply Mach.ite_fst_memOk | apply Res.memOk_good
        | apply Res.memOk_bad | apply Res.memOk_fault | apply Res.memOk_sleep | apply Res.guard_memOk | apply Res.withIndex_memOk
        | apply Mach.lmStore_memOk | rfl
    | split
    | dsimp only

theorem teUnary_memOk {m : Mach} (h : m.memOk = true) (a0) (a1) (a2) : (teUnary a0 a1 a2 m).memOk := by
  unfold teUnary
  try dsimp only
  repeat' first
    | with_reducible
      first
        | assumption | intro _ | apply Mach.memOk_reg | apply Mach.ite_memOk | apply Mach.ite_fst_memOk | apply Res.memOk_good
        | apply Res.memOk_bad | apply Res.memOk_fault | apply Res.memOk_sleep | apply Res.guard_memOk | apply Res.withIndex_memOk
        | rfl
    | split
    | dsimp only

theorem teWait_memOk {m : Mach} (h : m.memOk = true) (a0) (a1) (a2) (a3) (a4) : (teWait a0 a1 a2 m a3 a4).memOk := by
  unfold teWait
  try dsimp only
  repeat' first
    | with_reducible
      first
        | assumption | intro _ | apply Mach.memOk_reg | apply Mach.ite_memOk | apply Mach.ite_fst_memOk | apply Res.memOk_good
        | apply Res.memOk_bad | apply Res.memOk_fault | apply Res.memOk_sleep | apply Res.guard_memOk | apply Res.withIndex_memOk
        | rfl
    | split
    | dsimp only

theorem teWrs_memOk {m : Mach} (h : m.memOk = true) (a0) (a1) (a2) (a3) : (teWrs a0 a1 m a2 a3).memOk := by
  unfold teWrs
  try dsimp only
  repeat' first
    | with_reducible
      first
        | assumption | intro _ | apply Mach.memOk_reg | apply Mach.ite_memOk | apply Mach.ite_fst_memOk | apply Res.memOk_good
        | apply Res.memOk_bad | apply Res.memOk_fault | apply Res.memOk_sleep | apply Res.guard_memOk | apply Res.withIndex_memOk
        | apply Mach.teMod_memOk | rfl
    | split
    | dsimp only

theorem teWrx_memOk {m : Mach} (h : m.memOk = true) (a0) (a1) (a2) (a3) : (teWrx a0 a1 m a2 a3).memOk := by
  unfold teWrx
  try dsimp only
  repeat' first
    | with_reducible
      first
        | assumption | intro _ | apply Mach.memOk_reg | apply Mach.ite_memOk | apply Mach.ite_fst_memOk | apply Res.memOk_good
        | apply Res.memOk_bad | apply Res.memOk_fault | apply Res.memOk_sleep | apply Res.guard_memOk | apply Res.withIndex_memOk
        | apply Mach.teMod_memOk | rfl
    | split
    | dsimp only

theorem Mach.reachSecond_memOk {m : Mach} (h : m.memOk = true) : (Mach.reachSecond m).memOk = true := by
  unfold Mach.reachSecond
  try dsimp only
  repeat' first
    | with_reducible
      first
        | assumption | intro _ | apply Mach.memOk_reg | apply Mach.ite_memOk | apply Mach.ite_fst_memOk | apply Mach.reach_memOk
        | rfl
    | split
    | dsimp only

end Sys2Proof.Machine
end

