-- ==== Sys2Proof/Laws/Encode.lean ====
section
/-! SUPPORT. The fields of an encoded engine word are the operands it was encoded from (R146, R148). -/

namespace Sys2Proof.Machine

open Sys2Proof

theorem toNat_append {a b : Nat} (x : BitVec a) (y : BitVec b) : (x ++ y).toNat = x.toNat * 2 ^ b + y.toNat := by
  rw [BitVec.toNat_append, ← Nat.shiftLeft_add_eq_or_of_lt y.isLt, Nat.shiftLeft_eq]

theorem encReg_toNat (op : BitVec 6) (rd ra rb : BitVec 5) (fn : BitVec 6) : (encReg op rd ra rb fn).toNat = op.toNat * 2 ^ 26 + rd.toNat * 2 ^ 21 + ra.toNat * 2 ^ 16 + rb.toNat * 2 ^ 11 + fn.toNat := by
  unfold encReg
  change BitVec.toNat (w := 6 + 5 + 5 + 5 + 5 + 6) _ = _
  repeat rw [toNat_append]
  simp
  omega

@[simp] theorem wordFld_encReg_26 (op : BitVec 6) (rd ra rb : BitVec 5) (fn : BitVec 6) : wordFld (encReg op rd ra rb fn) 26 6 = op.toNat := by
  have h0 := op.isLt
  have h1 := rd.isLt
  have h2 := ra.isLt
  have h3 := rb.isLt
  have h4 := fn.isLt
  simp only [wordFld, encReg_toNat]
  omega

@[simp] theorem wordFld_encReg_21 (op : BitVec 6) (rd ra rb : BitVec 5) (fn : BitVec 6) : wordFld (encReg op rd ra rb fn) 21 5 = rd.toNat := by
  have h0 := op.isLt
  have h1 := rd.isLt
  have h2 := ra.isLt
  have h3 := rb.isLt
  have h4 := fn.isLt
  simp only [wordFld, encReg_toNat]
  omega

@[simp] theorem wordFld_encReg_16 (op : BitVec 6) (rd ra rb : BitVec 5) (fn : BitVec 6) : wordFld (encReg op rd ra rb fn) 16 5 = ra.toNat := by
  have h0 := op.isLt
  have h1 := rd.isLt
  have h2 := ra.isLt
  have h3 := rb.isLt
  have h4 := fn.isLt
  simp only [wordFld, encReg_toNat]
  omega

@[simp] theorem wordFld_encReg_11 (op : BitVec 6) (rd ra rb : BitVec 5) (fn : BitVec 6) : wordFld (encReg op rd ra rb fn) 11 5 = rb.toNat := by
  have h0 := op.isLt
  have h1 := rd.isLt
  have h2 := ra.isLt
  have h3 := rb.isLt
  have h4 := fn.isLt
  simp only [wordFld, encReg_toNat]
  omega

@[simp] theorem wordFld_encReg_6 (op : BitVec 6) (rd ra rb : BitVec 5) (fn : BitVec 6) : wordFld (encReg op rd ra rb fn) 6 5 = 0 := by
  have h0 := op.isLt
  have h1 := rd.isLt
  have h2 := ra.isLt
  have h3 := rb.isLt
  have h4 := fn.isLt
  simp only [wordFld, encReg_toNat]
  omega

@[simp] theorem wordFld_encReg_0 (op : BitVec 6) (rd ra rb : BitVec 5) (fn : BitVec 6) : wordFld (encReg op rd ra rb fn) 0 6 = fn.toNat := by
  have h0 := op.isLt
  have h1 := rd.isLt
  have h2 := ra.isLt
  have h3 := rb.isLt
  have h4 := fn.isLt
  simp only [wordFld, encReg_toNat]
  omega

theorem encDiv_toNat (rd rr ra rb : BitVec 5) : (encDiv rd rr ra rb).toNat = 2 * 2 ^ 26 + rd.toNat * 2 ^ 21 + ra.toNat * 2 ^ 16 + rb.toNat * 2 ^ 11 + rr.toNat * 2 ^ 6 := by
  unfold encDiv
  change BitVec.toNat (w := 6 + 5 + 5 + 5 + 5 + 6) _ = _
  repeat rw [toNat_append]
  simp
  omega

@[simp] theorem wordFld_encDiv_26 (rd rr ra rb : BitVec 5) : wordFld (encDiv rd rr ra rb) 26 6 = 2 := by
  have h0 := rd.isLt
  have h1 := ra.isLt
  have h2 := rb.isLt
  have h3 := rr.isLt
  simp only [wordFld, encDiv_toNat]
  omega

@[simp] theorem wordFld_encDiv_21 (rd rr ra rb : BitVec 5) : wordFld (encDiv rd rr ra rb) 21 5 = rd.toNat := by
  have h0 := rd.isLt
  have h1 := ra.isLt
  have h2 := rb.isLt
  have h3 := rr.isLt
  simp only [wordFld, encDiv_toNat]
  omega

@[simp] theorem wordFld_encDiv_16 (rd rr ra rb : BitVec 5) : wordFld (encDiv rd rr ra rb) 16 5 = ra.toNat := by
  have h0 := rd.isLt
  have h1 := ra.isLt
  have h2 := rb.isLt
  have h3 := rr.isLt
  simp only [wordFld, encDiv_toNat]
  omega

@[simp] theorem wordFld_encDiv_11 (rd rr ra rb : BitVec 5) : wordFld (encDiv rd rr ra rb) 11 5 = rb.toNat := by
  have h0 := rd.isLt
  have h1 := ra.isLt
  have h2 := rb.isLt
  have h3 := rr.isLt
  simp only [wordFld, encDiv_toNat]
  omega

@[simp] theorem wordFld_encDiv_6 (rd rr ra rb : BitVec 5) : wordFld (encDiv rd rr ra rb) 6 5 = rr.toNat := by
  have h0 := rd.isLt
  have h1 := ra.isLt
  have h2 := rb.isLt
  have h3 := rr.isLt
  simp only [wordFld, encDiv_toNat]
  omega

@[simp] theorem wordFld_encDiv_0 (rd rr ra rb : BitVec 5) : wordFld (encDiv rd rr ra rb) 0 6 = 0 := by
  have h0 := rd.isLt
  have h1 := ra.isLt
  have h2 := rb.isLt
  have h3 := rr.isLt
  simp only [wordFld, encDiv_toNat]
  omega

theorem encImm_toNat (op : BitVec 6) (rd ra : BitVec 5) (imm : BitVec 16) : (encImm op rd ra imm).toNat = op.toNat * 2 ^ 26 + rd.toNat * 2 ^ 21 + ra.toNat * 2 ^ 16 + imm.toNat := by
  unfold encImm
  change BitVec.toNat (w := 6 + 5 + 5 + 16) _ = _
  repeat rw [toNat_append]
  simp
  omega

@[simp] theorem wordFld_encImm_26 (op : BitVec 6) (rd ra : BitVec 5) (imm : BitVec 16) : wordFld (encImm op rd ra imm) 26 6 = op.toNat := by
  have h0 := op.isLt
  have h1 := rd.isLt
  have h2 := ra.isLt
  have h3 := imm.isLt
  simp only [wordFld, encImm_toNat]
  omega

@[simp] theorem wordFld_encImm_21 (op : BitVec 6) (rd ra : BitVec 5) (imm : BitVec 16) : wordFld (encImm op rd ra imm) 21 5 = rd.toNat := by
  have h0 := op.isLt
  have h1 := rd.isLt
  have h2 := ra.isLt
  have h3 := imm.isLt
  simp only [wordFld, encImm_toNat]
  omega

@[simp] theorem wordFld_encImm_16 (op : BitVec 6) (rd ra : BitVec 5) (imm : BitVec 16) : wordFld (encImm op rd ra imm) 16 5 = ra.toNat := by
  have h0 := op.isLt
  have h1 := rd.isLt
  have h2 := ra.isLt
  have h3 := imm.isLt
  simp only [wordFld, encImm_toNat]
  omega

@[simp] theorem wordFld_encImm_0 (op : BitVec 6) (rd ra : BitVec 5) (imm : BitVec 16) : wordFld (encImm op rd ra imm) 0 16 = imm.toNat := by
  have h0 := op.isLt
  have h1 := rd.isLt
  have h2 := ra.isLt
  have h3 := imm.isLt
  simp only [wordFld, encImm_toNat]
  omega

theorem encWide_toNat (rd : BitVec 5) (imm : BitVec 21) : (encWide rd imm).toNat = 13 * 2 ^ 26 + rd.toNat * 2 ^ 21 + imm.toNat := by
  unfold encWide
  change BitVec.toNat (w := 6 + 5 + 21) _ = _
  repeat rw [toNat_append]
  simp
  omega

@[simp] theorem wordFld_encWide_26 (rd : BitVec 5) (imm : BitVec 21) : wordFld (encWide rd imm) 26 6 = 13 := by
  have h0 := rd.isLt
  have h1 := imm.isLt
  simp only [wordFld, encWide_toNat]
  omega

@[simp] theorem wordFld_encWide_21 (rd : BitVec 5) (imm : BitVec 21) : wordFld (encWide rd imm) 21 5 = rd.toNat := by
  have h0 := rd.isLt
  have h1 := imm.isLt
  simp only [wordFld, encWide_toNat]
  omega

@[simp] theorem wordFld_encWide_0 (rd : BitVec 5) (imm : BitVec 21) : wordFld (encWide rd imm) 0 21 = imm.toNat := by
  have h0 := rd.isLt
  have h1 := imm.isLt
  simp only [wordFld, encWide_toNat]
  omega

theorem encHalf_toNat (rd : BitVec 5) (hw : BitVec 2) (imm : BitVec 16) : (encHalf rd hw imm).toNat = 14 * 2 ^ 26 + rd.toNat * 2 ^ 21 + hw.toNat * 2 ^ 16 + imm.toNat := by
  unfold encHalf
  change BitVec.toNat (w := 6 + 5 + 3 + 2 + 16) _ = _
  repeat rw [toNat_append]
  simp
  omega

@[simp] theorem wordFld_encHalf_26 (rd : BitVec 5) (hw : BitVec 2) (imm : BitVec 16) : wordFld (encHalf rd hw imm) 26 6 = 14 := by
  have h0 := rd.isLt
  have h1 := hw.isLt
  have h2 := imm.isLt
  simp only [wordFld, encHalf_toNat]
  omega

@[simp] theorem wordFld_encHalf_21 (rd : BitVec 5) (hw : BitVec 2) (imm : BitVec 16) : wordFld (encHalf rd hw imm) 21 5 = rd.toNat := by
  have h0 := rd.isLt
  have h1 := hw.isLt
  have h2 := imm.isLt
  simp only [wordFld, encHalf_toNat]
  omega

@[simp] theorem wordFld_encHalf_18 (rd : BitVec 5) (hw : BitVec 2) (imm : BitVec 16) : wordFld (encHalf rd hw imm) 18 3 = 0 := by
  have h0 := rd.isLt
  have h1 := hw.isLt
  have h2 := imm.isLt
  simp only [wordFld, encHalf_toNat]
  omega

@[simp] theorem wordFld_encHalf_16 (rd : BitVec 5) (hw : BitVec 2) (imm : BitVec 16) : wordFld (encHalf rd hw imm) 16 2 = hw.toNat := by
  have h0 := rd.isLt
  have h1 := hw.isLt
  have h2 := imm.isLt
  simp only [wordFld, encHalf_toNat]
  omega

@[simp] theorem wordFld_encHalf_0 (rd : BitVec 5) (hw : BitVec 2) (imm : BitVec 16) : wordFld (encHalf rd hw imm) 0 16 = imm.toNat := by
  have h0 := rd.isLt
  have h1 := hw.isLt
  have h2 := imm.isLt
  simp only [wordFld, encHalf_toNat]
  omega

theorem encField_toNat (op : BitVec 6) (rd ra : BitVec 5) (pos len1 : BitVec 6) : (encField op rd ra pos len1).toNat = op.toNat * 2 ^ 26 + rd.toNat * 2 ^ 21 + ra.toNat * 2 ^ 16 + pos.toNat * 2 ^ 10 + len1.toNat * 2 ^ 4 := by
  unfold encField
  change BitVec.toNat (w := 6 + 5 + 5 + 6 + 6 + 4) _ = _
  repeat rw [toNat_append]
  simp
  omega

@[simp] theorem wordFld_encField_26 (op : BitVec 6) (rd ra : BitVec 5) (pos len1 : BitVec 6) : wordFld (encField op rd ra pos len1) 26 6 = op.toNat := by
  have h0 := op.isLt
  have h1 := rd.isLt
  have h2 := ra.isLt
  have h3 := pos.isLt
  have h4 := len1.isLt
  simp only [wordFld, encField_toNat]
  omega

@[simp] theorem wordFld_encField_21 (op : BitVec 6) (rd ra : BitVec 5) (pos len1 : BitVec 6) : wordFld (encField op rd ra pos len1) 21 5 = rd.toNat := by
  have h0 := op.isLt
  have h1 := rd.isLt
  have h2 := ra.isLt
  have h3 := pos.isLt
  have h4 := len1.isLt
  simp only [wordFld, encField_toNat]
  omega

@[simp] theorem wordFld_encField_16 (op : BitVec 6) (rd ra : BitVec 5) (pos len1 : BitVec 6) : wordFld (encField op rd ra pos len1) 16 5 = ra.toNat := by
  have h0 := op.isLt
  have h1 := rd.isLt
  have h2 := ra.isLt
  have h3 := pos.isLt
  have h4 := len1.isLt
  simp only [wordFld, encField_toNat]
  omega

@[simp] theorem wordFld_encField_10 (op : BitVec 6) (rd ra : BitVec 5) (pos len1 : BitVec 6) : wordFld (encField op rd ra pos len1) 10 6 = pos.toNat := by
  have h0 := op.isLt
  have h1 := rd.isLt
  have h2 := ra.isLt
  have h3 := pos.isLt
  have h4 := len1.isLt
  simp only [wordFld, encField_toNat]
  omega

@[simp] theorem wordFld_encField_4 (op : BitVec 6) (rd ra : BitVec 5) (pos len1 : BitVec 6) : wordFld (encField op rd ra pos len1) 4 6 = len1.toNat := by
  have h0 := op.isLt
  have h1 := rd.isLt
  have h2 := ra.isLt
  have h3 := pos.isLt
  have h4 := len1.isLt
  simp only [wordFld, encField_toNat]
  omega

@[simp] theorem wordFld_encField_0 (op : BitVec 6) (rd ra : BitVec 5) (pos len1 : BitVec 6) : wordFld (encField op rd ra pos len1) 0 4 = 0 := by
  have h0 := op.isLt
  have h1 := rd.isLt
  have h2 := ra.isLt
  have h3 := pos.isLt
  have h4 := len1.isLt
  simp only [wordFld, encField_toNat]
  omega

theorem encFar_toNat (op : BitVec 6) (rl rf : BitVec 5) (len1 : BitVec 6) (flag : BitVec 5) (mode : Bool) : (encFar op rl rf len1 flag mode).toNat = op.toNat * 2 ^ 26 + rl.toNat * 2 ^ 21 + rf.toNat * 2 ^ 16 + len1.toNat * 2 ^ 10 + flag.toNat * 2 ^ 5 + (if mode then 1 else 0) * 2 ^ 4 := by
  unfold encFar
  change BitVec.toNat (w := 6 + 5 + 5 + 6 + 5 + 1 + 4) _ = _
  repeat rw [toNat_append]
  cases mode <;> simp <;> omega

@[simp] theorem wordFld_encFar_26 (op : BitVec 6) (rl rf : BitVec 5) (len1 : BitVec 6) (flag : BitVec 5) (mode : Bool) : wordFld (encFar op rl rf len1 flag mode) 26 6 = op.toNat := by
  cases mode <;>
  · have h0 := op.isLt
    have h1 := rl.isLt
    have h2 := rf.isLt
    have h3 := len1.isLt
    have h4 := flag.isLt
    simp only [wordFld, encFar_toNat, if_true, if_false, Bool.false_eq_true]
    omega

@[simp] theorem wordFld_encFar_21 (op : BitVec 6) (rl rf : BitVec 5) (len1 : BitVec 6) (flag : BitVec 5) (mode : Bool) : wordFld (encFar op rl rf len1 flag mode) 21 5 = rl.toNat := by
  cases mode <;>
  · have h0 := op.isLt
    have h1 := rl.isLt
    have h2 := rf.isLt
    have h3 := len1.isLt
    have h4 := flag.isLt
    simp only [wordFld, encFar_toNat, if_true, if_false, Bool.false_eq_true]
    omega

@[simp] theorem wordFld_encFar_16 (op : BitVec 6) (rl rf : BitVec 5) (len1 : BitVec 6) (flag : BitVec 5) (mode : Bool) : wordFld (encFar op rl rf len1 flag mode) 16 5 = rf.toNat := by
  cases mode <;>
  · have h0 := op.isLt
    have h1 := rl.isLt
    have h2 := rf.isLt
    have h3 := len1.isLt
    have h4 := flag.isLt
    simp only [wordFld, encFar_toNat, if_true, if_false, Bool.false_eq_true]
    omega

@[simp] theorem wordFld_encFar_10 (op : BitVec 6) (rl rf : BitVec 5) (len1 : BitVec 6) (flag : BitVec 5) (mode : Bool) : wordFld (encFar op rl rf len1 flag mode) 10 6 = len1.toNat := by
  cases mode <;>
  · have h0 := op.isLt
    have h1 := rl.isLt
    have h2 := rf.isLt
    have h3 := len1.isLt
    have h4 := flag.isLt
    simp only [wordFld, encFar_toNat, if_true, if_false, Bool.false_eq_true]
    omega

@[simp] theorem wordFld_encFar_5 (op : BitVec 6) (rl rf : BitVec 5) (len1 : BitVec 6) (flag : BitVec 5) (mode : Bool) : wordFld (encFar op rl rf len1 flag mode) 5 5 = flag.toNat := by
  cases mode <;>
  · have h0 := op.isLt
    have h1 := rl.isLt
    have h2 := rf.isLt
    have h3 := len1.isLt
    have h4 := flag.isLt
    simp only [wordFld, encFar_toNat, if_true, if_false, Bool.false_eq_true]
    omega

@[simp] theorem wordFld_encFar_4 (op : BitVec 6) (rl rf : BitVec 5) (len1 : BitVec 6) (flag : BitVec 5) (mode : Bool) : wordFld (encFar op rl rf len1 flag mode) 4 1 = (if mode then 1 else 0) := by
  cases mode <;>
  · have h0 := op.isLt
    have h1 := rl.isLt
    have h2 := rf.isLt
    have h3 := len1.isLt
    have h4 := flag.isLt
    simp only [wordFld, encFar_toNat, if_true, if_false, Bool.false_eq_true]
    omega

@[simp] theorem wordFld_encFar_0 (op : BitVec 6) (rl rf : BitVec 5) (len1 : BitVec 6) (flag : BitVec 5) (mode : Bool) : wordFld (encFar op rl rf len1 flag mode) 0 4 = 0 := by
  cases mode <;>
  · have h0 := op.isLt
    have h1 := rl.isLt
    have h2 := rf.isLt
    have h3 := len1.isLt
    have h4 := flag.isLt
    simp only [wordFld, encFar_toNat, if_true, if_false, Bool.false_eq_true]
    omega

theorem encBranch_toNat (cond : BitVec 4) (off : BitVec 22) : (encBranch cond off).toNat = 32 * 2 ^ 26 + cond.toNat * 2 ^ 22 + off.toNat := by
  unfold encBranch
  change BitVec.toNat (w := 6 + 4 + 22) _ = _
  repeat rw [toNat_append]
  simp
  omega

@[simp] theorem wordFld_encBranch_26 (cond : BitVec 4) (off : BitVec 22) : wordFld (encBranch cond off) 26 6 = 32 := by
  have h0 := cond.isLt
  have h1 := off.isLt
  simp only [wordFld, encBranch_toNat]
  omega

@[simp] theorem wordFld_encBranch_22 (cond : BitVec 4) (off : BitVec 22) : wordFld (encBranch cond off) 22 4 = cond.toNat := by
  have h0 := cond.isLt
  have h1 := off.isLt
  simp only [wordFld, encBranch_toNat]
  omega

@[simp] theorem wordFld_encBranch_0 (cond : BitVec 4) (off : BitVec 22) : wordFld (encBranch cond off) 0 22 = off.toNat := by
  have h0 := cond.isLt
  have h1 := off.isLt
  simp only [wordFld, encBranch_toNat]
  omega

theorem encCall_toNat (rd : BitVec 5) (off : BitVec 21) : (encCall rd off).toNat = 33 * 2 ^ 26 + rd.toNat * 2 ^ 21 + off.toNat := by
  unfold encCall
  change BitVec.toNat (w := 6 + 5 + 21) _ = _
  repeat rw [toNat_append]
  simp
  omega

@[simp] theorem wordFld_encCall_26 (rd : BitVec 5) (off : BitVec 21) : wordFld (encCall rd off) 26 6 = 33 := by
  have h0 := rd.isLt
  have h1 := off.isLt
  simp only [wordFld, encCall_toNat]
  omega

@[simp] theorem wordFld_encCall_21 (rd : BitVec 5) (off : BitVec 21) : wordFld (encCall rd off) 21 5 = rd.toNat := by
  have h0 := rd.isLt
  have h1 := off.isLt
  simp only [wordFld, encCall_toNat]
  omega

@[simp] theorem wordFld_encCall_0 (rd : BitVec 5) (off : BitVec 21) : wordFld (encCall rd off) 0 21 = off.toNat := by
  have h0 := rd.isLt
  have h1 := off.isLt
  simp only [wordFld, encCall_toNat]
  omega

theorem encTagbr_toNat (ra : BitVec 5) (tag : BitVec 4) (neg : Bool) (off : BitVec 16) : (encTagbr ra tag neg off).toNat = 35 * 2 ^ 26 + ra.toNat * 2 ^ 21 + tag.toNat * 2 ^ 17 + (if neg then 1 else 0) * 2 ^ 16 + off.toNat := by
  unfold encTagbr
  change BitVec.toNat (w := 6 + 5 + 4 + 1 + 16) _ = _
  repeat rw [toNat_append]
  cases neg <;> simp <;> omega

@[simp] theorem wordFld_encTagbr_26 (ra : BitVec 5) (tag : BitVec 4) (neg : Bool) (off : BitVec 16) : wordFld (encTagbr ra tag neg off) 26 6 = 35 := by
  cases neg <;>
  · have h0 := ra.isLt
    have h1 := tag.isLt
    have h3 := off.isLt
    simp only [wordFld, encTagbr_toNat, if_true, if_false, Bool.false_eq_true]
    omega

@[simp] theorem wordFld_encTagbr_21 (ra : BitVec 5) (tag : BitVec 4) (neg : Bool) (off : BitVec 16) : wordFld (encTagbr ra tag neg off) 21 5 = ra.toNat := by
  cases neg <;>
  · have h0 := ra.isLt
    have h1 := tag.isLt
    have h3 := off.isLt
    simp only [wordFld, encTagbr_toNat, if_true, if_false, Bool.false_eq_true]
    omega

@[simp] theorem wordFld_encTagbr_17 (ra : BitVec 5) (tag : BitVec 4) (neg : Bool) (off : BitVec 16) : wordFld (encTagbr ra tag neg off) 17 4 = tag.toNat := by
  cases neg <;>
  · have h0 := ra.isLt
    have h1 := tag.isLt
    have h3 := off.isLt
    simp only [wordFld, encTagbr_toNat, if_true, if_false, Bool.false_eq_true]
    omega

@[simp] theorem wordFld_encTagbr_16 (ra : BitVec 5) (tag : BitVec 4) (neg : Bool) (off : BitVec 16) : wordFld (encTagbr ra tag neg off) 16 1 = (if neg then 1 else 0) := by
  cases neg <;>
  · have h0 := ra.isLt
    have h1 := tag.isLt
    have h3 := off.isLt
    simp only [wordFld, encTagbr_toNat, if_true, if_false, Bool.false_eq_true]
    omega

@[simp] theorem wordFld_encTagbr_0 (ra : BitVec 5) (tag : BitVec 4) (neg : Bool) (off : BitVec 16) : wordFld (encTagbr ra tag neg off) 0 16 = off.toNat := by
  cases neg <;>
  · have h0 := ra.isLt
    have h1 := tag.isLt
    have h3 := off.isLt
    simp only [wordFld, encTagbr_toNat, if_true, if_false, Bool.false_eq_true]
    omega

end Sys2Proof.Machine
end

