-- ==== Sys2Proof/Laws/State.lean ====
section
/-! SUPPORT. What each update of the state leaves: one lemma for each field, and the laws of registers, of their fields and
of the stores by number. The proofs stand in parentheses, `(rfl)`, so that simp rewrites by them and leaves the kernel a rewriting
to check; a check by evaluation would evaluate the register table. -/

namespace Sys2Proof.Machine

open Sys2Proof

/-- A field lies inside a register. -/
def Fld.ok (f : Fld) : Bool := f.lo ≤ f.hi && f.hi < 32

/-- A register as the part above a field, the field, and the part below it. -/
theorem toNat_split (v : W32) (f : Fld) : v.toNat =
    2 ^ f.lo * (2 ^ (f.hi + 1 - f.lo) * (v.toNat / 2 ^ f.lo / 2 ^ (f.hi + 1 - f.lo)) + getFld v f) + v.toNat % 2 ^ f.lo := by
  have e2 : 2 ^ (f.hi + 1 - f.lo) * (v.toNat / 2 ^ f.lo / 2 ^ (f.hi + 1 - f.lo)) + getFld v f = v.toNat / 2 ^ f.lo := Nat.div_add_mod _ _
  rw [e2]
  exact (Nat.div_add_mod _ _).symm

/-- A register with a field replaced keeps the parts above and below it. -/
theorem putFld_toNat (v : W32) (f : Fld) (n : Nat) (h : f.ok = true) : (putFld v f n).toNat =
    2 ^ f.lo * (2 ^ (f.hi + 1 - f.lo) * (v.toNat / 2 ^ f.lo / 2 ^ (f.hi + 1 - f.lo)) + n % 2 ^ (f.hi + 1 - f.lo)) + v.toNat % 2 ^ f.lo := by
  simp only [Fld.ok, Bool.and_eq_true, decide_eq_true_eq] at h
  have e1 := toNat_split v f
  have hv := v.isLt
  have hl : v.toNat % 2 ^ f.lo < 2 ^ f.lo := Nat.mod_lt _ (by positivity)
  have hn : n % 2 ^ (f.hi + 1 - f.lo) < 2 ^ (f.hi + 1 - f.lo) := Nat.mod_lt _ (by positivity)
  have hq : v.toNat / 2 ^ f.lo / 2 ^ (f.hi + 1 - f.lo) < 2 ^ (31 - f.hi) := by
    rw [Nat.div_div_eq_div_mul, ← Nat.pow_add, Nat.div_lt_iff_lt_mul (by positivity), ← Nat.pow_add]
    convert hv using 2
    omega
  unfold putFld
  rw [BitVec.toNat_ofNat, Nat.mod_eq_of_lt]
  · generalize v.toNat % 2 ^ f.lo = l at *
    generalize v.toNat / 2 ^ f.lo / 2 ^ (f.hi + 1 - f.lo) = q at *
    rw [e1]
    generalize getFld v f = g
    generalize n % 2 ^ (f.hi + 1 - f.lo) = r
    have : 2 ^ f.lo * (2 ^ (f.hi + 1 - f.lo) * q + g) + l - g * 2 ^ f.lo = 2 ^ f.lo * (2 ^ (f.hi + 1 - f.lo) * q) + l := by
      rw [Nat.mul_add, Nat.mul_comm g]; omega
    rw [this]; ring
  · generalize v.toNat % 2 ^ f.lo = l at *
    generalize v.toNat / 2 ^ f.lo / 2 ^ (f.hi + 1 - f.lo) = q at *
    rw [e1]
    generalize getFld v f = g
    generalize n % 2 ^ (f.hi + 1 - f.lo) = r at *
    have e3 : 2 ^ f.lo * (2 ^ (f.hi + 1 - f.lo) * q + g) + l - g * 2 ^ f.lo = 2 ^ f.lo * (2 ^ (f.hi + 1 - f.lo) * q) + l := by
      rw [Nat.mul_add, Nat.mul_comm g]; omega
    rw [e3]
    have e4 : (2 : Nat) ^ 32 = 2 ^ f.lo * 2 ^ (f.hi + 1 - f.lo) * 2 ^ (31 - f.hi) := by
      rw [← Nat.pow_add, ← Nat.pow_add]; congr 1; omega
    rw [e4]
    generalize 2 ^ f.lo = A at *
    generalize 2 ^ (f.hi + 1 - f.lo) = B at *
    generalize 2 ^ (31 - f.hi) = C at *
    have h1 : B * q + r + 1 ≤ B * C := by nlinarith
    nlinarith

/-- A field reads what was put into it, modulo its size. -/
theorem getFld_putFld_same (v : W32) (f : Fld) (n : Nat) (h : f.ok = true) :
    getFld (putFld v f n) f = n % 2 ^ (f.hi + 1 - f.lo) := by
  have hl : v.toNat % 2 ^ f.lo < 2 ^ f.lo := Nat.mod_lt _ (by positivity)
  conv_lhs => unfold getFld
  rw [putFld_toNat v f n h, Nat.mul_add_div (by positivity), Nat.div_eq_of_lt hl, Nat.add_zero, Nat.mul_add_mod, Nat.mod_mod]

/-- Putting a field leaves every field that shares no bit with it. -/
theorem getFld_putFld_ne (v : W32) (f g : Fld) (n : Nat) (h : f.ok = true) (hg : g.lo ≤ g.hi) (hd : g.hi < f.lo ∨ f.hi < g.lo) :
    getFld (putFld v f n) g = getFld v g := by
  unfold getFld
  rcases hd with hd | hd
  · have e (x : Nat) : x / 2 ^ g.lo % 2 ^ (g.hi + 1 - g.lo) = x % 2 ^ f.lo / 2 ^ g.lo % 2 ^ (g.hi + 1 - g.lo) := by
      have e1 : f.lo = g.lo + ((g.hi + 1 - g.lo) + (f.lo - g.hi - 1)) := by omega
      rw [e1, Nat.pow_add, Nat.mod_mul_right_div_self, Nat.pow_add, Nat.mod_mul_right_mod]
    rw [e, e v.toNat, putFld_toNat v f n h, Nat.mul_add_mod, Nat.mod_mod]
  · have h' := h
    simp only [Fld.ok, Bool.and_eq_true, decide_eq_true_eq] at h'
    have e (x : Nat) : x / 2 ^ g.lo = x / 2 ^ f.lo / 2 ^ (f.hi + 1 - f.lo) / 2 ^ (g.lo - f.hi - 1) := by
      rw [Nat.div_div_eq_div_mul, Nat.div_div_eq_div_mul, ← Nat.pow_add, ← Nat.pow_add]
      congr 2; omega
    have hl : v.toNat % 2 ^ f.lo < 2 ^ f.lo := Nat.mod_lt _ (by positivity)
    have hn : n % 2 ^ (f.hi + 1 - f.lo) < 2 ^ (f.hi + 1 - f.lo) := Nat.mod_lt _ (by positivity)
    rw [e, e v.toNat, putFld_toNat v f n h, Nat.mul_add_div (by positivity), Nat.div_eq_of_lt hl, Nat.add_zero,
      Nat.mul_add_div (by positivity), Nat.div_eq_of_lt hn, Nat.add_zero]

/-! ### Registers -/

theorem tabGet_tabSet_ne_any {α : Type} [DecidableEq α] (d e : α) (t : Tab α) {k i : Nat} (v : α) (h : i ≠ k) :
    tabGet d (tabSet e t k v) i = tabGet d t i := by
  by_cases hv : v = e
  · simp [tabSet, hv, tabGet_tabErase_ne d t h]
  · simp [tabSet, hv, tabGet_tabInsert_ne d _ v h, tabGet_tabErase_ne d t h]

/-- A register reads what it was set to. -/
@[simp] theorem Mach.reg_setReg_same (m : Mach) (a : Nat) (v : W32) : (m.setReg a v).reg a = v :=
  tabGet_tabSet_same _ _ _ _

/-- Setting a register leaves every other. -/
theorem Mach.reg_setReg_ne (m : Mach) {a b : Nat} (v : W32) (h : b ≠ a) : (m.setReg a v).reg b = m.reg b :=
  tabGet_tabSet_ne_any _ _ _ v h

theorem Mach.rd_setReg_same (m : Mach) (a : Nat) (v : W32) (f : Fld) : (m.setReg a v).rd a f = getFld v f := by
  simp [Mach.rd]

theorem Mach.rd_setReg_ne (m : Mach) {a b : Nat} (v : W32) (f : Fld) (h : b ≠ a) : (m.setReg a v).rd b f = m.rd b f := by
  simp [Mach.rd, Mach.reg_setReg_ne m v h]

theorem Mach.reg_wr_ne (m : Mach) {a b : Nat} (f : Fld) (n : Nat) (h : b ≠ a) : (m.wr a f n).reg b = m.reg b :=
  Mach.reg_setReg_ne m _ h

/-- A field reads what was written to it, modulo its size. -/
theorem Mach.rd_wr_same (m : Mach) (a : Nat) (f : Fld) (n : Nat) (h : f.ok = true) : (m.wr a f n).rd a f = n % 2 ^ (f.hi + 1 - f.lo) := by
  simp [Mach.rd, Mach.wr, getFld_putFld_same _ f n h]

/-- Writing a field leaves the fields beside it. -/
theorem Mach.rd_wr_fld (m : Mach) (a : Nat) (f g : Fld) (n : Nat) (h : f.ok = true) (hg : g.lo ≤ g.hi) (hd : g.hi < f.lo ∨ f.hi < g.lo) :
    (m.wr a f n).rd a g = m.rd a g := by
  simp [Mach.rd, Mach.wr, getFld_putFld_ne _ f g n h hg hd]

theorem Mach.rd_wr_ne (m : Mach) {a b : Nat} (f g : Fld) (n : Nat) (h : b ≠ a) : (m.wr a f n).rd b g = m.rd b g := by
  simp [Mach.rd, Mach.reg_wr_ne m f n h]

theorem Mach.count_eq (m : Mach) (a : Nat) (f : Fld) (k : Nat) : m.count a f k = m.wr a f (satAdd f.top (m.rd a f) k) := (rfl)

/-! ### Stores by number -/

@[simp] theorem Mach.getTe_setTe_same (m : Mach) (n : Nat) (x : Te) : (m.setTe n x).getTe n = x := tabGet_tabSet_same _ _ _ _
theorem Mach.getTe_setTe_ne (m : Mach) {n k : Nat} (x : Te) (h : k ≠ n) : (m.setTe n x).getTe k = m.getTe k := tabGet_tabSet_ne _ _ _ h
@[simp] theorem Mach.getTe_teMod_same (m : Mach) (n : Nat) (f : Te → Te) : (m.teMod n f).getTe n = f (m.getTe n) := tabGet_tabSet_same _ _ _ _
theorem Mach.getTe_teMod_ne (m : Mach) {n k : Nat} (f : Te → Te) (h : k ≠ n) : (m.teMod n f).getTe k = m.getTe k := tabGet_tabSet_ne _ _ _ h
@[simp] theorem Mach.getDsp_setDsp_same (m : Mach) (n : Nat) (x : DspTe) : (m.setDsp n x).getDsp n = x := tabGet_tabSet_same _ _ _ _
theorem Mach.getDsp_setDsp_ne (m : Mach) {n k : Nat} (x : DspTe) (h : k ≠ n) : (m.setDsp n x).getDsp k = m.getDsp k := tabGet_tabSet_ne _ _ _ h
@[simp] theorem Mach.getDsp_dspMod_same (m : Mach) (n : Nat) (f : DspTe → DspTe) : (m.dspMod n f).getDsp n = f (m.getDsp n) :=
  tabGet_tabSet_same _ _ _ _
theorem Mach.getDsp_dspMod_ne (m : Mach) {n k : Nat} (f : DspTe → DspTe) (h : k ≠ n) : (m.dspMod n f).getDsp k = m.getDsp k :=
  tabGet_tabSet_ne _ _ _ h
@[simp] theorem Mach.getChan_setChan_same (m : Mach) (n : Nat) (x : Chan) : (m.setChan n x).getChan n = x := tabGet_tabSet_same _ _ _ _
theorem Mach.getChan_setChan_ne (m : Mach) {n k : Nat} (x : Chan) (h : k ≠ n) : (m.setChan n x).getChan k = m.getChan k :=
  tabGet_tabSet_ne _ _ _ h
@[simp] theorem Mach.getRing_setRing_same (m : Mach) (n : Nat) (x : Ring) : (m.setRing n x).getRing n = x := tabGet_tabSet_same _ _ _ _
theorem Mach.getRing_setRing_ne (m : Mach) {n k : Nat} (x : Ring) (h : k ≠ n) : (m.setRing n x).getRing k = m.getRing k :=
  tabGet_tabSet_ne _ _ _ h
@[simp] theorem Mach.getBase_setBase_same (m : Mach) (n : Nat) (x : Base) : (m.setBase n x).getBase n = x := tabGet_tabSet_same _ _ _ _
theorem Mach.getBase_setBase_ne (m : Mach) {n k : Nat} (x : Base) (h : k ≠ n) : (m.setBase n x).getBase k = m.getBase k :=
  tabGet_tabSet_ne _ _ _ h
@[simp] theorem Mach.getRadio_radioMod_same (m : Mach) (n : Nat) (f : Radio → Radio) : (m.radioMod n f).getRadio n = f (m.getRadio n) :=
  tabGet_tabSet_same _ _ _ _
theorem Mach.getRadio_radioMod_ne (m : Mach) {n k : Nat} (f : Radio → Radio) (h : k ≠ n) : (m.radioMod n f).getRadio k = m.getRadio k :=
  tabGet_tabSet_ne _ _ _ h
@[simp] theorem Mach.getBb_bbMod_same (m : Mach) (n : Nat) (f : Bb → Bb) : (m.bbMod n f).getBb n = f (m.getBb n) := tabGet_tabSet_same _ _ _ _
@[simp] theorem Mach.getBus_busMod_same (m : Mach) (n : Nat) (f : IdBus → IdBus) : (m.busMod n f).getBus n = f (m.getBus n) :=
  tabGet_tabSet_same _ _ _ _
@[simp] theorem Mach.getPort_portMod_same (m : Mach) (n : Nat) (f : UPort → UPort) : (m.portMod n f).getPort n = f (m.getPort n) :=
  tabGet_tabSet_same _ _ _ _
@[simp] theorem Mach.getSq_sqMod_same (m : Mach) (n : Nat) (f : Seq → Seq) : (m.sqMod n f).getSq n = f (m.getSq n) :=
  tabGet_tabSet_same _ _ _ _

/-! ### What each update leaves -/

/-! #### setReg -/

@[simp] theorem Mach.setReg_stage (m : Mach) (a : Nat) (v : W32) : (m.setReg a v).stage = m.stage := (rfl)
@[simp] theorem Mach.setReg_free (m : Mach) (a : Nat) (v : W32) : (m.setReg a v).free = m.free := (rfl)
@[simp] theorem Mach.setReg_answer (m : Mach) (a : Nat) (v : W32) : (m.setReg a v).answer = m.answer := (rfl)
@[simp] theorem Mach.setReg_sys (m : Mach) (a : Nat) (v : W32) : (m.setReg a v).sys = m.sys := (rfl)
@[simp] theorem Mach.setReg_arm (m : Mach) (a : Nat) (v : W32) : (m.setReg a v).arm = m.arm := (rfl)
@[simp] theorem Mach.setReg_te (m : Mach) (a : Nat) (v : W32) : (m.setReg a v).te = m.te := (rfl)
@[simp] theorem Mach.setReg_lc (m : Mach) (a : Nat) (v : W32) : (m.setReg a v).lc = m.lc := (rfl)
@[simp] theorem Mach.setReg_dsp (m : Mach) (a : Nat) (v : W32) : (m.setReg a v).dsp = m.dsp := (rfl)
@[simp] theorem Mach.setReg_chans (m : Mach) (a : Nat) (v : W32) : (m.setReg a v).chans = m.chans := (rfl)
@[simp] theorem Mach.setReg_mem (m : Mach) (a : Nat) (v : W32) : (m.setReg a v).mem = m.mem := (rfl)
@[simp] theorem Mach.setReg_nvm (m : Mach) (a : Nat) (v : W32) : (m.setReg a v).nvm = m.nvm := (rfl)
@[simp] theorem Mach.setReg_tim (m : Mach) (a : Nat) (v : W32) : (m.setReg a v).tim = m.tim := (rfl)
@[simp] theorem Mach.setReg_hif (m : Mach) (a : Nat) (v : W32) : (m.setReg a v).hif = m.hif := (rfl)
@[simp] theorem Mach.setReg_flt (m : Mach) (a : Nat) (v : W32) : (m.setReg a v).flt = m.flt := (rfl)
@[simp] theorem Mach.setReg_mrad (m : Mach) (a : Nat) (v : W32) : (m.setReg a v).mrad = m.mrad := (rfl)
@[simp] theorem Mach.setReg_mlink (m : Mach) (a : Nat) (v : W32) : (m.setReg a v).mlink = m.mlink := (rfl)
@[simp] theorem Mach.setReg_radios (m : Mach) (a : Nat) (v : W32) : (m.setReg a v).radios = m.radios := (rfl)
@[simp] theorem Mach.setReg_idbus (m : Mach) (a : Nat) (v : W32) : (m.setReg a v).idbus = m.idbus := (rfl)
@[simp] theorem Mach.setReg_bbs (m : Mach) (a : Nat) (v : W32) : (m.setReg a v).bbs = m.bbs := (rfl)
@[simp] theorem Mach.setReg_wmac (m : Mach) (a : Nat) (v : W32) : (m.setReg a v).wmac = m.wmac := (rfl)
@[simp] theorem Mach.setReg_asch (m : Mach) (a : Nat) (v : W32) : (m.setReg a v).asch = m.asch := (rfl)
@[simp] theorem Mach.setReg_rte (m : Mach) (a : Nat) (v : W32) : (m.setReg a v).rte = m.rte := (rfl)
@[simp] theorem Mach.setReg_upl (m : Mach) (a : Nat) (v : W32) : (m.setReg a v).upl = m.upl := (rfl)
@[simp] theorem Mach.setReg_chn (m : Mach) (a : Nat) (v : W32) : (m.setReg a v).chn = m.chn := (rfl)

/-! #### wr -/

@[simp] theorem Mach.wr_stage (m : Mach) (a : Nat) (f : Fld) (n : Nat) : (m.wr a f n).stage = m.stage := (rfl)
@[simp] theorem Mach.wr_free (m : Mach) (a : Nat) (f : Fld) (n : Nat) : (m.wr a f n).free = m.free := (rfl)
@[simp] theorem Mach.wr_answer (m : Mach) (a : Nat) (f : Fld) (n : Nat) : (m.wr a f n).answer = m.answer := (rfl)
@[simp] theorem Mach.wr_sys (m : Mach) (a : Nat) (f : Fld) (n : Nat) : (m.wr a f n).sys = m.sys := (rfl)
@[simp] theorem Mach.wr_arm (m : Mach) (a : Nat) (f : Fld) (n : Nat) : (m.wr a f n).arm = m.arm := (rfl)
@[simp] theorem Mach.wr_te (m : Mach) (a : Nat) (f : Fld) (n : Nat) : (m.wr a f n).te = m.te := (rfl)
@[simp] theorem Mach.wr_lc (m : Mach) (a : Nat) (f : Fld) (n : Nat) : (m.wr a f n).lc = m.lc := (rfl)
@[simp] theorem Mach.wr_dsp (m : Mach) (a : Nat) (f : Fld) (n : Nat) : (m.wr a f n).dsp = m.dsp := (rfl)
@[simp] theorem Mach.wr_chans (m : Mach) (a : Nat) (f : Fld) (n : Nat) : (m.wr a f n).chans = m.chans := (rfl)
@[simp] theorem Mach.wr_mem (m : Mach) (a : Nat) (f : Fld) (n : Nat) : (m.wr a f n).mem = m.mem := (rfl)
@[simp] theorem Mach.wr_nvm (m : Mach) (a : Nat) (f : Fld) (n : Nat) : (m.wr a f n).nvm = m.nvm := (rfl)
@[simp] theorem Mach.wr_tim (m : Mach) (a : Nat) (f : Fld) (n : Nat) : (m.wr a f n).tim = m.tim := (rfl)
@[simp] theorem Mach.wr_hif (m : Mach) (a : Nat) (f : Fld) (n : Nat) : (m.wr a f n).hif = m.hif := (rfl)
@[simp] theorem Mach.wr_flt (m : Mach) (a : Nat) (f : Fld) (n : Nat) : (m.wr a f n).flt = m.flt := (rfl)
@[simp] theorem Mach.wr_mrad (m : Mach) (a : Nat) (f : Fld) (n : Nat) : (m.wr a f n).mrad = m.mrad := (rfl)
@[simp] theorem Mach.wr_mlink (m : Mach) (a : Nat) (f : Fld) (n : Nat) : (m.wr a f n).mlink = m.mlink := (rfl)
@[simp] theorem Mach.wr_radios (m : Mach) (a : Nat) (f : Fld) (n : Nat) : (m.wr a f n).radios = m.radios := (rfl)
@[simp] theorem Mach.wr_idbus (m : Mach) (a : Nat) (f : Fld) (n : Nat) : (m.wr a f n).idbus = m.idbus := (rfl)
@[simp] theorem Mach.wr_bbs (m : Mach) (a : Nat) (f : Fld) (n : Nat) : (m.wr a f n).bbs = m.bbs := (rfl)
@[simp] theorem Mach.wr_wmac (m : Mach) (a : Nat) (f : Fld) (n : Nat) : (m.wr a f n).wmac = m.wmac := (rfl)
@[simp] theorem Mach.wr_asch (m : Mach) (a : Nat) (f : Fld) (n : Nat) : (m.wr a f n).asch = m.asch := (rfl)
@[simp] theorem Mach.wr_rte (m : Mach) (a : Nat) (f : Fld) (n : Nat) : (m.wr a f n).rte = m.rte := (rfl)
@[simp] theorem Mach.wr_upl (m : Mach) (a : Nat) (f : Fld) (n : Nat) : (m.wr a f n).upl = m.upl := (rfl)
@[simp] theorem Mach.wr_chn (m : Mach) (a : Nat) (f : Fld) (n : Nat) : (m.wr a f n).chn = m.chn := (rfl)

/-! #### count -/

@[simp] theorem Mach.count_stage (m : Mach) (a : Nat) (f : Fld) (k : Nat) : (m.count a f k).stage = m.stage := (rfl)
@[simp] theorem Mach.count_free (m : Mach) (a : Nat) (f : Fld) (k : Nat) : (m.count a f k).free = m.free := (rfl)
@[simp] theorem Mach.count_answer (m : Mach) (a : Nat) (f : Fld) (k : Nat) : (m.count a f k).answer = m.answer := (rfl)
@[simp] theorem Mach.count_sys (m : Mach) (a : Nat) (f : Fld) (k : Nat) : (m.count a f k).sys = m.sys := (rfl)
@[simp] theorem Mach.count_arm (m : Mach) (a : Nat) (f : Fld) (k : Nat) : (m.count a f k).arm = m.arm := (rfl)
@[simp] theorem Mach.count_te (m : Mach) (a : Nat) (f : Fld) (k : Nat) : (m.count a f k).te = m.te := (rfl)
@[simp] theorem Mach.count_lc (m : Mach) (a : Nat) (f : Fld) (k : Nat) : (m.count a f k).lc = m.lc := (rfl)
@[simp] theorem Mach.count_dsp (m : Mach) (a : Nat) (f : Fld) (k : Nat) : (m.count a f k).dsp = m.dsp := (rfl)
@[simp] theorem Mach.count_chans (m : Mach) (a : Nat) (f : Fld) (k : Nat) : (m.count a f k).chans = m.chans := (rfl)
@[simp] theorem Mach.count_mem (m : Mach) (a : Nat) (f : Fld) (k : Nat) : (m.count a f k).mem = m.mem := (rfl)
@[simp] theorem Mach.count_nvm (m : Mach) (a : Nat) (f : Fld) (k : Nat) : (m.count a f k).nvm = m.nvm := (rfl)
@[simp] theorem Mach.count_tim (m : Mach) (a : Nat) (f : Fld) (k : Nat) : (m.count a f k).tim = m.tim := (rfl)
@[simp] theorem Mach.count_hif (m : Mach) (a : Nat) (f : Fld) (k : Nat) : (m.count a f k).hif = m.hif := (rfl)
@[simp] theorem Mach.count_flt (m : Mach) (a : Nat) (f : Fld) (k : Nat) : (m.count a f k).flt = m.flt := (rfl)
@[simp] theorem Mach.count_mrad (m : Mach) (a : Nat) (f : Fld) (k : Nat) : (m.count a f k).mrad = m.mrad := (rfl)
@[simp] theorem Mach.count_mlink (m : Mach) (a : Nat) (f : Fld) (k : Nat) : (m.count a f k).mlink = m.mlink := (rfl)
@[simp] theorem Mach.count_radios (m : Mach) (a : Nat) (f : Fld) (k : Nat) : (m.count a f k).radios = m.radios := (rfl)
@[simp] theorem Mach.count_idbus (m : Mach) (a : Nat) (f : Fld) (k : Nat) : (m.count a f k).idbus = m.idbus := (rfl)
@[simp] theorem Mach.count_bbs (m : Mach) (a : Nat) (f : Fld) (k : Nat) : (m.count a f k).bbs = m.bbs := (rfl)
@[simp] theorem Mach.count_wmac (m : Mach) (a : Nat) (f : Fld) (k : Nat) : (m.count a f k).wmac = m.wmac := (rfl)
@[simp] theorem Mach.count_asch (m : Mach) (a : Nat) (f : Fld) (k : Nat) : (m.count a f k).asch = m.asch := (rfl)
@[simp] theorem Mach.count_rte (m : Mach) (a : Nat) (f : Fld) (k : Nat) : (m.count a f k).rte = m.rte := (rfl)
@[simp] theorem Mach.count_upl (m : Mach) (a : Nat) (f : Fld) (k : Nat) : (m.count a f k).upl = m.upl := (rfl)
@[simp] theorem Mach.count_chn (m : Mach) (a : Nat) (f : Fld) (k : Nat) : (m.count a f k).chn = m.chn := (rfl)

/-! #### setReg64 -/

@[simp] theorem Mach.setReg64_stage (m : Mach) (a b v : Nat) : (m.setReg64 a b v).stage = m.stage := (rfl)
@[simp] theorem Mach.setReg64_free (m : Mach) (a b v : Nat) : (m.setReg64 a b v).free = m.free := (rfl)
@[simp] theorem Mach.setReg64_answer (m : Mach) (a b v : Nat) : (m.setReg64 a b v).answer = m.answer := (rfl)
@[simp] theorem Mach.setReg64_sys (m : Mach) (a b v : Nat) : (m.setReg64 a b v).sys = m.sys := (rfl)
@[simp] theorem Mach.setReg64_arm (m : Mach) (a b v : Nat) : (m.setReg64 a b v).arm = m.arm := (rfl)
@[simp] theorem Mach.setReg64_te (m : Mach) (a b v : Nat) : (m.setReg64 a b v).te = m.te := (rfl)
@[simp] theorem Mach.setReg64_lc (m : Mach) (a b v : Nat) : (m.setReg64 a b v).lc = m.lc := (rfl)
@[simp] theorem Mach.setReg64_dsp (m : Mach) (a b v : Nat) : (m.setReg64 a b v).dsp = m.dsp := (rfl)
@[simp] theorem Mach.setReg64_chans (m : Mach) (a b v : Nat) : (m.setReg64 a b v).chans = m.chans := (rfl)
@[simp] theorem Mach.setReg64_mem (m : Mach) (a b v : Nat) : (m.setReg64 a b v).mem = m.mem := (rfl)
@[simp] theorem Mach.setReg64_nvm (m : Mach) (a b v : Nat) : (m.setReg64 a b v).nvm = m.nvm := (rfl)
@[simp] theorem Mach.setReg64_tim (m : Mach) (a b v : Nat) : (m.setReg64 a b v).tim = m.tim := (rfl)
@[simp] theorem Mach.setReg64_hif (m : Mach) (a b v : Nat) : (m.setReg64 a b v).hif = m.hif := (rfl)
@[simp] theorem Mach.setReg64_flt (m : Mach) (a b v : Nat) : (m.setReg64 a b v).flt = m.flt := (rfl)
@[simp] theorem Mach.setReg64_mrad (m : Mach) (a b v : Nat) : (m.setReg64 a b v).mrad = m.mrad := (rfl)
@[simp] theorem Mach.setReg64_mlink (m : Mach) (a b v : Nat) : (m.setReg64 a b v).mlink = m.mlink := (rfl)
@[simp] theorem Mach.setReg64_radios (m : Mach) (a b v : Nat) : (m.setReg64 a b v).radios = m.radios := (rfl)
@[simp] theorem Mach.setReg64_idbus (m : Mach) (a b v : Nat) : (m.setReg64 a b v).idbus = m.idbus := (rfl)
@[simp] theorem Mach.setReg64_bbs (m : Mach) (a b v : Nat) : (m.setReg64 a b v).bbs = m.bbs := (rfl)
@[simp] theorem Mach.setReg64_wmac (m : Mach) (a b v : Nat) : (m.setReg64 a b v).wmac = m.wmac := (rfl)
@[simp] theorem Mach.setReg64_asch (m : Mach) (a b v : Nat) : (m.setReg64 a b v).asch = m.asch := (rfl)
@[simp] theorem Mach.setReg64_rte (m : Mach) (a b v : Nat) : (m.setReg64 a b v).rte = m.rte := (rfl)
@[simp] theorem Mach.setReg64_upl (m : Mach) (a b v : Nat) : (m.setReg64 a b v).upl = m.upl := (rfl)
@[simp] theorem Mach.setReg64_chn (m : Mach) (a b v : Nat) : (m.setReg64 a b v).chn = m.chn := (rfl)

/-! #### setAnswer -/

@[simp] theorem Mach.setAnswer_regs (m : Mach) (v : W32) : (m.setAnswer v).regs = m.regs := (rfl)
@[simp] theorem Mach.setAnswer_stage (m : Mach) (v : W32) : (m.setAnswer v).stage = m.stage := (rfl)
@[simp] theorem Mach.setAnswer_free (m : Mach) (v : W32) : (m.setAnswer v).free = m.free := (rfl)
@[simp] theorem Mach.setAnswer_sys (m : Mach) (v : W32) : (m.setAnswer v).sys = m.sys := (rfl)
@[simp] theorem Mach.setAnswer_arm (m : Mach) (v : W32) : (m.setAnswer v).arm = m.arm := (rfl)
@[simp] theorem Mach.setAnswer_te (m : Mach) (v : W32) : (m.setAnswer v).te = m.te := (rfl)
@[simp] theorem Mach.setAnswer_lc (m : Mach) (v : W32) : (m.setAnswer v).lc = m.lc := (rfl)
@[simp] theorem Mach.setAnswer_dsp (m : Mach) (v : W32) : (m.setAnswer v).dsp = m.dsp := (rfl)
@[simp] theorem Mach.setAnswer_chans (m : Mach) (v : W32) : (m.setAnswer v).chans = m.chans := (rfl)
@[simp] theorem Mach.setAnswer_mem (m : Mach) (v : W32) : (m.setAnswer v).mem = m.mem := (rfl)
@[simp] theorem Mach.setAnswer_nvm (m : Mach) (v : W32) : (m.setAnswer v).nvm = m.nvm := (rfl)
@[simp] theorem Mach.setAnswer_tim (m : Mach) (v : W32) : (m.setAnswer v).tim = m.tim := (rfl)
@[simp] theorem Mach.setAnswer_hif (m : Mach) (v : W32) : (m.setAnswer v).hif = m.hif := (rfl)
@[simp] theorem Mach.setAnswer_flt (m : Mach) (v : W32) : (m.setAnswer v).flt = m.flt := (rfl)
@[simp] theorem Mach.setAnswer_mrad (m : Mach) (v : W32) : (m.setAnswer v).mrad = m.mrad := (rfl)
@[simp] theorem Mach.setAnswer_mlink (m : Mach) (v : W32) : (m.setAnswer v).mlink = m.mlink := (rfl)
@[simp] theorem Mach.setAnswer_radios (m : Mach) (v : W32) : (m.setAnswer v).radios = m.radios := (rfl)
@[simp] theorem Mach.setAnswer_idbus (m : Mach) (v : W32) : (m.setAnswer v).idbus = m.idbus := (rfl)
@[simp] theorem Mach.setAnswer_bbs (m : Mach) (v : W32) : (m.setAnswer v).bbs = m.bbs := (rfl)
@[simp] theorem Mach.setAnswer_wmac (m : Mach) (v : W32) : (m.setAnswer v).wmac = m.wmac := (rfl)
@[simp] theorem Mach.setAnswer_asch (m : Mach) (v : W32) : (m.setAnswer v).asch = m.asch := (rfl)
@[simp] theorem Mach.setAnswer_rte (m : Mach) (v : W32) : (m.setAnswer v).rte = m.rte := (rfl)
@[simp] theorem Mach.setAnswer_upl (m : Mach) (v : W32) : (m.setAnswer v).upl = m.upl := (rfl)
@[simp] theorem Mach.setAnswer_chn (m : Mach) (v : W32) : (m.setAnswer v).chn = m.chn := (rfl)

/-! #### stageMod -/

@[simp] theorem Mach.stageMod_regs (m : Mach) (f : Tab W32 → Tab W32) : (m.stageMod f).regs = m.regs := (rfl)
@[simp] theorem Mach.stageMod_free (m : Mach) (f : Tab W32 → Tab W32) : (m.stageMod f).free = m.free := (rfl)
@[simp] theorem Mach.stageMod_answer (m : Mach) (f : Tab W32 → Tab W32) : (m.stageMod f).answer = m.answer := (rfl)
@[simp] theorem Mach.stageMod_sys (m : Mach) (f : Tab W32 → Tab W32) : (m.stageMod f).sys = m.sys := (rfl)
@[simp] theorem Mach.stageMod_arm (m : Mach) (f : Tab W32 → Tab W32) : (m.stageMod f).arm = m.arm := (rfl)
@[simp] theorem Mach.stageMod_te (m : Mach) (f : Tab W32 → Tab W32) : (m.stageMod f).te = m.te := (rfl)
@[simp] theorem Mach.stageMod_lc (m : Mach) (f : Tab W32 → Tab W32) : (m.stageMod f).lc = m.lc := (rfl)
@[simp] theorem Mach.stageMod_dsp (m : Mach) (f : Tab W32 → Tab W32) : (m.stageMod f).dsp = m.dsp := (rfl)
@[simp] theorem Mach.stageMod_chans (m : Mach) (f : Tab W32 → Tab W32) : (m.stageMod f).chans = m.chans := (rfl)
@[simp] theorem Mach.stageMod_mem (m : Mach) (f : Tab W32 → Tab W32) : (m.stageMod f).mem = m.mem := (rfl)
@[simp] theorem Mach.stageMod_nvm (m : Mach) (f : Tab W32 → Tab W32) : (m.stageMod f).nvm = m.nvm := (rfl)
@[simp] theorem Mach.stageMod_tim (m : Mach) (f : Tab W32 → Tab W32) : (m.stageMod f).tim = m.tim := (rfl)
@[simp] theorem Mach.stageMod_hif (m : Mach) (f : Tab W32 → Tab W32) : (m.stageMod f).hif = m.hif := (rfl)
@[simp] theorem Mach.stageMod_flt (m : Mach) (f : Tab W32 → Tab W32) : (m.stageMod f).flt = m.flt := (rfl)
@[simp] theorem Mach.stageMod_mrad (m : Mach) (f : Tab W32 → Tab W32) : (m.stageMod f).mrad = m.mrad := (rfl)
@[simp] theorem Mach.stageMod_mlink (m : Mach) (f : Tab W32 → Tab W32) : (m.stageMod f).mlink = m.mlink := (rfl)
@[simp] theorem Mach.stageMod_radios (m : Mach) (f : Tab W32 → Tab W32) : (m.stageMod f).radios = m.radios := (rfl)
@[simp] theorem Mach.stageMod_idbus (m : Mach) (f : Tab W32 → Tab W32) : (m.stageMod f).idbus = m.idbus := (rfl)
@[simp] theorem Mach.stageMod_bbs (m : Mach) (f : Tab W32 → Tab W32) : (m.stageMod f).bbs = m.bbs := (rfl)
@[simp] theorem Mach.stageMod_wmac (m : Mach) (f : Tab W32 → Tab W32) : (m.stageMod f).wmac = m.wmac := (rfl)
@[simp] theorem Mach.stageMod_asch (m : Mach) (f : Tab W32 → Tab W32) : (m.stageMod f).asch = m.asch := (rfl)
@[simp] theorem Mach.stageMod_rte (m : Mach) (f : Tab W32 → Tab W32) : (m.stageMod f).rte = m.rte := (rfl)
@[simp] theorem Mach.stageMod_upl (m : Mach) (f : Tab W32 → Tab W32) : (m.stageMod f).upl = m.upl := (rfl)
@[simp] theorem Mach.stageMod_chn (m : Mach) (f : Tab W32 → Tab W32) : (m.stageMod f).chn = m.chn := (rfl)

/-! #### keepRegs -/

@[simp] theorem Mach.keepRegs_stage (m : Mach) (p : Nat → Bool) : (m.keepRegs p).stage = m.stage := (rfl)
@[simp] theorem Mach.keepRegs_free (m : Mach) (p : Nat → Bool) : (m.keepRegs p).free = m.free := (rfl)
@[simp] theorem Mach.keepRegs_answer (m : Mach) (p : Nat → Bool) : (m.keepRegs p).answer = m.answer := (rfl)
@[simp] theorem Mach.keepRegs_sys (m : Mach) (p : Nat → Bool) : (m.keepRegs p).sys = m.sys := (rfl)
@[simp] theorem Mach.keepRegs_arm (m : Mach) (p : Nat → Bool) : (m.keepRegs p).arm = m.arm := (rfl)
@[simp] theorem Mach.keepRegs_te (m : Mach) (p : Nat → Bool) : (m.keepRegs p).te = m.te := (rfl)
@[simp] theorem Mach.keepRegs_lc (m : Mach) (p : Nat → Bool) : (m.keepRegs p).lc = m.lc := (rfl)
@[simp] theorem Mach.keepRegs_dsp (m : Mach) (p : Nat → Bool) : (m.keepRegs p).dsp = m.dsp := (rfl)
@[simp] theorem Mach.keepRegs_chans (m : Mach) (p : Nat → Bool) : (m.keepRegs p).chans = m.chans := (rfl)
@[simp] theorem Mach.keepRegs_mem (m : Mach) (p : Nat → Bool) : (m.keepRegs p).mem = m.mem := (rfl)
@[simp] theorem Mach.keepRegs_nvm (m : Mach) (p : Nat → Bool) : (m.keepRegs p).nvm = m.nvm := (rfl)
@[simp] theorem Mach.keepRegs_tim (m : Mach) (p : Nat → Bool) : (m.keepRegs p).tim = m.tim := (rfl)
@[simp] theorem Mach.keepRegs_hif (m : Mach) (p : Nat → Bool) : (m.keepRegs p).hif = m.hif := (rfl)
@[simp] theorem Mach.keepRegs_flt (m : Mach) (p : Nat → Bool) : (m.keepRegs p).flt = m.flt := (rfl)
@[simp] theorem Mach.keepRegs_mrad (m : Mach) (p : Nat → Bool) : (m.keepRegs p).mrad = m.mrad := (rfl)
@[simp] theorem Mach.keepRegs_mlink (m : Mach) (p : Nat → Bool) : (m.keepRegs p).mlink = m.mlink := (rfl)
@[simp] theorem Mach.keepRegs_radios (m : Mach) (p : Nat → Bool) : (m.keepRegs p).radios = m.radios := (rfl)
@[simp] theorem Mach.keepRegs_idbus (m : Mach) (p : Nat → Bool) : (m.keepRegs p).idbus = m.idbus := (rfl)
@[simp] theorem Mach.keepRegs_bbs (m : Mach) (p : Nat → Bool) : (m.keepRegs p).bbs = m.bbs := (rfl)
@[simp] theorem Mach.keepRegs_wmac (m : Mach) (p : Nat → Bool) : (m.keepRegs p).wmac = m.wmac := (rfl)
@[simp] theorem Mach.keepRegs_asch (m : Mach) (p : Nat → Bool) : (m.keepRegs p).asch = m.asch := (rfl)
@[simp] theorem Mach.keepRegs_rte (m : Mach) (p : Nat → Bool) : (m.keepRegs p).rte = m.rte := (rfl)
@[simp] theorem Mach.keepRegs_upl (m : Mach) (p : Nat → Bool) : (m.keepRegs p).upl = m.upl := (rfl)
@[simp] theorem Mach.keepRegs_chn (m : Mach) (p : Nat → Bool) : (m.keepRegs p).chn = m.chn := (rfl)

/-! #### sysMod -/

@[simp] theorem Mach.sysMod_regs (m : Mach) (f : SysSt → SysSt) : (m.sysMod f).regs = m.regs := (rfl)
@[simp] theorem Mach.sysMod_stage (m : Mach) (f : SysSt → SysSt) : (m.sysMod f).stage = m.stage := (rfl)
@[simp] theorem Mach.sysMod_free (m : Mach) (f : SysSt → SysSt) : (m.sysMod f).free = m.free := (rfl)
@[simp] theorem Mach.sysMod_answer (m : Mach) (f : SysSt → SysSt) : (m.sysMod f).answer = m.answer := (rfl)
@[simp] theorem Mach.sysMod_arm (m : Mach) (f : SysSt → SysSt) : (m.sysMod f).arm = m.arm := (rfl)
@[simp] theorem Mach.sysMod_te (m : Mach) (f : SysSt → SysSt) : (m.sysMod f).te = m.te := (rfl)
@[simp] theorem Mach.sysMod_lc (m : Mach) (f : SysSt → SysSt) : (m.sysMod f).lc = m.lc := (rfl)
@[simp] theorem Mach.sysMod_dsp (m : Mach) (f : SysSt → SysSt) : (m.sysMod f).dsp = m.dsp := (rfl)
@[simp] theorem Mach.sysMod_chans (m : Mach) (f : SysSt → SysSt) : (m.sysMod f).chans = m.chans := (rfl)
@[simp] theorem Mach.sysMod_mem (m : Mach) (f : SysSt → SysSt) : (m.sysMod f).mem = m.mem := (rfl)
@[simp] theorem Mach.sysMod_nvm (m : Mach) (f : SysSt → SysSt) : (m.sysMod f).nvm = m.nvm := (rfl)
@[simp] theorem Mach.sysMod_tim (m : Mach) (f : SysSt → SysSt) : (m.sysMod f).tim = m.tim := (rfl)
@[simp] theorem Mach.sysMod_hif (m : Mach) (f : SysSt → SysSt) : (m.sysMod f).hif = m.hif := (rfl)
@[simp] theorem Mach.sysMod_flt (m : Mach) (f : SysSt → SysSt) : (m.sysMod f).flt = m.flt := (rfl)
@[simp] theorem Mach.sysMod_mrad (m : Mach) (f : SysSt → SysSt) : (m.sysMod f).mrad = m.mrad := (rfl)
@[simp] theorem Mach.sysMod_mlink (m : Mach) (f : SysSt → SysSt) : (m.sysMod f).mlink = m.mlink := (rfl)
@[simp] theorem Mach.sysMod_radios (m : Mach) (f : SysSt → SysSt) : (m.sysMod f).radios = m.radios := (rfl)
@[simp] theorem Mach.sysMod_idbus (m : Mach) (f : SysSt → SysSt) : (m.sysMod f).idbus = m.idbus := (rfl)
@[simp] theorem Mach.sysMod_bbs (m : Mach) (f : SysSt → SysSt) : (m.sysMod f).bbs = m.bbs := (rfl)
@[simp] theorem Mach.sysMod_wmac (m : Mach) (f : SysSt → SysSt) : (m.sysMod f).wmac = m.wmac := (rfl)
@[simp] theorem Mach.sysMod_asch (m : Mach) (f : SysSt → SysSt) : (m.sysMod f).asch = m.asch := (rfl)
@[simp] theorem Mach.sysMod_rte (m : Mach) (f : SysSt → SysSt) : (m.sysMod f).rte = m.rte := (rfl)
@[simp] theorem Mach.sysMod_upl (m : Mach) (f : SysSt → SysSt) : (m.sysMod f).upl = m.upl := (rfl)
@[simp] theorem Mach.sysMod_chn (m : Mach) (f : SysSt → SysSt) : (m.sysMod f).chn = m.chn := (rfl)

/-! #### armMod -/

@[simp] theorem Mach.armMod_regs (m : Mach) (f : ArmSt → ArmSt) : (m.armMod f).regs = m.regs := (rfl)
@[simp] theorem Mach.armMod_stage (m : Mach) (f : ArmSt → ArmSt) : (m.armMod f).stage = m.stage := (rfl)
@[simp] theorem Mach.armMod_free (m : Mach) (f : ArmSt → ArmSt) : (m.armMod f).free = m.free := (rfl)
@[simp] theorem Mach.armMod_answer (m : Mach) (f : ArmSt → ArmSt) : (m.armMod f).answer = m.answer := (rfl)
@[simp] theorem Mach.armMod_sys (m : Mach) (f : ArmSt → ArmSt) : (m.armMod f).sys = m.sys := (rfl)
@[simp] theorem Mach.armMod_te (m : Mach) (f : ArmSt → ArmSt) : (m.armMod f).te = m.te := (rfl)
@[simp] theorem Mach.armMod_lc (m : Mach) (f : ArmSt → ArmSt) : (m.armMod f).lc = m.lc := (rfl)
@[simp] theorem Mach.armMod_dsp (m : Mach) (f : ArmSt → ArmSt) : (m.armMod f).dsp = m.dsp := (rfl)
@[simp] theorem Mach.armMod_chans (m : Mach) (f : ArmSt → ArmSt) : (m.armMod f).chans = m.chans := (rfl)
@[simp] theorem Mach.armMod_mem (m : Mach) (f : ArmSt → ArmSt) : (m.armMod f).mem = m.mem := (rfl)
@[simp] theorem Mach.armMod_nvm (m : Mach) (f : ArmSt → ArmSt) : (m.armMod f).nvm = m.nvm := (rfl)
@[simp] theorem Mach.armMod_tim (m : Mach) (f : ArmSt → ArmSt) : (m.armMod f).tim = m.tim := (rfl)
@[simp] theorem Mach.armMod_hif (m : Mach) (f : ArmSt → ArmSt) : (m.armMod f).hif = m.hif := (rfl)
@[simp] theorem Mach.armMod_flt (m : Mach) (f : ArmSt → ArmSt) : (m.armMod f).flt = m.flt := (rfl)
@[simp] theorem Mach.armMod_mrad (m : Mach) (f : ArmSt → ArmSt) : (m.armMod f).mrad = m.mrad := (rfl)
@[simp] theorem Mach.armMod_mlink (m : Mach) (f : ArmSt → ArmSt) : (m.armMod f).mlink = m.mlink := (rfl)
@[simp] theorem Mach.armMod_radios (m : Mach) (f : ArmSt → ArmSt) : (m.armMod f).radios = m.radios := (rfl)
@[simp] theorem Mach.armMod_idbus (m : Mach) (f : ArmSt → ArmSt) : (m.armMod f).idbus = m.idbus := (rfl)
@[simp] theorem Mach.armMod_bbs (m : Mach) (f : ArmSt → ArmSt) : (m.armMod f).bbs = m.bbs := (rfl)
@[simp] theorem Mach.armMod_wmac (m : Mach) (f : ArmSt → ArmSt) : (m.armMod f).wmac = m.wmac := (rfl)
@[simp] theorem Mach.armMod_asch (m : Mach) (f : ArmSt → ArmSt) : (m.armMod f).asch = m.asch := (rfl)
@[simp] theorem Mach.armMod_rte (m : Mach) (f : ArmSt → ArmSt) : (m.armMod f).rte = m.rte := (rfl)
@[simp] theorem Mach.armMod_upl (m : Mach) (f : ArmSt → ArmSt) : (m.armMod f).upl = m.upl := (rfl)
@[simp] theorem Mach.armMod_chn (m : Mach) (f : ArmSt → ArmSt) : (m.armMod f).chn = m.chn := (rfl)

/-! #### memMod -/

@[simp] theorem Mach.memMod_regs (m : Mach) (f : MemSt → MemSt) : (m.memMod f).regs = m.regs := (rfl)
@[simp] theorem Mach.memMod_stage (m : Mach) (f : MemSt → MemSt) : (m.memMod f).stage = m.stage := (rfl)
@[simp] theorem Mach.memMod_free (m : Mach) (f : MemSt → MemSt) : (m.memMod f).free = m.free := (rfl)
@[simp] theorem Mach.memMod_answer (m : Mach) (f : MemSt → MemSt) : (m.memMod f).answer = m.answer := (rfl)
@[simp] theorem Mach.memMod_sys (m : Mach) (f : MemSt → MemSt) : (m.memMod f).sys = m.sys := (rfl)
@[simp] theorem Mach.memMod_arm (m : Mach) (f : MemSt → MemSt) : (m.memMod f).arm = m.arm := (rfl)
@[simp] theorem Mach.memMod_te (m : Mach) (f : MemSt → MemSt) : (m.memMod f).te = m.te := (rfl)
@[simp] theorem Mach.memMod_lc (m : Mach) (f : MemSt → MemSt) : (m.memMod f).lc = m.lc := (rfl)
@[simp] theorem Mach.memMod_dsp (m : Mach) (f : MemSt → MemSt) : (m.memMod f).dsp = m.dsp := (rfl)
@[simp] theorem Mach.memMod_chans (m : Mach) (f : MemSt → MemSt) : (m.memMod f).chans = m.chans := (rfl)
@[simp] theorem Mach.memMod_nvm (m : Mach) (f : MemSt → MemSt) : (m.memMod f).nvm = m.nvm := (rfl)
@[simp] theorem Mach.memMod_tim (m : Mach) (f : MemSt → MemSt) : (m.memMod f).tim = m.tim := (rfl)
@[simp] theorem Mach.memMod_hif (m : Mach) (f : MemSt → MemSt) : (m.memMod f).hif = m.hif := (rfl)
@[simp] theorem Mach.memMod_flt (m : Mach) (f : MemSt → MemSt) : (m.memMod f).flt = m.flt := (rfl)
@[simp] theorem Mach.memMod_mrad (m : Mach) (f : MemSt → MemSt) : (m.memMod f).mrad = m.mrad := (rfl)
@[simp] theorem Mach.memMod_mlink (m : Mach) (f : MemSt → MemSt) : (m.memMod f).mlink = m.mlink := (rfl)
@[simp] theorem Mach.memMod_radios (m : Mach) (f : MemSt → MemSt) : (m.memMod f).radios = m.radios := (rfl)
@[simp] theorem Mach.memMod_idbus (m : Mach) (f : MemSt → MemSt) : (m.memMod f).idbus = m.idbus := (rfl)
@[simp] theorem Mach.memMod_bbs (m : Mach) (f : MemSt → MemSt) : (m.memMod f).bbs = m.bbs := (rfl)
@[simp] theorem Mach.memMod_wmac (m : Mach) (f : MemSt → MemSt) : (m.memMod f).wmac = m.wmac := (rfl)
@[simp] theorem Mach.memMod_asch (m : Mach) (f : MemSt → MemSt) : (m.memMod f).asch = m.asch := (rfl)
@[simp] theorem Mach.memMod_rte (m : Mach) (f : MemSt → MemSt) : (m.memMod f).rte = m.rte := (rfl)
@[simp] theorem Mach.memMod_upl (m : Mach) (f : MemSt → MemSt) : (m.memMod f).upl = m.upl := (rfl)
@[simp] theorem Mach.memMod_chn (m : Mach) (f : MemSt → MemSt) : (m.memMod f).chn = m.chn := (rfl)

/-! #### nvmMod -/

@[simp] theorem Mach.nvmMod_regs (m : Mach) (f : NvmSt → NvmSt) : (m.nvmMod f).regs = m.regs := (rfl)
@[simp] theorem Mach.nvmMod_stage (m : Mach) (f : NvmSt → NvmSt) : (m.nvmMod f).stage = m.stage := (rfl)
@[simp] theorem Mach.nvmMod_free (m : Mach) (f : NvmSt → NvmSt) : (m.nvmMod f).free = m.free := (rfl)
@[simp] theorem Mach.nvmMod_answer (m : Mach) (f : NvmSt → NvmSt) : (m.nvmMod f).answer = m.answer := (rfl)
@[simp] theorem Mach.nvmMod_sys (m : Mach) (f : NvmSt → NvmSt) : (m.nvmMod f).sys = m.sys := (rfl)
@[simp] theorem Mach.nvmMod_arm (m : Mach) (f : NvmSt → NvmSt) : (m.nvmMod f).arm = m.arm := (rfl)
@[simp] theorem Mach.nvmMod_te (m : Mach) (f : NvmSt → NvmSt) : (m.nvmMod f).te = m.te := (rfl)
@[simp] theorem Mach.nvmMod_lc (m : Mach) (f : NvmSt → NvmSt) : (m.nvmMod f).lc = m.lc := (rfl)
@[simp] theorem Mach.nvmMod_dsp (m : Mach) (f : NvmSt → NvmSt) : (m.nvmMod f).dsp = m.dsp := (rfl)
@[simp] theorem Mach.nvmMod_chans (m : Mach) (f : NvmSt → NvmSt) : (m.nvmMod f).chans = m.chans := (rfl)
@[simp] theorem Mach.nvmMod_mem (m : Mach) (f : NvmSt → NvmSt) : (m.nvmMod f).mem = m.mem := (rfl)
@[simp] theorem Mach.nvmMod_tim (m : Mach) (f : NvmSt → NvmSt) : (m.nvmMod f).tim = m.tim := (rfl)
@[simp] theorem Mach.nvmMod_hif (m : Mach) (f : NvmSt → NvmSt) : (m.nvmMod f).hif = m.hif := (rfl)
@[simp] theorem Mach.nvmMod_flt (m : Mach) (f : NvmSt → NvmSt) : (m.nvmMod f).flt = m.flt := (rfl)
@[simp] theorem Mach.nvmMod_mrad (m : Mach) (f : NvmSt → NvmSt) : (m.nvmMod f).mrad = m.mrad := (rfl)
@[simp] theorem Mach.nvmMod_mlink (m : Mach) (f : NvmSt → NvmSt) : (m.nvmMod f).mlink = m.mlink := (rfl)
@[simp] theorem Mach.nvmMod_radios (m : Mach) (f : NvmSt → NvmSt) : (m.nvmMod f).radios = m.radios := (rfl)
@[simp] theorem Mach.nvmMod_idbus (m : Mach) (f : NvmSt → NvmSt) : (m.nvmMod f).idbus = m.idbus := (rfl)
@[simp] theorem Mach.nvmMod_bbs (m : Mach) (f : NvmSt → NvmSt) : (m.nvmMod f).bbs = m.bbs := (rfl)
@[simp] theorem Mach.nvmMod_wmac (m : Mach) (f : NvmSt → NvmSt) : (m.nvmMod f).wmac = m.wmac := (rfl)
@[simp] theorem Mach.nvmMod_asch (m : Mach) (f : NvmSt → NvmSt) : (m.nvmMod f).asch = m.asch := (rfl)
@[simp] theorem Mach.nvmMod_rte (m : Mach) (f : NvmSt → NvmSt) : (m.nvmMod f).rte = m.rte := (rfl)
@[simp] theorem Mach.nvmMod_upl (m : Mach) (f : NvmSt → NvmSt) : (m.nvmMod f).upl = m.upl := (rfl)
@[simp] theorem Mach.nvmMod_chn (m : Mach) (f : NvmSt → NvmSt) : (m.nvmMod f).chn = m.chn := (rfl)

/-! #### timMod -/

@[simp] theorem Mach.timMod_regs (m : Mach) (f : TimSt → TimSt) : (m.timMod f).regs = m.regs := (rfl)
@[simp] theorem Mach.timMod_stage (m : Mach) (f : TimSt → TimSt) : (m.timMod f).stage = m.stage := (rfl)
@[simp] theorem Mach.timMod_free (m : Mach) (f : TimSt → TimSt) : (m.timMod f).free = m.free := (rfl)
@[simp] theorem Mach.timMod_answer (m : Mach) (f : TimSt → TimSt) : (m.timMod f).answer = m.answer := (rfl)
@[simp] theorem Mach.timMod_sys (m : Mach) (f : TimSt → TimSt) : (m.timMod f).sys = m.sys := (rfl)
@[simp] theorem Mach.timMod_arm (m : Mach) (f : TimSt → TimSt) : (m.timMod f).arm = m.arm := (rfl)
@[simp] theorem Mach.timMod_te (m : Mach) (f : TimSt → TimSt) : (m.timMod f).te = m.te := (rfl)
@[simp] theorem Mach.timMod_lc (m : Mach) (f : TimSt → TimSt) : (m.timMod f).lc = m.lc := (rfl)
@[simp] theorem Mach.timMod_dsp (m : Mach) (f : TimSt → TimSt) : (m.timMod f).dsp = m.dsp := (rfl)
@[simp] theorem Mach.timMod_chans (m : Mach) (f : TimSt → TimSt) : (m.timMod f).chans = m.chans := (rfl)
@[simp] theorem Mach.timMod_mem (m : Mach) (f : TimSt → TimSt) : (m.timMod f).mem = m.mem := (rfl)
@[simp] theorem Mach.timMod_nvm (m : Mach) (f : TimSt → TimSt) : (m.timMod f).nvm = m.nvm := (rfl)
@[simp] theorem Mach.timMod_hif (m : Mach) (f : TimSt → TimSt) : (m.timMod f).hif = m.hif := (rfl)
@[simp] theorem Mach.timMod_flt (m : Mach) (f : TimSt → TimSt) : (m.timMod f).flt = m.flt := (rfl)
@[simp] theorem Mach.timMod_mrad (m : Mach) (f : TimSt → TimSt) : (m.timMod f).mrad = m.mrad := (rfl)
@[simp] theorem Mach.timMod_mlink (m : Mach) (f : TimSt → TimSt) : (m.timMod f).mlink = m.mlink := (rfl)
@[simp] theorem Mach.timMod_radios (m : Mach) (f : TimSt → TimSt) : (m.timMod f).radios = m.radios := (rfl)
@[simp] theorem Mach.timMod_idbus (m : Mach) (f : TimSt → TimSt) : (m.timMod f).idbus = m.idbus := (rfl)
@[simp] theorem Mach.timMod_bbs (m : Mach) (f : TimSt → TimSt) : (m.timMod f).bbs = m.bbs := (rfl)
@[simp] theorem Mach.timMod_wmac (m : Mach) (f : TimSt → TimSt) : (m.timMod f).wmac = m.wmac := (rfl)
@[simp] theorem Mach.timMod_asch (m : Mach) (f : TimSt → TimSt) : (m.timMod f).asch = m.asch := (rfl)
@[simp] theorem Mach.timMod_rte (m : Mach) (f : TimSt → TimSt) : (m.timMod f).rte = m.rte := (rfl)
@[simp] theorem Mach.timMod_upl (m : Mach) (f : TimSt → TimSt) : (m.timMod f).upl = m.upl := (rfl)
@[simp] theorem Mach.timMod_chn (m : Mach) (f : TimSt → TimSt) : (m.timMod f).chn = m.chn := (rfl)

/-! #### hifMod -/

@[simp] theorem Mach.hifMod_regs (m : Mach) (f : HifSt → HifSt) : (m.hifMod f).regs = m.regs := (rfl)
@[simp] theorem Mach.hifMod_stage (m : Mach) (f : HifSt → HifSt) : (m.hifMod f).stage = m.stage := (rfl)
@[simp] theorem Mach.hifMod_free (m : Mach) (f : HifSt → HifSt) : (m.hifMod f).free = m.free := (rfl)
@[simp] theorem Mach.hifMod_answer (m : Mach) (f : HifSt → HifSt) : (m.hifMod f).answer = m.answer := (rfl)
@[simp] theorem Mach.hifMod_sys (m : Mach) (f : HifSt → HifSt) : (m.hifMod f).sys = m.sys := (rfl)
@[simp] theorem Mach.hifMod_arm (m : Mach) (f : HifSt → HifSt) : (m.hifMod f).arm = m.arm := (rfl)
@[simp] theorem Mach.hifMod_te (m : Mach) (f : HifSt → HifSt) : (m.hifMod f).te = m.te := (rfl)
@[simp] theorem Mach.hifMod_lc (m : Mach) (f : HifSt → HifSt) : (m.hifMod f).lc = m.lc := (rfl)
@[simp] theorem Mach.hifMod_dsp (m : Mach) (f : HifSt → HifSt) : (m.hifMod f).dsp = m.dsp := (rfl)
@[simp] theorem Mach.hifMod_chans (m : Mach) (f : HifSt → HifSt) : (m.hifMod f).chans = m.chans := (rfl)
@[simp] theorem Mach.hifMod_mem (m : Mach) (f : HifSt → HifSt) : (m.hifMod f).mem = m.mem := (rfl)
@[simp] theorem Mach.hifMod_nvm (m : Mach) (f : HifSt → HifSt) : (m.hifMod f).nvm = m.nvm := (rfl)
@[simp] theorem Mach.hifMod_tim (m : Mach) (f : HifSt → HifSt) : (m.hifMod f).tim = m.tim := (rfl)
@[simp] theorem Mach.hifMod_flt (m : Mach) (f : HifSt → HifSt) : (m.hifMod f).flt = m.flt := (rfl)
@[simp] theorem Mach.hifMod_mrad (m : Mach) (f : HifSt → HifSt) : (m.hifMod f).mrad = m.mrad := (rfl)
@[simp] theorem Mach.hifMod_mlink (m : Mach) (f : HifSt → HifSt) : (m.hifMod f).mlink = m.mlink := (rfl)
@[simp] theorem Mach.hifMod_radios (m : Mach) (f : HifSt → HifSt) : (m.hifMod f).radios = m.radios := (rfl)
@[simp] theorem Mach.hifMod_idbus (m : Mach) (f : HifSt → HifSt) : (m.hifMod f).idbus = m.idbus := (rfl)
@[simp] theorem Mach.hifMod_bbs (m : Mach) (f : HifSt → HifSt) : (m.hifMod f).bbs = m.bbs := (rfl)
@[simp] theorem Mach.hifMod_wmac (m : Mach) (f : HifSt → HifSt) : (m.hifMod f).wmac = m.wmac := (rfl)
@[simp] theorem Mach.hifMod_asch (m : Mach) (f : HifSt → HifSt) : (m.hifMod f).asch = m.asch := (rfl)
@[simp] theorem Mach.hifMod_rte (m : Mach) (f : HifSt → HifSt) : (m.hifMod f).rte = m.rte := (rfl)
@[simp] theorem Mach.hifMod_upl (m : Mach) (f : HifSt → HifSt) : (m.hifMod f).upl = m.upl := (rfl)
@[simp] theorem Mach.hifMod_chn (m : Mach) (f : HifSt → HifSt) : (m.hifMod f).chn = m.chn := (rfl)

/-! #### fltMod -/

@[simp] theorem Mach.fltMod_regs (m : Mach) (f : FltSt → FltSt) : (m.fltMod f).regs = m.regs := (rfl)
@[simp] theorem Mach.fltMod_stage (m : Mach) (f : FltSt → FltSt) : (m.fltMod f).stage = m.stage := (rfl)
@[simp] theorem Mach.fltMod_free (m : Mach) (f : FltSt → FltSt) : (m.fltMod f).free = m.free := (rfl)
@[simp] theorem Mach.fltMod_answer (m : Mach) (f : FltSt → FltSt) : (m.fltMod f).answer = m.answer := (rfl)
@[simp] theorem Mach.fltMod_sys (m : Mach) (f : FltSt → FltSt) : (m.fltMod f).sys = m.sys := (rfl)
@[simp] theorem Mach.fltMod_arm (m : Mach) (f : FltSt → FltSt) : (m.fltMod f).arm = m.arm := (rfl)
@[simp] theorem Mach.fltMod_te (m : Mach) (f : FltSt → FltSt) : (m.fltMod f).te = m.te := (rfl)
@[simp] theorem Mach.fltMod_lc (m : Mach) (f : FltSt → FltSt) : (m.fltMod f).lc = m.lc := (rfl)
@[simp] theorem Mach.fltMod_dsp (m : Mach) (f : FltSt → FltSt) : (m.fltMod f).dsp = m.dsp := (rfl)
@[simp] theorem Mach.fltMod_chans (m : Mach) (f : FltSt → FltSt) : (m.fltMod f).chans = m.chans := (rfl)
@[simp] theorem Mach.fltMod_mem (m : Mach) (f : FltSt → FltSt) : (m.fltMod f).mem = m.mem := (rfl)
@[simp] theorem Mach.fltMod_nvm (m : Mach) (f : FltSt → FltSt) : (m.fltMod f).nvm = m.nvm := (rfl)
@[simp] theorem Mach.fltMod_tim (m : Mach) (f : FltSt → FltSt) : (m.fltMod f).tim = m.tim := (rfl)
@[simp] theorem Mach.fltMod_hif (m : Mach) (f : FltSt → FltSt) : (m.fltMod f).hif = m.hif := (rfl)
@[simp] theorem Mach.fltMod_mrad (m : Mach) (f : FltSt → FltSt) : (m.fltMod f).mrad = m.mrad := (rfl)
@[simp] theorem Mach.fltMod_mlink (m : Mach) (f : FltSt → FltSt) : (m.fltMod f).mlink = m.mlink := (rfl)
@[simp] theorem Mach.fltMod_radios (m : Mach) (f : FltSt → FltSt) : (m.fltMod f).radios = m.radios := (rfl)
@[simp] theorem Mach.fltMod_idbus (m : Mach) (f : FltSt → FltSt) : (m.fltMod f).idbus = m.idbus := (rfl)
@[simp] theorem Mach.fltMod_bbs (m : Mach) (f : FltSt → FltSt) : (m.fltMod f).bbs = m.bbs := (rfl)
@[simp] theorem Mach.fltMod_wmac (m : Mach) (f : FltSt → FltSt) : (m.fltMod f).wmac = m.wmac := (rfl)
@[simp] theorem Mach.fltMod_asch (m : Mach) (f : FltSt → FltSt) : (m.fltMod f).asch = m.asch := (rfl)
@[simp] theorem Mach.fltMod_rte (m : Mach) (f : FltSt → FltSt) : (m.fltMod f).rte = m.rte := (rfl)
@[simp] theorem Mach.fltMod_upl (m : Mach) (f : FltSt → FltSt) : (m.fltMod f).upl = m.upl := (rfl)
@[simp] theorem Mach.fltMod_chn (m : Mach) (f : FltSt → FltSt) : (m.fltMod f).chn = m.chn := (rfl)

/-! #### chnMod -/

@[simp] theorem Mach.chnMod_regs (m : Mach) (f : ChnSt → ChnSt) : (m.chnMod f).regs = m.regs := (rfl)
@[simp] theorem Mach.chnMod_stage (m : Mach) (f : ChnSt → ChnSt) : (m.chnMod f).stage = m.stage := (rfl)
@[simp] theorem Mach.chnMod_free (m : Mach) (f : ChnSt → ChnSt) : (m.chnMod f).free = m.free := (rfl)
@[simp] theorem Mach.chnMod_answer (m : Mach) (f : ChnSt → ChnSt) : (m.chnMod f).answer = m.answer := (rfl)
@[simp] theorem Mach.chnMod_sys (m : Mach) (f : ChnSt → ChnSt) : (m.chnMod f).sys = m.sys := (rfl)
@[simp] theorem Mach.chnMod_arm (m : Mach) (f : ChnSt → ChnSt) : (m.chnMod f).arm = m.arm := (rfl)
@[simp] theorem Mach.chnMod_te (m : Mach) (f : ChnSt → ChnSt) : (m.chnMod f).te = m.te := (rfl)
@[simp] theorem Mach.chnMod_lc (m : Mach) (f : ChnSt → ChnSt) : (m.chnMod f).lc = m.lc := (rfl)
@[simp] theorem Mach.chnMod_dsp (m : Mach) (f : ChnSt → ChnSt) : (m.chnMod f).dsp = m.dsp := (rfl)
@[simp] theorem Mach.chnMod_chans (m : Mach) (f : ChnSt → ChnSt) : (m.chnMod f).chans = m.chans := (rfl)
@[simp] theorem Mach.chnMod_mem (m : Mach) (f : ChnSt → ChnSt) : (m.chnMod f).mem = m.mem := (rfl)
@[simp] theorem Mach.chnMod_nvm (m : Mach) (f : ChnSt → ChnSt) : (m.chnMod f).nvm = m.nvm := (rfl)
@[simp] theorem Mach.chnMod_tim (m : Mach) (f : ChnSt → ChnSt) : (m.chnMod f).tim = m.tim := (rfl)
@[simp] theorem Mach.chnMod_hif (m : Mach) (f : ChnSt → ChnSt) : (m.chnMod f).hif = m.hif := (rfl)
@[simp] theorem Mach.chnMod_flt (m : Mach) (f : ChnSt → ChnSt) : (m.chnMod f).flt = m.flt := (rfl)
@[simp] theorem Mach.chnMod_mrad (m : Mach) (f : ChnSt → ChnSt) : (m.chnMod f).mrad = m.mrad := (rfl)
@[simp] theorem Mach.chnMod_mlink (m : Mach) (f : ChnSt → ChnSt) : (m.chnMod f).mlink = m.mlink := (rfl)
@[simp] theorem Mach.chnMod_radios (m : Mach) (f : ChnSt → ChnSt) : (m.chnMod f).radios = m.radios := (rfl)
@[simp] theorem Mach.chnMod_idbus (m : Mach) (f : ChnSt → ChnSt) : (m.chnMod f).idbus = m.idbus := (rfl)
@[simp] theorem Mach.chnMod_bbs (m : Mach) (f : ChnSt → ChnSt) : (m.chnMod f).bbs = m.bbs := (rfl)
@[simp] theorem Mach.chnMod_wmac (m : Mach) (f : ChnSt → ChnSt) : (m.chnMod f).wmac = m.wmac := (rfl)
@[simp] theorem Mach.chnMod_asch (m : Mach) (f : ChnSt → ChnSt) : (m.chnMod f).asch = m.asch := (rfl)
@[simp] theorem Mach.chnMod_rte (m : Mach) (f : ChnSt → ChnSt) : (m.chnMod f).rte = m.rte := (rfl)
@[simp] theorem Mach.chnMod_upl (m : Mach) (f : ChnSt → ChnSt) : (m.chnMod f).upl = m.upl := (rfl)

/-! #### lcMod -/

@[simp] theorem Mach.lcMod_regs (m : Mach) (f : Lc → Lc) : (m.lcMod f).regs = m.regs := (rfl)
@[simp] theorem Mach.lcMod_stage (m : Mach) (f : Lc → Lc) : (m.lcMod f).stage = m.stage := (rfl)
@[simp] theorem Mach.lcMod_free (m : Mach) (f : Lc → Lc) : (m.lcMod f).free = m.free := (rfl)
@[simp] theorem Mach.lcMod_answer (m : Mach) (f : Lc → Lc) : (m.lcMod f).answer = m.answer := (rfl)
@[simp] theorem Mach.lcMod_sys (m : Mach) (f : Lc → Lc) : (m.lcMod f).sys = m.sys := (rfl)
@[simp] theorem Mach.lcMod_arm (m : Mach) (f : Lc → Lc) : (m.lcMod f).arm = m.arm := (rfl)
@[simp] theorem Mach.lcMod_te (m : Mach) (f : Lc → Lc) : (m.lcMod f).te = m.te := (rfl)
@[simp] theorem Mach.lcMod_dsp (m : Mach) (f : Lc → Lc) : (m.lcMod f).dsp = m.dsp := (rfl)
@[simp] theorem Mach.lcMod_chans (m : Mach) (f : Lc → Lc) : (m.lcMod f).chans = m.chans := (rfl)
@[simp] theorem Mach.lcMod_mem (m : Mach) (f : Lc → Lc) : (m.lcMod f).mem = m.mem := (rfl)
@[simp] theorem Mach.lcMod_nvm (m : Mach) (f : Lc → Lc) : (m.lcMod f).nvm = m.nvm := (rfl)
@[simp] theorem Mach.lcMod_tim (m : Mach) (f : Lc → Lc) : (m.lcMod f).tim = m.tim := (rfl)
@[simp] theorem Mach.lcMod_hif (m : Mach) (f : Lc → Lc) : (m.lcMod f).hif = m.hif := (rfl)
@[simp] theorem Mach.lcMod_flt (m : Mach) (f : Lc → Lc) : (m.lcMod f).flt = m.flt := (rfl)
@[simp] theorem Mach.lcMod_mrad (m : Mach) (f : Lc → Lc) : (m.lcMod f).mrad = m.mrad := (rfl)
@[simp] theorem Mach.lcMod_mlink (m : Mach) (f : Lc → Lc) : (m.lcMod f).mlink = m.mlink := (rfl)
@[simp] theorem Mach.lcMod_radios (m : Mach) (f : Lc → Lc) : (m.lcMod f).radios = m.radios := (rfl)
@[simp] theorem Mach.lcMod_idbus (m : Mach) (f : Lc → Lc) : (m.lcMod f).idbus = m.idbus := (rfl)
@[simp] theorem Mach.lcMod_bbs (m : Mach) (f : Lc → Lc) : (m.lcMod f).bbs = m.bbs := (rfl)
@[simp] theorem Mach.lcMod_wmac (m : Mach) (f : Lc → Lc) : (m.lcMod f).wmac = m.wmac := (rfl)
@[simp] theorem Mach.lcMod_asch (m : Mach) (f : Lc → Lc) : (m.lcMod f).asch = m.asch := (rfl)
@[simp] theorem Mach.lcMod_rte (m : Mach) (f : Lc → Lc) : (m.lcMod f).rte = m.rte := (rfl)
@[simp] theorem Mach.lcMod_upl (m : Mach) (f : Lc → Lc) : (m.lcMod f).upl = m.upl := (rfl)
@[simp] theorem Mach.lcMod_chn (m : Mach) (f : Lc → Lc) : (m.lcMod f).chn = m.chn := (rfl)

/-! #### mradMod -/

@[simp] theorem Mach.mradMod_regs (m : Mach) (f : MeshRadio → MeshRadio) : (m.mradMod f).regs = m.regs := (rfl)
@[simp] theorem Mach.mradMod_stage (m : Mach) (f : MeshRadio → MeshRadio) : (m.mradMod f).stage = m.stage := (rfl)
@[simp] theorem Mach.mradMod_free (m : Mach) (f : MeshRadio → MeshRadio) : (m.mradMod f).free = m.free := (rfl)
@[simp] theorem Mach.mradMod_answer (m : Mach) (f : MeshRadio → MeshRadio) : (m.mradMod f).answer = m.answer := (rfl)
@[simp] theorem Mach.mradMod_sys (m : Mach) (f : MeshRadio → MeshRadio) : (m.mradMod f).sys = m.sys := (rfl)
@[simp] theorem Mach.mradMod_arm (m : Mach) (f : MeshRadio → MeshRadio) : (m.mradMod f).arm = m.arm := (rfl)
@[simp] theorem Mach.mradMod_te (m : Mach) (f : MeshRadio → MeshRadio) : (m.mradMod f).te = m.te := (rfl)
@[simp] theorem Mach.mradMod_lc (m : Mach) (f : MeshRadio → MeshRadio) : (m.mradMod f).lc = m.lc := (rfl)
@[simp] theorem Mach.mradMod_dsp (m : Mach) (f : MeshRadio → MeshRadio) : (m.mradMod f).dsp = m.dsp := (rfl)
@[simp] theorem Mach.mradMod_chans (m : Mach) (f : MeshRadio → MeshRadio) : (m.mradMod f).chans = m.chans := (rfl)
@[simp] theorem Mach.mradMod_mem (m : Mach) (f : MeshRadio → MeshRadio) : (m.mradMod f).mem = m.mem := (rfl)
@[simp] theorem Mach.mradMod_nvm (m : Mach) (f : MeshRadio → MeshRadio) : (m.mradMod f).nvm = m.nvm := (rfl)
@[simp] theorem Mach.mradMod_tim (m : Mach) (f : MeshRadio → MeshRadio) : (m.mradMod f).tim = m.tim := (rfl)
@[simp] theorem Mach.mradMod_hif (m : Mach) (f : MeshRadio → MeshRadio) : (m.mradMod f).hif = m.hif := (rfl)
@[simp] theorem Mach.mradMod_flt (m : Mach) (f : MeshRadio → MeshRadio) : (m.mradMod f).flt = m.flt := (rfl)
@[simp] theorem Mach.mradMod_mlink (m : Mach) (f : MeshRadio → MeshRadio) : (m.mradMod f).mlink = m.mlink := (rfl)
@[simp] theorem Mach.mradMod_radios (m : Mach) (f : MeshRadio → MeshRadio) : (m.mradMod f).radios = m.radios := (rfl)
@[simp] theorem Mach.mradMod_idbus (m : Mach) (f : MeshRadio → MeshRadio) : (m.mradMod f).idbus = m.idbus := (rfl)
@[simp] theorem Mach.mradMod_bbs (m : Mach) (f : MeshRadio → MeshRadio) : (m.mradMod f).bbs = m.bbs := (rfl)
@[simp] theorem Mach.mradMod_wmac (m : Mach) (f : MeshRadio → MeshRadio) : (m.mradMod f).wmac = m.wmac := (rfl)
@[simp] theorem Mach.mradMod_asch (m : Mach) (f : MeshRadio → MeshRadio) : (m.mradMod f).asch = m.asch := (rfl)
@[simp] theorem Mach.mradMod_rte (m : Mach) (f : MeshRadio → MeshRadio) : (m.mradMod f).rte = m.rte := (rfl)
@[simp] theorem Mach.mradMod_upl (m : Mach) (f : MeshRadio → MeshRadio) : (m.mradMod f).upl = m.upl := (rfl)
@[simp] theorem Mach.mradMod_chn (m : Mach) (f : MeshRadio → MeshRadio) : (m.mradMod f).chn = m.chn := (rfl)

/-! #### mlinkMod -/

@[simp] theorem Mach.mlinkMod_regs (m : Mach) (f : MeshLink → MeshLink) : (m.mlinkMod f).regs = m.regs := (rfl)
@[simp] theorem Mach.mlinkMod_stage (m : Mach) (f : MeshLink → MeshLink) : (m.mlinkMod f).stage = m.stage := (rfl)
@[simp] theorem Mach.mlinkMod_free (m : Mach) (f : MeshLink → MeshLink) : (m.mlinkMod f).free = m.free := (rfl)
@[simp] theorem Mach.mlinkMod_answer (m : Mach) (f : MeshLink → MeshLink) : (m.mlinkMod f).answer = m.answer := (rfl)
@[simp] theorem Mach.mlinkMod_sys (m : Mach) (f : MeshLink → MeshLink) : (m.mlinkMod f).sys = m.sys := (rfl)
@[simp] theorem Mach.mlinkMod_arm (m : Mach) (f : MeshLink → MeshLink) : (m.mlinkMod f).arm = m.arm := (rfl)
@[simp] theorem Mach.mlinkMod_te (m : Mach) (f : MeshLink → MeshLink) : (m.mlinkMod f).te = m.te := (rfl)
@[simp] theorem Mach.mlinkMod_lc (m : Mach) (f : MeshLink → MeshLink) : (m.mlinkMod f).lc = m.lc := (rfl)
@[simp] theorem Mach.mlinkMod_dsp (m : Mach) (f : MeshLink → MeshLink) : (m.mlinkMod f).dsp = m.dsp := (rfl)
@[simp] theorem Mach.mlinkMod_chans (m : Mach) (f : MeshLink → MeshLink) : (m.mlinkMod f).chans = m.chans := (rfl)
@[simp] theorem Mach.mlinkMod_mem (m : Mach) (f : MeshLink → MeshLink) : (m.mlinkMod f).mem = m.mem := (rfl)
@[simp] theorem Mach.mlinkMod_nvm (m : Mach) (f : MeshLink → MeshLink) : (m.mlinkMod f).nvm = m.nvm := (rfl)
@[simp] theorem Mach.mlinkMod_tim (m : Mach) (f : MeshLink → MeshLink) : (m.mlinkMod f).tim = m.tim := (rfl)
@[simp] theorem Mach.mlinkMod_hif (m : Mach) (f : MeshLink → MeshLink) : (m.mlinkMod f).hif = m.hif := (rfl)
@[simp] theorem Mach.mlinkMod_flt (m : Mach) (f : MeshLink → MeshLink) : (m.mlinkMod f).flt = m.flt := (rfl)
@[simp] theorem Mach.mlinkMod_mrad (m : Mach) (f : MeshLink → MeshLink) : (m.mlinkMod f).mrad = m.mrad := (rfl)
@[simp] theorem Mach.mlinkMod_radios (m : Mach) (f : MeshLink → MeshLink) : (m.mlinkMod f).radios = m.radios := (rfl)
@[simp] theorem Mach.mlinkMod_idbus (m : Mach) (f : MeshLink → MeshLink) : (m.mlinkMod f).idbus = m.idbus := (rfl)
@[simp] theorem Mach.mlinkMod_bbs (m : Mach) (f : MeshLink → MeshLink) : (m.mlinkMod f).bbs = m.bbs := (rfl)
@[simp] theorem Mach.mlinkMod_wmac (m : Mach) (f : MeshLink → MeshLink) : (m.mlinkMod f).wmac = m.wmac := (rfl)
@[simp] theorem Mach.mlinkMod_asch (m : Mach) (f : MeshLink → MeshLink) : (m.mlinkMod f).asch = m.asch := (rfl)
@[simp] theorem Mach.mlinkMod_rte (m : Mach) (f : MeshLink → MeshLink) : (m.mlinkMod f).rte = m.rte := (rfl)
@[simp] theorem Mach.mlinkMod_upl (m : Mach) (f : MeshLink → MeshLink) : (m.mlinkMod f).upl = m.upl := (rfl)
@[simp] theorem Mach.mlinkMod_chn (m : Mach) (f : MeshLink → MeshLink) : (m.mlinkMod f).chn = m.chn := (rfl)

/-! #### wmacMod -/

@[simp] theorem Mach.wmacMod_regs (m : Mach) (f : Wmac → Wmac) : (m.wmacMod f).regs = m.regs := (rfl)
@[simp] theorem Mach.wmacMod_stage (m : Mach) (f : Wmac → Wmac) : (m.wmacMod f).stage = m.stage := (rfl)
@[simp] theorem Mach.wmacMod_free (m : Mach) (f : Wmac → Wmac) : (m.wmacMod f).free = m.free := (rfl)
@[simp] theorem Mach.wmacMod_answer (m : Mach) (f : Wmac → Wmac) : (m.wmacMod f).answer = m.answer := (rfl)
@[simp] theorem Mach.wmacMod_sys (m : Mach) (f : Wmac → Wmac) : (m.wmacMod f).sys = m.sys := (rfl)
@[simp] theorem Mach.wmacMod_arm (m : Mach) (f : Wmac → Wmac) : (m.wmacMod f).arm = m.arm := (rfl)
@[simp] theorem Mach.wmacMod_te (m : Mach) (f : Wmac → Wmac) : (m.wmacMod f).te = m.te := (rfl)
@[simp] theorem Mach.wmacMod_lc (m : Mach) (f : Wmac → Wmac) : (m.wmacMod f).lc = m.lc := (rfl)
@[simp] theorem Mach.wmacMod_dsp (m : Mach) (f : Wmac → Wmac) : (m.wmacMod f).dsp = m.dsp := (rfl)
@[simp] theorem Mach.wmacMod_chans (m : Mach) (f : Wmac → Wmac) : (m.wmacMod f).chans = m.chans := (rfl)
@[simp] theorem Mach.wmacMod_mem (m : Mach) (f : Wmac → Wmac) : (m.wmacMod f).mem = m.mem := (rfl)
@[simp] theorem Mach.wmacMod_nvm (m : Mach) (f : Wmac → Wmac) : (m.wmacMod f).nvm = m.nvm := (rfl)
@[simp] theorem Mach.wmacMod_tim (m : Mach) (f : Wmac → Wmac) : (m.wmacMod f).tim = m.tim := (rfl)
@[simp] theorem Mach.wmacMod_hif (m : Mach) (f : Wmac → Wmac) : (m.wmacMod f).hif = m.hif := (rfl)
@[simp] theorem Mach.wmacMod_flt (m : Mach) (f : Wmac → Wmac) : (m.wmacMod f).flt = m.flt := (rfl)
@[simp] theorem Mach.wmacMod_mrad (m : Mach) (f : Wmac → Wmac) : (m.wmacMod f).mrad = m.mrad := (rfl)
@[simp] theorem Mach.wmacMod_mlink (m : Mach) (f : Wmac → Wmac) : (m.wmacMod f).mlink = m.mlink := (rfl)
@[simp] theorem Mach.wmacMod_radios (m : Mach) (f : Wmac → Wmac) : (m.wmacMod f).radios = m.radios := (rfl)
@[simp] theorem Mach.wmacMod_idbus (m : Mach) (f : Wmac → Wmac) : (m.wmacMod f).idbus = m.idbus := (rfl)
@[simp] theorem Mach.wmacMod_bbs (m : Mach) (f : Wmac → Wmac) : (m.wmacMod f).bbs = m.bbs := (rfl)
@[simp] theorem Mach.wmacMod_asch (m : Mach) (f : Wmac → Wmac) : (m.wmacMod f).asch = m.asch := (rfl)
@[simp] theorem Mach.wmacMod_rte (m : Mach) (f : Wmac → Wmac) : (m.wmacMod f).rte = m.rte := (rfl)
@[simp] theorem Mach.wmacMod_upl (m : Mach) (f : Wmac → Wmac) : (m.wmacMod f).upl = m.upl := (rfl)
@[simp] theorem Mach.wmacMod_chn (m : Mach) (f : Wmac → Wmac) : (m.wmacMod f).chn = m.chn := (rfl)

/-! #### aschMod -/

@[simp] theorem Mach.aschMod_regs (m : Mach) (f : Asch → Asch) : (m.aschMod f).regs = m.regs := (rfl)
@[simp] theorem Mach.aschMod_stage (m : Mach) (f : Asch → Asch) : (m.aschMod f).stage = m.stage := (rfl)
@[simp] theorem Mach.aschMod_free (m : Mach) (f : Asch → Asch) : (m.aschMod f).free = m.free := (rfl)
@[simp] theorem Mach.aschMod_answer (m : Mach) (f : Asch → Asch) : (m.aschMod f).answer = m.answer := (rfl)
@[simp] theorem Mach.aschMod_sys (m : Mach) (f : Asch → Asch) : (m.aschMod f).sys = m.sys := (rfl)
@[simp] theorem Mach.aschMod_arm (m : Mach) (f : Asch → Asch) : (m.aschMod f).arm = m.arm := (rfl)
@[simp] theorem Mach.aschMod_te (m : Mach) (f : Asch → Asch) : (m.aschMod f).te = m.te := (rfl)
@[simp] theorem Mach.aschMod_lc (m : Mach) (f : Asch → Asch) : (m.aschMod f).lc = m.lc := (rfl)
@[simp] theorem Mach.aschMod_dsp (m : Mach) (f : Asch → Asch) : (m.aschMod f).dsp = m.dsp := (rfl)
@[simp] theorem Mach.aschMod_chans (m : Mach) (f : Asch → Asch) : (m.aschMod f).chans = m.chans := (rfl)
@[simp] theorem Mach.aschMod_mem (m : Mach) (f : Asch → Asch) : (m.aschMod f).mem = m.mem := (rfl)
@[simp] theorem Mach.aschMod_nvm (m : Mach) (f : Asch → Asch) : (m.aschMod f).nvm = m.nvm := (rfl)
@[simp] theorem Mach.aschMod_tim (m : Mach) (f : Asch → Asch) : (m.aschMod f).tim = m.tim := (rfl)
@[simp] theorem Mach.aschMod_hif (m : Mach) (f : Asch → Asch) : (m.aschMod f).hif = m.hif := (rfl)
@[simp] theorem Mach.aschMod_flt (m : Mach) (f : Asch → Asch) : (m.aschMod f).flt = m.flt := (rfl)
@[simp] theorem Mach.aschMod_mrad (m : Mach) (f : Asch → Asch) : (m.aschMod f).mrad = m.mrad := (rfl)
@[simp] theorem Mach.aschMod_mlink (m : Mach) (f : Asch → Asch) : (m.aschMod f).mlink = m.mlink := (rfl)
@[simp] theorem Mach.aschMod_radios (m : Mach) (f : Asch → Asch) : (m.aschMod f).radios = m.radios := (rfl)
@[simp] theorem Mach.aschMod_idbus (m : Mach) (f : Asch → Asch) : (m.aschMod f).idbus = m.idbus := (rfl)
@[simp] theorem Mach.aschMod_bbs (m : Mach) (f : Asch → Asch) : (m.aschMod f).bbs = m.bbs := (rfl)
@[simp] theorem Mach.aschMod_wmac (m : Mach) (f : Asch → Asch) : (m.aschMod f).wmac = m.wmac := (rfl)
@[simp] theorem Mach.aschMod_rte (m : Mach) (f : Asch → Asch) : (m.aschMod f).rte = m.rte := (rfl)
@[simp] theorem Mach.aschMod_upl (m : Mach) (f : Asch → Asch) : (m.aschMod f).upl = m.upl := (rfl)
@[simp] theorem Mach.aschMod_chn (m : Mach) (f : Asch → Asch) : (m.aschMod f).chn = m.chn := (rfl)

/-! #### rteMod -/

@[simp] theorem Mach.rteMod_regs (m : Mach) (f : Rte → Rte) : (m.rteMod f).regs = m.regs := (rfl)
@[simp] theorem Mach.rteMod_stage (m : Mach) (f : Rte → Rte) : (m.rteMod f).stage = m.stage := (rfl)
@[simp] theorem Mach.rteMod_free (m : Mach) (f : Rte → Rte) : (m.rteMod f).free = m.free := (rfl)
@[simp] theorem Mach.rteMod_answer (m : Mach) (f : Rte → Rte) : (m.rteMod f).answer = m.answer := (rfl)
@[simp] theorem Mach.rteMod_sys (m : Mach) (f : Rte → Rte) : (m.rteMod f).sys = m.sys := (rfl)
@[simp] theorem Mach.rteMod_arm (m : Mach) (f : Rte → Rte) : (m.rteMod f).arm = m.arm := (rfl)
@[simp] theorem Mach.rteMod_te (m : Mach) (f : Rte → Rte) : (m.rteMod f).te = m.te := (rfl)
@[simp] theorem Mach.rteMod_lc (m : Mach) (f : Rte → Rte) : (m.rteMod f).lc = m.lc := (rfl)
@[simp] theorem Mach.rteMod_dsp (m : Mach) (f : Rte → Rte) : (m.rteMod f).dsp = m.dsp := (rfl)
@[simp] theorem Mach.rteMod_chans (m : Mach) (f : Rte → Rte) : (m.rteMod f).chans = m.chans := (rfl)
@[simp] theorem Mach.rteMod_mem (m : Mach) (f : Rte → Rte) : (m.rteMod f).mem = m.mem := (rfl)
@[simp] theorem Mach.rteMod_nvm (m : Mach) (f : Rte → Rte) : (m.rteMod f).nvm = m.nvm := (rfl)
@[simp] theorem Mach.rteMod_tim (m : Mach) (f : Rte → Rte) : (m.rteMod f).tim = m.tim := (rfl)
@[simp] theorem Mach.rteMod_hif (m : Mach) (f : Rte → Rte) : (m.rteMod f).hif = m.hif := (rfl)
@[simp] theorem Mach.rteMod_flt (m : Mach) (f : Rte → Rte) : (m.rteMod f).flt = m.flt := (rfl)
@[simp] theorem Mach.rteMod_mrad (m : Mach) (f : Rte → Rte) : (m.rteMod f).mrad = m.mrad := (rfl)
@[simp] theorem Mach.rteMod_mlink (m : Mach) (f : Rte → Rte) : (m.rteMod f).mlink = m.mlink := (rfl)
@[simp] theorem Mach.rteMod_radios (m : Mach) (f : Rte → Rte) : (m.rteMod f).radios = m.radios := (rfl)
@[simp] theorem Mach.rteMod_idbus (m : Mach) (f : Rte → Rte) : (m.rteMod f).idbus = m.idbus := (rfl)
@[simp] theorem Mach.rteMod_bbs (m : Mach) (f : Rte → Rte) : (m.rteMod f).bbs = m.bbs := (rfl)
@[simp] theorem Mach.rteMod_wmac (m : Mach) (f : Rte → Rte) : (m.rteMod f).wmac = m.wmac := (rfl)
@[simp] theorem Mach.rteMod_asch (m : Mach) (f : Rte → Rte) : (m.rteMod f).asch = m.asch := (rfl)
@[simp] theorem Mach.rteMod_upl (m : Mach) (f : Rte → Rte) : (m.rteMod f).upl = m.upl := (rfl)
@[simp] theorem Mach.rteMod_chn (m : Mach) (f : Rte → Rte) : (m.rteMod f).chn = m.chn := (rfl)

/-! #### setTe -/

@[simp] theorem Mach.setTe_regs (m : Mach) (n : Nat) (x : Te) : (m.setTe n x).regs = m.regs := (rfl)
@[simp] theorem Mach.setTe_stage (m : Mach) (n : Nat) (x : Te) : (m.setTe n x).stage = m.stage := (rfl)
@[simp] theorem Mach.setTe_free (m : Mach) (n : Nat) (x : Te) : (m.setTe n x).free = m.free := (rfl)
@[simp] theorem Mach.setTe_answer (m : Mach) (n : Nat) (x : Te) : (m.setTe n x).answer = m.answer := (rfl)
@[simp] theorem Mach.setTe_sys (m : Mach) (n : Nat) (x : Te) : (m.setTe n x).sys = m.sys := (rfl)
@[simp] theorem Mach.setTe_arm (m : Mach) (n : Nat) (x : Te) : (m.setTe n x).arm = m.arm := (rfl)
@[simp] theorem Mach.setTe_lc (m : Mach) (n : Nat) (x : Te) : (m.setTe n x).lc = m.lc := (rfl)
@[simp] theorem Mach.setTe_dsp (m : Mach) (n : Nat) (x : Te) : (m.setTe n x).dsp = m.dsp := (rfl)
@[simp] theorem Mach.setTe_chans (m : Mach) (n : Nat) (x : Te) : (m.setTe n x).chans = m.chans := (rfl)
@[simp] theorem Mach.setTe_mem (m : Mach) (n : Nat) (x : Te) : (m.setTe n x).mem = m.mem := (rfl)
@[simp] theorem Mach.setTe_nvm (m : Mach) (n : Nat) (x : Te) : (m.setTe n x).nvm = m.nvm := (rfl)
@[simp] theorem Mach.setTe_tim (m : Mach) (n : Nat) (x : Te) : (m.setTe n x).tim = m.tim := (rfl)
@[simp] theorem Mach.setTe_hif (m : Mach) (n : Nat) (x : Te) : (m.setTe n x).hif = m.hif := (rfl)
@[simp] theorem Mach.setTe_flt (m : Mach) (n : Nat) (x : Te) : (m.setTe n x).flt = m.flt := (rfl)
@[simp] theorem Mach.setTe_mrad (m : Mach) (n : Nat) (x : Te) : (m.setTe n x).mrad = m.mrad := (rfl)
@[simp] theorem Mach.setTe_mlink (m : Mach) (n : Nat) (x : Te) : (m.setTe n x).mlink = m.mlink := (rfl)
@[simp] theorem Mach.setTe_radios (m : Mach) (n : Nat) (x : Te) : (m.setTe n x).radios = m.radios := (rfl)
@[simp] theorem Mach.setTe_idbus (m : Mach) (n : Nat) (x : Te) : (m.setTe n x).idbus = m.idbus := (rfl)
@[simp] theorem Mach.setTe_bbs (m : Mach) (n : Nat) (x : Te) : (m.setTe n x).bbs = m.bbs := (rfl)
@[simp] theorem Mach.setTe_wmac (m : Mach) (n : Nat) (x : Te) : (m.setTe n x).wmac = m.wmac := (rfl)
@[simp] theorem Mach.setTe_asch (m : Mach) (n : Nat) (x : Te) : (m.setTe n x).asch = m.asch := (rfl)
@[simp] theorem Mach.setTe_rte (m : Mach) (n : Nat) (x : Te) : (m.setTe n x).rte = m.rte := (rfl)
@[simp] theorem Mach.setTe_upl (m : Mach) (n : Nat) (x : Te) : (m.setTe n x).upl = m.upl := (rfl)
@[simp] theorem Mach.setTe_chn (m : Mach) (n : Nat) (x : Te) : (m.setTe n x).chn = m.chn := (rfl)

/-! #### setDsp -/

@[simp] theorem Mach.setDsp_regs (m : Mach) (n : Nat) (x : DspTe) : (m.setDsp n x).regs = m.regs := (rfl)
@[simp] theorem Mach.setDsp_stage (m : Mach) (n : Nat) (x : DspTe) : (m.setDsp n x).stage = m.stage := (rfl)
@[simp] theorem Mach.setDsp_free (m : Mach) (n : Nat) (x : DspTe) : (m.setDsp n x).free = m.free := (rfl)
@[simp] theorem Mach.setDsp_answer (m : Mach) (n : Nat) (x : DspTe) : (m.setDsp n x).answer = m.answer := (rfl)
@[simp] theorem Mach.setDsp_sys (m : Mach) (n : Nat) (x : DspTe) : (m.setDsp n x).sys = m.sys := (rfl)
@[simp] theorem Mach.setDsp_arm (m : Mach) (n : Nat) (x : DspTe) : (m.setDsp n x).arm = m.arm := (rfl)
@[simp] theorem Mach.setDsp_te (m : Mach) (n : Nat) (x : DspTe) : (m.setDsp n x).te = m.te := (rfl)
@[simp] theorem Mach.setDsp_lc (m : Mach) (n : Nat) (x : DspTe) : (m.setDsp n x).lc = m.lc := (rfl)
@[simp] theorem Mach.setDsp_chans (m : Mach) (n : Nat) (x : DspTe) : (m.setDsp n x).chans = m.chans := (rfl)
@[simp] theorem Mach.setDsp_mem (m : Mach) (n : Nat) (x : DspTe) : (m.setDsp n x).mem = m.mem := (rfl)
@[simp] theorem Mach.setDsp_nvm (m : Mach) (n : Nat) (x : DspTe) : (m.setDsp n x).nvm = m.nvm := (rfl)
@[simp] theorem Mach.setDsp_tim (m : Mach) (n : Nat) (x : DspTe) : (m.setDsp n x).tim = m.tim := (rfl)
@[simp] theorem Mach.setDsp_hif (m : Mach) (n : Nat) (x : DspTe) : (m.setDsp n x).hif = m.hif := (rfl)
@[simp] theorem Mach.setDsp_flt (m : Mach) (n : Nat) (x : DspTe) : (m.setDsp n x).flt = m.flt := (rfl)
@[simp] theorem Mach.setDsp_mrad (m : Mach) (n : Nat) (x : DspTe) : (m.setDsp n x).mrad = m.mrad := (rfl)
@[simp] theorem Mach.setDsp_mlink (m : Mach) (n : Nat) (x : DspTe) : (m.setDsp n x).mlink = m.mlink := (rfl)
@[simp] theorem Mach.setDsp_radios (m : Mach) (n : Nat) (x : DspTe) : (m.setDsp n x).radios = m.radios := (rfl)
@[simp] theorem Mach.setDsp_idbus (m : Mach) (n : Nat) (x : DspTe) : (m.setDsp n x).idbus = m.idbus := (rfl)
@[simp] theorem Mach.setDsp_bbs (m : Mach) (n : Nat) (x : DspTe) : (m.setDsp n x).bbs = m.bbs := (rfl)
@[simp] theorem Mach.setDsp_wmac (m : Mach) (n : Nat) (x : DspTe) : (m.setDsp n x).wmac = m.wmac := (rfl)
@[simp] theorem Mach.setDsp_asch (m : Mach) (n : Nat) (x : DspTe) : (m.setDsp n x).asch = m.asch := (rfl)
@[simp] theorem Mach.setDsp_rte (m : Mach) (n : Nat) (x : DspTe) : (m.setDsp n x).rte = m.rte := (rfl)
@[simp] theorem Mach.setDsp_upl (m : Mach) (n : Nat) (x : DspTe) : (m.setDsp n x).upl = m.upl := (rfl)
@[simp] theorem Mach.setDsp_chn (m : Mach) (n : Nat) (x : DspTe) : (m.setDsp n x).chn = m.chn := (rfl)

/-! #### setChan -/

@[simp] theorem Mach.setChan_regs (m : Mach) (n : Nat) (x : Chan) : (m.setChan n x).regs = m.regs := (rfl)
@[simp] theorem Mach.setChan_stage (m : Mach) (n : Nat) (x : Chan) : (m.setChan n x).stage = m.stage := (rfl)
@[simp] theorem Mach.setChan_free (m : Mach) (n : Nat) (x : Chan) : (m.setChan n x).free = m.free := (rfl)
@[simp] theorem Mach.setChan_answer (m : Mach) (n : Nat) (x : Chan) : (m.setChan n x).answer = m.answer := (rfl)
@[simp] theorem Mach.setChan_sys (m : Mach) (n : Nat) (x : Chan) : (m.setChan n x).sys = m.sys := (rfl)
@[simp] theorem Mach.setChan_arm (m : Mach) (n : Nat) (x : Chan) : (m.setChan n x).arm = m.arm := (rfl)
@[simp] theorem Mach.setChan_te (m : Mach) (n : Nat) (x : Chan) : (m.setChan n x).te = m.te := (rfl)
@[simp] theorem Mach.setChan_lc (m : Mach) (n : Nat) (x : Chan) : (m.setChan n x).lc = m.lc := (rfl)
@[simp] theorem Mach.setChan_dsp (m : Mach) (n : Nat) (x : Chan) : (m.setChan n x).dsp = m.dsp := (rfl)
@[simp] theorem Mach.setChan_mem (m : Mach) (n : Nat) (x : Chan) : (m.setChan n x).mem = m.mem := (rfl)
@[simp] theorem Mach.setChan_nvm (m : Mach) (n : Nat) (x : Chan) : (m.setChan n x).nvm = m.nvm := (rfl)
@[simp] theorem Mach.setChan_tim (m : Mach) (n : Nat) (x : Chan) : (m.setChan n x).tim = m.tim := (rfl)
@[simp] theorem Mach.setChan_hif (m : Mach) (n : Nat) (x : Chan) : (m.setChan n x).hif = m.hif := (rfl)
@[simp] theorem Mach.setChan_flt (m : Mach) (n : Nat) (x : Chan) : (m.setChan n x).flt = m.flt := (rfl)
@[simp] theorem Mach.setChan_mrad (m : Mach) (n : Nat) (x : Chan) : (m.setChan n x).mrad = m.mrad := (rfl)
@[simp] theorem Mach.setChan_mlink (m : Mach) (n : Nat) (x : Chan) : (m.setChan n x).mlink = m.mlink := (rfl)
@[simp] theorem Mach.setChan_radios (m : Mach) (n : Nat) (x : Chan) : (m.setChan n x).radios = m.radios := (rfl)
@[simp] theorem Mach.setChan_idbus (m : Mach) (n : Nat) (x : Chan) : (m.setChan n x).idbus = m.idbus := (rfl)
@[simp] theorem Mach.setChan_bbs (m : Mach) (n : Nat) (x : Chan) : (m.setChan n x).bbs = m.bbs := (rfl)
@[simp] theorem Mach.setChan_wmac (m : Mach) (n : Nat) (x : Chan) : (m.setChan n x).wmac = m.wmac := (rfl)
@[simp] theorem Mach.setChan_asch (m : Mach) (n : Nat) (x : Chan) : (m.setChan n x).asch = m.asch := (rfl)
@[simp] theorem Mach.setChan_rte (m : Mach) (n : Nat) (x : Chan) : (m.setChan n x).rte = m.rte := (rfl)
@[simp] theorem Mach.setChan_upl (m : Mach) (n : Nat) (x : Chan) : (m.setChan n x).upl = m.upl := (rfl)
@[simp] theorem Mach.setChan_chn (m : Mach) (n : Nat) (x : Chan) : (m.setChan n x).chn = m.chn := (rfl)

/-! #### setRing -/

@[simp] theorem Mach.setRing_regs (m : Mach) (n : Nat) (x : Ring) : (m.setRing n x).regs = m.regs := (rfl)
@[simp] theorem Mach.setRing_stage (m : Mach) (n : Nat) (x : Ring) : (m.setRing n x).stage = m.stage := (rfl)
@[simp] theorem Mach.setRing_free (m : Mach) (n : Nat) (x : Ring) : (m.setRing n x).free = m.free := (rfl)
@[simp] theorem Mach.setRing_answer (m : Mach) (n : Nat) (x : Ring) : (m.setRing n x).answer = m.answer := (rfl)
@[simp] theorem Mach.setRing_sys (m : Mach) (n : Nat) (x : Ring) : (m.setRing n x).sys = m.sys := (rfl)
@[simp] theorem Mach.setRing_arm (m : Mach) (n : Nat) (x : Ring) : (m.setRing n x).arm = m.arm := (rfl)
@[simp] theorem Mach.setRing_te (m : Mach) (n : Nat) (x : Ring) : (m.setRing n x).te = m.te := (rfl)
@[simp] theorem Mach.setRing_lc (m : Mach) (n : Nat) (x : Ring) : (m.setRing n x).lc = m.lc := (rfl)
@[simp] theorem Mach.setRing_dsp (m : Mach) (n : Nat) (x : Ring) : (m.setRing n x).dsp = m.dsp := (rfl)
@[simp] theorem Mach.setRing_chans (m : Mach) (n : Nat) (x : Ring) : (m.setRing n x).chans = m.chans := (rfl)
@[simp] theorem Mach.setRing_mem (m : Mach) (n : Nat) (x : Ring) : (m.setRing n x).mem = m.mem := (rfl)
@[simp] theorem Mach.setRing_nvm (m : Mach) (n : Nat) (x : Ring) : (m.setRing n x).nvm = m.nvm := (rfl)
@[simp] theorem Mach.setRing_tim (m : Mach) (n : Nat) (x : Ring) : (m.setRing n x).tim = m.tim := (rfl)
@[simp] theorem Mach.setRing_flt (m : Mach) (n : Nat) (x : Ring) : (m.setRing n x).flt = m.flt := (rfl)
@[simp] theorem Mach.setRing_mrad (m : Mach) (n : Nat) (x : Ring) : (m.setRing n x).mrad = m.mrad := (rfl)
@[simp] theorem Mach.setRing_mlink (m : Mach) (n : Nat) (x : Ring) : (m.setRing n x).mlink = m.mlink := (rfl)
@[simp] theorem Mach.setRing_radios (m : Mach) (n : Nat) (x : Ring) : (m.setRing n x).radios = m.radios := (rfl)
@[simp] theorem Mach.setRing_idbus (m : Mach) (n : Nat) (x : Ring) : (m.setRing n x).idbus = m.idbus := (rfl)
@[simp] theorem Mach.setRing_bbs (m : Mach) (n : Nat) (x : Ring) : (m.setRing n x).bbs = m.bbs := (rfl)
@[simp] theorem Mach.setRing_wmac (m : Mach) (n : Nat) (x : Ring) : (m.setRing n x).wmac = m.wmac := (rfl)
@[simp] theorem Mach.setRing_asch (m : Mach) (n : Nat) (x : Ring) : (m.setRing n x).asch = m.asch := (rfl)
@[simp] theorem Mach.setRing_rte (m : Mach) (n : Nat) (x : Ring) : (m.setRing n x).rte = m.rte := (rfl)
@[simp] theorem Mach.setRing_upl (m : Mach) (n : Nat) (x : Ring) : (m.setRing n x).upl = m.upl := (rfl)
@[simp] theorem Mach.setRing_chn (m : Mach) (n : Nat) (x : Ring) : (m.setRing n x).chn = m.chn := (rfl)

/-! #### setBase -/

@[simp] theorem Mach.setBase_regs (m : Mach) (n : Nat) (x : Base) : (m.setBase n x).regs = m.regs := (rfl)
@[simp] theorem Mach.setBase_stage (m : Mach) (n : Nat) (x : Base) : (m.setBase n x).stage = m.stage := (rfl)
@[simp] theorem Mach.setBase_free (m : Mach) (n : Nat) (x : Base) : (m.setBase n x).free = m.free := (rfl)
@[simp] theorem Mach.setBase_answer (m : Mach) (n : Nat) (x : Base) : (m.setBase n x).answer = m.answer := (rfl)
@[simp] theorem Mach.setBase_sys (m : Mach) (n : Nat) (x : Base) : (m.setBase n x).sys = m.sys := (rfl)
@[simp] theorem Mach.setBase_arm (m : Mach) (n : Nat) (x : Base) : (m.setBase n x).arm = m.arm := (rfl)
@[simp] theorem Mach.setBase_te (m : Mach) (n : Nat) (x : Base) : (m.setBase n x).te = m.te := (rfl)
@[simp] theorem Mach.setBase_lc (m : Mach) (n : Nat) (x : Base) : (m.setBase n x).lc = m.lc := (rfl)
@[simp] theorem Mach.setBase_dsp (m : Mach) (n : Nat) (x : Base) : (m.setBase n x).dsp = m.dsp := (rfl)
@[simp] theorem Mach.setBase_chans (m : Mach) (n : Nat) (x : Base) : (m.setBase n x).chans = m.chans := (rfl)
@[simp] theorem Mach.setBase_mem (m : Mach) (n : Nat) (x : Base) : (m.setBase n x).mem = m.mem := (rfl)
@[simp] theorem Mach.setBase_nvm (m : Mach) (n : Nat) (x : Base) : (m.setBase n x).nvm = m.nvm := (rfl)
@[simp] theorem Mach.setBase_hif (m : Mach) (n : Nat) (x : Base) : (m.setBase n x).hif = m.hif := (rfl)
@[simp] theorem Mach.setBase_flt (m : Mach) (n : Nat) (x : Base) : (m.setBase n x).flt = m.flt := (rfl)
@[simp] theorem Mach.setBase_mrad (m : Mach) (n : Nat) (x : Base) : (m.setBase n x).mrad = m.mrad := (rfl)
@[simp] theorem Mach.setBase_mlink (m : Mach) (n : Nat) (x : Base) : (m.setBase n x).mlink = m.mlink := (rfl)
@[simp] theorem Mach.setBase_radios (m : Mach) (n : Nat) (x : Base) : (m.setBase n x).radios = m.radios := (rfl)
@[simp] theorem Mach.setBase_idbus (m : Mach) (n : Nat) (x : Base) : (m.setBase n x).idbus = m.idbus := (rfl)
@[simp] theorem Mach.setBase_bbs (m : Mach) (n : Nat) (x : Base) : (m.setBase n x).bbs = m.bbs := (rfl)
@[simp] theorem Mach.setBase_wmac (m : Mach) (n : Nat) (x : Base) : (m.setBase n x).wmac = m.wmac := (rfl)
@[simp] theorem Mach.setBase_asch (m : Mach) (n : Nat) (x : Base) : (m.setBase n x).asch = m.asch := (rfl)
@[simp] theorem Mach.setBase_rte (m : Mach) (n : Nat) (x : Base) : (m.setBase n x).rte = m.rte := (rfl)
@[simp] theorem Mach.setBase_upl (m : Mach) (n : Nat) (x : Base) : (m.setBase n x).upl = m.upl := (rfl)
@[simp] theorem Mach.setBase_chn (m : Mach) (n : Nat) (x : Base) : (m.setBase n x).chn = m.chn := (rfl)

/-! #### teMod -/

@[simp] theorem Mach.teMod_regs (m : Mach) (n : Nat) (f : Te → Te) : (m.teMod n f).regs = m.regs := (rfl)
@[simp] theorem Mach.teMod_stage (m : Mach) (n : Nat) (f : Te → Te) : (m.teMod n f).stage = m.stage := (rfl)
@[simp] theorem Mach.teMod_free (m : Mach) (n : Nat) (f : Te → Te) : (m.teMod n f).free = m.free := (rfl)
@[simp] theorem Mach.teMod_answer (m : Mach) (n : Nat) (f : Te → Te) : (m.teMod n f).answer = m.answer := (rfl)
@[simp] theorem Mach.teMod_sys (m : Mach) (n : Nat) (f : Te → Te) : (m.teMod n f).sys = m.sys := (rfl)
@[simp] theorem Mach.teMod_arm (m : Mach) (n : Nat) (f : Te → Te) : (m.teMod n f).arm = m.arm := (rfl)
@[simp] theorem Mach.teMod_lc (m : Mach) (n : Nat) (f : Te → Te) : (m.teMod n f).lc = m.lc := (rfl)
@[simp] theorem Mach.teMod_dsp (m : Mach) (n : Nat) (f : Te → Te) : (m.teMod n f).dsp = m.dsp := (rfl)
@[simp] theorem Mach.teMod_chans (m : Mach) (n : Nat) (f : Te → Te) : (m.teMod n f).chans = m.chans := (rfl)
@[simp] theorem Mach.teMod_mem (m : Mach) (n : Nat) (f : Te → Te) : (m.teMod n f).mem = m.mem := (rfl)
@[simp] theorem Mach.teMod_nvm (m : Mach) (n : Nat) (f : Te → Te) : (m.teMod n f).nvm = m.nvm := (rfl)
@[simp] theorem Mach.teMod_tim (m : Mach) (n : Nat) (f : Te → Te) : (m.teMod n f).tim = m.tim := (rfl)
@[simp] theorem Mach.teMod_hif (m : Mach) (n : Nat) (f : Te → Te) : (m.teMod n f).hif = m.hif := (rfl)
@[simp] theorem Mach.teMod_flt (m : Mach) (n : Nat) (f : Te → Te) : (m.teMod n f).flt = m.flt := (rfl)
@[simp] theorem Mach.teMod_mrad (m : Mach) (n : Nat) (f : Te → Te) : (m.teMod n f).mrad = m.mrad := (rfl)
@[simp] theorem Mach.teMod_mlink (m : Mach) (n : Nat) (f : Te → Te) : (m.teMod n f).mlink = m.mlink := (rfl)
@[simp] theorem Mach.teMod_radios (m : Mach) (n : Nat) (f : Te → Te) : (m.teMod n f).radios = m.radios := (rfl)
@[simp] theorem Mach.teMod_idbus (m : Mach) (n : Nat) (f : Te → Te) : (m.teMod n f).idbus = m.idbus := (rfl)
@[simp] theorem Mach.teMod_bbs (m : Mach) (n : Nat) (f : Te → Te) : (m.teMod n f).bbs = m.bbs := (rfl)
@[simp] theorem Mach.teMod_wmac (m : Mach) (n : Nat) (f : Te → Te) : (m.teMod n f).wmac = m.wmac := (rfl)
@[simp] theorem Mach.teMod_asch (m : Mach) (n : Nat) (f : Te → Te) : (m.teMod n f).asch = m.asch := (rfl)
@[simp] theorem Mach.teMod_rte (m : Mach) (n : Nat) (f : Te → Te) : (m.teMod n f).rte = m.rte := (rfl)
@[simp] theorem Mach.teMod_upl (m : Mach) (n : Nat) (f : Te → Te) : (m.teMod n f).upl = m.upl := (rfl)
@[simp] theorem Mach.teMod_chn (m : Mach) (n : Nat) (f : Te → Te) : (m.teMod n f).chn = m.chn := (rfl)

/-! #### dspMod -/

@[simp] theorem Mach.dspMod_regs (m : Mach) (n : Nat) (f : DspTe → DspTe) : (m.dspMod n f).regs = m.regs := (rfl)
@[simp] theorem Mach.dspMod_stage (m : Mach) (n : Nat) (f : DspTe → DspTe) : (m.dspMod n f).stage = m.stage := (rfl)
@[simp] theorem Mach.dspMod_free (m : Mach) (n : Nat) (f : DspTe → DspTe) : (m.dspMod n f).free = m.free := (rfl)
@[simp] theorem Mach.dspMod_answer (m : Mach) (n : Nat) (f : DspTe → DspTe) : (m.dspMod n f).answer = m.answer := (rfl)
@[simp] theorem Mach.dspMod_sys (m : Mach) (n : Nat) (f : DspTe → DspTe) : (m.dspMod n f).sys = m.sys := (rfl)
@[simp] theorem Mach.dspMod_arm (m : Mach) (n : Nat) (f : DspTe → DspTe) : (m.dspMod n f).arm = m.arm := (rfl)
@[simp] theorem Mach.dspMod_te (m : Mach) (n : Nat) (f : DspTe → DspTe) : (m.dspMod n f).te = m.te := (rfl)
@[simp] theorem Mach.dspMod_lc (m : Mach) (n : Nat) (f : DspTe → DspTe) : (m.dspMod n f).lc = m.lc := (rfl)
@[simp] theorem Mach.dspMod_chans (m : Mach) (n : Nat) (f : DspTe → DspTe) : (m.dspMod n f).chans = m.chans := (rfl)
@[simp] theorem Mach.dspMod_mem (m : Mach) (n : Nat) (f : DspTe → DspTe) : (m.dspMod n f).mem = m.mem := (rfl)
@[simp] theorem Mach.dspMod_nvm (m : Mach) (n : Nat) (f : DspTe → DspTe) : (m.dspMod n f).nvm = m.nvm := (rfl)
@[simp] theorem Mach.dspMod_tim (m : Mach) (n : Nat) (f : DspTe → DspTe) : (m.dspMod n f).tim = m.tim := (rfl)
@[simp] theorem Mach.dspMod_hif (m : Mach) (n : Nat) (f : DspTe → DspTe) : (m.dspMod n f).hif = m.hif := (rfl)
@[simp] theorem Mach.dspMod_flt (m : Mach) (n : Nat) (f : DspTe → DspTe) : (m.dspMod n f).flt = m.flt := (rfl)
@[simp] theorem Mach.dspMod_mrad (m : Mach) (n : Nat) (f : DspTe → DspTe) : (m.dspMod n f).mrad = m.mrad := (rfl)
@[simp] theorem Mach.dspMod_mlink (m : Mach) (n : Nat) (f : DspTe → DspTe) : (m.dspMod n f).mlink = m.mlink := (rfl)
@[simp] theorem Mach.dspMod_radios (m : Mach) (n : Nat) (f : DspTe → DspTe) : (m.dspMod n f).radios = m.radios := (rfl)
@[simp] theorem Mach.dspMod_idbus (m : Mach) (n : Nat) (f : DspTe → DspTe) : (m.dspMod n f).idbus = m.idbus := (rfl)
@[simp] theorem Mach.dspMod_bbs (m : Mach) (n : Nat) (f : DspTe → DspTe) : (m.dspMod n f).bbs = m.bbs := (rfl)
@[simp] theorem Mach.dspMod_wmac (m : Mach) (n : Nat) (f : DspTe → DspTe) : (m.dspMod n f).wmac = m.wmac := (rfl)
@[simp] theorem Mach.dspMod_asch (m : Mach) (n : Nat) (f : DspTe → DspTe) : (m.dspMod n f).asch = m.asch := (rfl)
@[simp] theorem Mach.dspMod_rte (m : Mach) (n : Nat) (f : DspTe → DspTe) : (m.dspMod n f).rte = m.rte := (rfl)
@[simp] theorem Mach.dspMod_upl (m : Mach) (n : Nat) (f : DspTe → DspTe) : (m.dspMod n f).upl = m.upl := (rfl)
@[simp] theorem Mach.dspMod_chn (m : Mach) (n : Nat) (f : DspTe → DspTe) : (m.dspMod n f).chn = m.chn := (rfl)

/-! #### radioMod -/

@[simp] theorem Mach.radioMod_regs (m : Mach) (n : Nat) (f : Radio → Radio) : (m.radioMod n f).regs = m.regs := (rfl)
@[simp] theorem Mach.radioMod_stage (m : Mach) (n : Nat) (f : Radio → Radio) : (m.radioMod n f).stage = m.stage := (rfl)
@[simp] theorem Mach.radioMod_free (m : Mach) (n : Nat) (f : Radio → Radio) : (m.radioMod n f).free = m.free := (rfl)
@[simp] theorem Mach.radioMod_answer (m : Mach) (n : Nat) (f : Radio → Radio) : (m.radioMod n f).answer = m.answer := (rfl)
@[simp] theorem Mach.radioMod_sys (m : Mach) (n : Nat) (f : Radio → Radio) : (m.radioMod n f).sys = m.sys := (rfl)
@[simp] theorem Mach.radioMod_arm (m : Mach) (n : Nat) (f : Radio → Radio) : (m.radioMod n f).arm = m.arm := (rfl)
@[simp] theorem Mach.radioMod_te (m : Mach) (n : Nat) (f : Radio → Radio) : (m.radioMod n f).te = m.te := (rfl)
@[simp] theorem Mach.radioMod_lc (m : Mach) (n : Nat) (f : Radio → Radio) : (m.radioMod n f).lc = m.lc := (rfl)
@[simp] theorem Mach.radioMod_dsp (m : Mach) (n : Nat) (f : Radio → Radio) : (m.radioMod n f).dsp = m.dsp := (rfl)
@[simp] theorem Mach.radioMod_chans (m : Mach) (n : Nat) (f : Radio → Radio) : (m.radioMod n f).chans = m.chans := (rfl)
@[simp] theorem Mach.radioMod_mem (m : Mach) (n : Nat) (f : Radio → Radio) : (m.radioMod n f).mem = m.mem := (rfl)
@[simp] theorem Mach.radioMod_nvm (m : Mach) (n : Nat) (f : Radio → Radio) : (m.radioMod n f).nvm = m.nvm := (rfl)
@[simp] theorem Mach.radioMod_tim (m : Mach) (n : Nat) (f : Radio → Radio) : (m.radioMod n f).tim = m.tim := (rfl)
@[simp] theorem Mach.radioMod_hif (m : Mach) (n : Nat) (f : Radio → Radio) : (m.radioMod n f).hif = m.hif := (rfl)
@[simp] theorem Mach.radioMod_flt (m : Mach) (n : Nat) (f : Radio → Radio) : (m.radioMod n f).flt = m.flt := (rfl)
@[simp] theorem Mach.radioMod_mrad (m : Mach) (n : Nat) (f : Radio → Radio) : (m.radioMod n f).mrad = m.mrad := (rfl)
@[simp] theorem Mach.radioMod_mlink (m : Mach) (n : Nat) (f : Radio → Radio) : (m.radioMod n f).mlink = m.mlink := (rfl)
@[simp] theorem Mach.radioMod_idbus (m : Mach) (n : Nat) (f : Radio → Radio) : (m.radioMod n f).idbus = m.idbus := (rfl)
@[simp] theorem Mach.radioMod_bbs (m : Mach) (n : Nat) (f : Radio → Radio) : (m.radioMod n f).bbs = m.bbs := (rfl)
@[simp] theorem Mach.radioMod_wmac (m : Mach) (n : Nat) (f : Radio → Radio) : (m.radioMod n f).wmac = m.wmac := (rfl)
@[simp] theorem Mach.radioMod_asch (m : Mach) (n : Nat) (f : Radio → Radio) : (m.radioMod n f).asch = m.asch := (rfl)
@[simp] theorem Mach.radioMod_rte (m : Mach) (n : Nat) (f : Radio → Radio) : (m.radioMod n f).rte = m.rte := (rfl)
@[simp] theorem Mach.radioMod_upl (m : Mach) (n : Nat) (f : Radio → Radio) : (m.radioMod n f).upl = m.upl := (rfl)
@[simp] theorem Mach.radioMod_chn (m : Mach) (n : Nat) (f : Radio → Radio) : (m.radioMod n f).chn = m.chn := (rfl)

/-! #### busMod -/

@[simp] theorem Mach.busMod_regs (m : Mach) (n : Nat) (f : IdBus → IdBus) : (m.busMod n f).regs = m.regs := (rfl)
@[simp] theorem Mach.busMod_stage (m : Mach) (n : Nat) (f : IdBus → IdBus) : (m.busMod n f).stage = m.stage := (rfl)
@[simp] theorem Mach.busMod_free (m : Mach) (n : Nat) (f : IdBus → IdBus) : (m.busMod n f).free = m.free := (rfl)
@[simp] theorem Mach.busMod_answer (m : Mach) (n : Nat) (f : IdBus → IdBus) : (m.busMod n f).answer = m.answer := (rfl)
@[simp] theorem Mach.busMod_sys (m : Mach) (n : Nat) (f : IdBus → IdBus) : (m.busMod n f).sys = m.sys := (rfl)
@[simp] theorem Mach.busMod_arm (m : Mach) (n : Nat) (f : IdBus → IdBus) : (m.busMod n f).arm = m.arm := (rfl)
@[simp] theorem Mach.busMod_te (m : Mach) (n : Nat) (f : IdBus → IdBus) : (m.busMod n f).te = m.te := (rfl)
@[simp] theorem Mach.busMod_lc (m : Mach) (n : Nat) (f : IdBus → IdBus) : (m.busMod n f).lc = m.lc := (rfl)
@[simp] theorem Mach.busMod_dsp (m : Mach) (n : Nat) (f : IdBus → IdBus) : (m.busMod n f).dsp = m.dsp := (rfl)
@[simp] theorem Mach.busMod_chans (m : Mach) (n : Nat) (f : IdBus → IdBus) : (m.busMod n f).chans = m.chans := (rfl)
@[simp] theorem Mach.busMod_mem (m : Mach) (n : Nat) (f : IdBus → IdBus) : (m.busMod n f).mem = m.mem := (rfl)
@[simp] theorem Mach.busMod_nvm (m : Mach) (n : Nat) (f : IdBus → IdBus) : (m.busMod n f).nvm = m.nvm := (rfl)
@[simp] theorem Mach.busMod_tim (m : Mach) (n : Nat) (f : IdBus → IdBus) : (m.busMod n f).tim = m.tim := (rfl)
@[simp] theorem Mach.busMod_hif (m : Mach) (n : Nat) (f : IdBus → IdBus) : (m.busMod n f).hif = m.hif := (rfl)
@[simp] theorem Mach.busMod_flt (m : Mach) (n : Nat) (f : IdBus → IdBus) : (m.busMod n f).flt = m.flt := (rfl)
@[simp] theorem Mach.busMod_mrad (m : Mach) (n : Nat) (f : IdBus → IdBus) : (m.busMod n f).mrad = m.mrad := (rfl)
@[simp] theorem Mach.busMod_mlink (m : Mach) (n : Nat) (f : IdBus → IdBus) : (m.busMod n f).mlink = m.mlink := (rfl)
@[simp] theorem Mach.busMod_radios (m : Mach) (n : Nat) (f : IdBus → IdBus) : (m.busMod n f).radios = m.radios := (rfl)
@[simp] theorem Mach.busMod_bbs (m : Mach) (n : Nat) (f : IdBus → IdBus) : (m.busMod n f).bbs = m.bbs := (rfl)
@[simp] theorem Mach.busMod_wmac (m : Mach) (n : Nat) (f : IdBus → IdBus) : (m.busMod n f).wmac = m.wmac := (rfl)
@[simp] theorem Mach.busMod_asch (m : Mach) (n : Nat) (f : IdBus → IdBus) : (m.busMod n f).asch = m.asch := (rfl)
@[simp] theorem Mach.busMod_rte (m : Mach) (n : Nat) (f : IdBus → IdBus) : (m.busMod n f).rte = m.rte := (rfl)
@[simp] theorem Mach.busMod_upl (m : Mach) (n : Nat) (f : IdBus → IdBus) : (m.busMod n f).upl = m.upl := (rfl)
@[simp] theorem Mach.busMod_chn (m : Mach) (n : Nat) (f : IdBus → IdBus) : (m.busMod n f).chn = m.chn := (rfl)

/-! #### bbMod -/

@[simp] theorem Mach.bbMod_regs (m : Mach) (n : Nat) (f : Bb → Bb) : (m.bbMod n f).regs = m.regs := (rfl)
@[simp] theorem Mach.bbMod_stage (m : Mach) (n : Nat) (f : Bb → Bb) : (m.bbMod n f).stage = m.stage := (rfl)
@[simp] theorem Mach.bbMod_free (m : Mach) (n : Nat) (f : Bb → Bb) : (m.bbMod n f).free = m.free := (rfl)
@[simp] theorem Mach.bbMod_answer (m : Mach) (n : Nat) (f : Bb → Bb) : (m.bbMod n f).answer = m.answer := (rfl)
@[simp] theorem Mach.bbMod_sys (m : Mach) (n : Nat) (f : Bb → Bb) : (m.bbMod n f).sys = m.sys := (rfl)
@[simp] theorem Mach.bbMod_arm (m : Mach) (n : Nat) (f : Bb → Bb) : (m.bbMod n f).arm = m.arm := (rfl)
@[simp] theorem Mach.bbMod_te (m : Mach) (n : Nat) (f : Bb → Bb) : (m.bbMod n f).te = m.te := (rfl)
@[simp] theorem Mach.bbMod_lc (m : Mach) (n : Nat) (f : Bb → Bb) : (m.bbMod n f).lc = m.lc := (rfl)
@[simp] theorem Mach.bbMod_dsp (m : Mach) (n : Nat) (f : Bb → Bb) : (m.bbMod n f).dsp = m.dsp := (rfl)
@[simp] theorem Mach.bbMod_chans (m : Mach) (n : Nat) (f : Bb → Bb) : (m.bbMod n f).chans = m.chans := (rfl)
@[simp] theorem Mach.bbMod_mem (m : Mach) (n : Nat) (f : Bb → Bb) : (m.bbMod n f).mem = m.mem := (rfl)
@[simp] theorem Mach.bbMod_nvm (m : Mach) (n : Nat) (f : Bb → Bb) : (m.bbMod n f).nvm = m.nvm := (rfl)
@[simp] theorem Mach.bbMod_tim (m : Mach) (n : Nat) (f : Bb → Bb) : (m.bbMod n f).tim = m.tim := (rfl)
@[simp] theorem Mach.bbMod_hif (m : Mach) (n : Nat) (f : Bb → Bb) : (m.bbMod n f).hif = m.hif := (rfl)
@[simp] theorem Mach.bbMod_flt (m : Mach) (n : Nat) (f : Bb → Bb) : (m.bbMod n f).flt = m.flt := (rfl)
@[simp] theorem Mach.bbMod_mrad (m : Mach) (n : Nat) (f : Bb → Bb) : (m.bbMod n f).mrad = m.mrad := (rfl)
@[simp] theorem Mach.bbMod_mlink (m : Mach) (n : Nat) (f : Bb → Bb) : (m.bbMod n f).mlink = m.mlink := (rfl)
@[simp] theorem Mach.bbMod_radios (m : Mach) (n : Nat) (f : Bb → Bb) : (m.bbMod n f).radios = m.radios := (rfl)
@[simp] theorem Mach.bbMod_idbus (m : Mach) (n : Nat) (f : Bb → Bb) : (m.bbMod n f).idbus = m.idbus := (rfl)
@[simp] theorem Mach.bbMod_wmac (m : Mach) (n : Nat) (f : Bb → Bb) : (m.bbMod n f).wmac = m.wmac := (rfl)
@[simp] theorem Mach.bbMod_asch (m : Mach) (n : Nat) (f : Bb → Bb) : (m.bbMod n f).asch = m.asch := (rfl)
@[simp] theorem Mach.bbMod_rte (m : Mach) (n : Nat) (f : Bb → Bb) : (m.bbMod n f).rte = m.rte := (rfl)
@[simp] theorem Mach.bbMod_upl (m : Mach) (n : Nat) (f : Bb → Bb) : (m.bbMod n f).upl = m.upl := (rfl)
@[simp] theorem Mach.bbMod_chn (m : Mach) (n : Nat) (f : Bb → Bb) : (m.bbMod n f).chn = m.chn := (rfl)

/-! #### portMod -/

@[simp] theorem Mach.portMod_regs (m : Mach) (n : Nat) (f : UPort → UPort) : (m.portMod n f).regs = m.regs := (rfl)
@[simp] theorem Mach.portMod_stage (m : Mach) (n : Nat) (f : UPort → UPort) : (m.portMod n f).stage = m.stage := (rfl)
@[simp] theorem Mach.portMod_free (m : Mach) (n : Nat) (f : UPort → UPort) : (m.portMod n f).free = m.free := (rfl)
@[simp] theorem Mach.portMod_answer (m : Mach) (n : Nat) (f : UPort → UPort) : (m.portMod n f).answer = m.answer := (rfl)
@[simp] theorem Mach.portMod_sys (m : Mach) (n : Nat) (f : UPort → UPort) : (m.portMod n f).sys = m.sys := (rfl)
@[simp] theorem Mach.portMod_arm (m : Mach) (n : Nat) (f : UPort → UPort) : (m.portMod n f).arm = m.arm := (rfl)
@[simp] theorem Mach.portMod_te (m : Mach) (n : Nat) (f : UPort → UPort) : (m.portMod n f).te = m.te := (rfl)
@[simp] theorem Mach.portMod_lc (m : Mach) (n : Nat) (f : UPort → UPort) : (m.portMod n f).lc = m.lc := (rfl)
@[simp] theorem Mach.portMod_dsp (m : Mach) (n : Nat) (f : UPort → UPort) : (m.portMod n f).dsp = m.dsp := (rfl)
@[simp] theorem Mach.portMod_chans (m : Mach) (n : Nat) (f : UPort → UPort) : (m.portMod n f).chans = m.chans := (rfl)
@[simp] theorem Mach.portMod_mem (m : Mach) (n : Nat) (f : UPort → UPort) : (m.portMod n f).mem = m.mem := (rfl)
@[simp] theorem Mach.portMod_nvm (m : Mach) (n : Nat) (f : UPort → UPort) : (m.portMod n f).nvm = m.nvm := (rfl)
@[simp] theorem Mach.portMod_tim (m : Mach) (n : Nat) (f : UPort → UPort) : (m.portMod n f).tim = m.tim := (rfl)
@[simp] theorem Mach.portMod_hif (m : Mach) (n : Nat) (f : UPort → UPort) : (m.portMod n f).hif = m.hif := (rfl)
@[simp] theorem Mach.portMod_flt (m : Mach) (n : Nat) (f : UPort → UPort) : (m.portMod n f).flt = m.flt := (rfl)
@[simp] theorem Mach.portMod_mrad (m : Mach) (n : Nat) (f : UPort → UPort) : (m.portMod n f).mrad = m.mrad := (rfl)
@[simp] theorem Mach.portMod_mlink (m : Mach) (n : Nat) (f : UPort → UPort) : (m.portMod n f).mlink = m.mlink := (rfl)
@[simp] theorem Mach.portMod_radios (m : Mach) (n : Nat) (f : UPort → UPort) : (m.portMod n f).radios = m.radios := (rfl)
@[simp] theorem Mach.portMod_idbus (m : Mach) (n : Nat) (f : UPort → UPort) : (m.portMod n f).idbus = m.idbus := (rfl)
@[simp] theorem Mach.portMod_bbs (m : Mach) (n : Nat) (f : UPort → UPort) : (m.portMod n f).bbs = m.bbs := (rfl)
@[simp] theorem Mach.portMod_wmac (m : Mach) (n : Nat) (f : UPort → UPort) : (m.portMod n f).wmac = m.wmac := (rfl)
@[simp] theorem Mach.portMod_asch (m : Mach) (n : Nat) (f : UPort → UPort) : (m.portMod n f).asch = m.asch := (rfl)
@[simp] theorem Mach.portMod_rte (m : Mach) (n : Nat) (f : UPort → UPort) : (m.portMod n f).rte = m.rte := (rfl)
@[simp] theorem Mach.portMod_chn (m : Mach) (n : Nat) (f : UPort → UPort) : (m.portMod n f).chn = m.chn := (rfl)

/-! #### sqMod -/

@[simp] theorem Mach.sqMod_regs (m : Mach) (n : Nat) (f : Seq → Seq) : (m.sqMod n f).regs = m.regs := (rfl)
@[simp] theorem Mach.sqMod_stage (m : Mach) (n : Nat) (f : Seq → Seq) : (m.sqMod n f).stage = m.stage := (rfl)
@[simp] theorem Mach.sqMod_free (m : Mach) (n : Nat) (f : Seq → Seq) : (m.sqMod n f).free = m.free := (rfl)
@[simp] theorem Mach.sqMod_answer (m : Mach) (n : Nat) (f : Seq → Seq) : (m.sqMod n f).answer = m.answer := (rfl)
@[simp] theorem Mach.sqMod_sys (m : Mach) (n : Nat) (f : Seq → Seq) : (m.sqMod n f).sys = m.sys := (rfl)
@[simp] theorem Mach.sqMod_arm (m : Mach) (n : Nat) (f : Seq → Seq) : (m.sqMod n f).arm = m.arm := (rfl)
@[simp] theorem Mach.sqMod_te (m : Mach) (n : Nat) (f : Seq → Seq) : (m.sqMod n f).te = m.te := (rfl)
@[simp] theorem Mach.sqMod_lc (m : Mach) (n : Nat) (f : Seq → Seq) : (m.sqMod n f).lc = m.lc := (rfl)
@[simp] theorem Mach.sqMod_dsp (m : Mach) (n : Nat) (f : Seq → Seq) : (m.sqMod n f).dsp = m.dsp := (rfl)
@[simp] theorem Mach.sqMod_chans (m : Mach) (n : Nat) (f : Seq → Seq) : (m.sqMod n f).chans = m.chans := (rfl)
@[simp] theorem Mach.sqMod_mem (m : Mach) (n : Nat) (f : Seq → Seq) : (m.sqMod n f).mem = m.mem := (rfl)
@[simp] theorem Mach.sqMod_nvm (m : Mach) (n : Nat) (f : Seq → Seq) : (m.sqMod n f).nvm = m.nvm := (rfl)
@[simp] theorem Mach.sqMod_tim (m : Mach) (n : Nat) (f : Seq → Seq) : (m.sqMod n f).tim = m.tim := (rfl)
@[simp] theorem Mach.sqMod_hif (m : Mach) (n : Nat) (f : Seq → Seq) : (m.sqMod n f).hif = m.hif := (rfl)
@[simp] theorem Mach.sqMod_flt (m : Mach) (n : Nat) (f : Seq → Seq) : (m.sqMod n f).flt = m.flt := (rfl)
@[simp] theorem Mach.sqMod_mrad (m : Mach) (n : Nat) (f : Seq → Seq) : (m.sqMod n f).mrad = m.mrad := (rfl)
@[simp] theorem Mach.sqMod_mlink (m : Mach) (n : Nat) (f : Seq → Seq) : (m.sqMod n f).mlink = m.mlink := (rfl)
@[simp] theorem Mach.sqMod_radios (m : Mach) (n : Nat) (f : Seq → Seq) : (m.sqMod n f).radios = m.radios := (rfl)
@[simp] theorem Mach.sqMod_idbus (m : Mach) (n : Nat) (f : Seq → Seq) : (m.sqMod n f).idbus = m.idbus := (rfl)
@[simp] theorem Mach.sqMod_bbs (m : Mach) (n : Nat) (f : Seq → Seq) : (m.sqMod n f).bbs = m.bbs := (rfl)
@[simp] theorem Mach.sqMod_asch (m : Mach) (n : Nat) (f : Seq → Seq) : (m.sqMod n f).asch = m.asch := (rfl)
@[simp] theorem Mach.sqMod_rte (m : Mach) (n : Nat) (f : Seq → Seq) : (m.sqMod n f).rte = m.rte := (rfl)
@[simp] theorem Mach.sqMod_upl (m : Mach) (n : Nat) (f : Seq → Seq) : (m.sqMod n f).upl = m.upl := (rfl)
@[simp] theorem Mach.sqMod_chn (m : Mach) (n : Nat) (f : Seq → Seq) : (m.sqMod n f).chn = m.chn := (rfl)

@[simp] theorem Mach.sysMod_self (m : Mach) (f : SysSt → SysSt) : (m.sysMod f).sys = f m.sys := (rfl)
@[simp] theorem Mach.armMod_self (m : Mach) (f : ArmSt → ArmSt) : (m.armMod f).arm = f m.arm := (rfl)
@[simp] theorem Mach.memMod_self (m : Mach) (f : MemSt → MemSt) : (m.memMod f).mem = f m.mem := (rfl)
@[simp] theorem Mach.nvmMod_self (m : Mach) (f : NvmSt → NvmSt) : (m.nvmMod f).nvm = f m.nvm := (rfl)
@[simp] theorem Mach.timMod_self (m : Mach) (f : TimSt → TimSt) : (m.timMod f).tim = f m.tim := (rfl)
@[simp] theorem Mach.hifMod_self (m : Mach) (f : HifSt → HifSt) : (m.hifMod f).hif = f m.hif := (rfl)
@[simp] theorem Mach.fltMod_self (m : Mach) (f : FltSt → FltSt) : (m.fltMod f).flt = f m.flt := (rfl)
@[simp] theorem Mach.chnMod_self (m : Mach) (f : ChnSt → ChnSt) : (m.chnMod f).chn = f m.chn := (rfl)
@[simp] theorem Mach.lcMod_self (m : Mach) (f : Lc → Lc) : (m.lcMod f).lc = f m.lc := (rfl)
@[simp] theorem Mach.mradMod_self (m : Mach) (f : MeshRadio → MeshRadio) : (m.mradMod f).mrad = f m.mrad := (rfl)
@[simp] theorem Mach.mlinkMod_self (m : Mach) (f : MeshLink → MeshLink) : (m.mlinkMod f).mlink = f m.mlink := (rfl)
@[simp] theorem Mach.wmacMod_self (m : Mach) (f : Wmac → Wmac) : (m.wmacMod f).wmac = f m.wmac := (rfl)
@[simp] theorem Mach.aschMod_self (m : Mach) (f : Asch → Asch) : (m.aschMod f).asch = f m.asch := (rfl)
@[simp] theorem Mach.rteMod_self (m : Mach) (f : Rte → Rte) : (m.rteMod f).rte = f m.rte := (rfl)
@[simp] theorem Mach.reg_setAnswer (m : Mach) (v : W32) (i : Nat) : (m.setAnswer v).reg i = m.reg i := (rfl)
@[simp] theorem Mach.rd_setAnswer (m : Mach) (v : W32) (i : Nat) (g : Fld) : (m.setAnswer v).rd i g = m.rd i g := (rfl)
@[simp] theorem Mach.reg_stageMod (m : Mach) (f : Tab W32 → Tab W32) (i : Nat) : (m.stageMod f).reg i = m.reg i := (rfl)
@[simp] theorem Mach.rd_stageMod (m : Mach) (f : Tab W32 → Tab W32) (i : Nat) (g : Fld) : (m.stageMod f).rd i g = m.rd i g := (rfl)
@[simp] theorem Mach.reg_sysMod (m : Mach) (f : SysSt → SysSt) (i : Nat) : (m.sysMod f).reg i = m.reg i := (rfl)
@[simp] theorem Mach.rd_sysMod (m : Mach) (f : SysSt → SysSt) (i : Nat) (g : Fld) : (m.sysMod f).rd i g = m.rd i g := (rfl)
@[simp] theorem Mach.reg_armMod (m : Mach) (f : ArmSt → ArmSt) (i : Nat) : (m.armMod f).reg i = m.reg i := (rfl)
@[simp] theorem Mach.rd_armMod (m : Mach) (f : ArmSt → ArmSt) (i : Nat) (g : Fld) : (m.armMod f).rd i g = m.rd i g := (rfl)
@[simp] theorem Mach.reg_memMod (m : Mach) (f : MemSt → MemSt) (i : Nat) : (m.memMod f).reg i = m.reg i := (rfl)
@[simp] theorem Mach.rd_memMod (m : Mach) (f : MemSt → MemSt) (i : Nat) (g : Fld) : (m.memMod f).rd i g = m.rd i g := (rfl)
@[simp] theorem Mach.reg_nvmMod (m : Mach) (f : NvmSt → NvmSt) (i : Nat) : (m.nvmMod f).reg i = m.reg i := (rfl)
@[simp] theorem Mach.rd_nvmMod (m : Mach) (f : NvmSt → NvmSt) (i : Nat) (g : Fld) : (m.nvmMod f).rd i g = m.rd i g := (rfl)
@[simp] theorem Mach.reg_timMod (m : Mach) (f : TimSt → TimSt) (i : Nat) : (m.timMod f).reg i = m.reg i := (rfl)
@[simp] theorem Mach.rd_timMod (m : Mach) (f : TimSt → TimSt) (i : Nat) (g : Fld) : (m.timMod f).rd i g = m.rd i g := (rfl)
@[simp] theorem Mach.reg_hifMod (m : Mach) (f : HifSt → HifSt) (i : Nat) : (m.hifMod f).reg i = m.reg i := (rfl)
@[simp] theorem Mach.rd_hifMod (m : Mach) (f : HifSt → HifSt) (i : Nat) (g : Fld) : (m.hifMod f).rd i g = m.rd i g := (rfl)
@[simp] theorem Mach.reg_fltMod (m : Mach) (f : FltSt → FltSt) (i : Nat) : (m.fltMod f).reg i = m.reg i := (rfl)
@[simp] theorem Mach.rd_fltMod (m : Mach) (f : FltSt → FltSt) (i : Nat) (g : Fld) : (m.fltMod f).rd i g = m.rd i g := (rfl)
@[simp] theorem Mach.reg_chnMod (m : Mach) (f : ChnSt → ChnSt) (i : Nat) : (m.chnMod f).reg i = m.reg i := (rfl)
@[simp] theorem Mach.rd_chnMod (m : Mach) (f : ChnSt → ChnSt) (i : Nat) (g : Fld) : (m.chnMod f).rd i g = m.rd i g := (rfl)
@[simp] theorem Mach.reg_lcMod (m : Mach) (f : Lc → Lc) (i : Nat) : (m.lcMod f).reg i = m.reg i := (rfl)
@[simp] theorem Mach.rd_lcMod (m : Mach) (f : Lc → Lc) (i : Nat) (g : Fld) : (m.lcMod f).rd i g = m.rd i g := (rfl)
@[simp] theorem Mach.reg_mradMod (m : Mach) (f : MeshRadio → MeshRadio) (i : Nat) : (m.mradMod f).reg i = m.reg i := (rfl)
@[simp] theorem Mach.rd_mradMod (m : Mach) (f : MeshRadio → MeshRadio) (i : Nat) (g : Fld) : (m.mradMod f).rd i g = m.rd i g := (rfl)
@[simp] theorem Mach.reg_mlinkMod (m : Mach) (f : MeshLink → MeshLink) (i : Nat) : (m.mlinkMod f).reg i = m.reg i := (rfl)
@[simp] theorem Mach.rd_mlinkMod (m : Mach) (f : MeshLink → MeshLink) (i : Nat) (g : Fld) : (m.mlinkMod f).rd i g = m.rd i g := (rfl)
@[simp] theorem Mach.reg_wmacMod (m : Mach) (f : Wmac → Wmac) (i : Nat) : (m.wmacMod f).reg i = m.reg i := (rfl)
@[simp] theorem Mach.rd_wmacMod (m : Mach) (f : Wmac → Wmac) (i : Nat) (g : Fld) : (m.wmacMod f).rd i g = m.rd i g := (rfl)
@[simp] theorem Mach.reg_aschMod (m : Mach) (f : Asch → Asch) (i : Nat) : (m.aschMod f).reg i = m.reg i := (rfl)
@[simp] theorem Mach.rd_aschMod (m : Mach) (f : Asch → Asch) (i : Nat) (g : Fld) : (m.aschMod f).rd i g = m.rd i g := (rfl)
@[simp] theorem Mach.reg_rteMod (m : Mach) (f : Rte → Rte) (i : Nat) : (m.rteMod f).reg i = m.reg i := (rfl)
@[simp] theorem Mach.rd_rteMod (m : Mach) (f : Rte → Rte) (i : Nat) (g : Fld) : (m.rteMod f).rd i g = m.rd i g := (rfl)
@[simp] theorem Mach.reg_setTe (m : Mach) (n : Nat) (x : Te) (i : Nat) : (m.setTe n x).reg i = m.reg i := (rfl)
@[simp] theorem Mach.rd_setTe (m : Mach) (n : Nat) (x : Te) (i : Nat) (g : Fld) : (m.setTe n x).rd i g = m.rd i g := (rfl)
@[simp] theorem Mach.reg_setDsp (m : Mach) (n : Nat) (x : DspTe) (i : Nat) : (m.setDsp n x).reg i = m.reg i := (rfl)
@[simp] theorem Mach.rd_setDsp (m : Mach) (n : Nat) (x : DspTe) (i : Nat) (g : Fld) : (m.setDsp n x).rd i g = m.rd i g := (rfl)
@[simp] theorem Mach.reg_setChan (m : Mach) (n : Nat) (x : Chan) (i : Nat) : (m.setChan n x).reg i = m.reg i := (rfl)
@[simp] theorem Mach.rd_setChan (m : Mach) (n : Nat) (x : Chan) (i : Nat) (g : Fld) : (m.setChan n x).rd i g = m.rd i g := (rfl)
@[simp] theorem Mach.reg_setRing (m : Mach) (n : Nat) (x : Ring) (i : Nat) : (m.setRing n x).reg i = m.reg i := (rfl)
@[simp] theorem Mach.rd_setRing (m : Mach) (n : Nat) (x : Ring) (i : Nat) (g : Fld) : (m.setRing n x).rd i g = m.rd i g := (rfl)
@[simp] theorem Mach.reg_setBase (m : Mach) (n : Nat) (x : Base) (i : Nat) : (m.setBase n x).reg i = m.reg i := (rfl)
@[simp] theorem Mach.rd_setBase (m : Mach) (n : Nat) (x : Base) (i : Nat) (g : Fld) : (m.setBase n x).rd i g = m.rd i g := (rfl)
@[simp] theorem Mach.reg_teMod (m : Mach) (n : Nat) (f : Te → Te) (i : Nat) : (m.teMod n f).reg i = m.reg i := (rfl)
@[simp] theorem Mach.rd_teMod (m : Mach) (n : Nat) (f : Te → Te) (i : Nat) (g : Fld) : (m.teMod n f).rd i g = m.rd i g := (rfl)
@[simp] theorem Mach.reg_dspMod (m : Mach) (n : Nat) (f : DspTe → DspTe) (i : Nat) : (m.dspMod n f).reg i = m.reg i := (rfl)
@[simp] theorem Mach.rd_dspMod (m : Mach) (n : Nat) (f : DspTe → DspTe) (i : Nat) (g : Fld) : (m.dspMod n f).rd i g = m.rd i g := (rfl)
@[simp] theorem Mach.reg_radioMod (m : Mach) (n : Nat) (f : Radio → Radio) (i : Nat) : (m.radioMod n f).reg i = m.reg i := (rfl)
@[simp] theorem Mach.rd_radioMod (m : Mach) (n : Nat) (f : Radio → Radio) (i : Nat) (g : Fld) : (m.radioMod n f).rd i g = m.rd i g := (rfl)
@[simp] theorem Mach.reg_busMod (m : Mach) (n : Nat) (f : IdBus → IdBus) (i : Nat) : (m.busMod n f).reg i = m.reg i := (rfl)
@[simp] theorem Mach.rd_busMod (m : Mach) (n : Nat) (f : IdBus → IdBus) (i : Nat) (g : Fld) : (m.busMod n f).rd i g = m.rd i g := (rfl)
@[simp] theorem Mach.reg_bbMod (m : Mach) (n : Nat) (f : Bb → Bb) (i : Nat) : (m.bbMod n f).reg i = m.reg i := (rfl)
@[simp] theorem Mach.rd_bbMod (m : Mach) (n : Nat) (f : Bb → Bb) (i : Nat) (g : Fld) : (m.bbMod n f).rd i g = m.rd i g := (rfl)
@[simp] theorem Mach.reg_portMod (m : Mach) (n : Nat) (f : UPort → UPort) (i : Nat) : (m.portMod n f).reg i = m.reg i := (rfl)
@[simp] theorem Mach.rd_portMod (m : Mach) (n : Nat) (f : UPort → UPort) (i : Nat) (g : Fld) : (m.portMod n f).rd i g = m.rd i g := (rfl)
@[simp] theorem Mach.reg_sqMod (m : Mach) (n : Nat) (f : Seq → Seq) (i : Nat) : (m.sqMod n f).reg i = m.reg i := (rfl)
@[simp] theorem Mach.rd_sqMod (m : Mach) (n : Nat) (f : Seq → Seq) (i : Nat) (g : Fld) : (m.sqMod n f).rd i g = m.rd i g := (rfl)
@[simp] theorem Mach.getTe_setReg (m : Mach) (a : Nat) (v : W32) (i : Nat) : (m.setReg a v).getTe i = m.getTe i := (rfl)
@[simp] theorem Mach.getDsp_setReg (m : Mach) (a : Nat) (v : W32) (i : Nat) : (m.setReg a v).getDsp i = m.getDsp i := (rfl)
@[simp] theorem Mach.getChan_setReg (m : Mach) (a : Nat) (v : W32) (i : Nat) : (m.setReg a v).getChan i = m.getChan i := (rfl)
@[simp] theorem Mach.getRing_setReg (m : Mach) (a : Nat) (v : W32) (i : Nat) : (m.setReg a v).getRing i = m.getRing i := (rfl)
@[simp] theorem Mach.getBase_setReg (m : Mach) (a : Nat) (v : W32) (i : Nat) : (m.setReg a v).getBase i = m.getBase i := (rfl)
@[simp] theorem Mach.getRadio_setReg (m : Mach) (a : Nat) (v : W32) (i : Nat) : (m.setReg a v).getRadio i = m.getRadio i := (rfl)
@[simp] theorem Mach.getBus_setReg (m : Mach) (a : Nat) (v : W32) (i : Nat) : (m.setReg a v).getBus i = m.getBus i := (rfl)
@[simp] theorem Mach.getBb_setReg (m : Mach) (a : Nat) (v : W32) (i : Nat) : (m.setReg a v).getBb i = m.getBb i := (rfl)
@[simp] theorem Mach.getPort_setReg (m : Mach) (a : Nat) (v : W32) (i : Nat) : (m.setReg a v).getPort i = m.getPort i := (rfl)
@[simp] theorem Mach.getSq_setReg (m : Mach) (a : Nat) (v : W32) (i : Nat) : (m.setReg a v).getSq i = m.getSq i := (rfl)
@[simp] theorem Mach.getTe_wr (m : Mach) (a : Nat) (f : Fld) (n : Nat) (i : Nat) : (m.wr a f n).getTe i = m.getTe i := (rfl)
@[simp] theorem Mach.getDsp_wr (m : Mach) (a : Nat) (f : Fld) (n : Nat) (i : Nat) : (m.wr a f n).getDsp i = m.getDsp i := (rfl)
@[simp] theorem Mach.getChan_wr (m : Mach) (a : Nat) (f : Fld) (n : Nat) (i : Nat) : (m.wr a f n).getChan i = m.getChan i := (rfl)
@[simp] theorem Mach.getRing_wr (m : Mach) (a : Nat) (f : Fld) (n : Nat) (i : Nat) : (m.wr a f n).getRing i = m.getRing i := (rfl)
@[simp] theorem Mach.getBase_wr (m : Mach) (a : Nat) (f : Fld) (n : Nat) (i : Nat) : (m.wr a f n).getBase i = m.getBase i := (rfl)
@[simp] theorem Mach.getRadio_wr (m : Mach) (a : Nat) (f : Fld) (n : Nat) (i : Nat) : (m.wr a f n).getRadio i = m.getRadio i := (rfl)
@[simp] theorem Mach.getBus_wr (m : Mach) (a : Nat) (f : Fld) (n : Nat) (i : Nat) : (m.wr a f n).getBus i = m.getBus i := (rfl)
@[simp] theorem Mach.getBb_wr (m : Mach) (a : Nat) (f : Fld) (n : Nat) (i : Nat) : (m.wr a f n).getBb i = m.getBb i := (rfl)
@[simp] theorem Mach.getPort_wr (m : Mach) (a : Nat) (f : Fld) (n : Nat) (i : Nat) : (m.wr a f n).getPort i = m.getPort i := (rfl)
@[simp] theorem Mach.getSq_wr (m : Mach) (a : Nat) (f : Fld) (n : Nat) (i : Nat) : (m.wr a f n).getSq i = m.getSq i := (rfl)
@[simp] theorem Mach.getTe_count (m : Mach) (a : Nat) (f : Fld) (k : Nat) (i : Nat) : (m.count a f k).getTe i = m.getTe i := (rfl)
@[simp] theorem Mach.getDsp_count (m : Mach) (a : Nat) (f : Fld) (k : Nat) (i : Nat) : (m.count a f k).getDsp i = m.getDsp i := (rfl)
@[simp] theorem Mach.getChan_count (m : Mach) (a : Nat) (f : Fld) (k : Nat) (i : Nat) : (m.count a f k).getChan i = m.getChan i := (rfl)
@[simp] theorem Mach.getRing_count (m : Mach) (a : Nat) (f : Fld) (k : Nat) (i : Nat) : (m.count a f k).getRing i = m.getRing i := (rfl)
@[simp] theorem Mach.getBase_count (m : Mach) (a : Nat) (f : Fld) (k : Nat) (i : Nat) : (m.count a f k).getBase i = m.getBase i := (rfl)
@[simp] theorem Mach.getRadio_count (m : Mach) (a : Nat) (f : Fld) (k : Nat) (i : Nat) : (m.count a f k).getRadio i = m.getRadio i := (rfl)
@[simp] theorem Mach.getBus_count (m : Mach) (a : Nat) (f : Fld) (k : Nat) (i : Nat) : (m.count a f k).getBus i = m.getBus i := (rfl)
@[simp] theorem Mach.getBb_count (m : Mach) (a : Nat) (f : Fld) (k : Nat) (i : Nat) : (m.count a f k).getBb i = m.getBb i := (rfl)
@[simp] theorem Mach.getPort_count (m : Mach) (a : Nat) (f : Fld) (k : Nat) (i : Nat) : (m.count a f k).getPort i = m.getPort i := (rfl)
@[simp] theorem Mach.getSq_count (m : Mach) (a : Nat) (f : Fld) (k : Nat) (i : Nat) : (m.count a f k).getSq i = m.getSq i := (rfl)
@[simp] theorem Mach.getTe_setReg64 (m : Mach) (a b v : Nat) (i : Nat) : (m.setReg64 a b v).getTe i = m.getTe i := (rfl)
@[simp] theorem Mach.getDsp_setReg64 (m : Mach) (a b v : Nat) (i : Nat) : (m.setReg64 a b v).getDsp i = m.getDsp i := (rfl)
@[simp] theorem Mach.getChan_setReg64 (m : Mach) (a b v : Nat) (i : Nat) : (m.setReg64 a b v).getChan i = m.getChan i := (rfl)
@[simp] theorem Mach.getRing_setReg64 (m : Mach) (a b v : Nat) (i : Nat) : (m.setReg64 a b v).getRing i = m.getRing i := (rfl)
@[simp] theorem Mach.getBase_setReg64 (m : Mach) (a b v : Nat) (i : Nat) : (m.setReg64 a b v).getBase i = m.getBase i := (rfl)
@[simp] theorem Mach.getRadio_setReg64 (m : Mach) (a b v : Nat) (i : Nat) : (m.setReg64 a b v).getRadio i = m.getRadio i := (rfl)
@[simp] theorem Mach.getBus_setReg64 (m : Mach) (a b v : Nat) (i : Nat) : (m.setReg64 a b v).getBus i = m.getBus i := (rfl)
@[simp] theorem Mach.getBb_setReg64 (m : Mach) (a b v : Nat) (i : Nat) : (m.setReg64 a b v).getBb i = m.getBb i := (rfl)
@[simp] theorem Mach.getPort_setReg64 (m : Mach) (a b v : Nat) (i : Nat) : (m.setReg64 a b v).getPort i = m.getPort i := (rfl)
@[simp] theorem Mach.getSq_setReg64 (m : Mach) (a b v : Nat) (i : Nat) : (m.setReg64 a b v).getSq i = m.getSq i := (rfl)
@[simp] theorem Mach.getTe_setAnswer (m : Mach) (v : W32) (i : Nat) : (m.setAnswer v).getTe i = m.getTe i := (rfl)
@[simp] theorem Mach.getDsp_setAnswer (m : Mach) (v : W32) (i : Nat) : (m.setAnswer v).getDsp i = m.getDsp i := (rfl)
@[simp] theorem Mach.getChan_setAnswer (m : Mach) (v : W32) (i : Nat) : (m.setAnswer v).getChan i = m.getChan i := (rfl)
@[simp] theorem Mach.getRing_setAnswer (m : Mach) (v : W32) (i : Nat) : (m.setAnswer v).getRing i = m.getRing i := (rfl)
@[simp] theorem Mach.getBase_setAnswer (m : Mach) (v : W32) (i : Nat) : (m.setAnswer v).getBase i = m.getBase i := (rfl)
@[simp] theorem Mach.getRadio_setAnswer (m : Mach) (v : W32) (i : Nat) : (m.setAnswer v).getRadio i = m.getRadio i := (rfl)
@[simp] theorem Mach.getBus_setAnswer (m : Mach) (v : W32) (i : Nat) : (m.setAnswer v).getBus i = m.getBus i := (rfl)
@[simp] theorem Mach.getBb_setAnswer (m : Mach) (v : W32) (i : Nat) : (m.setAnswer v).getBb i = m.getBb i := (rfl)
@[simp] theorem Mach.getPort_setAnswer (m : Mach) (v : W32) (i : Nat) : (m.setAnswer v).getPort i = m.getPort i := (rfl)
@[simp] theorem Mach.getSq_setAnswer (m : Mach) (v : W32) (i : Nat) : (m.setAnswer v).getSq i = m.getSq i := (rfl)
@[simp] theorem Mach.getTe_stageMod (m : Mach) (f : Tab W32 → Tab W32) (i : Nat) : (m.stageMod f).getTe i = m.getTe i := (rfl)
@[simp] theorem Mach.getDsp_stageMod (m : Mach) (f : Tab W32 → Tab W32) (i : Nat) : (m.stageMod f).getDsp i = m.getDsp i := (rfl)
@[simp] theorem Mach.getChan_stageMod (m : Mach) (f : Tab W32 → Tab W32) (i : Nat) : (m.stageMod f).getChan i = m.getChan i := (rfl)
@[simp] theorem Mach.getRing_stageMod (m : Mach) (f : Tab W32 → Tab W32) (i : Nat) : (m.stageMod f).getRing i = m.getRing i := (rfl)
@[simp] theorem Mach.getBase_stageMod (m : Mach) (f : Tab W32 → Tab W32) (i : Nat) : (m.stageMod f).getBase i = m.getBase i := (rfl)
@[simp] theorem Mach.getRadio_stageMod (m : Mach) (f : Tab W32 → Tab W32) (i : Nat) : (m.stageMod f).getRadio i = m.getRadio i := (rfl)
@[simp] theorem Mach.getBus_stageMod (m : Mach) (f : Tab W32 → Tab W32) (i : Nat) : (m.stageMod f).getBus i = m.getBus i := (rfl)
@[simp] theorem Mach.getBb_stageMod (m : Mach) (f : Tab W32 → Tab W32) (i : Nat) : (m.stageMod f).getBb i = m.getBb i := (rfl)
@[simp] theorem Mach.getPort_stageMod (m : Mach) (f : Tab W32 → Tab W32) (i : Nat) : (m.stageMod f).getPort i = m.getPort i := (rfl)
@[simp] theorem Mach.getSq_stageMod (m : Mach) (f : Tab W32 → Tab W32) (i : Nat) : (m.stageMod f).getSq i = m.getSq i := (rfl)
@[simp] theorem Mach.getTe_keepRegs (m : Mach) (p : Nat → Bool) (i : Nat) : (m.keepRegs p).getTe i = m.getTe i := (rfl)
@[simp] theorem Mach.getDsp_keepRegs (m : Mach) (p : Nat → Bool) (i : Nat) : (m.keepRegs p).getDsp i = m.getDsp i := (rfl)
@[simp] theorem Mach.getChan_keepRegs (m : Mach) (p : Nat → Bool) (i : Nat) : (m.keepRegs p).getChan i = m.getChan i := (rfl)
@[simp] theorem Mach.getRing_keepRegs (m : Mach) (p : Nat → Bool) (i : Nat) : (m.keepRegs p).getRing i = m.getRing i := (rfl)
@[simp] theorem Mach.getBase_keepRegs (m : Mach) (p : Nat → Bool) (i : Nat) : (m.keepRegs p).getBase i = m.getBase i := (rfl)
@[simp] theorem Mach.getRadio_keepRegs (m : Mach) (p : Nat → Bool) (i : Nat) : (m.keepRegs p).getRadio i = m.getRadio i := (rfl)
@[simp] theorem Mach.getBus_keepRegs (m : Mach) (p : Nat → Bool) (i : Nat) : (m.keepRegs p).getBus i = m.getBus i := (rfl)
@[simp] theorem Mach.getBb_keepRegs (m : Mach) (p : Nat → Bool) (i : Nat) : (m.keepRegs p).getBb i = m.getBb i := (rfl)
@[simp] theorem Mach.getPort_keepRegs (m : Mach) (p : Nat → Bool) (i : Nat) : (m.keepRegs p).getPort i = m.getPort i := (rfl)
@[simp] theorem Mach.getSq_keepRegs (m : Mach) (p : Nat → Bool) (i : Nat) : (m.keepRegs p).getSq i = m.getSq i := (rfl)
@[simp] theorem Mach.getTe_sysMod (m : Mach) (f : SysSt → SysSt) (i : Nat) : (m.sysMod f).getTe i = m.getTe i := (rfl)
@[simp] theorem Mach.getDsp_sysMod (m : Mach) (f : SysSt → SysSt) (i : Nat) : (m.sysMod f).getDsp i = m.getDsp i := (rfl)
@[simp] theorem Mach.getChan_sysMod (m : Mach) (f : SysSt → SysSt) (i : Nat) : (m.sysMod f).getChan i = m.getChan i := (rfl)
@[simp] theorem Mach.getRing_sysMod (m : Mach) (f : SysSt → SysSt) (i : Nat) : (m.sysMod f).getRing i = m.getRing i := (rfl)
@[simp] theorem Mach.getBase_sysMod (m : Mach) (f : SysSt → SysSt) (i : Nat) : (m.sysMod f).getBase i = m.getBase i := (rfl)
@[simp] theorem Mach.getRadio_sysMod (m : Mach) (f : SysSt → SysSt) (i : Nat) : (m.sysMod f).getRadio i = m.getRadio i := (rfl)
@[simp] theorem Mach.getBus_sysMod (m : Mach) (f : SysSt → SysSt) (i : Nat) : (m.sysMod f).getBus i = m.getBus i := (rfl)
@[simp] theorem Mach.getBb_sysMod (m : Mach) (f : SysSt → SysSt) (i : Nat) : (m.sysMod f).getBb i = m.getBb i := (rfl)
@[simp] theorem Mach.getPort_sysMod (m : Mach) (f : SysSt → SysSt) (i : Nat) : (m.sysMod f).getPort i = m.getPort i := (rfl)
@[simp] theorem Mach.getSq_sysMod (m : Mach) (f : SysSt → SysSt) (i : Nat) : (m.sysMod f).getSq i = m.getSq i := (rfl)
@[simp] theorem Mach.getTe_armMod (m : Mach) (f : ArmSt → ArmSt) (i : Nat) : (m.armMod f).getTe i = m.getTe i := (rfl)
@[simp] theorem Mach.getDsp_armMod (m : Mach) (f : ArmSt → ArmSt) (i : Nat) : (m.armMod f).getDsp i = m.getDsp i := (rfl)
@[simp] theorem Mach.getChan_armMod (m : Mach) (f : ArmSt → ArmSt) (i : Nat) : (m.armMod f).getChan i = m.getChan i := (rfl)
@[simp] theorem Mach.getRing_armMod (m : Mach) (f : ArmSt → ArmSt) (i : Nat) : (m.armMod f).getRing i = m.getRing i := (rfl)
@[simp] theorem Mach.getBase_armMod (m : Mach) (f : ArmSt → ArmSt) (i : Nat) : (m.armMod f).getBase i = m.getBase i := (rfl)
@[simp] theorem Mach.getRadio_armMod (m : Mach) (f : ArmSt → ArmSt) (i : Nat) : (m.armMod f).getRadio i = m.getRadio i := (rfl)
@[simp] theorem Mach.getBus_armMod (m : Mach) (f : ArmSt → ArmSt) (i : Nat) : (m.armMod f).getBus i = m.getBus i := (rfl)
@[simp] theorem Mach.getBb_armMod (m : Mach) (f : ArmSt → ArmSt) (i : Nat) : (m.armMod f).getBb i = m.getBb i := (rfl)
@[simp] theorem Mach.getPort_armMod (m : Mach) (f : ArmSt → ArmSt) (i : Nat) : (m.armMod f).getPort i = m.getPort i := (rfl)
@[simp] theorem Mach.getSq_armMod (m : Mach) (f : ArmSt → ArmSt) (i : Nat) : (m.armMod f).getSq i = m.getSq i := (rfl)
@[simp] theorem Mach.getTe_memMod (m : Mach) (f : MemSt → MemSt) (i : Nat) : (m.memMod f).getTe i = m.getTe i := (rfl)
@[simp] theorem Mach.getDsp_memMod (m : Mach) (f : MemSt → MemSt) (i : Nat) : (m.memMod f).getDsp i = m.getDsp i := (rfl)
@[simp] theorem Mach.getChan_memMod (m : Mach) (f : MemSt → MemSt) (i : Nat) : (m.memMod f).getChan i = m.getChan i := (rfl)
@[simp] theorem Mach.getRing_memMod (m : Mach) (f : MemSt → MemSt) (i : Nat) : (m.memMod f).getRing i = m.getRing i := (rfl)
@[simp] theorem Mach.getBase_memMod (m : Mach) (f : MemSt → MemSt) (i : Nat) : (m.memMod f).getBase i = m.getBase i := (rfl)
@[simp] theorem Mach.getRadio_memMod (m : Mach) (f : MemSt → MemSt) (i : Nat) : (m.memMod f).getRadio i = m.getRadio i := (rfl)
@[simp] theorem Mach.getBus_memMod (m : Mach) (f : MemSt → MemSt) (i : Nat) : (m.memMod f).getBus i = m.getBus i := (rfl)
@[simp] theorem Mach.getBb_memMod (m : Mach) (f : MemSt → MemSt) (i : Nat) : (m.memMod f).getBb i = m.getBb i := (rfl)
@[simp] theorem Mach.getPort_memMod (m : Mach) (f : MemSt → MemSt) (i : Nat) : (m.memMod f).getPort i = m.getPort i := (rfl)
@[simp] theorem Mach.getSq_memMod (m : Mach) (f : MemSt → MemSt) (i : Nat) : (m.memMod f).getSq i = m.getSq i := (rfl)
@[simp] theorem Mach.getTe_nvmMod (m : Mach) (f : NvmSt → NvmSt) (i : Nat) : (m.nvmMod f).getTe i = m.getTe i := (rfl)
@[simp] theorem Mach.getDsp_nvmMod (m : Mach) (f : NvmSt → NvmSt) (i : Nat) : (m.nvmMod f).getDsp i = m.getDsp i := (rfl)
@[simp] theorem Mach.getChan_nvmMod (m : Mach) (f : NvmSt → NvmSt) (i : Nat) : (m.nvmMod f).getChan i = m.getChan i := (rfl)
@[simp] theorem Mach.getRing_nvmMod (m : Mach) (f : NvmSt → NvmSt) (i : Nat) : (m.nvmMod f).getRing i = m.getRing i := (rfl)
@[simp] theorem Mach.getBase_nvmMod (m : Mach) (f : NvmSt → NvmSt) (i : Nat) : (m.nvmMod f).getBase i = m.getBase i := (rfl)
@[simp] theorem Mach.getRadio_nvmMod (m : Mach) (f : NvmSt → NvmSt) (i : Nat) : (m.nvmMod f).getRadio i = m.getRadio i := (rfl)
@[simp] theorem Mach.getBus_nvmMod (m : Mach) (f : NvmSt → NvmSt) (i : Nat) : (m.nvmMod f).getBus i = m.getBus i := (rfl)
@[simp] theorem Mach.getBb_nvmMod (m : Mach) (f : NvmSt → NvmSt) (i : Nat) : (m.nvmMod f).getBb i = m.getBb i := (rfl)
@[simp] theorem Mach.getPort_nvmMod (m : Mach) (f : NvmSt → NvmSt) (i : Nat) : (m.nvmMod f).getPort i = m.getPort i := (rfl)
@[simp] theorem Mach.getSq_nvmMod (m : Mach) (f : NvmSt → NvmSt) (i : Nat) : (m.nvmMod f).getSq i = m.getSq i := (rfl)
@[simp] theorem Mach.getTe_timMod (m : Mach) (f : TimSt → TimSt) (i : Nat) : (m.timMod f).getTe i = m.getTe i := (rfl)
@[simp] theorem Mach.getDsp_timMod (m : Mach) (f : TimSt → TimSt) (i : Nat) : (m.timMod f).getDsp i = m.getDsp i := (rfl)
@[simp] theorem Mach.getChan_timMod (m : Mach) (f : TimSt → TimSt) (i : Nat) : (m.timMod f).getChan i = m.getChan i := (rfl)
@[simp] theorem Mach.getRing_timMod (m : Mach) (f : TimSt → TimSt) (i : Nat) : (m.timMod f).getRing i = m.getRing i := (rfl)
@[simp] theorem Mach.getRadio_timMod (m : Mach) (f : TimSt → TimSt) (i : Nat) : (m.timMod f).getRadio i = m.getRadio i := (rfl)
@[simp] theorem Mach.getBus_timMod (m : Mach) (f : TimSt → TimSt) (i : Nat) : (m.timMod f).getBus i = m.getBus i := (rfl)
@[simp] theorem Mach.getBb_timMod (m : Mach) (f : TimSt → TimSt) (i : Nat) : (m.timMod f).getBb i = m.getBb i := (rfl)
@[simp] theorem Mach.getPort_timMod (m : Mach) (f : TimSt → TimSt) (i : Nat) : (m.timMod f).getPort i = m.getPort i := (rfl)
@[simp] theorem Mach.getSq_timMod (m : Mach) (f : TimSt → TimSt) (i : Nat) : (m.timMod f).getSq i = m.getSq i := (rfl)
@[simp] theorem Mach.getTe_hifMod (m : Mach) (f : HifSt → HifSt) (i : Nat) : (m.hifMod f).getTe i = m.getTe i := (rfl)
@[simp] theorem Mach.getDsp_hifMod (m : Mach) (f : HifSt → HifSt) (i : Nat) : (m.hifMod f).getDsp i = m.getDsp i := (rfl)
@[simp] theorem Mach.getChan_hifMod (m : Mach) (f : HifSt → HifSt) (i : Nat) : (m.hifMod f).getChan i = m.getChan i := (rfl)
@[simp] theorem Mach.getBase_hifMod (m : Mach) (f : HifSt → HifSt) (i : Nat) : (m.hifMod f).getBase i = m.getBase i := (rfl)
@[simp] theorem Mach.getRadio_hifMod (m : Mach) (f : HifSt → HifSt) (i : Nat) : (m.hifMod f).getRadio i = m.getRadio i := (rfl)
@[simp] theorem Mach.getBus_hifMod (m : Mach) (f : HifSt → HifSt) (i : Nat) : (m.hifMod f).getBus i = m.getBus i := (rfl)
@[simp] theorem Mach.getBb_hifMod (m : Mach) (f : HifSt → HifSt) (i : Nat) : (m.hifMod f).getBb i = m.getBb i := (rfl)
@[simp] theorem Mach.getPort_hifMod (m : Mach) (f : HifSt → HifSt) (i : Nat) : (m.hifMod f).getPort i = m.getPort i := (rfl)
@[simp] theorem Mach.getSq_hifMod (m : Mach) (f : HifSt → HifSt) (i : Nat) : (m.hifMod f).getSq i = m.getSq i := (rfl)
@[simp] theorem Mach.getTe_fltMod (m : Mach) (f : FltSt → FltSt) (i : Nat) : (m.fltMod f).getTe i = m.getTe i := (rfl)
@[simp] theorem Mach.getDsp_fltMod (m : Mach) (f : FltSt → FltSt) (i : Nat) : (m.fltMod f).getDsp i = m.getDsp i := (rfl)
@[simp] theorem Mach.getChan_fltMod (m : Mach) (f : FltSt → FltSt) (i : Nat) : (m.fltMod f).getChan i = m.getChan i := (rfl)
@[simp] theorem Mach.getRing_fltMod (m : Mach) (f : FltSt → FltSt) (i : Nat) : (m.fltMod f).getRing i = m.getRing i := (rfl)
@[simp] theorem Mach.getBase_fltMod (m : Mach) (f : FltSt → FltSt) (i : Nat) : (m.fltMod f).getBase i = m.getBase i := (rfl)
@[simp] theorem Mach.getRadio_fltMod (m : Mach) (f : FltSt → FltSt) (i : Nat) : (m.fltMod f).getRadio i = m.getRadio i := (rfl)
@[simp] theorem Mach.getBus_fltMod (m : Mach) (f : FltSt → FltSt) (i : Nat) : (m.fltMod f).getBus i = m.getBus i := (rfl)
@[simp] theorem Mach.getBb_fltMod (m : Mach) (f : FltSt → FltSt) (i : Nat) : (m.fltMod f).getBb i = m.getBb i := (rfl)
@[simp] theorem Mach.getPort_fltMod (m : Mach) (f : FltSt → FltSt) (i : Nat) : (m.fltMod f).getPort i = m.getPort i := (rfl)
@[simp] theorem Mach.getSq_fltMod (m : Mach) (f : FltSt → FltSt) (i : Nat) : (m.fltMod f).getSq i = m.getSq i := (rfl)
@[simp] theorem Mach.getTe_chnMod (m : Mach) (f : ChnSt → ChnSt) (i : Nat) : (m.chnMod f).getTe i = m.getTe i := (rfl)
@[simp] theorem Mach.getDsp_chnMod (m : Mach) (f : ChnSt → ChnSt) (i : Nat) : (m.chnMod f).getDsp i = m.getDsp i := (rfl)
@[simp] theorem Mach.getChan_chnMod (m : Mach) (f : ChnSt → ChnSt) (i : Nat) : (m.chnMod f).getChan i = m.getChan i := (rfl)
@[simp] theorem Mach.getRing_chnMod (m : Mach) (f : ChnSt → ChnSt) (i : Nat) : (m.chnMod f).getRing i = m.getRing i := (rfl)
@[simp] theorem Mach.getBase_chnMod (m : Mach) (f : ChnSt → ChnSt) (i : Nat) : (m.chnMod f).getBase i = m.getBase i := (rfl)
@[simp] theorem Mach.getRadio_chnMod (m : Mach) (f : ChnSt → ChnSt) (i : Nat) : (m.chnMod f).getRadio i = m.getRadio i := (rfl)
@[simp] theorem Mach.getBus_chnMod (m : Mach) (f : ChnSt → ChnSt) (i : Nat) : (m.chnMod f).getBus i = m.getBus i := (rfl)
@[simp] theorem Mach.getBb_chnMod (m : Mach) (f : ChnSt → ChnSt) (i : Nat) : (m.chnMod f).getBb i = m.getBb i := (rfl)
@[simp] theorem Mach.getPort_chnMod (m : Mach) (f : ChnSt → ChnSt) (i : Nat) : (m.chnMod f).getPort i = m.getPort i := (rfl)
@[simp] theorem Mach.getSq_chnMod (m : Mach) (f : ChnSt → ChnSt) (i : Nat) : (m.chnMod f).getSq i = m.getSq i := (rfl)
@[simp] theorem Mach.getTe_lcMod (m : Mach) (f : Lc → Lc) (i : Nat) : (m.lcMod f).getTe i = m.getTe i := (rfl)
@[simp] theorem Mach.getDsp_lcMod (m : Mach) (f : Lc → Lc) (i : Nat) : (m.lcMod f).getDsp i = m.getDsp i := (rfl)
@[simp] theorem Mach.getChan_lcMod (m : Mach) (f : Lc → Lc) (i : Nat) : (m.lcMod f).getChan i = m.getChan i := (rfl)
@[simp] theorem Mach.getRing_lcMod (m : Mach) (f : Lc → Lc) (i : Nat) : (m.lcMod f).getRing i = m.getRing i := (rfl)
@[simp] theorem Mach.getBase_lcMod (m : Mach) (f : Lc → Lc) (i : Nat) : (m.lcMod f).getBase i = m.getBase i := (rfl)
@[simp] theorem Mach.getRadio_lcMod (m : Mach) (f : Lc → Lc) (i : Nat) : (m.lcMod f).getRadio i = m.getRadio i := (rfl)
@[simp] theorem Mach.getBus_lcMod (m : Mach) (f : Lc → Lc) (i : Nat) : (m.lcMod f).getBus i = m.getBus i := (rfl)
@[simp] theorem Mach.getBb_lcMod (m : Mach) (f : Lc → Lc) (i : Nat) : (m.lcMod f).getBb i = m.getBb i := (rfl)
@[simp] theorem Mach.getPort_lcMod (m : Mach) (f : Lc → Lc) (i : Nat) : (m.lcMod f).getPort i = m.getPort i := (rfl)
@[simp] theorem Mach.getSq_lcMod (m : Mach) (f : Lc → Lc) (i : Nat) : (m.lcMod f).getSq i = m.getSq i := (rfl)
@[simp] theorem Mach.getTe_mradMod (m : Mach) (f : MeshRadio → MeshRadio) (i : Nat) : (m.mradMod f).getTe i = m.getTe i := (rfl)
@[simp] theorem Mach.getDsp_mradMod (m : Mach) (f : MeshRadio → MeshRadio) (i : Nat) : (m.mradMod f).getDsp i = m.getDsp i := (rfl)
@[simp] theorem Mach.getChan_mradMod (m : Mach) (f : MeshRadio → MeshRadio) (i : Nat) : (m.mradMod f).getChan i = m.getChan i := (rfl)
@[simp] theorem Mach.getRing_mradMod (m : Mach) (f : MeshRadio → MeshRadio) (i : Nat) : (m.mradMod f).getRing i = m.getRing i := (rfl)
@[simp] theorem Mach.getBase_mradMod (m : Mach) (f : MeshRadio → MeshRadio) (i : Nat) : (m.mradMod f).getBase i = m.getBase i := (rfl)
@[simp] theorem Mach.getRadio_mradMod (m : Mach) (f : MeshRadio → MeshRadio) (i : Nat) : (m.mradMod f).getRadio i = m.getRadio i := (rfl)
@[simp] theorem Mach.getBus_mradMod (m : Mach) (f : MeshRadio → MeshRadio) (i : Nat) : (m.mradMod f).getBus i = m.getBus i := (rfl)
@[simp] theorem Mach.getBb_mradMod (m : Mach) (f : MeshRadio → MeshRadio) (i : Nat) : (m.mradMod f).getBb i = m.getBb i := (rfl)
@[simp] theorem Mach.getPort_mradMod (m : Mach) (f : MeshRadio → MeshRadio) (i : Nat) : (m.mradMod f).getPort i = m.getPort i := (rfl)
@[simp] theorem Mach.getSq_mradMod (m : Mach) (f : MeshRadio → MeshRadio) (i : Nat) : (m.mradMod f).getSq i = m.getSq i := (rfl)
@[simp] theorem Mach.getTe_mlinkMod (m : Mach) (f : MeshLink → MeshLink) (i : Nat) : (m.mlinkMod f).getTe i = m.getTe i := (rfl)
@[simp] theorem Mach.getDsp_mlinkMod (m : Mach) (f : MeshLink → MeshLink) (i : Nat) : (m.mlinkMod f).getDsp i = m.getDsp i := (rfl)
@[simp] theorem Mach.getChan_mlinkMod (m : Mach) (f : MeshLink → MeshLink) (i : Nat) : (m.mlinkMod f).getChan i = m.getChan i := (rfl)
@[simp] theorem Mach.getRing_mlinkMod (m : Mach) (f : MeshLink → MeshLink) (i : Nat) : (m.mlinkMod f).getRing i = m.getRing i := (rfl)
@[simp] theorem Mach.getBase_mlinkMod (m : Mach) (f : MeshLink → MeshLink) (i : Nat) : (m.mlinkMod f).getBase i = m.getBase i := (rfl)
@[simp] theorem Mach.getRadio_mlinkMod (m : Mach) (f : MeshLink → MeshLink) (i : Nat) : (m.mlinkMod f).getRadio i = m.getRadio i := (rfl)
@[simp] theorem Mach.getBus_mlinkMod (m : Mach) (f : MeshLink → MeshLink) (i : Nat) : (m.mlinkMod f).getBus i = m.getBus i := (rfl)
@[simp] theorem Mach.getBb_mlinkMod (m : Mach) (f : MeshLink → MeshLink) (i : Nat) : (m.mlinkMod f).getBb i = m.getBb i := (rfl)
@[simp] theorem Mach.getPort_mlinkMod (m : Mach) (f : MeshLink → MeshLink) (i : Nat) : (m.mlinkMod f).getPort i = m.getPort i := (rfl)
@[simp] theorem Mach.getSq_mlinkMod (m : Mach) (f : MeshLink → MeshLink) (i : Nat) : (m.mlinkMod f).getSq i = m.getSq i := (rfl)
@[simp] theorem Mach.getTe_wmacMod (m : Mach) (f : Wmac → Wmac) (i : Nat) : (m.wmacMod f).getTe i = m.getTe i := (rfl)
@[simp] theorem Mach.getDsp_wmacMod (m : Mach) (f : Wmac → Wmac) (i : Nat) : (m.wmacMod f).getDsp i = m.getDsp i := (rfl)
@[simp] theorem Mach.getChan_wmacMod (m : Mach) (f : Wmac → Wmac) (i : Nat) : (m.wmacMod f).getChan i = m.getChan i := (rfl)
@[simp] theorem Mach.getRing_wmacMod (m : Mach) (f : Wmac → Wmac) (i : Nat) : (m.wmacMod f).getRing i = m.getRing i := (rfl)
@[simp] theorem Mach.getBase_wmacMod (m : Mach) (f : Wmac → Wmac) (i : Nat) : (m.wmacMod f).getBase i = m.getBase i := (rfl)
@[simp] theorem Mach.getRadio_wmacMod (m : Mach) (f : Wmac → Wmac) (i : Nat) : (m.wmacMod f).getRadio i = m.getRadio i := (rfl)
@[simp] theorem Mach.getBus_wmacMod (m : Mach) (f : Wmac → Wmac) (i : Nat) : (m.wmacMod f).getBus i = m.getBus i := (rfl)
@[simp] theorem Mach.getBb_wmacMod (m : Mach) (f : Wmac → Wmac) (i : Nat) : (m.wmacMod f).getBb i = m.getBb i := (rfl)
@[simp] theorem Mach.getPort_wmacMod (m : Mach) (f : Wmac → Wmac) (i : Nat) : (m.wmacMod f).getPort i = m.getPort i := (rfl)
@[simp] theorem Mach.getTe_aschMod (m : Mach) (f : Asch → Asch) (i : Nat) : (m.aschMod f).getTe i = m.getTe i := (rfl)
@[simp] theorem Mach.getDsp_aschMod (m : Mach) (f : Asch → Asch) (i : Nat) : (m.aschMod f).getDsp i = m.getDsp i := (rfl)
@[simp] theorem Mach.getChan_aschMod (m : Mach) (f : Asch → Asch) (i : Nat) : (m.aschMod f).getChan i = m.getChan i := (rfl)
@[simp] theorem Mach.getRing_aschMod (m : Mach) (f : Asch → Asch) (i : Nat) : (m.aschMod f).getRing i = m.getRing i := (rfl)
@[simp] theorem Mach.getBase_aschMod (m : Mach) (f : Asch → Asch) (i : Nat) : (m.aschMod f).getBase i = m.getBase i := (rfl)
@[simp] theorem Mach.getRadio_aschMod (m : Mach) (f : Asch → Asch) (i : Nat) : (m.aschMod f).getRadio i = m.getRadio i := (rfl)
@[simp] theorem Mach.getBus_aschMod (m : Mach) (f : Asch → Asch) (i : Nat) : (m.aschMod f).getBus i = m.getBus i := (rfl)
@[simp] theorem Mach.getBb_aschMod (m : Mach) (f : Asch → Asch) (i : Nat) : (m.aschMod f).getBb i = m.getBb i := (rfl)
@[simp] theorem Mach.getPort_aschMod (m : Mach) (f : Asch → Asch) (i : Nat) : (m.aschMod f).getPort i = m.getPort i := (rfl)
@[simp] theorem Mach.getSq_aschMod (m : Mach) (f : Asch → Asch) (i : Nat) : (m.aschMod f).getSq i = m.getSq i := (rfl)
@[simp] theorem Mach.getTe_rteMod (m : Mach) (f : Rte → Rte) (i : Nat) : (m.rteMod f).getTe i = m.getTe i := (rfl)
@[simp] theorem Mach.getDsp_rteMod (m : Mach) (f : Rte → Rte) (i : Nat) : (m.rteMod f).getDsp i = m.getDsp i := (rfl)
@[simp] theorem Mach.getChan_rteMod (m : Mach) (f : Rte → Rte) (i : Nat) : (m.rteMod f).getChan i = m.getChan i := (rfl)
@[simp] theorem Mach.getRing_rteMod (m : Mach) (f : Rte → Rte) (i : Nat) : (m.rteMod f).getRing i = m.getRing i := (rfl)
@[simp] theorem Mach.getBase_rteMod (m : Mach) (f : Rte → Rte) (i : Nat) : (m.rteMod f).getBase i = m.getBase i := (rfl)
@[simp] theorem Mach.getRadio_rteMod (m : Mach) (f : Rte → Rte) (i : Nat) : (m.rteMod f).getRadio i = m.getRadio i := (rfl)
@[simp] theorem Mach.getBus_rteMod (m : Mach) (f : Rte → Rte) (i : Nat) : (m.rteMod f).getBus i = m.getBus i := (rfl)
@[simp] theorem Mach.getBb_rteMod (m : Mach) (f : Rte → Rte) (i : Nat) : (m.rteMod f).getBb i = m.getBb i := (rfl)
@[simp] theorem Mach.getPort_rteMod (m : Mach) (f : Rte → Rte) (i : Nat) : (m.rteMod f).getPort i = m.getPort i := (rfl)
@[simp] theorem Mach.getSq_rteMod (m : Mach) (f : Rte → Rte) (i : Nat) : (m.rteMod f).getSq i = m.getSq i := (rfl)
@[simp] theorem Mach.getDsp_setTe (m : Mach) (n : Nat) (x : Te) (i : Nat) : (m.setTe n x).getDsp i = m.getDsp i := (rfl)
@[simp] theorem Mach.getChan_setTe (m : Mach) (n : Nat) (x : Te) (i : Nat) : (m.setTe n x).getChan i = m.getChan i := (rfl)
@[simp] theorem Mach.getRing_setTe (m : Mach) (n : Nat) (x : Te) (i : Nat) : (m.setTe n x).getRing i = m.getRing i := (rfl)
@[simp] theorem Mach.getBase_setTe (m : Mach) (n : Nat) (x : Te) (i : Nat) : (m.setTe n x).getBase i = m.getBase i := (rfl)
@[simp] theorem Mach.getRadio_setTe (m : Mach) (n : Nat) (x : Te) (i : Nat) : (m.setTe n x).getRadio i = m.getRadio i := (rfl)
@[simp] theorem Mach.getBus_setTe (m : Mach) (n : Nat) (x : Te) (i : Nat) : (m.setTe n x).getBus i = m.getBus i := (rfl)
@[simp] theorem Mach.getBb_setTe (m : Mach) (n : Nat) (x : Te) (i : Nat) : (m.setTe n x).getBb i = m.getBb i := (rfl)
@[simp] theorem Mach.getPort_setTe (m : Mach) (n : Nat) (x : Te) (i : Nat) : (m.setTe n x).getPort i = m.getPort i := (rfl)
@[simp] theorem Mach.getSq_setTe (m : Mach) (n : Nat) (x : Te) (i : Nat) : (m.setTe n x).getSq i = m.getSq i := (rfl)
@[simp] theorem Mach.getTe_setDsp (m : Mach) (n : Nat) (x : DspTe) (i : Nat) : (m.setDsp n x).getTe i = m.getTe i := (rfl)
@[simp] theorem Mach.getChan_setDsp (m : Mach) (n : Nat) (x : DspTe) (i : Nat) : (m.setDsp n x).getChan i = m.getChan i := (rfl)
@[simp] theorem Mach.getRing_setDsp (m : Mach) (n : Nat) (x : DspTe) (i : Nat) : (m.setDsp n x).getRing i = m.getRing i := (rfl)
@[simp] theorem Mach.getBase_setDsp (m : Mach) (n : Nat) (x : DspTe) (i : Nat) : (m.setDsp n x).getBase i = m.getBase i := (rfl)
@[simp] theorem Mach.getRadio_setDsp (m : Mach) (n : Nat) (x : DspTe) (i : Nat) : (m.setDsp n x).getRadio i = m.getRadio i := (rfl)
@[simp] theorem Mach.getBus_setDsp (m : Mach) (n : Nat) (x : DspTe) (i : Nat) : (m.setDsp n x).getBus i = m.getBus i := (rfl)
@[simp] theorem Mach.getBb_setDsp (m : Mach) (n : Nat) (x : DspTe) (i : Nat) : (m.setDsp n x).getBb i = m.getBb i := (rfl)
@[simp] theorem Mach.getPort_setDsp (m : Mach) (n : Nat) (x : DspTe) (i : Nat) : (m.setDsp n x).getPort i = m.getPort i := (rfl)
@[simp] theorem Mach.getSq_setDsp (m : Mach) (n : Nat) (x : DspTe) (i : Nat) : (m.setDsp n x).getSq i = m.getSq i := (rfl)
@[simp] theorem Mach.getTe_setChan (m : Mach) (n : Nat) (x : Chan) (i : Nat) : (m.setChan n x).getTe i = m.getTe i := (rfl)
@[simp] theorem Mach.getDsp_setChan (m : Mach) (n : Nat) (x : Chan) (i : Nat) : (m.setChan n x).getDsp i = m.getDsp i := (rfl)
@[simp] theorem Mach.getRing_setChan (m : Mach) (n : Nat) (x : Chan) (i : Nat) : (m.setChan n x).getRing i = m.getRing i := (rfl)
@[simp] theorem Mach.getBase_setChan (m : Mach) (n : Nat) (x : Chan) (i : Nat) : (m.setChan n x).getBase i = m.getBase i := (rfl)
@[simp] theorem Mach.getRadio_setChan (m : Mach) (n : Nat) (x : Chan) (i : Nat) : (m.setChan n x).getRadio i = m.getRadio i := (rfl)
@[simp] theorem Mach.getBus_setChan (m : Mach) (n : Nat) (x : Chan) (i : Nat) : (m.setChan n x).getBus i = m.getBus i := (rfl)
@[simp] theorem Mach.getBb_setChan (m : Mach) (n : Nat) (x : Chan) (i : Nat) : (m.setChan n x).getBb i = m.getBb i := (rfl)
@[simp] theorem Mach.getPort_setChan (m : Mach) (n : Nat) (x : Chan) (i : Nat) : (m.setChan n x).getPort i = m.getPort i := (rfl)
@[simp] theorem Mach.getSq_setChan (m : Mach) (n : Nat) (x : Chan) (i : Nat) : (m.setChan n x).getSq i = m.getSq i := (rfl)
@[simp] theorem Mach.getTe_setRing (m : Mach) (n : Nat) (x : Ring) (i : Nat) : (m.setRing n x).getTe i = m.getTe i := (rfl)
@[simp] theorem Mach.getDsp_setRing (m : Mach) (n : Nat) (x : Ring) (i : Nat) : (m.setRing n x).getDsp i = m.getDsp i := (rfl)
@[simp] theorem Mach.getChan_setRing (m : Mach) (n : Nat) (x : Ring) (i : Nat) : (m.setRing n x).getChan i = m.getChan i := (rfl)
@[simp] theorem Mach.getBase_setRing (m : Mach) (n : Nat) (x : Ring) (i : Nat) : (m.setRing n x).getBase i = m.getBase i := (rfl)
@[simp] theorem Mach.getRadio_setRing (m : Mach) (n : Nat) (x : Ring) (i : Nat) : (m.setRing n x).getRadio i = m.getRadio i := (rfl)
@[simp] theorem Mach.getBus_setRing (m : Mach) (n : Nat) (x : Ring) (i : Nat) : (m.setRing n x).getBus i = m.getBus i := (rfl)
@[simp] theorem Mach.getBb_setRing (m : Mach) (n : Nat) (x : Ring) (i : Nat) : (m.setRing n x).getBb i = m.getBb i := (rfl)
@[simp] theorem Mach.getPort_setRing (m : Mach) (n : Nat) (x : Ring) (i : Nat) : (m.setRing n x).getPort i = m.getPort i := (rfl)
@[simp] theorem Mach.getSq_setRing (m : Mach) (n : Nat) (x : Ring) (i : Nat) : (m.setRing n x).getSq i = m.getSq i := (rfl)
@[simp] theorem Mach.getTe_setBase (m : Mach) (n : Nat) (x : Base) (i : Nat) : (m.setBase n x).getTe i = m.getTe i := (rfl)
@[simp] theorem Mach.getDsp_setBase (m : Mach) (n : Nat) (x : Base) (i : Nat) : (m.setBase n x).getDsp i = m.getDsp i := (rfl)
@[simp] theorem Mach.getChan_setBase (m : Mach) (n : Nat) (x : Base) (i : Nat) : (m.setBase n x).getChan i = m.getChan i := (rfl)
@[simp] theorem Mach.getRing_setBase (m : Mach) (n : Nat) (x : Base) (i : Nat) : (m.setBase n x).getRing i = m.getRing i := (rfl)
@[simp] theorem Mach.getRadio_setBase (m : Mach) (n : Nat) (x : Base) (i : Nat) : (m.setBase n x).getRadio i = m.getRadio i := (rfl)
@[simp] theorem Mach.getBus_setBase (m : Mach) (n : Nat) (x : Base) (i : Nat) : (m.setBase n x).getBus i = m.getBus i := (rfl)
@[simp] theorem Mach.getBb_setBase (m : Mach) (n : Nat) (x : Base) (i : Nat) : (m.setBase n x).getBb i = m.getBb i := (rfl)
@[simp] theorem Mach.getPort_setBase (m : Mach) (n : Nat) (x : Base) (i : Nat) : (m.setBase n x).getPort i = m.getPort i := (rfl)
@[simp] theorem Mach.getSq_setBase (m : Mach) (n : Nat) (x : Base) (i : Nat) : (m.setBase n x).getSq i = m.getSq i := (rfl)
@[simp] theorem Mach.getDsp_teMod (m : Mach) (n : Nat) (f : Te → Te) (i : Nat) : (m.teMod n f).getDsp i = m.getDsp i := (rfl)
@[simp] theorem Mach.getChan_teMod (m : Mach) (n : Nat) (f : Te → Te) (i : Nat) : (m.teMod n f).getChan i = m.getChan i := (rfl)
@[simp] theorem Mach.getRing_teMod (m : Mach) (n : Nat) (f : Te → Te) (i : Nat) : (m.teMod n f).getRing i = m.getRing i := (rfl)
@[simp] theorem Mach.getBase_teMod (m : Mach) (n : Nat) (f : Te → Te) (i : Nat) : (m.teMod n f).getBase i = m.getBase i := (rfl)
@[simp] theorem Mach.getRadio_teMod (m : Mach) (n : Nat) (f : Te → Te) (i : Nat) : (m.teMod n f).getRadio i = m.getRadio i := (rfl)
@[simp] theorem Mach.getBus_teMod (m : Mach) (n : Nat) (f : Te → Te) (i : Nat) : (m.teMod n f).getBus i = m.getBus i := (rfl)
@[simp] theorem Mach.getBb_teMod (m : Mach) (n : Nat) (f : Te → Te) (i : Nat) : (m.teMod n f).getBb i = m.getBb i := (rfl)
@[simp] theorem Mach.getPort_teMod (m : Mach) (n : Nat) (f : Te → Te) (i : Nat) : (m.teMod n f).getPort i = m.getPort i := (rfl)
@[simp] theorem Mach.getSq_teMod (m : Mach) (n : Nat) (f : Te → Te) (i : Nat) : (m.teMod n f).getSq i = m.getSq i := (rfl)
@[simp] theorem Mach.getTe_dspMod (m : Mach) (n : Nat) (f : DspTe → DspTe) (i : Nat) : (m.dspMod n f).getTe i = m.getTe i := (rfl)
@[simp] theorem Mach.getChan_dspMod (m : Mach) (n : Nat) (f : DspTe → DspTe) (i : Nat) : (m.dspMod n f).getChan i = m.getChan i := (rfl)
@[simp] theorem Mach.getRing_dspMod (m : Mach) (n : Nat) (f : DspTe → DspTe) (i : Nat) : (m.dspMod n f).getRing i = m.getRing i := (rfl)
@[simp] theorem Mach.getBase_dspMod (m : Mach) (n : Nat) (f : DspTe → DspTe) (i : Nat) : (m.dspMod n f).getBase i = m.getBase i := (rfl)
@[simp] theorem Mach.getRadio_dspMod (m : Mach) (n : Nat) (f : DspTe → DspTe) (i : Nat) : (m.dspMod n f).getRadio i = m.getRadio i := (rfl)
@[simp] theorem Mach.getBus_dspMod (m : Mach) (n : Nat) (f : DspTe → DspTe) (i : Nat) : (m.dspMod n f).getBus i = m.getBus i := (rfl)
@[simp] theorem Mach.getBb_dspMod (m : Mach) (n : Nat) (f : DspTe → DspTe) (i : Nat) : (m.dspMod n f).getBb i = m.getBb i := (rfl)
@[simp] theorem Mach.getPort_dspMod (m : Mach) (n : Nat) (f : DspTe → DspTe) (i : Nat) : (m.dspMod n f).getPort i = m.getPort i := (rfl)
@[simp] theorem Mach.getSq_dspMod (m : Mach) (n : Nat) (f : DspTe → DspTe) (i : Nat) : (m.dspMod n f).getSq i = m.getSq i := (rfl)
@[simp] theorem Mach.getTe_radioMod (m : Mach) (n : Nat) (f : Radio → Radio) (i : Nat) : (m.radioMod n f).getTe i = m.getTe i := (rfl)
@[simp] theorem Mach.getDsp_radioMod (m : Mach) (n : Nat) (f : Radio → Radio) (i : Nat) : (m.radioMod n f).getDsp i = m.getDsp i := (rfl)
@[simp] theorem Mach.getChan_radioMod (m : Mach) (n : Nat) (f : Radio → Radio) (i : Nat) : (m.radioMod n f).getChan i = m.getChan i := (rfl)
@[simp] theorem Mach.getRing_radioMod (m : Mach) (n : Nat) (f : Radio → Radio) (i : Nat) : (m.radioMod n f).getRing i = m.getRing i := (rfl)
@[simp] theorem Mach.getBase_radioMod (m : Mach) (n : Nat) (f : Radio → Radio) (i : Nat) : (m.radioMod n f).getBase i = m.getBase i := (rfl)
@[simp] theorem Mach.getBus_radioMod (m : Mach) (n : Nat) (f : Radio → Radio) (i : Nat) : (m.radioMod n f).getBus i = m.getBus i := (rfl)
@[simp] theorem Mach.getBb_radioMod (m : Mach) (n : Nat) (f : Radio → Radio) (i : Nat) : (m.radioMod n f).getBb i = m.getBb i := (rfl)
@[simp] theorem Mach.getPort_radioMod (m : Mach) (n : Nat) (f : Radio → Radio) (i : Nat) : (m.radioMod n f).getPort i = m.getPort i := (rfl)
@[simp] theorem Mach.getSq_radioMod (m : Mach) (n : Nat) (f : Radio → Radio) (i : Nat) : (m.radioMod n f).getSq i = m.getSq i := (rfl)
@[simp] theorem Mach.getTe_busMod (m : Mach) (n : Nat) (f : IdBus → IdBus) (i : Nat) : (m.busMod n f).getTe i = m.getTe i := (rfl)
@[simp] theorem Mach.getDsp_busMod (m : Mach) (n : Nat) (f : IdBus → IdBus) (i : Nat) : (m.busMod n f).getDsp i = m.getDsp i := (rfl)
@[simp] theorem Mach.getChan_busMod (m : Mach) (n : Nat) (f : IdBus → IdBus) (i : Nat) : (m.busMod n f).getChan i = m.getChan i := (rfl)
@[simp] theorem Mach.getRing_busMod (m : Mach) (n : Nat) (f : IdBus → IdBus) (i : Nat) : (m.busMod n f).getRing i = m.getRing i := (rfl)
@[simp] theorem Mach.getBase_busMod (m : Mach) (n : Nat) (f : IdBus → IdBus) (i : Nat) : (m.busMod n f).getBase i = m.getBase i := (rfl)
@[simp] theorem Mach.getRadio_busMod (m : Mach) (n : Nat) (f : IdBus → IdBus) (i : Nat) : (m.busMod n f).getRadio i = m.getRadio i := (rfl)
@[simp] theorem Mach.getBb_busMod (m : Mach) (n : Nat) (f : IdBus → IdBus) (i : Nat) : (m.busMod n f).getBb i = m.getBb i := (rfl)
@[simp] theorem Mach.getPort_busMod (m : Mach) (n : Nat) (f : IdBus → IdBus) (i : Nat) : (m.busMod n f).getPort i = m.getPort i := (rfl)
@[simp] theorem Mach.getSq_busMod (m : Mach) (n : Nat) (f : IdBus → IdBus) (i : Nat) : (m.busMod n f).getSq i = m.getSq i := (rfl)
@[simp] theorem Mach.getTe_bbMod (m : Mach) (n : Nat) (f : Bb → Bb) (i : Nat) : (m.bbMod n f).getTe i = m.getTe i := (rfl)
@[simp] theorem Mach.getDsp_bbMod (m : Mach) (n : Nat) (f : Bb → Bb) (i : Nat) : (m.bbMod n f).getDsp i = m.getDsp i := (rfl)
@[simp] theorem Mach.getChan_bbMod (m : Mach) (n : Nat) (f : Bb → Bb) (i : Nat) : (m.bbMod n f).getChan i = m.getChan i := (rfl)
@[simp] theorem Mach.getRing_bbMod (m : Mach) (n : Nat) (f : Bb → Bb) (i : Nat) : (m.bbMod n f).getRing i = m.getRing i := (rfl)
@[simp] theorem Mach.getBase_bbMod (m : Mach) (n : Nat) (f : Bb → Bb) (i : Nat) : (m.bbMod n f).getBase i = m.getBase i := (rfl)
@[simp] theorem Mach.getRadio_bbMod (m : Mach) (n : Nat) (f : Bb → Bb) (i : Nat) : (m.bbMod n f).getRadio i = m.getRadio i := (rfl)
@[simp] theorem Mach.getBus_bbMod (m : Mach) (n : Nat) (f : Bb → Bb) (i : Nat) : (m.bbMod n f).getBus i = m.getBus i := (rfl)
@[simp] theorem Mach.getPort_bbMod (m : Mach) (n : Nat) (f : Bb → Bb) (i : Nat) : (m.bbMod n f).getPort i = m.getPort i := (rfl)
@[simp] theorem Mach.getSq_bbMod (m : Mach) (n : Nat) (f : Bb → Bb) (i : Nat) : (m.bbMod n f).getSq i = m.getSq i := (rfl)
@[simp] theorem Mach.getTe_portMod (m : Mach) (n : Nat) (f : UPort → UPort) (i : Nat) : (m.portMod n f).getTe i = m.getTe i := (rfl)
@[simp] theorem Mach.getDsp_portMod (m : Mach) (n : Nat) (f : UPort → UPort) (i : Nat) : (m.portMod n f).getDsp i = m.getDsp i := (rfl)
@[simp] theorem Mach.getChan_portMod (m : Mach) (n : Nat) (f : UPort → UPort) (i : Nat) : (m.portMod n f).getChan i = m.getChan i := (rfl)
@[simp] theorem Mach.getRing_portMod (m : Mach) (n : Nat) (f : UPort → UPort) (i : Nat) : (m.portMod n f).getRing i = m.getRing i := (rfl)
@[simp] theorem Mach.getBase_portMod (m : Mach) (n : Nat) (f : UPort → UPort) (i : Nat) : (m.portMod n f).getBase i = m.getBase i := (rfl)
@[simp] theorem Mach.getRadio_portMod (m : Mach) (n : Nat) (f : UPort → UPort) (i : Nat) : (m.portMod n f).getRadio i = m.getRadio i := (rfl)
@[simp] theorem Mach.getBus_portMod (m : Mach) (n : Nat) (f : UPort → UPort) (i : Nat) : (m.portMod n f).getBus i = m.getBus i := (rfl)
@[simp] theorem Mach.getBb_portMod (m : Mach) (n : Nat) (f : UPort → UPort) (i : Nat) : (m.portMod n f).getBb i = m.getBb i := (rfl)
@[simp] theorem Mach.getSq_portMod (m : Mach) (n : Nat) (f : UPort → UPort) (i : Nat) : (m.portMod n f).getSq i = m.getSq i := (rfl)
@[simp] theorem Mach.getTe_sqMod (m : Mach) (n : Nat) (f : Seq → Seq) (i : Nat) : (m.sqMod n f).getTe i = m.getTe i := (rfl)
@[simp] theorem Mach.getDsp_sqMod (m : Mach) (n : Nat) (f : Seq → Seq) (i : Nat) : (m.sqMod n f).getDsp i = m.getDsp i := (rfl)
@[simp] theorem Mach.getChan_sqMod (m : Mach) (n : Nat) (f : Seq → Seq) (i : Nat) : (m.sqMod n f).getChan i = m.getChan i := (rfl)
@[simp] theorem Mach.getRing_sqMod (m : Mach) (n : Nat) (f : Seq → Seq) (i : Nat) : (m.sqMod n f).getRing i = m.getRing i := (rfl)
@[simp] theorem Mach.getBase_sqMod (m : Mach) (n : Nat) (f : Seq → Seq) (i : Nat) : (m.sqMod n f).getBase i = m.getBase i := (rfl)
@[simp] theorem Mach.getRadio_sqMod (m : Mach) (n : Nat) (f : Seq → Seq) (i : Nat) : (m.sqMod n f).getRadio i = m.getRadio i := (rfl)
@[simp] theorem Mach.getBus_sqMod (m : Mach) (n : Nat) (f : Seq → Seq) (i : Nat) : (m.sqMod n f).getBus i = m.getBus i := (rfl)
@[simp] theorem Mach.getBb_sqMod (m : Mach) (n : Nat) (f : Seq → Seq) (i : Nat) : (m.sqMod n f).getBb i = m.getBb i := (rfl)
@[simp] theorem Mach.getPort_sqMod (m : Mach) (n : Nat) (f : Seq → Seq) (i : Nat) : (m.sqMod n f).getPort i = m.getPort i := (rfl)

/-! ### What each change of a part makes of the part -/

@[simp] theorem Mach.stageMod_stage (m : Mach) (f : Tab W32 → Tab W32) : (m.stageMod f).stage = f m.stage := (rfl)
@[simp] theorem Mach.sysMod_sys (m : Mach) (f : SysSt → SysSt) : (m.sysMod f).sys = f m.sys := (rfl)
@[simp] theorem Mach.armMod_arm (m : Mach) (f : ArmSt → ArmSt) : (m.armMod f).arm = f m.arm := (rfl)
@[simp] theorem Mach.memMod_mem (m : Mach) (f : MemSt → MemSt) : (m.memMod f).mem = f m.mem := (rfl)
@[simp] theorem Mach.nvmMod_nvm (m : Mach) (f : NvmSt → NvmSt) : (m.nvmMod f).nvm = f m.nvm := (rfl)
@[simp] theorem Mach.timMod_tim (m : Mach) (f : TimSt → TimSt) : (m.timMod f).tim = f m.tim := (rfl)
@[simp] theorem Mach.hifMod_hif (m : Mach) (f : HifSt → HifSt) : (m.hifMod f).hif = f m.hif := (rfl)
@[simp] theorem Mach.fltMod_flt (m : Mach) (f : FltSt → FltSt) : (m.fltMod f).flt = f m.flt := (rfl)
@[simp] theorem Mach.chnMod_chn (m : Mach) (f : ChnSt → ChnSt) : (m.chnMod f).chn = f m.chn := (rfl)
@[simp] theorem Mach.lcMod_lc (m : Mach) (f : Lc → Lc) : (m.lcMod f).lc = f m.lc := (rfl)
@[simp] theorem Mach.mradMod_mrad (m : Mach) (f : MeshRadio → MeshRadio) : (m.mradMod f).mrad = f m.mrad := (rfl)
@[simp] theorem Mach.mlinkMod_mlink (m : Mach) (f : MeshLink → MeshLink) : (m.mlinkMod f).mlink = f m.mlink := (rfl)
@[simp] theorem Mach.wmacMod_wmac (m : Mach) (f : Wmac → Wmac) : (m.wmacMod f).wmac = f m.wmac := (rfl)
@[simp] theorem Mach.aschMod_asch (m : Mach) (f : Asch → Asch) : (m.aschMod f).asch = f m.asch := (rfl)
@[simp] theorem Mach.rteMod_rte (m : Mach) (f : Rte → Rte) : (m.rteMod f).rte = f m.rte := (rfl)
@[simp] theorem Mach.setAnswer_answer (m : Mach) (v : W32) : (m.setAnswer v).answer = v := (rfl)

/-! ### Registers after a write, by cases -/

theorem Mach.reg_setReg_if (m : Mach) (a b : Nat) (v : W32) : (m.setReg a v).reg b = if b = a then v else m.reg b := by
  by_cases h : b = a
  · subst h; simp
  · rw [Mach.reg_setReg_ne m v h, if_neg h]

theorem Mach.reg_wr_if (m : Mach) (a b : Nat) (f : Fld) (n : Nat) :
    (m.wr a f n).reg b = if b = a then putFld (m.reg a) f n else m.reg b := by
  rw [Mach.wr, Mach.reg_setReg_if]

theorem Mach.rd_eq (m : Mach) (a : Nat) (f : Fld) : m.rd a f = getFld (m.reg a) f := rfl

theorem Mach.bit_eq (m : Mach) (a : Nat) (f : Fld) : m.bit a f = (getFld (m.reg a) f != 0) := rfl

end Sys2Proof.Machine
end

