-- ==== Sys2Proof/Laws/Engine.lean ====
section
/-! SUPPORT. How an instruction issues (R92, R151): one lemma for each outcome of its own part, for a TE and for LC. -/

namespace Sys2Proof.Machine

open Sys2Proof

theorem tabErase_tabErase {α : Type} (t : Tab α) (k : Nat) : tabErase (tabErase t k) k = tabErase t k := by
  induction t with
  | nil => rfl
  | cons e r ih =>
    obtain ⟨j, v⟩ := e
    by_cases h : j = k
    · simp [tabErase, h, ih]
    · simp [tabErase, h, ih]

theorem tabErase_tabInsert {α : Type} (t : Tab α) (k : Nat) (v : α) : tabErase (tabInsert t k v) k = tabErase t k := by
  induction t with
  | nil => simp [tabInsert, tabErase]
  | cons e r ih =>
    obtain ⟨j, w⟩ := e
    by_cases h : k < j
    · simp [tabInsert, h, tabErase]
    · by_cases h' : j = k
      · simp [tabInsert, tabErase, h', ih]
      · simp [tabInsert, tabErase, h, h', ih]

/-- The last of two writes to one key stands. -/
theorem tabSet_tabSet {α : Type} [DecidableEq α] (d : α) (t : Tab α) (k : Nat) (a b : α) :
    tabSet d (tabSet d t k a) k b = tabSet d t k b := by
  unfold tabSet
  split <;> split <;> simp [tabErase_tabErase, tabErase_tabInsert]

theorem Mach.setTe_setTe (m : Mach) (n : Nat) (a b : Te) : (m.setTe n a).setTe n b = m.setTe n b := by
  simp [Mach.setTe, tabSet_tabSet]

/-- A defined word that is ready on a TE issues: the outcome is that of the instruction's own part. -/
theorem Mach.teIssue_ready {m : Mach} {n : Nat} {w : W32} (h : m.tReady n w) (hd : defined true w = true) (body : Mach → Te → Res) :
    m.teIssue n w false body = match body (m.landDue n) (m.tNow n) with
      | .bad f => (m.landDue n).teFault n w f false
      | .good e => e.m.advance n false e
      | .sleep x => (m.landDue n).enterWait n x := by
  obtain ⟨h1, h2⟩ := h
  simp only [Mach.tNow] at h2 ⊢
  simp [Mach.teIssue, h1, h2, hd]
  all_goals rfl

/-- A defined transfer that is ready on a TE outside delay slots issues. -/
theorem Mach.teIssue_xfer {m : Mach} {n : Nat} {w : W32} (h : m.tReady n w) (hd : defined true w = true)
    (hb : (m.tNow n).ctx.btc = 0) (body : Mach → Te → Res) :
    m.teIssue n w true body = match body (m.landDue n) (m.tNow n) with
      | .bad f => (m.landDue n).teFault n w f false
      | .good e => e.m.advance n true e
      | .sleep x => (m.landDue n).enterWait n x := by
  obtain ⟨h1, h2⟩ := h
  simp only [Mach.tNow] at h2 hb ⊢
  simp [Mach.teIssue, h1, h2, hd, hb]
  all_goals rfl

/-- A transfer in a delay slot raises DSLOT (R96). -/
theorem Mach.teIssue_dslot {m : Mach} {n : Nat} {w : W32} (h : m.tReady n w) (hd : defined true w = true)
    (hb : (m.tNow n).ctx.btc ≠ 0) (body : Mach → Te → Res) :
    m.teIssue n w true body = (m.landDue n).teFault n w ⟨9, 0, 0⟩ false := by
  obtain ⟨h1, h2⟩ := h
  simp only [Mach.tNow] at h2 hb
  simp [Mach.teIssue, h1, h2, hd, hb]

/-- A defined word that is ready on LC issues. -/
theorem Mach.lcIssue_ready {m : Mach} {w : W32} (h : m.lReady w) (hd : defined false w = true) (body : Mach → Lc → LcRes) :
    m.lcIssue w false body = match body m.lNow m.lNow.lc with
      | .bad c => m.lNow.lcFault c
      | .good x ws t ret => x.lcAdvance false ws t ret
      | .sleep => m.lNow.lcWait := by
  obtain ⟨h1, h2, h3⟩ := h
  unfold Mach.lNow at *
  unfold Mach.lcIssue
  simp only [h1, h2, h3, hd, beq_self_eq_true, Bool.and_self, decide_true, if_true, Bool.not_true, Bool.false_eq_true, if_false,
    ne_eq, false_and]
  all_goals rfl

/-- A defined transfer that is ready on LC outside delay slots issues. -/
theorem Mach.lcIssue_xfer {m : Mach} {w : W32} (h : m.lReady w) (hd : defined false w = true) (hb : m.lNow.lc.btc = 0)
    (body : Mach → Lc → LcRes) :
    m.lcIssue w true body = match body m.lNow m.lNow.lc with
      | .bad c => m.lNow.lcFault c
      | .good x ws t ret => x.lcAdvance true ws t ret
      | .sleep => m.lNow.lcWait := by
  obtain ⟨h1, h2, h3⟩ := h
  unfold Mach.lNow at *
  unfold Mach.lcIssue
  simp only [h1, h2, h3, hd, hb, beq_self_eq_true, Bool.and_self, decide_true, if_true, Bool.not_true, Bool.false_eq_true, if_false,
    ne_eq, not_true_eq_false, and_false]
  all_goals rfl

/-- The advance after an instruction that is no transfer. -/
theorem Mach.advance_done (m : Mach) (n : Nat) (e : Eff) : m.advance n false e = m.tDone n e.slots e.ws := by
  simp [Mach.advance, Mach.tDone]

/-- The advance after a transfer. -/
theorem Mach.advance_jumped (m : Mach) (n : Nat) (e : Eff) (h : e.slots = 1) :
    m.advance n true e = m.tJumped n e.xfer.join e.ending e.ws := by
  simp [Mach.advance, Mach.tJumped, h]

theorem Mach.lcAdvance_done (m : Mach) (ws : List (Nat × PTgt × Nat)) (x : Option (Option Nat)) :
    m.lcAdvance false ws x false = m.lDone ws := by
  simp [Mach.lcAdvance, Mach.lDone, Lc.writes]

theorem Mach.lcAdvance_jumped (m : Mach) (ws : List (Nat × PTgt × Nat)) (x : Option (Option Nat)) (ret : Bool) :
    m.lcAdvance true ws x ret = m.lJumped x.join ret ws := by
  simp [Mach.lcAdvance, Mach.lJumped]

/-! ### Words -/

/-- An instruction's operand is the register as its slot finds it. -/
theorem Mach.tNow_get (m : Mach) (n : Nat) (r : BitVec 5) : (m.tNow n).ctx.get r = m.tReg n r := rfl

theorem Mach.lNow_get (m : Mach) (r : BitVec 5) : m.lNow.lc.get r = m.lReg r := rfl

theorem isInt_tag {w : TWord} (h : isInt w = true) : wTag w = tagINT := by simpa [isInt] using h

/-- An INT passes every check that takes an INT. -/
theorem opCheck_int {w : TWord} (k : Nat) (h : isInt w = true) : opCheck w k (isInt w) = none := by
  have := isInt_tag h
  simp [opCheck, this, h, tagPOISON, tagKEY, tagINT]

/-- A word that is neither POISON nor KEY passes a check that accepts it. -/
theorem opCheck_ok {w : TWord} (k : Nat) (h : wTag w ≠ tagPOISON) (h' : wTag w ≠ tagKEY) : opCheck w k true = none := by
  simp [opCheck, h, h']

/-- A check that does not accept a word names TAG unless the word is POISON or KEY (R107, R109, R151). -/
theorem opCheck_bad {w : TWord} (k : Nat) (h : wTag w ≠ tagPOISON) (h' : wTag w ≠ tagKEY) :
    opCheck w k false = some ⟨1, k, 0⟩ := by
  simp [opCheck, h, h']

theorem payN_lt (w : TWord) : payN w < 2 ^ 60 := (wPay w).isLt

end Sys2Proof.Machine
end

