-- ==== Sys2Proof/Laws/RegWrite.lean ====
section
/-! SUPPORT. What software's write of one register comes to, for the registers that a command of the table writes: the write
reaches the register's own rule, and no gated unit wakes where the register belongs to none. -/

namespace Sys2Proof.Machine

open Sys2Proof

theorem Mach.regWrite_block (m : Mach) {a : Nat} (v : W32) (l : Bool) (h : (a % 4 = 0 ∧ a < 0x180000) ∧ regUnit a = none) :
    m.regWrite a v l = m.blockWrite (a / 0x10000) (a % 0x10000) v l := by
  rw [Mach.regWrite, if_pos h.1, Mach.accessWake, h.2]

theorem Mach.regWrite_unit (m : Mach) {a b u : Nat} (v : W32) (l : Bool) (h : (a % 4 = 0 ∧ a < 0x180000) ∧ regUnit a = some (b, u)) :
    m.regWrite a v l = (m.pwrWake b u).blockWrite (a / 0x10000) (a % 0x10000) v l := by
  rw [Mach.regWrite, if_pos h.1, Mach.accessWake, h.2]

theorem Mach.blockWrite_pwrctl (m : Mach) (b : Nat) (v : W32) (l : Bool) (h : b ≠ 13 ∨ m.lanternOn = true) :
    m.blockWrite b 0xFF00 v l = m.pwrCtl b v := by
  have hb : (bridged b 0xFF00 && !m.lanternOn) = false := by
    rcases h with h | h
    · simp [bridged, blkMSH, h]
    · simp [h]
  unfold Mach.blockWrite; rw [hb, if_neg (by decide)]; exact if_pos rfl

theorem Mach.regWrite_PWRCTL (m : Mach) (b : Fin 24) (v : W32) (l : Bool) (h : b.val ≠ 13 ∨ m.lanternOn = true) :
    m.regWrite (PWRCTL b.val) v l = m.pwrCtl b.val v := by
  rw [Mach.regWrite_block m v l (by clear h; revert b; decide), show PWRCTL b.val % 0x10000 = 0xFF00 by clear h; revert b; decide,
    show PWRCTL b.val / 0x10000 = b.val by clear h; revert b; decide, Mach.blockWrite_pwrctl m b.val v l h]

theorem Mach.blockWrite_0 (m : Mach) {o : Nat} (v : W32) (l : Bool) (h : o < 0xFF00) : m.blockWrite 0 o v l = m.sysWrite o v := by
  unfold Mach.blockWrite; rw [show (bridged 0 o && !m.lanternOn) = false from rfl]; rw [if_neg (by decide), if_neg (by omega), if_neg (by omega), if_neg (by omega)]; rfl

theorem Mach.blockWrite_1 (m : Mach) {o : Nat} (v : W32) (l : Bool) (h : o < 0xFF00) : m.blockWrite 1 o v l = m.armWrite o v l := by
  unfold Mach.blockWrite; rw [show (bridged 1 o && !m.lanternOn) = false from rfl]; rw [if_neg (by decide), if_neg (by omega), if_neg (by omega), if_neg (by omega)]; rfl

theorem Mach.blockWrite_4 (m : Mach) {o : Nat} (v : W32) (l : Bool) (h : o < 0xFF00) : m.blockWrite 4 o v l = m.fqWrite o v := by
  unfold Mach.blockWrite; rw [show (bridged 4 o && !m.lanternOn) = false from rfl]; rw [if_neg (by decide), if_neg (by omega), if_neg (by omega), if_neg (by omega)]; rfl

theorem Mach.blockWrite_5 (m : Mach) {o : Nat} (v : W32) (l : Bool) (h : o < 0xFF00) : m.blockWrite 5 o v l = m.rfWrite 0 o v := by
  unfold Mach.blockWrite; rw [show (bridged 5 o && !m.lanternOn) = false from rfl]; rw [if_neg (by decide), if_neg (by omega), if_neg (by omega), if_neg (by omega)]; rfl

theorem Mach.blockWrite_6 (m : Mach) {o : Nat} (v : W32) (l : Bool) (h : o < 0xFF00) : m.blockWrite 6 o v l = m.rfWrite 1 o v := by
  unfold Mach.blockWrite; rw [show (bridged 6 o && !m.lanternOn) = false from rfl]; rw [if_neg (by decide), if_neg (by omega), if_neg (by omega), if_neg (by omega)]; rfl

theorem Mach.blockWrite_7 (m : Mach) {o : Nat} (v : W32) (l : Bool) (h : o < 0xFF00) : m.blockWrite 7 o v l = m.rfWrite 2 o v := by
  unfold Mach.blockWrite; rw [show (bridged 7 o && !m.lanternOn) = false from rfl]; rw [if_neg (by decide), if_neg (by omega), if_neg (by omega), if_neg (by omega)]; rfl

theorem Mach.blockWrite_11 (m : Mach) {o : Nat} (v : W32) (l : Bool) (h : o < 0xFF00) : m.blockWrite 11 o v l = m.wmacWrite o v := by
  unfold Mach.blockWrite; rw [show (bridged 11 o && !m.lanternOn) = false from rfl]; rw [if_neg (by decide), if_neg (by omega), if_neg (by omega), if_neg (by omega)]; rfl

theorem Mach.blockWrite_12 (m : Mach) {o : Nat} (v : W32) (l : Bool) (h : o < 0xFF00) : m.blockWrite 12 o v l = m.aschWrite o v := by
  unfold Mach.blockWrite; rw [show (bridged 12 o && !m.lanternOn) = false from rfl]; rw [if_neg (by decide), if_neg (by omega), if_neg (by omega), if_neg (by omega)]; rfl

theorem Mach.blockWrite_13 (m : Mach) {o : Nat} (v : W32) (l : Bool) (h : o < 0xFF00) (hl : m.lanternOn = true) :
    m.blockWrite 13 o v l = m.mshWrite o v := by
  unfold Mach.blockWrite; rw [hl, Bool.not_true, Bool.and_false]; rw [if_neg (by decide), if_neg (by omega), if_neg (by omega), if_neg (by omega)]; rfl

theorem Mach.blockWrite_14 (m : Mach) {o : Nat} (v : W32) (l : Bool) (h : o < 0xFF00) : m.blockWrite 14 o v l = m.uplWrite o v := by
  unfold Mach.blockWrite; rw [show (bridged 14 o && !m.lanternOn) = false from rfl]; rw [if_neg (by decide), if_neg (by omega), if_neg (by omega), if_neg (by omega)]; rfl

theorem Mach.blockWrite_15 (m : Mach) {o : Nat} (v : W32) (l : Bool) (h : o < 0xFF00) : m.blockWrite 15 o v l = m.rteWrite o v := by
  unfold Mach.blockWrite; rw [show (bridged 15 o && !m.lanternOn) = false from rfl]; rw [if_neg (by decide), if_neg (by omega), if_neg (by omega), if_neg (by omega)]; rfl

theorem Mach.blockWrite_16 (m : Mach) {o : Nat} (v : W32) (l : Bool) (h : o < 0xFF00) : m.blockWrite 16 o v l = m.memWrite o v := by
  unfold Mach.blockWrite; rw [show (bridged 16 o && !m.lanternOn) = false from rfl]; rw [if_neg (by decide), if_neg (by omega), if_neg (by omega), if_neg (by omega)]; rfl

theorem Mach.blockWrite_17 (m : Mach) {o : Nat} (v : W32) (l : Bool) (h : o < 0xFF00) : m.blockWrite 17 o v l = m.chkWrite o v := by
  unfold Mach.blockWrite; rw [show (bridged 17 o && !m.lanternOn) = false from rfl]; rw [if_neg (by decide), if_neg (by omega), if_neg (by omega), if_neg (by omega)]; rfl

theorem Mach.blockWrite_18 (m : Mach) {o : Nat} (v : W32) (l : Bool) (h : o < 0xFF00) : m.blockWrite 18 o v l = m.timWrite o v := by
  unfold Mach.blockWrite; rw [show (bridged 18 o && !m.lanternOn) = false from rfl]; rw [if_neg (by decide), if_neg (by omega), if_neg (by omega), if_neg (by omega)]; rfl

theorem Mach.blockWrite_19 (m : Mach) {o : Nat} (v : W32) (l : Bool) (h : o < 0xFF00) : m.blockWrite 19 o v l = m.hifWrite o v := by
  unfold Mach.blockWrite; rw [show (bridged 19 o && !m.lanternOn) = false from rfl]; rw [if_neg (by decide), if_neg (by omega), if_neg (by omega), if_neg (by omega)]; rfl

theorem Mach.blockWrite_20 (m : Mach) {o : Nat} (v : W32) (l : Bool) (h : o < 0xFF00) : m.blockWrite 20 o v l = m.chnWrite o v := by
  unfold Mach.blockWrite; rw [show (bridged 20 o && !m.lanternOn) = false from rfl]; rw [if_neg (by decide), if_neg (by omega), if_neg (by omega), if_neg (by omega)]; rfl

theorem Mach.blockWrite_21 (m : Mach) {o : Nat} (v : W32) (l : Bool) (h : o < 0xFF00) : m.blockWrite 21 o v l = m.fltWrite o v := by
  unfold Mach.blockWrite; rw [show (bridged 21 o && !m.lanternOn) = false from rfl]; rw [if_neg (by decide), if_neg (by omega), if_neg (by omega), if_neg (by omega)]; rfl

theorem Mach.blockWrite_22 (m : Mach) {o : Nat} (v : W32) (l : Bool) (h : o < 0xFF00) : m.blockWrite 22 o v l = m.nvmRegWrite o v := by
  unfold Mach.blockWrite; rw [show (bridged 22 o && !m.lanternOn) = false from rfl]; rw [if_neg (by decide), if_neg (by omega), if_neg (by omega), if_neg (by omega)]; rfl

theorem Mach.blockWrite_23 (m : Mach) {o : Nat} (v : W32) (l : Bool) (h : o < 0xFF00) : m.blockWrite 23 o v l = m.idmWrite o v := by
  unfold Mach.blockWrite; rw [show (bridged 23 o && !m.lanternOn) = false from rfl]; rw [if_neg (by decide), if_neg (by omega), if_neg (by omega), if_neg (by omega)]; rfl

theorem Mach.regWrite_SYS_BOOTCTL (m : Mach) (v : W32) (l : Bool) : m.regWrite SYS_BOOTCTL v l =
    ((m.wr SYS_BOOTCTL fSYS_BOOTCTL_TB4_SITE (getFld v fSYS_BOOTCTL_TB4_SITE)).when (getFld v fSYS_BOOTCTL_AUTO_CANCEL == 1) Mach.autoCancel) := by
  rw [Mach.regWrite_block m v l (by decide)]
  rw [show SYS_BOOTCTL / 0x10000 = 0 by decide]
  rw [show SYS_BOOTCTL % 0x10000 = 0x1C by decide]
  rw [Mach.blockWrite_0 m v l (by decide)]
  simp [Mach.sysWrite]

theorem Mach.regWrite_ASCH_TPLCTL (m : Mach) (v : W32) (l : Bool) : m.regWrite ASCH_TPLCTL v l =
    ((m.when (getFld v fASCH_TPLCTL_SEAL == 1) Mach.tplSeal).when (getFld v fASCH_TPLCTL_CLEAR == 1) Mach.tplClear) := by
  rw [Mach.regWrite_block m v l (by decide)]
  rw [show ASCH_TPLCTL / 0x10000 = 12 by decide]
  rw [show ASCH_TPLCTL % 0x10000 = 0xC by decide]
  rw [Mach.blockWrite_12 m v l (by decide)]
  simp [Mach.aschWrite]

theorem Mach.regWrite_CHN_PAIRCTL (m : Mach) (v : W32) (l : Bool) : m.regWrite CHN_PAIRCTL v l =
    (((m.when (getFld v fCHN_PAIRCTL_FTEST == 1) Mach.ftest).when (getFld v fCHN_PAIRCTL_SWITCH == 1) Mach.switch).when
      (getFld v fCHN_PAIRCTL_UNFENCE == 1) Mach.unfence) := by
  rw [Mach.regWrite_block m v l (by decide)]
  rw [show CHN_PAIRCTL / 0x10000 = 20 by decide]
  rw [show CHN_PAIRCTL % 0x10000 = 0x24 by decide]
  rw [Mach.blockWrite_20 m v l (by decide)]
  rfl

theorem Mach.regWrite_CHN_PNJUMP (m : Mach) (v : W32) (l : Bool) : m.regWrite CHN_PNJUMP v l =
    (m.pnJump v) := by
  rw [Mach.regWrite_block m v l (by decide)]
  rw [show CHN_PNJUMP / 0x10000 = 20 by decide]
  rw [show CHN_PNJUMP % 0x10000 = 0x34 by decide]
  rw [Mach.blockWrite_20 m v l (by decide)]
  rfl

theorem Mach.regWrite_ARM_KEYREVOKE (m : Mach) (v : W32) (l : Bool) : m.regWrite ARM_KEYREVOKE v l =
    (m.keyRevoke (v.toNat % 2)) := by
  rw [Mach.regWrite_block m v l (by decide)]
  rw [show ARM_KEYREVOKE / 0x10000 = 1 by decide]
  rw [show ARM_KEYREVOKE % 0x10000 = 0x5C by decide]
  rw [Mach.blockWrite_1 m v l (by decide)]
  simp [Mach.armWrite]

theorem Mach.regWrite_ARM_VRCTL (m : Mach) (v : W32) (l : Bool) : m.regWrite ARM_VRCTL v l =
    (m.vrWrite v l) := by
  rw [Mach.regWrite_block m v l (by decide)]
  rw [show ARM_VRCTL / 0x10000 = 1 by decide]
  rw [show ARM_VRCTL % 0x10000 = 0x28 by decide]
  rw [Mach.blockWrite_1 m v l (by decide)]
  simp [Mach.armWrite]

theorem Mach.regWrite_ARM_SWAPCTL (m : Mach) (v : W32) (l : Bool) : m.regWrite ARM_SWAPCTL v l =
    (m.unlessAuto ARM_SWAPCTL fun x =>
      (x.when (getFld v fARM_SWAPCTL_ARM == 1) Mach.swapArm).when (getFld v fARM_SWAPCTL_CANCEL == 1) Mach.swapCancel) := by
  rw [Mach.regWrite_block m v l (by decide)]
  rw [show ARM_SWAPCTL / 0x10000 = 1 by decide]
  rw [show ARM_SWAPCTL % 0x10000 = 0x20 by decide]
  rw [Mach.blockWrite_1 m v l (by decide)]
  simp [Mach.armWrite]

theorem Mach.regWrite_ARM_LDCTL (m : Mach) (v : W32) (l : Bool) : m.regWrite ARM_LDCTL v l =
    (m.unlessAuto ARM_LDCTL fun x => x.ldCtlWrite v) := by
  rw [Mach.regWrite_block m v l (by decide)]
  rw [show ARM_LDCTL / 0x10000 = 1 by decide]
  rw [show ARM_LDCTL % 0x10000 = 0x4 by decide]
  rw [Mach.blockWrite_1 m v l (by decide)]
  simp [Mach.armWrite]

theorem Mach.regWrite_ARM_PROFCTL (m : Mach) (v : W32) (l : Bool) : m.regWrite ARM_PROFCTL v l =
    (m.unlessAuto ARM_PROFCTL fun x =>
      if getFld v fARM_PROFCTL_GO = 1 then x.profileGo (getFld v fARM_PROFCTL_TARGET)
      else x.wr ARM_PROFCTL fARM_PROFCTL_TARGET (getFld v fARM_PROFCTL_TARGET)) := by
  rw [Mach.regWrite_block m v l (by decide)]
  rw [show ARM_PROFCTL / 0x10000 = 1 by decide]
  rw [show ARM_PROFCTL % 0x10000 = 0x24 by decide]
  rw [Mach.blockWrite_1 m v l (by decide)]
  simp [Mach.armWrite]

theorem Mach.regWrite_ARM_PLINTH (m : Mach) (v : W32) (l : Bool) : m.regWrite ARM_PLINTH v l =
    (m.unlessAuto ARM_PLINTH fun x => x.plinthSet v) := by
  rw [Mach.regWrite_block m v l (by decide)]
  rw [show ARM_PLINTH / 0x10000 = 1 by decide]
  rw [show ARM_PLINTH % 0x10000 = 0x48 by decide]
  rw [Mach.blockWrite_1 m v l (by decide)]
  simp [Mach.armWrite]

theorem Mach.regWrite_ARM_MMCTL (m : Mach) (v : W32) (l : Bool) : m.regWrite ARM_MMCTL v l =
    ((m.plainWrite ARM_MMCTL (putFld v fARM_MMCTL_MINCLR 0)).when (getFld v fARM_MMCTL_MINCLR == 1) Mach.minClear) := by
  rw [Mach.regWrite_block m v l (by decide)]
  rw [show ARM_MMCTL / 0x10000 = 1 by decide]
  rw [show ARM_MMCTL % 0x10000 = 0x40 by decide]
  rw [Mach.blockWrite_1 m v l (by decide)]
  simp [Mach.armWrite]

theorem Mach.regWrite_FLT_CKCTL (m : Mach) (v : W32) (l : Bool) : m.regWrite FLT_CKCTL v l =
    ((m.plainWrite FLT_CKCTL v).ckRestore) := by
  rw [Mach.regWrite_block m v l (by decide)]
  rw [show FLT_CKCTL / 0x10000 = 21 by decide]
  rw [show FLT_CKCTL % 0x10000 = 0x20 by decide]
  rw [Mach.blockWrite_21 m v l (by decide)]
  simp [Mach.fltWrite, blkFLT, FLT_CKCTL]

theorem Mach.regWrite_MEM_CTL (m : Mach) (v : W32) (l : Bool) : m.regWrite MEM_CTL v l =
    ((m.plainWrite MEM_CTL (putFld v fMEM_CTL_TRAIN 0)).when (getFld v fMEM_CTL_TRAIN == 1) Mach.memTrain) := by
  rw [Mach.regWrite_block m v l (by decide)]
  rw [show MEM_CTL / 0x10000 = 16 by decide]
  rw [show MEM_CTL % 0x10000 = 0x0 by decide]
  rw [Mach.blockWrite_16 m v l (by decide)]
  simp [Mach.memWrite]

theorem Mach.regWrite_NVM_LOCKKEY (m : Mach) (v : W32) (l : Bool) : m.regWrite NVM_LOCKKEY v l =
    (m.lockKey v) := by
  rw [Mach.regWrite_block m v l (by decide)]
  rw [show NVM_LOCKKEY / 0x10000 = 22 by decide]
  rw [show NVM_LOCKKEY % 0x10000 = 0x4 by decide]
  rw [Mach.blockWrite_22 m v l (by decide)]
  simp [Mach.nvmRegWrite]

theorem Mach.regWrite_DSP_HOSTSIG (m : Mach) (v : W32) (l : Bool) : m.regWrite DSP_HOSTSIG v l =
    (m.sendNamed v) := by
  rw [Mach.regWrite_block m v l (by decide)]
  rw [show DSP_HOSTSIG / 0x10000 = 3 by decide]
  rw [show DSP_HOSTSIG % 0x10000 = 0x400 by decide]
  unfold Mach.blockWrite; rw [show (bridged 3 0x400 && !m.lanternOn) = false from rfl]
  rw [if_neg (by decide), if_neg (by decide), if_neg (by decide), if_neg (by decide)]; rfl

theorem Mach.regWrite_TIM_CAPCTL (m : Mach) (v : W32) (l : Bool) : m.regWrite TIM_CAPCTL v l =
    ((m.wr TIM_CAPCTL fTIM_CAPCTL_PIN_EN (getFld v fTIM_CAPCTL_PIN_EN)).when (getFld v fTIM_CAPCTL_GO == 1) Mach.capture) := by
  rw [Mach.regWrite_block m v l (by decide)]
  rw [show TIM_CAPCTL / 0x10000 = 18 by decide]
  rw [show TIM_CAPCTL % 0x10000 = 0x204 by decide]
  rw [Mach.blockWrite_18 m v l (by decide)]
  simp [Mach.timWrite]

theorem Mach.regWrite_TIM_CTL (m : Mach) (v : W32) (l : Bool) : m.regWrite TIM_CTL v l =
    (m.timCtl v) := by
  rw [Mach.regWrite_block m v l (by decide)]
  rw [show TIM_CTL / 0x10000 = 18 by decide]
  rw [show TIM_CTL % 0x10000 = 0x200 by decide]
  rw [Mach.blockWrite_18 m v l (by decide)]
  simp [Mach.timWrite]


end Sys2Proof.Machine
end

