-- ==== Sys2Proof/Laws/Shared.lean ====
section
/-! SUPPORT. What the shared operations can change: events (R587 to R590), reports of ignored and refused requests (R763), counters,
POISON_NOTEs (R507), the journal (R670 to R674) and fault records (R684). Each is said once, by the parts the operation may touch. -/

namespace Sys2Proof.Machine

open Sys2Proof

/-! ### The frame relation -/

theorem Mach.keepsBut_refl (m : Mach) (ps : List Part) : m.keepsBut ps m := fun p _ => by cases p <;> rfl

theorem Mach.keepsBut_trans {m k l : Mach} {ps qs : List Part} (h : m.keepsBut ps k) (g : k.keepsBut qs l) :
    m.keepsBut (ps ++ qs) l := fun p hp => by
  have h1 := h p fun x => hp (List.mem_append_left _ x)
  have h2 := g p fun x => hp (List.mem_append_right _ x)
  cases p <;> exact Eq.trans h1 h2

theorem Mach.keepsBut_mono {m k : Mach} {ps qs : List Part} (h : m.keepsBut ps k) (s : ps ⊆ qs) : m.keepsBut qs k :=
  fun p hp => h p fun x => hp (s x)

/-- Two changes within the same parts stay within them. -/
theorem Mach.keepsBut_step {m k l : Mach} {ps : List Part} (h : m.keepsBut ps k) (g : k.keepsBut ps l) : m.keepsBut ps l :=
  Mach.keepsBut_mono (Mach.keepsBut_trans h g) fun _ hp => (List.mem_append.mp hp).elim id id

/-! ### One part -/

theorem Mach.setReg_keeps (m : Mach) (a : Nat) (v : W32) : (m.setReg a v).keepsBut [.regs] m := fun p hp => by
  cases p <;> first | exact absurd (List.mem_singleton.mpr rfl) hp | rfl

theorem Mach.wr_keeps (m : Mach) (a : Nat) (f : Fld) (v : Nat) : (m.wr a f v).keepsBut [.regs] m := m.setReg_keeps a _

theorem Mach.count_keeps (m : Mach) (a : Nat) (f : Fld) (k : Nat) : (m.count a f k).keepsBut [.regs] m := m.wr_keeps a f _

theorem Mach.hifMod_keeps (m : Mach) (f : HifSt → HifSt) : (m.hifMod f).keepsBut [.hif] m := fun p hp => by
  cases p <;> first | exact absurd (List.mem_singleton.mpr rfl) hp | rfl

theorem Mach.fltMod_keeps (m : Mach) (f : FltSt → FltSt) : (m.fltMod f).keepsBut [.flt] m := fun p hp => by
  cases p <;> first | exact absurd (List.mem_singleton.mpr rfl) hp | rfl

theorem Mach.memMod_keeps (m : Mach) (f : MemSt → MemSt) : (m.memMod f).keepsBut [.mem] m := fun p hp => by
  cases p <;> first | exact absurd (List.mem_singleton.mpr rfl) hp | rfl

theorem Mach.chnMod_keeps (m : Mach) (f : ChnSt → ChnSt) : (m.chnMod f).keepsBut [.chn] m := fun p hp => by
  cases p <;> first | exact absurd (List.mem_singleton.mpr rfl) hp | rfl

/-- What each element of a list keeps, all of them keep. -/
theorem Mach.forEach_keeps {α : Type} {ps : List Part} (f : Mach → α → Mach) (h : ∀ x a, (f x a).keepsBut ps x) (l : List α) :
    ∀ m : Mach, (m.forEach l f).keepsBut ps m := by
  induction l with
  | nil => exact fun m => m.keepsBut_refl ps
  | cons a r ih => exact fun m => Mach.keepsBut_step (ih (f m a)) (h m a)

/-! ### Reports, events and notes -/

theorem Mach.report_keeps (m : Mach) (b k i : Nat) : (m.report b k i).keepsBut [.regs] m :=
  Mach.keepsBut_step (Mach.wr_keeps _ _ _ _) (Mach.keepsBut_step (Mach.wr_keeps _ _ _ _) (Mach.count_keeps _ _ _ _))

theorem Mach.report_reg (m : Mach) (b k i a : Nat) (h : a ≠ BLKFAULT b) : (m.report b k i).reg a = m.reg a := by
  simp only [Mach.report, Mach.count, Mach.reg_wr_if, if_neg h]

theorem Mach.ignored_keeps (m : Mach) (a : Nat) : (m.ignored a).keepsBut [.regs] m := m.report_keeps _ _ _

theorem Mach.hostWrite_keeps (m : Mach) (a : Nat) (l : List Byte) : (m.hostWrite a l).keepsBut [.hif] m := m.hifMod_keeps _

theorem Mach.writeEvent_keeps (m : Mach) (e : Event) : (m.writeEvent e).keepsBut [.hif] m :=
  Mach.keepsBut_step (Mach.hifMod_keeps _ _) (Mach.hostWrite_keeps _ _ _)

theorem Mach.writeEvent_reg (m : Mach) (e : Event) (a : Nat) : (m.writeEvent e).reg a = m.reg a := by
  have h := m.writeEvent_keeps e .regs (by decide)
  simp only [Part.same] at h
  simp only [Mach.reg, h]

theorem Mach.putEvent_keeps (m : Mach) (e : Event) : (m.putEvent e).keepsBut [.regs, .hif] m := by
  unfold Mach.putEvent
  split
  · exact Mach.keepsBut_mono (m.writeEvent_keeps e) (by simp)
  · split
    · exact Mach.keepsBut_mono (m.hifMod_keeps _) (by simp)
    · exact Mach.keepsBut_trans (Mach.count_keeps _ _ _ _) (m.hifMod_keeps _)

theorem Mach.putEvent_reg (m : Mach) (e : Event) (a : Nat) (h : a ≠ HIF_CNT0) : (m.putEvent e).reg a = m.reg a := by
  unfold Mach.putEvent
  split
  · exact m.writeEvent_reg e a
  · split
    · simp only [Mach.reg_hifMod]
    · simp only [Mach.count, Mach.reg_wr_if, if_neg h, Mach.reg_hifMod]

theorem Mach.event_keeps (m : Mach) (c u : Nat) (l : List (Nat × Nat)) (b : Bool) : (m.event c u l b).keepsBut [.regs, .hif] m :=
  m.putEvent_keeps _

theorem Mach.event_reg (m : Mach) (c u : Nat) (l : List (Nat × Nat)) (b : Bool) (a : Nat) (h : a ≠ HIF_CNT0) :
    (m.event c u l b).reg a = m.reg a := m.putEvent_reg _ a h

theorem Mach.notice_keeps (m : Mach) (r c u : Nat) (l : List (Nat × Nat)) : (m.notice r c u l).keepsBut [.regs, .hif] m :=
  m.putEvent_keeps _

theorem Mach.notice_reg (m : Mach) (r c u : Nat) (l : List (Nat × Nat)) (a : Nat) (h : a ≠ HIF_CNT0) :
    (m.notice r c u l).reg a = m.reg a := m.putEvent_reg _ a h

theorem Mach.setRole_keeps (m : Mach) (r : Nat) : (m.setRole r).keepsBut [.regs, .chn, .hif] m := by
  have h : ((m.wr CHN_STAT fCHN_STAT_ROLE r).event 0x1406 0 [(1, r)]).keepsBut [.regs, .chn, .hif] m :=
    Mach.keepsBut_step (Mach.keepsBut_mono (Mach.event_keeps _ _ _ _ _) (by simp)) (Mach.keepsBut_mono (m.wr_keeps _ _ _) (by simp))
  unfold Mach.setRole
  split
  · exact m.keepsBut_refl _
  · dsimp only
    split
    · exact Mach.keepsBut_step (Mach.keepsBut_mono (Mach.chnMod_keeps _ _) (by simp)) h
    · exact h

theorem Mach.note_keeps (m : Mach) (s p : Nat) (w : Code) (a : Nat) : (m.note s p w a).keepsBut [.flt] m := m.fltMod_keeps _

/-! ### The journal and fault records -/

theorem Mach.jWord_keeps (m : Mach) (w : Code) : (m.jWord w).keepsBut [.regs, .mem] m :=
  Mach.keepsBut_trans (Mach.wr_keeps _ _ _ _) (Mach.memMod_keeps _ _)

theorem Mach.jPad_keeps (m : Mach) (n : Nat) : (m.jPad n).keepsBut [.regs, .mem] m := by
  unfold Mach.jPad
  split
  · exact Mach.keepsBut_step (Mach.keepsBut_mono (Mach.wr_keeps _ _ _ _) (by simp)) (m.jWord_keeps _)
  · exact m.keepsBut_refl _

theorem Mach.guySend_keeps (m : Mach) (p : Nat) (f : GFrame) : (m.guySend p f).keepsBut [.chn] m := m.chnMod_keeps _

theorem Mach.toStandby_keeps (m : Mach) (f : GFrame) : (m.toStandby f).keepsBut [.chn] m := by
  unfold Mach.toStandby
  split
  · exact Mach.keepsBut_step (Mach.chnMod_keeps _ _) (m.guySend_keeps _ _)
  · exact m.keepsBut_refl _

theorem Mach.mirror_keeps (m : Mach) (t : Nat) (l : List Code) : (m.mirror t l).keepsBut [.chn] m := by
  unfold Mach.mirror
  split
  · exact Mach.forEach_keeps _ (fun x w => x.toStandby_keeps _) _ m
  · exact m.keepsBut_refl _

theorem Mach.journal_keeps (m : Mach) (t s f ts a : Nat) (l : List Code) :
    (m.journal t s f ts a l).keepsBut [.regs, .mem, .flt, .chn] m := by
  unfold Mach.journal
  split
  · have h : ∀ n w, ((((m.jPad n).jWord w).jWords l).fltMod fun f => { f with ahead := f.ahead + 1 + l.length }).keepsBut
        [.regs, .mem, .flt, .chn] m := fun n w =>
      Mach.keepsBut_step (Mach.keepsBut_mono (Mach.fltMod_keeps _ _) (by simp))
        (Mach.keepsBut_step (Mach.keepsBut_mono (Mach.forEach_keeps _ (fun x w => x.jWord_keeps w) l _) (by simp))
          (Mach.keepsBut_step (Mach.keepsBut_mono (Mach.jWord_keeps _ _) (by simp))
            (Mach.keepsBut_mono (m.jPad_keeps _) (by simp))))
    dsimp only
    split
    · exact h _ _
    · exact Mach.keepsBut_step (Mach.keepsBut_mono (Mach.mirror_keeps _ _ _) (by simp)) (h _ _)
  · exact m.keepsBut_refl _

theorem Mach.faultRecord_keeps (m : Mach) (r : FaultRec) : (m.faultRecord r).keepsBut [.regs, .mem, .flt, .chn] m := by
  unfold Mach.faultRecord
  have h : (m.when m.jrun fun x => x.jPad 3).keepsBut [.regs, .mem, .flt, .chn] m := by
    unfold Mach.when
    split
    · exact Mach.keepsBut_mono (m.jPad_keeps 3) (by simp)
    · exact m.keepsBut_refl _
  exact Mach.keepsBut_step (Mach.journal_keeps _ _ _ _ _ _ _)
    (Mach.keepsBut_step (Mach.keepsBut_mono (Mach.wr_keeps _ _ _ _) (by simp))
      (Mach.keepsBut_step (Mach.keepsBut_mono (Mach.fltMod_keeps _ _) (by simp)) h))

end Sys2Proof.Machine
end

