-- ==== Sys2Proof/Laws/Words.lean ====
section
/-! SUPPORT. Words, results and flags of the engines (R104, R122, R152, R153): what each arithmetic operation leaves pending. -/

namespace Sys2Proof.Machine

open Sys2Proof

/-! ### Words -/

@[simp] theorem intWord_toNat (x : BitVec 60) : intWord x.toNat = mkWord tagINT x := by simp [intWord]

theorem wTag_mkWord (t : Nat) (p : BitVec 60) : wTag (mkWord t p) = t % 16 := by
  have h : (mkWord t p).toNat = (BitVec.ofNat 4 t).toNat * 2 ^ 60 + p.toNat := toNat_append _ _
  have hp := p.isLt
  simp only [wTag, BitVec.extractLsb'_toNat, h, BitVec.toNat_ofNat, Nat.shiftRight_eq_div_pow]
  omega

theorem wPay_mkWord (t : Nat) (p : BitVec 60) (h : t % 16 ≠ 0) : wPay (mkWord t p) = p := by
  have e : (mkWord t p).toNat = (BitVec.ofNat 4 t).toNat * 2 ^ 60 + p.toNat := toNat_append _ _
  have hp := p.isLt
  unfold wPay
  rw [wTag_mkWord, if_neg (by simpa [tagNIL] using h)]
  apply BitVec.eq_of_toNat_eq
  simp only [BitVec.extractLsb'_toNat, e, Nat.shiftRight_zero]
  omega

@[simp] theorem isInt_intWord (n : Nat) : isInt (intWord n) = true := by simp [isInt, intWord, wTag_mkWord, tagINT]

@[simp] theorem wPay_intWord (n : Nat) : wPay (intWord n) = BitVec.ofNat 60 n := wPay_mkWord _ _ (by decide)

@[simp] theorem payN_intWord (n : Nat) : payN (intWord n) = n % 2 ^ 60 := by simp [payN]

@[simp] theorem isInt_simm (x : Int) : isInt (simm x) = true := isInt_intWord _

theorem signedOf_toInt {w : Nat} (hw : 0 < w) (v : BitVec w) : signedOf w v.toNat = v.toInt := by
  unfold signedOf
  rw [BitVec.toInt_eq_toNat_cond]
  obtain ⟨k, rfl⟩ : ∃ k, w = k + 1 := ⟨w - 1, by omega⟩
  have h2 : (2 : Nat) ^ (k + 1) = 2 * 2 ^ k := Nat.pow_succ'
  simp only [Nat.add_sub_cancel]
  split <;> split <;> first | rfl | omega

theorem wrapInt_toInt (w : Nat) (x : Int) : wrapInt w x = (BitVec.ofInt w x).toNat := by
  simp [wrapInt, BitVec.toNat_ofInt]

theorem simm_signExtend {k : Nat} (imm : BitVec k) : simm imm.toInt = mkWord tagINT (imm.signExtend 60) := by
  simp only [simm, intWord, wrapInt_toInt, BitVec.ofNat_toNat, BitVec.setWidth_eq]
  rfl

theorem payN_simm {k : Nat} (imm : BitVec k) : payN (simm imm.toInt) = (imm.signExtend 60).toNat := by
  rw [simm_signExtend]
  simp [payN, wPay_mkWord _ _ (show tagINT % 16 ≠ 0 by decide)]

theorem signed_simm (imm : BitVec 16) : signedOf 60 (imm.signExtend 60).toNat = imm.toInt := by
  rw [signedOf_toInt (by decide), BitVec.toInt_signExtend_of_le (by decide)]

/-- The payload of a word that is not NIL, as a number. -/
theorem toNat_wPay (w : TWord) : (wPay w).toNat = payN w := rfl

/-! ### Flags -/

theorem outOfRange_eq (w : Nat) (x : Int) : outOfRange w x = overflows w x := by
  simp [outOfRange, overflows]

theorem wFlags_nz (d r : Nat) : wFlags d (nz 60 r) = flagNZ d r := by
  simp [wFlags, nz, flagNZ, toFlag, topBit, beq_eq_decide]

theorem wFlags_append (d : Nat) (a b : List (Nat × Bool)) : wFlags d (a ++ b) = wFlags d a ++ wFlags d b := by simp [wFlags]

theorem wFlags_cons (d f : Nat) (v : Bool) (r : List (Nat × Bool)) : wFlags d ((f, v) :: r) = toFlag d f v :: wFlags d r := rfl

theorem wFlags_nil (d : Nat) : wFlags d [] = [] := rfl

theorem wReg_eq (d : Nat) (rd : BitVec 5) (v : TWord) : wReg d rd v = [toReg d rd v] := rfl

/-! ### Operations on two INTs and on one -/

theorem teAlu_int {a b : TWord} (d : Nat) (op : Nat → Nat → Alu) (rd : BitVec 5) (m : Mach) (ha : isInt a = true) (hb : isInt b = true) :
    teAlu d op (some rd) a b m =
      .good { m, ws := toReg d rd (intWord (op (payN a) (payN b)).val) :: wFlags d (op (payN a) (payN b)).flags } := by
  simp [teAlu, opCheck_int _ ha, opCheck_int _ hb, Res.guard, wReg_eq]

theorem teAlu_flags {a b : TWord} (d : Nat) (op : Nat → Nat → Alu) (m : Mach) (ha : isInt a = true) (hb : isInt b = true) :
    teAlu d op none a b m = .good { m, ws := wFlags d (op (payN a) (payN b)).flags } := by
  simp [teAlu, opCheck_int _ ha, opCheck_int _ hb, Res.guard]

theorem teUnary_int {a : TWord} (op : Nat → Alu) (rd : BitVec 5) (m : Mach) (ha : isInt a = true) :
    teUnary op rd a m = .good { m, ws := toReg 1 rd (intWord (op (payN a)).val) :: wFlags 1 (op (payN a)).flags } := by
  simp [teUnary, opCheck_int _ ha, Res.guard, wReg_eq]

theorem notInt_of_tag {w : TWord} {t : Nat} (h : wTag w = t) (ht : t ≠ tagINT) : isInt w = false := by
  simp [isInt, h, ht]

end Sys2Proof.Machine
end

