-- ==== Sys2Proof/Laws/TeSpecs.lean ====
section
/-! SUPPORT. What each TE instruction's own part gives on the operands that R106 accepts (R152 to R160). -/

namespace Sys2Proof.Machine

open Sys2Proof

theorem aluAdd_flags (d a b : Nat) : wFlags d (aluAdd 60 a b).flags = flagNZ d ((a + b) % 2 ^ 60) ++
    [toFlag d flC (decide (2 ^ 60 ≤ a + b)), toFlag d flV (overflows 60 (signedOf 60 a + signedOf 60 b))] := by
  simp only [aluAdd, wFlags_append, wFlags_nz, wFlags_cons, wFlags_nil, outOfRange_eq]

theorem aluSub_flags (d a b : Nat) : wFlags d (aluSub 60 a b).flags = flagNZ d ((a + 2 ^ 60 - b) % 2 ^ 60) ++
    [toFlag d flC (decide (a < b)), toFlag d flV (overflows 60 (signedOf 60 a - signedOf 60 b))] := by
  simp only [aluSub, wFlags_append, wFlags_nz, wFlags_cons, wFlags_nil, outOfRange_eq]

theorem aluNeg_flags (d a : Nat) : wFlags d (aluNeg 60 a).flags = flagNZ d ((0 + 2 ^ 60 - a) % 2 ^ 60) ++
    [toFlag d flC (decide (0 < a)), toFlag d flV (overflows 60 (-signedOf 60 a))] := by
  rw [aluNeg, aluSub_flags]
  simp [signedOf]

theorem tag_ptr {w : TWord} (h : wTag w = tagPTR) : isInt w = false := notInt_of_tag h (by decide)
theorem tag_time {w : TWord} (h : wTag w = tagTIME) : isInt w = false := notInt_of_tag h (by decide)
theorem tag_desc {w : TWord} (h : wTag w = tagDESC) : isInt w = false := notInt_of_tag h (by decide)

theorem opCheck_tag {w : TWord} {t : Nat} (k : Nat) {b : Bool} (h : wTag w = t) (ht : t ≠ tagPOISON) (ht' : t ≠ tagKEY)
    (hb : b = true) : opCheck w k b = none := by
  subst hb; exact opCheck_ok k (h ▸ ht) (h ▸ ht')

theorem teAdd_int {a b : TWord} (rd : BitVec 5) (m : Mach) (ha : isInt a = true) (hb : isInt b = true) :
    teAddSub false rd a b m = .good { m, ws := toReg 1 rd (intWord ((payN a + payN b) % 2 ^ 60)) :: flagNZ 1 ((payN a + payN b) % 2 ^ 60) ++
      [toFlag 1 flC (decide (2 ^ 60 ≤ payN a + payN b)), toFlag 1 flV (overflows 60 (signedOf 60 (payN a) + signedOf 60 (payN b)))] } := by
  simp only [teAddSub, ha, if_true, Bool.false_eq_true, if_false, teAlu_int 1 (aluAdd 60) rd m ha hb, aluAdd_flags]
  rfl

theorem teSub_int {a b : TWord} (rd : BitVec 5) (m : Mach) (ha : isInt a = true) (hb : isInt b = true) :
    teAddSub true rd a b m = .good { m, ws := (toReg 1 rd (intWord ((payN a + 2 ^ 60 - payN b) % 2 ^ 60)) ::
        flagNZ 1 ((payN a + 2 ^ 60 - payN b) % 2 ^ 60) ++
      [toFlag 1 flC (decide (payN a < payN b)), toFlag 1 flV (overflows 60 (signedOf 60 (payN a) - signedOf 60 (payN b)))]) } := by
  simp only [teAddSub, ha, if_true, teAlu_int 1 (aluSub 60) rd m ha hb, aluSub_flags]
  rfl

theorem mkPtr_mod {c a b : Nat} (h : a % 2 ^ 56 = b % 2 ^ 56) : mkPtr c a = mkPtr c b := by simp only [mkPtr, h]

theorem teAdd_ptr {a b : TWord} (rd : BitVec 5) (m : Mach) (ha : wTag a = tagPTR) (hb : isInt b = true) :
    teAddSub false rd a b m = .good { m, ws := [toReg 1 rd (mkPtr (ptrClass a) (ptrAddr a + payN b))] } := by
  have e : mkPtr (ptrClass a) (wPay a + wPay b).toNat = mkPtr (ptrClass a) (ptrAddr a + payN b) := by
    apply mkPtr_mod
    simp only [BitVec.toNat_add, toNat_wPay, ptrAddr]
    omega
  simp [teAddSub, tag_ptr ha, ha, hb, isInt_tag hb, opCheck, tagPTR, tagPOISON, tagKEY, tagINT, Res.guard, wReg_eq, ← e]

theorem teSub_ptr {a b : TWord} (rd : BitVec 5) (m : Mach) (ha : wTag a = tagPTR) (hb : isInt b = true) :
    teAddSub true rd a b m = .good { m, ws := [toReg 1 rd (mkPtr (ptrClass a) (ptrAddr a + 2 ^ 60 - payN b))] } := by
  have e : mkPtr (ptrClass a) (wPay a - wPay b).toNat = mkPtr (ptrClass a) (ptrAddr a + 2 ^ 60 - payN b) := by
    apply mkPtr_mod
    have := payN_lt b
    simp only [BitVec.toNat_sub, toNat_wPay, ptrAddr]
    omega
  simp [teAddSub, tag_ptr ha, ha, hb, isInt_tag hb, opCheck, tagPTR, tagPOISON, tagKEY, tagINT, Res.guard, wReg_eq]
  simpa using congrArg (toReg 1 rd) e

theorem teAddSub_time {a b : TWord} (sub : Bool) (rd : BitVec 5) (m : Mach) (ha : wTag a = tagTIME) (hb : isInt b = true) :
    teAddSub sub rd a b m = .good { m, ws := [toReg 1 rd (mkWord tagTIME (if sub then wPay a - wPay b else wPay a + wPay b))] } := by
  simp [teAddSub, tag_time ha, ha, hb, isInt_tag hb, opCheck, tagPTR, tagTIME, tagPOISON, tagKEY, tagINT, Res.guard, wReg_eq]

theorem teSub_same {a b : TWord} (rd : BitVec 5) (m : Mach) (ha : wTag a = tagPTR ∨ wTag a = tagTIME) (hb : wTag b = wTag a)
    (hc : wTag a = tagPTR → ptrClass a = ptrClass b) :
    teAddSub true rd a b m = .good { m, ws := [toReg 1 rd (mkWord tagINT (wPay a - wPay b))] } := by
  rcases ha with h | h
  · have h' := hb.trans h
    simp [teAddSub, tag_ptr h, tag_ptr h', opCheck, h, h', hc h, Res.guard, wReg_eq, tagPTR, tagPOISON, tagKEY, tagTIME]
  · have h' := hb.trans h
    simp [teAddSub, tag_time h, tag_time h', opCheck, h, h', Res.guard, wReg_eq, tagPTR, tagPOISON, tagKEY, tagTIME]

theorem teCmp_int {a b : TWord} (m : Mach) (ha : isInt a = true) (hb : isInt b = true) :
    teCmp a b m = .good { m, ws := flagNZ 1 ((payN a + 2 ^ 60 - payN b) % 2 ^ 60) ++
      [toFlag 1 flC (decide (payN a < payN b)), toFlag 1 flV (overflows 60 (signedOf 60 (payN a) - signedOf 60 (payN b)))] } := by
  simp only [teCmp, ha, if_true, teAlu_flags 1 (aluSub 60) m ha hb, aluSub_flags]

theorem teCmp_time {a b : TWord} (m : Mach) (ha : wTag a = tagTIME) (hb : wTag b = tagTIME) :
    teCmp a b m = .good { m, ws := flagNZ 1 ((payN a + 2 ^ 60 - payN b) % 2 ^ 60) ++
      [toFlag 1 flC (decide (payN a < payN b)), toFlag 1 flV (overflows 60 (signedOf 60 (payN a) - signedOf 60 (payN b)))] } := by
  simp [teCmp, tag_time ha, ha, hb, opCheck, Res.guard, aluSub_flags, tagPTR, tagPOISON, tagKEY, tagTIME]

theorem signedOf_addr (w : TWord) : signedOf 60 (ptrAddr w) = ptrAddr w := by
  have : ptrAddr w < 2 ^ 56 := Nat.mod_lt _ (by decide)
  unfold signedOf
  rw [if_pos (by omega)]

theorem teCmp_ptr {a b : TWord} (m : Mach) (ha : wTag a = tagPTR) (hb : wTag b = tagPTR) (hc : ptrClass a = ptrClass b) :
    teCmp a b m = .good { m, ws := flagNZ 1 ((ptrAddr a + 2 ^ 60 - ptrAddr b) % 2 ^ 60) ++
      [toFlag 1 flC (decide (ptrAddr a < ptrAddr b)), toFlag 1 flV (overflows 60 ((ptrAddr a : Int) - ptrAddr b))] } := by
  simp [teCmp, tag_ptr ha, ha, hb, hc, opCheck, Res.guard, aluSub_flags, signedOf_addr, tagPTR, tagPOISON, tagKEY]

/-! ### Logic and shifts -/

theorem payN_and (a b : TWord) : andNat (payN a) (payN b) % 2 ^ 60 = (wPay a &&& wPay b).toNat := by
  have : andNat (payN a) (payN b) = (wPay a &&& wPay b).toNat := (BitVec.toNat_and ..).symm
  rw [this, Nat.mod_eq_of_lt (BitVec.isLt _)]

theorem payN_or (a b : TWord) : orNat (payN a) (payN b) % 2 ^ 60 = (wPay a ||| wPay b).toNat := by
  have : orNat (payN a) (payN b) = (wPay a ||| wPay b).toNat := (BitVec.toNat_or ..).symm
  rw [this, Nat.mod_eq_of_lt (BitVec.isLt _)]

theorem payN_xor (a b : TWord) : xorNat (payN a) (payN b) % 2 ^ 60 = (wPay a ^^^ wPay b).toNat := by
  have : xorNat (payN a) (payN b) = (wPay a ^^^ wPay b).toNat := (BitVec.toNat_xor ..).symm
  rw [this, Nat.mod_eq_of_lt (BitVec.isLt _)]

theorem payN_not (a : TWord) : notNat 60 (payN a) % 2 ^ 60 = (~~~wPay a).toNat := by
  have := payN_lt a
  simp only [notNat, BitVec.toNat_not, toNat_wPay]
  omega

theorem payN_andn (a b : TWord) : andnNat 60 (payN a) (payN b) % 2 ^ 60 = (wPay a &&& ~~~wPay b).toNat := by
  have h : notNat 60 (payN b) = (~~~wPay b).toNat := by simp [notNat, BitVec.toNat_not, toNat_wPay]
  have : andnNat 60 (payN a) (payN b) = (wPay a &&& ~~~wPay b).toNat := by
    rw [BitVec.toNat_and, ← h]; rfl
  rw [this, Nat.mod_eq_of_lt (BitVec.isLt _)]

/-- A logic operation whose result is the number of `v`. -/
theorem teLogic_int {a b : TWord} (f : Nat → Nat → Nat) (rd : BitVec 5) (m : Mach) (v : BitVec 60) (ha : isInt a = true)
    (hb : isInt b = true) (hv : f (payN a) (payN b) % 2 ^ 60 = v.toNat) :
    teAlu 1 (logic f 60) (some rd) a b m = .good { m, ws := toReg 1 rd (mkWord tagINT v) :: flagNZ 1 v.toNat } := by
  rw [teAlu_int 1 _ rd m ha hb]
  simp only [logic, aluLogic, hv, wFlags_nz, intWord_toNat]

theorem teNot_int {a : TWord} (rd : BitVec 5) (m : Mach) (ha : isInt a = true) :
    teUnary (fun x => aluLogic 60 (notNat 60 x)) rd a m =
      .good { m, ws := toReg 1 rd (mkWord tagINT (~~~wPay a)) :: flagNZ 1 (~~~wPay a).toNat } := by
  rw [teUnary_int _ rd m ha]
  simp only [aluLogic, payN_not, wFlags_nz, intWord_toNat]

theorem wPay_uimm (imm : BitVec 16) : wPay (intWord imm.toNat) = imm.setWidth 60 := by
  rw [wPay_intWord]
  apply BitVec.eq_of_toNat_eq
  simp

theorem payN_uimm (imm : BitVec 16) : payN (intWord imm.toNat) = imm.toNat := by
  have := imm.isLt
  rw [payN_intWord]
  omega

end Sys2Proof.Machine
end

