-- ==== Sys2Proof/Laws/TeShift.lean ====
section
/-! SUPPORT. Shifts, products, quotients and fields of the TE as operations on 60-bit payloads (R122, R123, R153, R157 to R160). -/

namespace Sys2Proof.Machine

open Sys2Proof

theorem signed_payN (x : TWord) : signedOf 60 (payN x) = (wPay x).toInt := signedOf_toInt (by decide) _

theorem topBit_payN (x : TWord) : topBit 60 (payN x) = (wPay x).msb := by
  rw [BitVec.msb_eq_decide]; rfl

/-- Whether a left shift keeps the exact value is whether the value stays in range (R122). -/
theorem shl_overflow (a k : Nat) :
    (signedOf 60 a * (2 ^ k : Nat) != signedOf 60 (a * 2 ^ k % 2 ^ 60)) = overflows 60 (signedOf 60 a * 2 ^ k) := by
  have e : ((a * 2 ^ k % 2 ^ 60 : Nat) : Int) = signedOf 60 a * 2 ^ k % 2 ^ 60 := by
    push_cast
    unfold signedOf
    split
    · rfl
    · rw [sub_mul, Int.sub_emod]
      simp
  have hr : a * 2 ^ k % 2 ^ 60 < 2 ^ 60 := Nat.mod_lt _ (by decide)
  have hs : ((2 ^ k : Nat) : Int) = 2 ^ k := by push_cast; rfl
  rw [hs]
  generalize signedOf 60 a * 2 ^ k = y at *
  generalize a * 2 ^ k % 2 ^ 60 = r at *
  rw [Bool.eq_iff_iff]
  simp only [bne_iff_ne, ne_eq, overflows, Bool.or_eq_true, decide_eq_true_eq, signedOf]
  norm_num at *
  constructor
  · intro h; split at h <;> omega
  · intro h; split <;> omega

theorem teShl_int {a b : TWord} (rd : BitVec 5) (m : Mach) (k : Nat) (v : BitVec 60) (hk : payN b = k) (hv : v = wPay a <<< k)
    (ha : isInt a = true) (hb : isInt b = true) :
    teAlu 1 (aluShl 60) (some rd) a b m = .good { m, ws := toReg 1 rd (mkWord tagINT v) :: flagNZ 1 v.toNat ++
      (if k = 0 then [] else [toFlag 1 flC (decide (k < 60) && (wPay a).getLsbD (60 - k))]) ++
      (if k < 60 then [toFlag 1 flV (overflows 60 (signedOf 60 (payN a) * 2 ^ k))] else []) } := by
  rw [teAlu_int 1 _ rd m ha hb, hk]
  subst hv
  by_cases h : 60 ≤ k
  · have e : wPay a <<< k = 0#60 := BitVec.shiftLeft_eq_zero h
    have k0 : k ≠ 0 := by omega
    have k1 : ¬ k < 60 := by omega
    simp [aluShl, h, e, wFlags_append, wFlags_nz, wFlags_cons, wFlags_nil, k0, k1, intWord]
  · have e1 : payN a * 2 ^ k % 2 ^ 60 = (wPay a <<< k).toNat := by
      rw [BitVec.toNat_shiftLeft, Nat.shiftLeft_eq]; rfl
    have k1 : k < 60 := by omega
    have c : (payN a).testBit (60 - k) = (wPay a).getLsbD (60 - k) := rfl
    have o := shl_overflow (payN a) k
    rw [e1] at o
    simp only [aluShl, if_neg h, e1, intWord_toNat, wFlags_append, wFlags_nz, wFlags_cons, wFlags_nil, c, o, k1, decide_true, Bool.true_and,
      if_true]
    by_cases k0 : k = 0 <;> simp [k0, wFlags, toFlag]

theorem teShr_int {a b : TWord} (rd : BitVec 5) (m : Mach) (k : Nat) (v : BitVec 60) (hk : payN b = k) (hv : v = wPay a >>> k)
    (ha : isInt a = true) (hb : isInt b = true) :
    teAlu 1 (aluShr 60) (some rd) a b m = .good { m, ws := toReg 1 rd (mkWord tagINT v) :: flagNZ 1 v.toNat ++
      (if k = 0 then [] else [toFlag 1 flC (decide (k < 60) && (wPay a).getLsbD (k - 1))]) } := by
  rw [teAlu_int 1 _ rd m ha hb, hk]
  subst hv
  have e1 : payN a / 2 ^ k = (wPay a >>> k).toNat := by
    rw [BitVec.toNat_ushiftRight, Nat.shiftRight_eq_div_pow]; rfl
  by_cases h : 60 ≤ k
  · have e : wPay a >>> k = 0#60 := BitVec.ushiftRight_eq_zero h
    have k0 : k ≠ 0 := by omega
    have k1 : ¬ k < 60 := by omega
    simp [aluShr, h, e, wFlags_append, wFlags_nz, wFlags_cons, wFlags_nil, k0, k1, intWord]
  · have k1 : k < 60 := by omega
    have c : (payN a).testBit (k - 1) = (wPay a).getLsbD (k - 1) := rfl
    simp only [aluShr, if_neg h, e1, intWord_toNat, wFlags_append, wFlags_nz, c, k1, decide_true, Bool.true_and]
    by_cases k0 : k = 0 <;> simp [k0, wFlags, toFlag]

theorem sshiftRight_big (x : BitVec 60) (k : Nat) (h : 60 ≤ k) : (x.sshiftRight k).toNat = if x.msb then 2 ^ 60 - 1 else 0 := by
  by_cases hm : x.msb = true
  · rw [BitVec.sshiftRight_eq_of_msb_true hm, BitVec.ushiftRight_eq_zero h]
    simp [hm]
  · rw [BitVec.sshiftRight_eq_of_msb_false (by simpa using hm), BitVec.ushiftRight_eq_zero h]
    simp [hm]

theorem teSar_int {a b : TWord} (rd : BitVec 5) (m : Mach) (k : Nat) (v : BitVec 60) (hk : payN b = k) (hv : v = (wPay a).sshiftRight k)
    (ha : isInt a = true) (hb : isInt b = true) :
    teAlu 1 (aluSar 60) (some rd) a b m = .good { m, ws := toReg 1 rd (mkWord tagINT v) :: flagNZ 1 v.toNat ++
      (if k = 0 then [] else [toFlag 1 flC (if k < 60 then (wPay a).getLsbD (k - 1) else (wPay a).msb)]) } := by
  rw [teAlu_int 1 _ rd m ha hb, hk]
  subst hv
  by_cases h : 60 ≤ k
  · have k0 : k ≠ 0 := by omega
    have k1 : ¬ k < 60 := by omega
    have e := sshiftRight_big (wPay a) k h
    simp only [aluSar, if_pos h, topBit_payN, ← e, intWord_toNat, wFlags_append, wFlags_nz, wFlags_cons, wFlags_nil, k0, k1, if_false]
    rfl
  · have k1 : k < 60 := by omega
    have c : (payN a).testBit (k - 1) = (wPay a).getLsbD (k - 1) := rfl
    have e : wrapInt 60 (signedOf 60 (payN a) / (2 ^ k : Nat)) = ((wPay a).sshiftRight k).toNat := by
      rw [wrapInt_toInt, signed_payN, ← Int.shiftRight_eq_div_pow, ← BitVec.toInt_sshiftRight, BitVec.ofInt_toInt]
    simp only [aluSar, if_neg h, e, intWord_toNat, wFlags_append, wFlags_nz, c, k1, if_true]
    by_cases k0 : k = 0 <;> simp [k0, wFlags, toFlag]

/-! ### Products and quotients -/

theorem wrapInt_eq (x : Int) : wrapInt 60 x = (x % 2 ^ 60).toNat := by simp [wrapInt]

theorem teMul_int {a b : TWord} (rd : BitVec 5) (m : Mach) (p : Int) (hp : p = signedOf 60 (payN a) * signedOf 60 (payN b))
    (ha : isInt a = true) (hb : isInt b = true) :
    teAlu 4 (aluMul 60) (some rd) a b m = .good { m, ws := toReg 4 rd (intWord (p % 2 ^ 60).toNat) :: flagNZ 4 (p % 2 ^ 60).toNat ++
      [toFlag 4 flV (overflows 60 p)] } := by
  rw [teAlu_int 4 _ rd m ha hb]
  subst hp
  simp only [aluMul, wFlags_append, wFlags_nz, wFlags_cons, wFlags_nil, outOfRange_eq, wrapInt_eq]
  rfl

theorem teMulh_int {a b : TWord} (rd : BitVec 5) (m : Mach) (p : Int) (hp : p = signedOf 60 (payN a) * signedOf 60 (payN b))
    (ha : isInt a = true) (hb : isInt b = true) :
    teAlu 4 (aluMulh 60) (some rd) a b m = .good { m, ws := toReg 4 rd (intWord (p / 2 ^ 60 % 2 ^ 60).toNat) ::
      (flagNZ 4 (p / 2 ^ 60 % 2 ^ 60).toNat ++ [toFlag 4 flV false]) } := by
  rw [teAlu_int 4 _ rd m ha hb]
  subst hp
  simp only [aluMulh, wFlags_append, wFlags_nz, wFlags_cons, wFlags_nil, wrapInt_eq]
  norm_num

/-- The guards of DIV pass on INTs. -/
theorem teDiv_int {a b : TWord} (rd rr : BitVec 5) (trap : Bool) (w : W32) (c : Ctx) (m : Mach) (ha : isInt a = true) (hb : isInt b = true) :
    teDiv rd rr a b trap w c m = .good { m, ws := wFlags 12 (aluDiv 60 (payN a) (payN b)).2.2 ++
      (if trap && payN b == 0 then [(12, .dz c.pc w.toNat (if c.btc = 0 then none else c.bt) c.btc c.ending, 0)]
       else [toReg 12 rr (intWord (aluDiv 60 (payN a) (payN b)).2.1), toReg 12 rd (intWord (aluDiv 60 (payN a) (payN b)).1)]) } := by
  simp only [teDiv, opCheck_int _ ha, opCheck_int _ hb, Res.guard, wReg_eq]
  rfl

end Sys2Proof.Machine
end

