-- ==== Sys2Proof/Laws/TeMoves.lean ====
section
/-! SUPPORT. Tags, constants, fields and addresses of the TE (R105, R106, R155 to R159, R161). -/

namespace Sys2Proof.Machine

open Sys2Proof

/-- A field replaced, as the part above it, the field, and the part below it. -/
theorem aluIns_eq (d a pos len : Nat) :
    aluIns d a pos len = d / 2 ^ (pos + len) * 2 ^ (pos + len) + a % 2 ^ len * 2 ^ pos + d % 2 ^ pos := by
  unfold aluIns
  have h1 := Nat.div_add_mod d (2 ^ pos)
  have h2 := Nat.div_add_mod (d / 2 ^ pos) (2 ^ len)
  rw [Nat.div_div_eq_div_mul, ← Nat.pow_add] at h2
  have e : d = d / 2 ^ (pos + len) * 2 ^ (pos + len) + d / 2 ^ pos % 2 ^ len * 2 ^ pos + d % 2 ^ pos := by
    conv_lhs => rw [← h1, ← h2]
    rw [Nat.pow_add]
    ring
  omega

theorem teMovk_int {a : TWord} (rd : BitVec 5) (imm : BitVec 16) (hw : BitVec 2) (m : Mach) (k : Nat) (hk : k = 16 * hw.toNat)
    (hw3 : hw ≠ 3) (ha : isInt a = true) :
    teMovk rd a imm hw m =
      .good { m, ws := [toReg 1 rd (intWord (payN a / 2 ^ (k + 16) * 2 ^ (k + 16) + imm.toNat * 2 ^ k + payN a % 2 ^ k))] } := by
  subst hk
  have hi : imm.toNat % 2 ^ 16 = imm.toNat := Nat.mod_eq_of_lt imm.isLt
  simp only [teMovk, opCheck_int _ ha, Res.guard, wReg_eq, if_neg hw3, aluIns_eq, hi]

theorem teMovk_top {a : TWord} (rd : BitVec 5) (imm : BitVec 16) (m : Mach) (hi : imm.toNat < 2 ^ 12) (ha : isInt a = true) :
    teMovk rd a imm 3 m = .good { m, ws := [toReg 1 rd (intWord (imm.toNat * 2 ^ 48 + payN a % 2 ^ 48))] } := by
  have h0 : payN a / 2 ^ (48 + 12) = 0 := Nat.div_eq_of_lt (payN_lt a)
  have hk : 16 * (3 : BitVec 2).toNat = 48 := rfl
  simp only [teMovk, opCheck_int _ ha, Res.guard, wReg_eq, if_true, aluIns_eq, hk, Nat.mod_eq_of_lt hi, h0, Nat.zero_mul, Nat.zero_add]

theorem ptrClass_lt {w : TWord} (h : payN w < 2 ^ 59) : ¬ 8 ≤ ptrClass w := by
  unfold ptrClass; omega

theorem teRetag_int {a : TWord} (rd : BitVec 5) (tag : BitVec 4) (m : Mach) (ha : isInt a = true) (h0 : tag ≠ 0)
    (hp : tag.toNat = tagPTR → ¬ 8 ≤ ptrClass a) :
    teRetag rd a tag m = .good { m, ws := [toReg 1 rd (mkWord tag.toNat (wPay a))] } := by
  have hn : ¬ (tag.toNat = tagPTR ∧ 8 ≤ ptrClass a) := fun h => hp h.1 h.2
  simp only [teRetag, ha, Bool.true_or, opCheck_tag 1 (isInt_tag ha) (show tagINT ≠ tagPOISON by decide) (by decide) rfl, Res.guard,
    if_neg hn, if_neg h0, wReg_eq]

theorem teRetag_nil {a : TWord} (rd : BitVec 5) (m : Mach) (ha : isInt a = true) :
    teRetag rd a 0 m = .good { m, ws := [toReg 1 rd nilWord] } := by
  simp [teRetag, ha, opCheck_tag 1 (isInt_tag ha) (show tagINT ≠ tagPOISON by decide) (by decide) rfl, Res.guard, wReg_eq, tagPTR]

theorem teRetag_toInt {a : TWord} (rd : BitVec 5) (m : Mach) (ha : wTag a = tagPTR ∨ wTag a = tagDESC ∨ wTag a = tagTIME) :
    teRetag rd a 1 m = .good { m, ws := [toReg 1 rd (mkWord tagINT (wPay a))] } := by
  rcases ha with h | h | h <;>
    simp [teRetag, h, opCheck, Res.guard, wReg_eq, tagPTR, tagDESC, tagTIME, tagINT, tagPOISON, tagKEY]

theorem fieldOk_check {a : TWord} (k : Nat) (ha : isInt a = true ∨ wTag a = tagDESC) : opCheck a k (fieldOk a) = none := by
  rcases ha with h | h
  · exact opCheck_tag k (isInt_tag h) (by decide) (by decide) (by simp [fieldOk, h])
  · exact opCheck_tag k h (by decide) (by decide) (by simp [fieldOk, h])

theorem teExt_ok {a : TWord} (rd : BitVec 5) (pos len v : Nat) (m : Mach) (hv : v = payN a / 2 ^ pos % 2 ^ len)
    (ha : isInt a = true ∨ wTag a = tagDESC) :
    teExt rd a pos len m = .good { m, ws := [toReg 1 rd (mkWord (wTag a) (BitVec.ofNat 60 v)), toFlag 1 flZ (decide (v = 0))] } := by
  subst hv
  simp [teExt, fieldOk_check _ ha, Res.guard, wReg_eq, aluExt, wFlags, toFlag, beq_eq_decide]

theorem teIns_ok {d a : TWord} (rd : BitVec 5) (pos len : Nat) (m : Mach) (hd : isInt d = true ∨ wTag d = tagDESC)
    (ha : isInt a = true ∨ wTag a = tagDESC) :
    teIns rd d a pos len m = .good { m, ws := [toReg 1 rd (mkWord (wTag d) (BitVec.ofNat 60
      (payN d / 2 ^ (pos + len) * 2 ^ (pos + len) + payN a % 2 ^ len * 2 ^ pos + payN d % 2 ^ pos)))] } := by
  simp only [teIns, fieldOk_check _ ha, fieldOk_check _ hd, Res.guard, wReg_eq, aluIns_eq]

theorem ceqOk_check {a : TWord} (k : Nat) (ha : ceqOk a = true) : opCheck a k (ceqOk a) = none := by
  have h : wTag a ≤ 4 ∨ wTag a = tagTIME := by simpa [ceqOk] using ha
  refine opCheck_tag k rfl ?_ ?_ ha <;> simp only [tagPOISON, tagKEY, tagTIME] at * <;> omega

theorem teCeq_ok {a b : TWord} (m : Mach) (ha : wTag a ≤ 4 ∨ wTag a = tagTIME) (hb : wTag b ≤ 4 ∨ wTag b = tagTIME) :
    teCeq a b m = .good { m, ws := [toFlag 1 flZ (decide (wTag a = wTag b ∧ wPay a = wPay b))] } := by
  have ha' : ceqOk a = true := by simpa [ceqOk] using ha
  have hb' : ceqOk b = true := by simpa [ceqOk] using hb
  simp only [teCeq, ceqOk_check _ ha', ceqOk_check _ hb', Res.guard, wFlags_cons, wFlags_nil, ceqEq]
  simp [beq_eq_decide]

/-! ### Local addresses -/

theorem localOk_check {a : TWord} (k : Nat) (ha : localOk a = true) : opCheck a k (localOk a) = none := by
  rcases (by simpa [localOk] using ha : isInt a = true ∨ wTag a = tagPTR ∧ ptrClass a = 0) with h | h
  · exact opCheck_tag k (isInt_tag h) (by decide) (by decide) ha
  · exact opCheck_tag k h.1 (by decide) (by decide) ha

theorem localIndex_ok {a : Int} {i : Nat} (h : a = i) (hi : i < 8192) : localIndex a = some i := by
  subst h
  have h1 : (0 : Int) ≤ i ∧ (i : Int) ≤ 8191 := by omega
  simp only [localIndex, if_pos h1, Int.toNat_natCast]

theorem withIndex_ok {a : Int} {i : Nat} (k : Nat) (f : Nat → Res) (h : a = i) (hi : i < 8192) : Res.withIndex a k f = f i := by
  simp only [Res.withIndex, localIndex_ok h hi]

end Sys2Proof.Machine
end

