-- ==== Sys2Proof/Machine/Tap.lean ====
section
/-! DEFINITION. The boundary-scan port (R751): the controller of IEEE 1149.1 and its four instructions. No row of the table moves TCK, so
no command steps it (log 76). -/

namespace Sys2Proof.Machine

open Sys2Proof

/-- The IDCODE (R751). -/
def tapId : BitVec 32 := 0xA38A8F3D

/-- The next state of the controller at a rising edge of TCK with a level of TMS. -/
def TapState.next (s : TapState) (tms : Bool) : TapState :=
  match s with
  | .reset => if tms then .reset else .idle
  | .idle => if tms then .selectDr else .idle
  | .selectDr => if tms then .selectIr else .captureDr
  | .captureDr => if tms then .exit1Dr else .shiftDr
  | .shiftDr => if tms then .exit1Dr else .shiftDr
  | .exit1Dr => if tms then .updateDr else .pauseDr
  | .pauseDr => if tms then .exit2Dr else .pauseDr
  | .exit2Dr => if tms then .updateDr else .shiftDr
  | .updateDr => if tms then .selectDr else .idle
  | .selectIr => if tms then .reset else .captureIr
  | .captureIr => if tms then .exit1Ir else .shiftIr
  | .shiftIr => if tms then .exit1Ir else .shiftIr
  | .exit1Ir => if tms then .updateIr else .pauseIr
  | .pauseIr => if tms then .exit2Ir else .pauseIr
  | .exit2Ir => if tms then .updateIr else .shiftIr
  | .updateIr => if tms then .selectDr else .idle

/-- The instruction that a pattern in the instruction register names: BYPASS is all ones; the other codes are open (log 76). -/
def tapInstr (ir : List Bool) : TapInstr :=
  if ir.all id then .bypass
  else match Config.tapCode ir with
    | 0 => .sample
    | 1 => .extest
    | 2 => .idcode
    | _ => .bypass

/-- What the selected data register captures, first bit out first: `pins` are the levels at the covered balls along the chain. -/
def Tap.capture (t : Tap) (pins : List Bool) : List Bool :=
  match t.instr with
  | .bypass => [false]
  | .idcode => (List.range 32).map fun i => tapId.getLsbD i
  | .sample | .extest => pins

/-- What a state does to the registers. -/
def Tap.act (t : Tap) (tdi : Bool) (pins : List Bool) : Tap :=
  match t.state with
  | .reset => { t with instr := .idcode }
  | .captureDr => { t with dr := t.capture pins }
  | .shiftDr => { t with dr := t.dr.drop 1 ++ [tdi] }
  | .updateDr => if t.instr = .sample ∨ t.instr = .extest then { t with drive := t.dr } else t
  | .captureIr => { t with ir := (List.range Config.tapIrLen).map fun i => i == 0 }
  | .shiftIr => { t with ir := t.ir.drop 1 ++ [tdi] }
  | .updateIr => { t with instr := tapInstr t.ir }
  | _ => t

/-- An edge of TCK with levels of TMS and TDI. -/
def Tap.clock (t : Tap) (tms tdi : Bool) (pins : List Bool) : Tap :=
  let u := t.act tdi pins
  { u with state := u.state.next tms }

/-- TDO: the next bit of the register that shifts; none where it is not driven. -/
def Tap.tdo (t : Tap) : Option Bool :=
  match t.state with
  | .shiftDr => t.dr.head?
  | .shiftIr => t.ir.head?
  | _ => none

/-- The levels that EXTEST drives onto the covered balls; none while it is not in force. -/
def Tap.driven (t : Tap) : Option (List Bool) := if t.instr = .extest then some t.drive else none

/-- An edge of TCK at the machine. -/
def Mach.tapClock (m : Mach) (tms tdi : Bool) (pins : List Bool) : Mach :=
  m.sysMod fun s => { s with tap := s.tap.clock tms tdi pins }

/-- TRST_N low: the controller is in Test-Logic-Reset. -/
def Mach.tapReset (m : Mach) : Mach := m.sysMod fun s => { s with tap := Tap.zero }

end Sys2Proof.Machine
end

