-- ==== Sys2Proof/Tests/Slice0.lean ====
section
/-! SUPPORT. Tests: ill-formed commands are refused, words and values of the spec's own tables and examples, and for every
statement of Certificates/Slice0/Obligations.lean states and operands that meet its hypotheses, clause by clause. -/

set_option Elab.async false
set_option maxRecDepth 4000

namespace Sys2Proof.Tests

open Sys2Proof Sys2Proof.Machine

/-! ### Witnesses: tagged engines -/

/-- A register file with a word of every tag in use: t1 INT 5, t2 INT -1, t3 and t4 PTRs of class 0, t5 TIME, t6 DESC, t7 POISON,
t8 KEY, t9 INT 0, t10 a PTR of class 1, t11 INT 60, t12 the most negative INT. -/
def aRegs : Tab TWord :=
  [(1, intWord 5), (2, mkWord tagINT (-1)), (3, mkPtr 0 16), (4, mkPtr 0 4), (5, mkWord tagTIME 9), (6, mkWord tagDESC 3),
   (7, mkWord tagPOISON 0x100000), (8, mkWord tagKEY 1), (10, mkPtr 1 32), (11, intWord 60), (12, intWord (2 ^ 59))]

/-- TE 0 runs a task, its registers from t1 on, more above, and the words `ws` from its program counter on. -/
def engWith (f : Te → Te) (more : Tab TWord) (ws : List W32) : State :=
  { m := { Mach.reset with te := [(0, f { Te.zero with
      st := .run, istore := (List.range ws.length).zip ws, ctx := { Ctx.zero with regs := aRegs ++ [(9, intWord 0)] ++ more } })] }
    pending := [] }

/-- TE 0 with one word to issue. -/
def eng (w : W32) : State := engWith id [] [w]

/-- TE 0 in its fault task. -/
def engF (w : W32) : State := engWith (fun t => { t with st := .fault }) [] [w]

/-- TE 0 with a delay slot to come. -/
def engD (w : W32) : State := engWith (fun t => { t with ctx := { t.ctx with btc := 1 } }) [] [w]

/-- The word issues in the state and its registers meet the rest. -/
def met (s : State) (w : W32) (p : State → Bool) : Bool := decide (s.m.tReady 0 w) && p s

/-- The word issues on TE 0 and what it reads meets the rest. -/
def hyp (w : W32) (p : (BitVec 5 → TWord) → Bool) : Bool := met (eng w) w fun s => p (s.m.tReg 0)

theorem witness_TeAddSubGiveSumAndFlags : ([
    hyp (encReg 1 13 1 2 0x00) fun v => isInt (v 1) && isInt (v 2),
    hyp (encReg 1 13 3 1 0x00) fun v => wTag (v 3) == tagPTR && isInt (v 1),
    hyp (encReg 1 13 5 1 0x00) fun v => wTag (v 5) == tagTIME && isInt (v 1),
    hyp (encReg 1 0 9 2 0x01) fun v => isInt (v 9) && isInt (v 2),
    hyp (encReg 1 13 3 1 0x01) fun v => wTag (v 3) == tagPTR && isInt (v 1),
    hyp (encReg 1 13 5 1 0x01) fun v => wTag (v 5) == tagTIME && isInt (v 1),
    hyp (encReg 1 13 3 4 0x01) fun v => wTag (v 3) == tagPTR && wTag (v 4) == wTag (v 3) && ptrClass (v 3) == ptrClass (v 4),
    hyp (encReg 1 13 5 5 0x01) fun v => wTag (v 5) == tagTIME]).all id = true := by decide +kernel

theorem witness_TeLogicGivesBitsAndNZ : ((([2, 3, 4, 5].map fun f => hyp (encReg 1 13 1 2 f) fun v => isInt (v 1) && isInt (v 2)) ++
    [hyp (encReg 1 13 9 0 0x0A) fun v => isInt (v 9)]).all id) = true := by decide +kernel

theorem witness_TeShiftsGiveEdges : (([6, 7, 8].map fun f => [1, 2, 9, 11].map fun k =>
    hyp (encReg 1 13 12 k f) fun v => isInt (v 12) && isInt (v k)).flatten).all id = true := by decide +kernel

theorem witness_TeNegMulCompareGiveResults : ([
    hyp (encReg 1 13 12 0 0x09) fun v => isInt (v 12),
    hyp (encReg 1 13 12 2 0x0B) fun v => isInt (v 12) && isInt (v 2),
    hyp (encReg 1 13 12 12 0x0C) fun v => isInt (v 12),
    hyp (encReg 1 0 12 1 0x0D) fun v => isInt (v 12) && isInt (v 1),
    hyp (encReg 1 0 5 5 0x0D) fun v => wTag (v 5) == tagTIME,
    hyp (encReg 1 0 4 3 0x0D) fun v => wTag (v 4) == tagPTR && wTag (v 3) == tagPTR && ptrClass (v 4) == ptrClass (v 3),
    hyp (encReg 1 0 0 3 0x0E) fun v => decide (wTag (v 0) ≤ 4) && decide (wTag (v 3) ≤ 4),
    hyp (encReg 1 0 5 5 0x0E) fun v => wTag (v 5) == tagTIME]).all id = true := by decide +kernel

/-- TE 0 with DZ_TRAP set. -/
def trapping (w : W32) : State := { eng w with m := (eng w).m.wr (ENG_TEn_CTL 0) fENG_TEn_CTL_DZ_TRAP 1 }

theorem witness_TeDivGivesQuotientRemainder : ([
    hyp (encDiv 13 14 12 2) fun v => isInt (v 12) && isInt (v 2) && payN (v 2) != 0,
    hyp (encDiv 13 13 1 9) fun v => isInt (v 1) && isInt (v 9) && payN (v 9) == 0,
    met (eng (encDiv 13 14 1 9)) (encDiv 13 14 1 9) fun s => !(s.m.landDue 0).bit (ENG_TEn_CTL 0) fENG_TEn_CTL_DZ_TRAP,
    met (trapping (encDiv 13 14 1 9)) (encDiv 13 14 1 9) fun s => (s.m.landDue 0).bit (ENG_TEn_CTL 0) fENG_TEn_CTL_DZ_TRAP &&
      isInt (s.m.tReg 0 1) && isInt (s.m.tReg 0 9) && payN (s.m.tReg 0 9) == 0]).all id = true := by decide +kernel

theorem witness_TeImmediatesActAsRegisterForms : (([4, 5, 6, 7, 8, 9, 10].map fun op => hyp (encImm op 13 1 0xFFFF) fun v => isInt (v 1)) ++ [
    hyp (encImm 4 13 3 0x8000) fun v => wTag (v 3) == tagPTR,
    hyp (encImm 4 13 5 1) fun v => wTag (v 5) == tagTIME,
    hyp (encImm 8 13 12 0) fun v => isInt (v 12), hyp (encImm 8 13 12 60) fun v => isInt (v 12),
    hyp (encImm 0x0B 0 12 1) fun v => isInt (v 12),
    hyp (encWide 13 0x100000) fun _ => true]).all id = true := by decide +kernel

theorem witness_TeMovesTagsAndFieldsGiveWords : ([
    hyp (encReg 1 13 7 0 0x0F) fun _ => true, hyp (encReg 1 13 8 0 0x10) fun _ => true,
    hyp (encHalf 1 2 0xFFFF) fun v => isInt (v 1), hyp (encHalf 1 3 0x0FFF) fun v => isInt (v 1),
    hyp (encImm 0x0F 13 1 0) fun v => isInt (v 1), hyp (encImm 0x0F 13 1 2) fun v => isInt (v 1) && decide (ptrClass (v 1) < 8),
    hyp (encImm 0x0F 13 12 6) fun v => isInt (v 12),
    hyp (encImm 0x0F 13 3 1) fun v => wTag (v 3) == tagPTR, hyp (encImm 0x0F 13 6 1) fun v => wTag (v 6) == tagDESC,
    hyp (encField 0x12 13 6 59 0) fun v => wTag (v 6) == tagDESC, hyp (encField 0x12 13 1 0 59) fun v => isInt (v 1),
    hyp (encField 0x13 12 1 59 0) fun v => isInt (v 12) && isInt (v 1)]).all id = true := by decide +kernel

/-- The local address that a register and an offset name. -/
def locOf (v : BitVec 5 → TWord) (r : BitVec 5) (imm : BitVec 16) : Int := localAddr (v r) + imm.toInt

theorem witness_TeLoadAndStoreMoveLocalWords : (([0x10, 0x11].map fun op => [
    hyp (encImm op 1 9 0) fun v => localOk (v 9) && decide (locOf v 9 0 = 0),
    hyp (encImm op 1 3 8175) fun v => localOk (v 3) && decide (locOf v 3 8175 = 8191),
    hyp (encImm op 1 3 8176) fun v => localOk (v 3) && decide (8191 < locOf v 3 8176),
    hyp (encImm op 1 2 0) fun v => localOk (v 2) && decide (locOf v 2 0 < 0)]).flatten).all id = true := by decide +kernel

theorem witness_LocalStoreChangesOneWord : (0 : Nat) < 8192 ∧ 8191 < 8192 := by decide

/-- An access of TE 0 outstanding on flag 0 of slot 0. -/
def anAcc : Acc := ⟨0, 0, 0, false, mkPtr 1 32, 0, 1, false, [], none, false, 0, [], false, true⟩

/-- TE 0 with flag 0 busy. -/
def engBusy (w : W32) : State := engWith (fun t => { t with accs := [anAcc] }) [] [w]

/-- TE 0 with the local words 0 to 3 INT 0. -/
def stored (w : W32) : State :=
  { m := [0, 1, 2, 3].foldl (fun m i => m.lmStore 0 i (intWord 0) false) (eng w).m, pending := [] }

theorem witness_TeFarAccessesIssue : ([false, true].map fun put =>
    let op : BitVec 6 := if put then 0x15 else 0x14
    let w := encFar op 9 10 0 0 false
    let u := encFar op 3 10 0 0 false
    let good (s : State) (r : BitVec 5) (i : Nat) := localOk (s.m.tReg 0 r) && decide (localAddr (s.m.tReg 0 r) = i) && i % 2 == 0 &&
      wTag (s.m.tReg 0 10) == tagPTR && ptrClass (s.m.tReg 0 10) != 0 && !farRegion put (s.m.tReg 0 10) false 1
    [met (stored w) w fun s => good s 9 0 && !(s.m.tNow 0).flagBusy 0 0 && (srcFault false (rawExempt (s.m.tReg 0 10)) false ((s.m.landDue 0).lmPairs 0 0 2).2).isNone,
     met (eng u) u fun s => good s 3 16, met (engBusy w) w fun s => good s 9 0 && (s.m.tNow 0).flagBusy (s.m.tNow 0).curSlot 0]).flatten.all id = true := by
  decide +kernel

/-- TE 0 with two registers more. -/
def engR (more : Tab TWord) (w : W32) : State := engWith id more [w]

/-- TE 0 with flag 0 of its slot set. -/
def engFlag (w : W32) : State :=
  { eng w with m := { (eng w).m with dsp := [(0, { DspTe.zero with flags := [(0, 1)] })] } }

theorem witness_TeWaitEndsOrWaits : ([
    (let w := encReg 0x16 1 1 0 0
     met (engWith (fun t => { t with ctx := { t.ctx with pm := 3 } }) [] [w]) w fun s => (s.m.tNow 0).ctx.pm == 3),
    (let w := encReg 0x16 0 1 5 0
     met (engFlag w) w fun s => isInt (s.m.tReg 0 1) && wTag (s.m.tReg 0 5) == tagTIME &&
       (⟨5, false, some 9⟩ : WaitRec).holds ((s.m.landDue 0).flagsOf 0 0)),
    (let w := encReg 0x16 1 1 0 0
     met (eng w) w fun s => wTag (s.m.tReg 0 0) == tagNIL && !(⟨5, true, none⟩ : WaitRec).holds ((s.m.landDue 0).flagsOf 0 0) &&
       (findDz (s.m.tNow 0).pend).isNone),
    (let w := encReg 0x16 1 1 5 0
     met (eng w) w fun s => wTag (s.m.tReg 0 5) == tagTIME && !(⟨5, true, some 9⟩ : WaitRec).holds ((s.m.landDue 0).flagsOf 0 0) &&
       !(s.m.landDue 0).deadlinePast 9),
    (let w := encReg 0x16 1 1 13 0
     met (engR [(13, mkWord tagTIME 0)] w) w fun s => wTag (s.m.tReg 0 13) == tagTIME &&
       !(⟨5, true, some 0⟩ : WaitRec).holds ((s.m.landDue 0).flagsOf 0 0) && (s.m.landDue 0).deadlinePast 0)]).all id = true := by decide +kernel

theorem witness_TeEventGroupActsOnFlags : ([
    hyp (encReg 0x17 13 0 31 0) fun _ => true, hyp (encReg 0x17 0 2 0 1) fun v => isInt (v 2),
    hyp (encReg 0x17 0 2 31 2) fun v => isInt (v 2)]).all id = true := by decide +kernel

theorem witness_TeSpecialRegistersReadAndWrite : (([0, 1, 2, 3, 4, 5, 6, 7, 8, 14, 15, 31].map fun i => hyp (encReg 0x18 13 0 i 0) fun _ => true) ++
    ([8, 9, 10, 11, 12, 13, 14].map fun i => met (engF (encReg 0x18 13 0 i 0)) (encReg 0x18 13 0 i 0) fun s => (s.m.tNow 0).inFault) ++
    ([0, 1, 2, 14, 31].map fun i => hyp (encReg 0x18 0 2 i 1) fun v => isInt (v 2)) ++
    [met (engF (encReg 0x18 0 2 14 1)) (encReg 0x18 0 2 14 1) fun s => (s.m.tNow 0).inFault && isInt (s.m.tReg 0 2),
     met (engF (encReg 0x18 13 0 0 2)) (encReg 0x18 13 0 0 2) fun s => (s.m.tNow 0).inFault,
     met (engF (encReg 0x18 0 2 31 3)) (encReg 0x18 0 2 31 3) fun s => (s.m.tNow 0).inFault]).all id = true := by decide +kernel

theorem witness_TeRdxWrxOutsideFaultTaskRaiseIllegal :
    met (eng (encReg 0x18 13 0 0 2)) (encReg 0x18 13 0 0 2) (fun s => !(s.m.tNow 0).inFault) = true ∧
    met (engD (encReg 0x18 0 2 31 3)) (encReg 0x18 0 2 31 3) (fun s => !(s.m.tNow 0).inFault) = true := by decide +kernel

theorem witness_TeTransfersGoToTheirTargets : ([encBranch 0 0x1FFF, encBranch 14 0x2000, encBranch 1 (-1), encCall 13 0x1FFF, encCall 13 0x2000,
      encReg 0x22 13 1 0 0, encReg 0x22 13 2 0 0, encTagbr 7 15 false 3, encTagbr 7 15 true 3].all fun w =>
    met (eng w) w (fun s => (s.m.tNow 0).ctx.btc == 0) && met (engD w) w fun s => (s.m.tNow 0).ctx.btc != 0) = true := by decide +kernel

/-- TE 0 with BRK_EN set. -/
def breaking (w : W32) : State := { eng w with m := (eng w).m.wr (ENG_TEn_CTL 0) fENG_TEn_CTL_BRK_EN 1 }

theorem witness_TeSystemGroupActs : (([(0, 0), (0, 1), (0, 2), (1, 2), (2, 2), (0, 3)].map fun (e : BitVec 5 × BitVec 6) =>
      let w := encReg 0x24 0 0 e.1 e.2
      met (eng w) w (fun s => (s.m.tNow 0).ctx.btc == 0 && !(s.m.tNow 0).inFault &&
        !(s.m.landDue 0).bit (ENG_TEn_CTL 0) fENG_TEn_CTL_BRK_EN) && met (engF w) w fun s => (s.m.tNow 0).inFault) ++
    [(let w := encReg 0x24 0 0 0 3
      met (breaking w) w fun s => (s.m.landDue 0).bit (ENG_TEn_CTL 0) fENG_TEn_CTL_BRK_EN)]).all id = true := by decide +kernel

theorem witness_TeOperandFaultsNameTheOperand : ((([2, 3, 4, 5, 6, 7, 8, 0x0B, 0x0C].map fun f => [encReg 1 13 7 1 f, encReg 1 13 8 1 f,
      encReg 1 13 0 1 f, encReg 1 13 1 7 f, encReg 1 13 1 8 f, encReg 1 13 1 6 f]).flatten ++ [encDiv 13 14 7 1, encDiv 13 14 1 8]).all fun w =>
    hyp w fun v => wTag (v 7) == tagPOISON && wTag (v 8) == tagKEY && !isInt (v 0) && !isInt (v 6) && isInt (v 1)) = true := by decide +kernel

/-! ### Witnesses: strings, REP and the lantern core -/

/-- TE 0 with nc, ps and pd. -/
def engS (nc ps pd : TWord) (ws : List W32) : State := engWith id [(29, nc), (30, ps), (31, pd)] ws

theorem witness_TeStringsRunOnce : ([
    (let w := encReg 0x29 0 7 0 1
     met (engS 0 0 (intWord 8191) [w]) w fun s => localOk (s.m.tReg 0 31) && decide (localAddr (s.m.tReg 0 31) = 8191)),
    (let w := encReg 0x29 0 0 0 2
     met (engS 0 (mkPtr 0 0) 0 [w]) w fun s => localOk (s.m.tReg 0 30) && ((s.m.landDue 0).lmLoad 0 0).2 == s.m.tReg 0 0),
    (let w := encReg 0x29 0 1 0 2
     met (engS 0 (mkPtr 0 8191) 0 [w]) w fun s => localOk (s.m.tReg 0 30) && ((s.m.landDue 0).lmLoad 0 8191).2 != s.m.tReg 0 1 &&
       decide (wTag (s.m.tReg 0 1) ≤ 4)),
    (let w := encReg 0x29 0 0 0 0
     met (engS 0 (mkPtr 0 8191) (intWord 0) [w]) w fun s => localOk (s.m.tReg 0 30) && localOk (s.m.tReg 0 31) &&
       wTag ((s.m.landDue 0).lmLoad 0 8191).2 != tagKEY),
    (let w := encReg 0x29 0 0 0 0
     met { m := (engS 0 (intWord 0) (intWord 2) [w]).m.lmStore 0 0 (mkWord tagKEY 1) false, pending := [] } w fun s =>
       wTag ((s.m.landDue 0).lmLoad 0 0).2 == tagKEY),
    (let w := encReg 0x29 0 0 0 3
     met (engS 0 (intWord 0) (intWord 2) [w]) w fun s => ((s.m.landDue 0).lmLoad 0 0).2 == ((s.m.landDue 0).lmLoad 0 2).2),
    (let w := encReg 0x29 0 0 0 3
     met { m := (engS 0 (intWord 0) (intWord 2) [w]).m.lmStore 0 0 (intWord 1) false, pending := [] } w fun s =>
       ((s.m.landDue 0).lmLoad 0 0).2 != ((s.m.landDue 0).lmLoad 0 2).2 && decide (wTag ((s.m.landDue 0).lmLoad 0 0).2 ≤ 4))]).all id = true := by
  decide +kernel

/-- REP before a register move. -/
def repMov : List W32 := [0xA0000000#32, encReg 1 13 1 0 0x0F]

theorem witness_TeRepRepeatsItsInstruction : ([
    met (engS 0 0 0 repMov) 0xA0000000#32 fun s => repeatable true ((s.m.tNow 0).fetch 0 1) && (s.m.tNow 0).ctx.btc == 0 && wTag (s.m.tReg 0 29) == tagNIL,
    met (engS 0 0 0 [0xA0000000#32, encReg 1 13 1 1 0]) 0xA0000000#32 fun s => !repeatable true ((s.m.tNow 0).fetch 0 1),
    met (engD 0xA0000000#32) 0xA0000000#32 fun s => (s.m.tNow 0).ctx.btc != 0,
    met (engS (intWord 0) 0 0 repMov) 0xA0000000#32 fun s => isInt (s.m.tReg 0 29) && wPay (s.m.tReg 0 29) == 0,
    met (engS (intWord 3) 0 0 repMov) 0xA0000000#32 fun s => isInt (s.m.tReg 0 29) && payN (s.m.tReg 0 29) == 3 && (s.m.tNow 0).pend.isEmpty]).all id = true := by
  decide +kernel

/-- LC in state Run, its registers, and the words from its program counter 0 on: b0 0x80, b1 1, b2 0, p0 0x4000, p1, p2, p3. -/
def lcWith (f : Lc → Lc) (p1 p2 p3 : Nat) (ws : List W32) : State :=
  { m := { (Mach.reset.wr SYS_DOMSTAT fSYS_DOMSTAT_LANT_STATE 1) with lc := f { Lc.zero with
      regs := [(0, 0x80), (1, 1), (8, 0xC000), (9, p1), (10, p2), (11, p3)]
      code := memWrite [] 0 (ws.map fun w => bytesLE 4 w.toNat).flatten } }
    pending := [] }

/-- LC with one word to issue. -/
def lcS (w : W32) : State := lcWith id 0xC000 0xC001 0 [w]

/-- The word issues on LC. -/
def lcMet (s : State) (w : W32) (p : State → Bool) : Bool := decide (s.m.lReady w) && p s

theorem witness_UndefinedWordsRaiseIllegal : ([0x00000000#32, 0xFFFFFFFF#32].all fun w =>
    met (eng w) w (fun _ => !defined true w) && lcMet (lcS w) w fun _ => !defined false w) = true := by decide +kernel

theorem witness_LcArithmeticWorksAtRegisterWidth : (([0, 1, 2, 3, 4, 5, 0x0B, 0x0C].map fun f => (encReg 1 2 0 1 f, [2, 0, 1])) ++
    ([0, 1, 2, 3, 4, 5, 0x0B, 0x0C].map fun f => (encReg 1 11 8 9 f, [11, 8, 9])) ++ [(encDiv 2 3 0 1, [2, 3, 0, 1]), (encDiv 2 3 0 2, [2, 3, 0, 2]),
    (encReg 1 2 0 0 9, [2, 0]), (encReg 1 11 8 0 0x0A, [11, 8]), (encReg 1 0 0 1 0x0D, [0, 1]), (encReg 1 0 8 9 0x0E, [8, 9]),
    (encReg 1 8 0 0 0x0F, [8])]).all (fun e => lcMet (lcS e.1) e.1 fun _ => lcSame e.2) = true := by decide +kernel

theorem witness_LcShiftsImmediatesAndFields : (([encReg 1 2 0 11 6, encReg 1 2 0 1 7, encReg 1 2 0 8 8, encImm 4 2 0 0xFFFF, encImm 5 2 0 0xFFFF,
    encImm 6 2 0 1, encImm 7 2 0 1, encImm 8 2 0 0, encImm 8 2 0 256, encImm 9 2 0 7, encImm 10 2 0 8, encImm 0x0B 0 2 1, encWide 2 0x100000,
    encField 0x12 2 0 0 7, encField 0x13 2 0 7 0]).all fun w => lcMet (lcS w) w fun _ => lcSame [2, 0]) = true := by decide +kernel

theorem witness_LcMemoryControlAndSystem : (([encImm 0x10 0 9 0, encImm 0x10 8 9 0x3FFF, encImm 0x11 0 9 0, encImm 0x11 8 9 0x3FFF, encBranch 0 1, encBranch 12 0x2FFF,
    encBranch 1 (-1), encCall 8 4, encCall 8 0x3000, encReg 0x22 8 9 0 0, encReg 0x24 0 0 0 4, encReg 0x18 0 0 0 0, encReg 0x18 0 0 1 0, encReg 0x18 0 0 2 0,
    encReg 0x18 0 0 0 1, encReg 0x18 0 0 1 1, encReg 0x18 0 0 31 1, encReg 0x24 0 0 0 0, encReg 0x24 0 0 0 3, encReg 0x16 0 0 0 0, encReg 1 0 0 0 0x10,
    encReg 0x17 0 0 0 0, encReg 0x17 0 0 0 1, encReg 0x18 0 0 0 2, encReg 0x18 0 0 0 3, encReg 0x24 0 0 0 1, encReg 0x24 0 0 0 2]).all fun w =>
      lcMet (lcS w) w fun s => s.m.lNow.lc.btc == 0 && s.m.lNow.lc.pm != 3 && !s.m.lNow.bit ENG_LC_CTL fENG_LC_CTL_BRK_EN &&
        lcWidth 0 == 8 && lcWidth 8 == 16 && lcWidth 9 == 16) = true ∧
    lcMet (lcWith (fun l => { l with pm := 3 }) 0 0 0 [encReg 0x16 0 0 0 0]) (encReg 0x16 0 0 0 0) (fun s => s.m.lNow.lc.pm == 3) = true ∧
    ([(lcReadable, 0xC000), (lcWritable, 0xC000), (lcReadable, 0), (fun a => !lcWritable a, 0), (fun a => !lcReadable a, 0xF400)].all fun e => e.1 e.2) = true := by
  decide +kernel

theorem witness_LcStringsAndRep : (([encReg 0x29 0 1 0 1, encReg 0x29 0 1 0 2, encReg 0x29 0 0 0 0, encReg 0x29 0 0 0 3].all fun w =>
      lcMet (lcS w) w (fun s => lcReadable (s.m.lReg 9) && lcReadable (s.m.lReg 10) && lcWritable (s.m.lReg 10)) &&
      lcMet (lcWith id 0xF400 0xF400 0 [w]) w fun s => !lcReadable (s.m.lReg 9) && !lcWritable (s.m.lReg 10))) = true ∧
    ([lcMet (lcWith id 0 0 0 repMov) 0xA0000000#32 fun s => !repeatable false (s.m.lNow.lc.fetch 4),
      lcMet (lcWith id 0 0 0 [0xA0000000#32, encReg 0x29 0 0 0 0]) 0xA0000000#32 fun s => repeatable false (s.m.lNow.lc.fetch 4) && s.m.lReg 11 == 0,
      lcMet (lcWith id 0 0 7 [0xA0000000#32, encReg 0x29 0 0 0 0]) 0xA0000000#32 fun s => repeatable false (s.m.lNow.lc.fetch 4) && s.m.lReg 11 != 0,
      lcMet (lcWith (fun l => { l with btc := 1 }) 0 0 7 [0xA0000000#32]) 0xA0000000#32 fun s => s.m.lNow.lc.btc != 0]).all id = true := by decide +kernel

/-! ### Witnesses: the block as a whole, registers, landing, dispatch, channels, beats -/

/-- A state whose device is the reset device changed by `f`. -/
def from_ (f : Mach → Mach) : State := { State.reset with m := f Mach.reset }

/-- The reset device with register fields set. -/
def withFlds (l : List (Nat × Fld × Nat)) : Mach := l.foldl (fun m e => m.wr e.1 e.2.1 e.2.2) Mach.reset

theorem witness_StepRunsFrontCommand : { State.reset with pending := [.nop .lc, .tickEvent] }.pending = .nop .lc :: [.tickEvent] := by decide +kernel

theorem witness_StepKeepsMemoryCanonical : Mach.reset.memOk = true ∧
    ({ Mach.reset with mem := { Mach.reset.mem with dram := memWrite [] 0 [1, 0, 2] } } : Mach).memOk = true := by decide +kernel

theorem witness_RegisterBitsFollowAccessCodes : ((regRow (ENG_TEn_CTL 0)).isSome && ENG_TEn_CTL 0 != BLKFAULT 2 && ENG_TAGBASE_LO % 4 == 0 &&
    ENG_TAGBASE_LO / 0x10000 == blkENG && decide (0x400 ≤ ENG_TAGBASE_LO % 0x10000) && (regRow ENG_TAGBASE_LO).isSome && (regRow FLT_CKCTL).any fun r => r.w1s != 0) = true ∧
    ((withFlds [(NVM_STAT, fNVM_STAT_LOCKED, 1)]).locked && !Mach.reset.locked && !(withFlds [(CHN_CFGSTAT, fCHN_CFGSTAT_STAGING, 0)]).staged &&
      Mach.reset.stagedLive) = true := by decide +kernel

theorem witness_CodeCorrectsOneAndDetectsTwoBadSymbols : (0 : Nat) < 18 ∧ 17 < 18 ∧ (1 : Byte) ≠ 0 ∧ (255 : Byte) ≠ 0 := by decide

/-- A pending result for register t`r`. -/
def pnd (slot r : Nat) (v : TWord) : Pend := ⟨slot, 0, .reg r, v⟩

/-- TE 0 in slot 4 with pending results, and LC with the same. -/
def landing (l : List Pend) : Mach :=
  { (engWith (fun t => { t with slotNo := 4, pend := l }) [] []).m with lc := { Lc.zero with slotNo := 4, pend := l } }

theorem witness_DueResultsLandInOrder : ([[pnd 4 1 7], [pnd 5 1 7], [pnd 3 1 7, pnd 4 1 8], [pnd 4 1 7, pnd 4 1 8], [pnd 4 1 7, pnd 3 1 8],
      [pnd 4 1 7, ⟨4, 0, .flag 6, 1⟩, pnd 3 1 8]].all fun l =>
    decide (((landing l).getTe 0).st = .run) && ((landing l).getTe 0).ctx.ending == 0 && ((landing l).getTe 0).dzDue.isNone &&
    ((landing l).getTe 0).pend == l && ((landing l).getTe 0).slotNo == 4 && (landing l).lc.pend == l) = true ∧
    (∀ o ∈ [pnd 3 1 8], o.tgt = (pnd 4 1 7).tgt → o.slot ≤ 4 → o.slot < (pnd 4 1 7).slot) := by decide +kernel

/-- A task of a slot. -/
def aTask (slot : Nat) (released ran : Bool) : TaskSt := ⟨slot, slot, 8, 0, 0, 1, released, ran⟩

/-- TE 0 with its dispatcher. -/
def dspM (st : EngState) (d : DspTe) : Mach :=
  { Mach.reset with te := [(0, { Te.zero with st := st, frozen := ⟨0xFF, 8191, 1, 1, none, 0, 0, 0, false⟩ })], dsp := [(0, d)] }

theorem witness_FaultEntryFreezesAndStartsSlot63 :
    (let m := dspM .faulting { DspTe.zero with sel := [aTask 63 false false] }
     decide ((m.getTe 0).st = .faulting) && (m.getDsp 0).faultTask.isSome && decide ((m.getTe 0).frozen.code < 256) &&
       decide ((m.getTe 0).frozen.fpc < 8192)) = true ∧
    (let m := dspM .faulting DspTe.zero
     decide ((m.getTe 0).st = .faulting) && (m.getDsp 0).faultTask.isNone) = true := by decide +kernel

/-- An active armature, as far as the registers say it. -/
def active (m : Mach) : Mach := m.wr ARM_STAT fARM_STAT_ACT_VALID 1

theorem witness_DispatchRunsLowestPrioAndSkips :
    (let d := { DspTe.zero with sel := [aTask 1 true false, aTask 2 true false], flags := [(1, 1), (2, 1)] }
     let m := active (dspM .idle d)
     decide ((m.getTe 0).st = .idle) && !m.inHold && m.actValid && decide ((m.getDsp 0).replay = []) && d.ready (aTask 1 true false) &&
       d.sel.all fun y => y == aTask 1 true false || decide ((aTask 1 true false).prio < y.prio)) = true ∧
    (let d := { DspTe.zero with sel := [aTask 1 true false] }
     !d.ready (aTask 1 true false) && decide ((aTask 1 true false).deadline ≤ (dspM .idle d).tim.tick)) = true := by decide +kernel

theorem witness_EventsDeadlinesAndInterruptsTakeEffect :
    ((Mach.reset.getDsp 0).evq.isEmpty && (Mach.reset.getDsp 0).held.isEmpty &&
      ((dspM .idle { DspTe.zero with evq := List.replicate 16 ⟨0, 0, 0⟩ }).getDsp 0).evq.length == 16 &&
      ((dspM .idle { DspTe.zero with held := [⟨0, 0, 0⟩] }).getDsp 0).held != []) = true ∧
    (let m := { Mach.reset with te := [(0, { Te.zero with st := .wait, wait := some ⟨1, true, some 0⟩ })] }
     decide ((m.getTe 0).st = .wait) && decide (¬ 0 < ((0 : BitVec 60) - m.timePayload).toInt)) = true ∧
    (let l (f : BitVec 7) (n : Nat) := (lcWith (fun l => { l with fl := f, btc := n }) 0 0 0 []).m
     (l 64 0).rd SYS_DOMSTAT fSYS_DOMSTAT_LANT_STATE == 1 && (l 64 0).lc.irq == 0 && (l 64 0).lc.st == 0 && (l 64 0).lc.fl.getLsbD 6 &&
       !(l 0 0).lc.fl.getLsbD 6 && (l 64 1).lc.btc != 0) = true := by decide +kernel

/-- TE 0 with one access outstanding. -/
def accM (a : Acc) : Mach := { Mach.reset with te := [(0, { Te.zero with st := .run, accs := [a] })] }

/-- An access by its direction, far PTR and source words. -/
def accOf (put : Bool) (far : TWord) (src : List TWord) : Acc := ⟨0, 0, 31, put, far, 0, 1, false, src, none, false, 0, [], false, true⟩

theorem witness_FarAccessesComplete : ([accOf false (mkPtr 1 0x1C00000) [], accOf false (mkPtr 3 0) [], accOf true (mkPtr 1 0x1BFFFF0) [intWord 1, intWord 2, 1, 1],
      accOf true (mkPtr 1 0x1C00000) []].all fun a => ((accM a).getTe 0).acc 0 == some a && ((accM a).getTe 0).inOrder a &&
        tabGet 0 ((accM a).getDsp 0).late 0 == 0) = true ∧
    ((accM anAcc).farFits (mkPtr 1 0x1C00000) 1 = false ∧ (accM anAcc).farFits (mkPtr 1 0x1BFFFF0) 1 = true) := by decide +kernel

/-- A channel that TE 0 produces and consumes, with a store of 64 words at 0. -/
def chanM (ch : Nat) (m : Mach) : Mach :=
  ((((m.wr (FQ_CHn_CFG ch) fFQ_CHn_CFG_ENABLE 1).wr (FQ_CHn_CFG ch) fFQ_CHn_CFG_PROD 0).wr (FQ_CHn_CFG ch) fFQ_CHn_CFG_CONS 0).wr (FQ_CHn_STORE ch) fFQ_CHn_STORE_DEPTH 1)

/-- An item of one word that is a packet of its own. -/
def oneItem : List QWord := sideWords true true 16 0 true 0 true [encodeCode 5]

theorem witness_ChannelsReceiveAndDeliverItems :
    (let m := chanM 7 Mach.reset
     m.chOn 7 && m.chProd 7 == 0 && portServes 0 && decide ((m.getChan 7).stored + 64 ≤ m.chCap 7) && !Mach.reset.chOn 7) = true ∧
    ([0, 1].all fun kind =>
      let a := accOf false (mkPtr 6 (256 * kind + 7)) []
      let m (q : List QWord) := (chanM 7 (accM { a with len := 2 })).setChan 7 { Chan.zero with q := q, vis := 1 }
      ((m []).qchAcc 0 0 false kind).isSome && !(m []).chRefuses 0 7 false && ((m []).getChan 7).visible.isEmpty &&
        ((m oneItem).getChan 7).visible == [oneItem] && (accM a).chRefuses 0 7 false &&
        oneItem.all fun w => decide (classifyCheck w.code = .clean) && sideOnes w.side w.par % 2 == 0) = true := by decide +kernel

theorem witness_ChannelCommandsActOnTheirChannel :
    (let a := accOf true (mkPtr 6 7) []
     ((accM a).qchAcc 0 0 true 0).isSome && (accM a).chRefuses 0 7 true && ((accM a).getChan 7).waiting.isEmpty &&
       !((accM a).getChan 7).lastFlushed && !((accM a).getChan 7).started) = true ∧
    (oneItem.all (fun w => w.prov == 0 && w.pe && w.ps) && decide (16 ≤ ((Mach.reset.wr (FQ_CHn_CFG 7) fFQ_CHn_CFG_CONS 16).chCons 7)) &&
      ((Mach.reset.setChan 7 { Chan.zero with q := oneItem, started := true }).getChan 7).started) = true ∧
    ([1, 2].all fun k =>
      let a := accOf true (mkPtr 6 (512 + 7)) [intWord k]
      let m := chanM 7 (accM a)
      (m.qchAcc 0 0 true 2).isSome && m.chOn 7 && m.chProd 7 == 0) = true ∧
    (Mach.reset.chRangeBad 7 && !(chanM 7 Mach.reset).chRangeBad 7 && getFld (Mach.reset.plainRead (FQ_CHn_CFG 7)) fFQ_CHn_CFG_ENABLE == 0) = true := by
  decide +kernel

/-! ### Witnesses: the ridge, the armature, start of beats -/

/-- A header word to a node, port and operation. -/
def header (node port op : Nat) : BitVec 144 := encodeCode (BitVec.ofNat 128 (node * 2 ^ 123 + port * 2 ^ 121 + op * 2 ^ 100))

/-- The lantern powered. -/
def lit : Mach := withFlds [(SYS_DOMSTAT, fSYS_DOMSTAT_LANT_STATE, 1)]

theorem witness_RidgeRoutesAndReports : (Mach.reset.rd SYS_DOMSTAT fSYS_DOMSTAT_LANT_STATE == 0 && lit.rd SYS_DOMSTAT fSYS_DOMSTAT_LANT_STATE != 0) = true ∧
    ([header 1 0 0, header 0 1 8, header 6 2 0, header 23 0 0, header 24 0 0, header 31 2 0, header 0 3 0, header 0 0 9].all fun w =>
      decide (classify w = .clean)) = true ∧
    ([(1, 0), (0, 1), (6, 0), (0, 6), (23, 23)].all fun e => hdrDnode (header e.1 0 0) == e.1 && decide (e.1 < 24 ∧ e.2 < 24)) = true ∧
    (hdrDport (header 0 3 0) == 3 && hdrOp (header 0 0 9) == 9 && decide (classify (encodePoison 5) = .storedPoison) &&
      decide (classify (addSym (addSym (encodeCode 5) 0 1) 1 2) = .uncorrectable) &&
      (tabGet none Mach.reset.sys.seqs (seqKey (header 0 0 0))).isNone) = true ∧
    (let m := Mach.reset.sysMod fun x => { x with seqs := [(seqKey (header 0 0 0), some 4095)] }
     tabGet none m.sys.seqs (seqKey (header 0 0 0)) == some 4095 && hdrSeq (header 0 0 0) == (4095 + 1) % 4096) = true := by decide +kernel

/-- A device whose time runs. -/
def running : Mach := (withFlds [(ARM_PLINTH, fARM_PLINTH_RUN, 1)]).timMod fun t => { t with started := true }

theorem witness_BeatAndTickStartsDoTheirWork : (Mach.reset.rd ARM_PLINTH fARM_PLINTH_RUN == 0 && running.rd ARM_PLINTH fARM_PLINTH_RUN == 1 &&
    running.tim.started && decide (running.tim.tick + 1 < 16) && decide (16 ≤ (running.timMod fun t => { t with tick := 15 }).tim.tick + 1) &&
    !(withFlds [(ARM_PLINTH, fARM_PLINTH_RUN, 1)]).tim.started) = true ∧
    ((3, 1) ∈ [(3, 1)] ∧ (aTask 1 false false).release ≤ 3 ∧ (aTask 1 false false).slot ≠ 63) := by decide +kernel

/-- AUTO holds the armature's registers. -/
def autoM : Mach := (withFlds [(SYS_BOOTSTAT, fSYS_BOOTSTAT_AUTO_BUSY, 1)]).sysMod fun s => { s with auto := 1 }

/-- A device ready to swap: the shadow bank VALID, the journal on, DRAM trained, a frame named. -/
def swapReady (frame : Nat) : Mach := (((withFlds [(ARM_STAT, fARM_STAT_ACT_VALID, 1), (ARM_STAT, fARM_STAT_SHADOW_STATE, 2)]).setReg64 ARM_SWAPF_LO
  ARM_SWAPF_HI frame))

/-- The shadow bank for a profile. -/
def withShd (p : Nat) (m : Mach) : Mach := m.armMod fun a => { a with bank0 := { a.bank0 with profile := p }, bank1 := { a.bank1 with profile := p } }

theorem witness_ArmatureCommandsActOrSayWhyNot : (autoM.autoHolds && !Mach.reset.autoHolds && !Mach.reset.arm.armed && Mach.reset.armBar) = true ∧
    (let act := (swapReady 2).rd ARM_STAT fARM_STAT_ACT_PROFILE
     let m := withShd act (swapReady 2)
     !m.armBar && m.shd.profile == act && m.frame + 2 ≤ m.swapNamed && (withShd act (swapReady 1)).swapNamed < (withShd act (swapReady 1)).frame + 2 &&
       (withShd (act + 1) (swapReady 2)).shd.profile != act && !m.framePast && (withShd act (swapReady 1)).framePast) = true ∧
    (let m := withShd 0 (swapReady 2)
     m.shd.profile == 0 && !m.framePast && !m.armBar && !m.arm.armed && m.arm.change == 0 && decide (m.caseEst ≤ caseLimit 0) &&
       decide (caseLimit 0 < (m.wr SYS_TEMP fSYS_TEMP_CASE_EST 0x7FFF).caseEst)) = true ∧
    (Mach.reset.arm.revoke != some 0 && !Mach.reset.keyValid 0) = true ∧
    (!Mach.reset.bit ARM_VRCTL fARM_VRCTL_ENABLE && (withFlds [(ARM_VRCTL, fARM_VRCTL_ENABLE, 1)]).bit ARM_VRCTL fARM_VRCTL_ENABLE) = true := by decide +kernel
/-! ### Witnesses: loads and regulator, radios and basebands -/

/-- Block ARM changed. -/
def armM (f : ArmSt → ArmSt) : Mach := Mach.reset.armMod f

theorem witness_LoadsFallbackAndRegulatorProceed :
    (let m := armM fun a => { a with load := some (0, 0, 0) }
     m.sys.auto != 2 && Mach.reset.arm.load.isNone && m.arm.load == some (0, 0, 0) &&
       ((m.armMod fun a => { a with load := none }).loadCheck [] 0 false false fun _ => true).isSome) = true ∧
    (let m := Mach.reset.nvmMod fun x => { x with slots := [(4, ⟨[0], 16⟩)] }
     m.shdEmpty && !m.arm.fbLoad && m.arm.load.isNone && decide (0 < (m.nvSlot 4).len) && !m.bit SYS_BOOTSTAT fSYS_BOOTSTAT_FB_BAD &&
       (Mach.reset.nvSlot 4).len == 0) = true ∧
    ((Mach.reset.loadCheck [] 0 true false fun k => k == 1 || k == 2 || k == 4 || k == 5).isSome && Mach.reset.arm.fbCause == 0) = true ∧
    (let m := (withFlds [(ARM_STAT, fARM_STAT_SHADOW_STATE, 4)]).armMod fun a => { a with fbCause := 1 }
     m.arm.fbCause != 0 && !m.arm.armed && m.arm.change == 0 && m.shdState == 4 && m.rd ARM_STAT fARM_STAT_ACT_PROFILE != 3) = true ∧
    (let m := withFlds [(ARM_VRCTL, fARM_VRCTL_ENABLE, 1), (ARM_VRCTL, fARM_VRCTL_MODE, 1)]
     m.drives && m.bit ARM_VRCTL fARM_VRCTL_MODE) = true ∧
    (let m := (withFlds [(ARM_VRCTL, fARM_VRCTL_ENABLE, 1), (ARM_VRCTL, fARM_VRCTL_MODE, 0), (ARM_PROFCTL, fARM_PROFCTL_STATUS, 1)]).armMod fun a =>
       { a with change := 1, settle := true }
     m.drives && !m.bit ARM_VRCTL fARM_VRCTL_MODE && m.arm.change == 1 && !m.arm.confirmed && m.arm.settle && m.rd ARM_PROFCTL fARM_PROFCTL_STATUS == 1 &&
       !Mach.reset.drives && !m.arm.armed && !Mach.reset.arm.settle && Mach.reset.arm.change != 1 && Mach.reset.arm.change != 7) = true := by decide +kernel

/-- Radio 1 changed. -/
def radioM (f : Radio → Radio) : Mach := Mach.reset.radioMod 1 f

/-- A transmit held for the synthesiser. -/
def aTx : RfTx := ⟨0, 1, 0, 0, 0, .frames, false, 0, 0, 0, [], false, false, none, [], []⟩

theorem witness_TransceiversFollowModeLockAndTransmit :
    ([0, 1, 2, 4].all fun st =>
      ((radioM fun r => { r with moving := some st }).getRadio 1).moving == some st && ((radioM fun r => { r with moving := some st }).getRadio 1).next.isEmpty) = true ∧
    ((Mach.reset.getRadio 1).moving.isNone && (Mach.reset.getRadio 1).tx.isNone && !Mach.reset.bit (RFx_STAT 1) fRFx_STAT_LOCK &&
      !Mach.reset.bit (RFx_STAT 1) fRFx_STAT_ID_READING) = true ∧
    (let r := (radioM fun r => { r with moving := some 2, settling := true, next := [2, 0] }).getRadio 1
     r.settling && r.next == [2, 0] && dropSame 2 r.next == [0] && dropSame 2 [2] == []) = true ∧
    (let r := (radioM fun r => { r with tx := some aTx }).getRadio 1
     r.tx == some aTx && !r.txOn && r.cal.isNone) = true ∧
    (let m := ((radioM fun r => { r with tx := some aTx, txOn := true }).wr (RFx_STAT 1) fRFx_STAT_LOCK 1).wr (RFx_STAT 1) fRFx_STAT_STATE 4
     (m.getRadio 1).txOn && m.bit (RFx_STAT 1) fRFx_STAT_LOCK && m.radioState 1 == 4 &&
       (m.wr (RFx_STAT 1) fRFx_STAT_ID_READING 1).bit (RFx_STAT 1) fRFx_STAT_ID_READING) = true := by decide +kernel

/-- A slot of the active armature on radio 1, in every cycle. -/
def aSlot (kind param : Nat) : Slot := ⟨1, 0, kind, 0, param, 100, 0, 1, 0, 0, 0, 0⟩

/-- The active armature has one slot, and radio 1 is ON. -/
def slotM (sl : Slot) : Mach :=
  (((active (radioM fun r => { r with mode := 2 })).wr (RFx_STAT 1) fRFx_STAT_STATE 3).armMod fun a =>
    { a with bank0 := { a.bank0 with slots := [sl] }, bank1 := { a.bank1 with slots := [sl] } })

theorem witness_CalibrationsChannelsAndIdentityProceed :
    (let m := slotM (aSlot 5 2)
     (m.slotsOf 1)[0]? == some (aSlot 5 2) && m.actValid && !m.inHold && slotOccurs m.act (aSlot 5 2) m.beat && (m.getRadio 1).mode == 2 &&
       decide (2 ≤ m.radioState 1) && (m.getRadio 1).cal.isNone && !m.radioBusy 1 && ((m.radioMod 1 fun r => { r with tx := some aTx, txOn := true }).radioBusy 1)) = true ∧
    (let r := (radioM fun r => { r with calWait := some ⟨7, 0, 1⟩, cal := some 2 }).getRadio 1
     r.calWait == some ⟨7, 0, 1⟩ && r.cal == some 2 && r.tx.isNone && !r.startCal && (Mach.reset.getRadio 1).calWait.isNone && (Mach.reset.getRadio 1).cal.isNone) = true ∧
    ((chanSubs 1 (0xFFF#32 &&& 0xFFF)).isNone && [0, 1, 2].any (fun x => (List.range 256).any fun k => (chanSubs x (BitVec.ofNat 32 k &&& 0xFFF)).isSome) &&
      !Mach.reset.radioBusy 1 && (Mach.reset.getBus 1).edge.isNone && (Mach.reset.getBus 1).reading.isNone) = true ∧
    (let m := Mach.reset.busMod 1 fun b => { b with edge := some true, reading := some 3 }
     (m.getBus 1).edge == some true && (m.getBus 1).reading == some 3 && decide (3 < (busAddrs 1).length)) = true := by decide +kernel

/-- Baseband 1 with a reception. -/
def rxM (rx : Rx) : Mach := ((Mach.reset.setRx 1 rx).wr (RFx_STAT 1) fRFx_STAT_STATE 3)

theorem witness_ReceptionsStartRestartAndEnd :
    ((rxM Rx.zero).radioState 1 == 3 && ((rxM Rx.zero).getRadio 1).moving.isNone && ((rxM Rx.zero).getBb 1).rx.state == 0 && Mach.reset.radioState 1 != 3) = true ∧
    ([1, 2, 3].all fun k => ((rxM { Rx.zero with state := k }).getBb 1).rx.state == k && !((rxM { Rx.zero with state := k }).getBb 1).rx.cut) = true ∧
    (let m := (rxM { Rx.zero with state := 3 }).wr (BBx_CTL 1) fBBx_CTL_RESTART_EN 1
     m.bit (BBx_CTL 1) fBBx_CTL_RESTART_EN && !Mach.reset.actValid && ((rxM { Rx.zero with state := 3, cut := true }).getBb 1).rx.cut &&
       (active m).decBudget 1 == some 0) = true := by decide +kernel

/-! ### Witnesses: the Wi-Fi MAC, the air scheduler, the mesh radio -/

/-- A plan of a transmit that solicits nothing. -/
def aPlan : TxPlan := ⟨1, 0, [], 0, [], [], false, 0, 0, 0, 0, 0, [], 0, .frames⟩

/-- Radio 1's sequencer changed, with the slot of the armature and WMAC at work. -/
def seqM (f : Seq → Seq) (sl : Slot) : Mach := ((slotM sl).wr WMAC_CTL fWMAC_CTL_RUN 1).sqMod 1 f

/-- The slot as opened, waiting. -/
def anOpen (kind : Nat) (nstr : Bool) : SlotRun := ⟨aSlot kind 0, 0, 0, true, nstr⟩

theorem witness_SlotsResponsesAndContentionProceed :
    ([1, 4].all fun kind =>
      let m := seqM id (aSlot kind 0)
      (m.slotsOf 1)[0]? == some (aSlot kind 0) && m.actValid && m.bit WMAC_CTL fWMAC_CTL_RUN && slotOccurs m.act (aSlot kind 0) m.beat) = true ∧
    ([1, 4].all fun k => (seqM id (aSlot k 0)).slotBar 1 (aSlot k 0) == none && (seqM id (aSlot 2 0)).slotBar 1 (aSlot 2 0) == some 2) = true ∧
    (let m := { Mach.reset with radios := [] }
     (m.getRadio 1).mode != 2 && !m.depOverrun (aSlot 1 0) && !m.inHold && m.flt.restarting.isEmpty && (m.getSq 1).slot.isNone && !(m.getSq 1).owe &&
       (m.getSq 1).await.isNone && !m.isStandby) = true ∧
    ([false, true].all fun nstr =>
      let m := seqM (fun q => { q with slot := some (anOpen 1 nstr) }) (aSlot 1 0)
      (m.getSq 1).slot == some (anOpen 1 nstr) && !m.nstrWaits 1 aPlan && m.mediumIdle 1) = true ∧
    (let m := (seqM (fun q => { q with slot := some (anOpen 1 false), owe := true, await := some [3], backoff := [(0, some 2)] }) (aSlot 4 0)).setRx 2
       { Rx.zero with state := 3, own := true }
     m.nstrWaits 1 aPlan && (m.getSq 1).owe && (m.getSq 1).await == some [3] && (m.getBb 1).rx.state == 0 && tabGet none (m.getSq 1).backoff 0 == some 2 &&
       (m.txRefusal 1 { aTx with kind := 2 }).isSome) = true ∧
    (let m := seqM (fun q => { q with slot := some (anOpen 4 false), backoff := [(0, some 1)] }) (aSlot 4 0)
     (m.getSq 1).slot == some (anOpen 4 false) && decide (m.tb5 ≤ m.fineAt 0 100) && m.mediumIdle 1 && !m.nstrHeld 1 &&
       !m.nstrWaits 1 aPlan && (m.getRadio 1).tx.isNone && tabGet none (m.getSq 1).backoff 0 == some 1 && tabGet none (m.getSq 1).backoff 3 == none) = true := by decide +kernel

/-- An MPDU from the air. -/
def anMpdu (mic : Bool) (key : Option Nat) : AirMpdu := ⟨5, 8, 0, 1, key, mic, [1], none, none, none⟩

/-- A reorder window with one frame held. -/
def aBa (held : List Mpdu) : BaRx := ⟨64, 0, held, [], 0⟩

/-- TE 0 with a PUT to a unit. -/
def unitM (unit op len : Nat) (src : List TWord) : Mach := accM { accOf true (mkPtr 7 (unit * 256 + op)) src with len := len }

/-- A staging request of four words (R323). -/
def stageSrc : List TWord := [nilWord, mkWord tagDESC (BitVec.ofNat 60 (2 ^ 40)), mkPtr 2 0, intWord 11454, 0, 0, 0, 0]

theorem witness_MpdusAreDeliveredAcknowledgedAndStaged :
    ((withFlds [(CHN_STAT, fCHN_STAT_ROLE, 4)]).isStandby && !Mach.reset.isStandby && (anMpdu false none).bytes != [] && decide (8 ≤ (anMpdu true none).tid)) = true ∧
    (let m := Mach.reset.setKeyE 11 { KeyE.zero with used := true }
     (m.keyE 11).used && !(m.keyE 11).guard && tabGet 0 (m.keyE 11).rx 8 == 0 && (2 * (anMpdu true (some 1)).sta + 1 % 2 == 11)) = true ∧
    ((Mach.reset.getSq 1).await.isNone && (Mach.reset.getSq 1).lateSubs.isEmpty &&
      ((Mach.reset.sqMod 1 fun q => { q with lateSubs := [3] }).getSq 1).lateSubs != [] && (tabGet none Mach.reset.wmac.baRx 0).isNone) = true ∧
    (let u : Mpdu := ⟨1, 1, 0, 0, none, true, [1], 7, 1⟩
     let m := Mach.reset.wmacMod fun w => { w with baRx := [(0, some (aBa [u]))] }
     tabGet none m.wmac.baRx 0 == some (aBa [u]) && oldestAt (aBa [u]).held == some 7) = true ∧
    (let m := unitM 0x31 1 4 stageSrc
     (m.openAcc 0 0).any (fun a => ptrClass a.far == 7 && ptrAddr a.far / 256 % 256 == 0x31 && ptrAddr a.far % 256 == 1 && a.len == 4 &&
       (a.src.drop 4).all fun z => payN z == 0) && m.asch.picked.isEmpty && (m.keyOf (mkWord tagKEY 1)).isNone && payN (stageSrc.getD 3 0) == 11454) = true ∧
    (let u : Sub := ⟨3, 0, 16, 5, 0, 0, false, false, false, 0, 12, none, 0, 0, 1, false, some 0, false, false, 0, 0, []⟩
     let m := Mach.reset.setStg 1 ⟨0, [u]⟩
     ((m.stg 1).subs.find? fun z => z.id == 3 && z.lost.isSome) == some u && m.keyLive u && !m.keyLive { u with key := some (3, 1) } &&
       ((Mach.reset.stg 1).subs.find? fun z => z.id == 3 && z.lost.isSome).isNone) = true := by decide +kernel

theorem witness_AirSchedulerQueuesPoolsAndTemplates :
    (let src : List TWord := [mkWord tagDESC (BitVec.ofNat 60 (16447 * 2 ^ 45)), mkPtr 2 0, intWord 1, mkWord tagTIME 0]
     let m := unitM 0x40 1 1 src
     (m.openAcc 0 0).any (fun a => ptrClass a.far == 7 && ptrAddr a.far / 256 % 256 == 0x40 && ptrAddr a.far % 256 == 1 && a.len == 1) &&
       wTag (src.getD 0 0) == tagDESC && payN (src.getD 0 0) % 2 ^ 45 == 0 && payN (src.getD 0 0) / 2 ^ 45 == 16447 &&
       decide (((m.queue 16447).frames.map QFrame.len).sum + 1 ≤ (m.queue 16447).attr.limit * 1024)) = true ∧
    ([nilWord, intWord 0, intWord 2049, intWord 12288, intWord 12289].all fun item =>
      let src : List TWord := [intWord (1 * 65536), intWord 0, nilWord, nilWord, item, 0, 0, 0]
      (unitReq src).any (fun r => r.count == 1 && r.items.headD 0 == item) && ((unitM 0x41 1 1 src).openAcc 0 0).isSome) = true ∧
    (decide (Mach.reset.hpCount 1 ≤ (Mach.reset.asch.pool 1).length) && decide (0 < (withFlds [(ASCH_HPk_COUNT 1, fASCH_HPk_COUNT_COUNT, 4)]).hpCount 1) &&
      Mach.reset.asch.pool1.isEmpty && (Mach.reset.hpFind 0).isNone && Mach.reset.asch.freeing.isEmpty && Mach.reset.asch.rows.isEmpty && (unitReq []).isNone) = true ∧
    (let m := withFlds [(ASCH_HPk_COUNT 1, fASCH_HPk_COUNT_COUNT, 4)]
     m.hpFind 12288 == some (1, 1) && tabGet none (m.asch.pool 1) 1 == none &&
       tabGet none ((m.setPool 1 [(1, some 0)]).asch.pool 1) 1 != none) = true ∧
    ((withFlds [(ARM_STAT, fARM_STAT_SHADOW_STATE, 5)]).rd ARM_STAT fARM_STAT_SHADOW_STATE == 5 && Mach.reset.rd ARM_STAT fARM_STAT_SHADOW_STATE != 5) = true := by decide +kernel

/-- The mesh radio changed, in state 3. -/
def meshM (st : Nat) (f : MeshRadio → MeshRadio) : Mach := (lit.mradMod f).wr MSH_MSTAT fMSH_MSTAT_STATE st

/-- A transmit of the mesh radio. -/
def aMeshTx : MeshTx := ⟨0, false, 0, 0, [], false⟩

theorem witness_MeshRadioSendsAndReceives :
    ((meshM 3 id).mrad.moving.isNone && (meshM 3 id).mrad.tx.isNone && !(meshM 3 id).bit MSH_MSTAT fMSH_MSTAT_LOCK && (meshM 3 id).mradState == 3 &&
      (meshM 3 id).mrad.rx.phase == 0 && (meshM 3 id).mrad.rx.endAt != ((meshM 3 id).getBase 4).nsTotal + 1 && (meshM 3 id).mlink.air.isEmpty) = true ∧
    ([1, 2].all fun st => (meshM 3 fun r => { r with moving := some st }).mrad.moving == some st) = true ∧
    (let m := (meshM 4 fun r => { r with tx := some aMeshTx, txOn := true }).wr MSH_MSTAT fMSH_MSTAT_LOCK 1
     m.mrad.tx == some aMeshTx && m.mrad.txOn && m.mradState == 4 && m.bit MSH_MSTAT fMSH_MSTAT_LOCK && aMeshTx.burst == 0 &&
       !(meshM 2 fun r => { r with tx := some aMeshTx }).mrad.txOn) = true ∧
    ([1, 2, 3].all fun k =>
      let m := (meshM 3 fun r => { r with rx := { MeshRx.zero with phase := k, power := -400 } }).wr MSH_MRXCTL fMSH_MRXCTL_RESTART_EN 1
      m.mrad.rx.phase == k && m.bit MSH_MRXCTL fMSH_MRXCTL_RESTART_EN && decide (m.mrad.rx.power + 4 * 31 ≤ 0)) = true ∧
    (crcOf crc8 [1, 0] ≠ 0 ∧ (0 : Nat) ≤ min 6 (getFld (Mach.reset.reg (MSH_MPHYk 0)) fMSH_MPHYk_SYNC_ERR) ∧ ([] : List Byte).length = MeshRx.zero.len) := by decide +kernel

theorem witness_MeshCalibrationDutyAndWake :
    (let m := meshM 2 fun r => { r with tx := some aMeshTx, txOn := true }
     m.rd SYS_DOMSTAT fSYS_DOMSTAT_LANT_STATE != 0 && m.mrad.tx != none && m.mrad.txOn && (meshM 2 id).mrad.moving.isNone && (meshM 2 id).mradState != 5 &&
       (meshM 2 id).mrad.cal.isNone) = true ∧
    ([1, 2].all fun k =>
      let m := meshM 5 fun r => { r with cal := some k }
      m.mrad.cal == some k && !m.mrad.startCal && m.mrad.tx.isNone && m.mlink.busy.isNone && m.mlink.air.isEmpty) = true ∧
    (let w := lit.wr MSH_WAKECTL fMSH_WAKECTL_EN 1
     w.bit MSH_WAKECTL fMSH_WAKECTL_EN && !(lit.wr MSH_WAKECTL fMSH_WAKECTL_EN 0).bit MSH_WAKECTL fMSH_WAKECTL_EN && w.mradState != 4) = true ∧
    ([0, 0xFFFF, 1].all fun k => (lit.wr MSH_WAKEWORD fMSH_WAKEWORD_WORD k).rd MSH_WAKEWORD fMSH_WAKEWORD_WORD == k) = true ∧
    Mach.reset.rd SYS_DOMSTAT fSYS_DOMSTAT_LANT_STATE = 0 := by decide +kernel

/-! ### Witnesses: the mesh link, the mailbox, LC's ports -/

/-- A mesh template of one entry of one slot. -/
def aTpl (kind node : Byte) : List Byte :=
  [0x46, 0x4A, 0x4D, 0x54, 1, 0, 4, 1, 1, 0, 0, 0, 0, 0, 0, 0, 0, 1, kind, 0, node, 0, 1, 0]

/-- The lantern at work under a template. -/
def linkM (kind node : Byte) (f : MeshLink → MeshLink) : Mach :=
  (lit.wr MSH_LCTL fMSH_LCTL_RUN 1).mlinkMod fun l => f { l with force := aTpl kind node, live := aTpl kind node }

/-- A frame received. -/
def heard (l : List Byte) : Mach := lit.mlinkMod fun q => { q with lastRx := some ⟨[0], l⟩ }

/-- A neighbour entry. -/
def aNbr (misses resync : Nat) : Nbr := { Nbr.zero with addr := 5, state := 1, misses := misses, resync := resync }

theorem witness_MeshSuperframesSlotsAndFramesAct :
    (let m := (linkM 1 0 id).toSuperframe
     m.lanternOn && m.bit MSH_LCTL fMSH_LCTL_RUN && m.mlink.apply.isNone && m.mlink.swapTo == 0 && m.mlink.force != [] && decide (1 ≤ tplSlotMs m.mlink.force) &&
       !Mach.reset.toSuperframe.lanternOn) = true ∧
    ([0, 1, 2, 3, 4, 5, 6].all fun k =>
      let m := linkM k 5 id
      let a := m.reachLantern (m.slotInstant 0)
      a.lanternOn && a.bit MSH_LCTL fMSH_LCTL_RUN && a.mrad.tx.isNone && a.entryAt a.mlink.sfn 0 == some 0 && tplB a.mlink.force 16 == 0 &&
        tplB a.mlink.force 18 == k.toNat && (a.mlink.nbrOf 5).isNone && a.mlink.floors.isEmpty && (a.entryAt a.mlink.sfn 1).isNone) = true ∧
    (lit.rxFrame.isNone && ([1, 2, 4, 5].all fun t => (heard [16 * t]).rxFrame == some [16 * t] && tplB [16 * t] 0 / 16 == t.toNat) &&
      ((heard (16 :: List.replicate 22 0)).linkJudge (16 :: List.replicate 22 0) matches .dropped _) &&
      crcOf crc16 (16 :: List.replicate 20 0) != 0) = true ∧
    (let m := linkM 1 0 fun l => { l with window := some ⟨some 5, 0, 0, false, false, none, 0, none⟩, nbrs := [(0, aNbr 0 0)] }
     let z := m.toWindowEnd
     lit.toWindowEnd.mlink.window.isNone && z.mlink.window == some ⟨some 5, 0, 0, false, false, none, 0, none⟩ && z.mlink.busy.isNone &&
       z.mlink.nbrOf 5 == some 0 && (tabGet Nbr.zero z.mlink.nbrs 0).resync != 2) = true := by decide +kernel

/-- A seen-cache entry with a relay due at 0. -/
def aSeen : Seen := ⟨5, 6, 0, 0, some (0, 1, 7, [])⟩

theorem witness_MeshScheduledWorkComesDue :
    (let m := linkM 2 5 fun l => { l with nbrs := [(0, aNbr 3 0)] }
     (lit.mlink.nbrOf 5).isNone && m.mlink.nbrOf 5 == some 0 && (tabGet Nbr.zero m.mlink.nbrs 0).misses == 3 && (m.nextDed (aNbr 3 0) 5).isSome &&
       (linkM 2 5 fun l => { l with nbrs := [(0, aNbr 2 0)] }).mlink.nbrOf 5 == some 0 && m.mrad.tx.isNone && m.mlink.air.isEmpty && m.mlink.acks.isEmpty) = true ∧
    (let m := linkM 5 0 fun l => { l with seen := [aSeen], acks := [(0, 0, 5, [])] }
     let f := m.reachLantern (m.relayDue 5 6)
     (f.mlink.seen.find? fun y => y.orig == 5 && y.seq == 6) == some aSeen && (f.floodAt 0).isSome && (lit.floodAt 0).isNone &&
       (lit.mlink.seen.find? fun y => y.orig == 5 && y.seq == 6).isNone && m.mlink.acks == [(0, 0, 5, [])]) = true ∧
    ([0, 1, 2, 4].all fun op =>
      let c : LkCmd := ⟨0, op, 0, 0, 0⟩
      let m := (lit.mlinkMod fun l => { l with queue := [c] }).wr MSH_MCTL fMSH_MCTL_MODE (if op = 0 then 0 else 2)
      let a := m.toLkAt
      a.mlink.queue == [c] && (a.lkNow + 2 ^ 32 - 0) % 2 ^ 32 == 0 && (a.rd MSH_MCTL fMSH_MCTL_MODE == 2) == (op != 0)) = true ∧
    (let m := lit.mlinkMod fun l => { l with queue := [⟨0, 1, 0, 0, 0⟩], timer := 2000 }
     m.toLkAt.mlink.queue == [⟨0, 1, 0, 0, 0⟩] && m.toLkAt.lkNow == 1 && lit.toLkAt.mlink.queue.isEmpty && lit.lanternOn && !Mach.reset.lanternOn) = true := by decide +kernel

/-- An item at the head of a mailbox channel, the mailbox open or closed. -/
def boxM (ch kind : Nat) (data : List Byte) (open_ : Bool) : Mach :=
  ((lit.setChan ch { Chan.zero with q := itemWords (MItem.bytes ⟨kind, 0, 0, 0, 9, 0, 0, 0, data⟩), vis := 1 }).wr (FQ_CHn_CFG ch) fFQ_CHn_CFG_ENABLE 1).mlinkMod fun l =>
    { l with open_ := open_ }

theorem witness_MailboxCommandsActAndAnswer :
    ([(248, 0x81), (248, 0x82), (248, 0x83), (248, 0x84), (248, 0x85), (248, 0x86), (248, 0x87), (249, 0x90), (250, 0x91), (248, 0x80), (249, 0x92), (251, 0)].all fun e =>
      [true, false].all fun o =>
        let m := boxM e.1 e.2 [0, 0, 0] o
        m.lanternOn && m.mlink.open_ == o && (m.itemPeek e.1).any fun i => i.kind == e.2 && i.tgt == 9 && i.data == [0, 0, 0]) = true ∧
    (let m := (boxM 248 0x82 [252, 7, 0] true).mlinkMod fun l => { l with out := [(252, some ⟨1, 0, 7, 0, 0, 0, 0, 0, []⟩)] }
     (tabGet none (m.itemTake 248).1.mlink.out (tplB [252, 7, 0] 0)).any fun i => i.mseq == tplW [252, 7, 0] 1) = true ∧
    (4096 < 4096 + [(1 : Byte)].length ∧ 4095 + [(1 : Byte)].length ≤ 4096 ∧ tplCheck (aTpl 0 0) = none ∧ tplCheck (aTpl 7 0) = some 18 ∧ tplB [0, 0, 1] 2 = 1) ∧
    (let m := (boxM 249 0x90 [] true).mlinkMod fun l => { l with routes := [(9, some 5)], nbrs := [(0, { aNbr 0 0 with state := 3 })] }
     tabGet none (m.itemTake 249).1.mlink.routes 9 == some 5 && (m.itemTake 249).1.mlink.nbrOf 5 == some 0 &&
       (tabGet Nbr.zero (m.itemTake 249).1.mlink.nbrs 0).state == 3 && (tabGet none lit.mlink.routes 9).isNone) = true := by decide +kernel

theorem witness_LanternPortsQueueSendAndCipher :
    (!Mach.reset.lanternOn && lit.lanternOn && lit.mlink.ccBusy.isNone &&
      tabGet 0 (lit.mlinkMod fun l => { l with ports := [(0xF340, 252)] }).mlink.ports 0xF340 == BitVec.ofNat 8 252) = true := by decide +kernel

/-! ### Witnesses: uplinks, the router, memory -/

/-- Port 0 changed, in a mode and with a link. -/
def portM (f : UPort → UPort) : Mach := ((Mach.reset.wr (UPL_Pp_CFG 0) fUPL_Pp_CFG_MODE 1).wr (UPL_Pp_STAT 0) fUPL_Pp_STAT_LINK 1).portMod 0 f

/-- A transmit entry. -/
def aTxEnt (ts : Bool) : TxEnt := ⟨0, 64, ts, 1, none, 0⟩

theorem witness_UplinkPortsSendReceiveAndPause :
    ((portM id).rd (UPL_Pp_CFG 0) fUPL_Pp_CFG_MODE != 0 && (portM id).bit (UPL_Pp_STAT 0) fUPL_Pp_STAT_LINK && !Mach.reset.bit (UPL_Pp_STAT 0) fUPL_Pp_STAT_LINK &&
      decide ((portM id).maxLen 0 < 9600 + 1 + 4 ∧ 60 + 4 ≤ (portM id).maxLen 0 ∧ 64 ≤ 60 + 4)) = true ∧
    (let src : List TWord := [mkWord tagPKT 0, mkWord tagDESC (BitVec.ofNat 60 (2 ^ 56)), intWord 64, nilWord]
     let m := unitM 0x50 1 1 src
     (m.openAcc 0 0).any (fun a => ptrClass a.far == 7 && ptrAddr a.far / 256 % 256 == 0x50 && a.len == 1) && wTag (src.getD 0 0) == tagPKT &&
       payN (src.getD 1 0) % 2 ^ 48 == 0 && decide (64 + 4 ≤ m.maxLen 0)) = true ∧
    ([none, some (aTxEnt false), some (aTxEnt true)].all fun c =>
      let t := (portM fun t => { t with busy := 1, cur := c }).getPort 0
      t.busy != 0 && t.cur == c && ((portM id).getPort 0).busy == 0 && ((portM id).getPort 0).pauseSent == 0 &&
        ((portM fun t => { t with pauseSent := 1 }).getPort 0).pauseSent != 0) = true ∧
    (let m := (portM id).wr (UPL_Pp_FC 0) fUPL_Pp_FC_RX_HONOUR 1
     m.bit (UPL_Pp_FC 0) fUPL_Pp_FC_RX_HONOUR && !(m.reg (UPL_Pp_STAT 0)).getLsbD 23 && !(m.reg (UPL_Pp_STAT 0)).getLsbD 15 &&
       ((m.setReg (UPL_Pp_STAT 0) 0x00808000).reg (UPL_Pp_STAT 0)).getLsbD 23 && ((m.setReg (UPL_Pp_STAT 0) 0x00808000).reg (UPL_Pp_STAT 0)).getLsbD 15 &&
       ((m.wr (UPL_Pp_PWDOG 0) fUPL_Pp_PWDOG_PAUSE_MAX 1).rd (UPL_Pp_PWDOG 0) fUPL_Pp_PWDOG_PAUSE_MAX != 0) &&
       !(m.wr (UPL_Pp_FC 0) fUPL_Pp_FC_RX_HONOUR 0).bit (UPL_Pp_FC 0) fUPL_Pp_FC_RX_HONOUR) = true ∧
    (let m := (((portM id).wr (UPL_Pp_GCYCLE 0) fUPL_Pp_GCYCLE_CYCLE 1000).wr (UPL_Pp_GCTL 0) fUPL_Pp_GCTL_LEN 1).wr (UPL_Pp_GCLe_IV 0 0) fUPL_Pp_GCLe_IV_IV 1000
     (m.gateAdmin 0).isSome && ((portM id).gateAdmin 0).isNone) = true ∧
    (let g : Gates := ⟨[(255, 1000)], 1000, 5⟩
     let t := (portM fun t => { t with next := some g, oper := some g }).getPort 0
     t.next == some g && t.oper == some g && (g.ahead 0) != [] && ((portM id).getPort 0).next.isNone && ((portM id).getPort 0).oper.isNone) = true ∧
    (let m := (portM id).wr (UPL_Pp_LPICTL 0) fUPL_Pp_LPICTL_EN 1
     m.bit (UPL_Pp_LPICTL 0) fUPL_Pp_LPICTL_EN && !(m.getPort 0).waiting && (m.getPort 0).busy == 0 && (m.getPort 0).lpi == 0 &&
       ((portM fun t => { t with lpi := 2 }).getPort 0).lpi == 2 && Mach.reset.rd (UPL_Pp_CFG 4) fUPL_Pp_CFG_MODE == 0) = true := by decide +kernel

/-- A request to a unit of RTE, RUN set. -/
def rteReq (unit op table : Nat) (items : List TWord) : Mach :=
  ((unitM unit op 9 ([intWord (65536 + table * 2 ^ 22), intWord 0, nilWord, nilWord] ++ items)).wr RTE_CTL fRTE_CTL_RUN 1)

theorem witness_RouterServesRequestsAndMovesFrames :
    ([(0x60, 1), (0x60, 2), (0x60, 3), (0x60, 4), (0x61, 1), (0x61, 2), (0x61, 3), (0x62, 1), (0x63, 1)].all fun e =>
      let m := rteReq e.1 e.2 1 [intWord 1, intWord 2, intWord 3, nilWord]
      (unitReq []).isNone && m.bit RTE_CTL fRTE_CTL_RUN && (m.openAcc 0 0).any fun a =>
        ptrClass a.far == 7 && ptrAddr a.far / 256 % 256 == e.1 && ptrAddr a.far % 256 == e.2 &&
          (unitReq a.src).any fun r => r.count == 1 && r.sel == 1 && r.items.length == 4 && decide (r.result + 2 + 8 * r.count ≤ 8192)) = true ∧
    (Mach.reset.tblKind 1 != 1 && Mach.reset.tblKind 1 != 2 && Mach.reset.tblKind 1 != 3 &&
      ((Mach.reset.wr (RTE_TBLt_CFG 1) fRTE_TBLt_CFG_KIND 1).wr (RTE_TBLt_CFG 1) fRTE_TBLt_CFG_KEYW 1).hashOk 1 &&
      (Mach.reset.wr (RTE_TBLt_CFG 1) fRTE_TBLt_CFG_KIND 2).tblKind 1 == 2) = true ∧
    (Mach.reset.rte.acts.isEmpty && decide (0 ≤ (Mach.reset.wpol 0).credit) &&
      decide (((Mach.reset.setWpol 0 { Shaper.zero with credit := -1 }).wpol 0).credit < 0)) = true ∧
    (let m := ((Mach.reset.wr RTE_CTL fRTE_CTL_RUN 1).wr (RTE_INq 3) fRTE_INq_EN 1).wr (RTE_INq 3) fRTE_INq_AIR 1
     m.bit RTE_CTL fRTE_CTL_RUN && m.bit (RTE_INq 3) fRTE_INq_EN && m.bit (RTE_INq 3) fRTE_INq_AIR && (tabGet [] m.rte.intake 3).length == 0 &&
       !Mach.reset.bit (RTE_INq 3) fRTE_INq_EN) = true ∧
    (let m := Mach.reset.setHead 5 { Head.zero with copying := some 2, len := 16 }
     (m.head 5).copying == some 2 && (m.txPlace 5).isNone && (Mach.reset.head 5).copying.isNone && (Mach.reset.head 5).spill.isNone) = true ∧
    (let m := (Mach.reset.setHead 5 { Head.zero with spill := some 2, len := 16 }).portMod 0 fun t => { t with queues := [(0, [⟨5, 16, false, 0, none, 0⟩])] }
     (m.head 5).spill == some 2 && m.txPlace 5 == some 0 && decide ((0 + 16 + 255) / 256 - 1 ≤ m.cellsFree)) = true := by decide +kernel

theorem witness_MemoryServesRefreshesTrainsScrubsAndChecks :
    (decide (Mach.reset.dramTop < Mach.reset.dramTop + 16 * 1) && decide (0 + 16 * 64 ≤ Mach.reset.dramTop) && (Mach.reset.dbank 0 0).queue.isEmpty &&
      Mach.reset.flt.notes.isEmpty && (Mach.reset.act.memwin[0]?).isNone && Mach.reset.nvm.cells.isEmpty) = true ∧
    (let w : MemWin := ⟨0, 15, 3, 0, 10, 0⟩
     let m := active (armM fun a => { a with bank0 := { a.bank0 with memwin := [w] }, bank1 := { a.bank1 with memwin := [w] } })
     m.act.memwin[0]? == some w && m.actValid && w.beat == m.bidx) = true ∧
    ([0, 1].all fun k =>
      let w : MemWin := ⟨0, 15, k, 0, 10, 0⟩
      let m := (active (armM fun a => { a with bank0 := { a.bank0 with memwin := [w] }, bank1 := { a.bank1 with memwin := [w] } })).dbankMod 2 9 fun b =>
        { b with debt := 1 }
      let idle := m.refreshWait 2 9
      m.winOpen k (m.dramPlace 0).1 m.tb5 && !m.winOpen (1 - k) 0 m.tb5 && (m.dbank 2 9).debt == 1 && !(m.dbank 2 9).forced &&
        idle.winOpen 0 2 (idle.tb5 - 140) == (k == 0) && idle.tb5 == 230) = true ∧
    (let m := Mach.reset.dbankMod 2 9 fun b => { b with debt := 10, forced := true, freeAt := 400 }
     (m.dbank 2 9).forced && (m.dbank 2 9).debt == 10 && (m.refreshWait 2 9).quarters == 960 &&
       (Mach.reset.memMod fun x => { x with mr4At := [(1, some 5)] }).mem.mr4At != []) = true ∧
    (!Mach.reset.actValid && (Mach.reset.wr MEM_CTL fMEM_CTL_TRAIN 1).bit MEM_CTL fMEM_CTL_TRAIN && !(Mach.reset.wr MEM_CTL fMEM_CTL_TRAIN 0).bit MEM_CTL fMEM_CTL_TRAIN &&
      (Mach.reset.wr MEM_SCRUB fMEM_SCRUB_EN 1).bit MEM_SCRUB fMEM_SCRUB_EN && !(Mach.reset.wr MEM_SCRUB fMEM_SCRUB_EN 0).bit MEM_SCRUB fMEM_SCRUB_EN &&
      decide (classify (dramWord (dramPut [] 0 (addSym (encodeCode 5) 17 1)) 0) = .corrected (encodeCode 5)) && decide (classify (dramWord [] 0) = .clean)) = true ∧
    (!Mach.reset.locked && (withFlds [(NVM_STAT, fNVM_STAT_LOCKED, 1)]).locked && !Mach.reset.nvm.keyOnce && listedWords (memWrite [] 18 [1]) == [1] &&
      Mach.reset.sys.powerGood && !Mach.reset.lanternOn) = true ∧
    (!Mach.reset.bit (CHK_Cc_CTL 0) fCHK_Cc_CTL_GO && decide (5 ≤ getFld (putFld 0 fCHK_Cc_CTL_POLY 5) fCHK_Cc_CTL_POLY) && (Mach.reset.reg (CHK_Cc_LEN 0)).toNat == 0 &&
      (Mach.reset.wr (CHK_Cc_STAT 6) fCHK_Cc_STAT_STATUS 1).rd (CHK_Cc_STAT 6) fCHK_Cc_STAT_STATUS == 1 &&
      (Mach.reset.wr (CHK_Cc_CTL 0) fCHK_Cc_CTL_SPACE 3).rd (CHK_Cc_CTL 0) fCHK_Cc_CTL_SPACE == 3 &&
      (Mach.reset.wr (CHK_Cc_CTL 0) fCHK_Cc_CTL_GO 1).bit (CHK_Cc_CTL 0) fCHK_Cc_CTL_GO) = true := by decide +kernel

/-! ### Witnesses: time -/

/-- A base changed. -/
def baseM (k : Nat) (f : Base → Base) : Mach := Mach.reset.setBase k (f (Mach.reset.getBase k))

/-- Guy port 0 following, its exchange at t1. -/
def guyM (t1 : Option Nat) (follow : Nat) (t : Nat) : Mach :=
  ((((baseM 0 fun b => b.at_ ((t : Int) * 2 ^ 32)).setGuyTime 0 { GuyTime.zero with t1 := t1, inside := 15 }).wr (TIM_GUYp_CTL 0) fTIM_GUYp_CTL_EN 1).wr (TIM_GUYp_CTL 0)
    fTIM_GUYp_CTL_FOLLOW follow)

/-- Whether base `k`'s rate `r` satisfies R550. -/
def rateIn (k : Nat) (r : Int) : Bool := decide ((r - tbNominal k).natAbs ≤ if k = 4 then 67108864 else 5368709)

theorem witness_TimeBasesLoadStepSlewCaptureAndFollow :
    (Mach.reset.rd SYS_DOMSTAT fSYS_DOMSTAT_LANT_STATE == 0 && lit.rd SYS_DOMSTAT fSYS_DOMSTAT_LANT_STATE != 0) = true ∧
    (running.bit ARM_PLINTH fARM_PLINTH_RUN && !Mach.reset.bit ARM_PLINTH fARM_PLINTH_RUN &&
      ([0, 1, 2].all fun x => (Mach.reset.wr (RFx_CTL x) fRFx_CTL_MODE 2).rd (RFx_CTL x) fRFx_CTL_MODE == 2 && Mach.reset.rd (RFx_CTL x) fRFx_CTL_MODE != 2) &&
      (lit.wr MSH_LCTL fMSH_LCTL_RUN 1).bit MSH_LCTL fMSH_LCTL_RUN && !lit.bit MSH_LCTL fMSH_LCTL_RUN) = true ∧
    (decide (min 2000 (running.rd TIM_CTL fTIM_CTL_MAXSTEP_NS) < (2001 : BitVec 32).toInt.natAbs) && decide ((-1 : BitVec 32).toInt < 0) &&
      decide (¬ min 2000 (running.rd TIM_CTL fTIM_CTL_MAXSTEP_NS) < (0 : BitVec 32).toInt.natAbs) &&
      decide (lit.rd MSH_GUARD fMSH_GUARD_GMIN_US * 1000 < 2 * (0x7FFFFFFF : BitVec 32).toInt.natAbs)) = true ∧
    ([0, 1, 2, 3, 4].all fun k => rateIn k (Mach.reset.tbInc k + Mach.reset.tbSlew k) &&
      !rateIn k ((Mach.reset.setReg (TIM_TBk_SLEW k) 0x7FFFFFFF).tbInc k + (Mach.reset.setReg (TIM_TBk_SLEW k) 0x7FFFFFFF).tbSlew k) &&
      !rateIn k ((3 * 2 ^ 32 : Nat) : Int) && rateIn k (((Mach.reset.reg (TIM_TBk_INC_NS k)).toNat % 256 * 2 ^ 32 + (Mach.reset.reg (TIM_TBk_INC_FRAC k)).toNat : Nat) : Int)) = true ∧
    (([0, 1, 2, 3, 4].all fun j => (Mach.reset.getBase j).incPair.isNone) &&
      ((baseM 2 fun b => { b with load := true }).getBase 2).load && !(Mach.reset.getBase 2).load) = true ∧
    (!Mach.reset.bit TIM_CAPCTL fTIM_CAPCTL_PIN_EN && (Mach.reset.wr TIM_CAPCTL fTIM_CAPCTL_PIN_EN 1).bit TIM_CAPCTL fTIM_CAPCTL_PIN_EN &&
      !(Mach.reset.reach 1000000000).bit TIM_PPSCTL fTIM_PPSCTL_EN && ((Mach.reset.wr TIM_PPSCTL fTIM_PPSCTL_EN 1).reach 1000000000).bit TIM_PPSCTL fTIM_PPSCTL_EN &&
      (Mach.reset.timMod fun t => { t with pps := true }).tim.pps && !Mach.reset.tim.pps) = true ∧
    ((guyM none 0 0).bit (TIM_GUYp_CTL 0) fTIM_GUYp_CTL_EN && !Mach.reset.bit (TIM_GUYp_CTL 0) fTIM_GUYp_CTL_EN &&
      ((Mach.reset.setGuyTime 0 { GuyTime.zero with t2 := some 5 }).guyTime 0).t2 == some 5 && (Mach.reset.guyTime 0).t2.isNone) = true ∧
    (Mach.reset.sys.auto != 1 && ((guyM none 0 0).guyTime 0).t1.isNone && ((guyM (some 9) 0 0).guyTime 0).t1 == some 9 &&
      !(guyM (some 9) 0 0).bit (TIM_GUYp_CTL 0) fTIM_GUYp_CTL_FOLLOW && (guyM (some 9) 1 0).bit (TIM_GUYp_CTL 0) fTIM_GUYp_CTL_FOLLOW &&
      decide (800000 < (Int.tdiv (((2000000 : Nat) : Int) - 0 - (((guyM (some 0) 1 0).stamp : Int) - 0)) 2).natAbs) &&
      decide ((Int.tdiv (((0 : Nat) : Int) - 0 - (((guyM (some 0) 1 0).stamp : Int) - 0)) 2).natAbs ≤ 1600) && decide (15 ≤ ((guyM (some 0) 1 0).guyTime 0).inside)) = true ∧
    (let m := Mach.reset.setGuyTime 0 { GuyTime.zero with missed := 4 }
     decide (4 ≤ (m.guyTime 0).missed) && !m.bit (TIM_GUYp_STAT 0) fTIM_GUYp_STAT_LOST && decide ((Mach.reset.guyTime 0).missed < 4) &&
       (m.wr (TIM_GUYp_STAT 0) fTIM_GUYp_STAT_LOST 1).bit (TIM_GUYp_STAT 0) fTIM_GUYp_STAT_LOST) = true ∧
    ((guyM none 1 0).bit (TIM_GUYp_CTL 0) fTIM_GUYp_CTL_FOLLOW && (Mach.reset.wr TIM_CTL fTIM_CTL_HOST_SERVO 1).bit TIM_CTL fTIM_CTL_HOST_SERVO &&
      getFld 0 fTIM_CTL_HOST_SERVO == 0 && getFld (putFld 0 fTIM_CTL_HOST_SERVO 1) fTIM_CTL_HOST_SERVO == 1 && getFld (putFld 0 fTIM_GUYp_CTL_FOLLOW 1) fTIM_GUYp_CTL_FOLLOW != 0) = true := by
  decide +kernel

/-! ### Witnesses: the host interface -/

/-- A ring entry of an opcode, flags and operand bytes (R594). -/
def ent (opcode flags : Nat) (ops : List Byte) : List Byte :=
  bytesLE 2 opcode ++ bytesLE 1 flags ++ bytesLE 1 0 ++ bytesLE 4 9 ++ ops ++ List.replicate (24 - ops.length) 0

/-- A ring running with four entries to take. -/
def ringM (r : Nat) (f : Mach → Mach) : Mach :=
  (f (Mach.reset.wr HIF_CTL fHIF_CTL_ENABLE 1)).setRing r { Ring.zero with st := 1, log2 := 6, quota := 4, db := 4 }

/-- A command with operands from an indirect buffer of 64 bytes. -/
def cmdB (opcode : Nat) (l : List Byte) : Cmd :=
  cmdOf (ent opcode 2 (bytesLE 8 0x1000 ++ bytesLE 4 64)) (some (l ++ List.replicate (64 - l.length) 0)) [] 0

/-- A command with operands in its entry. -/
def cmdI (opcode : Nat) (l : List Byte) : Cmd := cmdOf (ent opcode 0 l) none [] 0

/-- What HIF holds once it has taken the entry of `c` from ring 0. -/
def headOf (m : Mach) (entry : List Byte) (buf : Option (List Byte)) : Mach :=
  ((m.ringMod 0 fun y => { y with taken := (y.taken + 1) % 2 ^ 32, beatTaken := y.beatTaken + 1 }).journal 2 portHIF 0 0
    (0 + 256 * ((m.getRing 0).taken % 2 ^ 24)) (codesOf (slice 0 entry 0 32))).setCmds 0 [cmdOf entry buf [] m.beat]

/-- Station 3 known. -/
def staM (f : Mach → Mach) : Mach := (f Mach.reset).wmacMod fun w => { w with stas := [(3, some ⟨List.replicate 64 0, 0⟩)] }

/-- Whether the operands of a KEY_INSTALL are out of range. -/
def keyBad (c : Cmd) : Bool :=
  let A := c.arg
  let grp := A 4 1 % 2 == 1
  decide (c.args.length < 64 ∨ 6 < A 0 1 ∨ 15 < A 5 1 ∨ 8191 < A 6 2 ∨ (grp = true ∧ (511 < A 2 2 ∨ 7 < A 1 1)) ∨ (grp = false ∧ (2047 < A 2 2 ∨ 1 < A 1 1)))

theorem witness_HostCommandsRunAndFramesMove :
    (!Mach.reset.cmdMay 0 && (ringM 0 id).cmdMay 0 && ((ringM 0 id).cmdsOf 0).isEmpty) = true ∧
    (([0x00, 0x10, 0x11, 0x12, 0x18, 0x19, 0x20, 0x21, 0x22, 0x23, 0x24, 0x28, 0x30, 0x31, 0x32, 0x40, 0x50, 0x60, 0x61].all fun op => [0, 2].all fun fl =>
      let e := ent op fl []
      let c := cmdOf e (some []) [] 0
      let h := headOf (ringM 0 id) e (some [])
      (h.cmdsOf 0 == [c]) && !h.held (ringKey 0) && c.opcode == op && (c.indirect == (fl == 2)) && decide (c.bufLen ≤ 4096) && (!c.indirect || c.buf == some [])) &&
      (let c := cmdOf (ent 0x18 2 (bytesLE 8 0 ++ bytesLE 4 4097)) none [] 0; c.indirect && decide (4096 < c.bufLen)) &&
      (let c := cmdOf (ent 0x18 2 []) none [] 0; c.indirect && c.buf.isNone && c.unread) && !cmdOpcodes.contains (cmdI 0x13 []).opcode) = true ∧
    ([cmdI 0x10 [], cmdI 0x11 [], cmdI 0x12 [], cmdI 0x12 [0, 0, 0, 0, 0, 0, 0, 0, 1], cmdI 0x20 []].all fun c =>
      let z := (Mach.reset.setCmds 0 [c]).timMod fun t => { t with beat := 1 }
      z.cmdsOf 0 == [c] && !z.held (ringKey 0) && decide (0 < z.beat) && ((c.arg 8 1 == 1) == (c.args.getD 8 0 == 1))) = true ∧
    (keyBad (cmdI 0x18 []) && keyBad (cmdB 0x18 [7]) && !keyBad (cmdB 0x18 [1, 0, 3]) && !keyBad (cmdB 0x18 [1, 0, 3, 0, 1]) && (Mach.reset.sta 3).isNone &&
      ((staM id).sta 3).isSome && ((Mach.reset.setKeyE 6 { KeyE.zero with used := true }).keyE 6).used && !(Mach.reset.keyE 6).used) = true ∧
    (let A := (cmdI 0x19 [3, 0, 1, 7]).arg
     let B := (cmdI 0x19 [3, 0, 0, 1]).arg
     decide (A 2 1 = 1 ∧ A 0 2 ≤ 511 ∧ B 2 1 = 0 ∧ B 0 2 ≤ 2047 ∧ B 3 1 ≤ 1)) = true ∧
    (decide (2047 < (cmdI 0x11 [0, 8]).arg 0 2 ∧ (cmdI 0x11 [3]).arg 0 2 ≤ 2047) && decide ((cmdI 0x10 []).args.length < 64 ∧ 2007 < (cmdB 0x10 [3, 0, 0xD8, 7]).arg 2 2) &&
      (Mach.reset.staSet (cmdB 0x10 ([3, 0, 1, 0, 1] ++ List.replicate 59 0))).2 == 0) = true ∧
    (let c := cmdI 0x12 [3, 0, 1, 1, 64, 0, 5, 0, 0]
     let d := cmdI 0x12 [3, 0, 1, 0, 64, 0, 5, 0, 1]
     decide (c.arg 0 2 ≤ 2047 ∧ c.arg 2 1 ≤ 7 ∧ c.arg 3 1 = 1 ∧ c.arg 8 1 = 0 ∧ c.arg 4 2 ∈ [64, 128, 256, 512, 1024] ∧ c.arg 6 2 ≤ 4095 ∧ d.arg 3 1 = 0 ∧ d.arg 8 1 = 1 ∧
       7 < (cmdI 0x12 [3, 0, 8]).arg 2 1) && (tabGet none (staM id).wmac.baRx 49).isNone) = true ∧
    (let c := cmdI 0x20 [1, 0, 7, 2, 1, 0, 2, 0, 3, 0, 0, 0, 0, 1]
     decide (c.arg 0 2 ≤ 16447 ∧ c.arg 2 1 ≤ 7 ∧ c.arg 3 1 ≤ 2 ∧ c.arg 6 2 ≤ 4095 ∧ c.arg 8 2 ≤ 4095 ∧ 4 ≤ c.arg 12 4 ∧ c.arg 12 4 ≤ 65536 ∧ (cmdI 0x20 []).arg 12 4 < 4)) = true ∧
    (let c := cmdI 0x21 [1, 0, 1, 0, 5, 0, 0, 0, 9, 0, 0, 0, 0xFF, 0xFF, 0xFF, 0xFF]
     decide (c.arg 0 2 ≤ 4095 ∧ c.arg 4 4 = 5 ∧ c.arg 8 4 ≤ 2 ^ 31 - 1 ∧ signedOf 32 (c.arg 12 4) ≤ 0 ∧ c.arg 2 1 ≤ 1 ∧ (cmdI 0x21 []).arg 4 4 = 0 ∧
       1 < (cmdI 0x21 [1, 0, 2]).arg 2 1)) = true := by decide +kernel

/-- A device with one slot active. -/
def oneSlot (beat len : Nat) : Mach :=
  let s : Slot := ⟨0, beat, 1, 16, 0, len, 0, 1, 0, 0, 0, 0⟩
  active (staM fun m => m.armMod fun a => { a with bank0 := { Bank.zero with slots := [s] }, bank1 := { Bank.zero with slots := [s] } })

theorem witness_HostCommandsReachTheirTargets :
    (let c := cmdI 0x23 [1, 0, 3, 0, 0, 0, 16, 0, 1]
     let t : Twt := ⟨1, false, 3, 0, 0, 16, 1, 0⟩
     let z := oneSlot 0 4
     t == ⟨c.arg 0 2, c.arg 7 1 % 2 == 1, c.arg 2 2, c.arg 4 1, c.arg 5 1, c.arg 6 1, c.arg 8 2, c.arg 10 2⟩ && (z.sta 3).isSome &&
       (z.twtSlot t).any (fun s => twtFits (s.frames z.act.cycle * 4 * z.beatNs / 1000) && s.len * (z.beatNs / 256) % 1000 == 0) &&
       ((oneSlot 1 4).twtSlot t).isNone && !twtFits (65536 + 1) && decide ((cmdI 0x23 []).arg 8 2 = 0)) = true ∧
    (let t : Twt := ⟨1, false, 3, 0, 0, 16, 1, 0⟩
     (Mach.reset.wmacMod fun w => { w with twts := [t] }).wmac.twts == [t] && decide ((cmdI 0x24 [1]).arg 0 2 ≤ 4095) && Mach.reset.wmac.twts.isEmpty) = true ∧
    (decide (47 < (cmdI 0x28 [48]).arg 0 1 ∧ (cmdI 0x28 [1]).arg 0 1 ≤ 47 ∧ (cmdI 0x28 [1]).arg 4 4 ≤ 2048)) = true ∧
    ([1, 2, 3].all fun op =>
      let c := cmdB 0x30 [1, op, 1]
      let z := (Mach.reset.wr (RTE_TBLt_CFG 1) fRTE_TBLt_CFG_KIND 1).wr (RTE_TBLt_CFG 1) fRTE_TBLt_CFG_KEYW 1
      z.hashOk 1 && !Mach.reset.hashOk 1 && decide (c.args.length = 64 ∧ c.arg 0 1 = 1 ∧ c.arg 1 1 = op.toNat ∧ c.arg 2 1 ≤ z.tblKeyw 1) &&
        decide (3 < (cmdB 0x30 [1, 4]).arg 1 1)) = true ∧
    (let c := cmdI 0x31 [1, 0, 0, 0, 16, 0, 0, 0, 0, 0, 0, 0, 0, 0, 0, 0, 16]
     let z := Mach.reset.wr (RTE_TBLt_CFG 1) fRTE_TBLt_CFG_KIND 2
     decide (c.arg 0 1 = 1 ∧ c.arg 4 4 % 16 = 0 ∧ c.arg 16 4 = 16 ∧ z.tblKind 1 = 2 ∧ 15 < (cmdI 0x31 [16]).arg 0 1)) = true ∧
    (let c := cmdI 0x40 [0, 1, 0, 0, 9]
     decide (c.arg 0 1 ≤ 2 ∧ c.arg 1 1 ≤ 47 ∧ c.arg 4 2 ≠ 0 ∧ 2 < (cmdI 0x40 [3]).arg 0 1) && (Mach.reset.getRadio 0).tx.isNone && !(Mach.reset.getRadio 0).relock &&
       ((Mach.reset.radioMod 0 fun r => { r with relock := true }).getRadio 0).relock) = true ∧
    (let c := cmdI 0x50 [248, 0, 0, 0, 16]
     decide (248 ≤ c.arg 0 1 ∧ c.arg 0 1 ≤ 250 ∧ c.arg 4 4 = 16 ∧ (cmdI 0x50 []).arg 0 1 < 248) && (Mach.reset.getChan 248).waiting.isEmpty &&
       decide ((Mach.reset.getChan 248).stored + (itemWords (slice 0 c.data 0 16)).length ≤ Mach.reset.chCap 248) &&
       ((Mach.reset.setChan 248 { Chan.zero with waiting := oneItem }).getChan 248).waiting != [] &&
       decide (c.beat + 4 ≤ (Mach.reset.timMod fun t => { t with beat := 4 }).beat ∧ Mach.reset.beat < c.beat + 4)) = true ∧
    (let z := Mach.reset.wr CHN_CFGSTAT fCHN_CFGSTAT_STAGING 0
     Mach.reset.staged && !z.staged && (z.reg CHN_CFGGEN).toNat != 5 &&
       decide (Mach.reset.beat + 2 ≤ 2 ∧ 1 < Mach.reset.beat + 2)) = true ∧
    (let z := Mach.reset.setReg CHN_PNJUMP 0xFFFFFFFF
     decide (getFld (z.plainRead WMAC_PNCTL) fWMAC_PNCTL_BLOCK * 1024 ≤ (z.reg CHN_PNJUMP).toNat)) = true := by decide +kernel

/-- An entry of a from-host ring: a whole frame of one buffer. -/
def fhEnt (len : Nat) : List Byte := bytesLE 8 0x1000 ++ bytesLE 2 len ++ [3, 0] ++ List.replicate 20 0

/-- A frame held for ring 128. -/
def aFrame : HFrame := ⟨128, none, [1, 2, 3], true, 0, 0, 0, 0⟩

/-- Ring 128 running, that frame held. -/
def frameM (f : Ring → Ring) : Mach := (ringM 128 fun m => m.hifMod fun h => { h with frames := [aFrame] }).ringMod 128 f

theorem witness_HostFramesMove :
    (!Mach.reset.hif.reading && !Mach.reset.hif.late && (Mach.reset.hifMod fun h => { h with reading := true, adopted := true }).hif.reading &&
      ((ringM 0 id).getRing 0).st == 1 && !({ (ringM 0 id).getRing 0 with db := 5 } : Ring).broken 0 && ({ (ringM 0 id).getRing 0 with db := 65 } : Ring).broken 0) = true ∧
    (let m := ringM 160 id
     m.ringOpen 160 && [fhEnt 64] != [] && decide ([fhEnt 64].length ≤ (m.getRing 160).waiting) && fhGood [fhEnt 64] && !fhGood [fhEnt 0] &&
       decide (max 1 ((m.headroom + fhTotal [fhEnt 64] + 255) / 256) ≤ m.cellsFree) && !Mach.reset.ringOpen 160) = true ∧
    ([(1, 1), (2, 2)].all fun e =>
      let src : List TWord := if e.1 = 1 then [mkWord tagPKT 0, mkWord tagDESC 0, mkWord tagTIME 5, nilWord] else [intWord 4, mkWord tagDESC 0, mkWord tagTIME 5, nilWord, 0, 0, 0, 0]
      let m := unitM 0x70 e.1 e.2 src
      (m.openAcc 0 0).any fun a => ptrClass a.far == 7 && ptrAddr a.far / 256 % 256 == 0x70 && ptrAddr a.far % 256 == e.1 && a.len == e.2 && !a.tagMode &&
        wTag (a.src.getD 1 0) == tagDESC && payN (a.src.getD 1 0) % 2 ^ 33 == 0 && decide (payN (a.src.getD 1 0) / 2 ^ 44 % 8 ≤ 4) &&
        wTag (a.src.getD 2 0) == tagTIME && wTag (a.src.getD 3 0) == tagNIL && m.hifRoom 4 &&
        (if e.1 = 1 then wTag (a.src.getD 0 0) == tagPKT else decide (2 ≤ a.len ∧ a.len ≤ 64) && isInt (a.src.getD 0 0) && payN (a.src.getD 0 0) == 4)) = true ∧
    (let m := frameM id
     m.ringOpen 128 && m.nextFrame 128 == some aFrame && decide (1 ≤ (m.getRing 128).waiting) && !m.held (ringKey 128) && bufFill 3 [(0, 4)] == some [(0, 3)] &&
       bufFill 3 [(0, 2)] == none && (m.getRing 128).hold.isNone && ((frameM fun r => { r with hold := some 0 }).getRing 128).hold == some 0 &&
       (Mach.reset.nextFrame 128).isNone) = true ∧
    ((Mach.reset.hifMod fun h => { h with pba := 2 }).hif.pba.getLsbD 1 && !Mach.reset.hif.pba.getLsbD 1) = true ∧
    (let m := Mach.reset.wr HIF_DIAG fHIF_DIAG_EN 1
     m.bit HIF_DIAG fHIF_DIAG_EN && !Mach.reset.bit HIF_DIAG fHIF_DIAG_EN && m.rd HIF_DIAG fHIF_DIAG_SPACE == 0 && m.rd HIF_DIAG fHIF_DIAG_BASE == 0 &&
       decide (16 < m.dramTop) && decide (classify (dramWord m.mem.dram 16) = .clean) &&
       decide (classify (dramWord (dramPut [] 16 (encodePoison 0)) 16) = .storedPoison) && (m.wr HIF_DIAG fHIF_DIAG_SPACE 2).rd HIF_DIAG fHIF_DIAG_SPACE == 2 &&
       !m.inTagged 16 && (m.wr ENG_TAGLEN fENG_TAGLEN_LEN 1).inTagged 16) = true := by decide +kernel

/-! ### Witnesses: the camp bus, the guy lines, the pair -/

/-- A camp frame for the unit of address `a`. -/
def campM (a : Nat) (f : ChnSt → ChnSt) : Mach := (withFlds [(CHN_STAT, fCHN_STAT_ADDR, a)]).chnMod f

/-- A camp frame from unit 2 to all. -/
def campF (type : Nat) (pay : List Byte) : List Byte := campFrame 31 2 type 0 pay

/-- A guy-line frame's words (R624). -/
def gWords (type seq ack arg : Nat) (pay : List Code) : List Code :=
  let body := encodeCode (BitVec.ofNat 128 (type * 2 ^ 124 + seq * 2 ^ 108 + ack * 2 ^ 96 + pay.length * 2 ^ 89 + arg)) :: pay
  body ++ [encodeCode (BitVec.ofNat 128 (match crcPoly 1 with
    | some p => crcOf p ((body.map fun x => datumBytes (codeData x)).flatten)
    | none => 0))]

/-- A paired unit in a role, its partner at address 2. -/
def pairM (role : Nat) (f : ChnSt → ChnSt) : Mach :=
  (withFlds [(CHN_STAT, fCHN_STAT_ADDR, 1), (CHN_STAT, fCHN_STAT_ROLE, role), (CHN_PAIRCFG, fCHN_PAIRCFG_PARTNER, 2), (CHN_PAIRCFG, fCHN_PAIRCFG_EN, 1)]).chnMod f

theorem witness_CampGuyAndPairCommandsAct :
    (campBad (List.replicate 64 0) && !campBad (campF 1 []) && (Mach.reset.campTake []).isNone && (tabGet none Mach.reset.chn.camp 0).isNone) = true ∧
    ([0, 14, 15, 16].all fun n => let m := campM 1 fun c => { c with camp := [(7, some ⟨[1], n, none⟩)] }
      tabGet none m.chn.camp 7 == some ⟨[1], n, none⟩ && (decide (n + 1 < 16) || decide (16 ≤ n + 1))) = true ∧
    (Mach.reset.campAddr == 0 && (campM 3 id).campAddr == 3 && ((campM 3 id).wr ARM_PLINTH fARM_PLINTH_RUN 1).bit ARM_PLINTH fARM_PLINTH_RUN && !(campM 3 id).isFatal &&
      (withFlds [(FLT_STAT, fFLT_STAT_FATAL, 1)]).isFatal) = true ∧
    ((withFlds [(CHN_PEGCTL, fCHN_PEGCTL_WANT, 16)]).rd CHN_PEGCTL fCHN_PEGCTL_WANT == 16 && (withFlds [(CHN_PEGCTL, fCHN_PEGCTL_WANT, 1)]).rd CHN_PEGCTL fCHN_PEGCTL_WANT == 1 &&
      !Mach.reset.chn.taken.contains 16 && Mach.reset.chn.cand.isNone && !Mach.reset.chn.enumIn && !Mach.reset.bit CHN_STAT fCHN_STAT_PEG_FAIL &&
      (campM 0 fun c => { c with cand := some 4 }).chn.cand == some 4 && !(campM 0 fun c => { c with cand := some 4 }).chn.forced) = true ∧
    ([1, 2, 3, 4, 5, 6, 7, 8, 9].all fun t => (campM 1 id).campTake (campF t [5]) == some (2, t, [5])) = true ∧
    (let pay : List Byte := bytesLE 8 7 ++ [1]
     (campM 1 id).campTake (campF 1 pay) == some (2, 1, pay) && numLE (slice 0 pay 8 1) == 1 && numLE (slice 0 pay 0 8) == 7 && (campM 1 id).uid != 7 &&
       (campM 0 fun c => { c with cand := some 1 }).chn.cand == some 1 && decide (7 < ((campM 0 fun c => { c with cand := some 1 }).setReg CHN_UID_LO 8).uid) &&
       decide ((campM 0 id).uid ≤ 7)) = true ∧
    (let pay : List Byte := bytesLE 4 0 ++ bytesLE 8 9 ++ bytesLE 4 0 ++ [0, 0, 0] ++ bytesLE 4 0
     let m := campM 1 id
     m.campTake (campF 3 pay) == some (2, 3, pay) && (m.reg CHN_CFGGEN).toNat == 0 && m.rd CHN_CFGSTAT fCHN_CFGSTAT_SEALGRP == 0 && m.reg64 CHN_SEAL_LO CHN_SEAL_HI != 9 &&
       !m.bit CHN_CFGSTAT fCHN_CFGSTAT_SEAL_PENDING && m.chn.announced.isNone && (m.setReg CHN_CFGGEN 5).reg CHN_CFGGEN != 0 &&
       (campM 2 id).campAddr == 2 && (m.wr CHN_CFGSTAT fCHN_CFGSTAT_SEALGRP 1).rd CHN_CFGSTAT fCHN_CFGSTAT_SEALGRP != 0) = true ∧
    (let m := campM 1 id
     m.staged && (m.reg CHN_STGGEN).toNat == 0 && decide (m.beat < 9) && !(m.wr CHN_CFGSTAT fCHN_CFGSTAT_STAGING 0).staged) = true ∧
    ([0, 1, 2, 3, 4, 5, 6].all fun r => let m := pairM r id; m.role == r && m.paired && m.rd CHN_PAIRCFG fCHN_PAIRCFG_PARTNER == 2 && m.campAddr == 1 && decide (m.campAddr < 2) &&
      m.rd CHN_PAIRCFG fCHN_PAIRCFG_PREFER == 0 && (m.wr CHN_PAIRCFG fCHN_PAIRCFG_PREFER 1).rd CHN_PAIRCFG fCHN_PAIRCFG_PREFER == 1 && !m.sys.fencePin && !m.chn.joined) = true ∧
    ([0, 1].all fun p => (withFlds [(CHN_GUYp_STAT p, fCHN_GUYp_STAT_UP, 1)]).bit (CHN_GUYp_STAT p) fCHN_GUYp_STAT_UP && !Mach.reset.bit (CHN_GUYp_STAT p) fCHN_GUYp_STAT_UP) = true ∧
    (([0, 1, 4, 5, 6, 7, 8, 9, 10].all fun t => guyFrameOf (gWords t 0 0 0 [encodeCode 5]) == some ⟨t, false, false, 0, 0, 0, [encodeCode 5]⟩) && (guyFrameOf []).isNone &&
      decide (((0 + 4096 - (Mach.reset.getGuy 0).rx) % 4096 = 0)) && decide (2048 ≤ (4095 + 4096 - (Mach.reset.getGuy 0).rx) % 4096) &&
      decide (0 < (1 + 4096 - (Mach.reset.getGuy 0).rx) % 4096 ∧ (1 + 4096 - (Mach.reset.getGuy 0).rx) % 4096 < 2048)) = true ∧
    (let g : GFrame := ⟨6, false, false, 0, []⟩
     let m := Mach.reset.guyMod 0 fun y => { y with unacked := [(0, g), (1, g)], fails := 15 }
     ((m.guyAck 0 0).getGuy 0).unacked == [(1, g)] && ((m.guyAck 0 0).getGuy 0).unacked.findIdx? (fun e => e.1 == 1) == some 0 && decide (16 ≤ (m.getGuy 0).fails + 1) &&
       (Mach.reset.getGuy 0).unacked.isEmpty) = true ∧
    ([(0, false), (6, true), (7, false), (12, false)].all fun (n, no) => let m := withFlds [(SYS_BOOTSTAT, fSYS_BOOTSTAT_STEP, n)]
      decide (m.rd SYS_BOOTSTAT fSYS_BOOTSTAT_STEP ≠ 0 ∧ m.rd SYS_BOOTSTAT fSYS_BOOTSTAT_STEP < 7) == no && m.campAddr == 0) = true ∧
    (let f := campFrame 31 0 1 0 (bytesLE 8 7 ++ [4])
     f.getD 2 0 == 1 && f.getD 14 0 == 4 && (campF 2 []).getD 2 0 != 1 &&
      (((campM 0 fun c => { c with cand := some 4, camp := [(7, some ⟨f, 1, some 0⟩)] }).elapse (0 - 0)).chn.cand == some 4)) = true ∧
    (let m := ((pairM 4 id).wr (CHN_GUYp_STAT 1) fCHN_GUYp_STAT_UP 1).wr (CHN_GUYp_STAT 1) fCHN_GUYp_STAT_PAIR 1
     m.role == 4 && !m.bit (TIM_GUYp_CTL 0) fTIM_GUYp_CTL_FOLLOW && !m.bit (TIM_GUYp_CTL 1) fTIM_GUYp_CTL_FOLLOW && m.pairPorts.head? == some 1) = true ∧
    (let tok := tokenOf none []
     let m := (List.range 3).foldl (fun m r => m.wr (RFx_CTL r) fRFx_CTL_MODE 2) (pairM 4 id)
     m.role == 4 && ([1, 2, 3].all fun r => m.tsfOn r) && decide (m.beat ≤ tok.beat) && decide (tok.beat < (m.timMod fun t => { t with beat := 1 }).beat)) = true := by
  decide +kernel

theorem witness_PairFenceAndTakeover :
    (([0, 1].all fun a => (withFlds [(CHN_PAIRCFG, fCHN_PAIRCFG_ALONE_OK, a)]).bit CHN_PAIRCFG fCHN_PAIRCFG_ALONE_OK == (a == 1)) &&
      (pairM 2 fun c => { c with window := some 0 }).inWindow && !(pairM 2 id).inWindow && (pairM 2 fun c => { c with window := some 0 }).chn.window == some 0 &&
      (pairM 4 fun c => { c with pulse := some 3 }).chn.pulse == some 3 && (pairM 4 id).chn.pulse.isNone && ((pairM 2 id).sysMod fun y => { y with fencePin := true }).sys.fencePin) = true ∧
    ([fCHN_PAIRCTL_FTEST, fCHN_PAIRCTL_SWITCH, fCHN_PAIRCTL_UNFENCE].all fun f => [fCHN_PAIRCTL_FTEST, fCHN_PAIRCTL_SWITCH, fCHN_PAIRCTL_UNFENCE].all fun g =>
      getFld (putFld 0 f 1) g == (if f == g then 1 else 0)) = true ∧
    (let m := pairM 2 fun c => { c with partner := 4, peerInelig := 0, gotStoken := true }
     m.role == 2 && m.chn.partner == 4 && m.chn.peerInelig == 0 && m.chn.gotStoken && (pairM 2 id).chn.partner != 4) = true ∧
    (let t : Token := ⟨0, 0, 0, false, 0, 0, 0, [0, 0, 0]⟩
     let m := ((((pairM 4 fun c => { c with token := some t, fenceBar := false, keysBar := false, tsfAt := [0, 0, 0] }).wr CHN_PAIRSTAT fCHN_PAIRSTAT_MISSING 15).wr ARM_STAT
       fARM_STAT_SHADOW_STATE 2).setReg CHN_PNJUMP 0xFFFFFFFF)
     let n := ((m.wr (CHN_GUYp_STAT 0) fCHN_GUYp_STAT_UP 1).wr (CHN_GUYp_STAT 0) fCHN_GUYp_STAT_PAIR 1).wr (TIM_GUYp_STAT 0) fTIM_GUYp_STAT_LOCKED 1
     n.inelig == 0 && n.role == 4 && n.chn.query.isNone && decide (n.tokMiss ≤ n.rd CHN_PAIRSTAT fCHN_PAIRSTAT_MISSING) && decide (m.tokMiss ≤ m.rd CHN_PAIRSTAT fCHN_PAIRSTAT_MISSING) && m.chn.query.isNone && (pairM 4 id).inelig != 0 && decide ((pairM 4 id).rd CHN_PAIRSTAT fCHN_PAIRSTAT_MISSING < (pairM 4 id).tokMiss) &&
       (pairM 4 fun c => { c with query := some 5 }).chn.query == some 5) = true ∧
    (let m := (pairM 5 id).armMod fun a => { a with change := 7, confirmed := false }
     m.role == 5 && m.arm.change == 7 && !m.arm.confirmed && ((pairM 5 id).armMod fun a => { a with confirmed := true }).arm.confirmed) = true ∧
    (decide ((0 : BitVec 32).toNat < (withFlds [(WMAC_PNCTL, fWMAC_PNCTL_BLOCK, 1)]).rd WMAC_PNCTL fWMAC_PNCTL_BLOCK * 1024) &&
      decide (Mach.reset.rd WMAC_PNCTL fWMAC_PNCTL_BLOCK * 1024 ≤ (0xFFFFFFFF : BitVec 32).toNat) && !Mach.reset.bit CHN_CFGSTAT fCHN_CFGSTAT_SEAL_PENDING &&
      (withFlds [(CHN_CFGSTAT, fCHN_CFGSTAT_SEAL_PENDING, 1)]).bit CHN_CFGSTAT fCHN_CFGSTAT_SEAL_PENDING) = true := by decide +kernel

/-! ### Witnesses: faults, power, start-up -/

/-- Power unit `u` of block `b` in a state. -/
def pwrM (b u : Nat) (p : PwrUnit) : Mach := Mach.reset.setPwr b u p

/-- A device whose non-volatile slot 1 holds a sealed checkpoint of number 7 and no sections. -/
def ckM : Mach :=
  let l := bytesLE 4 0x4B434A46 ++ bytesLE 4 0 ++ bytesLE 8 7 ++ List.replicate 176 0
  { Mach.reset with nvm := { Mach.reset.nvm with cells := (Mach.reset.nvmBytes (ckAddr 1) (codesOf (l ++ sealBlock l))).nvm.cells } }

theorem witness_CheckpointToRestore : ([false, true].all fun own => (Mach.ckNewest own [0, 1, 2, 3] ckM).2.any fun e => e.1 == 1 && e.2.1 == 7) = true := by decide +kernel

theorem witness_RestartsCheckpointsPowerAndStartProceed :
    (Mach.reset.flt.restarting.isEmpty && (Mach.reset.fltMod fun f => { f with restarting := [105] }).flt.restarting.contains (100 + 5) &&
      decide (max 1 (Mach.reset.rd FLT_CTL fFLT_CTL_STUCK_BEATS) ≤ 65535) && decide (0 < max 1 (Mach.reset.rd FLT_CTL fFLT_CTL_STUCK_BEATS))) = true ∧
    (let m := (withFlds [(FLT_CKCTL, fFLT_CKCTL_EN, 1)]).setBase 0 { Base.zero with s := 3600 }
     let d := m.ckBeat true
     d.bit FLT_CKCTL fFLT_CKCTL_EN && d.flt.ckDue && !m.flt.ckDue && ((m.setBase 0 { Base.zero with s := 60 }).ckBeat false).flt.ckDue &&
       !((m.setBase 0 { Base.zero with s := 3599 }).ckBeat true).flt.ckDue && (Mach.ckNewest false [0, 1, 2, 3] d.ckAbandon).2.isNone &&
       (Mach.ckNewest false [0, 1, 2, 3] m.ckAbandon).2.isNone && !Mach.reset.bit FLT_CKCTL fFLT_CKCTL_EN && Mach.reset.flt.ckpt.isNone) = true ∧
    (!Mach.reset.arm.ran && Mach.reset.role != 4 && (Mach.reset.fltMod fun f => { f with ckpt := some ⟨0, 1, [], []⟩ }).flt.ckpt.isSome &&
      (Mach.reset.armMod fun a => { a with ran := true }).arm.ran) = true ∧
    ([fPWRCTL_UNITS].all (fun f => [0, 15].all fun u => getFld (putFld 0 f (2 ^ u)) f == 2 ^ u) && getFld 0 fPWRCTL_CANCEL == 0 && getFld 0 fPWRCTL_GO == 0 &&
      decide (0 < pwrUnits blkENG ∧ 0 < pwrUnits blkUPL ∧ 0 < pwrUnits blkCHK ∧ 0 < pwrUnits blkCHN ∧ 0 < pwrUnits blkIDM) &&
      pwrUnits 22 == 0 && (pwrM blkCHK 0 PwrUnit.zero).pwrUnit blkCHK 0 == PwrUnit.zero) = true ∧
    (let t : Task := ⟨0, 1, 0, 1, 8, 0, 0, 1, 1, 0, 0, 0, 0, 0, 0, 0, 0⟩
     let m := active (armM fun a => { a with bank0 := { Bank.zero with tasks := [t] }, bank1 := { Bank.zero with tasks := [t] } })
     m.actValid && m.act.gives 0 && !m.act.gives 1) = true ∧
    (Mach.reset.rd (UPL_Pp_CFG 0) fUPL_Pp_CFG_MODE == 0 && (withFlds [(UPL_Pp_CFG 0, fUPL_Pp_CFG_MODE, 1)]).rd (UPL_Pp_CFG 0) fUPL_Pp_CFG_MODE != 0 &&
      !Mach.reset.bit (TIM_GUYp_CTL 1) fTIM_GUYp_CTL_EN && (withFlds [(TIM_GUYp_CTL 1, fTIM_GUYp_CTL_EN, 1)]).bit (TIM_GUYp_CTL 1) fTIM_GUYp_CTL_EN &&
      !Mach.reset.bit (CHN_GUYp_STAT 1) fCHN_GUYp_STAT_PAIR) = true ∧
    (let m := pwrM blkCHK 3 { PwrUnit.zero with want := some 2 }
     ((List.range (pwrUnits blkCHK)).filter fun i => (m.pwrUnit blkCHK i).want.isSome) == [3] && !m.unitBusy blkCHK 3 && (Mach.reset.pwrUnit blkCHK 3).want.isNone &&
       (m.wr (CHK_Cc_STAT 3) fCHK_Cc_STAT_STATUS 1).unitBusy blkCHK 3) = true ∧
    ([none, some 2, some 3].all fun g => [false, true].all fun w => [0, 2, 3].all fun k =>
      (pwrM blkENG 15 ⟨k, none, g, !w, w⟩).pwrUnit blkENG 15 == ⟨k, none, g, !w, w⟩) = true ∧
    ((withFlds [(PWRCTL blkENG, fPWRCTL_WAKEEN, 2)]).reg (PWRCTL blkENG) != 0 && (getFld ((withFlds [(PWRCTL blkENG, fPWRCTL_WAKEEN, 2)]).reg (PWRCTL blkENG)) fPWRCTL_WAKEEN).testBit 1 &&
      !(getFld ((withFlds [(PWRCTL blkENG, fPWRCTL_WAKEEN, 2)]).reg (PWRCTL blkENG)) fPWRCTL_WAKEEN).testBit 0 &&
      (withFlds [(SYS_DOMSTAT, fSYS_DOMSTAT_LANT_STATE, 3)]).rd SYS_DOMSTAT fSYS_DOMSTAT_LANT_STATE == 3 && Mach.reset.lkAhead.isNone &&
      (Mach.reset.mlinkMod fun y => { y with queue := [⟨5000, 0, 0, 0, 0⟩] }).lkAhead == some 5000) = true ∧
    ([false, true].all fun p => [false, true].all fun g => let m := Mach.reset.sysMod fun z => { z with porst := p, powerGood := g, ready := g }
      m.sys.porst == p && m.sys.powerGood == g && m.sys.ready == g) = true ∧
    ((withFlds [(SYS_STRAPS, fSYS_STRAPS_PCIE_EN, 1)]).bit SYS_STRAPS fSYS_STRAPS_PCIE_EN && !Mach.reset.bit SYS_STRAPS fSYS_STRAPS_PCIE_EN) = true ∧
    (let m (f : BitVec 8) (r : Nat) := (withFlds [(SYS_STRAPS, fSYS_STRAPS_AUTO_EN, 1), (SYS_BOOTSTAT, fSYS_BOOTSTAT_STEP, 10), (CHN_STAT, fCHN_STAT_ROLE, r), (SYS_BOOTCTL, fSYS_BOOTCTL_TB4_SITE, 1),
         (CHN_GUYp_STAT 1, fCHN_GUYp_STAT_UP, 1), (CHN_GUYp_STAT 1, fCHN_GUYp_STAT_PAIR, 1)]).sysMod fun z => { z with autoFlags := f }
     ([(1, 0), (5, 0), (3, 4)].all fun e => let x := m e.1 e.2
       x.bit SYS_STRAPS fSYS_STRAPS_AUTO_EN && x.sys.autoFlags.getLsbD 0 && decide (x.sys.auto ≤ 1) && !x.actValid && x.bootStep == 10 && x.role != 1 &&
         !x.bit MEM_STAT fMEM_STAT_TRAIN_FAIL && x.role == e.2 && x.pairPorts == [1]) && !(m 1 0).sys.autoFlags.getLsbD 2 && (m 5 0).sys.autoFlags.getLsbD 2 &&
       (m 5 0).bit SYS_BOOTCTL fSYS_BOOTCTL_TB4_SITE && (m 3 4).sys.autoFlags.getLsbD 1 && !(m 5 0).bit ARM_PLINTH fARM_PLINTH_RUN && Mach.reset.bootStep != 10) = true ∧
    (autoM.sys.auto == 1 && autoM.autoHolds && !Mach.reset.autoHolds && Mach.reset.sys.auto != 1 && !Mach.reset.mrad.copyOk) = true ∧
    (let l (t : BitVec 16) : List (BitVec 16) := [t] ++ List.replicate 11 0
     (l 560).length = 12 ∧ (hottest 0 ((l 560).map BitVec.toInt)).2 = 560 ∧ (hottest 0 ((l 580).map BitVec.toInt)).2 = 580 ∧ (hottest 0 ((l 539).map BitVec.toInt)).2 < 540 ∧
       caseLimit (Mach.reset.rd ARM_STAT fARM_STAT_ACT_PROFILE) < 580 - (Mach.reset.rd SYS_THCTL fSYS_THCTL_JC_DROP : Nat) ∧ Mach.reset.sys.caseOver = false ∧ Mach.reset.sys.therm = false ∧
       (Mach.reset.sysMod fun z => { z with caseOver := true }).sys.caseOver = true) := by decide +kernel

/-! ### More witnesses, for the clauses that rest on finer state -/

theorem witness_FarAccessesEndByClass :
    ([1, 2, 4, 5].all fun c => let m := accM (accOf false (mkPtr c 0) []); (m.getTe 0).acc 0 == some (accOf false (mkPtr c 0) []) && ptrClass (mkPtr c 0) == c) = true ∧
    ([1, 2, 5].all fun c => let m := (accM (accOf true (mkPtr c 0) [intWord 1])).wr ENG_TAGLEN fENG_TAGLEN_LEN 1; m.farFits (mkPtr c 0) 1) = true ∧
    ([false, true].all fun put => let a := { accOf put (mkPtr 6 7) [] with done := true }
      ((accM a).getTe 0).acc 0 == some a && a.done && ptrClass a.far == 6) = true ∧
    (let m := unitM 0x51 7 1 []
     (m.openAcc 0 0).any (fun a => ptrClass a.far == 7 && !a.done && ptrAddr a.far / 256 % 256 == 0x51) && !unitListed 0x51 7) = true := by decide +kernel

theorem witness_ChannelPutsStoreAndControl :
    (let a := accOf true (mkPtr 6 (7 + 1024 + 2048)) [intWord 1]
     let m := chanM 7 (accM a)
     m.qchAcc 0 0 true 0 == some a && ptrAddr a.far % 256 == 7 && !m.chRefuses 0 7 true && a.src != [] && (m.getChan 7).waiting.isEmpty && !(m.getChan 7).voiding &&
       !(m.getChan 7).dropping && decide ((m.getChan 7).stored + (sideWords true true 16 0 true 0 true (rawCodes 2 a.src)).length ≤ m.chCap 7)) = true ∧
    ([2, 3].all fun k => let a := accOf true (mkPtr 6 (512 + 7)) [intWord k]
      let m := chanM 7 (accM a)
      m.ctrlAcc 0 0 == some a && ptrAddr a.far % 256 == 7 && m.chOn 7 && m.chProd 7 == 0 && payN (a.src.getD 0 0) % 4 == k) = true ∧
    (Mach.reset.staged && getFld (Mach.reset.plainRead (FQ_CHn_CFG 7)) fFQ_CHn_CFG_ENABLE == 0 && Mach.reset.chRangeBad 7) = true := by decide +kernel

/-- A packet on its way out of a node. -/
def onPole (h : Code) (node out : Nat) : RpPkt := ⟨0, h, node, .row out, 0, hdrClass h, hdrSource h, hdrDest h, true⟩

/-- The ridge pole with that packet. -/
def poleM (h : Code) (node out : Nat) : Mach := Mach.reset.sysMod fun x => { x with flight := [onPole h node out] }

theorem witness_PacketsFollowOneAnother :
    (let h := header 1 0 0
     (Mach.reset.rpComing 0 h).isNone && Mach.reset.sys.flight.isEmpty && Mach.reset.rpOrder.contains (hdrClass h) &&
       (poleM h 0 1).rpComing 1 h == some (onPole h 0 1) && ((poleM h 0 1).sys.flight.filter fun x => x.node == 0 && x.out == hdrHop 0 h).any (·.going) &&
       oldestOf (hdrSource h) (hdrClass h) (hdrDest h) (poleM h 0 1).sys.flight == some (onPole h 0 1) &&
       (oldestOf (hdrSource h) (hdrClass h) (hdrDest h) Mach.reset.sys.flight).isNone && decide (classify (onPole h 0 1).hdr = .clean)) = true ∧
    (∀ k, (Mach.reset.getTe k).inFault = false) := by
  refine ⟨by decide +kernel, fun _ => rfl⟩

/-- The reset device in Hold, or with an overrun that `dep` names. -/
def heldM (sl : Slot) (hold : Nat) (over_ : List (Nat × Nat)) : Mach :=
  ((slotM sl).wr ARM_STAT fARM_STAT_HOLD hold).armMod fun a => { a with overran := over_ }

theorem witness_SlotsAreBarredInTurn :
    ([1, 5].all fun kind => let sl : Slot := { aSlot kind 2 with dep := 0x8000 }
      (heldM sl 0 [(0, 0)]).depOverrun sl && !(heldM sl 1 []).depOverrun sl && (heldM sl 1 []).inHold && !(heldM sl 0 []).inHold && (heldM sl 0 []).flt.restarting.isEmpty &&
        !(heldM sl 0 []).radioOff 1 && ((heldM sl 0 []).radioMod 1 fun r => { r with mode := 0 }).radioOff 1 && ((heldM sl 0 []).getRadio 1).cal.isNone &&
        !(heldM sl 0 []).txForced && ((heldM sl 0 []).sysMod fun z => { z with fencePin := true }).txForced && (heldM sl 0 []).profile != 3 &&
        ((heldM sl 0 []).wr ARM_STAT fARM_STAT_ACT_PROFILE 3).profile == 3) = true := by decide +kernel

theorem witness_CalibrationPairsWaitAndSkip :
    (let m := (Mach.reset.radioMod 1 fun r => { r with calWait := some ⟨7, 0, 1⟩, tx := some aTx, txOn := true }).radioMod 2 fun r => { r with calWait := some ⟨7, 0, 1⟩ }
     (m.getRadio 1).calWait == some ⟨7, 0, 1⟩ && (m.getRadio 2).calWait == some ⟨7, 0, 1⟩ && m.radioBusy 1) = true ∧
    ([false, true].all fun busy =>
      let m := Mach.reset.radioMod 1 fun r => { r with calWait := some ⟨2, 0, 1⟩, tx := if busy then some aTx else none, txOn := busy }
      (m.getRadio 1).calWait == some ⟨2, 0, 1⟩ && m.radioBusy 1 == busy) = true := by decide +kernel

theorem witness_DecoderBudgetHoldsOrNot :
    ([some 0, none].all fun k => (rxM { Rx.zero with state := 2, budget := k }).overBudget 1 8 == k.isSome && ((rxM { Rx.zero with state := 2, budget := k }).getBb 1).rx.state == 2) = true := by
  decide +kernel

theorem witness_PoisonAndClosedChannelsAreRefused :
    (wTag (mkWord tagPOISON 0) == tagPOISON && wTag (intWord 1) != tagPOISON) = true ∧
    ([0, 1].all fun e => let m := (lit.wr (FQ_CHn_CFG 252) fFQ_CHn_CFG_ENABLE e).mlinkMod fun l => { l with ports := [(0xF340, 252)] }
      m.chOn 252 == (e == 1) && tabGet 0 m.mlink.ports 0xF340 == BitVec.ofNat 8 252) = true ∧
    ([portUPL, portHIF].all fun p => ((Mach.reset.wr (FQ_CHn_CFG 0) fFQ_CHn_CFG_ENABLE 1).wr (FQ_CHn_CFG 0) fFQ_CHn_CFG_PROD p).chTakes p 0 && !Mach.reset.chTakes p 0) = true ∧
    (let m := lcWith (fun l => { l with st := 2, fl := 64 }) 0 0 0 []
     m.m.lc.st / 2 != 0 && m.m.lc.fl.getLsbD 6 && m.m.lc.pend.isEmpty && m.m.lc.btc == 0 && m.m.lc.irq == 0 && m.m.lanternOn && Mach.reset.lc.st / 2 == 0) = true ∧
    ([0, 7].all fun bw => let c := cmdI 0x40 [0, 1, 0, 0, 9, 0, 1, 0, 0, 0, 0, 0, 0, 0, 0, 0, 0, 0, 0, bw]
      decide (c.arg 0 1 ≤ 2 ∧ c.arg 1 1 ≤ 47 ∧ c.arg 4 2 ≠ 0) && Mach.reset.immOk c == (bw == 0)) = true := by decide +kernel

/-! ### Ill-formed commands are refused -/

theorem test_ill_formed_commands_refused : ([
    .registerWrite 2 0 true, .registerWrite 0x180000 0 true, .bridgeAccess true 0x10000 0, .bridgeAccess false 0x2100C 0, .bridgeAccess false 2 0, .ridgeHeaderRoute 24 0, .packetArrive 24 0,
    .beatStart (List.replicate 17 0) [] (List.replicate 6144 0) [], .beatStart [] [19] (List.replicate 6144 0) [], .beatStart [] [] [] [],
    .rep .lc 65536, .lcInterrupt 8, .qitemReceive 64 0 0 [], .qitemReceive 0 0 0 (List.replicate 67 0), .flush (.inl 256), .ppduTxEnd 0 [(16, 0)] [],
    .idRecordRead 0 true (List.replicate 2049 0), .codewordDone 0 0 0 false (List.replicate 257 ⟨0, 0, 0, 0, 0, 0, 0, 0, 0, 0, 0, [(0, 0)]⟩) [],
    .rxTruncate 0 [⟨0, 0, 0, 0, 0, 0, 0, 0, 0, 0, 0, []⟩] [], .signalFields 0 true false false false ⟨0, 0, [⟨0, 0, 0, 0, 0, 0, 0, 0, 0, 0, 0, [(16, 0)]⟩]⟩,
    .slotStart 0 { aPlan with content := .ndpa [2048] }, .responseSend 0 { aPlan with users := [⟨some 2048, 0, 0, 0, 0, false, false, false⟩] }, .slotStart 0 { aPlan with steer := [2048] }, .backoffCount 0 4 0 none, .mpduReceive 0 ⟨2048, 0, 0, 0, none, true, [], none, none, none⟩,
    .mpduReceive 0 ⟨0, 17, 0, 0, none, true, [], none, none, none⟩, .blockackReceive 0 0 8 [], .blockackReceive 0 0 0 [4096], .reorderTimeout 0 8,
    .meshSyncAccept 0 33, .resyncBurst 65536, .floodRelay 0 65536, .mboxBadItem 247, .mboxBadItem 251, .ethRxFrame 0 (List.replicate 16385 0) true 0,
    .dramRequest 8 false [] 1, .dramRequest 0 true [] 1, .scrubRead 2 16 0 false, .doorbellReadDone [] (List.replicate 6144 0), .nopCmd 0 [] none [],
    .indirectReadDone 0 (some (List.replicate 4097 0)), .hostFrameTake 159 [] [], .hostFrameTake 160 [[]] [], .ringFrameWrite 160 [], .ringwaitExpiry 127 [],
    .diagRead 2, .campBadFrame (List.replicate 513 0), .guyAckReceive 0 (List.replicate 67 0), .pairQueryRepeat 0, .tempSample [] [],
    .spillCopyDone 65536].all fun i : Instr => !i.wf) = true := by decide +kernel

theorem test_well_formed_commands_taken : ([
    .registerWrite 0x17FFFC 0 true, .bridgeAccess true 0xFFFC 0, .bridgeAccess false 0x21008 0, .rep .lc 65535, .lcInterrupt 7, .qitemReceive 63 255 0 (List.replicate 66 0), .flush (.inl 255),
    .mboxBadItem 250, .dramRequest 16 true [0] 1, .nopCmd 0 (List.replicate 32 0) none [], .hostFrameTake 160 [List.replicate 32 0] [], .pairQueryRepeat 1].all
    fun i : Instr => i.wf) = true := by decide +kernel

/-! ### Words and values of the spec's own tables and examples -/

/-- The worked example of 04_engine_instructions.md: its eight words. -/
theorem test_worked_example_words :
    [encWide 3 512, encFar 0x14 3 6 3 2 true, encWide 4 4, encReg 0x16 0 4 0 0, encReg 0x17 5 0 2 0, encBranch 2 15, encImm 0x10 7 3 0, encImm 0x10 8 3 1] =
    [0x34600200, 0x50660C50, 0x34800004, 0x58040000, 0x5CA01000, 0x8080000F, 0x40E30000, 0x41030001] := by decide

/-- The next state, where there is one. -/
def after (o : Host.Outcome State Fault Refusal) : Option State :=
  match o with
  | .next s => some s
  | .fault _ => none
  | .refused _ => none

/-- The commands of that example issue the words of that example, each from an engine that holds it. -/
theorem test_worked_example_issues :
    ((after (execMovi (.te 0) 3 512 (eng 0x34600200))).any (fun s => (s.m.getTe 0).pend == [⟨1, 0, .reg 3, intWord 512⟩])) = true ∧
    ((after (execEstat (.te 0) 5 2 (eng 0x5CA01000))).any (fun s => (s.m.getTe 0).ctx.pc == 1)) = true := by decide +kernel

/-- The check values over "123456789" (R59, R537). -/
theorem test_crc_check_values :
    ([0, 1, 2, 3, 4].map fun k => (crcPoly k).map fun p => crcOf p [0x31, 0x32, 0x33, 0x34, 0x35, 0x36, 0x37, 0x38, 0x39]) =
      [some 0xCBF43926, some 0xE3069283, some 0x29B1, some 0xF4, some 0x6C40DF5F0B497347] ∧
    (crcPoly 5).isNone = true ∧ (crcPoly 7).isNone = true := by decide +kernel

/-- A range split in two gives the CRC of the whole (R538). -/
theorem test_crc_chains : ([0, 1, 2, 3, 4].all fun k => (crcPoly k).any fun p => crcChain p (crcOf p [1, 2]) [3, 4] == crcOf p [1, 2, 3, 4]) = true := by
  decide +kernel

/-- The syndrome of stored poison (R504). -/
theorem test_stored_poison : classify (encodePoison 7) = .storedPoison ∧ classify (encodeCode 7) = .clean ∧
    classify (addSym (encodeCode 7) 16 0x5A) = .corrected (encodeCode 7) := by decide +kernel

/-- SHA-384 of "abc" (FIPS 180-4's example), and three values of AES's SubBytes (FIPS 197). -/
theorem test_digest_and_cipher_values :
    sha384 [0x61, 0x62, 0x63] = (bytesLE 48 0xcb00753f45a35e8bb5a03d699ac65007272c32ab0eded1631a8b605a43ff5bed8086072ba1e7cc2358baeca134c825a7).reverse ∧
    [0x00, 0x53, 0xFF].map aesSub = [0x63, 0xED, 0x16] := by decide +kernel

/-- A mesh header is one block of 64 coded bits, and out[1] of the interleaver is in[8] (R387, R388). -/
theorem test_mesh_header_block :
    (convPart (bitsMsb (phyHeader 5))).length = 64 ∧ (interleave ((List.range 64).map fun i => i == 8)).getD 1 false = true := by decide +kernel

/-- The secondary 40 MHz of an 80 MHz channel is busy: another format narrows to 40 MHz, an EHT MU PPDU punctures it (R305). -/
theorem test_busy_subchannels_narrow_or_puncture : (ppduShape 1 0 4 2 0 0xC).1 = 1 ∧ ppduShape 1 0 8 2 0 0xC = (2, 0xFFFC) := by decide +kernel

/-- No word spells a command: the table gives no bits. -/
theorem test_no_table_word : decodeTableWord 32 0x34600200 = none ∧ State.reset.withFetchWord 32 0x34600200 = State.reset := by decide +kernel

/-- The front command runs; an empty queue lets one step of 2.5 ns pass (log 2). -/
theorem test_step_takes_the_front :
    (after (step { State.reset with pending := [.d0Return, .tickEvent] })).map (·.pending) = some [Instr.tickEvent] ∧
    (after (step State.reset)).map (fun s => ((s.m.getBase 0).ns, (s.m.getBase 0).frac)) = some (2, 0x80000000) := by decide +kernel

/-- The phase term of FOLLOW for an offset of 60 ns at a beat period of 256 µs (R567): 960 · 2^32 / (16 · 409,600) rounds to 629,146. -/
theorem test_follow_phase_term : roundDiv (960 * 2 ^ 32) (16 * 409600) = 629146 := by decide +kernel

/-- The worked example after R520: sixteen banks of the channel owe nothing, bank 9 owes 4 at 0.75 of its interval. -/
theorem test_doubled_refresh_forces_bank :
    let m := ((Mach.reset.elapse 4000).dbankMod 2 9 fun b => { b with debt := 4, since := 40000 - 23424 }).recount 2 1 2
    (m.dbank 2 9).debt = 10 ∧ (m.dbank 2 9).forced = true ∧ (m.refreshDone 2 9).quarters = 40000 + 560 := by decide +kernel

/-- A debt of 4.75 intervals becomes 10 from 1× to 2×, and 3 from 2× to 1× (R517). -/
theorem test_debt_rounds_up : debtRecount 4 23424 31232 1 2 = 10 ∧ debtRecount 4 23424 31232 2 1 = 3 := by decide +kernel

/-! ### Witnesses: clauses at their edges -/

/-- An identity record whose GAIN_TX covers radio M. -/
def aRecord : List Byte := List.replicate 6 0 ++ [10, 0] ++ List.replicate 8 0 ++ [4, 8, 0x60, 0x13, 0, 0, 0x90, 0x15, 0, 0]

/-- The machine with a regulatory record, a valid chain of radio 1 and its identity record. -/
def sendM (m : Mach) : Mach :=
  ((((m.setReg (NVM_REGRECj 0) 0x47524A46).setReg (NVM_REGRECj 1) 1).setReg (NVM_REGRECj 3) 0xFF).setReg (RFx_TXVALID 1) 1).busMod 1 fun b =>
    { b with recs := [(0, aRecord)] }

/-- A plan that the MAC forms a PPDU from. -/
def sendPlan : TxPlan := { aPlan with chains := 1, format := 2 }

/-- `SlotsResponsesAndContentionProceed` where the MAC sends: an owed response that nothing refuses, a slot that OBSS_CUT lets start at its latest
instant, and a CONT slot that the exchange fits or does not; `HostCommandsRunAndFramesMove` where TX_IMM meets no refusal. -/
theorem witness_TransmitsThatNothingRefuses :
    (let m := sendM (seqM (fun q => { q with owe := true }) (aSlot 4 0))
     let p := m.sqMod 1 fun q => { q with owe := false }
     (m.getSq 1).owe && !m.isStandby && ((p.planForm 1 2 0 sendPlan.bits sendPlan []).any fun t => (p.txRefusal 1 t).isNone) &&
       (p.planForm 1 2 0 aPlan.bits aPlan []).isNone) = true ∧
    (let r := anOpen 1 false
     let m := ((seqM (fun q => { q with slot := some r }) (aSlot 1 0)).wr WMAC_CTL fWMAC_CTL_OBSS_CUT 1).setRx 1
       { Rx.zero with state := 3, foreign := true, endAt := 1000000000 }
     let z := m.reachFine (r.beat * m.beatNs + (r.slot.start + r.slot.latest) * m.beatNs / 256)
     (m.getSq 1).slot == some r && r.waiting && z.bit WMAC_CTL fWMAC_CTL_OBSS_CUT && (z.getBb 1).rx.state == 3 && (z.getBb 1).rx.foreign &&
       decide (z.tb5 < (z.getBb 1).rx.endAt) && !z.nstrWaits 1 sendPlan) = true ∧
    (let m := seqM (fun q => { q with slot := some (anOpen 4 false), backoff := [(0, some 1)] }) (aSlot 4 0)
     !(m.getSq 1).parked.contains 0 && m.slotFits (anOpen 4 false) sendPlan && !m.slotFits (anOpen 4 false) { sendPlan with whole := 10 ^ 9 }) = true ∧
    ([false, true].all fun lost =>
      let m := sendM (slotM (aSlot 1 0) |>.radioMod 1 fun r => { r with relock := lost })
      (m.txRefusal 1 { aTx with kind := 1 }).isNone && (m.getRadio 1).relock == lost) = true := by decide +kernel

/-- `MeshRadioSendsAndReceives`, `MeshCalibrationDutyAndWake` and `MeshSuperframesSlotsAndFramesAct`: a transmit held with and without LOCK, a calibration from
a state above Sleep, a CAL slot in either mode. -/
theorem witness_MeshClausesAtTheirEdges :
    ([0, 1].all fun k =>
      let m := (meshM 2 fun r => { r with tx := some aMeshTx }).wr MSH_MSTAT fMSH_MSTAT_LOCK k
      m.mrad.tx == some aMeshTx && !m.mrad.txOn && m.bit MSH_MSTAT fMSH_MSTAT_LOCK == (k == 1)) = true ∧
    ([2, 3].all fun st =>
      let m := meshM st id
      m.rd SYS_DOMSTAT fSYS_DOMSTAT_LANT_STATE != 0 && m.mrad.tx.isNone && decide (m.mrad.rx.phase < 2) && m.mrad.moving.isNone &&
        decide (2 ≤ m.mradState) && m.mradState != 5) = true ∧
    ([0, 2].all fun k =>
      let m := (linkM 6 5 id).wr MSH_MCTL fMSH_MCTL_MODE k
      let a := m.reachLantern (m.slotInstant 0)
      a.entryAt a.mlink.sfn 0 == some 0 && a.rd MSH_MCTL fMSH_MCTL_MODE == k) = true := by decide +kernel

/-- `UplinkPortsSendReceiveAndPause`: a pause past its watchdog and one ignored. -/
theorem witness_PauseClausesAtTheirEdges :
    (let m := ((portM fun t => { t with paused := [(7, (0, 1000000))] }).setReg (UPL_Pp_STAT 0) 0x00008000).wr (UPL_Pp_PWDOG 0) fUPL_Pp_PWDOG_PAUSE_MAX 1
     let pause := tabGet (0, 0) (m.getPort 0).paused 7
     let dog := m.rd (UPL_Pp_PWDOG 0) fUPL_Pp_PWDOG_PAUSE_MAX
     (m.reg (UPL_Pp_STAT 0)).getLsbD 15 && dog != 0 && decide (pause.1 + 1000000 * dog ≤ pause.2)) = true ∧
    (let m := ((portM id).wr (UPL_Pp_FC 0) fUPL_Pp_FC_RX_HONOUR 1).setReg (UPL_Pp_STAT 0) 0x00800000
     m.bit (UPL_Pp_FC 0) fUPL_Pp_FC_RX_HONOUR && (m.reg (UPL_Pp_STAT 0)).getLsbD 23 && !(m.reg (UPL_Pp_STAT 0)).getLsbD 15) = true := by decide +kernel

end Sys2Proof.Tests
end

section
/-! SUPPORT. The landing of pending writes (R93, R95): the order in which what is due lands, said once for a TE and for LC, and what the
landing of one write changes and leaves. Then `DueResultsLandInOrder`. -/

namespace Sys2Proof.Machine

open Sys2Proof

/-! ### The order of landing -/

/-- What lands in slots `s` to `s + k - 1`, in the order in which it lands: slot by slot, within a slot in issue order (R95). -/
def landOrder (s : Nat) : Nat → List Pend → List Pend
  | 0, _ => []
  | k + 1, l => l.filter (fun p => p.slot == s) ++ landOrder (s + 1) k (l.filter fun p => p.slot != s)

/-- What lands when everything due by `slot` lands. -/
def dueOrder (slot : Nat) (l : List Pend) : List Pend := landOrder (firstSlot slot l) (slot + 1 - firstSlot slot l) l

/-- Of the writes of a list to its own target, `e` is the last. -/
def Pend.LastIn (e : Pend) (l : List Pend) : Prop := ∃ pre post, l = pre ++ e :: post ∧ ∀ o ∈ post, o.tgt ≠ e.tgt

theorem firstSlot_le (d : Nat) (l : List Pend) : firstSlot d l ≤ d := by
  induction l with
  | nil => exact le_rfl
  | cons p r ih => exact (Nat.min_le_right _ _).trans ih

theorem firstSlot_le_of_mem {d : Nat} {l : List Pend} {p : Pend} (h : p ∈ l) : firstSlot d l ≤ p.slot := by
  induction l with
  | nil => cases h
  | cons q r ih =>
    cases h with
    | head => exact Nat.min_le_left _ _
    | tail _ h => exact (Nat.min_le_right _ _).trans (ih h)

/-- What lands was pending, and was due in the slots in question. -/
theorem mem_landOrder {k s : Nat} {l : List Pend} {p : Pend} (h : p ∈ landOrder s k l) : p ∈ l ∧ s ≤ p.slot ∧ p.slot < s + k := by
  induction k generalizing s l with
  | zero => cases h
  | succ k ih =>
    rcases List.mem_append.mp h with h | h
    · obtain ⟨hm, hs⟩ := List.mem_filter.mp h
      have := eq_of_beq hs
      exact ⟨hm, by omega, by omega⟩
    · obtain ⟨hm, hs, hk⟩ := ih h
      exact ⟨(List.mem_filter.mp hm).1, by omega, by omega⟩

theorem mem_dueOrder {slot : Nat} {l : List Pend} {p : Pend} (h : p ∈ dueOrder slot l) : p ∈ l ∧ p.slot ≤ slot := by
  obtain ⟨hm, _, hk⟩ := mem_landOrder h
  have := firstSlot_le slot l
  exact ⟨hm, by omega⟩

/-- A write whose slot no earlier issue to its target exceeds and no later issue reaches lands last on its target. -/
theorem Pend.lastIn_landOrder {e : Pend} {before behind : List Pend} {k s : Nat} (hs : s ≤ e.slot) (hk : e.slot < s + k)
    (hb : ∀ o ∈ before, o.tgt = e.tgt → o.slot < s + k → o.slot ≤ e.slot)
    (ha : ∀ o ∈ behind, o.tgt = e.tgt → o.slot < s + k → o.slot < e.slot) :
    e.LastIn (landOrder s k (before ++ e :: behind)) := by
  induction k generalizing s before behind with
  | zero => omega
  | succ k ih =>
    by_cases he : e.slot = s
    · refine ⟨before.filter fun p => p.slot == s, behind.filter (fun p => p.slot == s) ++
        landOrder (s + 1) k ((before ++ e :: behind).filter fun p => p.slot != s), by simp [landOrder, he], fun o ho ht => ?_⟩
      rcases List.mem_append.mp ho with ho | ho
      · obtain ⟨hm, hs'⟩ := List.mem_filter.mp ho
        have := eq_of_beq hs'
        have := ha o hm ht (by omega)
        omega
      · obtain ⟨hm, hlo, hhi⟩ := mem_landOrder ho
        rcases List.mem_append.mp (List.mem_filter.mp hm).1 with hm | hm
        · have := hb o hm ht (by omega)
          omega
        · rcases List.mem_cons.mp hm with rfl | hm
          · omega
          · have := ha o hm ht (by omega)
            omega
    · have hrest : (before ++ e :: behind).filter (fun p => p.slot != s) =
          before.filter (fun p => p.slot != s) ++ e :: behind.filter (fun p => p.slot != s) := by simp [he]
      obtain ⟨pre, post, heq, hpost⟩ := ih (s := s + 1) (before := before.filter fun p => p.slot != s)
        (behind := behind.filter fun p => p.slot != s) (by omega) (by omega)
        (fun o ho ht hl => hb o (List.mem_filter.mp ho).1 ht (by omega))
        (fun o ho ht hl => ha o (List.mem_filter.mp ho).1 ht (by omega))
      exact ⟨(before ++ e :: behind).filter (fun p => p.slot == s) ++ pre, post, by rw [landOrder, hrest, heq, List.append_assoc], hpost⟩

theorem Pend.lastIn_dueOrder {e : Pend} {before behind : List Pend} {slot : Nat} (hd : e.slot ≤ slot)
    (hb : ∀ o ∈ before, o.tgt = e.tgt → o.slot ≤ slot → o.slot ≤ e.slot)
    (ha : ∀ o ∈ behind, o.tgt = e.tgt → o.slot ≤ slot → o.slot < e.slot) : e.LastIn (dueOrder slot (before ++ e :: behind)) := by
  have hlo := firstSlot_le_of_mem (d := slot) (List.mem_append_right before (List.mem_cons_self (a := e) (l := behind)))
  exact Pend.lastIn_landOrder hlo (by omega) (fun o ho ht hl => hb o ho ht (by omega)) fun o ho ht hl => ha o ho ht (by omega)

/-- Nothing due: nothing lands. -/
theorem dueOrder_eq_nil {slot : Nat} {l : List Pend} (h : ∀ p ∈ l, slot < p.slot) : dueOrder slot l = [] := by
  refine List.eq_nil_iff_forall_not_mem.mpr fun p hp => ?_
  obtain ⟨hm, hs⟩ := mem_dueOrder hp
  have := h p hm
  omega

theorem landOrder_nil (k s : Nat) : landOrder s k [] = [] := by
  induction k generalizing s with
  | zero => rfl
  | succ k ih => exact ih (s + 1)

theorem landOrder_singleton {k s : Nat} {p : Pend} (hs : s ≤ p.slot) (hk : p.slot < s + k) : landOrder s k [p] = [p] := by
  induction k generalizing s with
  | zero => omega
  | succ k ih =>
    by_cases h : p.slot = s
    · simp [landOrder, h, landOrder_nil]
    · simpa [landOrder, h] using ih (by omega) (by omega)

theorem dueOrder_singleton {slot : Nat} {p : Pend} (h : p.slot ≤ slot) : dueOrder slot [p] = [p] := by
  have := firstSlot_le_of_mem (d := slot) (List.mem_singleton_self p)
  exact landOrder_singleton this (by omega)

/-- No slots: all that is pending stays pending. -/
theorem filter_slot_zero (l : List Pend) (s : Nat) :
    l.filter (fun p => !(decide (s ≤ p.slot) && decide (p.slot < s + 0))) = l := by
  refine List.filter_eq_self.mpr fun p _ => ?_
  simp
  omega

/-- Leaving what is due in slot `s`, then what is due in the `k` slots after it, leaves what is due in none of the `k + 1` slots. -/
theorem filter_slot_succ (l : List Pend) (s k : Nat) :
    (l.filter fun p => p.slot != s).filter (fun p => !(decide (s + 1 ≤ p.slot) && decide (p.slot < s + 1 + k))) =
      l.filter fun p => !(decide (s ≤ p.slot) && decide (p.slot < s + (k + 1))) := by
  rw [List.filter_filter]
  refine List.filter_congr fun p _ => ?_
  rw [Bool.eq_iff_iff]
  simp
  omega

/-- From the first slot on, what does not land by `slot` is what is due later. -/
theorem filter_not_due (slot : Nat) (l : List Pend) :
    l.filter (fun p => !(decide (firstSlot slot l ≤ p.slot) && decide (p.slot < firstSlot slot l + (slot + 1 - firstSlot slot l)))) =
      l.filter fun p => decide (slot < p.slot) := by
  refine List.filter_congr fun p hp => ?_
  have h1 := firstSlot_le slot l
  have h2 := firstSlot_le_of_mem (d := slot) hp
  rw [Bool.eq_iff_iff]
  simp
  omega

/-! ### Landing a list, for any state -/

section
variable {σ α : Type} {land : σ → Pend → σ} {read : σ → α}

/-- What no write of a list changes stands after the list. -/
theorem foldl_land_keeps {l : List Pend} (h : ∀ o ∈ l, ∀ t, read (land t o) = read t) (t : σ) : read (l.foldl land t) = read t := by
  induction l generalizing t with
  | nil => rfl
  | cons p r ih => exact (ih (fun o ho => h o (List.mem_cons_of_mem p ho)) (land t p)).trans (h p List.mem_cons_self t)

/-- What the last write to a target wrote stands after the list. -/
theorem foldl_land_last {l : List Pend} {e : Pend} {v : α} (hl : e.LastIn l) (he : ∀ t, read (land t e) = v)
    (ho : ∀ o, o.tgt ≠ e.tgt → ∀ t, read (land t o) = read t) (t : σ) : read (l.foldl land t) = v := by
  obtain ⟨pre, post, rfl, hpost⟩ := hl
  rw [List.foldl_append, List.foldl_cons, foldl_land_keeps fun o h => ho o (hpost o h)]
  exact he _

end

/-! ### One write -/

theorem setFl_getLsbD_same (fl : BitVec 7) {f : Nat} (v : Bool) (hf : f < 7) : (setFl fl f v).getLsbD f = v := by
  cases v <;> simp [setFl, hf]

theorem setFl_getLsbD_ne (fl : BitVec 7) {f g : Nat} (v : Bool) (h : f ≠ g) : (setFl fl g v).getLsbD f = fl.getLsbD f := by
  have hbit : (1#7 <<< g).getLsbD f = false := by
    simp
    omega
  cases v with
  | true => simp [setFl, hbit]
  | false => simpa [setFl, hbit] using BitVec.lt_of_getLsbD

theorem Te.landOne_reg (t : Te) {p : Pend} {r : Nat} (hr : r ≠ 0) (h : p.tgt = .reg r) :
    t.landOne p = { t with ctx := { t.ctx with regs := tabSet 0 t.ctx.regs r p.val } } := by
  obtain ⟨r, rfl⟩ := Nat.exists_eq_succ_of_ne_zero hr
  simp [Te.landOne, h]

theorem Te.landOne_flag (t : Te) {p : Pend} {f : Nat} (h : p.tgt = .flag f) :
    t.landOne p = { t with ctx := { t.ctx with fl := setFl t.ctx.fl f (p.val != 0) } } := by simp [Te.landOne, h]

theorem Te.landOne_dz (t : Te) {p : Pend} {a b : Nat} {c : Option Nat} {d e : Nat} (h : p.tgt = .dz a b c d e) : t.landOne p = t := by
  simp [Te.landOne, h]

theorem Te.landOne_t0 (t : Te) {p : Pend} (h : p.tgt = .reg 0) : t.landOne p = t := by simp [Te.landOne, h]

/-- A write lands in no register but its own. -/
theorem Te.landOne_regs_ne (t : Te) {p : Pend} {j : Nat} (h : p.tgt ≠ .reg j) :
    tabGet 0 (t.landOne p).ctx.regs j = tabGet 0 t.ctx.regs j := by
  cases hp : p.tgt with
  | reg r =>
    by_cases hr : r = 0
    · rw [t.landOne_t0 (hr ▸ hp)]
    · rw [t.landOne_reg hr hp, tabGet_tabSet_ne]
      rintro rfl
      exact h hp
  | flag f => rw [t.landOne_flag hp]
  | dz => rw [t.landOne_dz hp]

/-- A write lands in no flag but its own. -/
theorem Te.landOne_fl_ne (t : Te) {p : Pend} {f : Nat} (h : p.tgt ≠ .flag f) :
    (t.landOne p).ctx.fl.getLsbD f = t.ctx.fl.getLsbD f := by
  cases hp : p.tgt with
  | reg r =>
    by_cases hr : r = 0
    · rw [t.landOne_t0 (hr ▸ hp)]
    · rw [t.landOne_reg hr hp]
  | flag g =>
    rw [t.landOne_flag hp]
    exact setFl_getLsbD_ne _ _ fun e => h (e ▸ hp)
  | dz => rw [t.landOne_dz hp]

/-- What is pending has no part in a landing. -/
theorem Te.landOne_pend (t : Te) (l : List Pend) (p : Pend) :
    Te.landOne { t with pend := l } p = { t.landOne p with pend := l } := by
  unfold Te.landOne
  split <;> rfl

theorem Te.landOne_ctx_ending (t : Te) (p : Pend) : (t.landOne p).ctx.ending = t.ctx.ending := by
  unfold Te.landOne
  split <;> rfl

theorem Lc.landOne_reg (l : Lc) {p : Pend} {r : Nat} (h : p.tgt = .reg r) :
    l.landOne p = { l with regs := tabSet 0 l.regs r p.val.toNat } := by simp [Lc.landOne, h]

theorem Lc.landOne_flag (l : Lc) {p : Pend} {f : Nat} (h : p.tgt = .flag f) :
    l.landOne p = { l with fl := setFl l.fl f (p.val != 0) } := by simp [Lc.landOne, h]

theorem Lc.landOne_dz (l : Lc) {p : Pend} {a b : Nat} {c : Option Nat} {d e : Nat} (h : p.tgt = .dz a b c d e) : l.landOne p = l := by
  simp [Lc.landOne, h]

/-- A write lands in no register but its own. -/
theorem Lc.landOne_regs_ne (l : Lc) {p : Pend} {j : Nat} (h : p.tgt ≠ .reg j) : tabGet 0 (l.landOne p).regs j = tabGet 0 l.regs j := by
  cases hp : p.tgt with
  | reg r =>
    rw [l.landOne_reg hp, tabGet_tabSet_ne]
    rintro rfl
    exact h hp
  | flag f => rw [l.landOne_flag hp]
  | dz => rw [l.landOne_dz hp]

/-- A write lands in no flag but its own. -/
theorem Lc.landOne_fl_ne (l : Lc) {p : Pend} {f : Nat} (h : p.tgt ≠ .flag f) : (l.landOne p).fl.getLsbD f = l.fl.getLsbD f := by
  cases hp : p.tgt with
  | reg r => rw [l.landOne_reg hp]
  | flag g =>
    rw [l.landOne_flag hp]
    exact setFl_getLsbD_ne _ _ fun e => h (e ▸ hp)
  | dz => rw [l.landOne_dz hp]

/-- What is pending has no part in a landing. -/
theorem Lc.landOne_pend (l : Lc) (ps : List Pend) (p : Pend) :
    Lc.landOne { l with pend := ps } p = { l.landOne p with pend := ps } := by
  unfold Lc.landOne
  split <;> rfl

/-! ### What is due -/

theorem Te.landList_eq_foldl (t : Te) (l : List Pend) : t.landList l = l.foldl Te.landOne t := by
  induction l generalizing t with
  | nil => rfl
  | cons p r ih => exact ih (t.landOne p)

theorem Te.landList_append (t : Te) (a b : List Pend) : t.landList (a ++ b) = (t.landList a).landList b := by
  simp only [Te.landList_eq_foldl, List.foldl_append]

theorem Te.landList_pend (t : Te) (ps l : List Pend) :
    Te.landList { t with pend := ps } l = { t.landList l with pend := ps } := by
  simp only [Te.landList_eq_foldl]
  exact List.foldl_hom (fun u : Te => { u with pend := ps }) fun u p => u.landOne_pend ps p

/-- Landing slot by slot lands the writes in the order of landing and leaves the others pending. -/
theorem Te.landFrom_eq (t : Te) (s k : Nat) : t.landFrom s k =
    { t.landList (landOrder s k t.pend) with pend := t.pend.filter fun p => !(decide (s ≤ p.slot) && decide (p.slot < s + k)) } := by
  induction k generalizing t s with
  | zero =>
    rw [filter_slot_zero]
    rfl
  | succ k ih =>
    rw [Te.landFrom, ih, landOrder, Te.landList_append, ← filter_slot_succ]
    simp only [Te.landSlot, Te.landList_pend]

theorem Te.landDue_eq (t : Te) : t.landDue =
    { t.landList (dueOrder t.slotNo t.pend) with pend := t.pend.filter fun p => decide (t.slotNo < p.slot) } := by
  simp only [Te.landDue, Te.landFrom_eq, filter_not_due]
  rfl

theorem Lc.landList_eq_foldl (l : Lc) (ps : List Pend) : l.landList ps = ps.foldl Lc.landOne l := by
  induction ps generalizing l with
  | nil => rfl
  | cons p r ih => exact ih (l.landOne p)

theorem Lc.landList_append (l : Lc) (a b : List Pend) : l.landList (a ++ b) = (l.landList a).landList b := by
  simp only [Lc.landList_eq_foldl, List.foldl_append]

theorem Lc.landList_pend (l : Lc) (ps qs : List Pend) :
    Lc.landList { l with pend := ps } qs = { l.landList qs with pend := ps } := by
  simp only [Lc.landList_eq_foldl]
  exact List.foldl_hom (fun u : Lc => { u with pend := ps }) fun u p => u.landOne_pend ps p

theorem Lc.landFrom_eq (l : Lc) (s k : Nat) : l.landFrom s k =
    { l.landList (landOrder s k l.pend) with pend := l.pend.filter fun p => !(decide (s ≤ p.slot) && decide (p.slot < s + k)) } := by
  induction k generalizing l s with
  | zero =>
    rw [filter_slot_zero]
    rfl
  | succ k ih =>
    rw [Lc.landFrom, ih, landOrder, Lc.landList_append, ← filter_slot_succ]
    simp only [Lc.landList_pend]

theorem Lc.landDue_eq (l : Lc) : l.landDue =
    { l.landList (dueOrder l.slotNo l.pend) with pend := l.pend.filter fun p => decide (l.slotNo < p.slot) } := by
  simp only [Lc.landDue, Lc.landFrom_eq, filter_not_due]
  rfl

/-! ### What stands after a landing -/

/-- The write that lands last on a register of a TE stands there. -/
theorem Te.landDue_reg {t : Te} {e : Pend} {r : Nat} (hr : r ≠ 0) (he : e.tgt = .reg r) (h : e.LastIn (dueOrder t.slotNo t.pend)) :
    tabGet 0 t.landDue.ctx.regs r = e.val := by
  rw [Te.landDue_eq, Te.landList_eq_foldl]
  exact foldl_land_last (read := fun u : Te => tabGet 0 u.ctx.regs r) h (fun u => by simp [u.landOne_reg hr he])
    (fun o ho u => u.landOne_regs_ne (he ▸ ho)) t

/-- The write that lands last on a flag of a TE stands there. -/
theorem Te.landDue_flag {t : Te} {e : Pend} {f : Nat} (hf : f < 7) (he : e.tgt = .flag f) (h : e.LastIn (dueOrder t.slotNo t.pend)) :
    t.landDue.ctx.fl.getLsbD f = (e.val != 0) := by
  rw [Te.landDue_eq, Te.landList_eq_foldl]
  exact foldl_land_last (read := fun u : Te => u.ctx.fl.getLsbD f) h
    (fun u => by rw [u.landOne_flag he]; exact setFl_getLsbD_same _ _ hf) (fun o ho u => u.landOne_fl_ne (he ▸ ho)) t

theorem Lc.landDue_reg {l : Lc} {e : Pend} {r : Nat} (he : e.tgt = .reg r) (h : e.LastIn (dueOrder l.slotNo l.pend)) :
    tabGet 0 l.landDue.regs r = e.val.toNat := by
  rw [Lc.landDue_eq, Lc.landList_eq_foldl]
  exact foldl_land_last (read := fun u : Lc => tabGet 0 u.regs r) h (fun u => by simp [u.landOne_reg he])
    (fun o ho u => u.landOne_regs_ne (he ▸ ho)) l

theorem Lc.landDue_flag {l : Lc} {e : Pend} {f : Nat} (hf : f < 7) (he : e.tgt = .flag f) (h : e.LastIn (dueOrder l.slotNo l.pend)) :
    l.landDue.fl.getLsbD f = (e.val != 0) := by
  rw [Lc.landDue_eq, Lc.landList_eq_foldl]
  exact foldl_land_last (read := fun u : Lc => u.fl.getLsbD f) h
    (fun u => by rw [u.landOne_flag he]; exact setFl_getLsbD_same _ _ hf) (fun o ho u => u.landOne_fl_ne (he ▸ ho)) l

/-- A register that nothing pending names keeps its value. -/
theorem Te.landDue_reg_keeps {t : Te} {j : Nat} (h : ∀ p ∈ t.pend, p.tgt ≠ .reg j) :
    tabGet 0 t.landDue.ctx.regs j = tabGet 0 t.ctx.regs j := by
  rw [Te.landDue_eq, Te.landList_eq_foldl]
  exact foldl_land_keeps (read := fun u : Te => tabGet 0 u.ctx.regs j) (fun o ho u => u.landOne_regs_ne (h o (mem_dueOrder ho).1)) t

theorem Te.landDue_ctx_ending (t : Te) : t.landDue.ctx.ending = t.ctx.ending := by
  rw [Te.landDue_eq, Te.landList_eq_foldl]
  exact foldl_land_keeps (read := fun u : Te => u.ctx.ending) (fun o _ u => u.landOne_ctx_ending o) t

/-- Writes to one register change that register file only. -/
theorem Te.landList_eq_of_reg {r : Nat} (hr : r ≠ 0) {l : List Pend} (h : ∀ p ∈ l, p.tgt = .reg r) (t : Te) :
    t.landList l = { t with ctx := { t.ctx with regs := (t.landList l).ctx.regs } } := by
  induction l generalizing t with
  | nil => rfl
  | cons p ps ih =>
    rw [Te.landList, ih (fun o ho => h o (List.mem_cons_of_mem p ho)), t.landOne_reg hr (h p List.mem_cons_self)]

/-- Where all that is pending is due and names one register, nothing stays pending and the register file alone changes. -/
theorem Te.landDue_eq_of_reg {t : Te} {r : Nat} (hr : r ≠ 0) (h : ∀ p ∈ t.pend, p.tgt = .reg r ∧ p.slot ≤ t.slotNo) :
    t.landDue = { t with pend := [], ctx := { t.ctx with regs := t.landDue.ctx.regs } } := by
  have hp : (t.pend.filter fun p => decide (t.slotNo < p.slot)) = [] :=
    List.filter_eq_nil_iff.mpr fun p hp => by simpa using (h p hp).2
  rw [Te.landDue_eq, hp]
  conv_lhs => rw [Te.landList_eq_of_reg hr fun p hp => (h p (mem_dueOrder hp).1).1]

/-- Where nothing is due nothing changes. -/
theorem Te.landDue_eq_self {t : Te} (h : ∀ p ∈ t.pend, t.slotNo < p.slot) : t.landDue = t := by
  have hp : (t.pend.filter fun p => decide (t.slotNo < p.slot)) = t.pend := List.filter_eq_self.mpr fun p hp => by simpa using h p hp
  rw [Te.landDue_eq, hp, dueOrder_eq_nil h]
  rfl

theorem Lc.landDue_eq_of_single {l : Lc} {p : Pend} {r : Nat} (hp : l.pend = [p]) (hr : p.tgt = .reg r) (hs : p.slot ≤ l.slotNo) :
    l.landDue = { l with pend := [], regs := tabSet 0 l.regs r p.val.toNat } := by
  have hf : (l.pend.filter fun p => decide (l.slotNo < p.slot)) = [] := by simp [hp, hs]
  rw [Lc.landDue_eq, hf, hp, dueOrder_singleton hs, Lc.landList, Lc.landList, l.landOne_reg hr]

/-! ### RESULT_LAND -/

theorem findDz_eq_none {l : List Pend} {r : Nat} (h : ∀ p ∈ l, p.tgt = .reg r) : findDz l = none := by
  induction l with
  | nil => rfl
  | cons p ps ih => simp [findDz, h p List.mem_cons_self, ih fun o ho => h o (List.mem_cons_of_mem p ho)]

theorem Te.dzDue_eq_none {t : Te} {r : Nat} (h : ∀ p ∈ t.pend, p.tgt = .reg r) : t.dzDue = none :=
  findDz_eq_none fun p hp => h p (List.mem_filter.mp hp).1

/-- An engine that runs, with no END or FRET under way and no division trap due, lands what is due and nothing else happens. -/
theorem Mach.landDue_eq_setTe {m : Mach} {n : Nat} (hs : (m.getTe n).st = .run ∨ (m.getTe n).st = .fault)
    (he : (m.getTe n).ctx.ending = 0) (hd : (m.getTe n).dzDue = none) : m.landDue n = m.setTe n (m.getTe n).landDue := by
  have hf : (m.getTe n).landDue.mustFinish = false := by
    simp [Te.mustFinish, Te.landDue_ctx_ending, he]
  simp [Mach.landDue, hs, hd, Mach.settle, hf]

theorem Mach.setTe_keeps (m : Mach) (n : Nat) (t : Te) : (m.setTe n t).keepsBut [.te] m := fun p hp => by
  cases p with
  | te => exact absurd (List.mem_singleton.mpr rfl) hp
  | _ => rfl

theorem does_resultLand_te {s : State} {n : Fin 16} {p : Mach → Prop} (h : p (s.m.landDue n)) : Does (.resultLand (.te n)) s p :=
  ⟨_, rfl, rfl, h⟩

theorem does_resultLand_lc {s : State} {p : Mach → Prop} (h : p (s.m.lcMod Lc.landDue)) : Does (.resultLand .lc) s p :=
  ⟨_, rfl, rfl, h⟩

/-- Where all that is pending on a TE is due and names one register, the write that lands last stands there and nothing else of the
device changes. -/
theorem does_resultLand_of_reg {s : State} {n : Fin 16} {r : Nat} {e : Pend} {before behind : List Pend} (hr : r ≠ 0)
    (hs : (s.m.getTe n).st = .run ∨ (s.m.getTe n).st = .fault) (hend : (s.m.getTe n).ctx.ending = 0)
    (hp : (s.m.getTe n).pend = before ++ e :: behind)
    (hall : ∀ p ∈ before ++ e :: behind, p.tgt = .reg r ∧ p.slot ≤ (s.m.getTe n).slotNo)
    (hb : ∀ o ∈ before, o.slot ≤ e.slot) (ha : ∀ o ∈ behind, o.slot < e.slot) :
    Does (.resultLand (.te n)) s fun x => x.keepsBut [.te] s.m ∧ (∀ j, j ≠ n.val → x.getTe j = s.m.getTe j) ∧
      x.getTe n = { s.m.getTe n with pend := [], ctx := { (s.m.getTe n).ctx with regs := (x.getTe n).ctx.regs } } ∧
      tabGet 0 (x.getTe n).ctx.regs r = e.val ∧
      ∀ j, j ≠ r → tabGet 0 (x.getTe n).ctx.regs j = tabGet 0 (s.m.getTe n).ctx.regs j := by
  apply does_resultLand_te
  obtain ⟨het, hes⟩ := hall e (by simp)
  rw [← hp] at hall
  have hlast : e.LastIn (dueOrder (s.m.getTe n).slotNo (s.m.getTe n).pend) :=
    hp ▸ Pend.lastIn_dueOrder hes (fun o ho _ _ => hb o ho) fun o ho _ _ => ha o ho
  rw [Mach.landDue_eq_setTe hs hend (Te.dzDue_eq_none fun p h => (hall p h).1), Mach.getTe_setTe_same]
  refine ⟨Mach.setTe_keeps _ _ _, fun j hj => Mach.getTe_setTe_ne _ _ hj, Te.landDue_eq_of_reg hr hall, Te.landDue_reg hr het hlast,
    fun j hj => Te.landDue_reg_keeps fun p h => ?_⟩
  rw [(hall p h).1]
  exact fun hc => hj (PTgt.reg.inj hc).symm

/-- Settles O31: landing slot by slot is landing in one order, in which the write of the latest slot, and of one slot the later
issue, is the last on its target. -/
theorem dueResultsLandInOrder : Obligations.DueResultsLandInOrder := by
  unfold Obligations.DueResultsLandInOrder
  intro s n p q e before behind r f hr hf hpt hqt t l lastOf lands
  have hlast {slot : Nat} {issued : List Pend} (h : lastOf slot issued) : e.LastIn (dueOrder slot issued) := by
    obtain ⟨rfl, hd, hb, ha⟩ := h
    exact Pend.lastIn_dueOrder hd hb ha
  refine ⟨fun hst hend => ⟨fun hp hs => ?one, fun hp hs => ?later, fun hp hpq hq => ?second, fun hp hqp hs => ?first, fun hdz h => ?te⟩,
    fun h => ?lc, fun hp hs => ?lcOne⟩
  case one =>
    exact does_resultLand_of_reg (before := []) (behind := []) hr hst hend hp (List.forall_mem_singleton.mpr ⟨hpt, hs⟩)
      (by simp) (by simp)
  case later =>
    have hdz : t.dzDue = none := Te.dzDue_eq_none (r := r) (by simp [hp, hpt])
    have hself : t.landDue = t := Te.landDue_eq_self (by simpa [hp] using hs)
    apply does_resultLand_te
    rw [Mach.landDue_eq_setTe hst hend hdz, Mach.getTe_setTe_same]
    exact hself
  case second =>
    exact does_resultLand_of_reg (before := [p]) (behind := []) hr hst hend hp
      (List.forall_mem_cons.mpr ⟨⟨hpt, hpq.trans hq⟩, List.forall_mem_singleton.mpr ⟨hqt, hq⟩⟩) (by simpa using hpq) (by simp)
  case first =>
    exact does_resultLand_of_reg (before := []) (behind := [q]) hr hst hend hp
      (List.forall_mem_cons.mpr ⟨⟨hpt, hs⟩, List.forall_mem_singleton.mpr ⟨hqt, hqp.le.trans hs⟩⟩) (by simp) (by simpa using hqp)
  case te =>
    have hm : s.m.landDue n = s.m.setTe n t.landDue := Mach.landDue_eq_setTe hst hend hdz
    refine ⟨fun he => does_resultLand_te ?_, fun he => does_resultLand_te ?_⟩
    · rw [hm, Mach.getTe_setTe_same]
      exact Te.landDue_reg hr he (hlast h)
    · rw [hm, Mach.getTe_setTe_same]
      exact Te.landDue_flag hf he (hlast h)
  case lc =>
    exact ⟨fun he => does_resultLand_lc (Lc.landDue_reg he (hlast h)), fun he => does_resultLand_lc (Lc.landDue_flag hf he (hlast h))⟩
  case lcOne =>
    show Host.Outcome.next { s with m := { s.m with lc := l.landDue } } = _
    rw [Lc.landDue_eq_of_single hp hpt hs]
    rfl

end Sys2Proof.Machine
end

section
/-! SUPPORT. Faults of an instruction's own part on a TE (R129, R130, R151), and RDX and WRX outside the fault task (R167). Then
`TeRdxWrxOutsideFaultTaskRaiseIllegal`. -/

namespace Sys2Proof.Machine

open Sys2Proof

/-! ### The fault an instruction raises -/

/-- Outside the fault task a fault of the instruction at the program counter is frozen, and only that engine's state changes. -/
theorem Mach.teFault_outside {m : Mach} {n : Nat} (h : (m.getTe n).inFault = false) (w : W32) (f : OpFault) (rep : Bool) :
    m.teFault n w f rep = m.setTe n { m.getTe n with st := .faulting, wait := none, frozen :=
      ⟨f.code, (m.getTe n).ctx.pc, w.toNat, f.opnd, if (m.getTe n).ctx.btc = 0 then none else (m.getTe n).ctx.bt,
        (m.getTe n).ctx.btc - 1, 0, f.place, rep⟩ } := by
  simp [Mach.teFault, Mach.raise, h]

/-- A ready word whose own part faults raises that fault. -/
theorem Mach.teIssue_bad {m : Mach} {n : Nat} {w : W32} (h : m.tReady n w) (hd : defined true w = true) {body : Mach → Te → Res}
    {f : OpFault} (hb : body (m.landDue n) (m.tNow n) = .bad f) :
    m.teIssue n w false body = (m.landDue n).teFault n w f false := by
  rw [Mach.teIssue_ready h hd, hb]

/-! ### RDX and WRX -/

theorem defined_rdx (rd r : BitVec 5) : defined true (encReg 0x18 rd 0 r 2) = true := by simp [defined]

theorem defined_wrx (ra r : BitVec 5) : defined true (encReg 0x18 0 ra r 3) = true := by simp [defined]

theorem teRdx_outside {t : Te} (h : t.inFault = false) (rd r : BitVec 5) (m : Mach) : teRdx rd r m t = .fault 0x08 := by
  simp [teRdx, h]

theorem teWrx_outside {t : Te} (h : t.inFault = false) (r : BitVec 5) (a : TWord) (m : Mach) (n : Nat) :
    teWrx r a m n t = .fault 0x08 := by
  simp [teWrx, h]

theorem exec_rdx_te (n : Fin 16) (rd r : BitVec 5) (s : State) : exec (.rdx (.te n) rd r) s =
    .next { s with m := s.m.teIssue n (encReg 0x18 rd 0 r 2) false fun m t => teRdx rd r m t } := rfl

theorem exec_wrx_te (n : Fin 16) (r ra : BitVec 5) (s : State) : exec (.wrx (.te n) r ra) s =
    .next { s with m := s.m.teIssue n (encReg 0x18 0 ra r 3) false fun m t => teWrx r (t.ctx.get ra) m n t } := rfl

/-- Settles O14: outside the fault task the own part of either instruction is ILLEGAL, and the fault of a ready instruction is
frozen on its engine alone. -/
theorem teRdxWrxOutsideFaultTaskRaiseIllegal : Obligations.TeRdxWrxOutsideFaultTaskRaiseIllegal := by
  unfold Obligations.TeRdxWrxOutsideFaultTaskRaiseIllegal
  intro s n rd ra r m t illegal hout
  refine ⟨fun hready => ?rdx, fun hready => ?wrx⟩
  case rdx =>
    rw [exec_rdx_te, Mach.teIssue_bad hready (defined_rdx rd r) (teRdx_outside hout rd r m), Mach.teFault_outside hout]
    rfl
  case wrx =>
    rw [exec_wrx_te, Mach.teIssue_bad hready (defined_wrx ra r) (teWrx_outside hout r (s.m.tReg n ra) m n), Mach.teFault_outside hout]
    rfl

end Sys2Proof.Machine
end
